-- ==== Sys2Proof/Word.lean ====
section
/-! DEFINITION. The plain words of the model and their simplest arithmetic: 32-bit register words, bytes, device
addresses, and the two's complement reading of a natural number. -/

namespace Sys2Proof

/-- A 32-bit register word (R6). -/
abbrev Word := BitVec 32

/-- A byte of memory. -/
abbrev Byte := BitVec 8

/-- A coded byte of an on-chip memory: 8 data bits and 5 check bits (R94). -/
abbrev Coded := BitVec 13

/-- A 40-bit accumulator lane of a Yezar engine (R182). -/
abbrev Lane := BitVec 40

/-- A number as the two's complement reading of its low `w` bits. -/
def toSigned (w x : Nat) : Int :=
  let y := x % 2 ^ w
  if y < 2 ^ (w - 1) then (y : Int) else (y : Int) - (2 ^ w : Nat)

/-- The low `w` bits of an integer, as a natural number. -/
def fromSigned (w : Nat) (x : Int) : Nat := (x % ((2 ^ w : Nat) : Int)).toNat

/-- The field of `x` that starts at bit `lo` and is `w` bits wide. -/
def slice (x lo w : Nat) : Nat := (x >>> lo) % 2 ^ w

/-- Bit `i` of `x` made `b`. -/
def withBit (x i : Nat) (b : Bool) : Nat :=
  if b then x ||| (1 <<< i) else x - (x &&& (1 <<< i))

/-- `x` with the bits of `m` cleared. -/
def clearBits (x m : Nat) : Nat := x - (x &&& m)

end Sys2Proof
end

