-- ==== Sys2Proof/Syntax.lean ====
section
/-! DEFINITION. The commands that the block takes, one constructor for each row of the opcode table, and the types of
their operands. Where a row stands for an event of the world outside the model (a clock, a link, a medium, a
cryptographic check), its operands say what was observed. -/

namespace Sys2Proof

/-- A storage channel CH0 to CH15 (R14). -/
abbrev Ch := Fin 16
/-- A partition: logic dies 0 to 3, channels 4 to 19, the hub 20 (R14). -/
abbrev Part := Fin 21
/-- A fabric sector: 32 × die + sector. -/
abbrev Sec := Fin 128
/-- An engine: 64 × channel + engine for the crews, 1,024 + n for hub engine HEn. -/
abbrev Eng := Fin 1028
/-- A host port: 0 is port A, 1 is port B. -/
abbrev Port := Fin 2

/-- Who issues an access (R24, R295). -/
inductive Requester where
  /-- A function of a host port. -/
  | host (port : Port) (pf : Fin 3)
  /-- A channel engine or a hub engine. -/
  | engine (g : Eng)
  /-- The hub mover. -/
  | hubMover
  /-- The configuration controller. -/
  | config
  /-- The debug domain. -/
  | debug
  /-- A fabric sector's injection port. -/
  | sector (s : Sec)
  /-- A channel's data movers: NAND sequencer, LDPC jobs, CRC scan engine. -/
  | mover (n : Ch)
  /-- A probe's trace writer. -/
  | traceWriter (probe : Fin 32)
  /-- The hub CRC units. -/
  | hubCrc
  /-- The SMBus target of the always-on domain (R420). -/
  | smbus
  deriving DecidableEq, Repr

/-- What a product term of a block is made of and where it is steered (R63, R65): enabled; the literals in true and in
complement form; the destination in its pair: 0 unused, 1 and 2 the OR gates of the even and the odd macrocell, 3 and 4
their XOR inputs. -/
structure TermCfg where
  en : Bool
  trueLits : BitVec 48
  compLits : BitVec 48
  dest : Fin 5
  deriving DecidableEq, Repr

/-- The register modes of a macrocell (R69, R70). -/
inductive CellMode where
  | d | t | latch
  deriving DecidableEq, Repr

/-- What the image sets in a macrocell (R64 to R70): mode; initial value; which control term is its clock enable,
synchronous reset and synchronous set (0: none); whether it takes a cascade from M(m - 2); arithmetic mode; the constant
of its XOR input where no term is steered to it. -/
structure CellCfg where
  mode : CellMode
  init : Bool
  ce : Fin 3
  sr : Fin 3
  ss : Fin 3
  casc : Bool
  arith : Bool
  xorConst : Bool
  deriving DecidableEq, Repr

/-- Where the carry-in of M0 comes from (R72). -/
inductive CarrySel where
  | above | zero | one | i47
  deriving DecidableEq, Repr

/-- The directions in which segments run (R73). -/
inductive Dir where
  | north | south | east | west
  deriving DecidableEq, Repr

/-- The kinds of routing segments that start at a tile (R73): the `k`-th local segment to one of the eight neighbours, counted
clockwise from north, whose number the spec does not give; the eight length-4 and the two length-16 segments in a direction. -/
inductive SegKind where
  | near (side : Fin 8) (k : Nat)
  | four (dir : Dir) (k : Fin 8)
  | sixteen (dir : Dir) (k : Fin 2)
  deriving DecidableEq, Repr

/-- A routing segment, by the tile that it starts from (R62, R73). -/
structure Seg where
  sec : Sec
  col : Fin 55
  row : Fin 32
  kind : SegKind
  deriving DecidableEq, Repr

/-- What drives a segment at its start (R71 to R73): an output of macrocell `m` of the block there, combinational or registered;
that block's carry-out of M23; a bit of a MAC block's output, with 64 as OVF, or of a memory port's data, with 128 as CE and 129
as UE, of a unit in the tile or beside it; a bit of a bank's input registers; a bit that a receive port presents of a state
bundle; what else of the sector's ports and primitives drives it, as a value; another segment that ends there. -/
inductive SegSrc where
  | cell (m : Fin 24) (reg : Bool)
  | carry
  | mac (idx : Fin 48) (bit : Fin 65)
  | mem (inst : Fin 104) (portB : Bool) (bit : Fin 130)
  | pin (bank : Fin 12) (bit : Fin 384)
  | bundle (rx : Fin 32) (bit : Fin 64)
  | port (v : Bool)
  | seg (g : Seg)
  deriving DecidableEq, Repr

/-- A segment in use and its driver. -/
structure Route where
  seg : Seg
  src : SegSrc
  deriving DecidableEq, Repr

/-- The setting of a block's input multiplexer (R71, R73): local feedback from an output of one of the block's own macrocells, or
a segment that passes the tile. -/
inductive InSel where
  | own (m : Fin 24) (reg : Bool)
  | seg (g : Seg)
  deriving DecidableEq, Repr

/-- A pin of a MAC block, a memory port or a bank that a segment may drive (R73, R75, R84, R92). Of a MAC block: A in bits 0 to 26,
B 27 to 50, C 51 to 114, the addend select 115 and 116, SUB, LOAD, CLR, clock enable 117 to 120. Of a memory port: its read enable
0, byte enables 1 to 16, data 17 to 144, address from 145. Of a bank: its output bits, or its output enables. -/
inductive PinBit where
  | mac (idx : Fin 48) (bit : Fin 121)
  | mem (inst : Fin 104) (portB : Bool) (bit : Fin 161)
  | bank (bank : Fin 12) (oe : Bool) (bit : Fin 384)
  deriving DecidableEq, Repr

/-- A pin that a segment drives. -/
structure Tap where
  sec : Sec
  pin : PinBit
  seg : Seg
  deriving DecidableEq, Repr

/-- One product-term block on one delivered edge: its place, what its frames set, and the settings of the multiplexers of its 48
inputs. The bit layout of frames and the candidate sets of the routing are fixed in silicon and not given (R73), so the
personality comes with the edge. -/
structure BlockEdge where
  sec : Sec
  col : Fin 55
  row : Fin 32
  terms : List TermCfg
  ctl : List TermCfg
  cells : List CellCfg
  cin : CarrySel
  ins : List InSel
  deriving DecidableEq, Repr

/-- The product-term blocks of an island on one delivered edge, and the routing: the segments in use with their drivers, and the
pins of other elements that segments drive (R62 to R74). -/
structure Logic where
  blocks : List BlockEdge
  routes : List Route := []
  taps : List Tap := []
  deriving DecidableEq, Repr

/-- The addend of a MAC block (R75). -/
inductive MacAddend where
  | acc | c | pcin | zero
  deriving DecidableEq, Repr

/-- The operands and controls of a MAC block (R75), where no segment of the routing drives them. -/
structure MacIn where
  a : BitVec 27
  b : BitVec 24
  c : BitVec 64
  addend : MacAddend
  sub : Bool
  load : Bool
  clr : Bool
  deriving DecidableEq, Repr

/-- One MAC block on one delivered edge: its place (16 × MAC column + j), signedness, enabled registers, clock enable and inputs
(R75, R76). -/
structure MacEdge where
  sec : Sec
  idx : Fin 48
  aSigned : Bool
  bSigned : Bool
  regIn : Bool
  regProd : Bool
  regOut : Bool
  ce : Bool
  inp : MacIn
  deriving DecidableEq, Repr

/-- The modes of a fabric memory instance (R92). -/
inductive MemMode where
  | single | simpleDual | trueDual | rom
  deriving DecidableEq, Repr

/-- One port of a fabric memory on one edge: reads, writes by byte lane, word address, data. -/
structure MemPort where
  read : Bool
  be : BitVec 16
  addr : Nat
  data : BitVec 128
  deriving DecidableEq, Repr

/-- One Ingot (0 to 95) or Billet (96 to 103) on one delivered edge (R92, R93). -/
structure MemEdge where
  sec : Sec
  inst : Fin 104
  mode : MemMode
  /-- log2 of the width in bytes. -/
  width : Fin 5
  readFirst : Bool
  outReg : Bool
  a : MemPort
  b : MemPort
  deriving DecidableEq, Repr

/-- One I/O bank on one delivered edge: output bits and enables the logic gives, input bits at the pins (R84). -/
structure BankEdge where
  bank : Fin 12
  out : Nat
  oe : BitVec 48
  inp : Nat
  deriving DecidableEq, Repr

/-- One general lane's fabric port on one delivered edge: a word supplied, a word taken (R402). -/
structure LaneEdge where
  lane : Fin 96
  tx : Option Nat
  take : Bool
  /-- Since the edge before: words received, words the transmitter needed, the elastic buffer slipped (R402, R403). -/
  got : List Nat
  sent : Nat
  slip : Bool
  deriving DecidableEq, Repr

/-- How the read of a part of an image from its source goes (R112, R121, R141): well; with a bus error, a decode error or poison;
with a page of the store that cannot be corrected; with a byte of the staging memory that cannot be corrected. -/
inductive SourceRead where
  | good | failed
  | badPage (page : Fin 524288)
  | staging
  deriving DecidableEq, Repr

/-- What the checks of an image's signatures find that the model does not compute (R118): whether ED_SIG and MLDSA_SIG over the
manifest hold under the keys of the signature block, and whether the wrapped content key unwraps under the owner image key. -/
structure ImgSignatures where
  ed : Bool
  mldsa : Bool
  unwraps : Bool
  deriving DecidableEq, Repr

/-- A bundle as the frames of an image declare it: its number, the sectors of its ends, the transmit port and the receive port that
it occupies there (R74), its kind, its width, its idle value. -/
structure BundleDecl where
  num : Nat
  src : Sec
  txPort : Fin 32
  dst : Sec
  rxPort : Fin 32
  stream : Bool
  width : Fin 65
  idle : BitVec 64
  deriving DecidableEq, Repr

/-- What the sector control frames of an image declare (R34, R39, R83, R120, R136, R401). The bit layout of frames is not
given (R73), so it comes with the check that ends the load: frequency, fusion and leader of each sector; banks by VCCIO code and
gear; bundles; regions by die, row, column, size; settings of lanes and quads, by register location and value; the caching sectors
by agent number (R314); the wake bits of islands, by the number of a state bundle and the bit (R78). -/
structure Declared where
  islands : List (Sec × BitVec 8 × Fin 4 × Bool)
  banks : List (Fin 12 × BitVec 3 × Fin 4)
  bundles : List BundleDecl
  regions : List (Fin 4 × Fin 4 × Fin 8 × Fin 4)
  lanes : List (Nat × Word)
  caches : List Sec
  wakes : List (Nat × Fin 64) := []
  deriving DecidableEq, Repr

/-- A MEM record: words 1 to 3 of its header, and its data (R255). -/
structure MemRecord where
  word1 : Word
  word2 : Word
  word3 : Word
  data : List Byte
  deriving DecidableEq, Repr

/-- What the load of an image held in memory or in area C meets beside the bytes of its first 8 KiB (R125, R255): how its source is
read, its signatures, whether the tag is right, the digests of the payload as stored. -/
structure ImgChecks where
  read : SourceRead
  sig : ImgSignatures
  tag : Bool
  sha : BitVec 512
  shake : BitVec 512
  deriving DecidableEq, Repr

/-- A copy of Bamid as it is loaded: what its checks meet, and the records of its payload, each with word 0 of its header. -/
structure BamidCopy where
  checks : ImgChecks
  records : List (Word × MemRecord)
  deriving DecidableEq, Repr

/-- Eight bytes of a response with the poison mark of their flit (R161). -/
structure Datum where
  bits : BitVec 64
  psn : Bool
  deriving DecidableEq, Repr

/-- A line of 64 bytes with the poison mark of its flits (R161). -/
structure LineData where
  bits : BitVec 512
  psn : Bool
  deriving DecidableEq, Repr

/-- What the decoder makes of one codeword (R242, R243), which the spec leaves to the code's matrix (assumption 1): the bits of the
codeword that it finds wrong, by index 8 × byte + bit; the RATE with which the codeword was written; the iterations after which it
converges. -/
structure CwFix where
  flips : List Nat
  written : Fin 4
  iterations : Nat
  deriving DecidableEq, Repr

/-- The atomic operations of R159; `other` stands for every code the table does not list. -/
inductive AtomOp where
  | swap | add | and | or | xor | smax | smin | umax | umin | cas | other
  deriving DecidableEq, Repr

/-- A unified register number; 40 to 63 name no register (R207). -/
abbrev UReg := Fin 64
/-- A number of a g register. -/
abbrev GReg := Fin 16

/-- The conditions of R210, by code. -/
inductive Cond where
  | eq | ne | hs | lo | mi | pl | vs | vc | hi | ls | ge | lt | gt | le | al | sat
  deriving DecidableEq, Repr

/-- Control-format operations on two sources (R212). -/
inductive AluOp where
  | add | adc | sub | sbc | and | or | xor | andn | shl | shr | sra | ror | mul | mulhs | mulhu | min | max | minu | maxu
  | clz | popc | sextb | sexth | mov | cmp | tst
  deriving DecidableEq, Repr

/-- Shifts by an immediate (R212). -/
inductive ShiftOp where
  | shl | shr | sra | ror
  deriving DecidableEq, Repr

/-- Immediate-format operations with a 14-bit immediate (R215). -/
inductive ImmOp where
  | addi | andi | ori | xori | cmpi | cmpui | tsti
  deriving DecidableEq, Repr

/-- Loads (R216). -/
inductive LoadOp where
  | ldb | ldbu | ldh | ldhu | ld | ldd
  deriving DecidableEq, Repr

/-- Stores (R216). -/
inductive StoreOp where
  | stb | sth | st | std
  deriving DecidableEq, Repr

/-- D-arith operations (R220, R221). -/
inductive DspOp where
  | mpy | mac | msu | sqa | accx | subx | gmpy | gmac
  deriving DecidableEq, Repr

/-- A decoded Yezar instruction (R208 to R223). -/
inductive Yz where
  | alu (op : AluOp) (rd rs rt : UReg) (f : Bool)
  | shift (op : ShiftOp) (rd rs : UReg) (sh : Fin 32) (f : Bool)
  | divinit (rd rs rt : UReg) (f : Bool)
  | divs (rd : UReg) (f : Bool)
  | csel (c : Cond) (rd rs rt : UReg)
  | movi (rd : UReg) (imm : BitVec 16)
  | movhi (rd : UReg) (imm : BitVec 16)
  | imm (op : ImmOp) (rd rs : UReg) (imm : BitVec 14)
  | load (op : LoadOp) (rd : UReg) (rb : GReg) (off : BitVec 16)
  | store (op : StoreOp) (rd : UReg) (rb : GReg) (off : BitVec 16)
  | ldx (rd : UReg) (rb : GReg) (wide : Bool)
  | stx (rd : UReg) (g rb : GReg) (wide : Bool)
  | b (c : Cond) (off : BitVec 22)
  | bl (off : BitVec 26)
  | jr (c : Cond) (rb : GReg)
  | jlr (c : Cond) (rb : GReg)
  /-- repeat by an immediate, the count less one, or by a g register. -/
  | repeat (count : BitVec 12 ⊕ GReg)
  /-- loop with body length `e` and a count, or a g register. -/
  | loop (e : BitVec 9) (count : BitVec 16 ⊕ GReg)
  | dsp (op : DspOp) (a xi yi : Fin 4) (xu yu : Bool) (lm : BitVec 4)
  | ext (g : GReg) (a k : Fin 4) (sat : Bool)
  | exst (y : Bool) (a : Fin 4) (sat : Bool) (pi : Fin 4) (u : Bool)
  | gst (y : Bool) (a : Fin 4) (h : Bool) (pi : Fin 4) (u : Bool)
  | mfa (g : GReg) (a k : Fin 4)
  | mfah (g : GReg) (a : Fin 4)
  | mta (a k : Fin 4) (g : GReg)
  | mtah (a : Fin 4) (g : GReg)
  | clra (a : Fin 4)
  | sha (a : Fin 4) (n : BitVec 6)
  | nop | fence | wait | clrex | reti
  | svc (num : BitVec 16)
  | mfc (rd : UReg) (cn : Fin 16)
  | mtc (cn : Fin 16) (rs : UReg)
  deriving DecidableEq, Repr

/-- How a response to a crew port request ends. -/
inductive PortStatus where
  | ok | decodeError | busError | poison
  deriving DecidableEq, Repr

/-- What Patina finds when it reads a line from DRAM (R278, R288, R289): nothing wrong; correctable bytes, by their number; an
uncorrectable ECC error; a failing tag; a tree line, by level and index, with an uncorrectable ECC error or a failing tag;
an uncorrectable byte in the on-chip levels. -/
inductive LineCheck where
  | ok
  | corrected (n : Nat)
  | eccFail
  | tagFail
  | treeEcc (level index : Nat)
  | treeTag (level index : Nat)
  | chipByte (level index : Nat)
  deriving DecidableEq, Repr

/-- The commands: one constructor for each row of the opcode table. -/
inductive Instr where
  -- registers and resets (spec/00, 02)
  /-- A write of `size` bytes to a register location. -/
  | registerWrite (req : Requester) (addr : Nat) (size : Nat) (data : Word)
  /-- A read of a register with an RC field. -/
  | rcRead (req : Requester) (addr : Nat)
  /-- A read of the low word of a 64-bit register. -/
  | lowWordRead (req : Requester) (addr : Nat)
  | por
  /-- A core rail below its brownout level for `ns` nanoseconds. -/
  | brownout (ns : Nat)
  /-- RESET_N falls and stays low for at least `ns` nanoseconds. -/
  | resetNLow (ns : Nat)
  | resetNRise
  /-- The strap levels at the sampling instant. -/
  | strapSample (bootSel clkMode : Fin 4) (pullLo pullHi : Bool)
  | perstAssert (port : Port)
  | linkHot (port : Port)
  | hubWdtExpiry
  | thermalShutdown
  /-- A write to RST_CTRL with SCOPE = 0b001. -/
  | rstCtrlWarm (req : Requester) (key : BitVec 8)
  /-- A write to RST_CTRL with SCOPE = 0b010. -/
  | rstCtrlPartition (req : Requester) (key : BitVec 8) (part : BitVec 5)
  /-- A write to RST_CTRL with SCOPE = 0b011 or 0b100. -/
  | rstCtrlHostLink (req : Requester) (key : BitVec 8) (port : Port)
  | domainResetRelease (d : Fin 308)
  | resetClockWaitTimeout (p : Part)
  | checkerSelfTestDone (p : Part) (pass : Bool)
  | memoryFillDone (p : Part)
  | partitionResetEnd (p : Part)
  | clockStable (d : Fin 308)
  | clockLost (d : Fin 308)
  | aonXtalStable
  | aonXtalTimeout
  | aonXtalDrift
  | timesyncFrameSend
  /-- A frame's value, with the follower's own count at the marker taken from the state. -/
  | timesyncFrameReceive (value : BitVec 64)
  /-- One more frame that did not come; the fourth in a row is the loss. -/
  | timesyncLost
  /-- A write of `data` to CLK_ISL of sector `sec`. -/
  | freqWrite (req : Requester) (sec : Sec) (freq : BitVec 8)
  | islandFreqStep (sec : Sec)
  /-- A value offered with valid at bundle `b`. -/
  | streamBundleAccept (b : Nat) (value : BitVec 64)
  /-- The oldest value of bundle `b` in transit reaches the destination. -/
  | bundleValueArrive (b : Nat)
  -- fabric (spec/03)
  /-- island_gate's req sampled on a delivered edge of the island that holds sector `sec`. -/
  | islandGate (sec : Sec) (req : Bool)
  /-- A wake event of a gated island (R78). -/
  | islandWake (sec : Sec)
  /-- fabric_fence's req sampled 1 with the set of bound injection ports. -/
  | fabricFence (sec : Sec) (ports : List Sec)
  | fabricFenceDone (sec : Sec)
  /-- The four user_irq lines of a sector sampled on a delivered edge. -/
  | userIrq (sec : Sec) (lines : BitVec 4)
  /-- The measured VCCIO code of a bank outside its declared window. -/
  | bankVccioMismatch (bank : Fin 12) (det : BitVec 3)
  | bankVccioRestore (bank : Fin 12)
  -- on-chip memories (spec/04)
  /-- A read of one byte: the bits upset in the stored word since it was last stored, whether the memory is a ROM,
  whether the configuration path or a user writes the byte at the read edge. -/
  | onchipMemoryRead (p : Part) (unit : Fin 2048) (inst : Fin 128) (addr : Fin 1048576) (upset : BitVec 13) (rom cfgWrite : Bool) (userWrite : Option Byte)
  /-- The write-back edge of one memory byte; a user or configuration write that reaches it at that edge. -/
  | memoryWriteBack (p : Part) (unit : Fin 2048) (inst : Fin 128) (addr : Fin 1048576) (userWrite : Option Byte)
  /-- A write of `mask` to RAS_SLAG_VALID of a partition. -/
  | slagEntryFree (req : Requester) (p : Part) (mask : Word)
  /-- One step of Flux in a partition, with the bits upset in stored bytes since they were stored (unit, instance, byte
  address, bits) and the instances that are ROMs. -/
  | fluxStep (p : Part) (upsets : List (Fin 2048 × Fin 128 × Fin 1048576 × BitVec 13)) (roms : List (Fin 2048 × Fin 128))
  | fluxLate (p : Part)
  /-- A scrubber step of a sector with the upset bytes of the frame read: byte and upset bits. -/
  | cfgScrubFrame (sec : Sec) (upsets : List (Fin 512 × BitVec 13))
  | checkerTestGo (req : Requester) (part : BitVec 5)
  | checkerTestDone (fail : Bool)
  -- configuration (spec/05, 06)
  /-- Service calls on the image store; the blocks that fail their erase or program, counted from the first one that the call
  touches (R113). -/
  | storeErase (he : Fin 4) (bad : List Nat)
  | storeWrite (he : Fin 4) (data : List Byte) (bad : List Nat)
  | storeCommit (he : Fin 4)
  /-- A page read by the store's scrub: the page with the bits corrected, or uncorrectable (R112). -/
  | nvPageScrub (page : Fin 524288 × Nat) (uncorrectable : Bool)
  /-- The first 8 KiB of an image, byte n as bits [8n + 7:8n], where its source is none that the model holds; how it is read. -/
  | loadHeaderCheck (head : BitVec 65536) (srcErr : SourceRead)
  | loadSignaturesDone (sig : ImgSignatures)
  /-- A record of the payload by its header words; `srcErr`: how the source is read. -/
  | framesRecord (word0 addr count word3 : Word) (data : List Byte) (srcErr : SourceRead)
  | settingRecord (word0 off value word3 : Word)
  | endRecord (word0 total word2 word3 : Word)
  | memRecord (word0 : Word) (rec : MemRecord) (srcErr : SourceRead)
  /-- Whether the tag is right, SHA-512 and SHAKE256 of the payload as stored, and what the frames declare. -/
  | loadFinalChecks (tag : Bool) (sha shake : BitVec 512) (decl : Declared)
  | loadRestartAfterReset
  | bamidLoad (first second : BamidCopy)
  /-- `who`: 0 the full load, 1 the partial load, 2 + d the start-up of die d after its reset. -/
  | lockStepDone (who : Fin 6)
  | lockStepTimeout (who : Fin 6)
  | cfgDoneHigh
  | releaseToken (who : Fin 6)
  | releaseReport (who : Fin 6) (sec : Sec)
  /-- A write of bytes at an offset of the CFG_ aperture. -/
  | hostLoadWrite (req : Requester) (off : Nat) (data : List Byte)
  | hostLoadTimeout
  | cfgHloadAbort (req : Requester)
  | coxLoadTimeout
  | pfAbsentTimeout (port : Port)
  /-- A write to CFG_PR_CTRL with GO set. -/
  | prGo (req : Requester) (srcStore : Bool)
  | prAbort (req : Requester)
  | prFinalChecks (tag : Bool) (sha shake : BitVec 512) (decl : Declared)
  /-- The last frame of the partial image is written; `ue`: a read of the Boathouse was uncorrectable. -/
  | prFramesWritten (ue : Bool)
  /-- A write to CFG_CAP_CTRL with GO set. -/
  | captureGo (req : Requester) (trigEn : Bool)
  /-- `init`: the macrocells of the island whose initial value is 1, which its frames set (R73). -/
  | captureSnapshot (sec : Sec) (init : List Nat)
  | captureNoEdge (sec : Sec) (init : List Nat)
  /-- A write to CFG_RB_CTRL with GO set. -/
  | readbackGo (req : Requester) (shadow : Bool)
  | readbackAbort (req : Requester)
  /-- The next frame's destination writes end; the bytes of the frame upset since they were stored, and those of them that
  are uncorrectable. -/
  | readbackFrameDone (busErr : Bool) (upsets : List (Fin 512 × BitVec 13))
  -- network on chip (spec/07, 13)
  /-- A read of `len + 1` bytes at a device address. -/
  | rd (req : Requester) (tag : Fin 1024) (addr : BitVec 52) (len : Fin 64)
  /-- A write with byte enables of the 64-byte block; `psn`: some data flit carries the poison mark. -/
  | wr (req : Requester) (tag : Fin 1024) (addr : BitVec 52) (len : Fin 64) (be : BitVec 64) (data : BitVec 512) (psn : Bool)
  /-- An atomic operation on 4 bytes, or 8 where `wide`. -/
  | atom (req : Requester) (tag : Fin 1024) (addr : BitVec 52) (wide : Bool) (op : AtomOp) (operand compare : BitVec 64)
  | rdSh (sec : Sec) (tag : Fin 1024) (addr : BitVec 52)
  | rdOwn (sec : Sec) (tag : Fin 1024) (addr : BitVec 52)
  | cleanEvict (sec : Sec) (tag : Fin 1024) (addr : BitVec 52)
  | dirtyEvict (sec : Sec) (tag : Fin 1024) (addr : BitVec 52) (data : LineData)
  /-- Read data reaches the requester; the data is the target's own where the model does not hold the target. -/
  | rdData (req : Requester) (tag : Fin 16384) (data : BitVec 512) (psn : Bool)
  | wrAck (req : Requester) (tag : Fin 16384)
  | atomData (req : Requester) (tag : Fin 1024) (data : Datum)
  | errDecode (req : Requester) (tag : Fin 16384)
  | errBus (req : Requester) (tag : Fin 16384)
  | snpRsp (sec : Sec) (line : BitVec 46)
  | snpRspData (sec : Sec) (line : BitVec 46) (data : LineData)
  | cdataS (sec : Sec) (tag : Fin 1024) (data : LineData)
  | cdataE (sec : Sec) (tag : Fin 1024) (data : LineData)
  | evictAck (sec : Sec) (tag : Fin 1024)
  | snpInv (sec : Sec) (line : BitVec 46)
  | snpData (sec : Sec) (line : BitVec 46)
  | snpCur (sec : Sec) (line : BitVec 46)
  | binv (sec : Sec) (line : BitVec 46)
  /-- A management write to a sector's router: a router setting, a target-map word, an idle value of a receive port. -/
  | mgtWr (sec : Sec) (addr : BitVec 32) (data : BitVec 64)
  | mgtRd (sec : Sec) (addr : BitVec 32)
  | mgtRsp (sec : Sec)
  /-- A debug access of 1, 2, 4 or 8 bytes (log2 `size`) on the mesh. -/
  | dbgRd (set : Fin 2) (addr : BitVec 52) (size : Fin 4)
  | dbgRdc (set : Fin 2) (addr : BitVec 52) (size : Fin 4)
  | dbgWr (set : Fin 2) (addr : BitVec 52) (size : Fin 4) (data : BitVec 64)
  /-- The answer to the debug access of an access set: data or an error. -/
  | dbgRsp (set : Fin 2) (data : BitVec 64) (err : Bool)
  /-- The oldest queued record of a probe reaches the trace writer. -/
  | trace (probe : Fin 32)
  /-- A fault of a router or bridge: the unit, the KIND of NOC_ERR_LOG, the port and the tag of the flit. -/
  | routerFault (unit : BitVec 16) (kind port : BitVec 8) (tag : Fin 1024)
  | nocRequestTimeout (req : Requester) (tag : Fin 16384)
  | nocStall (unit : BitVec 16) (port : BitVec 8)
  -- Yezar instructions (spec/09): the engine that issues, then the decoded fields
  | yAdd (g : Eng) (rd rs rt : UReg) (f : Bool)
  | yAdc (g : Eng) (rd rs rt : UReg) (f : Bool)
  | ySub (g : Eng) (rd rs rt : UReg) (f : Bool)
  | ySbc (g : Eng) (rd rs rt : UReg) (f : Bool)
  | yAnd (g : Eng) (rd rs rt : UReg) (f : Bool)
  | yOr (g : Eng) (rd rs rt : UReg) (f : Bool)
  | yXor (g : Eng) (rd rs rt : UReg) (f : Bool)
  | yAndn (g : Eng) (rd rs rt : UReg) (f : Bool)
  | yShl (g : Eng) (rd rs rt : UReg) (f : Bool)
  | yShr (g : Eng) (rd rs rt : UReg) (f : Bool)
  | ySra (g : Eng) (rd rs rt : UReg) (f : Bool)
  | yRor (g : Eng) (rd rs rt : UReg) (f : Bool)
  | yMul (g : Eng) (rd rs rt : UReg) (f : Bool)
  | yMulhs (g : Eng) (rd rs rt : UReg) (f : Bool)
  | yMulhu (g : Eng) (rd rs rt : UReg) (f : Bool)
  | yMin (g : Eng) (rd rs rt : UReg) (f : Bool)
  | yMax (g : Eng) (rd rs rt : UReg) (f : Bool)
  | yMinu (g : Eng) (rd rs rt : UReg) (f : Bool)
  | yMaxu (g : Eng) (rd rs rt : UReg) (f : Bool)
  | yClz (g : Eng) (rd rs : UReg) (f : Bool)
  | yPopc (g : Eng) (rd rs : UReg) (f : Bool)
  | ySextb (g : Eng) (rd rs : UReg) (f : Bool)
  | ySexth (g : Eng) (rd rs : UReg) (f : Bool)
  | yMov (g : Eng) (rd rs : UReg) (f : Bool)
  | yCmp (g : Eng) (rs rt : UReg) (f : Bool)
  | yTst (g : Eng) (rs rt : UReg) (f : Bool)
  | yShli (g : Eng) (rd rs : UReg) (sh : Fin 32) (f : Bool)
  | yShri (g : Eng) (rd rs : UReg) (sh : Fin 32) (f : Bool)
  | ySrai (g : Eng) (rd rs : UReg) (sh : Fin 32) (f : Bool)
  | yRori (g : Eng) (rd rs : UReg) (sh : Fin 32) (f : Bool)
  | yDivinit (g : Eng) (rd rs rt : UReg) (f : Bool)
  | yDivs (g : Eng) (rd : UReg) (f : Bool)
  | yCsel (g : Eng) (c : Cond) (rd rs rt : UReg)
  | yMovi (g : Eng) (rd : UReg) (imm : BitVec 16)
  | yMovhi (g : Eng) (rd : UReg) (imm : BitVec 16)
  | yAddi (g : Eng) (rd rs : UReg) (imm : BitVec 14)
  | yAndi (g : Eng) (rd rs : UReg) (imm : BitVec 14)
  | yOri (g : Eng) (rd rs : UReg) (imm : BitVec 14)
  | yXori (g : Eng) (rd rs : UReg) (imm : BitVec 14)
  | yCmpi (g : Eng) (rs : UReg) (imm : BitVec 14)
  | yCmpui (g : Eng) (rs : UReg) (imm : BitVec 14)
  | yTsti (g : Eng) (rs : UReg) (imm : BitVec 14)
  | yLdb (g : Eng) (rd : UReg) (rb : GReg) (off : BitVec 16)
  | yLdbu (g : Eng) (rd : UReg) (rb : GReg) (off : BitVec 16)
  | yLdh (g : Eng) (rd : UReg) (rb : GReg) (off : BitVec 16)
  | yLdhu (g : Eng) (rd : UReg) (rb : GReg) (off : BitVec 16)
  | yLd (g : Eng) (rd : UReg) (rb : GReg) (off : BitVec 16)
  | yLdd (g : Eng) (rd : UReg) (rb : GReg) (off : BitVec 16)
  | yStb (g : Eng) (rd : UReg) (rb : GReg) (off : BitVec 16)
  | ySth (g : Eng) (rd : UReg) (rb : GReg) (off : BitVec 16)
  | ySt (g : Eng) (rd : UReg) (rb : GReg) (off : BitVec 16)
  | yStd (g : Eng) (rd : UReg) (rb : GReg) (off : BitVec 16)
  | yLdx (g : Eng) (rd : UReg) (rb : GReg) (wide : Bool)
  | yStx (g : Eng) (rd : UReg) (gs rb : GReg) (wide : Bool)
  | yB (g : Eng) (c : Cond) (off : BitVec 22)
  | yBl (g : Eng) (off : BitVec 26)
  | yJr (g : Eng) (c : Cond) (rb : GReg)
  | yJlr (g : Eng) (c : Cond) (rb : GReg)
  | yRepeat (g : Eng) (count : BitVec 12 ⊕ GReg)
  | yLoop (g : Eng) (e : BitVec 9) (count : BitVec 16 ⊕ GReg)
  | yMpy (g : Eng) (a xi yi : Fin 4) (xu yu : Bool) (lm : BitVec 4)
  | yMac (g : Eng) (a xi yi : Fin 4) (xu yu : Bool) (lm : BitVec 4)
  | yMsu (g : Eng) (a xi yi : Fin 4) (xu yu : Bool) (lm : BitVec 4)
  | ySqa (g : Eng) (a xi yi : Fin 4) (xu yu : Bool) (lm : BitVec 4)
  | yAccx (g : Eng) (a xi yi : Fin 4) (xu yu : Bool) (lm : BitVec 4)
  | ySubx (g : Eng) (a xi yi : Fin 4) (xu yu : Bool) (lm : BitVec 4)
  | yGmpy (g : Eng) (a xi yi : Fin 4) (xu yu : Bool) (lm : BitVec 4)
  | yGmac (g : Eng) (a xi yi : Fin 4) (xu yu : Bool) (lm : BitVec 4)
  | yExt (g : Eng) (rd : GReg) (a k : Fin 4) (sat : Bool)
  | yExstx (g : Eng) (a : Fin 4) (sat : Bool) (pi : Fin 4) (u : Bool)
  | yExsty (g : Eng) (a : Fin 4) (sat : Bool) (pi : Fin 4) (u : Bool)
  | yGstx (g : Eng) (a : Fin 4) (h : Bool) (pi : Fin 4) (u : Bool)
  | yGsty (g : Eng) (a : Fin 4) (h : Bool) (pi : Fin 4) (u : Bool)
  | yMfa (g : Eng) (rd : GReg) (a k : Fin 4)
  | yMfah (g : Eng) (rd : GReg) (a : Fin 4)
  | yMta (g : Eng) (a k : Fin 4) (rs : GReg)
  | yMtah (g : Eng) (a : Fin 4) (rs : GReg)
  | yClra (g : Eng) (a : Fin 4)
  | ySha (g : Eng) (a : Fin 4) (n : BitVec 6)
  | yNop (g : Eng)
  | yFence (g : Eng)
  | yWait (g : Eng)
  | yClrex (g : Eng)
  | yReti (g : Eng)
  | ySvc (g : Eng) (num : BitVec 16)
  | yMfc (g : Eng) (rd : UReg) (cn : Fin 16)
  | yMtc (g : Eng) (cn : Fin 16) (rs : UReg)
  -- engine events (spec/08)
  /-- A boundary of an engine, with its next instruction; none where the next word decodes to none. -/
  | interruptEntry (g : Eng) (next : Option Yz)
  | featherWake (g : Eng)
  /-- The response to the engine's stalled request, or to its oldest posted store: how it ends, and the data where the
  target is one whose contents the model does not hold (the fabric, host memory). -/
  | crewPortResponse (g : Eng) (store : Bool) (status : PortStatus) (data : BitVec 64)
  | crewPortTimeout (g : Eng) (store : Bool)
  /-- An outside access to IMEM, XMEM or YMEM (instance 0 to 2) of a channel engine: 32 bits at a byte offset. -/
  | engineMemoryOutsideAccess (req : Requester) (g : Fin 1024) (inst : Fin 3) (off : Fin 32768) (write : Option Word)
  /-- The count reaches 0; `restartFails`: the restart itself fails (R202). -/
  | engineWatchdogBite (g : Eng) (restartFails : Bool)
  | engWdtLoad (req : Requester) (g : Eng) (data : Word)
  | engWdtKick (req : Requester) (g : Eng) (key : BitVec 8)
  | engCtrlRun (req : Requester) (g : Eng) (run : Bool)
  /-- A write of ENG_CTRL with RESTART = 1 and the given RUN. -/
  | engCtrlRestart (req : Requester) (g : Eng) (run : Bool)
  | engIrqSet (req : Requester) (g : Eng) (lines : BitVec 16)
  /-- A write of ENG_TMR_HI. -/
  | engTmrArm (req : Requester) (g : Eng) (hi : Word)
  | engineTimer (g : Eng)
  -- storage channels (spec/10)
  | nandDescriptorPush (req : Requester) (n : Ch) (data : Word)
  /-- The bus of channel `n` is released and goes to the next program. -/
  | nandBusGrant (n : Ch)
  | nandEnd (n : Ch)
  | nandCmd (n : Ch)
  | nandAddr (n : Ch)
  | nandDout (n : Ch)
  | nandDin (n : Ch)
  /-- A data phase ends: the bytes received, what the decoder makes of each codeword, codewords that fail in any case, and the byte at
  which a buffer access failed, if one did. -/
  | nandDataPhaseDone (n : Ch) (rx : List Byte) (corrected : List CwFix) (failed : BitVec 8) (bufErr : Option Nat)
  | nandWaitT (n : Ch)
  | nandWaitTExpiry (n : Ch)
  | nandWaitRb (n : Ch)
  | nandLunReady (n : Ch) (lun : Fin 16)
  | nandWaitRbTimeout (n : Ch) (lun : Fin 16)
  /-- A STATUS micro-op with the byte read. -/
  | nandStatus (n : Ch) (byte : Byte)
  /-- A write to NAND_CTRL. -/
  | nandCtrlEn (req : Requester) (n : Ch) (en wpRel : Bool)
  /-- A write to NAND_CTRL that leaves EN as it stands. -/
  | nandCtrlWpRel (req : Requester) (n : Ch) (wpRel : Bool)
  | nandCfgWrite (req : Requester) (n : Ch) (data : Word)
  | nandResume (req : Requester) (n : Ch) (luns : BitVec 16)
  | nandCqRptrWrite (req : Requester) (n : Ch) (index : BitVec 12)
  /-- The oldest LDPC job of the queue, whose record holds the operation named, starts. -/
  | ldpcEncode (n : Ch)
  | ldpcHardDecode (n : Ch)
  | ldpcSoftDecode2bit (n : Ch)
  | ldpcSoftDecode3bit (n : Ch)
  /-- The job ends: the bits of the codeword that the decoder finds wrong, the RATE with which it was written, the iterations after
  which the decoder converges, whether it fails in any case, whether a buffer access does. -/
  | ldpcJobComplete (n : Ch) (flips : List Nat) (written : Fin 4) (iterations : Nat) (failed bufErr : Bool)
  /-- A write to CRC_CTX of context `c` with INIT set. -/
  | crcCtxInit (req : Requester) (n : Ch) (c poly : Fin 4)
  /-- A write to CRC_SCAN + 0x00 with GO set. -/
  | crcScanGo (req : Requester) (n : Ch) (bsize blk : Bool) (ctx : Fin 4)
  /-- The scan ends: bytes it read where the model does not hold the source, and the byte at which a read failed. -/
  | crcScanDone (n : Ch) (bytes : List Byte) (fail : Option Nat)
  | crewTqPush (req : Requester) (n : Ch) (data : Word)
  | crewTqPop (req : Requester) (n : Ch)
  | chSwdtKick (req : Requester) (n : Ch) (key : BitVec 8)
  | chSwdtLoad (req : Requester) (n : Ch) (data : Word)
  | chWdt (n : Ch)
  -- DRAM controllers (spec/11)
  | dramCtrlStart (req : Requester) (n : Ch)
  | dramAutoStart (n : Ch)
  /-- The path ends: the trained values of sub-channels A and B as words of DRAM_TRAIN. -/
  | dramInitComplete (n : Ch) (trainA trainB : Word)
  /-- A training step and its repeat fail: 1 ZQ, 2 command bus, 3 WCK levelling, 4 read DQ, 5 write training; the sub-channel. -/
  | dramTrainingFailure (n : Ch) (step : Fin 6) (sub : Fin 2)
  | dramCtrlRefAll (req : Requester) (n : Ch)
  /-- Patina presents the line at a physical offset. -/
  | dramRequest (n : Ch) (write : Bool) (line : Nat)
  /-- The burst of the oldest queued request for a line completes. -/
  | dramBurstComplete (n : Ch) (write : Bool) (line : Nat)
  /-- A per-bank refresh falls due: it is issued, or postponed. -/
  | dramRefreshTick (n : Ch) (issued : Bool)
  /-- The highest refresh-rate field read; a die above its temperature limit; refresh management required. -/
  | dramMr4Poll (n : Ch) (rate : BitVec 4) (hot rfm : Bool)
  /-- The row of a bank (sub-channel × 32 + rank × 16 + bank) has been idle for 64 controller cycles. -/
  | dramRowIdleClose (n : Ch) (bank : Fin 64)
  | dramRdWindow (n : Ch)
  /-- The self-refresh entry of a reset, of Easy or of Moored ends. -/
  | dramSelfRefreshEntry (n : Ch)
  /-- A parity error; `training`: in the stored training values. -/
  | dramStateError (n : Ch) (training : Bool)
  | dramUnitResetDone (n : Ch)
  -- Patina and security (spec/12)
  /-- A read of `bytes` bytes of one line at a slot offset, with what the checks find. -/
  | patinaLineRead (n : Ch) (req : Requester) (key : Fin 16) (off : Nat) (bytes : Fin 65) (control : Bool) (check : LineCheck)
  | patinaLineWrite (n : Ch) (req : Requester) (key : Fin 16) (off : Nat) (data : BitVec 512) (posted : Bool)
  | patinaPartialWrite (n : Ch) (req : Requester) (key : Fin 16) (off : Nat) (be : BitVec 64) (data : BitVec 512) (posted : Bool) (check : LineCheck)
  /-- Re-encryption of a page ends; the lines that failed their check. -/
  | pageReencryptDone (n : Ch) (page : Nat) (failed : List Nat)
  | cipherBlockFillDone (n : Ch) (block : Nat)
  | patCtrlClear (req : Requester) (n : Ch) (entry : Fin 16)
  | patCtrlRelease (req : Requester) (n : Ch)
  | patinaStateError (n : Ch)
  | patinaUnitResetDone (n : Ch)
  | trngHealthFail
  /-- Writes to SEC_KS_CTRL of slot `k`. -/
  | ksLoadTrng (req : Requester) (k : Fin 16)
  | ksLoadData (req : Requester) (k : Fin 16)
  | ksClose (req : Requester) (k : Fin 16)
  /-- Writes of 1 to a bit of SEC_LOCK. -/
  | secLockKeys (req : Requester)
  | secLockRights (req : Requester)
  | secLockDbg (req : Requester)
  | secLockDump (req : Requester)
  /-- SEC_OTP_CMD.GO over an owner request with OP 0x01, or 0x02. -/
  | otpProgram (req : Requester)
  | otpRevoke (req : Requester)
  /-- The request ends: both signatures verify; the digest over the keys offered; the OTP write succeeds. -/
  | otpRequestDone (ed mldsa : Bool) (written : Bool)
  | secGlitch
  | getVersion
  | getCapabilities
  | negotiateAlgorithms
  | getDigests
  | getCertificate (slot : Fin 8)
  | challenge (slot : Fin 8)
  | getMeasurements (index : BitVec 8) (sign : Bool)
  | keyExchange (slot : Fin 8)
  /-- FINISH; whether its verification data is right. -/
  | finish (session : Nat) (good : Bool)
  | endSession (session : Nat)
  | uzPqsig
  -- host ports and command programs (spec/13)
  /-- A CXL.mem read of the line at device physical address `h` of HDM range `r`; the copy that the host is granted: none,
  Shared, or Exclusive. -/
  | hostMemRead (port : Port) (r : Fin 8) (tag : Fin 16384) (h : Nat) (grant : Option Bool)
  | hostMemWrite (port : Port) (r : Fin 8) (tag : Fin 16384) (h : Nat) (be : BitVec 64) (data : BitVec 512) (grant : Option Bool)
  /-- A memory read of `size` bytes at an offset of BAR0 of PF0 or PF2. -/
  | hostIoRead (port : Port) (pf : Fin 3) (tag : Fin 1024) (off : Nat) (size : Nat)
  | hostIoWrite (port : Port) (pf : Fin 3) (tag : Fin 1024) (off : Nat) (size : Nat) (data : BitVec 512)
  /-- A configuration request for a function: word, and the data of a write. -/
  | hostConfigRequest (port : Port) (fn : Fin 8) (tag : Fin 1024) (word : Fin 1024) (write : Option Word)
  | hostAtomicop (port : Port) (pf : Fin 3) (tag : Fin 1024)
  /-- H2D snoops on port A for a host line (location / 64). -/
  | snpinv (line : BitVec 46)
  | snpdata (line : BitVec 46)
  | snpcur (line : BitVec 46)
  /-- A BIRsp for a line, with data written back. -/
  | birsp (port : Port) (line : BitVec 46) (data : Option (BitVec 512))
  /-- The host's completion of an outbound request by device tag. -/
  | hostCompletion (port : Port) (tag : Fin 16384) (ok : Bool) (data : BitVec 512)
  | biTimeout (port : Port) (line : BitVec 46)
  | snpTimeout (sec : Sec) (line : BitVec 46)
  /-- A sub-link retrains: up or down afterwards, its rate code, the lanes, and what was negotiated. -/
  | linkRetrain (port : Port) (sub : Fin 4) (up : Bool) (rate : Fin 7) (width : Fin 17) (flit cxl cache mem : Bool)
  | nvmeSqDoorbell (port : Port) (q : Fin 64) (tail : Fin 4096)
  /-- The next submission entry of a queue, as fetched. -/
  | nvmeCommandDispatch (port : Port) (q : Fin 64) (cmd : BitVec 512)
  | nvmeOutWpWrite (req : Requester) (n : Ch) (wp : BitVec 10)
  | slotDoorbell (req : Requester) (slot : Fin 64) (tag : BitVec 16)
  /-- Bamid starts a queued slot on a hub engine: the program's bytes as fetched where the model does not hold the source,
  and whether the fetch failed. -/
  | slotProgramStart (slot : Fin 64) (he : Fin 4) (prog : List Byte) (fetchErr : Bool)
  | slotAbort (req : Requester) (slot : Fin 64)
  | slotWatchdogExpiry (slot : Fin 64)
  | cmdCapLock (req : Requester)
  /-- Service calls of the program that runs on hub engine `he` (R327). -/
  | exit (he : Fin 4) (recordErr : Bool)
  | map (he : Fin 4)
  | time (he : Fin 4)
  | measure (he : Fin 4)
  | loadFull (he : Fin 4)
  | loadPartial (he : Fin 4)
  | captureReadback (he : Fin 4)
  /-- The first 8 KiB of the image where its source is none that the model holds; what its checks meet; its records, each with
  word 0 of its header. -/
  | chFirmware (he : Fin 4) (head : BitVec 65536) (checks : ImgChecks) (records : List (Word × MemRecord))
  | chReset (he : Fin 4)
  | dramStart (he : Fin 4)
  | powerState (he : Fin 4) (drained sysclk : Bool)
  | opSet (he : Fin 4)
  | resetCall (he : Fin 4)
  | crcRun (he : Fin 4) (bytes : List Byte)
  | hdmSet (he : Fin 4)
  | nsMap (he : Fin 4)
  | keySlot (he : Fin 4)
  | ownerReq (he : Fin 4)
  /-- A write of HUB_INT_MASK. -/
  | hubIntMaskWrite (req : Requester) (mask : Word)
  -- replay journal (spec/14)
  | hubSwitchFault
  | channelBridgeFault (n : Ch)
  /-- Every destination in the scope of the recovery for `unit` reports its ingress empty. -/
  | wakeQuiet (unit : BitVec 16)
  | wakeQuietTimeout (unit : BitVec 16)
  | wakeRecoveryDone (unit : BitVec 16)
  /-- The entry with a sequence number has been held for HOLD_LIM. -/
  | wakeHoldLimit (port : Port) (seq : Word)
  | wakePeekSelect (req : Requester) (data : Word)
  -- power (spec/15)
  /-- A write of `data` to PWR_PART + 0x0 of partition `p` with REQ set. -/
  | easyRequest (req : Requester) (p : Fin 20) (data : Word)
  | governorIdleEntry (p : Fin 20)
  | easyQuiescent (p : Fin 20)
  | easyEntryTimeout (p : Fin 20)
  | easyEntryComplete (p : Fin 20)
  | easyWake (p : Fin 20)
  /-- The wake ends; `ue`: a byte of the save record was uncorrectable. -/
  | easyWakeComplete (p : Fin 20) (ue : Bool)
  /-- A write of `data` to PWR_MOORED with REQ set; whether every LUN queue empties within ENTRY_TO and SYSCLK is stable. -/
  | mooredRequest (req : Requester) (data : Word) (drained sysclk : Bool)
  | mooredEntryComplete
  /-- A wake source by its bit in WAKE_EN. -/
  | mooredWake (src : Fin 5)
  | aonTimerExpiry
  /-- A write of `data` to PWR_PART + 0x0 of partition `p` that leaves REQ as it stands. -/
  | opTargetWrite (req : Requester) (p : Fin 20) (data : Word)
  /-- An AVS rail: 0 to 3 VCC_FAB, 4 VCC_CHN, 5 VCC_CHS. -/
  | avsAck (rail : Fin 6)
  | avsAckTimeout (rail : Fin 6)
  /-- A tick: the power of each partition in the last tick in mW, what its hottest sensor reads in whole degrees Celsius
  (none: all have failed), and the hottest sensor of the hub. The power outside the AVS rails is that of the latest readings. -/
  | governorTick (power : List (Fin 20 × Nat)) (temps : List (Fin 20 × Option Int)) (hubTemp : Int)
  | budgetOver
  /-- A pair of reads of a polled rail gives its power in mW. -/
  | pmbusRead (rail : Fin 21) (mw : Nat)
  | pmbusAlert
  | telemetryLost
  | telemetryRestored
  | sprintWindowClose
  | sprintCooldownEnd
  | crewClockStep (n : Ch)
  | wakeNTimeout
  -- debug (spec/16)
  | trstN
  /-- An Update-IR with the instruction's code, with the level of COX_EN. -/
  | extest (coxEn : Bool)
  /-- The cells of the boundary register that the preload leaves at 1. -/
  | samplePreload (coxEn : Bool) (cells : List (Fin 6567))
  | idcode (coxEn : Bool)
  | clamp (coxEn : Bool)
  | highz (coxEn : Bool)
  | bypass (coxEn : Bool)
  | dbgReg (coxEn : Bool)
  | dbgRegUpdate (write : Bool) (off : BitVec 16) (data : Word)
  | dbgImg (coxEn : Bool)
  /-- Update-DR under DBG_IMG; whether the ring is full. -/
  | dbgImgUpdate (data : Word) (full : Bool)
  | rstOvr (coxEn : Bool)
  | rstOvrUpdate (key : BitVec 8) (index : BitVec 9)
  | dbgRstWarm (req : Requester) (key : BitVec 8)
  | dbgRstPartition (req : Requester) (key : BitVec 8) (part : BitVec 5)
  /-- A write to the control word of an access set with GO set, by KIND. -/
  | dbgAccessRead (req : Requester) (set : Fin 2) (inc : Bool) (size : Fin 4)
  | dbgAccessConsumeRead (req : Requester) (set : Fin 2) (inc : Bool) (size : Fin 4)
  | dbgAccessWrite (req : Requester) (set : Fin 2) (inc : Bool) (size : Fin 4)
  /-- How the access of a set ends, and the data where the model does not hold its target. -/
  | dbgAccessDone (set : Fin 2) (status : PortStatus) (data : BitVec 64)
  | engDbgHalt (req : Requester) (g : Eng)
  /-- A boundary of an engine with its next instruction; none where the next word decodes to none. -/
  | engineHaltTaken (g : Eng) (next : Option Yz)
  | haltForceTimeout (g : Eng)
  | engDbgForce (req : Requester) (g : Eng)
  | engDbgResume (req : Requester) (g : Eng)
  | engDbgStep (req : Requester) (g : Eng) (ie : Bool)
  | instructionFeed (req : Requester) (g : Eng) (word : Word)
  | engDbgPcWrite (req : Requester) (g : Eng) (data : Word)
  | dbgCrewHalt (req : Requester) (data : Word)
  | dbgCrewResume (req : Requester) (data : Word)
  | dbgIslHalt (req : Requester) (die : Fin 4) (data : Word)
  | dbgIslStep (req : Requester) (data : Word)
  | trigIn
  | dbgXtPulse (req : Requester) (data : BitVec 8)
  | testLogicReset
  -- serial lanes (spec/17)
  /-- A write of `data` to the quad's first word with APPLY set, with the reference frequency in Hz. -/
  | quadApply (req : Requester) (q : Fin 24) (data : Word) (fref : Nat)
  /-- A write of `data` to LANE + 0x14 with APPLY set. -/
  | txeqApply (req : Requester) (l : Fin 96) (data : Word)
  /-- A write of `data` to LANE + 0x18 with ADAPT set. -/
  | adapt (req : Requester) (l : Fin 96) (data : Word)
  /-- Whether the adaptation converged; the CTLE code kept, the FFE taps and the DFE taps reached. -/
  | adaptComplete (l : Fin 96) (converged : Bool) (ctle : Fin 49) (ffe : BitVec 192) (dfe : BitVec 24)
  | los (l : Fin 96)
  | signalReturn (l : Fin 96)
  | cdrLock (l : Fin 96)
  | cdrUnlock (l : Fin 96)
  | blockLock (l : Fin 96) (gained : Bool)
  /-- A write of `data` to LANE + 0x00 with RST set. -/
  | laneReset (req : Requester) (l : Fin 96) (data : Word)
  /-- A write of `data` to LANE + 0x00. -/
  | loopbackSelect (req : Requester) (l : Fin 96) (data : Word)
  /-- A received codeword: symbols corrected, none where it cannot be corrected; whether it is the eighth in a row with zero
  syndrome at a bit position. -/
  | codewordReceive (l : Fin 96) (corrected : Option (Fin 16)) (gained : Bool)
  | prbsClr (req : Requester) (l : Fin 96)
  | prbsLock (l : Fin 96)
  /-- Lock is lost, after so many bits compared and bits that differed since the counters were last updated. -/
  | prbsLockLost (l : Fin 96) (bits errs : Nat)
  /-- A write of `data` to LANE + 0x60 with GO set. -/
  | eyeGo (req : Requester) (l : Fin 96) (data : Word)
  | eyeDwellDone (l : Fin 96) (count : BitVec 48)
  | laneHtest (req : Requester) (data : BitVec 2)
  -- SMBus (spec/18)
  | smbusReadHubId
  | smbusReadHubRev
  | smbusReadRstCause
  | smbusReadRstStatus
  | smbusReadCfgStatus
  | smbusReadHubIntSummary
  | smbusReadPwrTherm
  | smbusReadPwrTotal
  | smbusReadHubPartFail
  | smbusReadRasCause
  | smbusReadSecCause
  | smbusReadWakeStatus
  | smbusReadPwrMode
  | smbusReadCfgImg
  | smbusReadClkTsLo
  | smbusReadClkTsHi
  /-- Any other command. -/
  | smbusMessage (cmd : BitVec 8) (data : List Byte)
  -- rows at the end of the table
  | perstRelease (port : Port)
  | railsInRange
  | powerLoss
  /-- An IDE key-management message for a stream of a port: link stream 0, selective streams 1 to 4. -/
  | ideKmMessage (port : Port) (stream : Fin 5) (session : Nat)
  | taskPromoted (n : Ch)
  /-- A delivered edge of the island that holds sector `sec`: what its blocks, MAC blocks, memories, banks and lane ports
  see on it. -/
  | islandCycle (sec : Sec) (logic : Logic) (macs : List MacEdge) (mems : List MemEdge) (banks : List BankEdge) (lanes : List LaneEdge)
  /-- An engine issues a word that decodes to no instruction. -/
  | undefinedInstruction (g : Eng) (word : Word)
  deriving DecidableEq, Repr

end Sys2Proof
end

