-- ==== Sys2Proof/Machine/Digest.lean ====
section
/-! DEFINITION. SHA-512 and SHAKE256, which the checks of an image and the measurements use (R117, R118, R299). The spec names the two
functions and does not give them: they are those of FIPS 180-4 and FIPS 202 (PRESUMED, assumption 83). A message is a number whose
byte n is bits [8n + 7:8n]; so is a digest of 64 bytes. -/

namespace Sys2Proof.Machine

/-! SHA-512. -/

/-- The 80 constants of the rounds: the fractional parts of the cube roots of the first 80 primes. -/
def shaConstants : List (BitVec 64) :=
  [0x428A2F98D728AE22, 0x7137449123EF65CD, 0xB5C0FBCFEC4D3B2F, 0xE9B5DBA58189DBBC, 0x3956C25BF348B538, 0x59F111F1B605D019,
    0x923F82A4AF194F9B, 0xAB1C5ED5DA6D8118, 0xD807AA98A3030242, 0x12835B0145706FBE, 0x243185BE4EE4B28C, 0x550C7DC3D5FFB4E2,
    0x72BE5D74F27B896F, 0x80DEB1FE3B1696B1, 0x9BDC06A725C71235, 0xC19BF174CF692694, 0xE49B69C19EF14AD2, 0xEFBE4786384F25E3,
    0x0FC19DC68B8CD5B5, 0x240CA1CC77AC9C65, 0x2DE92C6F592B0275, 0x4A7484AA6EA6E483, 0x5CB0A9DCBD41FBD4, 0x76F988DA831153B5] ++
  [0x983E5152EE66DFAB, 0xA831C66D2DB43210, 0xB00327C898FB213F, 0xBF597FC7BEEF0EE4, 0xC6E00BF33DA88FC2, 0xD5A79147930AA725,
    0x06CA6351E003826F, 0x142929670A0E6E70, 0x27B70A8546D22FFC, 0x2E1B21385C26C926, 0x4D2C6DFC5AC42AED, 0x53380D139D95B3DF,
    0x650A73548BAF63DE, 0x766A0ABB3C77B2A8, 0x81C2C92E47EDAEE6, 0x92722C851482353B, 0xA2BFE8A14CF10364, 0xA81A664BBC423001,
    0xC24B8B70D0F89791, 0xC76C51A30654BE30, 0xD192E819D6EF5218, 0xD69906245565A910, 0xF40E35855771202A, 0x106AA07032BBD1B8] ++
  [0x19A4C116B8D2D0C8, 0x1E376C085141AB53, 0x2748774CDF8EEB99, 0x34B0BCB5E19B48A8, 0x391C0CB3C5C95A63, 0x4ED8AA4AE3418ACB,
    0x5B9CCA4F7763E373, 0x682E6FF3D6B2B8A3, 0x748F82EE5DEFB2FC, 0x78A5636F43172F60, 0x84C87814A1F0AB72, 0x8CC702081A6439EC,
    0x90BEFFFA23631E28, 0xA4506CEBDE82BDE9, 0xBEF9A3F7B2C67915, 0xC67178F2E372532B, 0xCA273ECEEA26619C, 0xD186B8C721C0C207,
    0xEADA7DD6CDE0EB1E, 0xF57D4F7FEE6ED178, 0x06F067AA72176FBA, 0x0A637DC5A2C898A6, 0x113F9804BEF90DAE, 0x1B710B35131C471B] ++
  [0x28DB77F523047D84, 0x32CAAB7B40C72493, 0x3C9EBE0A15C9BEBC, 0x431D67C49C100D4C, 0x4CC5D4BECB3E42B6, 0x597F299CFC657E2A,
    0x5FCB6FAB3AD6FAEC, 0x6C44198C4A475817]

/-- The eight words a digest starts from. -/
def shaStart : List (BitVec 64) :=
  [0x6A09E667F3BCC908, 0xBB67AE8584CAA73B, 0x3C6EF372FE94F82B, 0xA54FF53A5F1D36F1, 0x510E527FADE682D1, 0x9B05688C2B3E6C1F,
    0x1F83D9ABFB41BD6B, 0x5BE0CD19137E2179]

/-- Byte `i` of the padded message: the message, the byte 0x80, zeros, and the length in bits, most significant byte first. -/
def shaByte (len v i : Nat) : Nat :=
  let total := (len + 144) / 128 * 128
  if i < len then v / 2 ^ (8 * i) % 256
  else if i = len then 0x80
  else if total - 8 ≤ i then 8 * len / 2 ^ (8 * (total - 1 - i)) % 256
  else 0

/-- Word `i` of the padded message, most significant byte first. -/
def shaWord (len v i : Nat) : BitVec 64 :=
  BitVec.ofNat 64 ((List.range 8).foldl (fun w k => w * 256 + shaByte len v (8 * i + k)) 0)

/-- The word of the message schedule that follows sixteen others. -/
def shaNext (w : List (BitVec 64)) : BitVec 64 :=
  let a := w.getD 1 0
  let b := w.getD 14 0
  (b.rotateRight 19 ^^^ b.rotateRight 61 ^^^ b >>> 6) + w.getD 9 0
    + (a.rotateRight 1 ^^^ a.rotateRight 8 ^^^ a >>> 7) + w.getD 0 0

/-- One round on the eight working words, with the constant plus the word of the schedule. -/
def shaRound (kw : BitVec 64) : List (BitVec 64) → List (BitVec 64)
  | [a, b, c, d, e, f, g, h] =>
    let t := h + (e.rotateRight 14 ^^^ e.rotateRight 18 ^^^ e.rotateRight 41) + ((e &&& f) ^^^ (~~~e &&& g)) + kw
    [t + (a.rotateRight 28 ^^^ a.rotateRight 34 ^^^ a.rotateRight 39) + ((a &&& b) ^^^ (a &&& c) ^^^ (b &&& c)), a, b, c, d + t, e, f, g]
  | l => l

/-- The rounds over the constants, with the sixteen next words of the schedule. -/
def shaRounds : List (BitVec 64) → List (BitVec 64) → List (BitVec 64) → List (BitVec 64)
  | [], _, h => h
  | k :: ks, w, h => shaRounds ks (w.drop 1 ++ [shaNext w]) (shaRound (k + w.getD 0 0) h)

/-- Blocks `b` to `b + n - 1` of a message taken into the eight words. -/
def shaBlocks (len v b : Nat) : Nat → List (BitVec 64) → List (BitVec 64)
  | 0, h => h
  | n + 1, h =>
    let w := (List.range 16).map (fun i => shaWord len v (16 * b + i))
    shaBlocks len v (b + 1) n (List.zipWith (· + ·) h (shaRounds shaConstants w h))

/-- The bytes of a word in the other order. -/
def swapBytes (w : BitVec 64) : Nat := (List.range 8).foldl (fun v k => v * 256 + w.toNat / 2 ^ (8 * k) % 256) 0

/-- 64-bit words put together, the first as the lowest. -/
def joinWords (l : List Nat) : Nat := l.foldr (fun w v => w + 2 ^ 64 * v) 0

/-- SHA-512 of the `len` lowest bytes of a number. -/
@[irreducible] def sha512 (len v : Nat) : Nat := joinWords ((shaBlocks len v 0 ((len + 144) / 128) shaStart).map swapBytes) % 2 ^ 512

/-! SHAKE256. -/

/-- The rotation of each lane, lane x + 5y in place x + 5y. -/
def keccakTurns : List Nat :=
  [0, 1, 62, 28, 27, 36, 44, 6, 55, 20, 3, 10, 43, 25, 39, 41, 45, 15, 21, 8, 18, 2, 61, 56, 14]

/-- The constants of the 24 rounds. -/
def keccakConstants : List (BitVec 64) :=
  [0x0000000000000001, 0x0000000000008082, 0x800000000000808A, 0x8000000080008000, 0x000000000000808B, 0x0000000080000001,
    0x8000000080008081, 0x8000000000008009, 0x000000000000008A, 0x0000000000000088, 0x0000000080008009, 0x000000008000000A,
    0x000000008000808B, 0x800000000000008B, 0x8000000000008089, 0x8000000000008003, 0x8000000000008002, 0x8000000000000080,
    0x000000000000800A, 0x800000008000000A, 0x8000000080008081, 0x8000000000008080, 0x0000000080000001, 0x8000000080008008]

/-- One round of the permutation on the 25 lanes. -/
def keccakRound (rc : BitVec 64) (a : List (BitVec 64)) : List (BitVec 64) :=
  let lane (l : List (BitVec 64)) (x y : Nat) : BitVec 64 := l.getD (x % 5 + 5 * (y % 5)) 0
  let c := (List.range 5).map (fun x => lane a x 0 ^^^ lane a x 1 ^^^ lane a x 2 ^^^ lane a x 3 ^^^ lane a x 4)
  let d := (List.range 5).map (fun x => lane c (x + 4) 0 ^^^ (lane c (x + 1) 0).rotateLeft 1)
  let t := (List.range 25).map (fun i => (a.getD i 0 ^^^ d.getD (i % 5) 0).rotateLeft (keccakTurns.getD i 0))
  let b := (List.range 25).map (fun i => lane t (i % 5 + 3 * (i / 5)) (i % 5))
  let e := (List.range 25).map (fun i => b.getD i 0 ^^^ (~~~lane b (i % 5 + 1) (i / 5) &&& lane b (i % 5 + 2) (i / 5)))
  match e with
  | z :: l => (z ^^^ rc) :: l
  | [] => []

/-- The permutation. -/
def keccak (a : List (BitVec 64)) : List (BitVec 64) := keccakConstants.foldl (fun a rc => keccakRound rc a) a

/-- Block `b` of 136 bytes of the padded message: the message, the byte 0x1F, zeros, and bit 7 of the last byte. -/
def shakeBlock (len v b : Nat) : Nat :=
  let n := len - 136 * b
  let m := v / 2 ^ (1088 * b)
  if 136 ≤ n then m % 2 ^ 1088 else m % 2 ^ (8 * n) + 0x1F * 2 ^ (8 * n) + 2 ^ 1087

/-- Blocks `b` to `b + n - 1` taken into the 25 lanes. -/
def shakeBlocks (len v b : Nat) : Nat → List (BitVec 64) → List (BitVec 64)
  | 0, a => a
  | n + 1, a =>
    let m := shakeBlock len v b
    shakeBlocks len v (b + 1) n (keccak ((List.range 25).map (fun i => a.getD i 0 ^^^ BitVec.ofNat 64 (if i < 17 then m / 2 ^ (64 * i) else 0))))

/-- SHAKE256 of the `len` lowest bytes of a number, with 64 bytes of output (R117). -/
@[irreducible] def shake256 (len v : Nat) : Nat :=
  joinWords (((shakeBlocks len v 0 (len / 136 + 1) (List.replicate 25 0)).take 8).map BitVec.toNat) % 2 ^ 512

end Sys2Proof.Machine
end

