-- ==== Sys2Proof/Machine/Image.lean ====
section
/-! DEFINITION. The layout of an image (spec/05, R114, R115, R117, R118; spec/06, R138): its first 8 KiB as a number whose byte n is
bits [8n + 7:8n], the fields read from it, the digests it carries, and what its frames declare of islands and regions (R34, R136). -/

namespace Sys2Proof.Machine

/-- An idle entry of a region descriptor (R138). -/
structure IdleEntry where
  dstDie : BitVec 8
  dstSector : BitVec 8
  rxPort : BitVec 8
  idle : BitVec 64
  deriving DecidableEq, Repr

/-- The fields of a region descriptor (R138), with the idle entries that it counts. -/
structure RegionDesc where
  die : BitVec 8
  row : BitVec 8
  col : BitVec 8
  size : BitVec 8
  banks : BitVec 8
  order : BitVec 8
  gap1 : BitVec 8
  gap2 : BitVec 8
  lockTo : BitVec 8
  idles : List IdleEntry
  deriving DecidableEq, Repr

/-- The header's fields (R115), the owner slot that the signature block names, the region descriptor, and whether a byte that the
layout reserves is not zero. -/
structure ImgHeader where
  magic : BitVec 64
  verMajor : BitVec 16
  verMinor : BitVec 16
  devset : Word
  kind : BitVec 8
  dieMask : BitVec 8
  flags : BitVec 16
  payloadLen : Word
  frameCount : Word
  regionLen : Word
  owner : BitVec 8
  region : RegionDesc
  reserved : Bool
  deriving DecidableEq, Repr

/-- `n` bytes at offset `o` of an image's first 8 KiB, little-endian. -/
def headField (h o n : Nat) : Nat := slice h (8 * o) (8 * n)

/-- Idle entry `i` of the region descriptor at image + 0x1840. -/
def parseIdle (h i : Nat) : IdleEntry :=
  let at_ (o n : Nat) : Nat := headField h (0x1850 + 16 * i + o) n
  ⟨BitVec.ofNat 8 (at_ 0 1), BitVec.ofNat 8 (at_ 1 1), BitVec.ofNat 8 (at_ 2 1), BitVec.ofNat 64 (at_ 8 8)⟩

/-- The region descriptor (R138). -/
def parseRegion (h : Nat) : RegionDesc :=
  let byte (o : Nat) : BitVec 8 := BitVec.ofNat 8 (headField h (0x1840 + o) 1)
  ⟨byte 0, byte 1, byte 2, byte 3, byte 4, byte 5, byte 6, byte 7, byte 8, (List.range (byte 9).toNat).map (parseIdle h)⟩

/-- Some byte that the layout reserves is not zero: in the header, the manifest, the signature block, the key block, and in the region
descriptor area, which only a partial image has (R114, R115, R117, R118, R138; assumption 84). -/
def reservedSet (h : Nat) : Bool :=
  headField h 0x20 224 != 0 || headField h 0x248 184 != 0 || headField h 0x301 15 != 0 || headField h 0x17FD 3 != 0
    || headField h 0x1801 3 != 0 || headField h 0x1838 8 != 0
    || (if headField h 0x10 1 = 2 then
          headField h 0x184A 6 != 0 || (List.range (headField h 0x1849 1)).any (fun i => headField h (0x1853 + 16 * i) 5 != 0)
        else headField h 0x1840 1984 != 0)

/-- The header (R115). -/
def parseHeader (h : Nat) : ImgHeader :=
  { magic := BitVec.ofNat 64 (headField h 0x00 8), verMajor := BitVec.ofNat 16 (headField h 0x08 2)
    verMinor := BitVec.ofNat 16 (headField h 0x0A 2), devset := BitVec.ofNat 32 (headField h 0x0C 4)
    kind := BitVec.ofNat 8 (headField h 0x10 1), dieMask := BitVec.ofNat 8 (headField h 0x11 1)
    flags := BitVec.ofNat 16 (headField h 0x12 2), payloadLen := BitVec.ofNat 32 (headField h 0x14 4)
    frameCount := BitVec.ofNat 32 (headField h 0x18 4), regionLen := BitVec.ofNat 32 (headField h 0x1C 4)
    owner := BitVec.ofNat 8 (headField h 0x300 1), region := parseRegion h, reserved := reservedSet h }

/-! Manifest, signature block and key block (R117, R118). -/

/-- The header area: bytes 0x0000 to 0x00FF together with bytes 0x1800 to 0x1FFF, 2,304 bytes. -/
def headerArea (h : Nat) : Nat := headField h 0 256 + 2 ^ 2048 * headField h 0x1800 2048

/-- Both digests of the header area are those that the manifest holds. -/
def headerDigestsGood (h : Nat) : Bool :=
  headField h 0x100 64 == sha512 2304 (headerArea h) && headField h 0x140 64 == shake256 2304 (headerArea h)

/-- The digests of the payload that the manifest holds. -/
def payloadSha (h : Nat) : Nat := headField h 0x180 64
def payloadShake (h : Nat) : Nat := headField h 0x1C0 64

/-- The owner key digest: SHA-512 of ED_PUB followed by MLDSA_PUB, which follow one another in the signature block. -/
def keyDigest (h : Nat) : Nat := sha512 1984 (headField h 0x310 1984)

/-- SHA-512 over the manifest, which measures an image. -/
def measureOf (h : Nat) : Nat := sha512 512 (headField h 0x100 512)

/-! Island and region declarations (R34, R136). -/

/-- The sectors of the fusion group of `2 ^ k` sectors that holds sector `x`. -/
def fusionGroup (x k : Nat) : List Nat := (List.range (2 ^ k)).map (x / 2 ^ k * 2 ^ k + ·)

/-- What the frames of the sectors declare agrees with R34: each sector is declared once, every sector of its group has the same
fusion, and the group's lowest-numbered sector alone is its leader. -/
def islandsAgree (l : List (Sec × BitVec 8 × Fin 4 × Bool)) : Bool :=
  (l.map (·.1)).Nodup && l.all (fun e =>
    e.2.2.2 == (e.1.val % 2 ^ e.2.2.1.val == 0)
      && (fusionGroup e.1 e.2.2.1).all (fun y => l.any (fun f => f.1.val == y && f.2.2.1 == e.2.2.1)))

/-- The sectors of a region: die, row, column, size (R136). -/
def regionSectors (r : Nat × Nat × Nat × Nat) : List Nat :=
  (List.range (2 ^ r.2.2.2)).map (fun i => 32 * r.1 + 8 * r.2.1 + r.2.2.1 + i)

/-- A declared region as numbers. -/
def declaredRegion (r : Fin 4 × Fin 4 × Fin 8 × Fin 4) : Nat × Nat × Nat × Nat := (r.1.val, r.2.1.val, r.2.2.1.val, r.2.2.2.val)

/-- The group of an island lies wholly inside a set of sectors or wholly outside. -/
def wholly (xs group : List Nat) : Bool := group.all xs.contains || group.all (fun y => !xs.contains y)

/-- The declarations of a full image agree with R34 and R136: regions are fusion groups that do not overlap, and every island lies
wholly inside one or outside all. -/
def fullAgrees (d : Declared) : Bool :=
  let rs := d.regions.map declaredRegion
  islandsAgree d.islands && rs.all (fun r => r.2.2.1 % 2 ^ r.2.2.2 == 0) && (rs.flatMap regionSectors).Nodup
    && rs.all (fun r => d.islands.all (fun e => wholly (regionSectors r) (fusionGroup e.1 e.2.2.1)))

/-- The declarations of a partial image agree with R34 inside its region. -/
def partAgrees (region : List Nat) (d : Declared) : Bool :=
  let mine := d.islands.filter (fun e => region.contains e.1.val)
  islandsAgree mine && mine.all (fun e => (fusionGroup e.1 e.2.2.1).all region.contains)

end Sys2Proof.Machine
end

