-- ==== Sys2Proof/Config.lean ====
section
/-! DEFINITION. The values that the spec leaves open, as constants without a body: nothing can be proved of them. -/

namespace Sys2Proof.Config

/-- The free values, in the order in which the machine takes them: the value that the spec says is some 32-bit value and
nothing more (assumption 3). -/
opaque freeWord : Nat → Word

/-- The levels that nothing of the routing drives, by the edge's number among the free values and the place of the level
(assumption 76). -/
opaque freeNet : Nat → Nat → Bool

/-- The parity bytes that the LDPC code of a RATE gives 4,096 data bytes, by their index: the spec gives no matrix (R242,
assumption 94). -/
opaque ldpcParity : Nat → List Byte → Nat → Byte

/-- The words in memories that a forced release left without a fill, by the release's number among the free values and the byte's key
(R49, assumption 25). -/
opaque freeCoded : Nat → Nat → BitVec 13

end Sys2Proof.Config
end

