-- ==== Sys2Proof/Machine/Sparse.lean ====
section
/-! DEFINITION. Sparse maps: lists of key and value pairs in one canonical form. Keys rise strictly, and no entry holds
the value that an unlisted key reads as, so that equal maps are equal lists. -/

namespace Sys2Proof.Machine

/-- The value of key `k`: the listed value, else the default `d`. -/
def smGet {α : Type} (d : α) : List (Nat × α) → Nat → α
  | [], _ => d
  | (j, v) :: m, k => if j = k then v else smGet d m k

/-- The map without key `k`. -/
def smErase {α : Type} : List (Nat × α) → Nat → List (Nat × α)
  | [], _ => []
  | (j, v) :: m, k => if j = k then smErase m k else (j, v) :: smErase m k

/-- The map with an entry for key `k` put at its place, before the first larger key. -/
def smInsert {α : Type} : List (Nat × α) → Nat → α → List (Nat × α)
  | [], k, v => [(k, v)]
  | (j, w) :: m, k, v =>
    if k < j then (k, v) :: (j, w) :: m
    else if j = k then (k, v) :: m
    else (j, w) :: smInsert m k v

/-- The map in which key `k` reads as `v`; writing the default removes the entry. -/
def smSet {α : Type} [DecidableEq α] (d : α) (m : List (Nat × α)) (k : Nat) (v : α) : List (Nat × α) :=
  if v = d then smErase m k else smInsert m k v

/-- The canonical form: keys rise strictly and no entry holds the default. -/
def smWf {α : Type} [DecidableEq α] (d : α) : List (Nat × α) → Bool
  | [] => true
  | [(_, v)] => decide (v ≠ d)
  | (j, v) :: (k, w) :: m => decide (v ≠ d) && decide (j < k) && smWf d ((k, w) :: m)

/-- A set of numbers as a rising list: `k` added. -/
def setAdd : List Nat → Nat → List Nat
  | [], k => [k]
  | j :: m, k => if k < j then k :: j :: m else if j = k then j :: m else j :: setAdd m k

/-- A set of numbers as a rising list: `k` removed. -/
def setDel (m : List Nat) (k : Nat) : List Nat := m.filter (· ≠ k)

/-- A set of numbers: `k` present or absent. -/
def setPut (m : List Nat) (k : Nat) (b : Bool) : List Nat := if b then setAdd m k else setDel m k

/-- The canonical form of a set of numbers: rising strictly. -/
def setWf : List Nat → Bool
  | [] => true
  | [_] => true
  | j :: k :: m => decide (j < k) && setWf (k :: m)

end Sys2Proof.Machine
end

