-- ==== Sys2Proof/Machine/State.lean ====
section
/-! DEFINITION. The state of the block as plain data, the reasons for a stop, and the state right after reset. Every
default of a field below is its value at reset (R11); the register file `regs` holds, for every register field of the
register tables, the exclusive or of the field's value with its cold value. -/

namespace Sys2Proof.Machine

/-- Why a command stops with a fault. -/
inductive Fault where
  /-- The command names an object the model's state does not hold: a bundle the loaded image does not declare, a
  register number outside the instruction's field. Raised by the meanings; safe: the machine stops where the spec gives
  the command nothing to act on. -/
  | noSuchUnit
  deriving DecidableEq, Repr

/-- Why a command is refused. -/
inductive Refusal where
  /-- The model gives the command no meaning. Raised by the dispatch of a command that is not modelled; safe. -/
  | notModelled (mnemonic : String)
  deriving DecidableEq, Repr

/-- What a command puts out: what the requester, the host, a link or a pin sees of it. -/
inductive Out where
  /-- A read returns this value to the requester. -/
  | value (v : Nat)
  /-- The access ends normally with nothing to return. -/
  | done
  /-- A decode error: a bus error to an engine or the fabric, Unsupported Request to a host (R20). -/
  | decodeError
  /-- A bus error. -/
  | busError
  /-- Completer Abort to a host (R53). -/
  | completerAbort
  /-- An MSI-X message of a port, by vector (R330). -/
  | msix (port vec : Nat)
  /-- A frame on TIMESYNC_OUT with the count at its marker (R43). -/
  | timesync (count : Nat)
  /-- Whether a streaming bundle accepted the value offered (R39). -/
  | accepted (b : Bool)
  /-- A bundle presents a value at its destination (R38). -/
  | present (bundle value : Nat)
  /-- A request over AVSBus to shut the rails down (R52). -/
  | railShutdown
  /-- The values a fabric memory port presents: sector, instance, port, data, CE and UE outputs (R92, R99). -/
  | memPort (sec inst port : Nat) (data : BitVec 128) (ce ue : Bool)
  /-- A MAC block's output and its overflow output (R75). -/
  | mac (sec idx : Nat) (p : BitVec 64) (ovf : Bool)
  /-- A block's combinational outputs and registered outputs, M0 as bit 0 (R71), and above the former, as bit 24, the carry-out of
  M23 (R72). -/
  | block (sec col row : Nat) (s q : Nat)
  /-- The fence of a sector gives done, with err (R79). -/
  | fenceDone (sec : Nat) (err : Bool)
  /-- A byte read from an on-chip memory, with its poison mark (R95, R99). -/
  | memByte (v : Nat) (poison : Bool)
  /-- A response delivered to a requester: data, poison. -/
  | data (v : Nat) (poison : Bool)
  /-- A message on the network: message type, source port or destination sector, address or line, data. -/
  | message (opc unit addr data : Nat)
  /-- A cycle on a channel's NAND bus: CE, kind (0 command, 1 address, 2 data out), bytes (R236). -/
  | nand (ch lun kind : Nat) (bytes : List (BitVec 8))
  /-- A response of Bamid over SPDM: request code, index or port, digest or other content (R299). -/
  | spdm (code : Nat) (content : Nat)
  /-- A response of Bamid that reports an error. -/
  | spdmError (code : Nat)
  /-- A completion to the host by port and tag: data, poison. -/
  | hostData (port tag : Nat) (v : Nat) (poison : Bool)
  | hostDone (port tag : Nat)
  /-- Completer Abort, Unsupported Request, Configuration Request Retry Status. -/
  | hostAbort (port tag : Nat)
  | hostUr (port tag : Nat)
  | hostCrs (port tag : Nat)
  /-- A request to the host: port, device tag, message, host address, data, byte enables, poisoned. -/
  | hostRequest (port tag opc addr data be : Nat) (psn : Bool)
  /-- A request at a sector's target port: message type, address, bytes, data and byte enables from the address on, operation
  and compare value of an atomic, poisoned (R159, R161). -/
  | fabricRequest (sec opc addr len data be : Nat) (op : AtomOp) (compare : Nat) (psn : Bool)
  /-- BISnpData (0) or BISnpInv (1) for a line (R310). -/
  | biSnp (port line kind : Nat)
  /-- An answer to an H2D snoop: line, data where modified with its poison mark (R314). -/
  | snpAnswer (line : Nat) (data : Option (Nat × Bool))
  /-- A completion queue entry with its MSI-X vector (R320). -/
  | nvmeCompletion (port q : Nat) (entry : Nat) (vec : Nat)
  /-- A pulse on TRIG_OUT (R389). -/
  | trigOut
  /-- A lane port presents a received word to the fabric, or accepts one from it (R401). -/
  | laneWord (lane : Nat) (word : Nat)
  | laneAccept (lane : Nat) (ok : Bool)
  /-- An SMBus transaction is not acknowledged (R420); a message of the SMBus target to Bamid. -/
  | nack
  | smbusMessage (cmd : Nat) (data : List (BitVec 8))
  /-- An access waits at the boundary of a partition in Easy, whose wake it begins (R354); its sender presents it again. -/
  | held
  deriving DecidableEq, Repr

/-- A bundle crossing (R38 to R41): its ends, its kind, what it holds. -/
structure Bundle where
  /-- The sector whose logic feeds it, in the source island, and the transmit port that it occupies there (R74). -/
  src : Nat
  txPort : Nat
  /-- The sector that receives it, in the destination island, and its receive port (R74, R138). -/
  dst : Nat
  rxPort : Nat
  /-- A streaming bundle, else a state bundle. -/
  stream : Bool
  /-- Its width in signals (R74). -/
  width : Nat
  /-- The idle value in force (R41), and the full image's. -/
  idle : BitVec 64
  imgIdle : BitVec 64
  /-- Values launched and not yet presented, oldest first (R39: at most 4 for a streaming bundle). -/
  transit : List (BitVec 64)
  /-- The value the destination of a state bundle presents (R40). -/
  level : BitVec 64
  /-- The latest value of a state bundle that has reached a destination whose clock does not run (R41). -/
  arrived : Option (BitVec 64)
  deriving DecidableEq, Repr

/-- The reset controller and the clock monitors (spec/02). -/
structure Clocks where
  /-- Clock domains frozen after clock loss (R46). -/
  frozen : List Nat := []
  /-- Clock domains out of reset (R48); at power-on only the debug and the always-on domain. -/
  released : List Nat := [184, 185]
  /-- Partitions with a reset sequence in progress (RST_STATUS.BUSY). -/
  busy : List Nat := List.range 21
  /-- The device-wide reset whose sequence is in progress (R54): 2 a cold one, 1 a warm one, 0 none. -/
  wide : Nat := 2
  /-- Partitions whose checkers have passed since their reset (R18). -/
  tested : List Nat := []
  /-- Partitions whose memories have been filled since their reset (R105). -/
  filled : List Nat := []
  /-- RESET_N is low and holds the warm device reset (R51). -/
  pinHeld : Bool := true
  /-- RESET_N rose and the straps have not been sampled yet (R56). -/
  strapDue : Bool := false
  /-- Every core rail is within its recommended range (R52, R416). -/
  rails : Bool := false
  /-- An integrity halt holds the device (R53). -/
  halted : Bool := false
  /-- The hub's checker self-test failed and the XD9 has stopped (R18). -/
  stopped : Bool := false
  /-- ALARM_N is asserted (R47, R53, R56). -/
  alarm : Bool := true
  /-- THERMTRIP_N is asserted (R52). -/
  thermtrip : Bool := false
  /-- The domains wait for the rails after a thermal shutdown or a brownout (R52). -/
  railWait : Bool := false
  /-- PERST of a port is asserted. -/
  perst : List Nat := [0, 1]
  /-- The device timestamp in nanoseconds (R42). -/
  ts : Nat := 0
  /-- Consecutive TIMESYNC frames missed (R44). -/
  missed : Nat := 0
  /-- A follower has had its first frame since it was enabled (R43). -/
  firstFrame : Bool := false
  /-- What a follower still has to catch up (positive) or fall back by slewing, in nanoseconds (R43). -/
  slew : Int := 0
  /-- The frequency each island generator runs at, in units of 10 MHz, by sector, while it differs from the frequency that CLK_ISL.FREQ asks for (R36). -/
  islFreq : List (Nat × Nat) := []
  /-- Sectors whose fusion is not applied: from the moment they are held until their lock step (R128). -/
  unfused : List Nat := []
  /-- The bundles of the loaded image, by number. -/
  bundles : List (Nat × Bundle) := []
  /-- The high words latched by a read of a low word: requester, location of the high word, its value (R6). -/
  latch : List (Requester × Nat × Nat) := []
  deriving DecidableEq, Repr

/-- The registers of a MAC block (R75, R76): output, product with the controls and the C operand that belong to it, input. -/
structure Mac where
  p : BitVec 64 := 0
  prod : BitVec 64 := 0
  mid : MacIn := ⟨0, 0, 0, .zero, false, false, false⟩
  inp : MacIn := ⟨0, 0, 0, .zero, false, false, false⟩
  deriving DecidableEq, Repr

/-- One stage of the read path of a fabric memory port: data, bytes corrected, bytes uncorrectable. -/
structure MemStage where
  data : BitVec 128 := 0
  ce : Bool := false
  ue : Bool := false
  deriving DecidableEq, Repr

/-- A pending fabric_fence (R79): the requests its bound ports still wait for, by port and tag, and the error. -/
structure Fence where
  ports : List Nat := []
  waiting : List (Nat × Nat) := []
  err : Bool := false
  deriving DecidableEq, Repr

/-- The I/O registers of a bank (R84): output bits, output enables, input bits as the logic sees them. -/
structure Bank where
  out : Nat := 0
  oe : BitVec 48 := 0
  inp : Nat := 0
  deriving DecidableEq, Repr

/-- The fabric (spec/03): what the image's logic holds and the state of its islands. -/
structure Fabric where
  /-- Macrocells whose register differs from its initial value: ((sector × 55 + column) × 32 + row) × 24 + m. -/
  cells : List Nat := []
  /-- MAC blocks by sector × 48 + index. -/
  macs : List (Nat × Mac) := []
  /-- Read stages of the memory ports, newest first, by (sector × 104 + instance) × 2 + port. -/
  stages : List (Nat × List MemStage) := []
  /-- I/O banks by number. -/
  banks : List (Nat × Bank) := []
  /-- Islands, by leader, whose gating is not armed (R77). -/
  unarmed : List Nat := []
  /-- The wake bits that the image chooses (R78): the number of a state bundle and the bit. -/
  wakeBits : List (Nat × Nat) := []
  /-- Pending fences by the sector of their fabric_fence (R79). -/
  fences : List (Nat × Fence) := []
  /-- Levels of the user_irq lines on the previous edge, by sector (R80). -/
  irqPrev : List (Nat × Nat) := []
  /-- Banks whose outputs the start-up has released (R131). -/
  outReleased : List Nat := []
  /-- Sectors whose write enables (WR) and whose global set/reset (GSR) the start-up has released (R131). -/
  wrReleased : List Nat := []
  gsrReleased : List Nat := []
  /-- Sectors that have left HELD (R134). -/
  running : List Nat := []
  /-- Bundles and banks frozen by Easy: sectors whose pins the hold latches keep (R86). -/
  latched : List Nat := []
  deriving DecidableEq, Repr

/-- A write-back that the repair path still has to make (R96): partition, unit, instance, byte, word, syndrome. -/
structure WriteBack where
  p : Nat
  unit : Nat
  inst : Nat
  addr : Nat
  word : Coded
  syn : Nat
  /-- 0, or the CASE of R97 that has come up since the read. -/
  case : Nat := 0
  deriving DecidableEq, Repr

/-- The on-chip memories and what watches them (spec/04). -/
structure Onchip where
  /-- The coded bytes, by ((partition × 2,048 + unit) × 128 + instance) × 2^20 + address; zero where unlisted. -/
  bytes : List (Nat × Coded) := []
  /-- Units, by partition × 2,048 + unit, whose memories a forced release left without a fill, and the number of their free values; their
  bytes in `bytes` stand xor those values (R49, assumption 25). -/
  wild : List (Nat × Nat) := []
  /-- Write-backs due (R96). -/
  due : List WriteBack := []
  /-- Steps that Flux has made, by partition (R100). Its word position in an instance is this count less the unit's lag,
  modulo the instance's words. -/
  fluxTotal : List (Nat × Nat) := []
  /-- Steps that Flux skipped in a unit, by partition × 2,048 + unit (R101). -/
  fluxLag : List (Nat × Nat) := []
  /-- Steps that Flux has made in the present pass, by partition. -/
  fluxSteps : List (Nat × Nat) := []
  /-- The checker test that runs (R106): it has left memories out; its partition; the units whose memories are still in the
  self-test shadow, with the cycles of their clock that are left. -/
  chkSkipped : Bool := false
  chkPart : Nat := 0
  chkLeft : List (Nat × Nat) := []
  /-- Which requester of a crew SRAM bank comes first, by channel × 16 + bank: 0 to 63 an engine, 64 the channel's own port
  (R185). -/
  banks : List (Nat × Nat) := []
  /-- Next frame of each sector's configuration scrubber (R102). -/
  scrubPos : List (Nat × Nat) := []
  /-- Configuration frames, by (sector × 12,288 + frame) × 512 + byte, where not zero. -/
  frames : List (Nat × Coded) := []
  deriving DecidableEq, Repr

/-- Bytes of a load stream that the Boathouse buffers, the first as the lowest (R126, R375). -/
structure Stream where
  len : Nat := 0
  bits : Nat := 0
  deriving DecidableEq, Repr

/-- A load in progress (R121, R141). -/
structure Load where
  /-- SOURCE code of CFG_STATUS; 0 for a partial load. -/
  src : Nat
  isPart : Bool
  /-- The step of a full load: 2 its header is due, 3 its signatures, 4 its records, 5 its final checks, as CFG_STATUS.STATE codes them. -/
  phase : Nat := 2
  /-- Where the image stands: the device address, or the offset in the store where `inStore`. -/
  addr : Nat := 0
  inStore : Bool := false
  /-- Its first 8 KiB as read, and PAYLOAD_LEN with the bytes of the payload that have been taken. -/
  head : Nat := 0
  payloadLen : Nat := 0
  pos : Nat := 0
  /-- KIND of the header, once checked. -/
  kind : Nat := 0
  /-- The size of the memory buffer, or CFG_PR_LEN, where the source has one. -/
  size : Option Nat := none
  /-- DIE_MASK; sectors of a partial load's region. -/
  dies : Nat := 0
  region : List Nat := []
  order : Nat := 0
  gap1 : Nat := 0
  gap2 : Nat := 0
  lockTo : Nat := 0
  /-- Idle entries: sector × 32 + receive port, value. -/
  idles : List (Nat × BitVec 64) := []
  degraded : Bool := false
  owner : Nat := 0
  verMinor : Nat := 0
  frameCount : Nat := 0
  /-- Frames written so far, and the total of the END record. -/
  written : Nat := 0
  total : Option Nat := none
  /-- SETTING records in order: hub offset, value. -/
  settings : List (Nat × Nat) := []
  /-- Frames staged in the Boathouse by sector × 12,288 + frame (R140), as 4,096-bit numbers, oldest first. -/
  staged : List (Nat × Nat) := []
  /-- The signature checks have passed. -/
  signed : Bool := false
  /-- What the frames declare, kept from the final checks to the last frame of a partial load. -/
  decl : Option Declared := none
  deriving DecidableEq, Repr

/-- A start-up in progress (R129 to R132): leaders of its islands; release steps issued; leaders that have still to report
the step issued last, and those that have still to apply it; the order and gaps; it has left its lock step; it may begin its
release steps. -/
structure Startup where
  islands : List Nat
  step : Nat := 0
  due : List Nat := []
  unapplied : List Nat := []
  order : Nat := 0
  gap1 : Nat := 0
  gap2 : Nat := 0
  locked : Bool := false
  go : Bool := false
  deriving DecidableEq, Repr

/-- A readback in progress (R149): shadow frames, sector, next frame, frames left, where the next one goes; an ABORT came;
it waits for a partial load's steps 4 to 8 to end. -/
structure Readback where
  shadow : Bool
  sec : Nat
  frame : Nat
  left : Nat
  dst : Nat
  abort : Bool
  waits : Bool
  deriving DecidableEq, Repr

/-- The configuration controller (spec/05, 06). -/
structure Config where
  /-- A full load is past step 2 and its start-up has not begun: sectors are under the load (R97, R128). -/
  loading : Bool := false
  /-- The load in progress; a full load ends with step 6 of R121, a partial one with step 9 of R141. -/
  load : Option Load := none
  /-- The loader waits on the host bus (3) or on the Coxswain port (4); the stream received and not yet taken (R123, R126, R375). -/
  waitSrc : Option Nat := none
  stream : Stream := {}
  /-- The source whose attempt begins when the clear after a failed one has ended (R121 step F). -/
  next : Option Nat := none
  /-- A full image's start-up has completed since the last device-wide reset (R127). -/
  started : Bool := false
  /-- The XD9 drives CFG_DONE low; the level that the pin has where it does not (R130). -/
  doneLow : Bool := true
  donePin : Bool := false
  /-- Start-ups in progress: 0 the full load's, 1 the partial load's, 2 + d die d's after its reset. -/
  startups : List (Nat × Startup) := []
  /-- A reset abandoned a load: the boot order starts again when it has ended (R125). -/
  restart : Bool := false
  /-- Bamid has to be loaded (R125): after POR, cold and warm resets, resets of the hub, and a Moored wake. -/
  bamidDue : Bool := true
  /-- SOURCE of the last successful full load (R123). -/
  lastSrc : Nat := 0
  /-- The wake from Moored reloads from the slot of the last successful full load. -/
  reload : Bool := false
  /-- The regions that the loaded full image declares: die, row, column, size (R136); its bundles by number (R139). -/
  regions : List (Nat × Nat × Nat × Nat) := []
  imgBundles : List (Nat × Bundle) := []
  /-- The region of the partial load that left it lost (R142). -/
  lost : List Nat := []
  /-- The caching sectors that the loaded full image declares, by agent number (R314). -/
  cachers : List Nat := []
  /-- Contents of the image store by store offset, where programmed and not zero (R109). -/
  store : List Host.Cell := []
  /-- Pages of the store that cannot be corrected (R112); of an erased slot, the page that is programmed next (R110). -/
  badPages : List Nat := []
  nextPage : List (Nat × Nat) := []
  /-- Leaders of the islands that have still to take the snapshot of the capture in progress (R145); those of them that have had
  their edge, with its timestamp. -/
  capDue : List Nat := []
  capEdge : List (Nat × Nat) := []
  /-- Shadow frames as 4,096-bit numbers, by sector × 14 + frame (R148); zero where unlisted. -/
  shadow : List (Nat × Nat) := []
  rb : Option Readback := none
  deriving DecidableEq, Repr

/-- What a target answers to a request (R156). -/
inductive NocRsp where
  | data (v : Nat) (psn : Bool)
  | ack
  | errDecode
  | errBus
  deriving DecidableEq, Repr

/-- A request whose response has not reached its requester (R163, R164): the port that issued it (0 to 127: injection port
of the sector; 128 + y: hub port y; 136: the hub switch alone), its tag, requester, message type, address, length, the
sector whose target port it is bound for, whether that port has accepted it, and the answer that is on its way; its data is
poisoned (R161); at a hub port the tag that the hub has assigned; a crew port, a debug access set or the management of the
routers waits for it, whose own command brings the answer; it, or its answer, has been lost with a unit (R169) or given up (R171),
and no response comes. -/
structure NocReq where
  port : Nat
  tag : Nat
  req : Requester
  opc : Nat
  addr : Nat
  len : Nat
  dst : Option Nat
  accepted : Bool
  rsp : Option NocRsp
  psn : Bool := false
  hubTag : Nat := 0
  unit : Bool := false
  lost : Bool := false
  deriving DecidableEq, Repr

/-- The network (spec/07). -/
structure Noc where
  /-- Requests outstanding, oldest first. -/
  reqs : List NocReq := []
  /-- Records waiting in the probes' queues, by probe, oldest first (R174). -/
  probeQ : List (Nat × List Nat) := []
  /-- Probes that have lost a record since the last one stored. -/
  gaps : List Nat := []
  /-- The hub trace buffer: 256-bit records by offset / 32. -/
  traceBuf : List (Nat × Nat) := []
  /-- The trace writer has stopped: its destination is full in stop mode, or lies outside channel DRAM (R174). -/
  stopped : Bool := false
  /-- Router settings that MGT_WR has loaded, by sector × 2^32 + address. -/
  routerRegs : List (Nat × Nat) := []
  /-- Target-map entries that MGT_WR has loaded into the copies of injection ports: both words plus one, by sector × 256 + entry (R162). -/
  maps : List (Nat × Nat) := []
  /-- Management requests that wait for MGT_RSP, by sector. -/
  mgtDue : List (Nat × Nat) := []
  deriving DecidableEq, Repr

/-- A result of a unified register that later instructions do not see yet (R183): the register, the value they see, and
for how many further instructions it is hidden from ALU operands and stores, and from X/Y addressing; whether a post-update is lost
to it: it is the result of a control-format, immediate-format or load instruction (R226). -/
structure Late where
  reg : Nat
  old : Word
  alu : Nat
  addr : Nat
  stands : Bool
  deriving DecidableEq, Repr

/-- The same for an accumulator, seen by extractions, moves and stores. -/
structure LateAcc where
  a : Nat
  old : List Lane
  left : Nat
  deriving DecidableEq, Repr

/-- The same for lc (0), ls (1), le (2), seen by the end-of-loop test. -/
structure LateLoop where
  which : Nat
  old : Word
  left : Nat
  deriving DecidableEq, Repr

/-- What a stalled crew port request does when its response comes (R185, R191). -/
inductive PortOp where
  | load (op : LoadOp) (rd : Nat)
  | ldx (rd : Nat) (wide : Bool)
  | stx (rd : Nat) (wide : Bool) (data : BitVec 64)
  deriving DecidableEq, Repr

/-- A request through the crew port: what it does, its local address, its device address, key identifier included. -/
structure PortReq where
  op : PortOp
  loc : Nat
  dev : Nat
  /-- It was in flight at a unit reset of its channel's Patina: it completes with a bus error (R290). -/
  dead : Bool := false
  deriving DecidableEq, Repr

/-- A posted store (R187): local address, device address, bytes, data. -/
structure Posted where
  loc : Nat
  dev : Nat
  bytes : Nat
  data : Nat
  /-- The crew port has accepted it: its entry of the store buffer is free (R187). -/
  taken : Bool := false
  /-- Its response will be discarded: the engine's watchdog has bitten since (R202). -/
  mute : Bool := false
  /-- As `PortReq.dead` (R290). -/
  dead : Bool := false
  deriving DecidableEq, Repr

/-- A REPEAT in progress (R189): the address of the REPEAT, its count, the iterations completed. -/
structure Rep where
  addr : Word
  count : Nat
  done : Nat
  deriving DecidableEq, Repr

/-- A Yezar engine (spec/08). -/
structure Engine where
  /-- Unified registers 0 to 39 (R207); zero where unlisted. -/
  u : List (Nat × Word) := []
  /-- Accumulator lanes by 4 × accumulator + lane (R182). -/
  acc : List (Nat × Lane) := []
  /-- Control registers c0 to c10 and the loop registers (R204). `pc` is the next instruction to execute. -/
  pc : Word := 0
  st : Word := 0
  epc : Word := 0
  est : Word := 0
  ecause : Word := 0
  ectx : Word := 0
  etgt : Word := 0
  ctxid : Word := 0
  ien : Word := 0
  vbase : Word := 0
  eaddr : Word := 0
  lc : Word := 0
  ls : Word := 0
  le : Word := 0
  /-- The high timestamp word latched by a read of c14 (R6). -/
  tsh : Option Nat := none
  /-- Results not visible yet, oldest first (R183). -/
  late : List Late := []
  lateAcc : List LateAcc := []
  lateLoop : List LateLoop := []
  /-- The next instruction stands in a delay slot: the address where execution continues after it (R184, R196), and
  whether the branch was taken. -/
  slot : Option (Word × Bool) := none
  rep : Option Rep := none
  /-- An open atomic sequence: instructions issued since the LDX (R191). -/
  atom : Option Nat := none
  /-- The reservation: the line (local address / 64) and whether it is of 64 bits (R191). -/
  rsv : Option (Nat × Bool) := none
  /-- The request that stalls the pipeline (R185). -/
  wait : Option PortReq := none
  /-- Posted stores that have not completed, oldest first (R187): those that the crew port has not accepted stand in the
  8-entry store buffer. -/
  posted : List Posted := []
  /-- A store that waits for an entry of the full store buffer: the pipeline stalls (R187). -/
  blocked : Option Posted := none
  /-- Old words of IMEM that the pipeline may still run: the word's number, the word, and how many more instructions may run
  it (R188). -/
  oldWords : List (Nat × Word × Nat) := []
  /-- A FENCE waits for the posted stores (R26). -/
  fencing : Bool := false
  /-- Responses to discard: those of requests given up by a bite, a restart or a timeout (R186, R202). -/
  stale : Nat := 0
  /-- The timer compare is armed (ENG_TMR_HI). -/
  tmrArmed : Bool := false
  /-- A halt request that has not been taken: its CAUSE code, and the comparator that made it (R379). -/
  haltReq : Option (Nat × Nat) := none
  /-- The halt request is to be forced (R380). -/
  haltForce : Bool := false
  /-- The engine runs one unit of STEP and then halts (R383); the unit has begun. -/
  stepping : Bool := false
  stepBegun : Bool := false
  /-- The next instruction comes after a resume and makes no instruction match. -/
  resumed : Bool := false
  /-- Comparator flags (R385). -/
  flags : Nat := 0
  /-- A fed instruction is in progress (R382): its crew port request is in `wait`. -/
  feeding : Bool := false
  deriving DecidableEq, Repr

/-- How far a data phase, a wait or a program of the NAND sequencer is (R236, R237). -/
inductive NandPhase where
  /-- Its next micro-op acts when the program holds the bus. -/
  | ready
  /-- A DOUT or DIN transfers. -/
  | data
  /-- A WAIT_T holds the bus. -/
  | waitT
  /-- A WAIT_RB waits for the LUN; since when, in nanoseconds. -/
  | waitRb (since : Nat)
  /-- The LUN is ready again; the program resumes when the bus goes to it. -/
  | resumable
  /-- At END, waiting for room in the completion ring, with its status. -/
  | atEnd (status : Nat)
  deriving DecidableEq, Repr

/-- A descriptor that the sequencer has started (R235): its eight words, whether it is a PRIO descriptor, the next
micro-op, its row after remapping, and what its completion will report (R238). -/
structure NandRun where
  words : List Word
  prio : Bool
  pc : Nat
  row : Nat
  remapped : Bool
  phase : NandPhase
  crcBusy : Bool
  lastStatus : Nat
  maxCorr : Nat
  failMask : Nat
  busy : Nat
  diff : Nat
  /-- The word of the data phase or wait in progress, and whether the phase feeds its CRC context (R236, R249). -/
  uop : Nat := 0
  fed : Bool := false
  deriving DecidableEq, Repr

/-- A LUN: the descriptors queued, as crew SRAM offset and PRIO, and those started. -/
structure Lun where
  queue : List (Nat × Bool) := []
  run : Option NandRun := none
  prio : Option NandRun := none
  deriving DecidableEq, Repr

/-- A task in the crew task queue (R252): its record's offset, class, cost, deadline where it has one, and how often it has
been passed over. -/
structure Task where
  off : Nat
  cls : Nat
  cost : Nat
  deadline : Option Nat
  passed : Nat
  deriving DecidableEq, Repr

/-- A channel's NAND sequencer, codec, CRC unit and task queue (spec/10). -/
structure Channel where
  /-- LUNs by index. -/
  luns : List (Nat × Lun) := []
  /-- The LUN whose program holds the bus, and whether that is its PRIO descriptor. -/
  bus : Option (Nat × Bool) := none
  /-- The LUN that held the bus last, as index + 1 (round robin, R237). -/
  last : Nat := 0
  /-- MODE, RATE, ODT and POLL written while a program held the bus (R234). -/
  cfgPend : Option Word := none
  /-- LDPC jobs queued, by the offset of their record (R244). -/
  jobs : List Nat := []
  /-- The LDPC job that runs: the words of its record. -/
  job : Option (List Word) := none
  /-- A scan waits for an inline phase to end, or runs (R249). -/
  scanWaits : Bool := false
  /-- Programs that wait at END for room in the completion ring, in the order in which they reached it: LUN, PRIO (R238). -/
  ended : List (Nat × Bool) := []
  /-- Tasks queued, oldest first (R252). -/
  tasks : List Task := []
  /-- The task queue held an eligible task when it was last judged (R253). -/
  elig : Bool := false
  deriving DecidableEq, Repr

/-- A request in a DRAM controller's queue (R264): its physical offset and its place in the order of arrival. -/
structure DramReq where
  off : Nat
  seq : Nat
  deriving DecidableEq, Repr

/-- What brings a controller's memory into self-refresh, or why it waits to leave it (R269). -/
inductive SrCause where
  | reset | easy | moored
  deriving DecidableEq, Repr

/-- A channel's DRAM controller (spec/11). -/
structure DramCtrl where
  /-- Read and write queues, oldest first: at most 64 lines each. -/
  reads : List DramReq := []
  writes : List DramReq := []
  /-- Requests that Patina holds while a queue is full or requests are held. -/
  held : List (Bool × Nat) := []
  seq : Nat := 0
  /-- Write drain is on; it was turned on because the read queue was empty. -/
  drain : Bool := false
  drainIdle : Bool := false
  /-- Banks in strict order: the arrival number of the last write older than the triggering read. -/
  strict : List (Nat × Nat) := []
  /-- The open row of a bank, as row + 1. -/
  rows : List (Nat × Nat) := []
  /-- The activate tables of R271: by bank, rows and counts in entry order. -/
  acts : List (Nat × List (Nat × Nat)) := []
  /-- MITIG at the start of the 32 ms window. -/
  mitig0 : Nat := 0
  /-- Per-bank refreshes postponed. -/
  postponed : Nat := 0
  /-- A refresh of all banks has been asked for. -/
  refAll : Bool := false
  /-- The path in progress is the warm path; steps 6 and 7 run again after a unit reset. -/
  warm : Bool := false
  retrain : Bool := false
  /-- The training step has failed once. -/
  failedOnce : Bool := false
  /-- The last internal state error, as timestamp + 1. -/
  lastErr : Nat := 0
  /-- When the path in progress began (R261). -/
  began : Nat := 0
  /-- The memory's rolling activate counts by bank, kept where refresh management is required (R272). -/
  rolling : List (Nat × Nat) := []
  /-- The channel's memory is in self-refresh, and why. -/
  sr : Option SrCause := none
  deriving DecidableEq, Repr

/-- A channel's Patina instance (spec/12). Plain text stands in `State.dram`; this holds what decides how it reads. -/
structure Patina where
  /-- Major counters by 4 KiB page, minor counters by line (R280). -/
  major : List (Nat × Nat) := []
  minor : List (Nat × Nat) := []
  /-- The key, and its key identifier, under which a line was written: key × 16 + identifier (R279, R292). -/
  lineKey : List (Nat × Nat) := []
  /-- Lines marked poisoned (R286). -/
  marks : List Nat := []
  /-- Blocks of 2 MiB touched in Cipher-only (R285). -/
  touched : List Nat := []
  /-- The channel clock of level 0 (R281). -/
  g0 : Nat := 0
  /-- Pages being re-encrypted and blocks being filled (R280, R285). -/
  reenc : List Nat := []
  fill : List Nat := []
  /-- The last internal state error, as timestamp + 1 (R290), and the state to return to. -/
  lastErr : Nat := 0
  before : Nat := 1
  deriving DecidableEq, Repr

/-- A key agreement in progress over SPDM (R299). -/
inductive SpdmPhase where
  | start | version | capabilities | algorithms
  deriving DecidableEq, Repr

/-- The security block (spec/12). A key is represented by a number that no other key has. -/
structure Security where
  /-- Keys by slot, zero where the slot holds none. -/
  keys : List (Nat × Nat) := []
  /-- Keys drawn so far. -/
  drawn : Nat := 0
  /-- The master key has to be drawn (R291): after a cold and a warm reset, at the hub's checker self-test. -/
  keyDue : Bool := true
  /-- SEC_KS_DATA by word. -/
  ksData : List (Nat × Nat) := []
  /-- SEC_OTP_BUF by byte. -/
  otpBuf : List (Nat × Nat) := []
  /-- Owner slots' digests and image keys by slot (one-time-programmable). -/
  digests : List (Nat × Nat) := []
  ownerKeys : List (Nat × Nat) := []
  /-- Measurements by index (R299). -/
  meas : List (Nat × Nat) := []
  spdm : SpdmPhase := .start
  /-- A KEY_EXCHANGE awaits its FINISH; open sessions by number; a signed response has been sent. -/
  exchange : Bool := false
  sessions : List Nat := []
  signed : Bool := false
  /-- IDE streams in the Insecure state, and those with keys, by port × 8 + stream (R296). -/
  insecure : List Nat := []
  keyed : List Nat := []
  deriving DecidableEq, Repr

/-- A directory entry (R310): the port that holds the line, and whether Exclusive. -/
structure DirEntry where
  port : Nat
  excl : Bool
  deriving DecidableEq, Repr

/-- A snoop filter entry (R314): the present sectors, and the owner of an Exclusive or Modified copy. -/
structure SfEntry where
  present : List Nat
  owner : Option Nat
  deriving DecidableEq, Repr

/-- A back-invalidation in flight (R310, R312): the port and line snooped, BISnpInv or BISnpData, and the internal accesses
that wait for it, by requester and tag. -/
structure BiSnoop where
  port : Nat
  line : Nat
  inv : Bool
  waiting : List (Requester × Nat)
  deriving DecidableEq, Repr

/-- Who waits for the answers of sectors to a snoop (R314): the host; another sector's read, by its tag and whether for
ownership; the eviction of a way. -/
inductive SnoopFor where
  | host
  | sector (s tag : Nat) (own : Bool)
  | evict
  deriving DecidableEq, Repr

/-- A snoop of caching sectors in progress: the line, the message, the sectors still to answer, the data answered with its poison
mark, who waits for it; once no sector is waited for, the one that answered last, whose end waits for a tag. -/
structure Snoop where
  line : Nat
  kind : Nat
  waiting : List Nat
  data : Option (Nat × Bool)
  who : SnoopFor
  last : Nat := 0
  deriving DecidableEq, Repr

/-- A queue pair of PF2 (R318): the entries of the submission queue (0: there is none), its head and tail; the entries of the
completion queue (0: there is none), its head and tail, the phase, the vector (0xFFFF: none). -/
structure NvQueue where
  size : Nat
  head : Nat
  tail : Nat
  cqSize : Nat
  cqHead : Nat
  cqTail : Nat
  phase : Bool
  vec : Nat
  deriving DecidableEq, Repr

/-- A queue pair that does not exist. -/
def nvAbsent : NvQueue := ⟨0, 0, 0, 0, 0, 0, true, 0xFFFF⟩

/-- The admin queue pair as it stands after reset. -/
def nvAdmin : NvQueue := ⟨4096, 0, 0, 4096, 0, 0, true, 0⟩

/-- A command in the dispatch table of R340: port, submission queue, the command as fetched, its Wake sequence number, the
submission queue's head after the fetch, the timestamp of the fetch; the channel it is bound to, none for an admin command;
its entry's index in the ring; the engine that popped its task; it has to be dispatched again. -/
structure NvCmd where
  port : Nat
  q : Nat
  cmd : Nat
  seq : Nat
  head : Nat
  ts : Nat
  chan : Option Nat
  slot : Nat
  engine : Option Nat
  redo : Bool
  /-- The first and the third word of its inbound entry, once it has been dispatched: a second one repeats them (R340). -/
  sent : Option (Nat × Nat) := none
  deriving DecidableEq, Repr

/-- The host ports (spec/13). -/
structure HostSide where
  /-- Words of the MSI-X tables, by (p for PF0 of port p, 2 + p for PF2) × 256 + word (R330). -/
  msixTable : List (Nat × Nat) := []
  /-- Pending MSI-X vectors, by the same × 64 + vector (R330). -/
  msixPending : List Nat := []
  /-- Functions that have MSI-X disabled or Bus Master Enable clear, as the host's configuration writes leave them: PF0 of
  port p as p, PF2 as 2 + p. -/
  msixOff : List Nat := [0, 1, 2, 3]
  busMasterOff : List Nat := [0, 1, 2, 3]
  /-- Words of configuration spaces that the host has written, by (port × 8 + function) × 1,024 + word. -/
  cfgSpace : List (Nat × Nat) := []
  /-- Ports whose PF1 and PF2 answer as absent: start-up has not completed 1 s after the release of PERST (R127). -/
  absent : List Nat := []
  /-- The back-invalidation directory by line (location / 64, R310), least recently granted first; the snoops in flight; the
  accesses that ended with a bus error before their response: by a snoop's timeout (R312) or the reset of a link (R50). -/
  dir : List (Nat × DirEntry) := []
  biSnoops : List BiSnoop := []
  failed : List (Requester × Nat) := []
  /-- The snoop filter by line, least recently granted first, and snoops in progress (R314). -/
  sf : List (Nat × SfEntry) := []
  snoops : List Snoop := []
  /-- Lines that a sector was removed from after it failed to answer: line × 128 + sector (R315). -/
  dropped : List Nat := []
  /-- Queues of PF2 by port × 64 + queue (R318); the admin queue always exists. -/
  queues : List (Nat × NvQueue) := [(0, nvAdmin), (64, nvAdmin)]
  /-- Words of PF2's controller registers as the host wrote them, by port × 1,024 + word. -/
  nvRegs : List (Nat × Nat) := []
  /-- The dispatch tables, oldest first (R340). -/
  cmds : List NvCmd := []
  deriving DecidableEq, Repr

/-- The command slots (spec/13). -/
structure Slots where
  /-- Queued slots in doorbell order. -/
  queue : List Nat := []
  /-- The slot that each hub engine runs. -/
  running : List (Nat × Nat) := []
  /-- Slots whose program stops at its next clean boundary, as slot × 16 + status code (R325). -/
  stopped : List Nat := []
  /-- The service calls on whose loads or captures a hub engine waits, by engine: the call number (R327). -/
  waits : List (Nat × Nat) := []
  /-- Slots whose status record waits to be written (R310, R324): slot, status code, and whether the command said that the record fails. -/
  ending : List (Nat × Nat × Bool) := []
  deriving DecidableEq, Repr

/-- A journal entry of the Wake (R333 to R335): its port and direction; its slot, which for an outbound entry is also its
device tag; its sequence number; a read with a side effect; sent again at least once; STATE (0 forwarded, 1 held, 2 waiting
for a completion, 3 completion stored); the unit of its destination, or of its requester for an outbound entry; the request;
a posted write; its data and byte enables; pool lines; timestamp. -/
structure WakeEntry where
  port : Nat
  out : Bool
  slot : Nat
  seq : Nat
  side : Bool
  replayed : Bool
  state : Nat
  dest : Nat
  req : NocReq
  posted : Bool
  data : Nat
  be : Nat
  lines : Nat
  ts : Nat
  deriving DecidableEq, Repr

/-- A recovery (R342): its KIND and unit, when the fault came, whether it has restarted once, and what it has sent again. -/
structure Recovery where
  kind : Nat
  unit : Nat
  start : Nat
  again : Bool
  quiet : Bool
  replayed : Nat
  dups : Nat
  redeliv : Nat
  deriving DecidableEq, Repr

/-- The replay journal (spec/14). -/
structure Wake where
  /-- Entries, oldest first. -/
  entries : List WakeEntry := []
  /-- Applied marks: (port × 65,536 + unit) to sequence number + 1 (R338). -/
  marks : List (Nat × Nat) := []
  /-- The hub decoder's store of side-effect reads: port, sequence number, value, newest first. -/
  sides : List (Nat × Nat × Nat) := []
  /-- Recoveries that run. -/
  recs : List Recovery := []
  /-- When the last recovery of a unit completed, as timestamp + 1. -/
  done : List (Nat × Nat) := []
  /-- The snapshot of WAKE_PEEK_SEL: eight words. -/
  peek : List (Nat × Nat) := []
  /-- Tags that a port in the scope of a recovery has freed since the fault, as port × 16,384 + tag (R339). -/
  freed : List Nat := []
  deriving DecidableEq, Repr

/-- An operating-point change in progress, or a lowering that was not acknowledged (R359): the new point, whether it
raises. -/
structure OpChange where
  target : Nat
  up : Bool
  deriving DecidableEq, Repr

/-- Power states and the governor (spec/15). -/
structure Power where
  /-- The device is in Moored (R355), or entering it. -/
  moored : Bool := false
  mooring : Bool := false
  /-- Its entry waits for the NAND queues to drain (R241, R355). -/
  draining : Bool := false
  /-- A wake source that came while Moored was being entered (R348). -/
  mooredWake : Option Nat := none
  /-- WAKE_N is driven low after a wake (R357). -/
  wakeN : Bool := false
  /-- Cycles of the always-on clock that have passed in Moored (R42). -/
  cycles : Nat := 0
  /-- Partitions whose Easy entry the governor started. -/
  byGov : List Nat := []
  /-- Partitions whose entry is past quiescence; those a wake source came for meanwhile (R348). -/
  quiet : List Nat := []
  wakeDue : List Nat := []
  /-- Save records in the pool and the die records: bytes by partition (R351). -/
  records : List (Nat × Nat) := []
  /-- Operating-point changes by partition (R359): those in progress, shown by PWR_PART.PENDING, and lowerings that have
  failed, whose clocks stay low. Partitions whose OP_TGT was written during a change or in Easy. -/
  changes : List (Nat × OpChange) := []
  later : List Nat := []
  /-- Leaders of islands that run at the limit of a lowered operating point, below CLK_ISL.FREQ (R359). -/
  capped : List Nat := []
  /-- AVS rails that have still to acknowledge after power-on or a Moored wake (R360). -/
  railDue : List Nat := List.range 6
  /-- The crew clock of a channel in MHz, where it differs from the R2 engine clock of the grade. -/
  crewMhz : List (Nat × Nat) := []
  /-- Buckets in millijoules (R362), where not zero. -/
  buckets : List (Nat × Rat) := []
  /-- Energy not yet counted in PWR_PART.ENERGY, in units of 10 nJ, by partition. -/
  energy : List (Nat × Nat) := []
  /-- The latest reading of each rail of PWR_PMB in mW (R361). -/
  rails : List (Nat × Nat) := []
  /-- The device to read next after an alert. -/
  alert : Bool := false
  /-- Telemetry is lost: every rate is held (R361). -/
  blind : Bool := false
  /-- When the Sprint window opened, as timestamp + 1, and the length of the last window in nanoseconds (R365). -/
  opened : Nat := 0
  window : Nat := 0
  /-- When it closed: the cool-down lasts four times its length (R365). -/
  closed : Nat := 0
  /-- Ticks in a row in which the total power has exceeded the budget (R362). -/
  overTicks : Nat := 0
  /-- The hottest sensor of a partition at the last tick, 20 the hub: a cause rises as one crosses its threshold (R366). -/
  temps : List (Nat × Int) := []
  deriving DecidableEq, Repr

/-- An access that a debug access set is making (R377), and the answer of a fabric target: data, error. -/
structure DbgAccess where
  addr : Nat
  size : Nat
  kind : Nat
  data : Nat
  answer : Option (Nat × Bool)
  deriving DecidableEq, Repr

/-- The debug domain (spec/16). -/
structure Debug where
  /-- The code in the TAP's instruction register; IDCODE after Test-Logic-Reset. -/
  ir : Nat := 2
  /-- The level of COX_EN as the last Update-IR sampled it (R371). -/
  coxEn : Bool := false
  /-- Cells of the boundary register that hold 1. -/
  cells : List Nat := []
  /-- Status and data of the last access over DBG_REG (R374). -/
  regStat : Nat := 0
  regData : Word := 0
  /-- Over DBG_IMG: the last word was accepted, and the bytes accepted so far (R375). -/
  imgOk : Bool := false
  imgBytes : Nat := 0
  /-- Accesses of access sets 0 and 1 in progress. -/
  sets : List (Nat × DbgAccess) := []
  /-- The access set that was served last (R377). -/
  lastSet : Option Nat := none
  /-- When each cross-trigger channel fired last, as timestamp + 1 (R388). -/
  xtLast : List (Nat × Nat) := []
  /-- Edges that halted islands still get from DBG_ISL_STEP, by leader (R387). -/
  isl : List (Nat × Nat) := []
  deriving DecidableEq, Repr

/-- The serial lanes (spec/17). -/
structure Lanes where
  /-- Words received and not yet taken by the fabric, by lane, oldest first (R401: at most 16). -/
  rx : List (Nat × List Nat) := []
  /-- Words that the fabric has supplied and the lane has not sent, by lane, oldest first (R401: at most 16). -/
  tx : List (Nat × List Nat) := []
  /-- Transmit settings in use where they differ from the registers' cold ones, by lane: TXEQ word, MAIN, AMP (R395). -/
  txSet : List (Nat × Nat × Nat × Nat) := []
  /-- PLL settings in use, by quad, once APPLY has set one: NINT, NFRAC, DIV (R393). -/
  pll : List (Nat × Nat × Nat × Nat) := []
  /-- Lanes whose adaptation runs (R398); lanes whose CDR_LOCK was lost during the dwell that runs (R405). -/
  adapting : List Nat := []
  eyeLost : List Nat := []
  /-- Codewords in a row that could not be corrected, by lane (R400). -/
  badCw : List (Nat × Nat) := []
  /-- Lanes in electrical idle because their recovered clock was lost (R47). -/
  lost : List Nat := []
  deriving DecidableEq, Repr

/-- The state of the XD9. -/
structure State where
  /-- The register file: field place to value xor cold value; an unlisted field has its cold value (R11). -/
  regs : List (Nat × Nat) := []
  /-- The values that the loaded image gives to fields whose cold value is "image" (R11), in the form of `regs`. -/
  imageVals : List (Nat × Nat) := []
  /-- Clocks, resets, bundles and the timestamp (spec/02). -/
  clocks : Clocks := {}
  /-- The fabric (spec/03). -/
  fabric : Fabric := {}
  /-- On-chip memories, scrubbers and configuration frames (spec/04, 05). -/
  onchip : Onchip := {}
  /-- The configuration controller (spec/05, 06). -/
  config : Config := {}
  /-- The network on chip (spec/07). -/
  noc : Noc := {}
  /-- Yezar engines by number (spec/08). -/
  engines : List (Nat × Engine) := []
  /-- Channel DRAM as the channels hold it in plain text, by device location; zero where unlisted (R280, R285). -/
  dram : List Host.Cell := []
  /-- Channels by number (spec/10). -/
  channels : List (Nat × Channel) := []
  /-- DRAM controllers by channel (spec/11). -/
  drams : List (Nat × DramCtrl) := []
  /-- Patina instances by channel, and the security block (spec/12). -/
  patinas : List (Nat × Patina) := []
  security : Security := {}
  /-- The host ports and command slots (spec/13). -/
  host : HostSide := {}
  slots : Slots := {}
  /-- The replay journal (spec/14). -/
  wake : Wake := {}
  /-- Power states and the rate governor (spec/15). -/
  power : Power := {}
  /-- The debug domain (spec/16). -/
  dbg : Debug := {}
  /-- The serial lanes (spec/17). -/
  lanes : Lanes := {}
  /-- The model's own counter: the next free value to take (an open value of the spec). -/
  freeCtr : Nat := 0
  /-- The outputs of the most recent command, in order (the model's own field). -/
  out : List Out := []
  /-- The commands that are waiting, first in, first out. -/
  pending : List Instr := []
  deriving DecidableEq, Repr

/-- The machine right after power-on reset: every register at its cold value, no bundle declared, nothing queued. -/
def State.reset : State := {}

end Sys2Proof.Machine
end

