-- ==== Sys2Proof/Machine/Field.lean ====
section
/-! DEFINITION. Register fields: how a field is named, how its value is read and written in the state, and the form of
the register tables. The state holds for every field its exclusive or with its cold value, so that a field nothing has
written reads its cold value and equal register contents are equal data. -/

namespace Sys2Proof.Machine

/-- One field of one register: its place (32 × device location + lowest bit), its width, its cold value (R11). -/
structure Fld where
  key : Nat
  w : Nat
  cold : Nat
  deriving DecidableEq, Repr

/-- Where the ENG_ block of an engine begins: in its channel's control space (R230), or for hub engine HEn, engine
1,024 + n, at DBG_ + 0x8000 + n × 0x1000 (spec/16). -/
def engBase (g : Nat) : Nat :=
  if g < 1024 then 0x020000100000 + g / 64 * 0x10000000 + g % 64 * 0x1000 else 0x0300000B8000 + (g - 1024) * 0x1000

/-- The meaning of an answer that goes on. -/
abbrev Res := Host.Outcome State Fault Refusal

/-- The value of a field. -/
def State.get (s : State) (f : Fld) : Nat := smGet 0 s.regs f.key ^^^ f.cold

/-- A field given a value, cut to the field's width. -/
def State.put (s : State) (f : Fld) (v : Nat) : State :=
  { s with regs := smSet 0 s.regs f.key ((v % 2 ^ f.w) ^^^ f.cold) }

/-- A one-bit field as a truth value. -/
def State.on (s : State) (f : Fld) : Bool := s.get f % 2 == 1

/-- A one-bit field set or cleared. -/
def State.flag (s : State) (f : Fld) (b : Bool) : State := s.put f b.toNat

/-- Bit `i` of a field. -/
def State.bit (s : State) (f : Fld) (i : Nat) : Bool := (s.get f).testBit i

/-- Bit `i` of a field set or cleared. -/
def State.putBit (s : State) (f : Fld) (i : Nat) (b : Bool) : State := s.put f (withBit (s.get f) i b)

/-- Several fields given values, in order. -/
def State.puts (s : State) : List (Fld × Nat) → State
  | [] => s
  | (f, v) :: l => (s.put f v).puts l

/-- A field counted up by one; `sat` says it stops at its largest value, else it wraps. -/
def State.count (s : State) (f : Fld) (sat : Bool := true) : State :=
  if sat && s.get f + 1 == 2 ^ f.w then s else s.put f (s.get f + 1)

/-- A 64-bit or 52-bit value held in a low and a high word. -/
def State.get64 (s : State) (lo hi : Fld) : Nat := s.get lo + s.get hi * 2 ^ 32

/-- A value written to a low and a high word. -/
def State.put64 (s : State) (lo hi : Fld) (v : Nat) : State := (s.put lo (v % 2 ^ 32)).put hi (v / 2 ^ 32)

/-- The state with the outputs of the command before it forgotten. -/
def State.begin (s : State) : State := { s with out := [] }

/-- One more output of the command. -/
def State.emit (s : State) (o : Out) : State := { s with out := s.out ++ [o] }

/-- Access codes of R8. -/
inductive Acc where
  | rw | ro | w1c | w1s | wo | rc | rwl
  deriving DecidableEq, Repr

/-- Where a field's value comes from at a reset: its cold value; its cold value at POR only; the image; nothing (it is
fixed, stored or a strap, and no reset of the table changes it). -/
inductive Kind where
  | normal | por | image | fixed
  deriving DecidableEq, Repr

/-- A cold value: one for all instances, or one for each index of the innermost instance. -/
inductive ColdValue where
  | all (v : Nat)
  | byIndex (l : List Nat)
  deriving DecidableEq, Repr

/-- To which partition a register's instance belongs (R422). -/
inductive Owner where
  /-- The hub, partition 20. -/
  | hub
  /-- No partition: the always-on or the debug domain. -/
  | none
  /-- The channel of the first index. -/
  | chan
  /-- The partition, or the die, of the first index. -/
  | part | die
  /-- The channel of an index that counts channels in a hub block. -/
  | chanIdx
  /-- The die of sector number `first index`. -/
  | flat32
  /-- The partition of the lane or the quad of the first index. -/
  | lane | quad
  /-- The partition of the unit that a NoC probe watches. -/
  | probe
  /-- Bit by bit: clock domains, partitions failed, partitions incomplete, loop locks, summary bits. -/
  | domBits | partFail | rstStatus | clkRef | summaryBits
  /-- The partition of the summary bit of the first index; the hub from bit 20 on. -/
  | summary
  deriving DecidableEq, Repr

/-- To which host port a register's instance belongs, for a host-link reset. -/
inductive PortOf where
  | none | idx | laneP | quadP
  /-- Bit `p` of each field belongs to port `p`. -/
  | bits
  deriving DecidableEq, Repr

/-- A field of a register table: lowest bit, width, access code, cold value, source at reset, kept codes
(W = 1, P = 2, H = 4, E = 8, M = 16). -/
structure FieldRow where
  lo : Nat
  w : Nat
  acc : Acc
  cold : ColdValue
  kind : Kind
  kept : Nat
  deriving DecidableEq, Repr

/-- A register of a table: location of its first instance, the counts and strides of its instances, owner, fields. -/
structure RegRow where
  base : Nat
  dims : List (Nat × Nat)
  own : Owner
  port : PortOf
  fields : List FieldRow
  deriving DecidableEq, Repr

/-- The indices of the instance that lies `off` beyond the first one, outermost first. -/
def instanceOf : List (Nat × Nat) → Nat → Option (List Nat)
  | [], off => if off = 0 then some [] else none
  | (count, stride) :: ds, off =>
    if off / stride < count then (instanceOf ds (off % stride)).map (off / stride :: ·) else none

/-- The row of a table that holds a location, with the instance's indices. -/
def rowAt : List RegRow → Nat → Option (RegRow × List Nat)
  | [], _ => none
  | r :: rs, a =>
    if r.base ≤ a then
      match instanceOf r.dims (a - r.base) with
      | some ix => some (r, ix)
      | none => rowAt rs a
    else rowAt rs a

/-- A cold value at an instance. -/
def ColdValue.at (c : ColdValue) (ix : List Nat) : Nat :=
  match c with
  | .all v => v
  | .byIndex l => l.getD (ix.getLastD 0) 0

/-- The field reference of a field row at a location. -/
def FieldRow.ref (f : FieldRow) (a : Nat) (ix : List Nat) : Fld := ⟨a * 32 + f.lo, f.w, f.cold.at ix⟩

end Sys2Proof.Machine
end

