-- ==== Sys2Proof/Machine/RegsChannel.lean ====
section
/-! DEFINITION. The fields of the registers of the channel control spaces and of the engines, as the register
tables of spec/ give them. `n` is the channel; `g` is the engine (0 to 1,023: channel g / 64, engine g % 64; 1,024 to
1,027: hub engines HE0 to HE3). -/

namespace Sys2Proof.Machine

/-! spec/10_storage_channels.md, CH_CAUSE — channel causes. -/
def CH_CAUSE_FW_FAIL (n : Nat) : Fld := ⟨(0x20000000000 + n * 0x10000000) * 32 + 8, 1, 0⟩
def CH_CAUSE_TQ_OVF (n : Nat) : Fld := ⟨(0x20000000000 + n * 0x10000000) * 32 + 7, 1, 0⟩
def CH_CAUSE_LDPC_QOVF (n : Nat) : Fld := ⟨(0x20000000000 + n * 0x10000000) * 32 + 6, 1, 0⟩
def CH_CAUSE_NAND_QOVF (n : Nat) : Fld := ⟨(0x20000000000 + n * 0x10000000) * 32 + 5, 1, 0⟩
def CH_CAUSE_NAND_TMO (n : Nat) : Fld := ⟨(0x20000000000 + n * 0x10000000) * 32 + 4, 1, 0⟩
def CH_CAUSE_ENG (n : Nat) : Fld := ⟨(0x20000000000 + n * 0x10000000) * 32 + 2, 1, 0⟩
def CH_CAUSE_MEM_UE (n : Nat) : Fld := ⟨(0x20000000000 + n * 0x10000000) * 32 + 1, 1, 0⟩
def CH_CAUSE_CLK_ALARM (n : Nat) : Fld := ⟨(0x20000000000 + n * 0x10000000) * 32 + 0, 1, 0⟩

/-! spec/10_storage_channels.md, CH_MASK — channel cause mask. -/
def CH_MASK_MASK (n : Nat) : Fld := ⟨(0x20000000004 + n * 0x10000000) * 32 + 0, 9, 0⟩

/-! spec/10_storage_channels.md, CH_ENG_CAUSE_LO, CH_ENG_CAUSE_HI — engine causes. -/
def CH_ENG_CAUSE_LO_ENG (n : Nat) : Fld := ⟨(0x20000000010 + n * 0x10000000) * 32 + 0, 32, 0⟩
def CH_ENG_CAUSE_HI_ENG (n : Nat) : Fld := ⟨(0x20000000014 + n * 0x10000000) * 32 + 0, 32, 0⟩

/-! spec/10_storage_channels.md, CH_SWDT_LOAD, CH_SWDT_COUNT, CH_SWDT_KICK — supervisory watchdog. -/
def CH_SWDT_LOAD_LOAD (n : Nat) : Fld := ⟨(0x20000000020 + n * 0x10000000) * 32 + 0, 32, 0⟩
def CH_SWDT_COUNT_COUNT (n : Nat) : Fld := ⟨(0x20000000024 + n * 0x10000000) * 32 + 0, 32, 0⟩
def CH_SWDT_KICK_KEY (n : Nat) : Fld := ⟨(0x20000000028 + n * 0x10000000) * 32 + 0, 8, 0⟩

/-! spec/10_storage_channels.md, CH_FW — channel firmware. -/
def CH_FW_OWNER (n : Nat) : Fld := ⟨(0x20000000030 + n * 0x10000000) * 32 + 16, 2, 0⟩
def CH_FW_CAUSE (n : Nat) : Fld := ⟨(0x20000000030 + n * 0x10000000) * 32 + 8, 8, 0⟩
def CH_FW_STATE (n : Nat) : Fld := ⟨(0x20000000030 + n * 0x10000000) * 32 + 0, 2, 0⟩

/-! spec/10_storage_channels.md, NAND_CFG — interface configuration. -/
def NAND_CFG_POLL (n : Nat) : Fld := ⟨(0x20000010000 + n * 0x10000000) * 32 + 24, 8, 1⟩
def NAND_CFG_RATE (n : Nat) : Fld := ⟨(0x20000010000 + n * 0x10000000) * 32 + 16, 8, 0⟩
def NAND_CFG_PGBITS (n : Nat) : Fld := ⟨(0x20000010000 + n * 0x10000000) * 32 + 12, 4, 0⟩
def NAND_CFG_LUNS (n : Nat) : Fld := ⟨(0x20000010000 + n * 0x10000000) * 32 + 10, 2, 0⟩
def NAND_CFG_CES (n : Nat) : Fld := ⟨(0x20000010000 + n * 0x10000000) * 32 + 8, 2, 0⟩
def NAND_CFG_ODT (n : Nat) : Fld := ⟨(0x20000010000 + n * 0x10000000) * 32 + 6, 2, 0⟩
def NAND_CFG_MODE (n : Nat) : Fld := ⟨(0x20000010000 + n * 0x10000000) * 32 + 0, 2, 0⟩

/-! spec/10_storage_channels.md, NAND_CTRL — interface control. -/
def NAND_CTRL_WP_REL (n : Nat) : Fld := ⟨(0x20000010004 + n * 0x10000000) * 32 + 1, 1, 0⟩
def NAND_CTRL_EN (n : Nat) : Fld := ⟨(0x20000010004 + n * 0x10000000) * 32 + 0, 1, 0⟩

/-! spec/10_storage_channels.md, NAND_STATUS, NAND_RESUME — LUN state. -/
def NAND_STATUS_HALT (n : Nat) : Fld := ⟨(0x20000010008 + n * 0x10000000) * 32 + 16, 16, 0⟩
def NAND_STATUS_BUSY (n : Nat) : Fld := ⟨(0x20000010008 + n * 0x10000000) * 32 + 0, 16, 0⟩
def NAND_RESUME_RESUME (n : Nat) : Fld := ⟨(0x2000001000c + n * 0x10000000) * 32 + 0, 16, 0⟩

/-! spec/10_storage_channels.md, NAND_FLAGS — interface flags. -/
def NAND_FLAGS_CLAMP (n : Nat) : Fld := ⟨(0x20000010018 + n * 0x10000000) * 32 + 1, 1, 0⟩
def NAND_FLAGS_CFG_PEND (n : Nat) : Fld := ⟨(0x20000010018 + n * 0x10000000) * 32 + 0, 1, 0⟩

/-! spec/10_storage_channels.md, NAND_Q_PUSH, NAND_TMO — submission and timeout. -/
def NAND_Q_PUSH_PRIO (n : Nat) : Fld := ⟨(0x20000010010 + n * 0x10000000) * 32 + 31, 1, 0⟩
def NAND_Q_PUSH_OFFSET (n : Nat) : Fld := ⟨(0x20000010010 + n * 0x10000000) * 32 + 5, 19, 0⟩
def NAND_TMO_TMO (n : Nat) : Fld := ⟨(0x20000010014 + n * 0x10000000) * 32 + 0, 24, 0x2710⟩

/-! spec/10_storage_channels.md, NAND_CQ_BASE, NAND_CQ_SIZE, NAND_CQ_WPTR, NAND_CQ_RPTR — completion ring. -/
def NAND_CQ_BASE_BUF (n : Nat) : Fld := ⟨(0x20000010020 + n * 0x10000000) * 32 + 0, 32, 0⟩
def NAND_CQ_SIZE_LOG2 (n : Nat) : Fld := ⟨(0x20000010024 + n * 0x10000000) * 32 + 0, 4, 4⟩
def NAND_CQ_WPTR_INDEX (n : Nat) : Fld := ⟨(0x20000010028 + n * 0x10000000) * 32 + 0, 12, 0⟩
def NAND_CQ_RPTR_INDEX (n : Nat) : Fld := ⟨(0x2000001002c + n * 0x10000000) * 32 + 0, 12, 0⟩

/-! spec/10_storage_channels.md, NAND_ACTIVE0–NAND_ACTIVE15 — descriptors active at reset. -/
def NAND_ACTIVE_HALT (n l : Nat) : Fld := ⟨(0x20000010040 + n * 0x10000000 + l * 0x4) * 32 + 31, 1, 0⟩
def NAND_ACTIVE_VALID (n l : Nat) : Fld := ⟨(0x20000010040 + n * 0x10000000 + l * 0x4) * 32 + 30, 1, 0⟩
def NAND_ACTIVE_ROW (n l : Nat) : Fld := ⟨(0x20000010040 + n * 0x10000000 + l * 0x4) * 32 + 0, 24, 0⟩

/-! spec/10_storage_channels.md, NAND_DLY0–NAND_DLY3 — per chip enable timing trims. -/
def NAND_DLY_VREF (n c : Nat) : Fld := ⟨(0x20000010080 + n * 0x10000000 + c * 0x4) * 32 + 16, 8, 0x80⟩
def NAND_DLY_TX_DQ (n c : Nat) : Fld := ⟨(0x20000010080 + n * 0x10000000 + c * 0x4) * 32 + 8, 8, 0⟩
def NAND_DLY_RX_DQS (n c : Nat) : Fld := ⟨(0x20000010080 + n * 0x10000000 + c * 0x4) * 32 + 0, 8, 0⟩

/-! spec/10_storage_channels.md, NAND_ROFS0–NAND_ROFS31 — offset-code table. -/
def NAND_ROFS_CODE (n w : Nat) : Fld := ⟨(0x20000010100 + n * 0x10000000 + w * 0x4) * 32 + 0, 32, 0⟩

/-! spec/10_storage_channels.md, NAND_REMAP — remap entry e. -/
def NAND_REMAP_VALID (n e : Nat) : Fld := ⟨(0x20000014000 + n * 0x10000000 + e * 0x8) * 32 + 31, 1, 0⟩
def NAND_REMAP_FROM (n e : Nat) : Fld := ⟨(0x20000014000 + n * 0x10000000 + e * 0x8) * 32 + 0, 24, 0⟩
def NAND_REMAP_TO (n e : Nat) : Fld := ⟨(0x20000014004 + n * 0x10000000 + e * 0x8) * 32 + 0, 24, 0⟩

/-! spec/10_storage_channels.md, LDPC_CFG, LDPC_LLR — decoder settings. -/
def LDPC_CFG_SOFT_ITER (n : Nat) : Fld := ⟨(0x20000020000 + n * 0x10000000) * 32 + 8, 8, 0x18⟩
def LDPC_CFG_HARD_ITER (n : Nat) : Fld := ⟨(0x20000020000 + n * 0x10000000) * 32 + 0, 8, 0x10⟩
def LDPC_LLR_MAG (n : Nat) : Fld := ⟨(0x20000020004 + n * 0x10000000) * 32 + 0, 16, 0xf951⟩

/-! spec/10_storage_channels.md, LDPC_Q_PUSH, LDPC_CQ_BASE, LDPC_CQ_SIZE, LDPC_CQ_WPTR, LDPC_CQ_RPTR — jobs. -/
def LDPC_Q_PUSH_OFFSET (n : Nat) : Fld := ⟨(0x20000020010 + n * 0x10000000) * 32 + 5, 19, 0⟩

/-! spec/10_storage_channels.md, LDPC_STAT — decoder statistics. -/
def LDPC_STAT_CW_LO (n : Nat) : Fld := ⟨(0x20000020040 + n * 0x10000000) * 32 + 0, 32, 0⟩
def LDPC_STAT_CW_HI (n : Nat) : Fld := ⟨(0x20000020044 + n * 0x10000000) * 32 + 0, 32, 0⟩
def LDPC_STAT_BITS (n : Nat) : Fld := ⟨(0x20000020048 + n * 0x10000000) * 32 + 0, 32, 0⟩
def LDPC_STAT_FAILS (n : Nat) : Fld := ⟨(0x2000002004c + n * 0x10000000) * 32 + 0, 32, 0⟩

/-! spec/10_storage_channels.md, CRC_CTX — context c. -/
def CRC_CTX_INIT (n c : Nat) : Fld := ⟨(0x20000030000 + n * 0x10000000 + c * 0x10) * 32 + 2, 1, 0⟩
def CRC_CTX_POLY (n c : Nat) : Fld := ⟨(0x20000030000 + n * 0x10000000 + c * 0x10) * 32 + 0, 2, 0⟩
def CRC_CTX_VAL_LO (n c : Nat) : Fld := ⟨(0x20000030004 + n * 0x10000000 + c * 0x10) * 32 + 0, 32, 0⟩
def CRC_CTX_VAL_HI (n c : Nat) : Fld := ⟨(0x20000030008 + n * 0x10000000 + c * 0x10) * 32 + 0, 32, 0⟩

/-! spec/10_storage_channels.md, CRC_SCAN — scan engine. -/
def CRC_SCAN_BSIZE (n : Nat) : Fld := ⟨(0x20000030100 + n * 0x10000000) * 32 + 6, 1, 0⟩
def CRC_SCAN_BLK (n : Nat) : Fld := ⟨(0x20000030100 + n * 0x10000000) * 32 + 5, 1, 0⟩
def CRC_SCAN_CTX (n : Nat) : Fld := ⟨(0x20000030100 + n * 0x10000000) * 32 + 3, 2, 0⟩
def CRC_SCAN_GO (n : Nat) : Fld := ⟨(0x20000030100 + n * 0x10000000) * 32 + 0, 1, 0⟩
def CRC_SCAN_BUSY (n : Nat) : Fld := ⟨(0x20000030104 + n * 0x10000000) * 32 + 31, 1, 0⟩
def CRC_SCAN_DONE (n : Nat) : Fld := ⟨(0x20000030104 + n * 0x10000000) * 32 + 30, 1, 0⟩
def CRC_SCAN_ERR (n : Nat) : Fld := ⟨(0x20000030104 + n * 0x10000000) * 32 + 29, 1, 0⟩
def CRC_SCAN_WR_BUSY (n : Nat) : Fld := ⟨(0x20000030104 + n * 0x10000000) * 32 + 28, 1, 0⟩
def CRC_SCAN_SRC_LO (n : Nat) : Fld := ⟨(0x20000030108 + n * 0x10000000) * 32 + 0, 32, 0⟩
def CRC_SCAN_SRC_HI (n : Nat) : Fld := ⟨(0x2000003010c + n * 0x10000000) * 32 + 0, 20, 0⟩
def CRC_SCAN_LEN (n : Nat) : Fld := ⟨(0x20000030110 + n * 0x10000000) * 32 + 0, 32, 0⟩
def CRC_SCAN_COUNT (n : Nat) : Fld := ⟨(0x20000030114 + n * 0x10000000) * 32 + 0, 32, 0⟩
def CRC_SCAN_DST_LO (n : Nat) : Fld := ⟨(0x20000030118 + n * 0x10000000) * 32 + 0, 32, 0⟩
def CRC_SCAN_DST_HI (n : Nat) : Fld := ⟨(0x2000003011c + n * 0x10000000) * 32 + 0, 20, 0⟩

/-! spec/10_storage_channels.md, CREW_TQ_PUSH, CREW_TQ_POP — task queue. -/
def CREW_TQ_PUSH_OFFSET (n : Nat) : Fld := ⟨(0x20000060000 + n * 0x10000000) * 32 + 4, 20, 0⟩
def CREW_TQ_PUSH_LOW (n : Nat) : Fld := ⟨(0x20000060000 + n * 0x10000000) * 32 + 0, 4, 0⟩
def CREW_TQ_POP_TASK (n : Nat) : Fld := ⟨(0x20000060004 + n * 0x10000000) * 32 + 0, 32, 0xffffffff⟩

/-! spec/10_storage_channels.md, CREW_TQ_STATUS, CREW_TQ_CREDIT, CREW_TQ_PROMOTE — queue state. -/
def CREW_TQ_STATUS_COUNT (n : Nat) : Fld := ⟨(0x20000060008 + n * 0x10000000) * 32 + 16, 11, 0⟩
def CREW_TQ_STATUS_ELIG (n : Nat) : Fld := ⟨(0x20000060008 + n * 0x10000000) * 32 + 0, 16, 0⟩
def CREW_TQ_CREDIT_CREDIT (n : Nat) : Fld := ⟨(0x2000006000c + n * 0x10000000) * 32 + 0, 32, 0⟩
def CREW_TQ_PROMOTE_STEP (n : Nat) : Fld := ⟨(0x20000060010 + n * 0x10000000) * 32 + 0, 16, 0⟩

/-! spec/10_storage_channels.md, CREW_PORT_TO — crew port timeout. -/
def CREW_PORT_TO_US (n : Nat) : Fld := ⟨(0x20000060014 + n * 0x10000000) * 32 + 0, 16, 0x3e8⟩

/-! spec/11_dram_controller.md, DRAM_CFG — memory configuration. -/
def DRAM_CFG_FALLBACK (n : Nat) : Fld := ⟨(0x20000040000 + n * 0x10000000) * 32 + 12, 1, 1⟩
def DRAM_CFG_RANKS (n : Nat) : Fld := ⟨(0x20000040000 + n * 0x10000000) * 32 + 8, 1, 0⟩
def DRAM_CFG_DENSITY (n : Nat) : Fld := ⟨(0x20000040000 + n * 0x10000000) * 32 + 4, 3, 0⟩
def DRAM_CFG_RATE (n : Nat) : Fld := ⟨(0x20000040000 + n * 0x10000000) * 32 + 0, 3, 0⟩

/-! spec/11_dram_controller.md, DRAM_CTRL — controller requests. -/
def DRAM_CTRL_REF_ALL (n : Nat) : Fld := ⟨(0x20000040004 + n * 0x10000000) * 32 + 1, 1, 0⟩
def DRAM_CTRL_START (n : Nat) : Fld := ⟨(0x20000040004 + n * 0x10000000) * 32 + 0, 1, 0⟩

/-! spec/11_dram_controller.md, DRAM_STATUS — controller status. -/
def DRAM_STATUS_SR_KEPT (n : Nat) : Fld := ⟨(0x20000040008 + n * 0x10000000) * 32 + 31, 1, 0⟩
def DRAM_STATUS_CFG_BAD (n : Nat) : Fld := ⟨(0x20000040008 + n * 0x10000000) * 32 + 30, 1, 0⟩
def DRAM_STATUS_RATE_EFF (n : Nat) : Fld := ⟨(0x20000040008 + n * 0x10000000) * 32 + 24, 3, 0⟩
def DRAM_STATUS_STEP (n : Nat) : Fld := ⟨(0x20000040008 + n * 0x10000000) * 32 + 12, 4, 0⟩
def DRAM_STATUS_FAIL_SUB (n : Nat) : Fld := ⟨(0x20000040008 + n * 0x10000000) * 32 + 8, 1, 0⟩
def DRAM_STATUS_STATE (n : Nat) : Fld := ⟨(0x20000040008 + n * 0x10000000) * 32 + 0, 4, 0⟩

/-! spec/11_dram_controller.md, DRAM_CAP — capacities. -/
def DRAM_CAP_INSTALLED (n : Nat) : Fld := ⟨(0x2000004000c + n * 0x10000000) * 32 + 16, 16, 0⟩
def DRAM_CAP_USABLE (n : Nat) : Fld := ⟨(0x2000004000c + n * 0x10000000) * 32 + 0, 16, 0⟩

/-! spec/11_dram_controller.md, DRAM_CAUSE — controller causes. -/
def DRAM_CAUSE_RD_STORM (n : Nat) : Fld := ⟨(0x20000040010 + n * 0x10000000) * 32 + 5, 1, 0⟩
def DRAM_CAUSE_REF_LATE (n : Nat) : Fld := ⟨(0x20000040010 + n * 0x10000000) * 32 + 4, 1, 0⟩
def DRAM_CAUSE_STATE_ERR (n : Nat) : Fld := ⟨(0x20000040010 + n * 0x10000000) * 32 + 3, 1, 0⟩
def DRAM_CAUSE_TEMP (n : Nat) : Fld := ⟨(0x20000040010 + n * 0x10000000) * 32 + 2, 1, 0⟩
def DRAM_CAUSE_FALLBACK (n : Nat) : Fld := ⟨(0x20000040010 + n * 0x10000000) * 32 + 1, 1, 0⟩
def DRAM_CAUSE_TRAIN_FAIL (n : Nat) : Fld := ⟨(0x20000040010 + n * 0x10000000) * 32 + 0, 1, 0⟩

/-! spec/11_dram_controller.md, DRAM_MASK — controller cause mask. -/
def DRAM_MASK_MASK (n : Nat) : Fld := ⟨(0x20000040014 + n * 0x10000000) * 32 + 0, 6, 0⟩

/-! spec/11_dram_controller.md, DRAM_SCHED — scheduler limits. -/
def DRAM_SCHED_AGE_LIM (n : Nat) : Fld := ⟨(0x20000040020 + n * 0x10000000) * 32 + 24, 8, 0x20⟩
def DRAM_SCHED_WR_HI (n : Nat) : Fld := ⟨(0x20000040020 + n * 0x10000000) * 32 + 8, 8, 0x30⟩
def DRAM_SCHED_WR_LO (n : Nat) : Fld := ⟨(0x20000040020 + n * 0x10000000) * 32 + 0, 8, 0x10⟩

/-! spec/11_dram_controller.md, DRAM_REF — refresh. -/
def DRAM_REF_MR4_INT (n : Nat) : Fld := ⟨(0x20000040024 + n * 0x10000000) * 32 + 24, 8, 4⟩
def DRAM_REF_MR4_RATE (n : Nat) : Fld := ⟨(0x20000040024 + n * 0x10000000) * 32 + 16, 4, 0⟩
def DRAM_REF_POSTPONED (n : Nat) : Fld := ⟨(0x20000040024 + n * 0x10000000) * 32 + 0, 4, 0⟩

/-! spec/11_dram_controller.md, DRAM_PASR — retained segments. -/
def DRAM_PASR_EFF (n : Nat) : Fld := ⟨(0x20000040028 + n * 0x10000000) * 32 + 8, 8, 0xff⟩
def DRAM_PASR_KEEP (n : Nat) : Fld := ⟨(0x20000040028 + n * 0x10000000) * 32 + 0, 8, 0xff⟩

/-! spec/11_dram_controller.md, DRAM_RD_CFG, DRAM_RD_STAT — row-disturbance defence. -/
def DRAM_RD_CFG_THRESH (n : Nat) : Fld := ⟨(0x20000040030 + n * 0x10000000) * 32 + 16, 16, 0x800⟩
def DRAM_RD_CFG_ALARM (n : Nat) : Fld := ⟨(0x20000040030 + n * 0x10000000) * 32 + 8, 8, 0x10⟩
def DRAM_RD_CFG_RFM (n : Nat) : Fld := ⟨(0x20000040030 + n * 0x10000000) * 32 + 0, 1, 0⟩
def DRAM_RD_STAT_MITIG (n : Nat) : Fld := ⟨(0x20000040034 + n * 0x10000000) * 32 + 0, 32, 0⟩

/-! spec/11_dram_controller.md, DRAM_TRAIN_A, DRAM_TRAIN_B — trained values. -/
def DRAM_TRAIN_RD_MARGIN (n t : Nat) : Fld := ⟨(0x20000040040 + n * 0x10000000 + t * 0x4) * 32 + 24, 8, 0⟩
def DRAM_TRAIN_WR_MARGIN (n t : Nat) : Fld := ⟨(0x20000040040 + n * 0x10000000 + t * 0x4) * 32 + 16, 8, 0⟩
def DRAM_TRAIN_CA_MARGIN (n t : Nat) : Fld := ⟨(0x20000040040 + n * 0x10000000 + t * 0x4) * 32 + 8, 8, 0⟩
def DRAM_TRAIN_VREF (n t : Nat) : Fld := ⟨(0x20000040040 + n * 0x10000000 + t * 0x4) * 32 + 0, 8, 0⟩

/-! spec/12_patina_and_security.md, PAT_CFG, PAT_STATUS, PAT_CTRL — mode, state and commands. -/
def PAT_CFG_LOCK (n : Nat) : Fld := ⟨(0x20000050000 + n * 0x10000000) * 32 + 31, 1, 0⟩
def PAT_CFG_MODE (n : Nat) : Fld := ⟨(0x20000050000 + n * 0x10000000) * 32 + 0, 1, 0⟩
def PAT_STATUS_STATE (n : Nat) : Fld := ⟨(0x20000050004 + n * 0x10000000) * 32 + 0, 4, 0⟩
def PAT_CTRL_ENTRY (n : Nat) : Fld := ⟨(0x20000050008 + n * 0x10000000) * 32 + 8, 5, 0⟩
def PAT_CTRL_CLEAR (n : Nat) : Fld := ⟨(0x20000050008 + n * 0x10000000) * 32 + 1, 1, 0⟩
def PAT_CTRL_RELEASE (n : Nat) : Fld := ⟨(0x20000050008 + n * 0x10000000) * 32 + 0, 1, 0⟩

/-! spec/12_patina_and_security.md, PAT_CAUSE, PAT_MASK — Patina causes. -/
def PAT_CAUSE_STATE_ERR (n : Nat) : Fld := ⟨(0x20000050010 + n * 0x10000000) * 32 + 5, 1, 0⟩
def PAT_CAUSE_SUB_FULL (n : Nat) : Fld := ⟨(0x20000050010 + n * 0x10000000) * 32 + 4, 1, 0⟩
def PAT_CAUSE_SUBTREE (n : Nat) : Fld := ⟨(0x20000050010 + n * 0x10000000) * 32 + 3, 1, 0⟩
def PAT_CAUSE_POISON_RD (n : Nat) : Fld := ⟨(0x20000050010 + n * 0x10000000) * 32 + 2, 1, 0⟩
def PAT_CAUSE_INTEG (n : Nat) : Fld := ⟨(0x20000050010 + n * 0x10000000) * 32 + 1, 1, 0⟩
def PAT_CAUSE_UE (n : Nat) : Fld := ⟨(0x20000050010 + n * 0x10000000) * 32 + 0, 1, 0⟩
def PAT_MASK_MASK (n : Nat) : Fld := ⟨(0x20000050014 + n * 0x10000000) * 32 + 0, 6, 0⟩

/-! spec/12_patina_and_security.md, PAT_ERR_LOG — last failure. -/
def PAT_ERR_LOG_LINE (n : Nat) : Fld := ⟨(0x20000050020 + n * 0x10000000) * 32 + 0, 27, 0⟩
def PAT_ERR_LOG_KEYID (n : Nat) : Fld := ⟨(0x20000050024 + n * 0x10000000) * 32 + 28, 4, 0⟩
def PAT_ERR_LOG_GROUP (n : Nat) : Fld := ⟨(0x20000050024 + n * 0x10000000) * 32 + 24, 4, 0⟩
def PAT_ERR_LOG_CLASS (n : Nat) : Fld := ⟨(0x20000050024 + n * 0x10000000) * 32 + 23, 1, 0⟩
def PAT_ERR_LOG_POSTED (n : Nat) : Fld := ⟨(0x20000050024 + n * 0x10000000) * 32 + 22, 1, 0⟩
def PAT_ERR_LOG_KIND (n : Nat) : Fld := ⟨(0x20000050024 + n * 0x10000000) * 32 + 0, 8, 0⟩
def PAT_ERR_LOG_TS_LO (n : Nat) : Fld := ⟨(0x20000050028 + n * 0x10000000) * 32 + 0, 32, 0⟩
def PAT_ERR_LOG_TS_HI (n : Nat) : Fld := ⟨(0x2000005002c + n * 0x10000000) * 32 + 0, 32, 0⟩

/-! spec/12_patina_and_security.md, PAT_COUNT — counters. -/
def PAT_COUNT_CE (n : Nat) : Fld := ⟨(0x20000050030 + n * 0x10000000) * 32 + 0, 32, 0⟩
def PAT_COUNT_UE (n : Nat) : Fld := ⟨(0x20000050034 + n * 0x10000000) * 32 + 0, 32, 0⟩
def PAT_COUNT_INTEG (n : Nat) : Fld := ⟨(0x20000050038 + n * 0x10000000) * 32 + 0, 32, 0⟩
def PAT_COUNT_REENC (n : Nat) : Fld := ⟨(0x2000005003c + n * 0x10000000) * 32 + 0, 32, 0⟩

/-! spec/12_patina_and_security.md, PAT_SUBTREE — poisoned tree line e. -/
def PAT_SUBTREE_VALID (n e : Nat) : Fld := ⟨(0x20000050100 + n * 0x10000000 + e * 0x4) * 32 + 31, 1, 0⟩
def PAT_SUBTREE_LEVEL (n e : Nat) : Fld := ⟨(0x20000050100 + n * 0x10000000 + e * 0x4) * 32 + 27, 4, 0⟩
def PAT_SUBTREE_INDEX (n e : Nat) : Fld := ⟨(0x20000050100 + n * 0x10000000 + e * 0x4) * 32 + 0, 27, 0⟩

/-! spec/12_patina_and_security.md, PAT_STRICT — strict range r. -/
def PAT_STRICT_EN (n r : Nat) : Fld := ⟨(0x20000050200 + n * 0x10000000 + r * 0x8) * 32 + 31, 1, 0⟩
def PAT_STRICT_BASE (n r : Nat) : Fld := ⟨(0x20000050200 + n * 0x10000000 + r * 0x8) * 32 + 0, 21, 0⟩
def PAT_STRICT_LIMIT (n r : Nat) : Fld := ⟨(0x20000050204 + n * 0x10000000 + r * 0x8) * 32 + 0, 21, 0⟩

/-! spec/10_storage_channels.md, LDPC_Q_PUSH. -/
def LDPC_CQ_BASE_BUF (n : Nat) : Fld := ⟨(0x20000020014 + n * 0x10000000) * 32 + 0, 32, 0⟩
def LDPC_CQ_SIZE_LOG2 (n : Nat) : Fld := ⟨(0x20000020018 + n * 0x10000000) * 32 + 0, 4, 4⟩
def LDPC_CQ_WPTR_INDEX (n : Nat) : Fld := ⟨(0x2000002001c + n * 0x10000000) * 32 + 0, 12, 0⟩
def LDPC_CQ_RPTR_INDEX (n : Nat) : Fld := ⟨(0x20000020020 + n * 0x10000000) * 32 + 0, 12, 0⟩

/-! spec/10_storage_channels.md, Micro-op memory. -/
def NAND_UOP_WORD (n k : Nat) : Fld := ⟨(0x20000018000 + n * 0x10000000 + k * 0x4) * 32 + 0, 32, 0⟩

/-! spec/08_yezar_engine.md, ENG_CTRL — engine control. -/
def ENG_CTRL_RESTART (g : Nat) : Fld := ⟨(engBase g + 0x0) * 32 + 1, 1, 0⟩
def ENG_CTRL_RUN (g : Nat) : Fld := ⟨(engBase g + 0x0) * 32 + 0, 1, 0⟩

/-! spec/08_yezar_engine.md, ENG_STATUS — engine status. -/
def ENG_STATUS_BITES (g : Nat) : Fld := ⟨(engBase g + 0x4) * 32 + 24, 8, 0⟩
def ENG_STATUS_CTX (g : Nat) : Fld := ⟨(engBase g + 0x4) * 32 + 16, 8, 0⟩
def ENG_STATUS_PORT_STALL (g : Nat) : Fld := ⟨(engBase g + 0x4) * 32 + 5, 1, 0⟩
def ENG_STATUS_RSV (g : Nat) : Fld := ⟨(engBase g + 0x4) * 32 + 4, 1, 0⟩
def ENG_STATUS_STATE (g : Nat) : Fld := ⟨(engBase g + 0x4) * 32 + 0, 3, 0⟩

/-! spec/08_yezar_engine.md, ENG_BOOT — start address. -/
def ENG_BOOT_PC (g : Nat) : Fld := ⟨(engBase g + 0x8) * 32 + 2, 30, 0⟩

/-! spec/08_yezar_engine.md, ENG_IRQ_PEND, ENG_IRQ_SET — interrupt lines. -/
def ENG_IRQ_PEND_PEND (g : Nat) : Fld := ⟨(engBase g + 0x10) * 32 + 0, 32, 0⟩
def ENG_IRQ_SET_SET (g : Nat) : Fld := ⟨(engBase g + 0x14) * 32 + 0, 16, 0⟩

/-! spec/08_yezar_engine.md, ENG_WDT_LOAD, ENG_WDT_COUNT, ENG_WDT_KICK — watchdog. -/
def ENG_WDT_LOAD_LOAD (g : Nat) : Fld := ⟨(engBase g + 0x20) * 32 + 0, 32, 0⟩
def ENG_WDT_COUNT_COUNT (g : Nat) : Fld := ⟨(engBase g + 0x24) * 32 + 0, 32, 0⟩
def ENG_WDT_KICK_KEY (g : Nat) : Fld := ⟨(engBase g + 0x28) * 32 + 0, 8, 0⟩

/-! spec/08_yezar_engine.md, ENG_TMR_LO, ENG_TMR_HI — timer compare. -/
def ENG_TMR_LO_TS (g : Nat) : Fld := ⟨(engBase g + 0x30) * 32 + 0, 32, 0⟩
def ENG_TMR_HI_TS (g : Nat) : Fld := ⟨(engBase g + 0x34) * 32 + 0, 32, 0⟩

/-! spec/08_yezar_engine.md, ENG_WIN_DRAM — DRAM window. -/
def ENG_WIN_DRAM_KEYID (g : Nat) : Fld := ⟨(engBase g + 0x40) * 32 + 28, 4, 0⟩
def ENG_WIN_DRAM_CH (g : Nat) : Fld := ⟨(engBase g + 0x40) * 32 + 24, 4, 0⟩
def ENG_WIN_DRAM_BASE (g : Nat) : Fld := ⟨(engBase g + 0x40) * 32 + 0, 16, 0⟩

/-! spec/08_yezar_engine.md, ENG_WIN_DEV_LO, ENG_WIN_DEV_HI — device window. -/
def ENG_WIN_DEV_LO_ADDR (g : Nat) : Fld := ⟨(engBase g + 0x44) * 32 + 21, 11, 0⟩
def ENG_WIN_DEV_HI_ADDR (g : Nat) : Fld := ⟨(engBase g + 0x48) * 32 + 0, 20, 0⟩

/-! spec/08_yezar_engine.md, ENG_ERR — store error record. -/
def ENG_ERR_ADDR (g : Nat) : Fld := ⟨(engBase g + 0x50) * 32 + 0, 32, 0⟩
def ENG_ERR_COUNT (g : Nat) : Fld := ⟨(engBase g + 0x54) * 32 + 16, 16, 0⟩
def ENG_ERR_KIND (g : Nat) : Fld := ⟨(engBase g + 0x54) * 32 + 0, 2, 0⟩

/-! spec/08_yezar_engine.md, ENG_PR_LOCK — protection lock. -/
def ENG_PR_LOCK_LOCK (g : Nat) : Fld := ⟨(engBase g + 0xf0) * 32 + 0, 1, 0⟩

/-! spec/08_yezar_engine.md, ENG_PR — protection region r. -/
def ENG_PR_BASE (g r : Nat) : Fld := ⟨(engBase g + 0x100 + r * 0x10) * 32 + 12, 20, 0⟩
def ENG_PR_LIMIT (g r : Nat) : Fld := ⟨(engBase g + 0x104 + r * 0x10) * 32 + 12, 20, 0⟩
def ENG_PR_EN (g r : Nat) : Fld := ⟨(engBase g + 0x108 + r * 0x10) * 32 + 31, 1, 0⟩
def ENG_PR_CID (g r : Nat) : Fld := ⟨(engBase g + 0x108 + r * 0x10) * 32 + 16, 8, 0⟩
def ENG_PR_CMASK (g r : Nat) : Fld := ⟨(engBase g + 0x108 + r * 0x10) * 32 + 8, 8, 0⟩
def ENG_PR_X (g r : Nat) : Fld := ⟨(engBase g + 0x108 + r * 0x10) * 32 + 2, 1, 0⟩
def ENG_PR_W (g r : Nat) : Fld := ⟨(engBase g + 0x108 + r * 0x10) * 32 + 1, 1, 0⟩
def ENG_PR_R (g r : Nat) : Fld := ⟨(engBase g + 0x108 + r * 0x10) * 32 + 0, 1, 0⟩

/-! spec/16_debug.md, ENG_DBG_ — engine debug. -/
def ENG_DBG_HOR (g : Nat) : Fld := ⟨(engBase g + 0x800) * 32 + 8, 1, 0⟩
def ENG_DBG_STEP_IE (g : Nat) : Fld := ⟨(engBase g + 0x800) * 32 + 4, 1, 0⟩
def ENG_DBG_FORCE (g : Nat) : Fld := ⟨(engBase g + 0x800) * 32 + 3, 1, 0⟩
def ENG_DBG_STEP (g : Nat) : Fld := ⟨(engBase g + 0x800) * 32 + 2, 1, 0⟩
def ENG_DBG_RESUME (g : Nat) : Fld := ⟨(engBase g + 0x800) * 32 + 1, 1, 0⟩
def ENG_DBG_HALT (g : Nat) : Fld := ⟨(engBase g + 0x800) * 32 + 0, 1, 0⟩
def ENG_DBG_FEED_ERR (g : Nat) : Fld := ⟨(engBase g + 0x804) * 32 + 24, 8, 0⟩
def ENG_DBG_CAUSE (g : Nat) : Fld := ⟨(engBase g + 0x804) * 32 + 20, 3, 0⟩
def ENG_DBG_HIT (g : Nat) : Fld := ⟨(engBase g + 0x804) * 32 + 16, 4, 0⟩
def ENG_DBG_FEED_BUSY (g : Nat) : Fld := ⟨(engBase g + 0x804) * 32 + 8, 1, 0⟩
def ENG_DBG_IN_SLOT (g : Nat) : Fld := ⟨(engBase g + 0x804) * 32 + 7, 1, 0⟩
def ENG_DBG_RSV_BROKEN (g : Nat) : Fld := ⟨(engBase g + 0x804) * 32 + 6, 1, 0⟩
def ENG_DBG_FORCED (g : Nat) : Fld := ⟨(engBase g + 0x804) * 32 + 5, 1, 0⟩
def ENG_DBG_DEFERRED (g : Nat) : Fld := ⟨(engBase g + 0x804) * 32 + 4, 1, 0⟩
def ENG_DBG_PENDING (g : Nat) : Fld := ⟨(engBase g + 0x804) * 32 + 3, 1, 0⟩
def ENG_DBG_HALTED (g : Nat) : Fld := ⟨(engBase g + 0x804) * 32 + 0, 1, 0⟩
def ENG_DBG_PC (g : Nat) : Fld := ⟨(engBase g + 0x808) * 32 + 2, 30, 0⟩
def ENG_DBG_TGT (g : Nat) : Fld := ⟨(engBase g + 0x80c) * 32 + 0, 32, 0⟩
def ENG_DBG_LEFT (g : Nat) : Fld := ⟨(engBase g + 0x810) * 32 + 0, 13, 0⟩
def ENG_DBG_INSTR (g : Nat) : Fld := ⟨(engBase g + 0x814) * 32 + 0, 32, 0⟩
def ENG_DBG_DATA (g : Nat) : Fld := ⟨(engBase g + 0x818) * 32 + 0, 32, 0⟩
def ENG_DBG_ADDR (g k : Nat) : Fld := ⟨(engBase g + 0x840 + k * 0x10) * 32 + 0, 32, 0⟩
def ENG_DBG_VALUE (g k : Nat) : Fld := ⟨(engBase g + 0x844 + k * 0x10) * 32 + 0, 32, 0⟩
def ENG_DBG_MASK (g k : Nat) : Fld := ⟨(engBase g + 0x848 + k * 0x10) * 32 + 0, 32, 0⟩
def ENG_DBG_CTRL (g k : Nat) : Fld := ⟨(engBase g + 0x84c + k * 0x10) * 32 + 0, 32, 0⟩

end Sys2Proof.Machine
end

