-- ==== Sys2Proof/Machine/RegsHub.lean ====
section
/-! DEFINITION. The fields of the registers of the hub control space, as the register tables of spec/ give them:
place, width and cold value. The last argument is the index of the innermost instance. A field reference names one
field of one register; its value is read with `State.get` and written with `State.put`. -/

namespace Sys2Proof.Machine

/-! spec/01_architecture.md, HUB_ID — device identity. -/
def HUB_ID_VENDOR : Fld := ⟨0x30000000000 * 32 + 16, 16, 0x1d5a⟩
def HUB_ID_DEVICE : Fld := ⟨0x30000000000 * 32 + 0, 16, 0xd09⟩

/-! spec/01_architecture.md, HUB_REV — stepping, grade and range. -/
def HUB_REV_TEMP : Fld := ⟨0x30000000004 * 32 + 10, 1, 0⟩
def HUB_REV_GRADE : Fld := ⟨0x30000000004 * 32 + 8, 2, 3⟩
def HUB_REV_STEP_LETTER : Fld := ⟨0x30000000004 * 32 + 4, 4, 1⟩
def HUB_REV_STEP_DIGIT : Fld := ⟨0x30000000004 * 32 + 0, 4, 1⟩

/-! spec/01_architecture.md, HUB_PART_FAIL — failed partitions. -/
def HUB_PART_FAIL_CH_FAIL : Fld := ⟨0x30000000008 * 32 + 4, 16, 0⟩
def HUB_PART_FAIL_DIE_FAIL : Fld := ⟨0x30000000008 * 32 + 0, 4, 0⟩

/-! spec/02_clocks_islands_reset.md, RST_CAUSE — reset cause. -/
def RST_CAUSE_INTEGRITY_HALT : Fld := ⟨0x30000010000 * 32 + 12, 1, 0⟩
def RST_CAUSE_SOFT : Fld := ⟨0x30000010000 * 32 + 11, 1, 0⟩
def RST_CAUSE_DEBUG : Fld := ⟨0x30000010000 * 32 + 10, 1, 0⟩
def RST_CAUSE_SEC_ALARM : Fld := ⟨0x30000010000 * 32 + 9, 1, 0⟩
def RST_CAUSE_THERM : Fld := ⟨0x30000010000 * 32 + 8, 1, 0⟩
def RST_CAUSE_CH_WDT : Fld := ⟨0x30000010000 * 32 + 7, 1, 0⟩
def RST_CAUSE_HUB_WDT : Fld := ⟨0x30000010000 * 32 + 6, 1, 0⟩
def RST_CAUSE_LINK_HOT : Fld := ⟨0x30000010000 * 32 + 5, 1, 0⟩
def RST_CAUSE_PERST_B : Fld := ⟨0x30000010000 * 32 + 4, 1, 0⟩
def RST_CAUSE_PERST_A : Fld := ⟨0x30000010000 * 32 + 3, 1, 0⟩
def RST_CAUSE_PIN : Fld := ⟨0x30000010000 * 32 + 2, 1, 0⟩
def RST_CAUSE_BROWNOUT : Fld := ⟨0x30000010000 * 32 + 1, 1, 0⟩
def RST_CAUSE_POR : Fld := ⟨0x30000010000 * 32 + 0, 1, 1⟩

/-! spec/02_clocks_islands_reset.md, RST_STATUS — reset status. -/
def RST_STATUS_BUSY : Fld := ⟨0x30000010004 * 32 + 25, 1, 0⟩
def RST_STATUS_FORCED : Fld := ⟨0x30000010004 * 32 + 24, 1, 0⟩
def RST_STATUS_INCOMPLETE : Fld := ⟨0x30000010004 * 32 + 0, 21, 0⟩

/-! spec/02_clocks_islands_reset.md, RST_CTRL — reset request. -/
def RST_CTRL_KEY : Fld := ⟨0x30000010008 * 32 + 24, 8, 0⟩
def RST_CTRL_PART : Fld := ⟨0x30000010008 * 32 + 8, 5, 0⟩
def RST_CTRL_SCOPE : Fld := ⟨0x30000010008 * 32 + 0, 3, 0⟩

/-! spec/02_clocks_islands_reset.md, RST_CH_WDT — channel watchdog resets. -/
def RST_CH_WDT_CH : Fld := ⟨0x3000001000c * 32 + 0, 16, 0⟩

/-! spec/02_clocks_islands_reset.md, RST_LINK_SCOPE — host-link reset scope. -/
def RST_LINK_SCOPE_LOCK : Fld := ⟨0x30000010010 * 32 + 31, 1, 0⟩
def RST_LINK_SCOPE_B_DEVICE : Fld := ⟨0x30000010010 * 32 + 1, 1, 0⟩
def RST_LINK_SCOPE_A_DEVICE : Fld := ⟨0x30000010010 * 32 + 0, 1, 0⟩

/-! spec/02_clocks_islands_reset.md, RST_STRAP — sampled straps. -/
def RST_STRAP_CLK_RSVD : Fld := ⟨0x30000010014 * 32 + 31, 1, 0⟩
def RST_STRAP_PULL_HI : Fld := ⟨0x30000010014 * 32 + 7, 1, 0⟩
def RST_STRAP_PULL_LO : Fld := ⟨0x30000010014 * 32 + 6, 1, 0⟩
def RST_STRAP_CLK_MODE : Fld := ⟨0x30000010014 * 32 + 4, 2, 0⟩
def RST_STRAP_BOOT_SEL : Fld := ⟨0x30000010014 * 32 + 0, 2, 0⟩

/-! spec/02_clocks_islands_reset.md, CLK_REF — reference and loop lock. -/
def CLK_REF_CH_LOCK : Fld := ⟨0x30000020000 * 32 + 16, 16, 0⟩
def CLK_REF_DIE_LOCK : Fld := ⟨0x30000020000 * 32 + 12, 4, 0⟩
def CLK_REF_TS_LOCK : Fld := ⟨0x30000020000 * 32 + 9, 1, 0⟩
def CLK_REF_HUB_LOCK : Fld := ⟨0x30000020000 * 32 + 8, 1, 0⟩
def CLK_REF_MODE : Fld := ⟨0x30000020000 * 32 + 0, 2, 0⟩

/-! spec/02_clocks_islands_reset.md, CLK_AON — always-on clock. -/
def CLK_AON_XTAL_FAIL : Fld := ⟨0x30000020004 * 32 + 2, 1, 0⟩
def CLK_AON_FALLBACK : Fld := ⟨0x30000020004 * 32 + 1, 1, 1⟩
def CLK_AON_XTAL_OK : Fld := ⟨0x30000020004 * 32 + 0, 1, 0⟩

/-! spec/02_clocks_islands_reset.md, CLK_TS_LO, CLK_TS_HI — device timestamp. -/
def CLK_TS_LO_TS : Fld := ⟨0x30000020010 * 32 + 0, 32, 0⟩
def CLK_TS_HI_TS : Fld := ⟨0x30000020014 * 32 + 0, 32, 0⟩

/-! spec/02_clocks_islands_reset.md, CLK_TS_CTRL — timestamp synchronisation. -/
def CLK_TS_CTRL_LOST : Fld := ⟨0x30000020018 * 32 + 17, 1, 0⟩
def CLK_TS_CTRL_LOCKED : Fld := ⟨0x30000020018 * 32 + 16, 1, 0⟩
def CLK_TS_CTRL_DELAY : Fld := ⟨0x30000020018 * 32 + 4, 10, 0⟩
def CLK_TS_CTRL_MODE : Fld := ⟨0x30000020018 * 32 + 0, 2, 0⟩

/-! spec/02_clocks_islands_reset.md, CLK_STABLE0–CLK_STABLE9 — clocks stable. -/
def CLK_STABLE_STABLE (w : Nat) : Fld := ⟨(0x30000020100 + w * 0x4) * 32 + 0, 32, 0⟩

/-! spec/02_clocks_islands_reset.md, CLK_LOST0–CLK_LOST9 — clocks lost. -/
def CLK_LOST_LOST (w : Nat) : Fld := ⟨(0x30000020140 + w * 0x4) * 32 + 0, 32, 0⟩

/-! spec/02_clocks_islands_reset.md, CLK_ISL — island clock, one per sector. -/
def CLK_ISL_FROZEN (x : Nat) : Fld := ⟨(0x30000021000 + x * 0x4) * 32 + 18, 1, 0⟩
def CLK_ISL_STABLE (x : Nat) : Fld := ⟨(0x30000021000 + x * 0x4) * 32 + 17, 1, 0⟩
def CLK_ISL_PENDING (x : Nat) : Fld := ⟨(0x30000021000 + x * 0x4) * 32 + 16, 1, 0⟩
def CLK_ISL_LEADER (x : Nat) : Fld := ⟨(0x30000021000 + x * 0x4) * 32 + 10, 1, 0⟩
def CLK_ISL_FUSE (x : Nat) : Fld := ⟨(0x30000021000 + x * 0x4) * 32 + 8, 2, 0⟩
def CLK_ISL_FREQ (x : Nat) : Fld := ⟨(0x30000021000 + x * 0x4) * 32 + 0, 8, 0⟩

/-! spec/03_fabric_cells_routing.md, FAB_SEC_STATUS — sector status. -/
def FAB_SEC_STATUS_FAILED (d s : Nat) : Fld := ⟨(0x30000100000 + d * 0x40000 + s * 0x4) * 32 + 8, 1, 0⟩
def FAB_SEC_STATUS_FROZEN (d s : Nat) : Fld := ⟨(0x30000100000 + d * 0x40000 + s * 0x4) * 32 + 7, 1, 0⟩
def FAB_SEC_STATUS_GATED_GOV (d s : Nat) : Fld := ⟨(0x30000100000 + d * 0x40000 + s * 0x4) * 32 + 6, 1, 0⟩
def FAB_SEC_STATUS_GATED_USER (d s : Nat) : Fld := ⟨(0x30000100000 + d * 0x40000 + s * 0x4) * 32 + 5, 1, 0⟩
def FAB_SEC_STATUS_EXEMPT (d s : Nat) : Fld := ⟨(0x30000100000 + d * 0x40000 + s * 0x4) * 32 + 4, 1, 0⟩
def FAB_SEC_STATUS_REGION_BUSY (d s : Nat) : Fld := ⟨(0x30000100000 + d * 0x40000 + s * 0x4) * 32 + 3, 1, 0⟩
def FAB_SEC_STATUS_HELD (d s : Nat) : Fld := ⟨(0x30000100000 + d * 0x40000 + s * 0x4) * 32 + 2, 1, 0⟩
def FAB_SEC_STATUS_RUN (d s : Nat) : Fld := ⟨(0x30000100000 + d * 0x40000 + s * 0x4) * 32 + 1, 1, 0⟩
def FAB_SEC_STATUS_CONFIGURED (d s : Nat) : Fld := ⟨(0x30000100000 + d * 0x40000 + s * 0x4) * 32 + 0, 1, 0⟩

/-! spec/03_fabric_cells_routing.md, FAB_SEC_CAUSE — sector causes. -/
def FAB_SEC_CAUSE_USER (d s : Nat) : Fld := ⟨(0x30000100100 + d * 0x40000 + s * 0x4) * 32 + 4, 4, 0⟩
def FAB_SEC_CAUSE_BANK (d s : Nat) : Fld := ⟨(0x30000100100 + d * 0x40000 + s * 0x4) * 32 + 2, 1, 0⟩
def FAB_SEC_CAUSE_MEM_UE (d s : Nat) : Fld := ⟨(0x30000100100 + d * 0x40000 + s * 0x4) * 32 + 1, 1, 0⟩
def FAB_SEC_CAUSE_CLK_ALARM (d s : Nat) : Fld := ⟨(0x30000100100 + d * 0x40000 + s * 0x4) * 32 + 0, 1, 0⟩

/-! spec/03_fabric_cells_routing.md, FAB_SEC_MASK — sector cause mask. -/
def FAB_SEC_MASK_USER (d s : Nat) : Fld := ⟨(0x30000100200 + d * 0x40000 + s * 0x4) * 32 + 4, 4, 0⟩
def FAB_SEC_MASK_BANK (d s : Nat) : Fld := ⟨(0x30000100200 + d * 0x40000 + s * 0x4) * 32 + 2, 1, 0⟩
def FAB_SEC_MASK_MEM_UE (d s : Nat) : Fld := ⟨(0x30000100200 + d * 0x40000 + s * 0x4) * 32 + 1, 1, 0⟩
def FAB_SEC_MASK_CLK_ALARM (d s : Nat) : Fld := ⟨(0x30000100200 + d * 0x40000 + s * 0x4) * 32 + 0, 1, 0⟩

/-! spec/03_fabric_cells_routing.md, FAB_BANK_STATUS — bank status. -/
def FAB_BANK_STATUS_GEAR (d k : Nat) : Fld := ⟨(0x30000100300 + d * 0x40000 + k * 0x4) * 32 + 10, 2, 0⟩
def FAB_BANK_STATUS_DRIVEN (d k : Nat) : Fld := ⟨(0x30000100300 + d * 0x40000 + k * 0x4) * 32 + 7, 1, 0⟩
def FAB_BANK_STATUS_MISMATCH (d k : Nat) : Fld := ⟨(0x30000100300 + d * 0x40000 + k * 0x4) * 32 + 6, 1, 0⟩
def FAB_BANK_STATUS_VCCIO_IMG (d k : Nat) : Fld := ⟨(0x30000100300 + d * 0x40000 + k * 0x4) * 32 + 3, 3, 0⟩
def FAB_BANK_STATUS_VCCIO_DET (d k : Nat) : Fld := ⟨(0x30000100300 + d * 0x40000 + k * 0x4) * 32 + 0, 3, 0⟩

/-! spec/04_onchip_memory_integrity.md, RAS_CAUSE — hub RAS causes. -/
def RAS_CAUSE_FLUX_LATE : Fld := ⟨0x300000d0000 * 32 + 8, 1, 0⟩
def RAS_CAUSE_CHK_FAIL : Fld := ⟨0x300000d0000 * 32 + 7, 1, 0⟩
def RAS_CAUSE_CFG_UE : Fld := ⟨0x300000d0000 * 32 + 6, 1, 0⟩
def RAS_CAUSE_MEM_UE : Fld := ⟨0x300000d0000 * 32 + 5, 1, 0⟩
def RAS_CAUSE_SLAG_OVF : Fld := ⟨0x300000d0000 * 32 + 4, 1, 0⟩
def RAS_CAUSE_SLAG_NEW : Fld := ⟨0x300000d0000 * 32 + 3, 1, 0⟩
def RAS_CAUSE_TS_LOST : Fld := ⟨0x300000d0000 * 32 + 2, 1, 0⟩
def RAS_CAUSE_AON_XTAL : Fld := ⟨0x300000d0000 * 32 + 1, 1, 0⟩
def RAS_CAUSE_CLK_HUB : Fld := ⟨0x300000d0000 * 32 + 0, 1, 0⟩

/-! spec/04_onchip_memory_integrity.md, RAS_MASK — hub RAS cause mask. -/
def RAS_MASK_MASK : Fld := ⟨0x300000d0004 * 32 + 0, 9, 0⟩

/-! spec/04_onchip_memory_integrity.md, RAS_CHK_TEST — on-demand checker test. -/
def RAS_CHK_TEST_BUSY : Fld := ⟨0x300000d0010 * 32 + 15, 1, 0⟩
def RAS_CHK_TEST_SKIPPED : Fld := ⟨0x300000d0010 * 32 + 14, 1, 0⟩
def RAS_CHK_TEST_FAIL : Fld := ⟨0x300000d0010 * 32 + 13, 1, 0⟩
def RAS_CHK_TEST_PART : Fld := ⟨0x300000d0010 * 32 + 8, 5, 0⟩
def RAS_CHK_TEST_GO : Fld := ⟨0x300000d0010 * 32 + 0, 1, 0⟩

/-! spec/04_onchip_memory_integrity.md, RAS_CFG_CE — configuration corrections. -/
def RAS_CFG_CE_COUNT : Fld := ⟨0x300000d0020 * 32 + 0, 32, 0⟩

/-! spec/04_onchip_memory_integrity.md, RAS_CFG_UE — last uncorrectable frame byte. -/
def RAS_CFG_UE_DIE : Fld := ⟨0x300000d0030 * 32 + 30, 2, 0⟩
def RAS_CFG_UE_SECTOR : Fld := ⟨0x300000d0030 * 32 + 25, 5, 0⟩
def RAS_CFG_UE_FRAME : Fld := ⟨0x300000d0030 * 32 + 11, 14, 0⟩
def RAS_CFG_UE_BYTE : Fld := ⟨0x300000d0030 * 32 + 2, 9, 0⟩
def RAS_CFG_UE_COUNT : Fld := ⟨0x300000d0034 * 32 + 16, 16, 0⟩
def RAS_CFG_UE_SYN : Fld := ⟨0x300000d0034 * 32 + 0, 5, 0⟩
def RAS_CFG_UE_TS_LO : Fld := ⟨0x300000d0038 * 32 + 0, 32, 0⟩
def RAS_CFG_UE_TS_HI : Fld := ⟨0x300000d003c * 32 + 0, 32, 0⟩

/-! spec/04_onchip_memory_integrity.md, RAS_FLUX_CTRL — Flux control. -/
def RAS_FLUX_CTRL_EN (p : Nat) : Fld := ⟨(0x300000d0100 + p * 0x4) * 32 + 31, 1, 1⟩
def RAS_FLUX_CTRL_PERIOD (p : Nat) : Fld := ⟨(0x300000d0100 + p * 0x4) * 32 + 0, 11, 0x3c⟩

/-! spec/04_onchip_memory_integrity.md, RAS_FLUX_STATUS — Flux progress. -/
def RAS_FLUX_STATUS_ACTIVE (p : Nat) : Fld := ⟨(0x300000d0200 + p * 0x4) * 32 + 31, 1, 0⟩
def RAS_FLUX_STATUS_LATE (p : Nat) : Fld := ⟨(0x300000d0200 + p * 0x4) * 32 + 30, 1, 0⟩
def RAS_FLUX_STATUS_PASSES (p : Nat) : Fld := ⟨(0x300000d0200 + p * 0x4) * 32 + 0, 16, 0⟩

/-! spec/04_onchip_memory_integrity.md, RAS_CE_COUNT — corrections. -/
def RAS_CE_COUNT_COUNT (p : Nat) : Fld := ⟨(0x300000d0300 + p * 0x4) * 32 + 0, 32, 0⟩

/-! spec/04_onchip_memory_integrity.md, RAS_SLAG_VALID — slag entries in use. -/
def RAS_SLAG_VALID_VALID (p : Nat) : Fld := ⟨(0x300000d0400 + p * 0x4) * 32 + 0, 32, 0⟩

/-! spec/04_onchip_memory_integrity.md, RAS_SLAG_OVF — slag overflow. -/
def RAS_SLAG_OVF_COUNT (p : Nat) : Fld := ⟨(0x300000d0500 + p * 0x4) * 32 + 0, 16, 0⟩

/-! spec/04_onchip_memory_integrity.md, RAS_SLAG — slag entry. -/
def RAS_SLAG_UNIT (p e : Nat) : Fld := ⟨(0x300000d1000 + p * 0x400 + e * 0x20) * 32 + 16, 16, 0⟩
def RAS_SLAG_INSTANCE (p e : Nat) : Fld := ⟨(0x300000d1000 + p * 0x400 + e * 0x20) * 32 + 8, 8, 0⟩
def RAS_SLAG_AON (p e : Nat) : Fld := ⟨(0x300000d1000 + p * 0x400 + e * 0x20) * 32 + 7, 1, 0⟩
def RAS_SLAG_CASE (p e : Nat) : Fld := ⟨(0x300000d1000 + p * 0x400 + e * 0x20) * 32 + 0, 3, 0⟩
def RAS_SLAG_ADDR (p e : Nat) : Fld := ⟨(0x300000d1004 + p * 0x400 + e * 0x20) * 32 + 0, 32, 0⟩
def RAS_SLAG_COUNT (p e : Nat) : Fld := ⟨(0x300000d1008 + p * 0x400 + e * 0x20) * 32 + 16, 16, 0⟩
def RAS_SLAG_SYN (p e : Nat) : Fld := ⟨(0x300000d1008 + p * 0x400 + e * 0x20) * 32 + 0, 5, 0⟩
def RAS_SLAG_TS_LO (p e : Nat) : Fld := ⟨(0x300000d100c + p * 0x400 + e * 0x20) * 32 + 0, 32, 0⟩
def RAS_SLAG_TS_HI (p e : Nat) : Fld := ⟨(0x300000d1010 + p * 0x400 + e * 0x20) * 32 + 0, 32, 0⟩
def RAS_UE_LOG_UNIT (p : Nat) : Fld := ⟨(0x300000d0800 + p * 0x20) * 32 + 16, 16, 0⟩
def RAS_UE_LOG_INSTANCE (p : Nat) : Fld := ⟨(0x300000d0800 + p * 0x20) * 32 + 8, 8, 0⟩
def RAS_UE_LOG_AON (p : Nat) : Fld := ⟨(0x300000d0800 + p * 0x20) * 32 + 7, 1, 0⟩
def RAS_UE_LOG_CASE (p : Nat) : Fld := ⟨(0x300000d0800 + p * 0x20) * 32 + 0, 3, 0⟩
def RAS_UE_LOG_ADDR (p : Nat) : Fld := ⟨(0x300000d0804 + p * 0x20) * 32 + 0, 32, 0⟩
def RAS_UE_LOG_COUNT (p : Nat) : Fld := ⟨(0x300000d0808 + p * 0x20) * 32 + 16, 16, 0⟩
def RAS_UE_LOG_SYN (p : Nat) : Fld := ⟨(0x300000d0808 + p * 0x20) * 32 + 0, 5, 0⟩
def RAS_UE_LOG_TS_LO (p : Nat) : Fld := ⟨(0x300000d080c + p * 0x20) * 32 + 0, 32, 0⟩
def RAS_UE_LOG_TS_HI (p : Nat) : Fld := ⟨(0x300000d0810 + p * 0x20) * 32 + 0, 32, 0⟩

/-! spec/05_configuration_loading.md, CFG_STATUS — configuration status. -/
def CFG_STATUS_ORDER_RSVD : Fld := ⟨0x30000040000 * 32 + 22, 1, 0⟩
def CFG_STATUS_PIN : Fld := ⟨0x30000040000 * 32 + 21, 1, 0⟩
def CFG_STATUS_DONE_WAIT : Fld := ⟨0x30000040000 * 32 + 20, 1, 0⟩
def CFG_STATUS_SU_PARTIAL : Fld := ⟨0x30000040000 * 32 + 19, 1, 0⟩
def CFG_STATUS_DEGRADED : Fld := ⟨0x30000040000 * 32 + 18, 1, 0⟩
def CFG_STATUS_BAMID_FAIL : Fld := ⟨0x30000040000 * 32 + 17, 1, 0⟩
def CFG_STATUS_CAUSE : Fld := ⟨0x30000040000 * 32 + 8, 8, 0⟩
def CFG_STATUS_SOURCE : Fld := ⟨0x30000040000 * 32 + 4, 3, 0⟩
def CFG_STATUS_STATE : Fld := ⟨0x30000040000 * 32 + 0, 4, 0⟩

/-! spec/05_configuration_loading.md, CFG_FAIL — last cause per source. -/
def CFG_FAIL_DBG : Fld := ⟨0x30000040004 * 32 + 24, 8, 0⟩
def CFG_FAIL_HOST : Fld := ⟨0x30000040004 * 32 + 16, 8, 0⟩
def CFG_FAIL_B : Fld := ⟨0x30000040004 * 32 + 8, 8, 0⟩
def CFG_FAIL_A : Fld := ⟨0x30000040004 * 32 + 0, 8, 0⟩

/-! spec/05_configuration_loading.md, CFG_IMG — loaded image. -/
def CFG_IMG_OWNER : Fld := ⟨0x30000040008 * 32 + 16, 2, 0⟩
def CFG_IMG_DIES : Fld := ⟨0x30000040008 * 32 + 12, 4, 0⟩
def CFG_IMG_VER_MINOR : Fld := ⟨0x30000040008 * 32 + 0, 12, 0⟩

/-! spec/05_configuration_loading.md, CFG_SU_CTRL — start-up settings. -/
def CFG_SU_CTRL_LOCK_TO : Fld := ⟨0x30000040010 * 32 + 24, 4, 0⟩
def CFG_SU_CTRL_GAP2 : Fld := ⟨0x30000040010 * 32 + 16, 8, 0⟩
def CFG_SU_CTRL_GAP1 : Fld := ⟨0x30000040010 * 32 + 8, 8, 0⟩
def CFG_SU_CTRL_ORDER : Fld := ⟨0x30000040010 * 32 + 0, 3, 0⟩

/-! spec/05_configuration_loading.md, CFG_HLOAD_CTRL — host-bus load control. -/
def CFG_HLOAD_CTRL_DISCARD : Fld := ⟨0x30000040020 * 32 + 3, 1, 0⟩
def CFG_HLOAD_CTRL_WAITING : Fld := ⟨0x30000040020 * 32 + 2, 1, 0⟩
def CFG_HLOAD_CTRL_ACTIVE : Fld := ⟨0x30000040020 * 32 + 1, 1, 0⟩
def CFG_HLOAD_CTRL_ABORT : Fld := ⟨0x30000040020 * 32 + 0, 1, 0⟩

/-! spec/05_configuration_loading.md, CFG_HLOAD_COUNT — bytes received. -/
def CFG_HLOAD_COUNT_BYTES : Fld := ⟨0x30000040024 * 32 + 0, 32, 0⟩

/-! spec/05_configuration_loading.md, CFG_CAUSE — configuration causes. -/
def CFG_CAUSE_NV_UE : Fld := ⟨0x30000040030 * 32 + 6, 1, 0⟩
def CFG_CAUSE_NV_SPARES : Fld := ⟨0x30000040030 * 32 + 5, 1, 0⟩
def CFG_CAUSE_NV_WORN : Fld := ⟨0x30000040030 * 32 + 4, 1, 0⟩
def CFG_CAUSE_HWAIT : Fld := ⟨0x30000040030 * 32 + 3, 1, 0⟩
def CFG_CAUSE_SU_PARTIAL : Fld := ⟨0x30000040030 * 32 + 2, 1, 0⟩
def CFG_CAUSE_FAIL : Fld := ⟨0x30000040030 * 32 + 1, 1, 0⟩
def CFG_CAUSE_DONE : Fld := ⟨0x30000040030 * 32 + 0, 1, 0⟩

/-! spec/05_configuration_loading.md, CFG_MASK — configuration cause mask. -/
def CFG_MASK_MASK : Fld := ⟨0x30000040034 * 32 + 0, 7, 0⟩

/-! spec/05_configuration_loading.md, CFG_MEAS0–CFG_MEAS15 — image measurement. -/
def CFG_MEAS_MEAS (w : Nat) : Fld := ⟨(0x30000040040 + w * 0x4) * 32 + 0, 32, 0⟩

/-! spec/05_configuration_loading.md, CFG_NV_SLOT_A, CFG_NV_SLOT_B — slot state. -/
def CFG_NV_SLOT_WORN (n : Nat) : Fld := ⟨(0x30000040100 + n * 0x8) * 32 + 31, 1, 0⟩
def CFG_NV_SLOT_BUSY (n : Nat) : Fld := ⟨(0x30000040100 + n * 0x8) * 32 + 30, 1, 0⟩
def CFG_NV_SLOT_WRITES (n : Nat) : Fld := ⟨(0x30000040100 + n * 0x8) * 32 + 0, 16, 0⟩

/-! spec/05_configuration_loading.md, CFG_NV_LEN_A, CFG_NV_LEN_B — committed length. -/
def CFG_NV_LEN_LEN (n : Nat) : Fld := ⟨(0x30000040104 + n * 0x8) * 32 + 0, 32, 0⟩

/-! spec/05_configuration_loading.md, CFG_NV_STATUS — image-store health. -/
def CFG_NV_STATUS_SPARES : Fld := ⟨0x30000040110 * 32 + 24, 8, 0xc0⟩
def CFG_NV_STATUS_UE_PAGES : Fld := ⟨0x30000040110 * 32 + 0, 16, 0⟩

/-! spec/06_partial_reconfiguration_observation.md, CFG_PR_CTRL — partial load control. -/
def CFG_PR_CTRL_ABORT : Fld := ⟨0x30000040200 * 32 + 3, 1, 0⟩
def CFG_PR_CTRL_SRC_STORE : Fld := ⟨0x30000040200 * 32 + 1, 1, 0⟩
def CFG_PR_CTRL_GO : Fld := ⟨0x30000040200 * 32 + 0, 1, 0⟩

/-! spec/06_partial_reconfiguration_observation.md, CFG_PR_STATUS — partial load status. -/
def CFG_PR_STATUS_BUSY : Fld := ⟨0x30000040204 * 32 + 31, 1, 0⟩
def CFG_PR_STATUS_PHASE : Fld := ⟨0x30000040204 * 32 + 28, 3, 0⟩
def CFG_PR_STATUS_REGION_LOST : Fld := ⟨0x30000040204 * 32 + 27, 1, 0⟩
def CFG_PR_STATUS_CAUSE : Fld := ⟨0x30000040204 * 32 + 16, 8, 0⟩
def CFG_PR_STATUS_DIE : Fld := ⟨0x30000040204 * 32 + 14, 2, 0⟩
def CFG_PR_STATUS_ROW : Fld := ⟨0x30000040204 * 32 + 12, 2, 0⟩
def CFG_PR_STATUS_COL : Fld := ⟨0x30000040204 * 32 + 9, 3, 0⟩
def CFG_PR_STATUS_SIZE : Fld := ⟨0x30000040204 * 32 + 7, 2, 0⟩

/-! spec/06_partial_reconfiguration_observation.md, CFG_PR_SRC_LO, CFG_PR_SRC_HI — partial image source. -/
def CFG_PR_SRC_LO_ADDR : Fld := ⟨0x30000040208 * 32 + 0, 32, 0⟩
def CFG_PR_SRC_HI_ADDR : Fld := ⟨0x3000004020c * 32 + 0, 20, 0⟩

/-! spec/06_partial_reconfiguration_observation.md, CFG_PR_LEN — source size. -/
def CFG_PR_LEN_LEN : Fld := ⟨0x30000040210 * 32 + 0, 32, 0⟩

/-! spec/06_partial_reconfiguration_observation.md, CFG_CAP_CTRL — capture control. -/
def CFG_CAP_CTRL_TRIG_EN : Fld := ⟨0x30000040240 * 32 + 1, 1, 0⟩
def CFG_CAP_CTRL_GO : Fld := ⟨0x30000040240 * 32 + 0, 1, 0⟩

/-! spec/06_partial_reconfiguration_observation.md, CFG_CAP_STATUS — capture status. -/
def CFG_CAP_STATUS_BUSY : Fld := ⟨0x30000040244 * 32 + 31, 1, 0⟩
def CFG_CAP_STATUS_VALID : Fld := ⟨0x30000040244 * 32 + 30, 1, 0⟩
def CFG_CAP_STATUS_NO_EDGE : Fld := ⟨0x30000040244 * 32 + 8, 8, 0⟩
def CFG_CAP_STATUS_HELD : Fld := ⟨0x30000040244 * 32 + 0, 8, 0⟩

/-! spec/06_partial_reconfiguration_observation.md, CFG_CAP_TS_LO, CFG_CAP_TS_HI — token time. -/
def CFG_CAP_TS_LO_TS : Fld := ⟨0x30000040248 * 32 + 0, 32, 0⟩
def CFG_CAP_TS_HI_TS : Fld := ⟨0x3000004024c * 32 + 0, 32, 0⟩

/-! spec/06_partial_reconfiguration_observation.md, CFG_CAP_MASK0–CFG_CAP_MASK3 — capture selection. -/
def CFG_CAP_MASK_SEL (d : Nat) : Fld := ⟨(0x30000040250 + d * 0x4) * 32 + 0, 32, 0⟩

/-! spec/06_partial_reconfiguration_observation.md, CFG_CAP_NOEDGE0–CFG_CAP_NOEDGE3, CFG_CAP_HELD0–CFG_CAP_HELD3 — capture outcome by sector. -/
def CFG_CAP_NOEDGE_SEC (d : Nat) : Fld := ⟨(0x30000040260 + d * 0x4) * 32 + 0, 32, 0⟩
def CFG_CAP_HELD_SEC (d : Nat) : Fld := ⟨(0x30000040270 + d * 0x4) * 32 + 0, 32, 0⟩

/-! spec/06_partial_reconfiguration_observation.md, CFG_RB_CTRL — readback control. -/
def CFG_RB_CTRL_ABORT : Fld := ⟨0x30000040280 * 32 + 2, 1, 0⟩
def CFG_RB_CTRL_SHADOW : Fld := ⟨0x30000040280 * 32 + 1, 1, 0⟩
def CFG_RB_CTRL_GO : Fld := ⟨0x30000040280 * 32 + 0, 1, 0⟩

/-! spec/06_partial_reconfiguration_observation.md, CFG_RB_STATUS — readback status. -/
def CFG_RB_STATUS_BUSY : Fld := ⟨0x30000040284 * 32 + 31, 1, 0⟩
def CFG_RB_STATUS_REFUSED : Fld := ⟨0x30000040284 * 32 + 30, 1, 0⟩
def CFG_RB_STATUS_SKIPPED : Fld := ⟨0x30000040284 * 32 + 29, 1, 0⟩
def CFG_RB_STATUS_BUS_ERR : Fld := ⟨0x30000040284 * 32 + 28, 1, 0⟩
def CFG_RB_STATUS_UE : Fld := ⟨0x30000040284 * 32 + 0, 16, 0⟩

/-! spec/06_partial_reconfiguration_observation.md, CFG_RB_FRAME — first frame. -/
def CFG_RB_FRAME_DIE : Fld := ⟨0x30000040288 * 32 + 30, 2, 0⟩
def CFG_RB_FRAME_SECTOR : Fld := ⟨0x30000040288 * 32 + 25, 5, 0⟩
def CFG_RB_FRAME_FRAME : Fld := ⟨0x30000040288 * 32 + 11, 14, 0⟩

/-! spec/06_partial_reconfiguration_observation.md, CFG_RB_COUNT — frame count. -/
def CFG_RB_COUNT_COUNT : Fld := ⟨0x3000004028c * 32 + 0, 14, 0⟩

/-! spec/06_partial_reconfiguration_observation.md, CFG_RB_DST_LO, CFG_RB_DST_HI — destination. -/
def CFG_RB_DST_LO_ADDR : Fld := ⟨0x30000040290 * 32 + 0, 32, 0⟩
def CFG_RB_DST_HI_ADDR : Fld := ⟨0x30000040294 * 32 + 0, 20, 0⟩

/-! spec/06_partial_reconfiguration_observation.md, CFG_PR_MEAS0–CFG_PR_MEAS15 — partial image measurement. -/
def CFG_PR_MEAS_MEAS (w : Nat) : Fld := ⟨(0x30000040300 + w * 0x4) * 32 + 0, 32, 0⟩

/-! spec/07_network_on_chip.md, NOC_CAUSE — NoC causes. -/
def NOC_CAUSE_TRACE_LOST : Fld := ⟨0x30000060000 * 32 + 6, 1, 0⟩
def NOC_CAUSE_TRACE_FULL : Fld := ⟨0x30000060000 * 32 + 5, 1, 0⟩
def NOC_CAUSE_STALL : Fld := ⟨0x30000060000 * 32 + 4, 1, 0⟩
def NOC_CAUSE_TIMEOUT : Fld := ⟨0x30000060000 * 32 + 3, 1, 0⟩
def NOC_CAUSE_ROUTER_FAULT : Fld := ⟨0x30000060000 * 32 + 2, 1, 0⟩
def NOC_CAUSE_LINK_POISON : Fld := ⟨0x30000060000 * 32 + 1, 1, 0⟩
def NOC_CAUSE_CLK_LOST : Fld := ⟨0x30000060000 * 32 + 0, 1, 0⟩

/-! spec/07_network_on_chip.md, NOC_MASK — NoC cause mask. -/
def NOC_MASK_MASK : Fld := ⟨0x30000060004 * 32 + 1, 6, 0⟩
def NOC_MASK_MASK_CLK : Fld := ⟨0x30000060004 * 32 + 0, 1, 0⟩

/-! spec/07_network_on_chip.md, NOC_ERR_LOG — last NoC error. -/
def NOC_ERR_LOG_UNIT : Fld := ⟨0x30000060010 * 32 + 16, 16, 0⟩
def NOC_ERR_LOG_KIND : Fld := ⟨0x30000060010 * 32 + 8, 8, 0⟩
def NOC_ERR_LOG_PORT : Fld := ⟨0x30000060010 * 32 + 0, 8, 0⟩
def NOC_ERR_LOG_COUNT : Fld := ⟨0x30000060014 * 32 + 16, 16, 0⟩
def NOC_ERR_LOG_TAG : Fld := ⟨0x30000060014 * 32 + 0, 16, 0⟩
def NOC_ERR_LOG_TS_LO : Fld := ⟨0x30000060018 * 32 + 0, 32, 0⟩
def NOC_ERR_LOG_TS_HI : Fld := ⟨0x3000006001c * 32 + 0, 32, 0⟩

/-! spec/07_network_on_chip.md, NOC_CTRL — timeouts. -/
def NOC_CTRL_TIMEOUT : Fld := ⟨0x30000060020 * 32 + 16, 16, 0x3e8⟩
def NOC_CTRL_STALL_LIM : Fld := ⟨0x30000060020 * 32 + 0, 16, 0x64⟩

/-! spec/07_network_on_chip.md, NOC_LINK_CE — link corrections. -/
def NOC_LINK_CE_COUNT : Fld := ⟨0x30000060030 * 32 + 0, 32, 0⟩

/-! spec/07_network_on_chip.md, NOC_TRACE_CTRL — trace writer. -/
def NOC_TRACE_CTRL_PAGE : Fld := ⟨0x30000060100 * 32 + 3, 5, 0⟩
def NOC_TRACE_CTRL_WRAP : Fld := ⟨0x30000060100 * 32 + 2, 1, 0⟩
def NOC_TRACE_CTRL_DEST : Fld := ⟨0x30000060100 * 32 + 1, 1, 0⟩
def NOC_TRACE_CTRL_EN : Fld := ⟨0x30000060100 * 32 + 0, 1, 0⟩

/-! spec/07_network_on_chip.md, NOC_TRACE_BASE_LO, NOC_TRACE_BASE_HI, NOC_TRACE_SIZE, NOC_TRACE_WPTR — trace destination. -/
def NOC_TRACE_BASE_LO_ADDR : Fld := ⟨0x30000060108 * 32 + 0, 32, 0⟩
def NOC_TRACE_BASE_HI_ADDR : Fld := ⟨0x3000006010c * 32 + 0, 20, 0⟩
def NOC_TRACE_SIZE_BYTES : Fld := ⟨0x30000060110 * 32 + 0, 32, 0⟩
def NOC_TRACE_WPTR_WRAPPED : Fld := ⟨0x30000060114 * 32 + 31, 1, 0⟩
def NOC_TRACE_WPTR_OFFSET : Fld := ⟨0x30000060114 * 32 + 0, 31, 0⟩

/-! spec/07_network_on_chip.md, Probe n — probe registers. -/
def PROBE_EN (n : Nat) : Fld := ⟨(0x30000061000 + n * 0x40) * 32 + 31, 1, 0⟩
def PROBE_TRACE (n : Nat) : Fld := ⟨(0x30000061000 + n * 0x40) * 32 + 30, 1, 0⟩
def PROBE_MODE (n : Nat) : Fld := ⟨(0x30000061000 + n * 0x40) * 32 + 28, 2, 0⟩
def PROBE_UNIT (n : Nat) : Fld := ⟨(0x30000061000 + n * 0x40) * 32 + 3, 16, 0⟩
def PROBE_PORT (n : Nat) : Fld := ⟨(0x30000061000 + n * 0x40) * 32 + 0, 3, 0⟩
def PROBE_SX (n : Nat) : Fld := ⟨(0x30000061004 + n * 0x40) * 32 + 27, 5, 0⟩
def PROBE_SY (n : Nat) : Fld := ⟨(0x30000061004 + n * 0x40) * 32 + 24, 3, 0⟩
def PROBE_SEN (n : Nat) : Fld := ⟨(0x30000061004 + n * 0x40) * 32 + 23, 1, 0⟩
def PROBE_DX (n : Nat) : Fld := ⟨(0x30000061004 + n * 0x40) * 32 + 18, 5, 0⟩
def PROBE_DY (n : Nat) : Fld := ⟨(0x30000061004 + n * 0x40) * 32 + 15, 3, 0⟩
def PROBE_DEN (n : Nat) : Fld := ⟨(0x30000061004 + n * 0x40) * 32 + 14, 1, 0⟩
def PROBE_VNMASK (n : Nat) : Fld := ⟨(0x30000061004 + n * 0x40) * 32 + 10, 4, 0xf⟩
def PROBE_OPC (n : Nat) : Fld := ⟨(0x30000061004 + n * 0x40) * 32 + 5, 5, 0⟩
def PROBE_OEN (n : Nat) : Fld := ⟨(0x30000061004 + n * 0x40) * 32 + 4, 1, 0⟩
def PROBE_ALO_LO (n : Nat) : Fld := ⟨(0x30000061008 + n * 0x40) * 32 + 0, 32, 0⟩
def PROBE_ALO_HI (n : Nat) : Fld := ⟨(0x3000006100c + n * 0x40) * 32 + 0, 20, 0⟩
def PROBE_AHI_LO (n : Nat) : Fld := ⟨(0x30000061010 + n * 0x40) * 32 + 0, 32, 0⟩
def PROBE_AEN (n : Nat) : Fld := ⟨(0x30000061014 + n * 0x40) * 32 + 31, 1, 0⟩
def PROBE_AHI_HI (n : Nat) : Fld := ⟨(0x30000061014 + n * 0x40) * 32 + 0, 20, 0⟩
def PROBE_CNT_LO (n : Nat) : Fld := ⟨(0x30000061018 + n * 0x40) * 32 + 0, 32, 0⟩
def PROBE_CNT_HI (n : Nat) : Fld := ⟨(0x3000006101c + n * 0x40) * 32 + 0, 16, 0⟩
def PROBE_LOST (n : Nat) : Fld := ⟨(0x30000061020 + n * 0x40) * 32 + 0, 16, 0⟩

/-! spec/07_network_on_chip.md, Target-map entry e. -/
def TMAP_VALID (e : Nat) : Fld := ⟨(0x30000064000 + e * 0x8) * 32 + 31, 1, 0⟩
def TMAP_BASE (e : Nat) : Fld := ⟨(0x30000064000 + e * 0x8) * 32 + 0, 28, 0⟩
def TMAP_DIE (e : Nat) : Fld := ⟨(0x30000064004 + e * 0x8) * 32 + 30, 2, 0⟩
def TMAP_SIZE (e : Nat) : Fld := ⟨(0x30000064004 + e * 0x8) * 32 + 8, 5, 0⟩
def TMAP_SECTOR (e : Nat) : Fld := ⟨(0x30000064004 + e * 0x8) * 32 + 0, 5, 0⟩

/-! spec/12_patina_and_security.md, SEC_STATUS — security status. -/
def SEC_STATUS_FORCED : Fld := ⟨0x30000050000 * 32 + 3, 1, 0⟩
def SEC_STATUS_DUMP_HELD : Fld := ⟨0x30000050000 * 32 + 2, 1, 0⟩
def SEC_STATUS_TRNG_OK : Fld := ⟨0x30000050000 * 32 + 1, 1, 0⟩
def SEC_STATUS_SERVICE : Fld := ⟨0x30000050000 * 32 + 0, 1, 0⟩

/-! spec/12_patina_and_security.md, SEC_CAUSE — security causes. -/
def SEC_CAUSE_DUMP : Fld := ⟨0x30000050004 * 32 + 6, 1, 0⟩
def SEC_CAUSE_OTP : Fld := ⟨0x30000050004 * 32 + 5, 1, 0⟩
def SEC_CAUSE_TRNG : Fld := ⟨0x30000050004 * 32 + 4, 1, 0⟩
def SEC_CAUSE_GLITCH : Fld := ⟨0x30000050004 * 32 + 3, 1, 0⟩
def SEC_CAUSE_IDE_FAIL : Fld := ⟨0x30000050004 * 32 + 2, 1, 0⟩
def SEC_CAUSE_SUBTREE : Fld := ⟨0x30000050004 * 32 + 1, 1, 0⟩
def SEC_CAUSE_DATA_FAIL : Fld := ⟨0x30000050004 * 32 + 0, 1, 0⟩

/-! spec/12_patina_and_security.md, SEC_MASK, SEC_ESCALATE — mask and escalation. -/
def SEC_MASK_MASK : Fld := ⟨0x30000050008 * 32 + 0, 7, 0⟩
def SEC_ESCALATE_ESC : Fld := ⟨0x30000050018 * 32 + 0, 5, 0⟩

/-! spec/12_patina_and_security.md, SEC_LOCK — lock bits. -/
def SEC_LOCK_DUMP : Fld := ⟨0x30000050010 * 32 + 3, 1, 0⟩
def SEC_LOCK_KEYS : Fld := ⟨0x30000050010 * 32 + 2, 1, 0⟩
def SEC_LOCK_DBG : Fld := ⟨0x30000050010 * 32 + 1, 1, 0⟩
def SEC_LOCK_RIGHTS : Fld := ⟨0x30000050010 * 32 + 0, 1, 0⟩

/-! spec/12_patina_and_security.md, SEC_DUMP — dump retention. -/
def SEC_DUMP_CH : Fld := ⟨0x30000050014 * 32 + 16, 16, 0⟩
def SEC_DUMP_REQ : Fld := ⟨0x30000050014 * 32 + 0, 1, 0⟩

/-! spec/12_patina_and_security.md, SEC_HALT_LOG — integrity halt record. -/
def SEC_HALT_LOG_CH : Fld := ⟨0x30000050020 * 32 + 28, 4, 0⟩
def SEC_HALT_LOG_GROUP : Fld := ⟨0x30000050020 * 32 + 24, 4, 0⟩
def SEC_HALT_LOG_KIND : Fld := ⟨0x30000050020 * 32 + 0, 8, 0⟩
def SEC_HALT_LOG_LINE : Fld := ⟨0x30000050024 * 32 + 0, 27, 0⟩
def SEC_HALT_LOG_TS_LO : Fld := ⟨0x30000050028 * 32 + 0, 32, 0⟩
def SEC_HALT_LOG_TS_HI : Fld := ⟨0x3000005002c * 32 + 0, 32, 0⟩

/-! spec/12_patina_and_security.md, SEC_UID, SEC_DBG_POLICY — identifier and debug policy. -/
def SEC_UID_UID_LO : Fld := ⟨0x30000050030 * 32 + 0, 32, 1⟩
def SEC_UID_UID_HI : Fld := ⟨0x30000050034 * 32 + 0, 32, 0⟩
def SEC_DBG_POLICY_TRACE : Fld := ⟨0x30000050040 * 32 + 19, 1, 1⟩
def SEC_DBG_POLICY_FORCE : Fld := ⟨0x30000050040 * 32 + 18, 1, 1⟩
def SEC_DBG_POLICY_MEM : Fld := ⟨0x30000050040 * 32 + 17, 1, 1⟩
def SEC_DBG_POLICY_HALT : Fld := ⟨0x30000050040 * 32 + 16, 1, 1⟩
def SEC_DBG_POLICY_READBACK : Fld := ⟨0x30000050040 * 32 + 0, 16, 0xffff⟩

/-! spec/12_patina_and_security.md, SEC_OWNER0–SEC_OWNER3, SEC_OTP_CMD, SEC_OTP_STATUS — owner slots. -/
def SEC_OWNER_REVOKED (n : Nat) : Fld := ⟨(0x30000050100 + n * 0x4) * 32 + 1, 1, 0⟩
def SEC_OWNER_PROGRAMMED (n : Nat) : Fld := ⟨(0x30000050100 + n * 0x4) * 32 + 0, 1, 0⟩
def SEC_OTP_CMD_GO : Fld := ⟨0x30000050110 * 32 + 0, 1, 0⟩
def SEC_OTP_STATUS_BUSY : Fld := ⟨0x30000050114 * 32 + 31, 1, 0⟩
def SEC_OTP_STATUS_RESULT : Fld := ⟨0x30000050114 * 32 + 0, 4, 0⟩

/-! spec/12_patina_and_security.md, SEC_KS_CTRL0–SEC_KS_CTRL15, SEC_KS_DATA — key slots. -/
def SEC_KS_CTRL_LOAD_DATA (k : Nat) : Fld := ⟨(0x30000050200 + k * 0x4) * 32 + 10, 1, 0⟩
def SEC_KS_CTRL_CLOSE (k : Nat) : Fld := ⟨(0x30000050200 + k * 0x4) * 32 + 9, 1, 0⟩
def SEC_KS_CTRL_LOAD_TRNG (k : Nat) : Fld := ⟨(0x30000050200 + k * 0x4) * 32 + 8, 1, 0⟩
def SEC_KS_CTRL_STATE (k : Nat) : Fld := ⟨(0x30000050200 + k * 0x4) * 32 + 0, 3, 0⟩
def SEC_KS_DATA_KEY (w : Nat) : Fld := ⟨(0x30000050280 + w * 0x4) * 32 + 0, 32, 0⟩

/-! spec/12_patina_and_security.md, SEC_RIGHTS — requester group g. -/
def SEC_RIGHTS_RD (g : Nat) : Fld := ⟨(0x30000050400 + g * 0x10) * 32 + 0, 32, 0xfffff⟩
def SEC_RIGHTS_WR (g : Nat) : Fld := ⟨(0x30000050404 + g * 0x10) * 32 + 0, 32, 0xffffd⟩
def SEC_RIGHTS_CH (g : Nat) : Fld := ⟨(0x30000050408 + g * 0x10) * 32 + 0, 16, 0xffff⟩

/-! spec/13_host_port_and_commands.md, HUB_INT_SUMMARY — interrupt summary. -/
def HUB_INT_SUMMARY_CMD : Fld := ⟨0x30000000100 * 32 + 28, 1, 0⟩
def HUB_INT_SUMMARY_NOC : Fld := ⟨0x30000000100 * 32 + 27, 1, 0⟩
def HUB_INT_SUMMARY_LANE : Fld := ⟨0x30000000100 * 32 + 26, 1, 0⟩
def HUB_INT_SUMMARY_WAKE : Fld := ⟨0x30000000100 * 32 + 25, 1, 0⟩
def HUB_INT_SUMMARY_HP : Fld := ⟨0x30000000100 * 32 + 24, 1, 0⟩
def HUB_INT_SUMMARY_PWR : Fld := ⟨0x30000000100 * 32 + 23, 1, 0⟩
def HUB_INT_SUMMARY_CFG : Fld := ⟨0x30000000100 * 32 + 22, 1, 0⟩
def HUB_INT_SUMMARY_SEC : Fld := ⟨0x30000000100 * 32 + 21, 1, 0⟩
def HUB_INT_SUMMARY_HUB : Fld := ⟨0x30000000100 * 32 + 20, 1, 0⟩
def HUB_INT_SUMMARY_CH : Fld := ⟨0x30000000100 * 32 + 4, 16, 0⟩
def HUB_INT_SUMMARY_DIE : Fld := ⟨0x30000000100 * 32 + 0, 4, 0⟩

/-! spec/13_host_port_and_commands.md, HUB_INT_MASK — summary mask. -/
def HUB_INT_MASK_MASK : Fld := ⟨0x30000000104 * 32 + 0, 29, 0x1fffffff⟩

/-! spec/13_host_port_and_commands.md, INT_PART_CAUSE, INT_PART_MASK — partition causes. -/
def INT_PART_CAUSE_DIE_SECTOR (d : Nat) : Fld := ⟨(0x300000a0000 + d * 0x4) * 32 + 0, 32, 0⟩
def INT_PART_CAUSE_CH_CH (n : Nat) : Fld := ⟨(0x300000a0010 + n * 0x4) * 32 + 0, 1, 0⟩
def INT_PART_CAUSE_HUB_RAS : Fld := ⟨0x300000a0050 * 32 + 8, 1, 0⟩
def INT_PART_CAUSE_HUB_HE : Fld := ⟨0x300000a0050 * 32 + 0, 4, 0⟩
def INT_PART_MASK_MASK (p : Nat) : Fld := ⟨(0x300000a0080 + p * 0x4) * 32 + 0, 32, 0⟩

/-! spec/13_host_port_and_commands.md, INT_VEC — vector of summary bit b. -/
def INT_VEC_PORT (b : Nat) : Fld := ⟨(0x300000a0100 + b * 0x4) * 32 + 8, 2, 1⟩
def INT_VEC_VEC (b : Nat) : Fld := ⟨(0x300000a0100 + b * 0x4) * 32 + 0, 6, b⟩

/-! spec/13_host_port_and_commands.md, HP_STATUS — port status. -/
def HP_STATUS_BIF (p : Nat) : Fld := ⟨(0x30000080000 + p * 0x100) * 32 + 30, 2, 0⟩
def HP_STATUS_UP (p : Nat) : Fld := ⟨(0x30000080000 + p * 0x100) * 32 + 20, 4, 0⟩
def HP_STATUS_MEM (p : Nat) : Fld := ⟨(0x30000080000 + p * 0x100) * 32 + 19, 1, 0⟩
def HP_STATUS_CACHE (p : Nat) : Fld := ⟨(0x30000080000 + p * 0x100) * 32 + 18, 1, 0⟩
def HP_STATUS_CXL (p : Nat) : Fld := ⟨(0x30000080000 + p * 0x100) * 32 + 17, 1, 0⟩
def HP_STATUS_FLIT (p : Nat) : Fld := ⟨(0x30000080000 + p * 0x100) * 32 + 16, 1, 0⟩
def HP_STATUS_WIDTH (p : Nat) : Fld := ⟨(0x30000080000 + p * 0x100) * 32 + 8, 8, 0⟩
def HP_STATUS_RATE (p : Nat) : Fld := ⟨(0x30000080000 + p * 0x100) * 32 + 0, 4, 0⟩

/-! spec/13_host_port_and_commands.md, HP_CAUSE, HP_MASK — port causes. -/
def HP_CAUSE_NVQ_ERR (p : Nat) : Fld := ⟨(0x30000080004 + p * 0x100) * 32 + 7, 1, 0⟩
def HP_CAUSE_SNP_TO (p : Nat) : Fld := ⟨(0x30000080004 + p * 0x100) * 32 + 6, 1, 0⟩
def HP_CAUSE_BI_TO (p : Nat) : Fld := ⟨(0x30000080004 + p * 0x100) * 32 + 5, 1, 0⟩
def HP_CAUSE_HDM_RANGE (p : Nat) : Fld := ⟨(0x30000080004 + p * 0x100) * 32 + 4, 1, 0⟩
def HP_CAUSE_AER_UNC (p : Nat) : Fld := ⟨(0x30000080004 + p * 0x100) * 32 + 3, 1, 0⟩
def HP_CAUSE_AER_COR (p : Nat) : Fld := ⟨(0x30000080004 + p * 0x100) * 32 + 2, 1, 0⟩
def HP_CAUSE_RETRAIN (p : Nat) : Fld := ⟨(0x30000080004 + p * 0x100) * 32 + 1, 1, 0⟩
def HP_CAUSE_LINK_DOWN (p : Nat) : Fld := ⟨(0x30000080004 + p * 0x100) * 32 + 0, 1, 0⟩
def HP_MASK_MASK (p : Nat) : Fld := ⟨(0x30000080008 + p * 0x100) * 32 + 0, 8, 0⟩

/-! spec/13_host_port_and_commands.md, HP_WIN — host-memory window. -/
def HP_WIN_EN (p : Nat) : Fld := ⟨(0x30000080010 + p * 0x100) * 32 + 31, 1, 0⟩
def HP_WIN_BASE (p : Nat) : Fld := ⟨(0x30000080010 + p * 0x100) * 32 + 0, 24, 0⟩

/-! spec/13_host_port_and_commands.md, HP_CTRL, HP_OCC — timeouts and occupancy. -/
def HP_CTRL_BI_TO : Fld := ⟨0x30000080200 * 32 + 16, 16, 0x64⟩
def HP_CTRL_SNP_TO : Fld := ⟨0x30000080200 * 32 + 0, 16, 0xa⟩
def HP_OCC_DIR : Fld := ⟨0x30000080204 * 32 + 13, 19, 0⟩
def HP_OCC_SF : Fld := ⟨0x30000080204 * 32 + 0, 13, 0⟩

/-! spec/13_host_port_and_commands.md, HP_HDM — HDM range r. -/
def HP_HDM_EN (r : Nat) : Fld := ⟨(0x30000080400 + r * 0x8) * 32 + 31, 1, 0⟩
def HP_HDM_WAYS (r : Nat) : Fld := ⟨(0x30000080400 + r * 0x8) * 32 + 28, 3, 0⟩
def HP_HDM_GRAN (r : Nat) : Fld := ⟨(0x30000080400 + r * 0x8) * 32 + 24, 3, 0⟩
def HP_HDM_FIRST_CH (r : Nat) : Fld := ⟨(0x30000080400 + r * 0x8) * 32 + 16, 4, 0⟩
def HP_HDM_BASE (r : Nat) : Fld := ⟨(0x30000080400 + r * 0x8) * 32 + 0, 8, 0⟩
def HP_HDM_SIZE (r : Nat) : Fld := ⟨(0x30000080404 + r * 0x8) * 32 + 0, 9, 0⟩

/-! spec/13_host_port_and_commands.md, HP_NVCH — channel n rings. -/
def HP_NVCH_IN_BASE (n : Nat) : Fld := ⟨(0x30000080800 + n * 0x40) * 32 + 5, 19, 0⟩
def HP_NVCH_COST (n : Nat) : Fld := ⟨(0x30000080804 + n * 0x40) * 32 + 12, 4, 0⟩
def HP_NVCH_CLASS (n : Nat) : Fld := ⟨(0x30000080804 + n * 0x40) * 32 + 8, 2, 0⟩
def HP_NVCH_IN_LOG2 (n : Nat) : Fld := ⟨(0x30000080804 + n * 0x40) * 32 + 0, 4, 4⟩
def HP_NVCH_IN_WP (n : Nat) : Fld := ⟨(0x30000080808 + n * 0x40) * 32 + 0, 10, 0⟩
def HP_NVCH_IN_RP (n : Nat) : Fld := ⟨(0x3000008080c + n * 0x40) * 32 + 0, 10, 0⟩
def HP_NVCH_OUT_BASE (n : Nat) : Fld := ⟨(0x30000080810 + n * 0x40) * 32 + 5, 19, 0⟩
def HP_NVCH_OUT_LOG2 (n : Nat) : Fld := ⟨(0x30000080814 + n * 0x40) * 32 + 0, 4, 4⟩
def HP_NVCH_OUT_WP (n : Nat) : Fld := ⟨(0x30000080818 + n * 0x40) * 32 + 0, 10, 0⟩
def HP_NVCH_OUT_RP (n : Nat) : Fld := ⟨(0x3000008081c + n * 0x40) * 32 + 0, 10, 0⟩
def HP_NVCH_ENTRY (n : Nat) : Fld := ⟨(0x30000080820 + n * 0x40) * 32 + 0, 32, 0⟩

/-! spec/13_host_port_and_commands.md, HP_NS — namespace i. -/
def HP_NS_VALID (i : Nat) : Fld := ⟨(0x30000080c00 + i * 0x4) * 32 + 31, 1, 0⟩
def HP_NS_CH (i : Nat) : Fld := ⟨(0x30000080c00 + i * 0x4) * 32 + 0, 4, 0⟩

/-! spec/13_host_port_and_commands.md, CMD_CTRL, CMD_DONE, CMD_DONE_MASK — slot control. -/
def CMD_CTRL_CAP_LOCK : Fld := ⟨0x30000090000 * 32 + 0, 1, 0⟩
def CMD_DONE_DONE (w : Nat) : Fld := ⟨(0x30000090010 + w * 0x4) * 32 + 0, 32, 0⟩
def CMD_DONE_MASK_MASK (w : Nat) : Fld := ⟨(0x30000090018 + w * 0x4) * 32 + 0, 32, 0⟩

/-! spec/13_host_port_and_commands.md, CMD slot s. -/
def SLOT_PROG_LO (s : Nat) : Fld := ⟨(0x30000091000 + s * 0x40) * 32 + 0, 32, 0⟩
def SLOT_PROG_HI (s : Nat) : Fld := ⟨(0x30000091004 + s * 0x40) * 32 + 0, 20, 0⟩
def SLOT_ARG_LO (s : Nat) : Fld := ⟨(0x30000091008 + s * 0x40) * 32 + 0, 32, 0⟩
def SLOT_ARG_HI (s : Nat) : Fld := ⟨(0x3000009100c + s * 0x40) * 32 + 0, 20, 0⟩
def SLOT_LEN (s : Nat) : Fld := ⟨(0x30000091010 + s * 0x40) * 32 + 0, 14, 0⟩
def SLOT_CAP (s : Nat) : Fld := ⟨(0x30000091014 + s * 0x40) * 32 + 0, 32, 0⟩
def SLOT_OWNER (s : Nat) : Fld := ⟨(0x30000091018 + s * 0x40) * 32 + 30, 2, 3⟩
def SLOT_PORT (s : Nat) : Fld := ⟨(0x30000091018 + s * 0x40) * 32 + 16, 2, 1⟩
def SLOT_VEC (s : Nat) : Fld := ⟨(0x30000091018 + s * 0x40) * 32 + 8, 6, 0⟩
def SLOT_IRQ_EN (s : Nat) : Fld := ⟨(0x30000091018 + s * 0x40) * 32 + 1, 1, 0⟩
def SLOT_PRIO (s : Nat) : Fld := ⟨(0x30000091018 + s * 0x40) * 32 + 0, 1, 0⟩
def SLOT_DOORBELL (s : Nat) : Fld := ⟨(0x3000009101c + s * 0x40) * 32 + 0, 16, 0⟩
def SLOT_TAG (s : Nat) : Fld := ⟨(0x30000091020 + s * 0x40) * 32 + 16, 16, 0⟩
def SLOT_CODE (s : Nat) : Fld := ⟨(0x30000091020 + s * 0x40) * 32 + 8, 8, 0⟩
def SLOT_SREC_ERR (s : Nat) : Fld := ⟨(0x30000091020 + s * 0x40) * 32 + 6, 1, 0⟩
def SLOT_OVERRUN (s : Nat) : Fld := ⟨(0x30000091020 + s * 0x40) * 32 + 5, 1, 0⟩
def SLOT_STATE (s : Nat) : Fld := ⟨(0x30000091020 + s * 0x40) * 32 + 0, 4, 0⟩
def SLOT_RESULT (s : Nat) : Fld := ⟨(0x30000091024 + s * 0x40) * 32 + 0, 32, 0⟩
def SLOT_WDT (s : Nat) : Fld := ⟨(0x30000091028 + s * 0x40) * 32 + 0, 24, 0⟩
def SLOT_ABORT (s : Nat) : Fld := ⟨(0x3000009102c + s * 0x40) * 32 + 0, 1, 0⟩
def SLOT_SADDR_LO (s : Nat) : Fld := ⟨(0x30000091030 + s * 0x40) * 32 + 0, 32, 0⟩
def SLOT_SADDR_HI (s : Nat) : Fld := ⟨(0x30000091034 + s * 0x40) * 32 + 0, 20, 0⟩

/-! spec/14_replay_and_fault_recovery.md, WAKE_CAUSE — Wake causes. -/
def WAKE_CAUSE_REPEAT : Fld := ⟨0x30000070000 * 32 + 3, 1, 0⟩
def WAKE_CAUSE_HOLD_LIM : Fld := ⟨0x30000070000 * 32 + 2, 1, 0⟩
def WAKE_CAUSE_ABANDONED : Fld := ⟨0x30000070000 * 32 + 1, 1, 0⟩
def WAKE_CAUSE_RECOVERED : Fld := ⟨0x30000070000 * 32 + 0, 1, 0⟩

/-! spec/14_replay_and_fault_recovery.md, WAKE_MASK — Wake cause mask. -/
def WAKE_MASK_MASK : Fld := ⟨0x30000070004 * 32 + 0, 4, 1⟩

/-! spec/14_replay_and_fault_recovery.md, WAKE_STATUS — recovery state. -/
def WAKE_STATUS_ACTIVE : Fld := ⟨0x30000070008 * 32 + 31, 1, 0⟩
def WAKE_STATUS_QUIET : Fld := ⟨0x30000070008 * 32 + 30, 1, 0⟩
def WAKE_STATUS_KIND : Fld := ⟨0x30000070008 * 32 + 24, 4, 0⟩
def WAKE_STATUS_UNIT : Fld := ⟨0x30000070008 * 32 + 0, 16, 0⟩

/-! spec/14_replay_and_fault_recovery.md, WAKE_CTRL — recovery limits. -/
def WAKE_CTRL_HOLD_LIM : Fld := ⟨0x3000007000c * 32 + 16, 16, 0x32⟩
def WAKE_CTRL_QUIET_TO : Fld := ⟨0x3000007000c * 32 + 0, 8, 0x64⟩

/-! spec/14_replay_and_fault_recovery.md, WAKE_OCC, WAKE_POOL — occupancy. -/
def WAKE_OCC_OUT (p : Nat) : Fld := ⟨(0x30000070010 + p * 0x4) * 32 + 16, 16, 0⟩
def WAKE_OCC_IN (p : Nat) : Fld := ⟨(0x30000070010 + p * 0x4) * 32 + 0, 16, 0⟩
def WAKE_POOL_FREE (p : Nat) : Fld := ⟨(0x30000070018 + p * 0x4) * 32 + 0, 16, 0x8000⟩

/-! spec/14_replay_and_fault_recovery.md, WAKE_SEQ — next sequence numbers. -/
def WAKE_SEQ_IN (p : Nat) : Fld := ⟨(0x30000070020 + p * 0x8) * 32 + 0, 32, 0⟩
def WAKE_SEQ_OUT (p : Nat) : Fld := ⟨(0x30000070024 + p * 0x8) * 32 + 0, 32, 0⟩

/-! spec/14_replay_and_fault_recovery.md, WAKE_COUNT — recovery counts. -/
def WAKE_COUNT_ABANDONS : Fld := ⟨0x30000070030 * 32 + 16, 16, 0⟩
def WAKE_COUNT_RECOVERIES : Fld := ⟨0x30000070030 * 32 + 0, 16, 0⟩

/-! spec/14_replay_and_fault_recovery.md, WAKE_LOG — last recovery. -/
def WAKE_LOG_UNIT : Fld := ⟨0x30000070040 * 32 + 16, 16, 0⟩
def WAKE_LOG_KIND : Fld := ⟨0x30000070040 * 32 + 12, 4, 0⟩
def WAKE_LOG_END : Fld := ⟨0x30000070040 * 32 + 0, 2, 0⟩
def WAKE_LOG_REPLAYED : Fld := ⟨0x30000070044 * 32 + 16, 16, 0⟩
def WAKE_LOG_DUPS : Fld := ⟨0x30000070044 * 32 + 0, 16, 0⟩
def WAKE_LOG_REDELIV : Fld := ⟨0x30000070048 * 32 + 16, 16, 0⟩
def WAKE_LOG_DURATION : Fld := ⟨0x3000007004c * 32 + 0, 32, 0⟩
def WAKE_LOG_TS_LO : Fld := ⟨0x30000070050 * 32 + 0, 32, 0⟩
def WAKE_LOG_TS_HI : Fld := ⟨0x30000070054 * 32 + 0, 32, 0⟩

/-! spec/14_replay_and_fault_recovery.md, WAKE_PEEK_SEL, WAKE_PEEK_DATA0–WAKE_PEEK_DATA7 — entry inspection. -/
def WAKE_PEEK_SEL_OUT : Fld := ⟨0x30000070100 * 32 + 17, 1, 0⟩
def WAKE_PEEK_SEL_PORT : Fld := ⟨0x30000070100 * 32 + 16, 1, 0⟩
def WAKE_PEEK_SEL_INDEX : Fld := ⟨0x30000070100 * 32 + 0, 14, 0⟩
def WAKE_PEEK_DATA_ENTRY (w : Nat) : Fld := ⟨(0x30000070120 + w * 0x4) * 32 + 0, 32, 0⟩

/-! spec/15_power_and_rate_governor.md, PWR_CAUSE, PWR_MASK — power and thermal causes. -/
def PWR_CAUSE_MOORED_REF : Fld := ⟨0x30000030000 * 32 + 9, 1, 0⟩
def PWR_CAUSE_OVER : Fld := ⟨0x30000030000 * 32 + 8, 1, 0⟩
def PWR_CAUSE_WAKE_FAIL : Fld := ⟨0x30000030000 * 32 + 7, 1, 0⟩
def PWR_CAUSE_NO_SAVE : Fld := ⟨0x30000030000 * 32 + 6, 1, 0⟩
def PWR_CAUSE_EASY_TO : Fld := ⟨0x30000030000 * 32 + 5, 1, 0⟩
def PWR_CAUSE_THERM_HOT : Fld := ⟨0x30000030000 * 32 + 4, 1, 0⟩
def PWR_CAUSE_THERM_SOFT : Fld := ⟨0x30000030000 * 32 + 3, 1, 0⟩
def PWR_CAUSE_PMB_ALERT : Fld := ⟨0x30000030000 * 32 + 2, 1, 0⟩
def PWR_CAUSE_TELEM : Fld := ⟨0x30000030000 * 32 + 1, 1, 0⟩
def PWR_CAUSE_AVS_FAIL : Fld := ⟨0x30000030000 * 32 + 0, 1, 0⟩
def PWR_MASK_MASK : Fld := ⟨0x30000030004 * 32 + 0, 10, 0⟩

/-! spec/15_power_and_rate_governor.md, PWR_MODE, PWR_CTRL, PWR_THERM, PWR_TOTAL — governor settings. -/
def PWR_MODE_BUDGET : Fld := ⟨0x30000030010 * 32 + 16, 16, 0x12c⟩
def PWR_MODE_COOLING : Fld := ⟨0x30000030010 * 32 + 5, 1, 0⟩
def PWR_MODE_WINDOW : Fld := ⟨0x30000030010 * 32 + 4, 1, 0⟩
def PWR_MODE_MODE : Fld := ⟨0x30000030010 * 32 + 0, 2, 1⟩
def PWR_CTRL_ENTRY_TO : Fld := ⟨0x30000030014 * 32 + 24, 8, 0xa⟩
def PWR_CTRL_UP : Fld := ⟨0x30000030014 * 32 + 16, 8, 8⟩
def PWR_CTRL_DEFER : Fld := ⟨0x30000030014 * 32 + 8, 8, 0x40⟩
def PWR_CTRL_DEPTH : Fld := ⟨0x30000030014 * 32 + 4, 4, 1⟩
def PWR_THERM_TJ_MAX : Fld := ⟨0x30000030018 * 32 + 24, 8, 0⟩
def PWR_THERM_SOFT : Fld := ⟨0x30000030018 * 32 + 8, 8, 0x5f⟩
def PWR_TOTAL_MW : Fld := ⟨0x30000030020 * 32 + 0, 32, 0⟩

/-! spec/15_power_and_rate_governor.md, PWR_AVS, PWR_PMB — regulators. -/
def PWR_AVS_ACK_TO : Fld := ⟨0x30000030030 * 32 + 24, 8, 0xa⟩
def PWR_AVS_DIV : Fld := ⟨0x30000030030 * 32 + 0, 8, 1⟩
def PWR_PMB_VALID (r : Nat) : Fld := ⟨(0x30000030040 + r * 0x4) * 32 + 31, 1, 0⟩
def PWR_PMB_ADDR (r : Nat) : Fld := ⟨(0x30000030040 + r * 0x4) * 32 + 8, 7, 0⟩
def PWR_PMB_PAGE (r : Nat) : Fld := ⟨(0x30000030040 + r * 0x4) * 32 + 0, 8, 0⟩

/-! spec/15_power_and_rate_governor.md, PWR_MOORED, PWR_AON_TMR — Moored control. -/
def PWR_MOORED_REFUSE : Fld := ⟨0x30000030100 * 32 + 28, 4, 0⟩
def PWR_MOORED_SRC : Fld := ⟨0x30000030100 * 32 + 16, 8, 0⟩
def PWR_MOORED_WAKE_EN : Fld := ⟨0x30000030100 * 32 + 8, 5, 0x1f⟩
def PWR_MOORED_HOST_WAKE : Fld := ⟨0x30000030100 * 32 + 1, 1, 0⟩
def PWR_MOORED_REQ : Fld := ⟨0x30000030100 * 32 + 0, 1, 0⟩
def PWR_AON_TMR_LO_TS : Fld := ⟨0x30000030108 * 32 + 0, 32, 0⟩
def PWR_AON_TMR_HI_TS : Fld := ⟨0x3000003010c * 32 + 0, 32, 0⟩

/-! spec/15_power_and_rate_governor.md, PWR_PART — partition p. -/
def PWR_PART_IDLE (p : Nat) : Fld := ⟨(0x30000030200 + p * 0x10) * 32 + 24, 8, 0⟩
def PWR_PART_FLOOR (p : Nat) : Fld := ⟨(0x30000030200 + p * 0x10) * 32 + 16, 8, 0x10⟩
def PWR_PART_SHARE (p : Nat) : Fld := ⟨(0x30000030200 + p * 0x10) * 32 + 8, 8, (if p < 4 then 32 else 8)⟩
def PWR_PART_REQ (p : Nat) : Fld := ⟨(0x30000030200 + p * 0x10) * 32 + 4, 1, 0⟩
def PWR_PART_OP_TGT (p : Nat) : Fld := ⟨(0x30000030200 + p * 0x10) * 32 + 0, 3, 5⟩
def PWR_PART_RATE (p : Nat) : Fld := ⟨(0x30000030204 + p * 0x10) * 32 + 24, 8, 0xff⟩
def PWR_PART_CEIL (p : Nat) : Fld := ⟨(0x30000030204 + p * 0x10) * 32 + 16, 8, 0xff⟩
def PWR_PART_PENDING (p : Nat) : Fld := ⟨(0x30000030204 + p * 0x10) * 32 + 12, 1, 0⟩
def PWR_PART_CLAMP (p : Nat) : Fld := ⟨(0x30000030204 + p * 0x10) * 32 + 11, 1, 0⟩
def PWR_PART_FAIL (p : Nat) : Fld := ⟨(0x30000030204 + p * 0x10) * 32 + 10, 1, 0⟩
def PWR_PART_OP_CUR (p : Nat) : Fld := ⟨(0x30000030204 + p * 0x10) * 32 + 7, 3, 5⟩
def PWR_PART_STATE (p : Nat) : Fld := ⟨(0x30000030204 + p * 0x10) * 32 + 0, 4, 0⟩
def PWR_PART_BUCKET (p : Nat) : Fld := ⟨(0x30000030208 + p * 0x10) * 32 + 0, 32, 0⟩
def PWR_PART_ENERGY (p : Nat) : Fld := ⟨(0x3000003020c + p * 0x10) * 32 + 0, 32, 0⟩

/-! spec/15_power_and_rate_governor.md, PWR_OPT — operating-point table. -/
def PWR_OPT_DIE_MV (k : Nat) : Fld := ⟨(0x30000030400 + k * 0x4) * 32 + 16, 16, ([720, 740, 760, 790, 820, 850].getD k 0)⟩
def PWR_OPT_DIE_PCT (k : Nat) : Fld := ⟨(0x30000030400 + k * 0x4) * 32 + 0, 8, ([55, 64, 72, 82, 92, 100].getD k 0)⟩
def PWR_OPT_CH_MV (k : Nat) : Fld := ⟨(0x30000030420 + k * 0x4) * 32 + 16, 16, ([700, 730, 760, 790, 820, 850].getD k 0)⟩
def PWR_OPT_CH_PCT (k : Nat) : Fld := ⟨(0x30000030420 + k * 0x4) * 32 + 0, 8, ([40, 53, 67, 80, 90, 100].getD k 0)⟩

/-! spec/16_debug.md, DBG_STATUS — debug status. -/
def DBG_STATUS_COX_EN : Fld := ⟨0x300000b0000 * 32 + 31, 1, 0⟩
def DBG_STATUS_POLICY : Fld := ⟨0x300000b0000 * 32 + 16, 4, 0xf⟩
def DBG_STATUS_MOORED : Fld := ⟨0x300000b0000 * 32 + 2, 1, 0⟩
def DBG_STATUS_INTEG : Fld := ⟨0x300000b0000 * 32 + 1, 1, 0⟩
def DBG_STATUS_ANY_HALTED : Fld := ⟨0x300000b0000 * 32 + 0, 1, 0⟩

/-! spec/16_debug.md, DBG_RST, DBG_WDT_POLICY — reset and watchdog policy. -/
def DBG_RST_KEY : Fld := ⟨0x300000b0004 * 32 + 24, 8, 0⟩
def DBG_RST_PART : Fld := ⟨0x300000b0004 * 32 + 8, 5, 0⟩
def DBG_RST_SCOPE : Fld := ⟨0x300000b0004 * 32 + 0, 3, 0⟩
def DBG_WDT_POLICY_CH_RUN : Fld := ⟨0x300000b0008 * 32 + 2, 1, 0⟩
def DBG_WDT_POLICY_HUB_RUN : Fld := ⟨0x300000b0008 * 32 + 1, 1, 0⟩
def DBG_WDT_POLICY_ENG_RUN : Fld := ⟨0x300000b0008 * 32 + 0, 1, 0⟩

/-! spec/16_debug.md, DBG_CREW_HALT, DBG_CREW_RESUME — crew halt. -/
def DBG_CREW_HALT_HE : Fld := ⟨0x300000b0010 * 32 + 16, 4, 0⟩
def DBG_CREW_HALT_CH : Fld := ⟨0x300000b0010 * 32 + 0, 16, 0⟩
def DBG_CREW_RESUME_HE : Fld := ⟨0x300000b0014 * 32 + 16, 4, 0⟩
def DBG_CREW_RESUME_CH : Fld := ⟨0x300000b0014 * 32 + 0, 16, 0⟩

/-! spec/16_debug.md, DBG_ISL_HALT, DBG_ISL_STEP — island halt. -/
def DBG_ISL_HALT_SEC (d : Nat) : Fld := ⟨(0x300000b0020 + d * 0x4) * 32 + 0, 32, 0⟩
def DBG_ISL_STEP_DIE : Fld := ⟨0x300000b0030 * 32 + 30, 2, 0⟩
def DBG_ISL_STEP_SECTOR : Fld := ⟨0x300000b0030 * 32 + 25, 5, 0⟩
def DBG_ISL_STEP_N : Fld := ⟨0x300000b0030 * 32 + 0, 8, 0⟩

/-! spec/16_debug.md, Access set s. -/
def DBG_ACC_ADDR_LO (a : Nat) : Fld := ⟨(0x300000b0100 + a * 0x20) * 32 + 0, 32, 0⟩
def DBG_ACC_ADDR_HI (a : Nat) : Fld := ⟨(0x300000b0104 + a * 0x20) * 32 + 0, 20, 0⟩
def DBG_ACC_DATA_LO (a : Nat) : Fld := ⟨(0x300000b0108 + a * 0x20) * 32 + 0, 32, 0⟩
def DBG_ACC_DATA_HI (a : Nat) : Fld := ⟨(0x300000b010c + a * 0x20) * 32 + 0, 32, 0⟩
def DBG_ACC_BUSY (a : Nat) : Fld := ⟨(0x300000b0110 + a * 0x20) * 32 + 31, 1, 0⟩
def DBG_ACC_RESULT (a : Nat) : Fld := ⟨(0x300000b0110 + a * 0x20) * 32 + 24, 4, 0⟩
def DBG_ACC_INC (a : Nat) : Fld := ⟨(0x300000b0110 + a * 0x20) * 32 + 8, 1, 0⟩
def DBG_ACC_SIZE (a : Nat) : Fld := ⟨(0x300000b0110 + a * 0x20) * 32 + 4, 2, 2⟩
def DBG_ACC_KIND (a : Nat) : Fld := ⟨(0x300000b0110 + a * 0x20) * 32 + 1, 2, 0⟩
def DBG_ACC_GO (a : Nat) : Fld := ⟨(0x300000b0110 + a * 0x20) * 32 + 0, 1, 0⟩

/-! spec/16_debug.md, DBG_XT — cross-trigger matrix. -/
def DBG_XT_IN_SRC (c : Nat) : Fld := ⟨(0x300000b0200 + c * 0x8) * 32 + 0, 8, 0⟩
def DBG_XT_OUT_ACT (c : Nat) : Fld := ⟨(0x300000b0204 + c * 0x8) * 32 + 0, 6, 0⟩
def DBG_XT_CREW_CREW : Fld := ⟨0x300000b0240 * 32 + 0, 20, 0⟩
def DBG_XT_PROBE_PROBE : Fld := ⟨0x300000b0244 * 32 + 0, 32, 0⟩
def DBG_XT_PULSE_CH : Fld := ⟨0x300000b0248 * 32 + 0, 8, 0⟩
def DBG_XT_ISL_SEC (d : Nat) : Fld := ⟨(0x300000b0250 + d * 0x4) * 32 + 0, 32, 0⟩

/-! spec/17_serial_lanes.md, LANE_SUM, LANE_HTEST — summary and host test. -/
def LANE_SUM_LANE (w : Nat) : Fld := ⟨(0x300000c0000 + w * 0x4) * 32 + 0, 32, 0⟩
def LANE_HTEST_PORT : Fld := ⟨0x300000c0010 * 32 + 0, 2, 0⟩

/-! spec/17_serial_lanes.md, Quad q. -/
def QUAD_APPLY (q : Nat) : Fld := ⟨(0x300000c0100 + q * 0x20) * 32 + 31, 1, 0⟩
def QUAD_DIV (q : Nat) : Fld := ⟨(0x300000c0100 + q * 0x20) * 32 + 16, 3, 0⟩
def QUAD_NINT (q : Nat) : Fld := ⟨(0x300000c0100 + q * 0x20) * 32 + 0, 10, 0⟩
def QUAD_NFRAC (q : Nat) : Fld := ⟨(0x300000c0104 + q * 0x20) * 32 + 0, 24, 0⟩
def QUAD_CFG_ERR (q : Nat) : Fld := ⟨(0x300000c0108 + q * 0x20) * 32 + 2, 1, 0⟩
def QUAD_OWNER_HELD (q : Nat) : Fld := ⟨(0x300000c0108 + q * 0x20) * 32 + 1, 1, 0⟩
def QUAD_LOCK (q : Nat) : Fld := ⟨(0x300000c0108 + q * 0x20) * 32 + 0, 1, 0⟩

/-! spec/17_serial_lanes.md, Lane L. -/
def LANE_EN (l : Nat) : Fld := ⟨(0x300000c1000 + l * 0x100) * 32 + 15, 1, 0⟩
def LANE_PAM4 (l : Nat) : Fld := ⟨(0x300000c1000 + l * 0x100) * 32 + 14, 1, 0⟩
def LANE_PCS (l : Nat) : Fld := ⟨(0x300000c1000 + l * 0x100) * 32 + 12, 2, 0⟩
def LANE_WIDTH (l : Nat) : Fld := ⟨(0x300000c1000 + l * 0x100) * 32 + 10, 2, 0⟩
def LANE_LOOP (l : Nat) : Fld := ⟨(0x300000c1000 + l * 0x100) * 32 + 8, 2, 0⟩
def LANE_POL_RX (l : Nat) : Fld := ⟨(0x300000c1000 + l * 0x100) * 32 + 3, 1, 0⟩
def LANE_POL_TX (l : Nat) : Fld := ⟨(0x300000c1000 + l * 0x100) * 32 + 2, 1, 0⟩
def LANE_TXIDLE (l : Nat) : Fld := ⟨(0x300000c1000 + l * 0x100) * 32 + 1, 1, 0⟩
def LANE_RST (l : Nat) : Fld := ⟨(0x300000c1000 + l * 0x100) * 32 + 0, 1, 0⟩
def LANE_ADAPT_FAIL (l : Nat) : Fld := ⟨(0x300000c1004 + l * 0x100) * 32 + 7, 1, 0⟩
def LANE_ADAPT_DONE (l : Nat) : Fld := ⟨(0x300000c1004 + l * 0x100) * 32 + 6, 1, 0⟩
def LANE_FEC_LOCK (l : Nat) : Fld := ⟨(0x300000c1004 + l * 0x100) * 32 + 5, 1, 0⟩
def LANE_BLOCK_LOCK (l : Nat) : Fld := ⟨(0x300000c1004 + l * 0x100) * 32 + 4, 1, 0⟩
def LANE_ADC (l : Nat) : Fld := ⟨(0x300000c1004 + l * 0x100) * 32 + 3, 1, 0⟩
def LANE_CDR_LOCK (l : Nat) : Fld := ⟨(0x300000c1004 + l * 0x100) * 32 + 2, 1, 0⟩
def LANE_LOS (l : Nat) : Fld := ⟨(0x300000c1004 + l * 0x100) * 32 + 1, 1, 1⟩
def LANE_TX_IDLE (l : Nat) : Fld := ⟨(0x300000c1004 + l * 0x100) * 32 + 0, 1, 1⟩
def LANE_CAUSE (l : Nat) : Fld := ⟨(0x300000c1008 + l * 0x100) * 32 + 0, 7, 0⟩
def LANE_MASK (l : Nat) : Fld := ⟨(0x300000c100c + l * 0x100) * 32 + 0, 7, 0x7f⟩
def LANE_TXEQ (l : Nat) : Fld := ⟨(0x300000c1010 + l * 0x100) * 32 + 0, 32, 0⟩
def LANE_APPLY (l : Nat) : Fld := ⟨(0x300000c1014 + l * 0x100) * 32 + 31, 1, 0⟩
def LANE_TXEQ_ERR (l : Nat) : Fld := ⟨(0x300000c1014 + l * 0x100) * 32 + 30, 1, 0⟩
def LANE_AMP (l : Nat) : Fld := ⟨(0x300000c1014 + l * 0x100) * 32 + 8, 6, 0⟩
def LANE_MAIN (l : Nat) : Fld := ⟨(0x300000c1014 + l * 0x100) * 32 + 0, 8, 0⟩
def LANE_ADAPT (l : Nat) : Fld := ⟨(0x300000c1018 + l * 0x100) * 32 + 31, 1, 0⟩
def LANE_BW (l : Nat) : Fld := ⟨(0x300000c1018 + l * 0x100) * 32 + 16, 3, 0⟩
def LANE_CTLE_FIX (l : Nat) : Fld := ⟨(0x300000c1018 + l * 0x100) * 32 + 10, 1, 0⟩
def LANE_DFE_FRZ (l : Nat) : Fld := ⟨(0x300000c1018 + l * 0x100) * 32 + 9, 1, 0⟩
def LANE_FFE_FRZ (l : Nat) : Fld := ⟨(0x300000c1018 + l * 0x100) * 32 + 8, 1, 0⟩
def LANE_CTLE (l : Nat) : Fld := ⟨(0x300000c1018 + l * 0x100) * 32 + 0, 6, 0⟩
def LANE_FFE0 (l : Nat) : Fld := ⟨(0x300000c1020 + l * 0x100) * 32 + 0, 32, 0⟩
def LANE_FFE1 (l : Nat) : Fld := ⟨(0x300000c1024 + l * 0x100) * 32 + 0, 32, 0⟩
def LANE_FFE2 (l : Nat) : Fld := ⟨(0x300000c1028 + l * 0x100) * 32 + 0, 32, 0⟩
def LANE_FFE3 (l : Nat) : Fld := ⟨(0x300000c102c + l * 0x100) * 32 + 0, 32, 0⟩
def LANE_FFE4 (l : Nat) : Fld := ⟨(0x300000c1030 + l * 0x100) * 32 + 0, 32, 0⟩
def LANE_FFE5 (l : Nat) : Fld := ⟨(0x300000c1034 + l * 0x100) * 32 + 0, 32, 0⟩
def LANE_DFE (l : Nat) : Fld := ⟨(0x300000c1038 + l * 0x100) * 32 + 0, 24, 0⟩
def LANE_CHK (l : Nat) : Fld := ⟨(0x300000c1040 + l * 0x100) * 32 + 4, 4, 0⟩
def LANE_GEN (l : Nat) : Fld := ⟨(0x300000c1040 + l * 0x100) * 32 + 0, 4, 0⟩
def LANE_CLR (l : Nat) : Fld := ⟨(0x300000c1044 + l * 0x100) * 32 + 31, 1, 0⟩
def LANE_PLOCK (l : Nat) : Fld := ⟨(0x300000c1044 + l * 0x100) * 32 + 30, 1, 0⟩
def LANE_RESYNC (l : Nat) : Fld := ⟨(0x300000c1044 + l * 0x100) * 32 + 0, 16, 0⟩
def LANE_ERR_LO (l : Nat) : Fld := ⟨(0x300000c1048 + l * 0x100) * 32 + 0, 32, 0⟩
def LANE_ERR_HI (l : Nat) : Fld := ⟨(0x300000c104c + l * 0x100) * 32 + 0, 16, 0⟩
def LANE_BITS_LO (l : Nat) : Fld := ⟨(0x300000c1050 + l * 0x100) * 32 + 0, 32, 0⟩
def LANE_BITS_HI (l : Nat) : Fld := ⟨(0x300000c1054 + l * 0x100) * 32 + 0, 16, 0⟩
def LANE_GO (l : Nat) : Fld := ⟨(0x300000c1060 + l * 0x100) * 32 + 31, 1, 0⟩
def LANE_BUSY (l : Nat) : Fld := ⟨(0x300000c1060 + l * 0x100) * 32 + 30, 1, 0⟩
def LANE_INVALID (l : Nat) : Fld := ⟨(0x300000c1060 + l * 0x100) * 32 + 29, 1, 0⟩
def LANE_EYESEL (l : Nat) : Fld := ⟨(0x300000c1060 + l * 0x100) * 32 + 26, 2, 0⟩
def LANE_DWELL (l : Nat) : Fld := ⟨(0x300000c1060 + l * 0x100) * 32 + 16, 6, 0x14⟩
def LANE_VOFF (l : Nat) : Fld := ⟨(0x300000c1060 + l * 0x100) * 32 + 8, 8, 0⟩
def LANE_PHASE (l : Nat) : Fld := ⟨(0x300000c1060 + l * 0x100) * 32 + 0, 6, 0⟩
def LANE_EYE_ERR_LO (l : Nat) : Fld := ⟨(0x300000c1064 + l * 0x100) * 32 + 0, 32, 0⟩
def LANE_EYE_ERR_HI (l : Nat) : Fld := ⟨(0x300000c1068 + l * 0x100) * 32 + 0, 16, 0⟩
def LANE_CORR_CW (l : Nat) : Fld := ⟨(0x300000c1070 + l * 0x100) * 32 + 0, 32, 0⟩
def LANE_UNCORR_CW (l : Nat) : Fld := ⟨(0x300000c1074 + l * 0x100) * 32 + 0, 32, 0⟩
def LANE_CORR_SYM (l : Nat) : Fld := ⟨(0x300000c1078 + l * 0x100) * 32 + 0, 32, 0⟩

end Sys2Proof.Machine
end

