-- ==== Sys2Proof/Machine/Causes.lean ====
section
/-! DEFINITION. The interrupt tree (R89, R107, R135, R175, R257, R276, R301, R302, R328 to R331, R368, R408): causes,
masks, partition causes, the summary, MSI-X messages, INT_N and the engines' interrupt lines. -/

namespace Sys2Proof.Machine

/-- One-bit fields read as a number, the first as bit 0. -/
def State.bits (s : State) : List Fld → Nat
  | [] => 0
  | f :: l => s.get f % 2 + 2 * s.bits l

/-- Some bit of a cause is set whose mask bit is clear. -/
def unmasked (cause mask : Nat) : Bool := clearBits cause mask != 0

/-- FAB_SEC_CAUSE of a sector as one number. -/
def secCause (s : State) (d i : Nat) : Nat :=
  s.get (FAB_SEC_CAUSE_CLK_ALARM d i) + 2 * s.get (FAB_SEC_CAUSE_MEM_UE d i) + 4 * s.get (FAB_SEC_CAUSE_BANK d i)
    + 16 * s.get (FAB_SEC_CAUSE_USER d i)

/-- FAB_SEC_MASK of a sector as one number. -/
def secMask (s : State) (d i : Nat) : Nat :=
  s.get (FAB_SEC_MASK_CLK_ALARM d i) + 2 * s.get (FAB_SEC_MASK_MEM_UE d i) + 4 * s.get (FAB_SEC_MASK_BANK d i)
    + 16 * s.get (FAB_SEC_MASK_USER d i)

/-- CH_CAUSE.ENG: some bit of CH_ENG_CAUSE_LO or CH_ENG_CAUSE_HI is set. -/
def chEng (s : State) (n : Nat) : Bool := s.get (CH_ENG_CAUSE_LO_ENG n) + s.get (CH_ENG_CAUSE_HI_ENG n) != 0

/-- CH_CAUSE as one number; bit 3 is reserved. -/
def chCause (s : State) (n : Nat) : Nat :=
  s.bits [CH_CAUSE_CLK_ALARM n, CH_CAUSE_MEM_UE n] + 4 * (chEng s n).toNat
    + 16 * s.bits [CH_CAUSE_NAND_TMO n, CH_CAUSE_NAND_QOVF n, CH_CAUSE_LDPC_QOVF n, CH_CAUSE_TQ_OVF n, CH_CAUSE_FW_FAIL n]

/-- DRAM_CAUSE as one number. -/
def dramCause (s : State) (n : Nat) : Nat :=
  s.bits [DRAM_CAUSE_TRAIN_FAIL n, DRAM_CAUSE_FALLBACK n, DRAM_CAUSE_TEMP n, DRAM_CAUSE_STATE_ERR n,
    DRAM_CAUSE_REF_LATE n, DRAM_CAUSE_RD_STORM n]

/-- PAT_CAUSE as one number. -/
def patCause (s : State) (n : Nat) : Nat :=
  s.bits [PAT_CAUSE_UE n, PAT_CAUSE_INTEG n, PAT_CAUSE_POISON_RD n, PAT_CAUSE_SUBTREE n, PAT_CAUSE_SUB_FULL n,
    PAT_CAUSE_STATE_ERR n]

/-- The channel's bit of its partition cause register (R257). -/
def chLeaf (s : State) (n : Nat) : Bool :=
  unmasked (chCause s n) (s.get (CH_MASK_MASK n)) || unmasked (dramCause s n) (s.get (DRAM_MASK_MASK n))
    || unmasked (patCause s n) (s.get (PAT_MASK_MASK n))

/-- RAS_CAUSE as one number. -/
def rasCause (s : State) : Nat :=
  s.bits [RAS_CAUSE_CLK_HUB, RAS_CAUSE_AON_XTAL, RAS_CAUSE_TS_LOST, RAS_CAUSE_SLAG_NEW, RAS_CAUSE_SLAG_OVF,
    RAS_CAUSE_MEM_UE, RAS_CAUSE_CFG_UE, RAS_CAUSE_CHK_FAIL, RAS_CAUSE_FLUX_LATE]

/-- SEC_CAUSE as one number. -/
def securityCause (s : State) : Nat :=
  s.bits [SEC_CAUSE_DATA_FAIL, SEC_CAUSE_SUBTREE, SEC_CAUSE_IDE_FAIL, SEC_CAUSE_GLITCH, SEC_CAUSE_TRNG, SEC_CAUSE_OTP,
    SEC_CAUSE_DUMP]

/-- CFG_CAUSE as one number. -/
def cfgCause (s : State) : Nat :=
  s.bits [CFG_CAUSE_DONE, CFG_CAUSE_FAIL, CFG_CAUSE_SU_PARTIAL, CFG_CAUSE_HWAIT, CFG_CAUSE_NV_WORN, CFG_CAUSE_NV_SPARES,
    CFG_CAUSE_NV_UE]

/-- PWR_CAUSE as one number. -/
def pwrCause (s : State) : Nat :=
  s.bits [PWR_CAUSE_AVS_FAIL, PWR_CAUSE_TELEM, PWR_CAUSE_PMB_ALERT, PWR_CAUSE_THERM_SOFT, PWR_CAUSE_THERM_HOT,
    PWR_CAUSE_EASY_TO, PWR_CAUSE_NO_SAVE, PWR_CAUSE_WAKE_FAIL, PWR_CAUSE_OVER, PWR_CAUSE_MOORED_REF]

/-- HP_CAUSE of a port as one number. -/
def hpCause (s : State) (p : Nat) : Nat :=
  s.bits [HP_CAUSE_LINK_DOWN p, HP_CAUSE_RETRAIN p, HP_CAUSE_AER_COR p, HP_CAUSE_AER_UNC p, HP_CAUSE_HDM_RANGE p,
    HP_CAUSE_BI_TO p, HP_CAUSE_SNP_TO p, HP_CAUSE_NVQ_ERR p]

/-- WAKE_CAUSE as one number. -/
def wakeCause (s : State) : Nat :=
  s.bits [WAKE_CAUSE_RECOVERED, WAKE_CAUSE_ABANDONED, WAKE_CAUSE_HOLD_LIM, WAKE_CAUSE_REPEAT]

/-- NOC_CAUSE as one number. -/
def nocCause (s : State) : Nat :=
  s.bits [NOC_CAUSE_CLK_LOST, NOC_CAUSE_LINK_POISON, NOC_CAUSE_ROUTER_FAULT, NOC_CAUSE_TIMEOUT, NOC_CAUSE_STALL,
    NOC_CAUSE_TRACE_FULL, NOC_CAUSE_TRACE_LOST]

/-- NOC_MASK as one number. -/
def nocMask (s : State) : Nat := s.get NOC_MASK_MASK_CLK + 2 * s.get NOC_MASK_MASK

/-- Lane L has a cause set whose mask bit is clear (LANE_SUM, R408). -/
def laneLeaf (s : State) (l : Nat) : Bool := unmasked (s.get (LANE_CAUSE l)) (s.get (LANE_MASK l))

/-- LANE_SUM w as one number. -/
def laneSum (s : State) (w : Nat) : Nat :=
  (List.range 32).foldl (fun x i => x + (laneLeaf s (32 * w + i)).toNat * 2 ^ i) 0

/-- INT_PART_CAUSE of a partition (R329). -/
def partCause (s : State) (p : Nat) : Nat :=
  if p < 4 then
    (List.range 32).foldl (fun x i => x + (unmasked (secCause s p i) (secMask s p i)).toNat * 2 ^ i) 0
  else if p < 20 then (chLeaf s (p - 4)).toNat
  else s.get INT_PART_CAUSE_HUB_HE + 256 * (unmasked (rasCause s) (s.get RAS_MASK_MASK)).toNat

/-- Bit `b` of HUB_INT_SUMMARY (R328). -/
def summaryBit (s : State) (b : Nat) : Bool :=
  if b < 21 then unmasked (partCause s b) (s.get (INT_PART_MASK_MASK b))
  else match b with
    | 21 => unmasked (securityCause s) (s.get SEC_MASK_MASK)
    | 22 => unmasked (cfgCause s) (s.get CFG_MASK_MASK)
    | 23 => unmasked (pwrCause s) (s.get PWR_MASK_MASK)
    | 24 => unmasked (hpCause s 0) (s.get (HP_MASK_MASK 0)) || unmasked (hpCause s 1) (s.get (HP_MASK_MASK 1))
    | 25 => unmasked (wakeCause s) (s.get WAKE_MASK_MASK)
    | 26 => (List.range 96).any (laneLeaf s)
    | 27 => unmasked (nocCause s) (nocMask s)
    | 28 => unmasked (s.get (CMD_DONE_DONE 0)) (s.get (CMD_DONE_MASK_MASK 0))
        || unmasked (s.get (CMD_DONE_DONE 1)) (s.get (CMD_DONE_MASK_MASK 1))
    | _ => false

/-- HUB_INT_SUMMARY as one number. -/
def summaryWord (s : State) : Nat :=
  (List.range 29).foldl (fun x b => x + (summaryBit s b).toNat * 2 ^ b) 0

/-- INT_N is asserted (R328). -/
def intN (s : State) : Bool :=
  s.clocks.released.contains 180 && unmasked (summaryWord s) (s.get HUB_INT_MASK_MASK)

/-- A line of an engine becomes pending (R198). -/
def setLine (s : State) (g line : Nat) : State := s.putBit (ENG_IRQ_PEND_PEND g) line true

/-- A line becomes pending in every engine of a list. -/
def setLines (line : Nat) : List Nat → State → State
  | [], s => s
  | g :: l, s => setLines line l (setLine s g line)

/-- The four hub engines. -/
def hubEngines : List Nat := [1024, 1025, 1026, 1027]

/-- The 64 engines of a crew. -/
def crewOf (n : Nat) : List Nat := (List.range 64).map (64 * n + ·)

/-- A word of a port's MSI-X table (R330): four words a vector; bit 0 of the fourth masks it, and is 1 at reset, as PCIe
defines (PRESUMED, assumption 15). -/
def msixWord (s : State) (port i : Nat) : Nat := smGet 0 s.host.msixTable (port * 256 + i) ^^^ (if i % 4 = 3 then 1 else 0)

/-- The port's PF0 may send messages: MSI-X enabled, bus master enabled (R317, R325). -/
def msixOn (s : State) (port : Nat) : Bool := !s.host.msixOff.contains port && !s.host.busMasterOff.contains port

/-- A port's MSI-X vector is sent, or made pending where its table entry is masked (R330); dropped while MSI-X is off
(R325). -/
def sendMsix (s : State) (port vec : Nat) : State :=
  if !msixOn s port then s
  else if msixWord s port (vec * 4 + 3) % 2 == 1 then
    { s with host := { s.host with msixPending := setAdd s.host.msixPending (port * 64 + vec) } }
  else s.emit (.msix port vec)

/-- A write of a word of a port's MSI-X table: an unmasked vector that is pending is sent (R330). -/
def writeMsix (port i v : Nat) (s : State) : State :=
  let w := if i % 4 = 3 then v % 2 ^^^ 1 else v % 2 ^ 32
  let s := { s with host := { s.host with msixTable := smSet 0 s.host.msixTable (port * 256 + i) w } }
  if i % 4 = 3 && v % 2 == 0 && s.host.msixPending.contains (port * 64 + i / 4) && msixOn s port then
    { s with host := { s.host with msixPending := setDel s.host.msixPending (port * 64 + i / 4) } }.emit (.msix port (i / 4))
  else s

/-- A message to the ports that a two-bit port field names: bit 0 port A, bit 1 port B. -/
def sendToPorts (s : State) (ports vec : Nat) : State :=
  let s := if ports.testBit 0 then sendMsix s 0 vec else s
  if ports.testBit 1 then sendMsix s 1 vec else s

/-- Summary bit `b` sends its vector to its ports (R330). -/
def sendVector (s : State) (b : Nat) : State := sendToPorts s (s.get (INT_VEC_PORT b)) (s.get (INT_VEC_VEC b))

/-- The hub engines' line that summary bit `b` drives when it rises (R331). -/
def summaryLine (b : Nat) : Option Nat :=
  if b < 4 then some 31 else if b < 20 then some 30 else if b < 28 then some (b + 2) else none

/-- What follows when summary bit `b` was `before` and is now what the state gives: on a rise, the hub engines' line,
whatever HUB_INT_MASK holds, and the vector, where HUB_INT_MASK bit `b` is clear (R330, R331). -/
def settleBit (before : Bool) (b : Nat) (s : State) : State :=
  if !before && summaryBit s b then
    let s := match summaryLine b with
      | some l => setLines l hubEngines s
      | none => s
    if s.bit HUB_INT_MASK_MASK b then s else sendVector s b
  else s

/-- A change of leaves or masks under summary bit `b`, with what the bit's rise brings. -/
def settled (b : Nat) (f : State → State) (s : State) : State := settleBit (summaryBit s b) b (f s)

/-- Changes under several summary bits. -/
def settledAll : List Nat → (State → State) → State → State
  | [], f, s => f s
  | b :: l, f, s => settled b (settledAll l f) s

/-- The same for a change under every summary bit. -/
def settledWord (f : State → State) (s : State) : State :=
  let t := f s
  (List.range 29).foldl (fun t b => settleBit (summaryBit s b) b t) t

/-- A one-bit cause leaf under summary bit `b` is raised. -/
def raiseLeaf (b : Nat) (f : Fld) (s : State) : State := settled b (fun s => s.flag f true) s

/-- A cause of the RAS block is raised: through INT_PART_CAUSE 20 (R107). -/
def raiseRas (f : Fld) (s : State) : State := raiseLeaf 20 f s
/-- A cause of the configuration controller is raised (R135). -/
def raiseCfg (f : Fld) (s : State) : State := raiseLeaf 22 f s
/-- A power or thermal cause is raised (R368). -/
def raisePwr (f : Fld) (s : State) : State := raiseLeaf 23 f s
/-- A cause of a host port is raised. -/
def raiseHp (f : Fld) (s : State) : State := raiseLeaf 24 f s
/-- A cause of the Wake is raised. -/
def raiseWake (f : Fld) (s : State) : State := raiseLeaf 25 f s
/-- A cause of the network is raised (R175). -/
def raiseNoc (f : Fld) (s : State) : State := raiseLeaf 27 f s
/-- A cause bit of a lane is raised (R408). -/
def raiseLane (l bit : Nat) (s : State) : State := settled 26 (fun s => s.putBit (LANE_CAUSE l) bit true) s
/-- A cause of sector `i` of die `d` is raised (R89). -/
def raiseSector (d : Nat) (f : Fld) (s : State) : State := raiseLeaf d f s

/-- A change of the channel-control leaves of channel `n`: a rise of a CH_CAUSE bit whose CH_MASK bit is clear sets
line 23 in every engine of the crew (R257). -/
def chSettled (n : Nat) (f : State → State) (s : State) : State :=
  settled (4 + n) (fun s =>
    let t := f s
    let rose := clearBits (clearBits (chCause t n) (chCause s n)) (t.get (CH_MASK_MASK n))
    if rose != 0 then setLines 23 (crewOf n) t else t) s

/-- A CH_CAUSE leaf is raised. -/
def raiseCh (n : Nat) (f : Fld) (s : State) : State := chSettled n (fun s => s.flag f true) s

/-- The causes of the DRAM controller and of Patina that reach the channel cause, as one number: DRAM's in bits 5 to 0,
Patina's in bits 13 to 8. -/
def memoryCause (s : State) (n : Nat) : Nat :=
  clearBits (dramCause s n) (s.get (DRAM_MASK_MASK n)) + 256 * clearBits (patCause s n) (s.get (PAT_MASK_MASK n))

/-- A change of the causes or masks of the DRAM controller or of Patina of channel `n`: a bit of a cause ANDed with the
inverse of its mask that rises sets line 22 in every engine of the crew (R276, R302). -/
def memorySettled (n : Nat) (f : State → State) (s : State) : State :=
  settled (4 + n) (fun s =>
    let t := f s
    if clearBits (memoryCause t n) (memoryCause s n) != 0 then setLines 22 (crewOf n) t else t) s

/-- A cause of the DRAM controller or of Patina of channel `n` is raised. -/
def raiseMemory (n : Nat) (f : Fld) (s : State) : State := memorySettled n (fun s => s.flag f true) s

end Sys2Proof.Machine
end

