-- ==== Sys2Proof/Machine/Units.lean ====
section
/-! DEFINITION. Partitions, clock domains, islands and units: who owns what, and what is in service (R12, R14 to R16,
R32, R34, R46, R48, R81, R85, R86). -/

namespace Sys2Proof.Machine

/-- The partition of a clock domain, none for the debug and the always-on domain (R32, R422). -/
def domainPart (d : Nat) : Option Nat :=
  if d < 128 then some (d / 32)
  else if d < 132 then some (d - 128)
  else if d < 148 then some (d - 132 + 4)
  else if d < 164 then some (d - 148 + 4)
  else if d < 180 then some (d - 164 + 4)
  else if d < 184 then some 20
  else if d < 186 then none
  else if d < 220 then some 20
  else if d < 284 then some ((d - 220) / 16)
  else if d < 292 then some 20
  else some ((d - 292) / 4)

/-- The domains that a reset of partition `p` resets: all of its own but the NoC clock of a die (R16, R50). -/
def resetDomains (p : Nat) : List Nat :=
  (List.range 308).filter (fun d => domainPart d == some p && !(128 ≤ d && d < 132))

/-- Every domain that a cold reset resets (R50). -/
def allDomains : List Nat := (List.range 308).filter (fun d => d != 184 && d != 185)

/-- A clock domain's clock is stopped and its state held: it was frozen by the loss of its clock (R46), or the XD9 has stopped
after a failed self-test of the hub (R18; that every clock but the always-on and the debug domain's then stops is assumption 71). -/
def isFrozen (s : State) (d : Nat) : Bool := s.clocks.frozen.contains d || (s.clocks.stopped && d != 184 && d != 185)

/-- A clock domain is out of reset and not frozen. -/
def runs (s : State) (d : Nat) : Bool := s.clocks.released.contains d && !isFrozen s d

/-- CLK_STABLE of a domain (R45). -/
def clkStable (s : State) (d : Nat) : Bool := s.bit (CLK_STABLE_STABLE (d / 32)) (d % 32)

/-- Partition `p` is marked in HUB_PART_FAIL (R18). -/
def partFailed (s : State) (p : Nat) : Bool :=
  if p < 4 then s.bit HUB_PART_FAIL_DIE_FAIL p
  else if p < 20 then s.bit HUB_PART_FAIL_CH_FAIL (p - 4)
  else false

/-- The domains of partition `p` that are held because their clock is not stable (R48). -/
def waitingDomains (s : State) (p : Nat) : List Nat :=
  (List.range 308).filter (fun d => domainPart d == some p && !s.clocks.released.contains d && !clkStable s d)

/-- RST_STATUS.INCOMPLETE bit `p`: a domain of the partition is held because its clock is not stable. -/
def incomplete (s : State) (p : Nat) : Bool := !(waitingDomains s p).isEmpty

/-- The size of sector `x`'s island in sectors (CLK_ISL.FUSE, R34); a sector that is held before its lock step is an island of its
own (R128). -/
def islandSize (s : State) (x : Nat) : Nat := if s.clocks.unfused.contains x then 1 else 2 ^ s.get (CLK_ISL_FUSE x)

/-- The leader of sector `x`'s island: its lowest-numbered sector (R34). -/
def leaderOf (s : State) (x : Nat) : Nat := x / islandSize s x * islandSize s x

/-- The sectors of the island led by `l`. -/
def membersOf (s : State) (l : Nat) : List Nat := (List.range (islandSize s l)).map (l + ·)

/-- The sector that owns a user I/O bank (R81). -/
def bankOwner (b : Nat) : Nat := [1, 3, 5, 39, 47, 55, 89, 91, 93, 111, 119, 127].getD b 0

/-- The banks that sector `x` owns. -/
def banksOf (x : Nat) : List Nat := (List.range 12).filter (fun b => bankOwner b == x)

/-- The sector that owns general quad `q`, 8 to 23 (R401). -/
def quadOwner (q : Nat) : Nat :=
  let d := (q - 8) / 4
  let k := (q - 8) % 4
  32 * d + if d < 2 then 2 * k else 24 + 2 * k

/-- The quad of a lane: LANE_H0 to LANE_H31 are lanes 0 to 31, LANE_G0 to LANE_G63 are lanes 32 to 95 (R394). -/
def quadOf (l : Nat) : Nat := l / 4

/-- The sector that owns a general lane. -/
def laneOwner (l : Nat) : Nat := quadOwner (quadOf l)

/-- A sector's island is rate-exempt: it owns a bank at ratio 4 or 8 (R85) or an enabled general lane (R402). -/
def exemptSector (s : State) (x : Nat) : Bool :=
  (banksOf x).any (fun b => 2 ≤ s.get (FAB_BANK_STATUS_GEAR (b / 3) (b % 3)))
    || (List.range 64).any (fun i => s.on (LANE_EN (32 + i)) && laneOwner (32 + i) == x)

/-- An island is rate-exempt when one of its sectors is. -/
def exempt (s : State) (x : Nat) : Bool := (membersOf s (leaderOf s x)).any (exemptSector s)

/-- FAB_SEC_STATUS.HELD: the sector is in reset, or its start-up steps have not all been applied. -/
def sectorHeld (s : State) (x : Nat) : Bool := !(s.clocks.released.contains x && s.fabric.running.contains x)

/-- The island of sector `x` is frozen after clock loss. -/
def islandFrozen (s : State) (x : Nat) : Bool := isFrozen s (leaderOf s x)

/-- The island of sector `x` is gated by island_gate or by the governor (R77). -/
def gated (s : State) (x : Nat) : Bool :=
  s.on (FAB_SEC_STATUS_GATED_USER (x / 32) (x % 32)) || s.on (FAB_SEC_STATUS_GATED_GOV (x / 32) (x % 32))

/-- The sector's region is being reconfigured. -/
def regionBusy (s : State) (x : Nat) : Bool := s.on (FAB_SEC_STATUS_REGION_BUSY (x / 32) (x % 32))

/-- The sector's target port answers requests: not held, which a sector being reconfigured is until its start-up's end, not failed nor
frozen (R20, R144, R164). -/
def sectorUp (s : State) (x : Nat) : Bool :=
  !sectorHeld s x && !partFailed s (x / 32) && !islandFrozen s x && !s.clocks.halted

/-- The clocks of partition `p` are stopped: it is in Easy, waking from it, or Feather-only (PWR_PART.STATE 0x2 to 0x4, R351,
R352). -/
def inEasy (s : State) (p : Nat) : Bool := 2 ≤ s.get (PWR_PART_STATE p) && s.get (PWR_PART_STATE p) ≤ 4

/-- Requests for partition `p` wait at its boundary: it is in Easy, entering it or leaving it, or Feather-only (R352, R354). -/
def easyHolds (s : State) (p : Nat) : Bool := 1 ≤ s.get (PWR_PART_STATE p) && s.get (PWR_PART_STATE p) ≤ 4

/-- The AVS rail of a partition: 0 to 3 VCC_FAB of a die, 4 VCC_CHN of channels 0 to 7, 5 VCC_CHS of channels 8 to 15 (R358,
R360); none for the hub. -/
def railOf (p : Nat) : Option Nat := if p < 4 then some p else if p < 12 then some 4 else if p < 20 then some 5 else none

/-- The rail of a partition has acknowledged its OP5 voltage since power-on or the Moored wake (R360). -/
def railGood (s : State) (p : Nat) : Bool := (railOf p).all (fun r => !s.power.railDue.contains r)

/-- The debugger has halted the island of sector `x`: DBG_ISL_HALT names one of its sectors (R387). -/
def islHalted (s : State) (x : Nat) : Bool :=
  (membersOf s (leaderOf s x)).any (fun y => s.bit (DBG_ISL_HALT_SEC (y / 32)) (y % 32))

/-- An edge reaches the island of sector `x`: its clock is out of reset, runs, is not gated, not halted by the debugger
(but for the edges of DBG_ISL_STEP), and its die is in Run (R37, R77, R387). -/
def edgeReaches (s : State) (x : Nat) : Bool :=
  s.clocks.released.contains (leaderOf s x) && !islandFrozen s x && !gated s x && !inEasy s (x / 32)
    && !s.clocks.halted && !partFailed s (x / 32)
    && (!islHalted s x || smGet 0 s.dbg.isl (leaderOf s x) != 0)

/-- The pins of a bank (R86): high-impedance, not sampled; high-impedance, inputs read 0; held by the latches; as the
image and logic set them; under the boundary register (R373). -/
inductive PinState where
  | highZ | mismatch | latched | driven | boundary
  deriving DecidableEq, Repr

/-- The state of a bank's pins: EXTEST (0), CLAMP (3) and HIGHZ (4) override every other state (R373); then the first
matching line of R86. -/
def bankPins (s : State) (b : Nat) : PinState :=
  let x := bankOwner b
  let d := x / 32
  if s.dbg.ir == 0 || s.dbg.ir == 3 then .boundary
  else if s.dbg.ir == 4 then .highZ
  else if !s.fabric.outReleased.contains b then .highZ
  else if s.clocks.halted || s.power.moored || partFailed s d || s.clocks.busy.contains d then .highZ
  else if islandFrozen s x then .highZ
  else if s.on (FAB_BANK_STATUS_MISMATCH d (b % 3)) then .mismatch
  else if s.fabric.latched.contains x then .latched
  else .driven

/-- FAB_BANK_STATUS.DRIVEN: clear whenever the bank is high-impedance. -/
def bankDriven (s : State) (b : Nat) : Bool :=
  match bankPins s b with
  | .driven | .latched => true
  | _ => false

/-- The domain that clocks the unit of a location in the hub control space: security for SEC_, configuration for CFG_,
debug for DBG_, hub core for the rest. -/
def hubDomain (off : Nat) : Nat :=
  if off / 0x10000 == 5 then 182 else if off / 0x10000 == 4 then 186 else if off / 0x10000 == 0xB then 184 else 180

/-- The domain that clocks the unit of a location in channel `n`'s control space. -/
def chanDomain (n off : Nat) : Nat :=
  if off / 0x10000 == 1 then 148 + n else if off / 0x10000 == 4 || off / 0x10000 == 5 then 164 + n else 132 + n

/-- A channel's units in a domain answer: the domain runs, the channel is not failed and its reset is not in its first
step (R20, R18, partition reset sequence step 1). -/
def chanUp (s : State) (n d : Nat) : Bool := runs s d && !partFailed s (4 + n)

/-- A failed self-test of the hub, or an internal error of the Wake, stops the XD9 with ALARM_N asserted (R18, R335). -/
def hubFails (s : State) : State := { s with clocks := { s.clocks with stopped := true, alarm := true } }

/-- Engine `g`'s clock domain. -/
def engDomain (g : Nat) : Nat := if g < 1024 then 132 + g / 64 else 183

/-- The partition of engine `g`. -/
def engPart (g : Nat) : Nat := if g < 1024 then 4 + g / 64 else 20

/-- The 16-bit unit identifier of unit `u` of partition `p` (R15). -/
def unitId (p u : Nat) : Nat := p * 2048 + u

/-- Whether a unit identifier names a unit (R15). -/
def unitExists (id : Nat) : Bool :=
  let p := id / 2048
  let u := id % 2048
  if p < 4 then u ≤ 64 || (72 ≤ u && u ≤ 75)
  else if p < 20 then u ≤ 70
  else p == 20 && (u ≤ 3 || (16 ≤ u && u ≤ 26) || (32 ≤ u && u ≤ 39))

end Sys2Proof.Machine
end

