-- ==== Sys2Proof/Machine/Channels.lean ====
section
/-! DEFINITION. What a channel's registers show of its LUNs and of its crew task queue (R240, R252, R253). -/

namespace Sys2Proof.Machine

/-- A channel's sequencer, codec and queues. -/
def State.chan (s : State) (n : Nat) : Channel := smGet {} s.channels n

/-- A channel replaced. -/
def State.setChan (s : State) (n : Nat) (c : Channel) : State := { s with channels := smSet {} s.channels n c }

/-- A LUN of a channel. -/
def State.lun (s : State) (n l : Nat) : Lun := smGet {} (s.chan n).luns l

/-- A LUN replaced. -/
def State.setLun (s : State) (n l : Nat) (x : Lun) : State :=
  s.setChan n { s.chan n with luns := smSet {} (s.chan n).luns l x }

/-- The value of NAND_STATUS.BUSY: LUNs with a descriptor started. -/
def nandBusy (s : State) (n : Nat) : Nat :=
  (List.range 16).foldl (fun m l => m + ((s.lun n l).run.isSome || (s.lun n l).prio.isSome).toNat * 2 ^ l) 0

/-! The crew task queue (R252, R253). -/

/-- The time left to a deadline word in whole milliseconds, none at or past it. -/
def timeLeft (ts deadline : Nat) : Option Nat :=
  let d := toSigned 32 (deadline + 2 ^ 32 - ts / 2 ^ 20 % 2 ^ 32)
  if d ≤ 0 then none else some (d.toNat * 1048576 / 1000000)

/-- A task's effective class. -/
def effectiveClass (ts step : Nat) (t : Task) : Nat :=
  match t.deadline with
  | none => t.cls
  | some d => match timeLeft ts d with
    | none => 0
    | some ms => if step = 0 then t.cls else min t.cls (ms / step)

/-- The effective class of a task of channel `n` now. -/
def taskClass (s : State) (n : Nat) (t : Task) : Nat := effectiveClass s.clocks.ts (s.get (CREW_TQ_PROMOTE_STEP n)) t

/-- A task fits the credit. -/
def taskFits (s : State) (n : Nat) (t : Task) : Bool := t.cost ≤ s.get (CREW_TQ_CREDIT_CREDIT n)

/-- The tasks of effective class `k` that are eligible, oldest first: up to the one that blocks the rest. -/
def eligibleIn (s : State) (n k : Nat) : List Task → List Task
  | [] => []
  | t :: l =>
    if taskClass s n t ≠ k then eligibleIn s n k l
    else if k = 0 ∨ taskFits s n t then t :: eligibleIn s n k l
    else if 16 ≤ t.passed then []
    else eligibleIn s n k l

/-- Every eligible task, by class. -/
def eligible (s : State) (n : Nat) : List (Nat × Task) :=
  (List.range 4).flatMap (fun k => (eligibleIn s n k (s.chan n).tasks).map (k, ·))

/-- The task that a pop selects, with its effective class. -/
def nextTask (s : State) (n : Nat) : Option (Nat × Task) := (eligible s n).head?

/-- CREW_TQ_STATUS.ELIG, and COUNT. -/
def taskElig (s : State) (n : Nat) : Nat := min (eligible s n).length 0xFFFF

end Sys2Proof.Machine
end

