-- ==== Sys2Proof/Machine/RegTable.lean ====
section
/-! DEFINITION. The register tables of spec/ as one list of rows: base location, instances, owner, fields with their
access codes (R8), cold values and kept codes (R11). Register accesses and resets are driven by it. -/

namespace Sys2Proof.Machine

/-- A piece of the register table of the hub control space. -/
def hubRows0 : List RegRow := [
  ⟨0x30000000000, [], .hub, .none, [⟨16, 16, .ro, (.all 0x1d5a), .normal, 31⟩, ⟨0, 16, .ro, (.all 0xd09), .normal, 31⟩]⟩,
  ⟨0x30000000004, [], .hub, .none, [⟨10, 1, .ro, (.all 0), .fixed, 31⟩, ⟨8, 2, .ro, (.all 3), .fixed, 31⟩, ⟨4, 4, .ro, (.all 1), .normal, 31⟩, ⟨0, 4, .ro, (.all 1), .normal, 31⟩]⟩,
  ⟨0x30000000008, [], .partFail, .none, [⟨4, 16, .ro, (.all 0), .normal, 12⟩, ⟨0, 4, .ro, (.all 0), .normal, 12⟩]⟩,
  ⟨0x30000010000, [], .none, .none, [⟨12, 1, .w1c, (.all 0), .por, 31⟩, ⟨11, 1, .w1c, (.all 0), .por, 31⟩, ⟨10, 1, .w1c, (.all 0), .por, 31⟩, ⟨9, 1, .w1c, (.all 0), .por, 31⟩, ⟨8, 1, .w1c, (.all 0), .por, 31⟩, ⟨7, 1, .w1c, (.all 0), .por, 31⟩, ⟨6, 1, .w1c, (.all 0), .por, 31⟩, ⟨5, 1, .w1c, (.all 0), .por, 31⟩, ⟨4, 1, .w1c, (.all 0), .por, 31⟩, ⟨3, 1, .w1c, (.all 0), .por, 31⟩, ⟨2, 1, .w1c, (.all 0), .por, 31⟩, ⟨1, 1, .w1c, (.all 0), .por, 31⟩, ⟨0, 1, .w1c, (.all 1), .por, 31⟩]⟩,
  ⟨0x30000010004, [], .rstStatus, .none, [⟨25, 1, .ro, (.all 0), .normal, 0⟩, ⟨24, 1, .ro, (.all 0), .normal, 31⟩, ⟨0, 21, .ro, (.all 0), .normal, 0⟩]⟩,
  ⟨0x30000010008, [], .hub, .none, [⟨24, 8, .wo, (.all 0), .normal, 0⟩, ⟨8, 5, .wo, (.all 0), .normal, 0⟩, ⟨0, 3, .wo, (.all 0), .normal, 0⟩]⟩,
  ⟨0x3000001000c, [], .none, .none, [⟨0, 16, .w1c, (.all 0), .por, 31⟩]⟩,
  ⟨0x30000010010, [], .hub, .none, [⟨31, 1, .w1s, (.all 0), .normal, 30⟩, ⟨1, 1, .rwl, (.all 0), .image, 30⟩, ⟨0, 1, .rwl, (.all 0), .image, 30⟩]⟩,
  ⟨0x30000010014, [], .none, .none, [⟨31, 1, .ro, (.all 0), .fixed, 31⟩, ⟨7, 1, .ro, (.all 0), .fixed, 31⟩, ⟨6, 1, .ro, (.all 0), .fixed, 31⟩, ⟨4, 2, .ro, (.all 0), .fixed, 31⟩, ⟨0, 2, .ro, (.all 0), .fixed, 31⟩]⟩,
  ⟨0x30000020000, [], .clkRef, .none, [⟨16, 16, .ro, (.all 0), .normal, 0⟩, ⟨12, 4, .ro, (.all 0), .normal, 0⟩, ⟨9, 1, .ro, (.all 0), .normal, 0⟩, ⟨8, 1, .ro, (.all 0), .normal, 0⟩, ⟨0, 2, .ro, (.all 0), .fixed, 31⟩]⟩,
  ⟨0x30000020004, [], .none, .none, [⟨2, 1, .w1c, (.all 0), .por, 31⟩, ⟨1, 1, .ro, (.all 1), .por, 31⟩, ⟨0, 1, .ro, (.all 0), .por, 31⟩]⟩,
  ⟨0x30000020010, [], .none, .none, [⟨0, 32, .ro, (.all 0), .normal, 31⟩]⟩,
  ⟨0x30000020014, [], .none, .none, [⟨0, 32, .ro, (.all 0), .normal, 31⟩]⟩,
  ⟨0x30000020018, [], .none, .none, [⟨17, 1, .w1c, (.all 0), .normal, 31⟩, ⟨16, 1, .ro, (.all 0), .normal, 31⟩, ⟨4, 10, .rw, (.all 0), .normal, 31⟩, ⟨0, 2, .rw, (.all 0), .normal, 31⟩]⟩,
  ⟨0x30000020100, [(10, 0x4)], .domBits, .none, [⟨0, 32, .ro, (.all 0), .normal, 0⟩]⟩,
  ⟨0x30000020140, [(10, 0x4)], .domBits, .none, [⟨0, 32, .w1c, (.all 0), .normal, 12⟩]⟩,
  ⟨0x30000021000, [(128, 0x4)], .flat32, .none, [⟨18, 1, .ro, (.all 0), .normal, 0⟩, ⟨17, 1, .ro, (.all 0), .normal, 0⟩, ⟨16, 1, .ro, (.all 0), .normal, 0⟩, ⟨10, 1, .ro, (.all 0), .image, 12⟩, ⟨8, 2, .ro, (.all 0), .image, 12⟩, ⟨0, 8, .rw, (.all 0), .image, 12⟩]⟩,
  ⟨0x30000100000, [(4, 0x40000), (32, 0x4)], .die, .none, [⟨8, 1, .ro, (.all 0), .normal, 0⟩, ⟨7, 1, .ro, (.all 0), .normal, 0⟩, ⟨6, 1, .ro, (.all 0), .normal, 0⟩, ⟨5, 1, .ro, (.all 0), .normal, 0⟩, ⟨4, 1, .ro, (.all 0), .normal, 0⟩, ⟨3, 1, .ro, (.all 0), .normal, 0⟩, ⟨2, 1, .ro, (.all 0), .normal, 0⟩, ⟨1, 1, .ro, (.all 0), .normal, 0⟩, ⟨0, 1, .ro, (.all 0), .normal, 10⟩]⟩,
  ⟨0x30000100100, [(4, 0x40000), (32, 0x4)], .die, .none, [⟨4, 4, .w1c, (.all 0), .normal, 12⟩, ⟨2, 1, .w1c, (.all 0), .normal, 12⟩, ⟨1, 1, .w1c, (.all 0), .normal, 12⟩, ⟨0, 1, .w1c, (.all 0), .normal, 12⟩]⟩,
  ⟨0x30000100200, [(4, 0x40000), (32, 0x4)], .die, .none, [⟨4, 4, .rw, (.all 0), .normal, 12⟩, ⟨2, 1, .rw, (.all 0), .normal, 12⟩, ⟨1, 1, .rw, (.all 0), .normal, 12⟩, ⟨0, 1, .rw, (.all 0), .normal, 12⟩]⟩]

/-- A piece of the register table of the hub control space. -/
def hubRows1 : List RegRow := [
  ⟨0x30000100300, [(4, 0x40000), (3, 0x4)], .die, .none, [⟨10, 2, .ro, (.all 0), .image, 12⟩, ⟨7, 1, .ro, (.all 0), .normal, 0⟩, ⟨6, 1, .ro, (.all 0), .normal, 10⟩, ⟨3, 3, .ro, (.all 0), .image, 12⟩, ⟨0, 3, .ro, (.all 0), .por, 31⟩]⟩,
  ⟨0x300000d0000, [], .hub, .none, [⟨8, 1, .w1c, (.all 0), .normal, 31⟩, ⟨7, 1, .w1c, (.all 0), .normal, 31⟩, ⟨6, 1, .w1c, (.all 0), .normal, 31⟩, ⟨5, 1, .w1c, (.all 0), .normal, 31⟩, ⟨4, 1, .w1c, (.all 0), .normal, 31⟩, ⟨3, 1, .w1c, (.all 0), .normal, 31⟩, ⟨2, 1, .w1c, (.all 0), .normal, 31⟩, ⟨1, 1, .w1c, (.all 0), .normal, 31⟩, ⟨0, 1, .w1c, (.all 0), .normal, 31⟩]⟩,
  ⟨0x300000d0004, [], .hub, .none, [⟨0, 9, .rw, (.all 0), .normal, 31⟩]⟩,
  ⟨0x300000d0010, [], .hub, .none, [⟨15, 1, .ro, (.all 0), .normal, 0⟩, ⟨14, 1, .w1c, (.all 0), .normal, 31⟩, ⟨13, 1, .w1c, (.all 0), .normal, 31⟩, ⟨8, 5, .rw, (.all 0), .normal, 31⟩, ⟨0, 1, .w1s, (.all 0), .normal, 0⟩]⟩,
  ⟨0x300000d0020, [], .hub, .none, [⟨0, 32, .rw, (.all 0), .normal, 31⟩]⟩,
  ⟨0x300000d0030, [], .hub, .none, [⟨30, 2, .ro, (.all 0), .normal, 31⟩, ⟨25, 5, .ro, (.all 0), .normal, 31⟩, ⟨11, 14, .ro, (.all 0), .normal, 31⟩, ⟨2, 9, .ro, (.all 0), .normal, 31⟩]⟩,
  ⟨0x300000d0034, [], .hub, .none, [⟨16, 16, .rw, (.all 0), .normal, 31⟩, ⟨0, 5, .ro, (.all 0), .normal, 31⟩]⟩,
  ⟨0x300000d0038, [], .hub, .none, [⟨0, 32, .ro, (.all 0), .normal, 31⟩]⟩,
  ⟨0x300000d003c, [], .hub, .none, [⟨0, 32, .ro, (.all 0), .normal, 31⟩]⟩,
  ⟨0x300000d0100, [(21, 0x4)], .part, .none, [⟨31, 1, .rw, (.all 1), .normal, 31⟩, ⟨0, 11, .rw, (.all 0x3c), .normal, 31⟩]⟩,
  ⟨0x300000d0200, [(21, 0x4)], .part, .none, [⟨31, 1, .ro, (.all 0), .normal, 0⟩, ⟨30, 1, .w1c, (.all 0), .normal, 31⟩, ⟨0, 16, .ro, (.all 0), .normal, 31⟩]⟩,
  ⟨0x300000d0300, [(21, 0x4)], .part, .none, [⟨0, 32, .rw, (.all 0), .normal, 31⟩]⟩,
  ⟨0x300000d0400, [(21, 0x4)], .part, .none, [⟨0, 32, .w1c, (.all 0), .normal, 31⟩]⟩,
  ⟨0x300000d0500, [(21, 0x4)], .part, .none, [⟨0, 16, .rw, (.all 0), .normal, 31⟩]⟩,
  ⟨0x300000d1000, [(21, 0x400), (32, 0x20)], .part, .none, [⟨16, 16, .ro, (.all 0), .normal, 31⟩, ⟨8, 8, .ro, (.all 0), .normal, 31⟩, ⟨7, 1, .ro, (.all 0), .normal, 31⟩, ⟨0, 3, .ro, (.all 0), .normal, 31⟩]⟩,
  ⟨0x300000d1004, [(21, 0x400), (32, 0x20)], .part, .none, [⟨0, 32, .ro, (.all 0), .normal, 31⟩]⟩,
  ⟨0x300000d1008, [(21, 0x400), (32, 0x20)], .part, .none, [⟨16, 16, .ro, (.all 0), .normal, 31⟩, ⟨0, 5, .ro, (.all 0), .normal, 31⟩]⟩,
  ⟨0x300000d100c, [(21, 0x400), (32, 0x20)], .part, .none, [⟨0, 32, .ro, (.all 0), .normal, 31⟩]⟩,
  ⟨0x300000d1010, [(21, 0x400), (32, 0x20)], .part, .none, [⟨0, 32, .ro, (.all 0), .normal, 31⟩]⟩,
  ⟨0x300000d0800, [(21, 0x20)], .part, .none, [⟨16, 16, .ro, (.all 0), .normal, 31⟩, ⟨8, 8, .ro, (.all 0), .normal, 31⟩, ⟨7, 1, .ro, (.all 0), .normal, 31⟩, ⟨0, 3, .ro, (.all 0), .normal, 31⟩]⟩]

/-- A piece of the register table of the hub control space. -/
def hubRows2 : List RegRow := [
  ⟨0x300000d0804, [(21, 0x20)], .part, .none, [⟨0, 32, .ro, (.all 0), .normal, 31⟩]⟩,
  ⟨0x300000d0808, [(21, 0x20)], .part, .none, [⟨16, 16, .rw, (.all 0), .normal, 31⟩, ⟨0, 5, .ro, (.all 0), .normal, 31⟩]⟩,
  ⟨0x300000d080c, [(21, 0x20)], .part, .none, [⟨0, 32, .ro, (.all 0), .normal, 31⟩]⟩,
  ⟨0x300000d0810, [(21, 0x20)], .part, .none, [⟨0, 32, .ro, (.all 0), .normal, 31⟩]⟩,
  ⟨0x30000040000, [], .hub, .none, [⟨22, 1, .ro, (.all 0), .normal, 14⟩, ⟨21, 1, .ro, (.all 0), .normal, 0⟩, ⟨20, 1, .ro, (.all 0), .normal, 0⟩, ⟨19, 1, .ro, (.all 0), .normal, 14⟩, ⟨18, 1, .ro, (.all 0), .normal, 14⟩, ⟨17, 1, .ro, (.all 0), .normal, 14⟩, ⟨8, 8, .ro, (.all 0), .normal, 31⟩, ⟨4, 3, .ro, (.all 0), .normal, 0⟩, ⟨0, 4, .ro, (.all 0), .normal, 0⟩]⟩,
  ⟨0x30000040004, [], .hub, .none, [⟨24, 8, .rw, (.all 0), .normal, 31⟩, ⟨16, 8, .rw, (.all 0), .normal, 31⟩, ⟨8, 8, .rw, (.all 0), .normal, 31⟩, ⟨0, 8, .rw, (.all 0), .normal, 31⟩]⟩,
  ⟨0x30000040008, [], .hub, .none, [⟨16, 2, .ro, (.all 0), .normal, 14⟩, ⟨12, 4, .ro, (.all 0), .normal, 14⟩, ⟨0, 12, .ro, (.all 0), .normal, 14⟩]⟩,
  ⟨0x30000040010, [], .hub, .none, [⟨24, 4, .ro, (.all 0), .image, 14⟩, ⟨16, 8, .ro, (.all 0), .image, 14⟩, ⟨8, 8, .ro, (.all 0), .image, 14⟩, ⟨0, 3, .ro, (.all 0), .image, 14⟩]⟩,
  ⟨0x30000040020, [], .hub, .none, [⟨3, 1, .w1c, (.all 0), .normal, 12⟩, ⟨2, 1, .ro, (.all 0), .normal, 0⟩, ⟨1, 1, .ro, (.all 0), .normal, 0⟩, ⟨0, 1, .w1s, (.all 0), .normal, 0⟩]⟩,
  ⟨0x30000040024, [], .hub, .none, [⟨0, 32, .ro, (.all 0), .normal, 0⟩]⟩,
  ⟨0x30000040030, [], .hub, .none, [⟨6, 1, .w1c, (.all 0), .normal, 12⟩, ⟨5, 1, .w1c, (.all 0), .normal, 12⟩, ⟨4, 1, .w1c, (.all 0), .normal, 12⟩, ⟨3, 1, .w1c, (.all 0), .normal, 12⟩, ⟨2, 1, .w1c, (.all 0), .normal, 12⟩, ⟨1, 1, .w1c, (.all 0), .normal, 12⟩, ⟨0, 1, .w1c, (.all 0), .normal, 12⟩]⟩,
  ⟨0x30000040034, [], .hub, .none, [⟨0, 7, .rw, (.all 0), .normal, 12⟩]⟩,
  ⟨0x30000040040, [(16, 0x4)], .hub, .none, [⟨0, 32, .ro, (.all 0), .normal, 14⟩]⟩,
  ⟨0x30000040100, [(2, 0x8)], .hub, .none, [⟨31, 1, .ro, (.all 0), .fixed, 31⟩, ⟨30, 1, .ro, (.all 0), .normal, 0⟩, ⟨0, 16, .ro, (.all 0), .fixed, 31⟩]⟩,
  ⟨0x30000040104, [(2, 0x8)], .hub, .none, [⟨0, 32, .ro, (.all 0), .fixed, 31⟩]⟩,
  ⟨0x30000040110, [], .hub, .none, [⟨24, 8, .ro, (.all 0xc0), .fixed, 31⟩, ⟨0, 16, .rw, (.all 0), .normal, 31⟩]⟩,
  ⟨0x30000040200, [], .hub, .none, [⟨3, 1, .w1s, (.all 0), .normal, 0⟩, ⟨1, 1, .rw, (.all 0), .normal, 0⟩, ⟨0, 1, .w1s, (.all 0), .normal, 0⟩]⟩,
  ⟨0x30000040204, [], .hub, .none, [⟨31, 1, .ro, (.all 0), .normal, 0⟩, ⟨28, 3, .ro, (.all 0), .normal, 0⟩, ⟨27, 1, .ro, (.all 0), .normal, 14⟩, ⟨16, 8, .ro, (.all 0), .normal, 14⟩, ⟨14, 2, .ro, (.all 0), .normal, 14⟩, ⟨12, 2, .ro, (.all 0), .normal, 14⟩, ⟨9, 3, .ro, (.all 0), .normal, 14⟩, ⟨7, 2, .ro, (.all 0), .normal, 14⟩]⟩,
  ⟨0x30000040208, [], .hub, .none, [⟨0, 32, .rw, (.all 0), .normal, 0⟩]⟩,
  ⟨0x3000004020c, [], .hub, .none, [⟨0, 20, .rw, (.all 0), .normal, 0⟩]⟩]

/-- A piece of the register table of the hub control space. -/
def hubRows3 : List RegRow := [
  ⟨0x30000040210, [], .hub, .none, [⟨0, 32, .rw, (.all 0), .normal, 0⟩]⟩,
  ⟨0x30000040240, [], .hub, .none, [⟨1, 1, .rw, (.all 0), .normal, 12⟩, ⟨0, 1, .w1s, (.all 0), .normal, 0⟩]⟩,
  ⟨0x30000040244, [], .hub, .none, [⟨31, 1, .ro, (.all 0), .normal, 0⟩, ⟨30, 1, .ro, (.all 0), .normal, 12⟩, ⟨8, 8, .ro, (.all 0), .normal, 12⟩, ⟨0, 8, .ro, (.all 0), .normal, 12⟩]⟩,
  ⟨0x30000040248, [], .hub, .none, [⟨0, 32, .ro, (.all 0), .normal, 12⟩]⟩,
  ⟨0x3000004024c, [], .hub, .none, [⟨0, 32, .ro, (.all 0), .normal, 12⟩]⟩,
  ⟨0x30000040250, [(4, 0x4)], .die, .none, [⟨0, 32, .rw, (.all 0), .normal, 12⟩]⟩,
  ⟨0x30000040260, [(4, 0x4)], .die, .none, [⟨0, 32, .ro, (.all 0), .normal, 12⟩]⟩,
  ⟨0x30000040270, [(4, 0x4)], .die, .none, [⟨0, 32, .ro, (.all 0), .normal, 12⟩]⟩,
  ⟨0x30000040280, [], .hub, .none, [⟨2, 1, .w1s, (.all 0), .normal, 0⟩, ⟨1, 1, .rw, (.all 0), .normal, 0⟩, ⟨0, 1, .w1s, (.all 0), .normal, 0⟩]⟩,
  ⟨0x30000040284, [], .hub, .none, [⟨31, 1, .ro, (.all 0), .normal, 0⟩, ⟨30, 1, .w1c, (.all 0), .normal, 12⟩, ⟨29, 1, .w1c, (.all 0), .normal, 12⟩, ⟨28, 1, .w1c, (.all 0), .normal, 12⟩, ⟨0, 16, .ro, (.all 0), .normal, 12⟩]⟩,
  ⟨0x30000040288, [], .hub, .none, [⟨30, 2, .rw, (.all 0), .normal, 0⟩, ⟨25, 5, .rw, (.all 0), .normal, 0⟩, ⟨11, 14, .rw, (.all 0), .normal, 0⟩]⟩,
  ⟨0x3000004028c, [], .hub, .none, [⟨0, 14, .rw, (.all 0), .normal, 0⟩]⟩,
  ⟨0x30000040290, [], .hub, .none, [⟨0, 32, .rw, (.all 0), .normal, 0⟩]⟩,
  ⟨0x30000040294, [], .hub, .none, [⟨0, 20, .rw, (.all 0), .normal, 0⟩]⟩,
  ⟨0x30000040300, [(16, 0x4)], .hub, .none, [⟨0, 32, .ro, (.all 0), .normal, 14⟩]⟩,
  ⟨0x30000060000, [], .hub, .none, [⟨6, 1, .w1c, (.all 0), .normal, 12⟩, ⟨5, 1, .w1c, (.all 0), .normal, 12⟩, ⟨4, 1, .w1c, (.all 0), .normal, 12⟩, ⟨3, 1, .w1c, (.all 0), .normal, 12⟩, ⟨2, 1, .w1c, (.all 0), .normal, 12⟩, ⟨1, 1, .w1c, (.all 0), .normal, 12⟩, ⟨0, 1, .w1c, (.all 0), .normal, 12⟩]⟩,
  ⟨0x30000060004, [], .hub, .none, [⟨1, 6, .rw, (.all 0), .normal, 12⟩, ⟨0, 1, .rw, (.all 0), .normal, 12⟩]⟩,
  ⟨0x30000060010, [], .hub, .none, [⟨16, 16, .ro, (.all 0), .normal, 13⟩, ⟨8, 8, .ro, (.all 0), .normal, 13⟩, ⟨0, 8, .ro, (.all 0), .normal, 13⟩]⟩,
  ⟨0x30000060014, [], .hub, .none, [⟨16, 16, .rw, (.all 0), .normal, 13⟩, ⟨0, 16, .ro, (.all 0), .normal, 13⟩]⟩,
  ⟨0x30000060018, [], .hub, .none, [⟨0, 32, .ro, (.all 0), .normal, 13⟩]⟩]

/-- A piece of the register table of the hub control space. -/
def hubRows4 : List RegRow := [
  ⟨0x3000006001c, [], .hub, .none, [⟨0, 32, .ro, (.all 0), .normal, 13⟩]⟩,
  ⟨0x30000060020, [], .hub, .none, [⟨16, 16, .rw, (.all 0x3e8), .normal, 13⟩, ⟨0, 16, .rw, (.all 0x64), .normal, 13⟩]⟩,
  ⟨0x30000060030, [], .hub, .none, [⟨0, 32, .rw, (.all 0), .normal, 13⟩]⟩,
  ⟨0x30000060100, [], .hub, .none, [⟨3, 5, .rw, (.all 0), .normal, 12⟩, ⟨2, 1, .rw, (.all 0), .normal, 12⟩, ⟨1, 1, .rw, (.all 0), .normal, 12⟩, ⟨0, 1, .rw, (.all 0), .normal, 12⟩]⟩,
  ⟨0x30000060108, [], .hub, .none, [⟨0, 32, .rw, (.all 0), .normal, 12⟩]⟩,
  ⟨0x3000006010c, [], .hub, .none, [⟨0, 20, .rw, (.all 0), .normal, 12⟩]⟩,
  ⟨0x30000060110, [], .hub, .none, [⟨0, 32, .rw, (.all 0), .normal, 12⟩]⟩,
  ⟨0x30000060114, [], .hub, .none, [⟨31, 1, .ro, (.all 0), .normal, 4⟩, ⟨0, 31, .ro, (.all 0), .normal, 4⟩]⟩,
  ⟨0x30000061000, [(32, 0x40)], .probe, .none, [⟨31, 1, .rw, (.all 0), .normal, 12⟩, ⟨30, 1, .rw, (.all 0), .normal, 12⟩, ⟨28, 2, .rw, (.all 0), .normal, 12⟩, ⟨3, 16, .rw, (.all 0), .normal, 12⟩, ⟨0, 3, .rw, (.all 0), .normal, 12⟩]⟩,
  ⟨0x30000061004, [(32, 0x40)], .probe, .none, [⟨27, 5, .rw, (.all 0), .normal, 12⟩, ⟨24, 3, .rw, (.all 0), .normal, 12⟩, ⟨23, 1, .rw, (.all 0), .normal, 12⟩, ⟨18, 5, .rw, (.all 0), .normal, 12⟩, ⟨15, 3, .rw, (.all 0), .normal, 12⟩, ⟨14, 1, .rw, (.all 0), .normal, 12⟩, ⟨10, 4, .rw, (.all 0xf), .normal, 12⟩, ⟨5, 5, .rw, (.all 0), .normal, 12⟩, ⟨4, 1, .rw, (.all 0), .normal, 12⟩]⟩,
  ⟨0x30000061008, [(32, 0x40)], .probe, .none, [⟨0, 32, .rw, (.all 0), .normal, 12⟩]⟩,
  ⟨0x3000006100c, [(32, 0x40)], .probe, .none, [⟨0, 20, .rw, (.all 0), .normal, 12⟩]⟩,
  ⟨0x30000061010, [(32, 0x40)], .probe, .none, [⟨0, 32, .rw, (.all 0), .normal, 12⟩]⟩,
  ⟨0x30000061014, [(32, 0x40)], .probe, .none, [⟨31, 1, .rw, (.all 0), .normal, 12⟩, ⟨0, 20, .rw, (.all 0), .normal, 12⟩]⟩,
  ⟨0x30000061018, [(32, 0x40)], .probe, .none, [⟨0, 32, .rw, (.all 0), .normal, 4⟩]⟩,
  ⟨0x3000006101c, [(32, 0x40)], .probe, .none, [⟨0, 16, .rw, (.all 0), .normal, 4⟩]⟩,
  ⟨0x30000061020, [(32, 0x40)], .probe, .none, [⟨0, 16, .rw, (.all 0), .normal, 4⟩]⟩,
  ⟨0x30000064000, [(256, 0x8)], .hub, .none, [⟨31, 1, .ro, (.all 0), .image, 14⟩, ⟨0, 28, .ro, (.all 0), .image, 14⟩]⟩,
  ⟨0x30000064004, [(256, 0x8)], .hub, .none, [⟨30, 2, .ro, (.all 0), .image, 14⟩, ⟨8, 5, .ro, (.all 0), .image, 14⟩, ⟨0, 5, .ro, (.all 0), .image, 14⟩]⟩,
  ⟨0x300000b8000, [(4, 0x1000)], .hub, .none, [⟨1, 1, .w1s, (.all 0), .normal, 0⟩, ⟨0, 1, .rw, (.all 0), .normal, 12⟩]⟩]

/-- A piece of the register table of the hub control space. -/
def hubRows5 : List RegRow := [
  ⟨0x300000b8004, [(4, 0x1000)], .hub, .none, [⟨24, 8, .ro, (.all 0), .normal, 12⟩, ⟨16, 8, .ro, (.all 0), .normal, 0⟩, ⟨5, 1, .ro, (.all 0), .normal, 0⟩, ⟨4, 1, .ro, (.all 0), .normal, 0⟩, ⟨0, 3, .ro, (.all 0), .normal, 0⟩]⟩,
  ⟨0x300000b8008, [(4, 0x1000)], .hub, .none, [⟨2, 30, .rw, (.all 0), .normal, 12⟩]⟩,
  ⟨0x300000b8010, [(4, 0x1000)], .hub, .none, [⟨0, 32, .w1c, (.all 0), .normal, 12⟩]⟩,
  ⟨0x300000b8014, [(4, 0x1000)], .hub, .none, [⟨0, 16, .w1s, (.all 0), .normal, 0⟩]⟩,
  ⟨0x300000b8020, [(4, 0x1000)], .hub, .none, [⟨0, 32, .rw, (.all 0), .normal, 12⟩]⟩,
  ⟨0x300000b8024, [(4, 0x1000)], .hub, .none, [⟨0, 32, .ro, (.all 0), .normal, 12⟩]⟩,
  ⟨0x300000b8028, [(4, 0x1000)], .hub, .none, [⟨0, 8, .wo, (.all 0), .normal, 0⟩]⟩,
  ⟨0x300000b8030, [(4, 0x1000)], .hub, .none, [⟨0, 32, .rw, (.all 0), .normal, 12⟩]⟩,
  ⟨0x300000b8034, [(4, 0x1000)], .hub, .none, [⟨0, 32, .rw, (.all 0), .normal, 12⟩]⟩,
  ⟨0x300000b8040, [(4, 0x1000)], .hub, .none, [⟨28, 4, .rw, (.all 0), .normal, 12⟩, ⟨24, 4, .rw, (.all 0), .normal, 12⟩, ⟨0, 16, .rw, (.all 0), .normal, 12⟩]⟩,
  ⟨0x300000b8044, [(4, 0x1000)], .hub, .none, [⟨21, 11, .rw, (.all 0), .normal, 12⟩]⟩,
  ⟨0x300000b8048, [(4, 0x1000)], .hub, .none, [⟨0, 20, .rw, (.all 0), .normal, 12⟩]⟩,
  ⟨0x300000b8050, [(4, 0x1000)], .hub, .none, [⟨0, 32, .ro, (.all 0), .normal, 12⟩]⟩,
  ⟨0x300000b8054, [(4, 0x1000)], .hub, .none, [⟨16, 16, .rw, (.all 0), .normal, 12⟩, ⟨0, 2, .ro, (.all 0), .normal, 12⟩]⟩,
  ⟨0x300000b80f0, [(4, 0x1000)], .hub, .none, [⟨0, 1, .w1s, (.all 0), .normal, 30⟩]⟩,
  ⟨0x300000b8100, [(4, 0x1000), (16, 0x10)], .hub, .none, [⟨12, 20, .rwl, (.all 0), .normal, 30⟩]⟩,
  ⟨0x300000b8104, [(4, 0x1000), (16, 0x10)], .hub, .none, [⟨12, 20, .rwl, (.all 0), .normal, 30⟩]⟩,
  ⟨0x300000b8108, [(4, 0x1000), (16, 0x10)], .hub, .none, [⟨31, 1, .rwl, (.all 0), .normal, 30⟩, ⟨16, 8, .rwl, (.all 0), .normal, 30⟩, ⟨8, 8, .rwl, (.all 0), .normal, 30⟩, ⟨2, 1, .rwl, (.all 0), .normal, 30⟩, ⟨1, 1, .rwl, (.all 0), .normal, 30⟩, ⟨0, 1, .rwl, (.all 0), .normal, 30⟩]⟩,
  ⟨0x30000050000, [], .hub, .none, [⟨3, 1, .ro, (.all 0), .normal, 31⟩, ⟨2, 1, .ro, (.all 0), .normal, 30⟩, ⟨1, 1, .ro, (.all 0), .normal, 0⟩, ⟨0, 1, .ro, (.all 0), .normal, 30⟩]⟩,
  ⟨0x30000050004, [], .hub, .none, [⟨6, 1, .w1c, (.all 0), .normal, 12⟩, ⟨5, 1, .w1c, (.all 0), .normal, 12⟩, ⟨4, 1, .w1c, (.all 0), .normal, 12⟩, ⟨3, 1, .w1c, (.all 0), .normal, 12⟩, ⟨2, 1, .w1c, (.all 0), .normal, 12⟩, ⟨1, 1, .w1c, (.all 0), .normal, 12⟩, ⟨0, 1, .w1c, (.all 0), .normal, 12⟩]⟩]

/-- A piece of the register table of the hub control space. -/
def hubRows6 : List RegRow := [
  ⟨0x30000050008, [], .hub, .none, [⟨0, 7, .rw, (.all 0), .normal, 12⟩]⟩,
  ⟨0x30000050018, [], .hub, .none, [⟨0, 5, .rwl, (.all 0), .normal, 30⟩]⟩,
  ⟨0x30000050010, [], .hub, .none, [⟨3, 1, .w1s, (.all 0), .normal, 30⟩, ⟨2, 1, .w1s, (.all 0), .normal, 30⟩, ⟨1, 1, .w1s, (.all 0), .normal, 30⟩, ⟨0, 1, .w1s, (.all 0), .normal, 30⟩]⟩,
  ⟨0x30000050014, [], .hub, .none, [⟨16, 16, .ro, (.all 0), .normal, 30⟩, ⟨0, 1, .rwl, (.all 0), .normal, 30⟩]⟩,
  ⟨0x30000050020, [], .none, .none, [⟨28, 4, .ro, (.all 0), .normal, 31⟩, ⟨24, 4, .ro, (.all 0), .normal, 31⟩, ⟨0, 8, .ro, (.all 0), .normal, 31⟩]⟩,
  ⟨0x30000050024, [], .none, .none, [⟨0, 27, .ro, (.all 0), .normal, 31⟩]⟩,
  ⟨0x30000050028, [], .none, .none, [⟨0, 32, .ro, (.all 0), .normal, 31⟩]⟩,
  ⟨0x3000005002c, [], .none, .none, [⟨0, 32, .ro, (.all 0), .normal, 31⟩]⟩,
  ⟨0x30000050030, [], .none, .none, [⟨0, 32, .ro, (.all 1), .fixed, 31⟩]⟩,
  ⟨0x30000050034, [], .none, .none, [⟨0, 32, .ro, (.all 0), .fixed, 31⟩]⟩,
  ⟨0x30000050040, [], .hub, .none, [⟨19, 1, .rwl, (.all 1), .normal, 30⟩, ⟨18, 1, .rwl, (.all 1), .normal, 30⟩, ⟨17, 1, .rwl, (.all 1), .normal, 30⟩, ⟨16, 1, .rwl, (.all 1), .normal, 30⟩, ⟨0, 16, .rwl, (.all 0xffff), .normal, 30⟩]⟩,
  ⟨0x30000050100, [(4, 0x4)], .none, .none, [⟨1, 1, .ro, (.all 0), .fixed, 31⟩, ⟨0, 1, .ro, (.all 0), .fixed, 31⟩]⟩,
  ⟨0x30000050110, [], .hub, .none, [⟨0, 1, .w1s, (.all 0), .normal, 0⟩]⟩,
  ⟨0x30000050114, [], .hub, .none, [⟨31, 1, .ro, (.all 0), .normal, 0⟩, ⟨0, 4, .ro, (.all 0), .normal, 12⟩]⟩,
  ⟨0x30000050200, [(16, 0x4)], .hub, .none, [⟨10, 1, .w1s, (.all 0), .normal, 0⟩, ⟨9, 1, .w1s, (.all 0), .normal, 0⟩, ⟨8, 1, .w1s, (.all 0), .normal, 0⟩, ⟨0, 3, .ro, (.all 0), .normal, 30⟩]⟩,
  ⟨0x30000050280, [(16, 0x4)], .hub, .none, [⟨0, 32, .wo, (.all 0), .normal, 0⟩]⟩,
  ⟨0x30000050400, [(12, 0x10)], .hub, .none, [⟨0, 32, .rwl, (.all 0xfffff), .normal, 30⟩]⟩,
  ⟨0x30000050404, [(12, 0x10)], .hub, .none, [⟨0, 32, .rwl, (.all 0xffffd), .normal, 30⟩]⟩,
  ⟨0x30000050408, [(12, 0x10)], .hub, .none, [⟨0, 16, .rwl, (.all 0xffff), .normal, 30⟩]⟩,
  ⟨0x30000000100, [], .hub, .none, [⟨28, 1, .ro, (.all 0), .normal, 0⟩, ⟨27, 1, .ro, (.all 0), .normal, 0⟩, ⟨26, 1, .ro, (.all 0), .normal, 0⟩, ⟨25, 1, .ro, (.all 0), .normal, 0⟩, ⟨24, 1, .ro, (.all 0), .normal, 0⟩, ⟨23, 1, .ro, (.all 0), .normal, 0⟩, ⟨22, 1, .ro, (.all 0), .normal, 0⟩, ⟨21, 1, .ro, (.all 0), .normal, 0⟩, ⟨20, 1, .ro, (.all 0), .normal, 0⟩, ⟨4, 16, .ro, (.all 0), .normal, 0⟩, ⟨0, 4, .ro, (.all 0), .normal, 0⟩]⟩]

/-- A piece of the register table of the hub control space. -/
def hubRows7 : List RegRow := [
  ⟨0x30000000104, [], .summaryBits, .none, [⟨0, 29, .rw, (.all 0x1fffffff), .normal, 12⟩]⟩,
  ⟨0x300000a0000, [(4, 0x4)], .part, .none, [⟨0, 32, .ro, (.all 0), .normal, 0⟩]⟩,
  ⟨0x300000a0010, [(16, 0x4)], .chanIdx, .none, [⟨0, 1, .ro, (.all 0), .normal, 0⟩]⟩,
  ⟨0x300000a0050, [], .hub, .none, [⟨8, 1, .ro, (.all 0), .normal, 0⟩, ⟨0, 4, .w1c, (.all 0), .normal, 12⟩]⟩,
  ⟨0x300000a0080, [(21, 0x4)], .part, .none, [⟨0, 32, .rw, (.all 0), .normal, 12⟩]⟩,
  ⟨0x300000a0100, [(29, 0x4)], .summary, .none, [⟨8, 2, .rw, (.all 1), .normal, 12⟩, ⟨0, 6, .rw, (.byIndex [0, 1, 2, 3, 4, 5, 6, 7, 8, 9, 10, 11, 12, 13, 14, 15, 16, 17, 18, 19, 20, 21, 22, 23, 24, 25, 26, 27, 28]), .normal, 12⟩]⟩,
  ⟨0x30000080000, [(2, 0x100)], .hub, .idx, [⟨30, 2, .ro, (.all 0), .image, 14⟩, ⟨20, 4, .ro, (.all 0), .normal, 0⟩, ⟨19, 1, .ro, (.all 0), .normal, 0⟩, ⟨18, 1, .ro, (.all 0), .normal, 0⟩, ⟨17, 1, .ro, (.all 0), .normal, 0⟩, ⟨16, 1, .ro, (.all 0), .normal, 0⟩, ⟨8, 8, .ro, (.all 0), .normal, 0⟩, ⟨0, 4, .ro, (.all 0), .normal, 0⟩]⟩,
  ⟨0x30000080004, [(2, 0x100)], .hub, .idx, [⟨7, 1, .w1c, (.all 0), .normal, 8⟩, ⟨6, 1, .w1c, (.all 0), .normal, 8⟩, ⟨5, 1, .w1c, (.all 0), .normal, 8⟩, ⟨4, 1, .w1c, (.all 0), .normal, 8⟩, ⟨3, 1, .w1c, (.all 0), .normal, 8⟩, ⟨2, 1, .w1c, (.all 0), .normal, 8⟩, ⟨1, 1, .w1c, (.all 0), .normal, 8⟩, ⟨0, 1, .w1c, (.all 0), .normal, 8⟩]⟩,
  ⟨0x30000080008, [(2, 0x100)], .hub, .idx, [⟨0, 8, .rw, (.all 0), .normal, 12⟩]⟩,
  ⟨0x30000080010, [(2, 0x100)], .hub, .idx, [⟨31, 1, .rw, (.all 0), .normal, 12⟩, ⟨0, 24, .rw, (.all 0), .normal, 12⟩]⟩,
  ⟨0x30000080200, [], .hub, .none, [⟨16, 16, .rw, (.all 0x64), .normal, 12⟩, ⟨0, 16, .rw, (.all 0xa), .normal, 12⟩]⟩,
  ⟨0x30000080204, [], .hub, .none, [⟨13, 19, .ro, (.all 0), .normal, 0⟩, ⟨0, 13, .ro, (.all 0), .normal, 0⟩]⟩,
  ⟨0x30000080400, [(8, 0x8)], .hub, .none, [⟨31, 1, .rw, (.all 0), .normal, 12⟩, ⟨28, 3, .rw, (.all 0), .normal, 12⟩, ⟨24, 3, .rw, (.all 0), .normal, 12⟩, ⟨16, 4, .rw, (.all 0), .normal, 12⟩, ⟨0, 8, .rw, (.all 0), .normal, 12⟩]⟩,
  ⟨0x30000080404, [(8, 0x8)], .hub, .none, [⟨0, 9, .rw, (.all 0), .normal, 12⟩]⟩,
  ⟨0x30000080800, [(16, 0x40)], .chanIdx, .none, [⟨5, 19, .rw, (.all 0), .normal, 12⟩]⟩,
  ⟨0x30000080804, [(16, 0x40)], .chanIdx, .none, [⟨12, 4, .rw, (.all 0), .normal, 12⟩, ⟨8, 2, .rw, (.all 0), .normal, 12⟩, ⟨0, 4, .rw, (.all 4), .normal, 12⟩]⟩,
  ⟨0x30000080808, [(16, 0x40)], .chanIdx, .none, [⟨0, 10, .ro, (.all 0), .normal, 12⟩]⟩,
  ⟨0x3000008080c, [(16, 0x40)], .chanIdx, .none, [⟨0, 10, .rw, (.all 0), .normal, 12⟩]⟩,
  ⟨0x30000080810, [(16, 0x40)], .chanIdx, .none, [⟨5, 19, .rw, (.all 0), .normal, 12⟩]⟩,
  ⟨0x30000080814, [(16, 0x40)], .chanIdx, .none, [⟨0, 4, .rw, (.all 4), .normal, 12⟩]⟩]

/-- A piece of the register table of the hub control space. -/
def hubRows8 : List RegRow := [
  ⟨0x30000080818, [(16, 0x40)], .chanIdx, .none, [⟨0, 10, .rw, (.all 0), .normal, 12⟩]⟩,
  ⟨0x3000008081c, [(16, 0x40)], .chanIdx, .none, [⟨0, 10, .ro, (.all 0), .normal, 12⟩]⟩,
  ⟨0x30000080820, [(16, 0x40)], .chanIdx, .none, [⟨0, 32, .rw, (.all 0), .normal, 12⟩]⟩,
  ⟨0x30000080c00, [(64, 0x4)], .hub, .none, [⟨31, 1, .rw, (.all 0), .normal, 12⟩, ⟨0, 4, .rw, (.all 0), .normal, 12⟩]⟩,
  ⟨0x30000090000, [], .hub, .none, [⟨0, 1, .w1s, (.all 0), .normal, 30⟩]⟩,
  ⟨0x30000090010, [(2, 0x4)], .hub, .none, [⟨0, 32, .w1c, (.all 0), .normal, 12⟩]⟩,
  ⟨0x30000090018, [(2, 0x4)], .hub, .none, [⟨0, 32, .rw, (.all 0), .normal, 12⟩]⟩,
  ⟨0x30000091000, [(64, 0x40)], .hub, .none, [⟨0, 32, .rw, (.all 0), .normal, 12⟩]⟩,
  ⟨0x30000091004, [(64, 0x40)], .hub, .none, [⟨0, 20, .rw, (.all 0), .normal, 12⟩]⟩,
  ⟨0x30000091008, [(64, 0x40)], .hub, .none, [⟨0, 32, .rw, (.all 0), .normal, 12⟩]⟩,
  ⟨0x3000009100c, [(64, 0x40)], .hub, .none, [⟨0, 20, .rw, (.all 0), .normal, 12⟩]⟩,
  ⟨0x30000091010, [(64, 0x40)], .hub, .none, [⟨0, 14, .rw, (.all 0), .normal, 12⟩]⟩,
  ⟨0x30000091014, [(64, 0x40)], .hub, .none, [⟨0, 32, .rwl, (.all 0), .normal, 30⟩]⟩,
  ⟨0x30000091018, [(64, 0x40)], .hub, .none, [⟨30, 2, .rwl, (.all 3), .normal, 30⟩, ⟨16, 2, .rw, (.all 1), .normal, 12⟩, ⟨8, 6, .rw, (.all 0), .normal, 12⟩, ⟨1, 1, .rw, (.all 0), .normal, 12⟩, ⟨0, 1, .rw, (.all 0), .normal, 12⟩]⟩,
  ⟨0x3000009101c, [(64, 0x40)], .hub, .none, [⟨0, 16, .wo, (.all 0), .normal, 0⟩]⟩,
  ⟨0x30000091020, [(64, 0x40)], .hub, .none, [⟨16, 16, .ro, (.all 0), .normal, 12⟩, ⟨8, 8, .ro, (.all 0), .normal, 12⟩, ⟨6, 1, .w1c, (.all 0), .normal, 12⟩, ⟨5, 1, .w1c, (.all 0), .normal, 12⟩, ⟨0, 4, .ro, (.all 0), .normal, 12⟩]⟩,
  ⟨0x30000091024, [(64, 0x40)], .hub, .none, [⟨0, 32, .ro, (.all 0), .normal, 12⟩]⟩,
  ⟨0x30000091028, [(64, 0x40)], .hub, .none, [⟨0, 24, .rw, (.all 0), .normal, 12⟩]⟩,
  ⟨0x3000009102c, [(64, 0x40)], .hub, .none, [⟨0, 1, .w1s, (.all 0), .normal, 0⟩]⟩,
  ⟨0x30000091030, [(64, 0x40)], .hub, .none, [⟨0, 32, .rw, (.all 0), .normal, 12⟩]⟩]

/-- A piece of the register table of the hub control space. -/
def hubRows9 : List RegRow := [
  ⟨0x30000091034, [(64, 0x40)], .hub, .none, [⟨0, 20, .rw, (.all 0), .normal, 12⟩]⟩,
  ⟨0x30000070000, [], .hub, .none, [⟨3, 1, .w1c, (.all 0), .normal, 12⟩, ⟨2, 1, .w1c, (.all 0), .normal, 12⟩, ⟨1, 1, .w1c, (.all 0), .normal, 12⟩, ⟨0, 1, .w1c, (.all 0), .normal, 12⟩]⟩,
  ⟨0x30000070004, [], .hub, .none, [⟨0, 4, .rw, (.all 1), .normal, 12⟩]⟩,
  ⟨0x30000070008, [], .hub, .none, [⟨31, 1, .ro, (.all 0), .normal, 0⟩, ⟨30, 1, .ro, (.all 0), .normal, 0⟩, ⟨24, 4, .ro, (.all 0), .normal, 0⟩, ⟨0, 16, .ro, (.all 0), .normal, 0⟩]⟩,
  ⟨0x3000007000c, [], .hub, .none, [⟨16, 16, .rw, (.all 0x32), .normal, 12⟩, ⟨0, 8, .rw, (.all 0x64), .normal, 12⟩]⟩,
  ⟨0x30000070010, [(2, 0x4)], .hub, .idx, [⟨16, 16, .ro, (.all 0), .normal, 0⟩, ⟨0, 16, .ro, (.all 0), .normal, 0⟩]⟩,
  ⟨0x30000070018, [(2, 0x4)], .hub, .idx, [⟨0, 16, .ro, (.all 0x8000), .normal, 0⟩]⟩,
  ⟨0x30000070020, [(2, 0x8)], .hub, .idx, [⟨0, 32, .ro, (.all 0), .normal, 8⟩]⟩,
  ⟨0x30000070024, [(2, 0x8)], .hub, .idx, [⟨0, 32, .ro, (.all 0), .normal, 8⟩]⟩,
  ⟨0x30000070030, [], .hub, .none, [⟨16, 16, .rw, (.all 0), .normal, 13⟩, ⟨0, 16, .rw, (.all 0), .normal, 13⟩]⟩,
  ⟨0x30000070040, [], .hub, .none, [⟨16, 16, .ro, (.all 0), .normal, 13⟩, ⟨12, 4, .ro, (.all 0), .normal, 13⟩, ⟨0, 2, .ro, (.all 0), .normal, 13⟩]⟩,
  ⟨0x30000070044, [], .hub, .none, [⟨16, 16, .ro, (.all 0), .normal, 13⟩, ⟨0, 16, .ro, (.all 0), .normal, 13⟩]⟩,
  ⟨0x30000070048, [], .hub, .none, [⟨16, 16, .ro, (.all 0), .normal, 13⟩]⟩,
  ⟨0x3000007004c, [], .hub, .none, [⟨0, 32, .ro, (.all 0), .normal, 13⟩]⟩,
  ⟨0x30000070050, [], .hub, .none, [⟨0, 32, .ro, (.all 0), .normal, 13⟩]⟩,
  ⟨0x30000070054, [], .hub, .none, [⟨0, 32, .ro, (.all 0), .normal, 13⟩]⟩,
  ⟨0x30000070100, [], .hub, .none, [⟨17, 1, .rw, (.all 0), .normal, 12⟩, ⟨16, 1, .rw, (.all 0), .normal, 12⟩, ⟨0, 14, .rw, (.all 0), .normal, 12⟩]⟩,
  ⟨0x30000070120, [(8, 0x4)], .hub, .none, [⟨0, 32, .ro, (.all 0), .normal, 0⟩]⟩,
  ⟨0x30000030000, [], .hub, .none, [⟨9, 1, .w1c, (.all 0), .normal, 28⟩, ⟨8, 1, .w1c, (.all 0), .normal, 28⟩, ⟨7, 1, .w1c, (.all 0), .normal, 28⟩, ⟨6, 1, .w1c, (.all 0), .normal, 28⟩, ⟨5, 1, .w1c, (.all 0), .normal, 28⟩, ⟨4, 1, .w1c, (.all 0), .normal, 28⟩, ⟨3, 1, .w1c, (.all 0), .normal, 28⟩, ⟨2, 1, .w1c, (.all 0), .normal, 28⟩, ⟨1, 1, .w1c, (.all 0), .normal, 28⟩, ⟨0, 1, .w1c, (.all 0), .normal, 28⟩]⟩,
  ⟨0x30000030004, [], .hub, .none, [⟨0, 10, .rw, (.all 0), .normal, 28⟩]⟩]

/-- A piece of the register table of the hub control space. -/
def hubRows10 : List RegRow := [
  ⟨0x30000030010, [], .hub, .none, [⟨16, 16, .ro, (.all 0x12c), .normal, 0⟩, ⟨5, 1, .ro, (.all 0), .normal, 0⟩, ⟨4, 1, .ro, (.all 0), .normal, 0⟩, ⟨0, 2, .rw, (.all 1), .normal, 28⟩]⟩,
  ⟨0x30000030014, [], .hub, .none, [⟨24, 8, .rw, (.all 0xa), .normal, 28⟩, ⟨16, 8, .rw, (.all 8), .normal, 28⟩, ⟨8, 8, .rw, (.all 0x40), .normal, 28⟩, ⟨4, 4, .rw, (.all 1), .normal, 28⟩]⟩,
  ⟨0x30000030018, [], .hub, .none, [⟨24, 8, .ro, (.all 0), .normal, 0⟩, ⟨8, 8, .rw, (.all 0x5f), .normal, 28⟩]⟩,
  ⟨0x30000030020, [], .hub, .none, [⟨0, 32, .ro, (.all 0), .normal, 0⟩]⟩,
  ⟨0x30000030030, [], .hub, .none, [⟨24, 8, .rw, (.all 0xa), .normal, 28⟩, ⟨0, 8, .rw, (.all 1), .normal, 28⟩]⟩,
  ⟨0x30000030040, [(21, 0x4)], .hub, .none, [⟨31, 1, .rw, (.all 0), .normal, 28⟩, ⟨8, 7, .rw, (.all 0), .normal, 28⟩, ⟨0, 8, .rw, (.all 0), .normal, 28⟩]⟩,
  ⟨0x30000030100, [], .hub, .none, [⟨28, 4, .ro, (.all 0), .normal, 28⟩, ⟨16, 8, .ro, (.all 0), .normal, 28⟩, ⟨8, 5, .rw, (.all 0x1f), .normal, 28⟩, ⟨1, 1, .rw, (.all 0), .normal, 28⟩, ⟨0, 1, .w1s, (.all 0), .normal, 0⟩]⟩,
  ⟨0x30000030108, [], .hub, .none, [⟨0, 32, .rw, (.all 0), .normal, 28⟩]⟩,
  ⟨0x3000003010c, [], .hub, .none, [⟨0, 32, .rw, (.all 0), .normal, 28⟩]⟩,
  ⟨0x30000030200, [(20, 0x10)], .part, .none, [⟨24, 8, .rw, (.all 0), .normal, 28⟩, ⟨16, 8, .rw, (.all 0x10), .normal, 28⟩, ⟨8, 8, .rw, (.byIndex [32, 32, 32, 32, 8, 8, 8, 8, 8, 8, 8, 8, 8, 8, 8, 8, 8, 8, 8, 8]), .normal, 28⟩, ⟨4, 1, .rw, (.all 0), .normal, 12⟩, ⟨0, 3, .rw, (.all 5), .normal, 28⟩]⟩,
  ⟨0x30000030204, [(20, 0x10)], .part, .none, [⟨24, 8, .ro, (.all 0xff), .normal, 0⟩, ⟨16, 8, .ro, (.all 0xff), .normal, 0⟩, ⟨12, 1, .ro, (.all 0), .normal, 0⟩, ⟨11, 1, .w1c, (.all 0), .normal, 12⟩, ⟨10, 1, .w1c, (.all 0), .normal, 12⟩, ⟨7, 3, .ro, (.all 5), .normal, 12⟩, ⟨0, 4, .ro, (.all 0), .normal, 0⟩]⟩,
  ⟨0x30000030208, [(20, 0x10)], .part, .none, [⟨0, 32, .ro, (.all 0), .normal, 0⟩]⟩,
  ⟨0x3000003020c, [(20, 0x10)], .part, .none, [⟨0, 32, .ro, (.all 0), .normal, 12⟩]⟩,
  ⟨0x30000030400, [(6, 0x4)], .none, .none, [⟨16, 16, .ro, (.byIndex [720, 740, 760, 790, 820, 850]), .fixed, 31⟩, ⟨0, 8, .ro, (.byIndex [55, 64, 72, 82, 92, 100]), .fixed, 31⟩]⟩,
  ⟨0x30000030420, [(6, 0x4)], .none, .none, [⟨16, 16, .ro, (.byIndex [700, 730, 760, 790, 820, 850]), .fixed, 31⟩, ⟨0, 8, .ro, (.byIndex [40, 53, 67, 80, 90, 100]), .fixed, 31⟩]⟩,
  ⟨0x300000b0000, [], .none, .none, [⟨31, 1, .ro, (.all 0), .fixed, 0⟩, ⟨16, 4, .ro, (.all 0xf), .normal, 0⟩, ⟨2, 1, .ro, (.all 0), .normal, 0⟩, ⟨1, 1, .ro, (.all 0), .normal, 0⟩, ⟨0, 1, .ro, (.all 0), .normal, 0⟩]⟩,
  ⟨0x300000b0004, [], .none, .none, [⟨24, 8, .wo, (.all 0), .normal, 0⟩, ⟨8, 5, .wo, (.all 0), .normal, 0⟩, ⟨0, 3, .wo, (.all 0), .normal, 0⟩]⟩,
  ⟨0x300000b0008, [], .none, .none, [⟨2, 1, .rw, (.all 0), .por, 31⟩, ⟨1, 1, .rw, (.all 0), .por, 31⟩, ⟨0, 1, .rw, (.all 0), .por, 31⟩]⟩,
  ⟨0x300000b0010, [], .none, .none, [⟨16, 4, .w1s, (.all 0), .normal, 0⟩, ⟨0, 16, .w1s, (.all 0), .normal, 0⟩]⟩,
  ⟨0x300000b0014, [], .none, .none, [⟨16, 4, .w1s, (.all 0), .normal, 0⟩, ⟨0, 16, .w1s, (.all 0), .normal, 0⟩]⟩]

/-- A piece of the register table of the hub control space. -/
def hubRows11 : List RegRow := [
  ⟨0x300000b0020, [(4, 0x4)], .die, .none, [⟨0, 32, .rw, (.all 0), .normal, 0⟩]⟩,
  ⟨0x300000b0030, [], .none, .none, [⟨30, 2, .wo, (.all 0), .normal, 0⟩, ⟨25, 5, .wo, (.all 0), .normal, 0⟩, ⟨0, 8, .wo, (.all 0), .normal, 0⟩]⟩,
  ⟨0x300000b0100, [(2, 0x20)], .none, .none, [⟨0, 32, .rw, (.all 0), .por, 0⟩]⟩,
  ⟨0x300000b0104, [(2, 0x20)], .none, .none, [⟨0, 20, .rw, (.all 0), .por, 0⟩]⟩,
  ⟨0x300000b0108, [(2, 0x20)], .none, .none, [⟨0, 32, .rw, (.all 0), .por, 0⟩]⟩,
  ⟨0x300000b010c, [(2, 0x20)], .none, .none, [⟨0, 32, .rw, (.all 0), .por, 0⟩]⟩,
  ⟨0x300000b0110, [(2, 0x20)], .none, .none, [⟨31, 1, .ro, (.all 0), .por, 0⟩, ⟨24, 4, .ro, (.all 0), .por, 0⟩, ⟨8, 1, .rw, (.all 0), .por, 0⟩, ⟨4, 2, .rw, (.all 2), .por, 0⟩, ⟨1, 2, .rw, (.all 0), .por, 0⟩, ⟨0, 1, .w1s, (.all 0), .por, 0⟩]⟩,
  ⟨0x300000b0200, [(8, 0x8)], .none, .none, [⟨0, 8, .rw, (.all 0), .por, 31⟩]⟩,
  ⟨0x300000b0204, [(8, 0x8)], .none, .none, [⟨0, 6, .rw, (.all 0), .por, 31⟩]⟩,
  ⟨0x300000b0240, [], .none, .none, [⟨0, 20, .rw, (.all 0), .por, 31⟩]⟩,
  ⟨0x300000b0244, [], .none, .none, [⟨0, 32, .rw, (.all 0), .por, 31⟩]⟩,
  ⟨0x300000b0248, [], .none, .none, [⟨0, 8, .w1s, (.all 0), .normal, 0⟩]⟩,
  ⟨0x300000b0250, [(4, 0x4)], .none, .none, [⟨0, 32, .rw, (.all 0), .por, 31⟩]⟩,
  ⟨0x300000b8800, [(4, 0x1000)], .hub, .none, [⟨8, 1, .rw, (.all 0), .por, 31⟩, ⟨4, 1, .rw, (.all 0), .por, 31⟩, ⟨3, 1, .w1s, (.all 0), .normal, 0⟩, ⟨2, 1, .w1s, (.all 0), .normal, 0⟩, ⟨1, 1, .w1s, (.all 0), .normal, 0⟩, ⟨0, 1, .w1s, (.all 0), .normal, 0⟩]⟩,
  ⟨0x300000b8804, [(4, 0x1000)], .hub, .none, [⟨24, 8, .ro, (.all 0), .normal, 0⟩, ⟨20, 3, .ro, (.all 0), .normal, 0⟩, ⟨16, 4, .ro, (.all 0), .normal, 0⟩, ⟨8, 1, .ro, (.all 0), .normal, 0⟩, ⟨7, 1, .ro, (.all 0), .normal, 0⟩, ⟨6, 1, .ro, (.all 0), .normal, 0⟩, ⟨5, 1, .ro, (.all 0), .normal, 0⟩, ⟨4, 1, .ro, (.all 0), .normal, 0⟩, ⟨3, 1, .ro, (.all 0), .normal, 0⟩, ⟨0, 1, .ro, (.all 0), .normal, 0⟩]⟩,
  ⟨0x300000b8808, [(4, 0x1000)], .hub, .none, [⟨2, 30, .rw, (.all 0), .normal, 0⟩]⟩,
  ⟨0x300000b880c, [(4, 0x1000)], .hub, .none, [⟨0, 32, .ro, (.all 0), .normal, 0⟩]⟩,
  ⟨0x300000b8810, [(4, 0x1000)], .hub, .none, [⟨0, 13, .ro, (.all 0), .normal, 0⟩]⟩,
  ⟨0x300000b8814, [(4, 0x1000)], .hub, .none, [⟨0, 32, .wo, (.all 0), .normal, 0⟩]⟩,
  ⟨0x300000b8818, [(4, 0x1000)], .hub, .none, [⟨0, 32, .rw, (.all 0), .normal, 0⟩]⟩]

/-- A piece of the register table of the hub control space. -/
def hubRows12 : List RegRow := [
  ⟨0x300000b8840, [(4, 0x1000), (8, 0x10)], .hub, .none, [⟨0, 32, .rw, (.all 0), .por, 31⟩]⟩,
  ⟨0x300000b8844, [(4, 0x1000), (8, 0x10)], .hub, .none, [⟨0, 32, .rw, (.all 0), .por, 31⟩]⟩,
  ⟨0x300000b8848, [(4, 0x1000), (8, 0x10)], .hub, .none, [⟨0, 32, .rw, (.all 0), .por, 31⟩]⟩,
  ⟨0x300000b884c, [(4, 0x1000), (8, 0x10)], .hub, .none, [⟨0, 32, .rw, (.all 0), .por, 31⟩]⟩,
  ⟨0x300000c0000, [(3, 0x4)], .hub, .none, [⟨0, 32, .ro, (.all 0), .normal, 0⟩]⟩,
  ⟨0x300000c0010, [], .hub, .bits, [⟨0, 2, .rw, (.all 0), .normal, 8⟩]⟩,
  ⟨0x300000c0100, [(24, 0x20)], .quad, .quadP, [⟨31, 1, .w1s, (.all 0), .normal, 0⟩, ⟨16, 3, .rw, (.all 0), .image, 12⟩, ⟨0, 10, .rw, (.all 0), .image, 12⟩]⟩,
  ⟨0x300000c0104, [(24, 0x20)], .quad, .quadP, [⟨0, 24, .rw, (.all 0), .image, 12⟩]⟩,
  ⟨0x300000c0108, [(24, 0x20)], .quad, .quadP, [⟨2, 1, .w1c, (.all 0), .normal, 12⟩, ⟨1, 1, .ro, (.all 0), .normal, 0⟩, ⟨0, 1, .ro, (.all 0), .normal, 0⟩]⟩,
  ⟨0x300000c1000, [(96, 0x100)], .lane, .laneP, [⟨15, 1, .rw, (.all 0), .image, 12⟩, ⟨14, 1, .rw, (.all 0), .image, 12⟩, ⟨12, 2, .rw, (.all 0), .image, 12⟩, ⟨10, 2, .ro, (.all 0), .image, 12⟩, ⟨8, 2, .rw, (.all 0), .normal, 12⟩, ⟨3, 1, .rw, (.all 0), .image, 12⟩, ⟨2, 1, .rw, (.all 0), .image, 12⟩, ⟨1, 1, .rw, (.all 0), .normal, 12⟩, ⟨0, 1, .w1s, (.all 0), .normal, 0⟩]⟩,
  ⟨0x300000c1004, [(96, 0x100)], .lane, .laneP, [⟨7, 1, .ro, (.all 0), .normal, 0⟩, ⟨6, 1, .ro, (.all 0), .normal, 0⟩, ⟨5, 1, .ro, (.all 0), .normal, 0⟩, ⟨4, 1, .ro, (.all 0), .normal, 0⟩, ⟨3, 1, .ro, (.all 0), .normal, 0⟩, ⟨2, 1, .ro, (.all 0), .normal, 0⟩, ⟨1, 1, .ro, (.all 1), .normal, 0⟩, ⟨0, 1, .ro, (.all 1), .normal, 0⟩]⟩,
  ⟨0x300000c1008, [(96, 0x100)], .lane, .laneP, [⟨0, 7, .w1c, (.all 0), .normal, 12⟩]⟩,
  ⟨0x300000c100c, [(96, 0x100)], .lane, .laneP, [⟨0, 7, .rw, (.all 0x7f), .normal, 12⟩]⟩,
  ⟨0x300000c1010, [(96, 0x100)], .lane, .laneP, [⟨0, 32, .rw, (.all 0), .image, 12⟩]⟩,
  ⟨0x300000c1014, [(96, 0x100)], .lane, .laneP, [⟨31, 1, .w1s, (.all 0), .normal, 0⟩, ⟨30, 1, .w1c, (.all 0), .normal, 12⟩, ⟨8, 6, .rw, (.all 0), .image, 12⟩, ⟨0, 8, .rw, (.all 0), .image, 12⟩]⟩,
  ⟨0x300000c1018, [(96, 0x100)], .lane, .laneP, [⟨31, 1, .w1s, (.all 0), .normal, 0⟩, ⟨16, 3, .rw, (.all 0), .image, 12⟩, ⟨10, 1, .rw, (.all 0), .normal, 12⟩, ⟨9, 1, .rw, (.all 0), .normal, 12⟩, ⟨8, 1, .rw, (.all 0), .normal, 12⟩, ⟨0, 6, .rw, (.all 0), .image, 12⟩]⟩,
  ⟨0x300000c1020, [(96, 0x100)], .lane, .laneP, [⟨0, 32, .rw, (.all 0), .normal, 12⟩]⟩,
  ⟨0x300000c1024, [(96, 0x100)], .lane, .laneP, [⟨0, 32, .rw, (.all 0), .normal, 12⟩]⟩,
  ⟨0x300000c1028, [(96, 0x100)], .lane, .laneP, [⟨0, 32, .rw, (.all 0), .normal, 12⟩]⟩,
  ⟨0x300000c102c, [(96, 0x100)], .lane, .laneP, [⟨0, 32, .rw, (.all 0), .normal, 12⟩]⟩]

/-- A piece of the register table of the hub control space. -/
def hubRows13 : List RegRow := [
  ⟨0x300000c1030, [(96, 0x100)], .lane, .laneP, [⟨0, 32, .rw, (.all 0), .normal, 12⟩]⟩,
  ⟨0x300000c1034, [(96, 0x100)], .lane, .laneP, [⟨0, 32, .rw, (.all 0), .normal, 12⟩]⟩,
  ⟨0x300000c1038, [(96, 0x100)], .lane, .laneP, [⟨0, 24, .rw, (.all 0), .normal, 12⟩]⟩,
  ⟨0x300000c1040, [(96, 0x100)], .lane, .laneP, [⟨4, 4, .rw, (.all 0), .normal, 12⟩, ⟨0, 4, .rw, (.all 0), .normal, 12⟩]⟩,
  ⟨0x300000c1044, [(96, 0x100)], .lane, .laneP, [⟨31, 1, .w1s, (.all 0), .normal, 0⟩, ⟨30, 1, .ro, (.all 0), .normal, 0⟩, ⟨0, 16, .ro, (.all 0), .normal, 12⟩]⟩,
  ⟨0x300000c1048, [(96, 0x100)], .lane, .laneP, [⟨0, 32, .ro, (.all 0), .normal, 12⟩]⟩,
  ⟨0x300000c104c, [(96, 0x100)], .lane, .laneP, [⟨0, 16, .ro, (.all 0), .normal, 12⟩]⟩,
  ⟨0x300000c1050, [(96, 0x100)], .lane, .laneP, [⟨0, 32, .ro, (.all 0), .normal, 12⟩]⟩,
  ⟨0x300000c1054, [(96, 0x100)], .lane, .laneP, [⟨0, 16, .ro, (.all 0), .normal, 12⟩]⟩,
  ⟨0x300000c1060, [(96, 0x100)], .lane, .laneP, [⟨31, 1, .w1s, (.all 0), .normal, 0⟩, ⟨30, 1, .ro, (.all 0), .normal, 0⟩, ⟨29, 1, .ro, (.all 0), .normal, 0⟩, ⟨26, 2, .rw, (.all 0), .normal, 12⟩, ⟨16, 6, .rw, (.all 0x14), .normal, 12⟩, ⟨8, 8, .rw, (.all 0), .normal, 12⟩, ⟨0, 6, .rw, (.all 0), .normal, 12⟩]⟩,
  ⟨0x300000c1064, [(96, 0x100)], .lane, .laneP, [⟨0, 32, .ro, (.all 0), .normal, 12⟩]⟩,
  ⟨0x300000c1068, [(96, 0x100)], .lane, .laneP, [⟨0, 16, .ro, (.all 0), .normal, 12⟩]⟩,
  ⟨0x300000c1070, [(96, 0x100)], .lane, .laneP, [⟨0, 32, .rw, (.all 0), .normal, 12⟩]⟩,
  ⟨0x300000c1074, [(96, 0x100)], .lane, .laneP, [⟨0, 32, .rw, (.all 0), .normal, 12⟩]⟩,
  ⟨0x300000c1078, [(96, 0x100)], .lane, .laneP, [⟨0, 32, .rw, (.all 0), .normal, 12⟩]⟩]

/-- Every register of the hub control space. -/
def hubRows : List RegRow :=
  hubRows0 ++ hubRows1 ++ hubRows2 ++ hubRows3 ++ hubRows4 ++ hubRows5 ++ hubRows6 ++ hubRows7 ++ hubRows8 ++ hubRows9 ++ hubRows10 ++ hubRows11 ++ hubRows12 ++ hubRows13

/-- A piece of the register table of the channel control spaces. -/
def chanRows0 : List RegRow := [
  ⟨0x20000100000, [(16, 0x10000000), (64, 0x1000)], .chan, .none, [⟨1, 1, .w1s, (.all 0), .normal, 0⟩, ⟨0, 1, .rw, (.all 0), .normal, 12⟩]⟩,
  ⟨0x20000100004, [(16, 0x10000000), (64, 0x1000)], .chan, .none, [⟨24, 8, .ro, (.all 0), .normal, 12⟩, ⟨16, 8, .ro, (.all 0), .normal, 0⟩, ⟨5, 1, .ro, (.all 0), .normal, 0⟩, ⟨4, 1, .ro, (.all 0), .normal, 0⟩, ⟨0, 3, .ro, (.all 0), .normal, 0⟩]⟩,
  ⟨0x20000100008, [(16, 0x10000000), (64, 0x1000)], .chan, .none, [⟨2, 30, .rw, (.all 0), .normal, 12⟩]⟩,
  ⟨0x20000100010, [(16, 0x10000000), (64, 0x1000)], .chan, .none, [⟨0, 32, .w1c, (.all 0), .normal, 12⟩]⟩,
  ⟨0x20000100014, [(16, 0x10000000), (64, 0x1000)], .chan, .none, [⟨0, 16, .w1s, (.all 0), .normal, 0⟩]⟩,
  ⟨0x20000100020, [(16, 0x10000000), (64, 0x1000)], .chan, .none, [⟨0, 32, .rw, (.all 0), .normal, 12⟩]⟩,
  ⟨0x20000100024, [(16, 0x10000000), (64, 0x1000)], .chan, .none, [⟨0, 32, .ro, (.all 0), .normal, 12⟩]⟩,
  ⟨0x20000100028, [(16, 0x10000000), (64, 0x1000)], .chan, .none, [⟨0, 8, .wo, (.all 0), .normal, 0⟩]⟩,
  ⟨0x20000100030, [(16, 0x10000000), (64, 0x1000)], .chan, .none, [⟨0, 32, .rw, (.all 0), .normal, 12⟩]⟩,
  ⟨0x20000100034, [(16, 0x10000000), (64, 0x1000)], .chan, .none, [⟨0, 32, .rw, (.all 0), .normal, 12⟩]⟩,
  ⟨0x20000100040, [(16, 0x10000000), (64, 0x1000)], .chan, .none, [⟨28, 4, .rw, (.all 0), .normal, 12⟩, ⟨24, 4, .rw, (.all 0), .normal, 12⟩, ⟨0, 16, .rw, (.all 0), .normal, 12⟩]⟩,
  ⟨0x20000100044, [(16, 0x10000000), (64, 0x1000)], .chan, .none, [⟨21, 11, .rw, (.all 0), .normal, 12⟩]⟩,
  ⟨0x20000100048, [(16, 0x10000000), (64, 0x1000)], .chan, .none, [⟨0, 20, .rw, (.all 0), .normal, 12⟩]⟩,
  ⟨0x20000100050, [(16, 0x10000000), (64, 0x1000)], .chan, .none, [⟨0, 32, .ro, (.all 0), .normal, 12⟩]⟩,
  ⟨0x20000100054, [(16, 0x10000000), (64, 0x1000)], .chan, .none, [⟨16, 16, .rw, (.all 0), .normal, 12⟩, ⟨0, 2, .ro, (.all 0), .normal, 12⟩]⟩,
  ⟨0x200001000f0, [(16, 0x10000000), (64, 0x1000)], .chan, .none, [⟨0, 1, .w1s, (.all 0), .normal, 30⟩]⟩,
  ⟨0x20000100100, [(16, 0x10000000), (64, 0x1000), (16, 0x10)], .chan, .none, [⟨12, 20, .rwl, (.all 0), .normal, 30⟩]⟩,
  ⟨0x20000100104, [(16, 0x10000000), (64, 0x1000), (16, 0x10)], .chan, .none, [⟨12, 20, .rwl, (.all 0), .normal, 30⟩]⟩,
  ⟨0x20000100108, [(16, 0x10000000), (64, 0x1000), (16, 0x10)], .chan, .none, [⟨31, 1, .rwl, (.all 0), .normal, 30⟩, ⟨16, 8, .rwl, (.all 0), .normal, 30⟩, ⟨8, 8, .rwl, (.all 0), .normal, 30⟩, ⟨2, 1, .rwl, (.all 0), .normal, 30⟩, ⟨1, 1, .rwl, (.all 0), .normal, 30⟩, ⟨0, 1, .rwl, (.all 0), .normal, 30⟩]⟩,
  ⟨0x20000000000, [(16, 0x10000000)], .chan, .none, [⟨8, 1, .w1c, (.all 0), .normal, 12⟩, ⟨7, 1, .w1c, (.all 0), .normal, 12⟩, ⟨6, 1, .w1c, (.all 0), .normal, 12⟩, ⟨5, 1, .w1c, (.all 0), .normal, 12⟩, ⟨4, 1, .w1c, (.all 0), .normal, 12⟩, ⟨2, 1, .ro, (.all 0), .normal, 0⟩, ⟨1, 1, .w1c, (.all 0), .normal, 12⟩, ⟨0, 1, .w1c, (.all 0), .normal, 12⟩]⟩]

/-- A piece of the register table of the channel control spaces. -/
def chanRows1 : List RegRow := [
  ⟨0x20000000004, [(16, 0x10000000)], .chan, .none, [⟨0, 9, .rw, (.all 0), .normal, 12⟩]⟩,
  ⟨0x20000000010, [(16, 0x10000000)], .chan, .none, [⟨0, 32, .w1c, (.all 0), .normal, 12⟩]⟩,
  ⟨0x20000000014, [(16, 0x10000000)], .chan, .none, [⟨0, 32, .w1c, (.all 0), .normal, 12⟩]⟩,
  ⟨0x20000000020, [(16, 0x10000000)], .chan, .none, [⟨0, 32, .rw, (.all 0), .normal, 12⟩]⟩,
  ⟨0x20000000024, [(16, 0x10000000)], .chan, .none, [⟨0, 32, .ro, (.all 0), .normal, 12⟩]⟩,
  ⟨0x20000000028, [(16, 0x10000000)], .chan, .none, [⟨0, 8, .wo, (.all 0), .normal, 0⟩]⟩,
  ⟨0x20000000030, [(16, 0x10000000)], .chan, .none, [⟨16, 2, .ro, (.all 0), .normal, 12⟩, ⟨8, 8, .ro, (.all 0), .normal, 12⟩, ⟨0, 2, .ro, (.all 0), .normal, 12⟩]⟩,
  ⟨0x20000010000, [(16, 0x10000000)], .chan, .none, [⟨24, 8, .rw, (.all 1), .normal, 12⟩, ⟨16, 8, .rw, (.all 0), .normal, 12⟩, ⟨12, 4, .rw, (.all 0), .normal, 12⟩, ⟨10, 2, .rw, (.all 0), .normal, 12⟩, ⟨8, 2, .rw, (.all 0), .normal, 12⟩, ⟨6, 2, .rw, (.all 0), .normal, 12⟩, ⟨0, 2, .rw, (.all 0), .normal, 12⟩]⟩,
  ⟨0x20000010004, [(16, 0x10000000)], .chan, .none, [⟨1, 1, .rw, (.all 0), .normal, 12⟩, ⟨0, 1, .rw, (.all 0), .normal, 12⟩]⟩,
  ⟨0x20000010008, [(16, 0x10000000)], .chan, .none, [⟨16, 16, .ro, (.all 0), .normal, 0⟩, ⟨0, 16, .ro, (.all 0), .normal, 0⟩]⟩,
  ⟨0x2000001000c, [(16, 0x10000000)], .chan, .none, [⟨0, 16, .w1s, (.all 0), .normal, 0⟩]⟩,
  ⟨0x20000010018, [(16, 0x10000000)], .chan, .none, [⟨1, 1, .w1c, (.all 0), .normal, 12⟩, ⟨0, 1, .ro, (.all 0), .normal, 0⟩]⟩,
  ⟨0x20000010010, [(16, 0x10000000)], .chan, .none, [⟨31, 1, .wo, (.all 0), .normal, 0⟩, ⟨5, 19, .wo, (.all 0), .normal, 0⟩]⟩,
  ⟨0x20000010014, [(16, 0x10000000)], .chan, .none, [⟨0, 24, .rw, (.all 0x2710), .normal, 12⟩]⟩,
  ⟨0x20000010020, [(16, 0x10000000)], .chan, .none, [⟨0, 32, .rw, (.all 0), .normal, 12⟩]⟩,
  ⟨0x20000010024, [(16, 0x10000000)], .chan, .none, [⟨0, 4, .rw, (.all 4), .normal, 12⟩]⟩,
  ⟨0x20000010028, [(16, 0x10000000)], .chan, .none, [⟨0, 12, .ro, (.all 0), .normal, 12⟩]⟩,
  ⟨0x2000001002c, [(16, 0x10000000)], .chan, .none, [⟨0, 12, .rw, (.all 0), .normal, 12⟩]⟩,
  ⟨0x20000010040, [(16, 0x10000000), (16, 0x4)], .chan, .none, [⟨31, 1, .ro, (.all 0), .normal, 0⟩, ⟨30, 1, .w1c, (.all 0), .normal, 15⟩, ⟨0, 24, .ro, (.all 0), .normal, 15⟩]⟩,
  ⟨0x20000010080, [(16, 0x10000000), (4, 0x4)], .chan, .none, [⟨16, 8, .rw, (.all 0x80), .normal, 12⟩, ⟨8, 8, .rw, (.all 0), .normal, 12⟩, ⟨0, 8, .rw, (.all 0), .normal, 12⟩]⟩]

/-- A piece of the register table of the channel control spaces. -/
def chanRows2 : List RegRow := [
  ⟨0x20000010100, [(16, 0x10000000), (32, 0x4)], .chan, .none, [⟨0, 32, .rw, (.all 0), .normal, 12⟩]⟩,
  ⟨0x20000014000, [(16, 0x10000000), (512, 0x8)], .chan, .none, [⟨31, 1, .rw, (.all 0), .normal, 12⟩, ⟨0, 24, .rw, (.all 0), .normal, 12⟩]⟩,
  ⟨0x20000014004, [(16, 0x10000000), (512, 0x8)], .chan, .none, [⟨0, 24, .rw, (.all 0), .normal, 12⟩]⟩,
  ⟨0x20000020000, [(16, 0x10000000)], .chan, .none, [⟨8, 8, .rw, (.all 0x18), .normal, 12⟩, ⟨0, 8, .rw, (.all 0x10), .normal, 12⟩]⟩,
  ⟨0x20000020004, [(16, 0x10000000)], .chan, .none, [⟨0, 16, .rw, (.all 0xf951), .normal, 12⟩]⟩,
  ⟨0x20000020010, [(16, 0x10000000)], .chan, .none, [⟨5, 19, .wo, (.all 0), .normal, 0⟩]⟩,
  ⟨0x20000020040, [(16, 0x10000000)], .chan, .none, [⟨0, 32, .rw, (.all 0), .normal, 12⟩]⟩,
  ⟨0x20000020044, [(16, 0x10000000)], .chan, .none, [⟨0, 32, .rw, (.all 0), .normal, 12⟩]⟩,
  ⟨0x20000020048, [(16, 0x10000000)], .chan, .none, [⟨0, 32, .rw, (.all 0), .normal, 12⟩]⟩,
  ⟨0x2000002004c, [(16, 0x10000000)], .chan, .none, [⟨0, 32, .rw, (.all 0), .normal, 12⟩]⟩,
  ⟨0x20000030000, [(16, 0x10000000), (4, 0x10)], .chan, .none, [⟨2, 1, .w1s, (.all 0), .normal, 0⟩, ⟨0, 2, .rw, (.all 0), .normal, 4⟩]⟩,
  ⟨0x20000030004, [(16, 0x10000000), (4, 0x10)], .chan, .none, [⟨0, 32, .rw, (.all 0), .normal, 4⟩]⟩,
  ⟨0x20000030008, [(16, 0x10000000), (4, 0x10)], .chan, .none, [⟨0, 32, .rw, (.all 0), .normal, 4⟩]⟩,
  ⟨0x20000030100, [(16, 0x10000000)], .chan, .none, [⟨6, 1, .rw, (.all 0), .normal, 12⟩, ⟨5, 1, .rw, (.all 0), .normal, 12⟩, ⟨3, 2, .rw, (.all 0), .normal, 12⟩, ⟨0, 1, .w1s, (.all 0), .normal, 0⟩]⟩,
  ⟨0x20000030104, [(16, 0x10000000)], .chan, .none, [⟨31, 1, .ro, (.all 0), .normal, 0⟩, ⟨30, 1, .w1c, (.all 0), .normal, 12⟩, ⟨29, 1, .w1c, (.all 0), .normal, 12⟩, ⟨28, 1, .w1c, (.all 0), .normal, 12⟩]⟩,
  ⟨0x20000030108, [(16, 0x10000000)], .chan, .none, [⟨0, 32, .rw, (.all 0), .normal, 12⟩]⟩,
  ⟨0x2000003010c, [(16, 0x10000000)], .chan, .none, [⟨0, 20, .rw, (.all 0), .normal, 12⟩]⟩,
  ⟨0x20000030110, [(16, 0x10000000)], .chan, .none, [⟨0, 32, .rw, (.all 0), .normal, 12⟩]⟩,
  ⟨0x20000030114, [(16, 0x10000000)], .chan, .none, [⟨0, 32, .ro, (.all 0), .normal, 12⟩]⟩,
  ⟨0x20000030118, [(16, 0x10000000)], .chan, .none, [⟨0, 32, .rw, (.all 0), .normal, 12⟩]⟩]

/-- A piece of the register table of the channel control spaces. -/
def chanRows3 : List RegRow := [
  ⟨0x2000003011c, [(16, 0x10000000)], .chan, .none, [⟨0, 20, .rw, (.all 0), .normal, 12⟩]⟩,
  ⟨0x20000060000, [(16, 0x10000000)], .chan, .none, [⟨4, 20, .wo, (.all 0), .normal, 0⟩, ⟨0, 4, .wo, (.all 0), .normal, 0⟩]⟩,
  ⟨0x20000060004, [(16, 0x10000000)], .chan, .none, [⟨0, 32, .rc, (.all 0xffffffff), .normal, 0⟩]⟩,
  ⟨0x20000060008, [(16, 0x10000000)], .chan, .none, [⟨16, 11, .ro, (.all 0), .normal, 0⟩, ⟨0, 16, .ro, (.all 0), .normal, 0⟩]⟩,
  ⟨0x2000006000c, [(16, 0x10000000)], .chan, .none, [⟨0, 32, .ro, (.all 0), .normal, 0⟩]⟩,
  ⟨0x20000060010, [(16, 0x10000000)], .chan, .none, [⟨0, 16, .rw, (.all 0), .normal, 12⟩]⟩,
  ⟨0x20000060014, [(16, 0x10000000)], .chan, .none, [⟨0, 16, .rw, (.all 0x3e8), .normal, 12⟩]⟩,
  ⟨0x20000040000, [(16, 0x10000000)], .chan, .none, [⟨12, 1, .rw, (.all 1), .normal, 30⟩, ⟨8, 1, .rw, (.all 0), .normal, 30⟩, ⟨4, 3, .rw, (.all 0), .normal, 30⟩, ⟨0, 3, .rw, (.all 0), .normal, 30⟩]⟩,
  ⟨0x20000040004, [(16, 0x10000000)], .chan, .none, [⟨1, 1, .w1s, (.all 0), .normal, 0⟩, ⟨0, 1, .w1s, (.all 0), .normal, 0⟩]⟩,
  ⟨0x20000040008, [(16, 0x10000000)], .chan, .none, [⟨31, 1, .ro, (.all 0), .normal, 31⟩, ⟨30, 1, .ro, (.all 0), .normal, 0⟩, ⟨24, 3, .ro, (.all 0), .normal, 0⟩, ⟨12, 4, .ro, (.all 0), .normal, 0⟩, ⟨8, 1, .ro, (.all 0), .normal, 0⟩, ⟨0, 4, .ro, (.all 0), .normal, 0⟩]⟩,
  ⟨0x2000004000c, [(16, 0x10000000)], .chan, .none, [⟨16, 16, .ro, (.all 0), .normal, 30⟩, ⟨0, 16, .ro, (.all 0), .normal, 30⟩]⟩,
  ⟨0x20000040010, [(16, 0x10000000)], .chan, .none, [⟨5, 1, .w1c, (.all 0), .normal, 12⟩, ⟨4, 1, .w1c, (.all 0), .normal, 12⟩, ⟨3, 1, .w1c, (.all 0), .normal, 12⟩, ⟨2, 1, .w1c, (.all 0), .normal, 12⟩, ⟨1, 1, .w1c, (.all 0), .normal, 12⟩, ⟨0, 1, .w1c, (.all 0), .normal, 12⟩]⟩,
  ⟨0x20000040014, [(16, 0x10000000)], .chan, .none, [⟨0, 6, .rw, (.all 0), .normal, 12⟩]⟩,
  ⟨0x20000040020, [(16, 0x10000000)], .chan, .none, [⟨24, 8, .rw, (.all 0x20), .normal, 30⟩, ⟨8, 8, .rw, (.all 0x30), .normal, 30⟩, ⟨0, 8, .rw, (.all 0x10), .normal, 30⟩]⟩,
  ⟨0x20000040024, [(16, 0x10000000)], .chan, .none, [⟨24, 8, .rw, (.all 4), .normal, 30⟩, ⟨16, 4, .ro, (.all 0), .normal, 0⟩, ⟨0, 4, .ro, (.all 0), .normal, 0⟩]⟩,
  ⟨0x20000040028, [(16, 0x10000000)], .chan, .none, [⟨8, 8, .ro, (.all 0xff), .normal, 30⟩, ⟨0, 8, .rw, (.all 0xff), .normal, 30⟩]⟩,
  ⟨0x20000040030, [(16, 0x10000000)], .chan, .none, [⟨16, 16, .rw, (.all 0x800), .normal, 30⟩, ⟨8, 8, .rw, (.all 0x10), .normal, 30⟩, ⟨0, 1, .ro, (.all 0), .normal, 0⟩]⟩,
  ⟨0x20000040034, [(16, 0x10000000)], .chan, .none, [⟨0, 32, .rw, (.all 0), .normal, 12⟩]⟩,
  ⟨0x20000040040, [(16, 0x10000000), (2, 0x4)], .chan, .none, [⟨24, 8, .ro, (.all 0), .normal, 8⟩, ⟨16, 8, .ro, (.all 0), .normal, 8⟩, ⟨8, 8, .ro, (.all 0), .normal, 8⟩, ⟨0, 8, .ro, (.all 0), .normal, 8⟩]⟩,
  ⟨0x20000050000, [(16, 0x10000000)], .chan, .none, [⟨31, 1, .w1s, (.all 0), .normal, 30⟩, ⟨0, 1, .rwl, (.all 0), .normal, 30⟩]⟩]

/-- A piece of the register table of the channel control spaces. -/
def chanRows4 : List RegRow := [
  ⟨0x20000050004, [(16, 0x10000000)], .chan, .none, [⟨0, 4, .ro, (.all 0), .normal, 30⟩]⟩,
  ⟨0x20000050008, [(16, 0x10000000)], .chan, .none, [⟨8, 5, .rw, (.all 0), .normal, 0⟩, ⟨1, 1, .w1s, (.all 0), .normal, 0⟩, ⟨0, 1, .w1s, (.all 0), .normal, 0⟩]⟩,
  ⟨0x20000050010, [(16, 0x10000000)], .chan, .none, [⟨5, 1, .w1c, (.all 0), .normal, 12⟩, ⟨4, 1, .w1c, (.all 0), .normal, 12⟩, ⟨3, 1, .w1c, (.all 0), .normal, 12⟩, ⟨2, 1, .w1c, (.all 0), .normal, 12⟩, ⟨1, 1, .w1c, (.all 0), .normal, 12⟩, ⟨0, 1, .w1c, (.all 0), .normal, 12⟩]⟩,
  ⟨0x20000050014, [(16, 0x10000000)], .chan, .none, [⟨0, 6, .rw, (.all 0), .normal, 12⟩]⟩,
  ⟨0x20000050020, [(16, 0x10000000)], .chan, .none, [⟨0, 27, .ro, (.all 0), .normal, 12⟩]⟩,
  ⟨0x20000050024, [(16, 0x10000000)], .chan, .none, [⟨28, 4, .ro, (.all 0), .normal, 12⟩, ⟨24, 4, .ro, (.all 0), .normal, 12⟩, ⟨23, 1, .ro, (.all 0), .normal, 12⟩, ⟨22, 1, .ro, (.all 0), .normal, 12⟩, ⟨0, 8, .ro, (.all 0), .normal, 12⟩]⟩,
  ⟨0x20000050028, [(16, 0x10000000)], .chan, .none, [⟨0, 32, .ro, (.all 0), .normal, 12⟩]⟩,
  ⟨0x2000005002c, [(16, 0x10000000)], .chan, .none, [⟨0, 32, .ro, (.all 0), .normal, 12⟩]⟩,
  ⟨0x20000050030, [(16, 0x10000000)], .chan, .none, [⟨0, 32, .rw, (.all 0), .normal, 12⟩]⟩,
  ⟨0x20000050034, [(16, 0x10000000)], .chan, .none, [⟨0, 32, .rw, (.all 0), .normal, 12⟩]⟩,
  ⟨0x20000050038, [(16, 0x10000000)], .chan, .none, [⟨0, 32, .rw, (.all 0), .normal, 12⟩]⟩,
  ⟨0x2000005003c, [(16, 0x10000000)], .chan, .none, [⟨0, 32, .rw, (.all 0), .normal, 12⟩]⟩,
  ⟨0x20000050100, [(16, 0x10000000), (16, 0x4)], .chan, .none, [⟨31, 1, .ro, (.all 0), .normal, 14⟩, ⟨27, 4, .ro, (.all 0), .normal, 14⟩, ⟨0, 27, .ro, (.all 0), .normal, 14⟩]⟩,
  ⟨0x20000050200, [(16, 0x10000000), (4, 0x8)], .chan, .none, [⟨31, 1, .rw, (.all 0), .normal, 30⟩, ⟨0, 21, .rw, (.all 0), .normal, 30⟩]⟩,
  ⟨0x20000050204, [(16, 0x10000000), (4, 0x8)], .chan, .none, [⟨0, 21, .rw, (.all 0), .normal, 30⟩]⟩,
  ⟨0x20000100800, [(16, 0x10000000), (64, 0x1000)], .chan, .none, [⟨8, 1, .rw, (.all 0), .por, 31⟩, ⟨4, 1, .rw, (.all 0), .por, 31⟩, ⟨3, 1, .w1s, (.all 0), .normal, 0⟩, ⟨2, 1, .w1s, (.all 0), .normal, 0⟩, ⟨1, 1, .w1s, (.all 0), .normal, 0⟩, ⟨0, 1, .w1s, (.all 0), .normal, 0⟩]⟩,
  ⟨0x20000100804, [(16, 0x10000000), (64, 0x1000)], .chan, .none, [⟨24, 8, .ro, (.all 0), .normal, 0⟩, ⟨20, 3, .ro, (.all 0), .normal, 0⟩, ⟨16, 4, .ro, (.all 0), .normal, 0⟩, ⟨8, 1, .ro, (.all 0), .normal, 0⟩, ⟨7, 1, .ro, (.all 0), .normal, 0⟩, ⟨6, 1, .ro, (.all 0), .normal, 0⟩, ⟨5, 1, .ro, (.all 0), .normal, 0⟩, ⟨4, 1, .ro, (.all 0), .normal, 0⟩, ⟨3, 1, .ro, (.all 0), .normal, 0⟩, ⟨0, 1, .ro, (.all 0), .normal, 0⟩]⟩,
  ⟨0x20000100808, [(16, 0x10000000), (64, 0x1000)], .chan, .none, [⟨2, 30, .rw, (.all 0), .normal, 0⟩]⟩,
  ⟨0x2000010080c, [(16, 0x10000000), (64, 0x1000)], .chan, .none, [⟨0, 32, .ro, (.all 0), .normal, 0⟩]⟩,
  ⟨0x20000100810, [(16, 0x10000000), (64, 0x1000)], .chan, .none, [⟨0, 13, .ro, (.all 0), .normal, 0⟩]⟩]

/-- A piece of the register table of the channel control spaces. -/
def chanRows5 : List RegRow := [
  ⟨0x20000100814, [(16, 0x10000000), (64, 0x1000)], .chan, .none, [⟨0, 32, .wo, (.all 0), .normal, 0⟩]⟩,
  ⟨0x20000100818, [(16, 0x10000000), (64, 0x1000)], .chan, .none, [⟨0, 32, .rw, (.all 0), .normal, 0⟩]⟩,
  ⟨0x20000100840, [(16, 0x10000000), (64, 0x1000), (8, 0x10)], .chan, .none, [⟨0, 32, .rw, (.all 0), .por, 31⟩]⟩,
  ⟨0x20000100844, [(16, 0x10000000), (64, 0x1000), (8, 0x10)], .chan, .none, [⟨0, 32, .rw, (.all 0), .por, 31⟩]⟩,
  ⟨0x20000100848, [(16, 0x10000000), (64, 0x1000), (8, 0x10)], .chan, .none, [⟨0, 32, .rw, (.all 0), .por, 31⟩]⟩,
  ⟨0x2000010084c, [(16, 0x10000000), (64, 0x1000), (8, 0x10)], .chan, .none, [⟨0, 32, .rw, (.all 0), .por, 31⟩]⟩,
  ⟨0x20000020014, [(16, 0x10000000)], .chan, .none, [⟨0, 32, .rw, (.all 0), .normal, 12⟩]⟩,
  ⟨0x20000020018, [(16, 0x10000000)], .chan, .none, [⟨0, 4, .rw, (.all 4), .normal, 12⟩]⟩,
  ⟨0x2000002001c, [(16, 0x10000000)], .chan, .none, [⟨0, 12, .ro, (.all 0), .normal, 12⟩]⟩,
  ⟨0x20000020020, [(16, 0x10000000)], .chan, .none, [⟨0, 12, .rw, (.all 0), .normal, 12⟩]⟩,
  ⟨0x20000018000, [(16, 0x10000000), (4096, 0x4)], .chan, .none, [⟨0, 32, .rw, (.all 0), .normal, 12⟩]⟩]

/-- Every register of the channel control spaces. -/
def chanRows : List RegRow :=
  chanRows0 ++ chanRows1 ++ chanRows2 ++ chanRows3 ++ chanRows4 ++ chanRows5

end Sys2Proof.Machine
end

