-- ==== Sys2Proof/Machine/Trigger.lean ====
section
/-! DEFINITION. Halt requests, the cross-trigger matrix and capture tokens (R145, R146, R379, R388): what one event in the
debug domain brings about elsewhere. -/

namespace Sys2Proof.Machine

/-- An engine of the state (R176). -/
def State.eng (s : State) (g : Nat) : Engine := smGet {} s.engines g

/-- An engine replaced. -/
def State.setEng (s : State) (g : Nat) (e : Engine) : State := { s with engines := smSet {} s.engines g e }

/-- A wake source comes for partition `p` (R348, R351, R353): from Easy and from Feather-only the wake begins; during the
entry it is remembered until the entry has completed. -/
def wakePart (p : Nat) (s : State) : State :=
  match s.get (PWR_PART_STATE p) with
  | 1 => { s with power := { s.power with wakeDue := setAdd s.power.wakeDue p } }
  | 2 | 4 => s.put (PWR_PART_STATE p) 3
  | _ => s

/-- A halt request reaches an engine (R379): ignored where the debug policy forbids halts (R391) or the engine is halted; it
wakes the engine's partition from Easy (R353). DEFERRED is set where it finds the engine inside a REPEAT or an atomic sequence (R380). A request that waits stands. -/
def haltRequest (g cause hit : Nat) (s : State) : State :=
  let e := s.eng g
  if !s.on SEC_DBG_POLICY_HALT || s.on (ENG_DBG_HALTED g) || e.haltReq.isSome then s
  else
    let s := wakePart (engPart g) (s.setEng g { e with haltReq := some (cause, hit) })
    s.puts [(ENG_DBG_PENDING g, 1), (ENG_DBG_DEFERRED g, (e.rep.isSome || e.atom.isSome).toNat)]

/-- A halt request to every engine of a list. -/
def haltAll (cause : Nat) : List Nat → State → State
  | [], s => s
  | g :: l, s => haltAll cause l (haltRequest g cause 0 s)

/-- The engines that a crew mask names: bits 15 to 0 channels. -/
def crewsOf (mask : Nat) : List Nat := ((List.range 16).filter mask.testBit).flatMap crewOf

/-- A sector is not captured (R146). -/
def notCaptured (s : State) (x : Nat) : Bool :=
  sectorHeld s x || regionBusy s x || partFailed s (x / 32) || !s.on (FAB_SEC_STATUS_CONFIGURED (x / 32) (x % 32))

/-- The shadow frames of a sector emptied; HELD of frame 13 where the sector was not captured. -/
def clearShadow (held : Bool) (x : Nat) (s : State) : State :=
  let sh := s.config.shadow.filter (fun e => e.1 / 14 != x)
  { s with config := { s.config with shadow := if held then smSet 0 sh (x * 14 + 13) (2 ^ 4030) else sh } }

/-- A capture token (R145 to R147): ignored while a capture or a readback of shadow frames runs. -/
def captureToken (s : State) : State :=
  if s.on CFG_CAP_STATUS_BUSY || (s.on CFG_RB_STATUS_BUSY && s.config.rb.any (·.shadow)) then s
  else
    let picked := (List.range 128).filter (fun x =>
      (membersOf s (leaderOf s x)).any (fun y => s.bit (CFG_CAP_MASK_SEL (y / 32)) (y % 32)))
    let held := picked.filter (notCaptured s)
    let due := (picked.filter (fun x => leaderOf s x == x)).filter (fun l => (membersOf s l).any (fun y => !notCaptured s y))
    let s := s.puts (((List.range 4).map (fun d => (CFG_CAP_NOEDGE_SEC d, 0)))
      ++ ((List.range 4).map (fun d => (CFG_CAP_HELD_SEC d,
          (List.range 32).foldl (fun m i => m + (held.contains (32 * d + i)).toNat * 2 ^ i) 0)))
      ++ [(CFG_CAP_STATUS_NO_EDGE, 0), (CFG_CAP_STATUS_HELD, min held.length 255), (CFG_CAP_STATUS_BUSY, 1)])
    let s := s.put64 CFG_CAP_TS_LO_TS CFG_CAP_TS_HI_TS s.clocks.ts
    let s := held.foldl (fun s x => clearShadow true x s) s
    { s with config := { s.config with capDue := due, capEdge := [] } }

/-- The actions of a cross-trigger channel (R388). -/
def xtActions (act : Nat) (s : State) : State :=
  let s := if act.testBit 0 then s.emit .trigOut else s
  let s := if act.testBit 1 then haltAll 2 (crewsOf (s.get DBG_XT_CREW_CREW)) s else s
  let s := if act.testBit 2 then haltAll 2 hubEngines s else s
  let s := if act.testBit 3 && s.on CFG_CAP_CTRL_TRIG_EN then captureToken s else s
  let s := if act.testBit 4 then s.flag NOC_TRACE_CTRL_EN false else s
  if act.testBit 5 && s.on SEC_DBG_POLICY_HALT then
    (List.range 4).foldl (fun s d => if s.get (DBG_XT_ISL_SEC d) == 0 then s
      else wakePart d (s.put (DBG_ISL_HALT_SEC d) (s.get (DBG_ISL_HALT_SEC d) ||| s.get (DBG_XT_ISL_SEC d)))) s
  else s

/-- A channel fires unless it ignores its sources, as it does for 80 ns after it fired (R388). -/
def xtFire (c : Nat) (s : State) : State :=
  let last := smGet 0 s.dbg.xtLast c
  if last != 0 && s.clocks.ts < last - 1 + 80 then s
  else xtActions (s.get (DBG_XT_OUT_ACT c))
    { s with dbg := { s.dbg with xtLast := smSet 0 s.dbg.xtLast c (s.clocks.ts + 1) } }

/-- The channels of a list that select a source fire. -/
def xtChannels (src : Nat) : List Nat → State → State
  | [], s => s
  | c :: l, s => xtChannels src l (if s.bit (DBG_XT_IN_SRC c) src then xtFire c s else s)

/-- A cross-trigger source occurs; nothing while the debug clock is lost (R47). -/
def xtSource (src : Nat) (s : State) : State :=
  if runs s 184 then xtChannels src (List.range 8) s else s

end Sys2Proof.Machine
end

