-- ==== Sys2Proof/Machine/Access.lean ====
section
/-! DEFINITION. Accesses by location: the location map (R19), the rights of requester groups (R21, R295), units that do not
answer (R20, R53), and reads and writes of registers by their access codes (R6 to R10, R31). -/

namespace Sys2Proof.Machine

/-- What a location names (R19). -/
inductive Loc where
  | dram (n off : Nat)
  | fabric (die off : Nat)
  | chan (n off : Nat)
  | hub (off : Nat)
  | window (port off : Nat)
  | unmapped
  deriving DecidableEq, Repr

/-- The location map: bits [47:0] of a device address. -/
def locate (addr : Nat) : Loc :=
  let a := addr % 2 ^ 48
  if a < 0x010000000000 then .dram (a / 0x001000000000) (a % 0x001000000000)
  else if a < 0x020000000000 then .fabric (a % 0x010000000000 / 0x004000000000) (a % 0x004000000000)
  else if a < 0x020100000000 then .chan (a % 0x010000000000 / 0x10000000) (a % 0x10000000)
  else if 0x030000000000 ≤ a && a < 0x030004000000 then .hub (a % 0x04000000)
  else if 0x040000000000 ≤ a && a < 0x050000000000 then .window 0 (a % 0x010000000000)
  else if 0x050000000000 ≤ a && a < 0x060000000000 then .window 1 (a % 0x010000000000)
  else .unmapped

/-- The requester group of R295; the SMBus target has none. -/
def groupOf : Requester → Option Nat
  | .host p pf => some (if p = 0 then pf.val else 3)
  | .engine g => some (if g.val < 1024 then 8 else 4)
  | .hubMover => some 4
  | .config => some 5
  | .debug => some 6
  | .sector _ => some 7
  | .mover _ => some 9
  | .traceWriter _ => some 10
  | .hubCrc => some 11
  | .smbus => none

/-- The target group of a location in the hub control space (R295). -/
def hubTarget (off : Nat) : Option Nat :=
  if 0x100000 ≤ off && off < 0x200000 then some 14
  else match off / 0x10000 with
    | 0 => some 5 | 1 => some 6 | 2 => some 7 | 3 => some 7 | 4 => some 8 | 5 => some 9 | 6 => some 10 | 7 => some 11
    | 8 => some 11 | 9 => some 11 | 0xA => some 5
    | 0xB => if off % 0x10000 < 0x8000 then some 12 else some 18
    | 0xC => some 10 | 0xD => some 13
    | _ => none

/-- The target group of a location in a channel's control space (R295). -/
def chanTarget (off : Nat) : Option Nat :=
  if 0x8000000 ≤ off && off < 0x9000000 then some 19
  else if 0x1000000 ≤ off && off < 0x2000000 then some 18
  else if 0x100000 ≤ off && off < 0x140000 then some 18
  else match off / 0x10000 with
    | 0 => some 15 | 1 => some 15 | 2 => some 15 | 3 => some 15 | 4 => some 16 | 5 => some 17 | 6 => some 15
    | _ => none

/-- The target group of a device address and the channel it needs, if any (R295). -/
def targetOf (addr : Nat) : Option Nat × Option Nat :=
  match locate addr with
  | .dram n _ =>
    let k := addr / 2 ^ 48 % 16
    (some (if k = 0 then 0 else if k = 1 then 1 else 2), some n)
  | .fabric _ _ => (some 3, none)
  | .window _ _ => (some 4, none)
  | .hub off => (hubTarget off, none)
  | .chan n off => (chanTarget off, some n)
  | .unmapped => (none, none)

/-- The channel to which a requester of groups 8 and 9 always has the right (R295). -/
def ownChannel : Requester → Option Nat
  | .engine g => if g.val < 1024 then some (g.val / 64) else none
  | .mover n => some n.val
  | _ => none

/-- The key identifier of a channel DRAM access is one that a requester may issue (R21): 0; 1 for reads of a retained
crash-dump key; 2 to 15 while the slot is open. -/
def keyOk (s : State) (k : Nat) (write : Bool) : Bool :=
  if k = 0 then true
  else if k = 1 then !write && s.get (SEC_KS_CTRL_STATE 1) == 4
  else s.get (SEC_KS_CTRL_STATE k) == 1 || s.get (SEC_KS_CTRL_STATE k) == 2

/-- The debug policy lets the debug domain reach memory and registers (SEC_DBG_POLICY.MEM). -/
def debugMem (s : State) (req : Requester) : Bool := req != .debug || s.on SEC_DBG_POLICY_MEM

/-- The rights table grants this access (R21, R295). -/
def tableRight (s : State) (req : Requester) (addr : Nat) (write : Bool) : Bool :=
  match groupOf req with
  | none => true
  | some g =>
    let (t, ch) := targetOf addr
    let own := match t with
      | some t => if write then s.bit (SEC_RIGHTS_WR g) t && t != 1 else s.bit (SEC_RIGHTS_RD g) t
      | none => true
    let chan := match ch with
      | some n => ownChannel req == some n || s.bit (SEC_RIGHTS_CH g) n
      | none => true
    let key := match locate addr with
      | .dram _ _ => keyOk s (addr / 2 ^ 48 % 16) write
      | _ => true
    own && chan && key

/-- The requester has the right to this access: the debug domain only while its policy lets it (R391). -/
def hasRight (s : State) (req : Requester) (addr : Nat) (write : Bool) : Bool := tableRight s req addr write && debugMem s req

/-- During an integrity halt PF0 answers for these blocks only: ID and summary, RST_, CFG_, SEC_ status, RAS_ (R53). The status
of the SEC_ block is read as its registers being readable and not writable (assumption 72). -/
def haltReachable (off : Nat) (write : Bool) : Bool :=
  match off / 0x10000 with
  | 0 | 1 | 4 | 0xD => true
  | 5 => !write
  | _ => false

/-- What answers for the unit at a control-space location while it is not in service: a bus error where its domain is
frozen (R46), a decode error where it is held or its partition failed (R20). -/
def unitStop (s : State) (addr : Nat) : Option Out :=
  let stop (d : Nat) : Option Out :=
    if !s.clocks.released.contains d then some .decodeError
    else if isFrozen s d then some .busError
    else none
  match locate addr with
  | .hub off => (stop (hubDomain off)).or (if off / 0x10000 == 0xB then none else stop 180)
  | .chan n off => if partFailed s (4 + n) then some .decodeError else stop (chanDomain n off)
  | _ => some .decodeError

/-- The unit at a control-space location is in service (R20). -/
def unitAnswers (s : State) (addr : Nat) : Bool := (unitStop s addr).isNone

/-- A location of the CFG_CAP_ and CFG_RB_ registers needs the readback right of the debug policy (R151). -/
def readbackRight (s : State) (req : Requester) (off : Nat) : Bool :=
  !(0x40240 ≤ off && off < 0x40298) || (match groupOf req with
    | some g => s.bit SEC_DBG_POLICY_READBACK g
    | none => true)

/-- A location of a command slot's registers: only the slot's owner reaches them (R322). -/
def slotRight (s : State) (req : Requester) (off : Nat) : Bool :=
  if 0x91000 ≤ off && off < 0x92000 then
    match s.get (SLOT_OWNER ((off - 0x91000) / 0x40)) with
    | 0 => true
    | 1 => match req with
      | .host p _ => p == 0
      | _ => false
    | 2 => match req with
      | .host p _ => p == 1
      | _ => false
    | _ => match req with
      | .engine g => 1024 ≤ g.val
      | .hubMover => true
      | _ => false
  else true

/-- A location of an ENG_DBG_ block, which only the debug domain reaches (R377). -/
def engDebugAt (addr : Nat) : Bool :=
  match locate addr with
  | .chan _ off => 0x100000 ≤ off && off < 0x140000 && 0x800 ≤ off % 0x1000
  | .hub off => 0xB8000 ≤ off && off < 0xBC000 && 0x800 ≤ off % 0x1000
  | _ => false

/-- An access to the ENG_ block of a hub engine by another requester than the engine itself and the debug domain (R179). -/
def foreignToEngine (req : Requester) (off : Nat) : Bool :=
  0xB8000 ≤ off && off < 0xBC000 && match req with
    | .debug => false
    | .engine g => g.val != 1024 + (off - 0xB8000) / 0x1000
    | _ => true

/-- Some engine or island is in a weigh-enough halt (DBG_STATUS.ANY_HALTED). -/
def anyHalted (s : State) : Bool :=
  s.regs.any (fun e => e.1 % 32 == 0 && engDebugAt (e.1 / 32) && e.1 / 32 % 0x1000 == 0x804 && e.2 % 2 == 1)
    || (List.range 4).any (fun d => s.get (DBG_ISL_HALT_SEC d) != 0)

/-- How an access to a register ends before it reaches it. -/
inductive Gate where
  /-- It reaches the register. -/
  | reach
  /-- A read returns zero, a write is dropped, silently (R6, R295). -/
  | silent
  /-- It completes with an error. -/
  | stop (o : Out)
  /-- It waits at the boundary of a partition that is in Easy, enters it or leaves it (R354). -/
  | wait (p : Nat)
  deriving DecidableEq, Repr

/-- Whether an access of a requester reaches a register location. -/
def regGate (s : State) (req : Requester) (addr size : Nat) (write : Bool) : Gate :=
  match locate addr with
  | .hub off =>
    if s.clocks.halted && (groupOf req).any (· < 4) && !haltReachable off write then .stop .completerAbort
    else if (unitStop s addr).isSome then .stop ((unitStop s addr).getD .decodeError)
    else if !hasRight s req addr write || !readbackRight s req off || !slotRight s req off || foreignToEngine req off
      || (engDebugAt addr && req != .debug) then .silent
    else if size != 4 || addr % 4 != 0 then .silent
    else .reach
  | .chan n _ =>
    if s.clocks.halted && (groupOf req).any (· < 4) then .stop .completerAbort
    else if easyHolds s (4 + n) && ownChannel req != some n then .wait (4 + n)
    else if (unitStop s addr).isSome then .stop ((unitStop s addr).getD .decodeError)
    else if !hasRight s req addr write || (engDebugAt addr && req != .debug) then .silent
    else if size != 4 || addr % 4 != 0 then .silent
    else .reach
  | _ => .stop .decodeError

/-- Every register row. -/
def rowOf (a : Nat) : Option (RegRow × List Nat) :=
  if a < 0x030000000000 then rowAt chanRows a else rowAt hubRows a

/-- A lane's transmitter sends electrical idle (R47, R396, R403, R407). -/
def laneIdle (s : State) (l : Nat) : Bool :=
  let p := if l < 32 then 20 else (l - 32) / 16
  !s.on (LANE_EN l) || s.lanes.lost.contains l || !clkStable s (284 + quadOf l) || s.on (LANE_TXIDLE l) || s.get (LANE_LOOP l) == 1
    || (32 ≤ l && (!sectorUp s (laneOwner l) || inEasy s p))
    || s.clocks.busy.contains p || s.power.moored || s.clocks.halted

/-- Flux steps a partition: it is enabled and the partition is in Run (R100, R101). -/
def fluxActive (s : State) (p : Nat) : Bool :=
  s.on (RAS_FLUX_CTRL_EN p) && !inEasy s p && !s.power.moored && !s.clocks.busy.contains p && !partFailed s p

/-- What ENG_STATUS shows of an engine: CTX (16), RSV (4), PORT_STALL (5). -/
def engineShows (s : State) (g lo : Nat) : Nat :=
  let e : Engine := smGet {} s.engines g
  if lo == 16 then e.ctxid.toNat % 256 else if lo == 4 then e.rsv.isSome.toNat else (e.wait.isSome || e.blocked.isSome).toNat

/-- Bits as a number. -/
def bitsOf (k : Nat) (f : Nat → Bool) : Nat := (List.range k).foldl (fun x i => x + (f i).toNat * 2 ^ i) 0

/-- The value of a field that no command writes because it is a view of other state. `base` is the location of the
register's first instance, `lo` the field's lowest bit, `ix` the instance. The lock bits of CLK_REF show CLK_STABLE of the
domains that the loops drive (assumption 75). -/
def liveField (s : State) (base lo : Nat) (ix : List Nat) : Option Nat :=
  let i := ix.getD 0 0
  let j := ix.getD 1 0
  if base == 0x030000000100 then some (slice (summaryWord s) lo (if lo == 4 then 16 else if lo == 0 then 4 else 1))
  else if base == 0x0300000A0000 then some (partCause s i)
  else if base == 0x0300000A0010 then some (partCause s (4 + i))
  else if base == 0x0300000A0050 && lo == 8 then some (partCause s 20 / 256)
  else if base == 0x020000000000 && lo == 2 then some (chEng s i).toNat
  else if base == 0x030000020010 then some (s.clocks.ts % 2 ^ 32)
  else if base == 0x030000040000 && lo == 21 then some (s.config.donePin && !s.config.doneLow).toNat
  else if base == 0x030000020014 then some (s.clocks.ts / 2 ^ 32)
  else if base == 0x030000021000 && lo == 18 then some (islandFrozen s i).toNat
  else if base == 0x030000021000 && lo == 17 then some (clkStable s (leaderOf s i)).toNat
  else if base == 0x030000010004 && lo == 25 then some (!s.clocks.busy.isEmpty).toNat
  else if base == 0x030000010004 && lo == 0 then
    some ((List.range 21).foldl (fun x p => x + (incomplete s p).toNat * 2 ^ p) 0)
  else if base == 0x030000100000 then
    let x := 32 * i + j
    if lo == 8 then some (partFailed s i).toNat
    else if lo == 7 then some (islandFrozen s x).toNat
    else if lo == 4 then some (exempt s x).toNat
    else if lo == 2 then some (sectorHeld s x).toNat
    else if lo == 1 then some (s.fabric.running.contains x && !sectorHeld s x).toNat
    else none
  else if base == 0x030000100300 && lo == 7 then some (bankDriven s (3 * i + j)).toNat
  else if base == 0x0300000C0000 then some (laneSum s i)
  else if base == 0x0300000C1004 && lo == 0 then some (laneIdle s i).toNat
  else if base == 0x0300000C0108 && lo == 0 then some (clkStable s (284 + i)).toNat
  else if base == 0x0300000C0108 && lo == 1 then some (8 ≤ i && !sectorUp s (quadOwner i)).toNat
  else if base == 0x0300000B0000 && lo == 16 then
    some (s.bits [SEC_DBG_POLICY_HALT, SEC_DBG_POLICY_MEM, SEC_DBG_POLICY_FORCE, SEC_DBG_POLICY_TRACE])
  else if base == 0x0300000B0000 && lo == 31 then some s.dbg.coxEn.toNat
  else if base == 0x0300000B0000 && lo == 0 then some (anyHalted s).toNat
  else if base == 0x0300000B0000 && lo == 2 then some s.power.moored.toNat
  else if base == 0x0300000B0000 && lo == 1 then some s.clocks.halted.toNat
  else if base == 0x030000030204 && lo == 0 && (partFailed s i || s.clocks.busy.contains i) then some 5
  else if base == 0x030000020000 && lo != 0 then
    some (if lo == 16 then bitsOf 16 (fun n => clkStable s (132 + n)) else if lo == 12 then bitsOf 4 (fun d => clkStable s (128 + d))
      else (clkStable s 180).toNat)
  else if base == 0x020000100004 && (lo == 16 || lo == 4 || lo == 5) then some (engineShows s (64 * i + j) lo)
  else if base == 0x0300000B8004 && (lo == 16 || lo == 4 || lo == 5) then some (engineShows s (1024 + i) lo)
  else if base == 0x0300000D0200 && lo == 31 then some (fluxActive s i).toNat
  else if base == 0x030000080204 then some (if lo == 13 then s.host.dir.length / 16 else s.host.sf.length / 128)
  else if base == 0x030000070010 then some ((s.wake.entries.filter (fun e => e.port == i && e.out == (lo == 16))).length)
  else if base == 0x030000070018 then some (32768 - ((s.wake.entries.filter (fun e => e.port == i)).map (·.lines)).sum)
  else if base == 0x030000070120 then some (smGet 0 s.wake.peek i)
  else if base == 0x020000010008 && lo == 0 then some (nandBusy s i)
  else if base == 0x020000010040 && lo == 31 then some (s.bit (NAND_STATUS_HALT i) j).toNat
  else if base == 0x020000010018 && lo == 0 then some (s.chan i).cfgPend.isSome.toNat
  else if base == 0x020000060008 then some (if lo == 16 then (s.chan i).tasks.length else taskElig s i)
  else if base == 0x020000060004 then some (((nextTask s i).map (·.2.off)).getD 0xFFFFFFFF)
  else if base == 0x030000050000 && lo == 3 then some (s.get RST_STATUS_FORCED)
  else none

/-- The value of a field of a row's instance. -/
def fieldValue (s : State) (r : RegRow) (a : Nat) (ix : List Nat) (f : FieldRow) : Nat :=
  match liveField s r.base f.lo ix with
  | some v => v
  | none => s.get (f.ref a ix)

/-- The fields of an instance as one word; write-only fields read zero (R8). -/
def wordOf (s : State) (r : RegRow) (a : Nat) (ix : List Nat) : List FieldRow → Nat
  | [] => 0
  | f :: fs =>
    (if f.acc == .wo then 0 else fieldValue s r a ix f * 2 ^ f.lo) + wordOf s r a ix fs

/-- Words of the MSI-X tables and pending-bit arrays (R330), and of the read window of the hub trace buffer (R175), which no
register row names. -/
def windowWord (s : State) (a : Nat) : Nat :=
  if 0x0300000A8000 ≤ a && a < 0x0300000AC000 then
    let p := (a - 0x0300000A8000) / 0x2000
    let o := (a - 0x0300000A8000) % 0x2000
    if o < 0x400 then msixWord s p (o / 4)
    else if 0x1000 ≤ o && o < 0x1008 then
      bitsOf 32 (fun i => s.host.msixPending.contains (p * 64 + (o - 0x1000) / 4 * 32 + i))
    else 0
  else if 0x030000068000 ≤ a && a < 0x030000070000 then
    let o := s.get NOC_TRACE_CTRL_PAGE * 0x8000 + (a - 0x030000068000)
    slice (smGet 0 s.noc.traceBuf (o / 32)) (o % 32 * 8) 32
  else 0

/-- The word that a read of register location `a` returns; zero where no register is (R7, R31). -/
def readReg (s : State) (a : Nat) : Nat :=
  match rowOf a with
  | some (r, ix) => wordOf s r a ix r.fields
  | none => windowWord s a

/-- The lock of the RWL fields at a location is set (R10, R300, R326). -/
def lockedAt (s : State) (r : RegRow) (ix : List Nat) : Bool :=
  let b := r.base
  if b == 0x030000010010 then s.on RST_LINK_SCOPE_LOCK
  else if b == 0x030000050014 then s.on SEC_LOCK_DUMP
  else if b == 0x030000050040 then s.on SEC_LOCK_DBG
  else if b == 0x030000050018 || (0x030000050400 ≤ b && b ≤ 0x030000050408) then s.on SEC_LOCK_RIGHTS
  else if b == 0x020000050000 then s.on (PAT_CFG_LOCK (ix.getD 0 0))
  else if b == 0x030000091014 || b == 0x030000091018 then s.on CMD_CTRL_CAP_LOCK
  else if 0x020000100100 ≤ b && b ≤ 0x020000100108 then
    s.on (ENG_PR_LOCK_LOCK (ix.getD 0 0 * 64 + ix.getD 1 0))
  else if 0x0300000B8100 ≤ b && b ≤ 0x0300000B8108 then s.on (ENG_PR_LOCK_LOCK (1024 + ix.getD 0 0))
  else false

/-- Whether a field takes writes now, where its own table says when it does: DRAM_CFG only while the controller is idle or
failed (R276); the trace destination only while the writer is off (R175); bit 1 of SEC_RIGHTS.WR never (R295); the
settings of host lanes only while their port is held for lane test, PCS and the settings of host quads never (R406); equaliser
taps only while the equaliser is frozen (R398); the size of an HDM range only while it is off (R308). -/
def takesWrite (s : State) (r : RegRow) (ix : List Nat) (lo : Nat) : Bool :=
  let b := r.base
  if b == 0x020000040000 then s.get (DRAM_STATUS_STATE (ix.getD 0 0)) == 0 || s.get (DRAM_STATUS_STATE (ix.getD 0 0)) == 8
  else if b == 0x030000060108 || b == 0x03000006010C then !s.on NOC_TRACE_CTRL_EN
  else if b == 0x030000060100 && lo == 1 then !s.on NOC_TRACE_CTRL_EN
  else if b == 0x0300000C1000 && lo == 12 then 32 ≤ ix.getD 0 0
  else if 0x0300000C1000 ≤ b && b ≤ 0x0300000C1038 && b != 0x0300000C1008 && b != 0x0300000C100C then
    let l := ix.getD 0 0
    (32 ≤ l || s.bit LANE_HTEST_PORT (l / 16))
      && (if b < 0x0300000C1020 then true else if b < 0x0300000C1038 then s.on (LANE_FFE_FRZ l) else s.on (LANE_DFE_FRZ l))
  else if b == 0x0300000C0100 || b == 0x0300000C0104 then 8 ≤ ix.getD 0 0
  else if b == 0x030000080404 then !s.on (HP_HDM_EN (ix.getD 0 0))
  else true

/-- What a written value of a field becomes: bit 1 of SEC_RIGHTS.WR always reads 0. -/
def legalValue (r : RegRow) (v : Nat) : Nat := if r.base == 0x030000050404 then withBit v 1 false else v

/-- A write of `v` to one field by its access code (R8). A write-1-to-set field that no reset keeps starts an action of
its own row and holds no value; the others are lock bits. -/
def writeField (s : State) (r : RegRow) (a : Nat) (ix : List Nat) (f : FieldRow) (v : Nat) (locked : Bool) : State :=
  let g := f.ref a ix
  if !takesWrite s r ix f.lo then s
  else match f.acc with
    | .rw => s.put g (legalValue r v)
    | .rwl => if locked then s else s.put g (legalValue r v)
    | .w1c => s.put g (clearBits (s.get g) v)
    | .w1s => if f.kept == 0 then s else s.put g (s.get g ||| v)
    | .ro | .wo | .rc => s

/-- A write of `v` to the fields of an instance; whether the lock was set before is fixed first (R10). -/
def writeFields (r : RegRow) (a : Nat) (ix : List Nat) (v : Nat) (locked : Bool) : List FieldRow → State → State
  | [], s => s
  | f :: fs, s => writeFields r a ix v locked fs (writeField s r a ix f (slice v f.lo f.w) locked)

/-- A write of a word to register location `a`, by the access codes of its fields; nothing where no register is. -/
def writeReg (s : State) (a v : Nat) : State :=
  match rowOf a with
  | some (r, ix) => writeFields r a ix v (lockedAt s r ix) r.fields s
  | none => s

/-- The summary bits that the registers of a location feed. -/
def summaryBitsAt (a : Nat) : List Nat :=
  match locate a with
  | .chan n _ => [4 + n]
  | .hub off =>
    if 0x100000 ≤ off && off < 0x200000 then [(off - 0x100000) / 0x40000]
    else match off / 0x10000 with
      | 0xD => [20] | 5 => [21] | 4 => [22] | 3 => [23] | 8 => [24] | 7 => [25] | 0xC => [26] | 6 => [27] | 9 => [28]
      | 0xA => if off % 0x10000 < 0x100 then [off % 0x10000 / 4 % 32] else []
      | _ => []
  | _ => []

/-- A write of a register with what follows from the causes and masks it changes: a channel's leaves and masks reach its
crew's lines, and every summary bit that rises sends its vector. -/
def writeSettled (s : State) (a v : Nat) : State :=
  match locate a with
  | .chan n off =>
    if off / 0x10000 == 4 || off / 0x10000 == 5 then memorySettled n (fun s => writeReg s a v) s
    else chSettled n (fun s => writeReg s a v) s
  | _ => settledAll (summaryBitsAt a) (fun s => writeReg s a v) s

/-- The high words latched for a requester: the latch of location `a` replaced (R6). -/
def latchHigh (s : State) (req : Requester) (a v : Nat) : State :=
  { s with clocks := { s.clocks with
      latch := (req, a, v) :: s.clocks.latch.filter (fun e => !(e.1 == req && e.2.1 == a)) } }

/-- The registers whose low word latches the high word: location of the low word, instance by instance (R6). -/
def isLowWord (a : Nat) : Bool :=
  match rowOf a with
  | some (r, _) => [0x030000020010, 0x0300000D0038, 0x0300000D100C, 0x0300000D080C, 0x030000040248, 0x030000060018,
      0x030000061018, 0x030000050028, 0x030000050030, 0x020000050028, 0x030000070050, 0x020000020040, 0x0300000C1048,
      0x0300000C1050, 0x0300000C1064, 0x020000100030, 0x0300000B8030, 0x020000030004, 0x030000030108, 0x0300000B0108].contains r.base
  | none => false

/-- A read of a register location by a requester, with R6: a low word latches its high word; a high word that the same
requester has latched returns the latched value once. -/
def readLatched (s : State) (req : Requester) (a : Nat) : Nat × State :=
  if isLowWord a then (readReg s a, latchHigh s req (a + 4) (readReg s (a + 4)))
  else match s.clocks.latch.find? (fun e => e.1 == req && e.2.1 == a) with
    | some e => (e.2.2, { s with clocks := { s.clocks with latch := s.clocks.latch.filter (fun f => !(f.1 == req && f.2.1 == a)) } })
    | none => (readReg s a, s)

/-- A read of a register as a command: the value or the way the access ends instead. -/
def readOut (s : State) (req : Requester) (addr size : Nat) : State :=
  match regGate s req addr size false with
  | .stop o => s.emit o
  | .wait p => (wakePart p s).emit .held
  | .silent => s.emit (.value 0)
  | .reach =>
    let (v, t) := readLatched s req (addr % 2 ^ 48)
    t.emit (.value v)

/-- A guarded write to registers: where the access reaches them, the change; in every case the completion. -/
def guardedWrite (s : State) (req : Requester) (addr size : Nat) (f : State → State) : State :=
  match regGate s req addr size true with
  | .stop o => s.emit o
  | .wait p => (wakePart p s).emit .held
  | .silent => s.emit .done
  | .reach => (f s).emit .done

end Sys2Proof.Machine
end

