-- ==== Sys2Proof/Machine/ByteCode.lean ====
section
/-! DEFINITION. On-chip memories and the byte code (spec/04): the code, the checker, logging, write-backs, and reads and
writes of coded bytes. -/

namespace Sys2Proof.Machine

/-- The exclusive or of a list of bits. -/
def parity (l : List Bool) : Bool := l.foldl xor false

/-- The bits of a word at given places. -/
def bitsAt (w : Coded) (l : List Nat) : List Bool := l.map w.getLsbD

/-- Check bits k0 to k3 of the data bits of a stored word (R94). -/
def checkBits (w : Coded) : List Bool :=
  [parity (bitsAt w [0, 1, 3, 4, 6]), parity (bitsAt w [0, 2, 3, 5, 6]), parity (bitsAt w [1, 2, 3, 7]),
    parity (bitsAt w [4, 5, 6, 7])]

/-- A list of bits as a number, the first as bit 0. -/
def ofBits : List Bool → Nat
  | [] => 0
  | b :: l => b.toNat + 2 * ofBits l

/-- The stored word of a byte (R94). -/
def encodeByte (d : Byte) : Coded :=
  let w : Coded := d.setWidth 13
  let k := checkBits w
  let k4 := xor (parity (bitsAt w (List.range 8))) (parity k)
  BitVec.ofNat 13 (d.toNat + 256 * ofBits (k ++ [k4]))

/-- The syndrome of a stored word (R95). -/
def syndrome (w : Coded) : Nat :=
  let s4 := parity (bitsAt w (List.range 13))
  let s := (List.zip (checkBits w) (bitsAt w [8, 9, 10, 11])).map (fun e => xor e.1 e.2)
  ofBits (s ++ [s4])

/-- What the checker makes of a syndrome (R95). -/
inductive Verdict where
  | clean
  /-- Correctable: the stored bit to invert. -/
  | correctable (bit : Nat)
  | uncorrectable
  deriving DecidableEq, Repr

/-- Syndrome decoding (R95). -/
def verdict (syn : Nat) : Verdict :=
  match syn with
  | 0x00 => .clean
  | 0x10 => .correctable 12
  | 0x11 => .correctable 8
  | 0x12 => .correctable 9
  | 0x14 => .correctable 10
  | 0x18 => .correctable 11
  | 0x13 => .correctable 0
  | 0x15 => .correctable 1
  | 0x16 => .correctable 2
  | 0x17 => .correctable 3
  | 0x19 => .correctable 4
  | 0x1A => .correctable 5
  | 0x1B => .correctable 6
  | 0x1C => .correctable 7
  | _ => .uncorrectable

/-- The word with a bit inverted. -/
def flipBit (w : Coded) (i : Nat) : Coded := w ^^^ BitVec.ofNat 13 (2 ^ i)

/-- The data byte of a stored word. -/
def dataOf (w : Coded) : Byte := w.setWidth 8

/-- The number of an instance: partition, unit, instance. -/
def instKey (p unit inst : Nat) : Nat := (p * 2048 + unit) * 128 + inst

/-- The number of a byte of an instance. -/
def byteKey (p unit inst addr : Nat) : Nat := instKey p unit inst * 2 ^ 20 + addr

/-- The always-on memory is kept as unit 2,047 of partition 20, where no unit is. -/
def aonUnit : Nat := 2047

/-- The memory of Patina's on-chip tree levels (R91, R283). Where what it holds stands in it is not stated: `State.patinas` holds
the contents, and this memory holds code words whose data nothing reads (assumption 11). -/
def treeUnit : Nat := 68

/-- The size in bytes of an instance, zero where there is none (R91, R283). -/
def memSize (p unit inst : Nat) : Nat :=
  if p < 4 then
    if unit < 32 then (if inst < 96 then 4096 else if inst < 104 then 65536 else 0) else 0
  else if p < 20 then
    if unit < 64 then (if inst < 3 then 32768 else 0)
    else if unit == treeUnit then (if inst < 1 then 524288 else 0)
    else if unit == 69 then (if inst < 16 then 1048576 else 0)
    else 0
  else if unit < 4 then (if inst < 3 then 32768 else 0)
  else if unit == 21 then (if inst < 64 then 1048576 else 0)
  else if unit == 24 then (if inst < 16 then 524288 else 0)
  else if unit == aonUnit then (if inst < 4 then 65536 else 0)
  else 0

/-- What a byte that nothing has written holds: zero, or in a memory that a forced release left without a fill a free value (R49). -/
def wildWord (s : State) (key : Nat) : Coded :=
  match s.onchip.wild.find? (·.1 == key / 2 ^ 27) with
  | some e => Config.freeCoded e.2 key
  | none => 0

/-- The stored word of a byte by its number. -/
def wordAt (s : State) (key : Nat) : Coded := smGet 0 s.onchip.bytes key ^^^ wildWord s key

/-- The state with another stored word. -/
def putWord (s : State) (key : Nat) (w : Coded) : State :=
  { s with onchip := { s.onchip with bytes := smSet 0 s.onchip.bytes key (w ^^^ wildWord s key) } }

/-- The stored word of a byte. -/
def storedWord (s : State) (p unit inst addr : Nat) : Coded := wordAt s (byteKey p unit inst addr)

/-- The state with another stored word. -/
def storeWord (s : State) (p unit inst addr : Nat) (w : Coded) : State := putWord s (byteKey p unit inst addr) w

/-- The CASE-free identity of an erroneous byte matches a write-back that is due. -/
def WriteBack.isAt (b : WriteBack) (p unit inst addr : Nat) : Bool :=
  b.p == p && b.unit == unit && b.inst == inst && b.addr == addr

/-- The unit identifier, AON flag of a log entry: UNIT is 0 for the always-on memory (R98). -/
def logUnit (p unit : Nat) : Nat := if unit == aonUnit then 0 else unitId p unit

/-- A slag entry matches (R98). -/
def slagMatches (s : State) (p e unit inst addr : Nat) : Bool :=
  s.bit (RAS_SLAG_VALID_VALID p) e && s.get (RAS_SLAG_UNIT p e) == logUnit p unit
    && s.get (RAS_SLAG_INSTANCE p e) == inst && s.on (RAS_SLAG_AON p e) == (unit == aonUnit)
    && s.get (RAS_SLAG_ADDR p e) == addr

/-- Syndrome, CASE and timestamp of a slag entry written. -/
def slagStamp (s : State) (p e syn case : Nat) : State :=
  s.puts [(RAS_SLAG_SYN p e, syn), (RAS_SLAG_CASE p e, case), (RAS_SLAG_TS_LO p e, s.clocks.ts % 2 ^ 32),
    (RAS_SLAG_TS_HI p e, s.clocks.ts / 2 ^ 32)]

/-- A correctable error logged in the slag table of its partition (R98). -/
def slagLog (s : State) (p unit inst addr syn case : Nat) : State :=
  match (List.range 32).find? (fun e => slagMatches s p e unit inst addr) with
  | some e => slagStamp (s.count (RAS_SLAG_COUNT p e)) p e syn case
  | none =>
    match (List.range 32).find? (fun e => !s.bit (RAS_SLAG_VALID_VALID p) e) with
    | some e =>
      let s := s.puts [(RAS_SLAG_UNIT p e, logUnit p unit), (RAS_SLAG_INSTANCE p e, inst),
        (RAS_SLAG_AON p e, (unit == aonUnit).toNat), (RAS_SLAG_ADDR p e, addr), (RAS_SLAG_COUNT p e, 1)]
      raiseRas RAS_CAUSE_SLAG_NEW ((slagStamp s p e syn case).putBit (RAS_SLAG_VALID_VALID p) e true)
    | none => raiseRas RAS_CAUSE_SLAG_OVF (s.count (RAS_SLAG_OVF_COUNT p))

/-- A correction counted and logged (R96, R98). -/
def countCorrection (s : State) (p unit inst addr syn case : Nat) : State :=
  slagLog (s.count (RAS_CE_COUNT_COUNT p)) p unit inst addr syn case

/-- The cause that an uncorrectable byte of a unit raises (R99). -/
def raiseMemUe (s : State) (p unit : Nat) : State :=
  if p < 4 then raiseSector p (FAB_SEC_CAUSE_MEM_UE p (unit % 32)) s
  else if p < 20 then raiseCh (p - 4) (CH_CAUSE_MEM_UE (p - 4)) s
  else raiseRas RAS_CAUSE_MEM_UE s

/-- An uncorrectable byte recorded in RAS_UE_LOG, with its cause (R99). -/
def logUncorrectable (s : State) (p unit inst addr syn : Nat) : State :=
  let s := s.puts [(RAS_UE_LOG_UNIT p, logUnit p unit), (RAS_UE_LOG_INSTANCE p, inst),
    (RAS_UE_LOG_AON p, (unit == aonUnit).toNat), (RAS_UE_LOG_CASE p, 0), (RAS_UE_LOG_ADDR p, addr),
    (RAS_UE_LOG_SYN p, syn), (RAS_UE_LOG_TS_LO p, s.clocks.ts % 2 ^ 32), (RAS_UE_LOG_TS_HI p, s.clocks.ts / 2 ^ 32)]
  raiseMemUe (s.count (RAS_UE_LOG_COUNT p)) p unit

/-- The memories of a unit are in the self-test shadow of an on-demand checker test (R106). -/
def inShadow (s : State) (p unit : Nat) : Bool :=
  s.on RAS_CHK_TEST_BUSY && s.onchip.chkPart == p && s.onchip.chkLeft.any (·.1 == unit)

/-- The CASE of a read whose write-back is not made (R97), none where it is made: ROM; configuration path; a user write at
the read edge; the self-test shadow. -/
def noWriteBack (s : State) (p unit : Nat) (rom cfgWrite userWrite : Bool) : Option Nat :=
  if rom then some 1
  else if cfgWrite || (p < 4 && regionBusy s (32 * p + unit % 32))
    || (p < 4 && s.config.loading && sectorHeld s (32 * p + unit % 32)) then some 2
  else if userWrite then some 3
  else if inShadow s p unit then some 4
  else none

/-- What a read of a byte gives: data, whether it was corrected, whether it is poisoned. -/
structure ReadByte where
  data : Byte
  corrected : Bool
  poison : Bool
  deriving DecidableEq, Repr

/-- A checked read of one byte (R95 to R99). A corrected read is logged at once where no write-back is made, and else
when it is made or abandoned. -/
def checkedRead (s : State) (p unit inst addr : Nat) (rom cfgWrite userWrite : Bool) : ReadByte × State :=
  let w := storedWord s p unit inst addr
  let syn := syndrome w
  match verdict syn with
  | .clean => (⟨dataOf w, false, false⟩, s)
  | .uncorrectable => (⟨dataOf w, false, true⟩, logUncorrectable s p unit inst addr syn)
  | .correctable i =>
    let w' := flipBit w i
    match noWriteBack s p unit rom cfgWrite userWrite with
    | some case => (⟨dataOf w', true, false⟩, countCorrection s p unit inst addr syn case)
    | none =>
      if s.onchip.due.any (·.isAt p unit inst addr) then (⟨dataOf w', true, false⟩, s)
      else (⟨dataOf w', true, false⟩,
        { s with onchip := { s.onchip with due := s.onchip.due ++ [{ p := p, unit := unit, inst := inst, addr := addr, word := w', syn := syn }] } })

/-- A second port's read of a byte that another port reads in the same cycle (R96): one correction is counted, the first port's. -/
def secondRead (s : State) (p unit inst addr : Nat) (rom userWrite : Bool) : ReadByte × State :=
  let w := storedWord s p unit inst addr
  match verdict (syndrome w) with
  | .correctable i => (⟨dataOf (flipBit w i), true, false⟩, s)
  | _ => checkedRead s p unit inst addr rom false userWrite

/-- A condition of R97 comes up for write-backs that are due: they will not be made. -/
def markDue (s : State) (f : WriteBack → Bool) (case : Nat) : State :=
  { s with onchip := { s.onchip with due := s.onchip.due.map (fun b => if f b then { b with case := case } else b) } }

/-- The configuration path writes a byte: a write-back that is due for it is superseded (R97, CASE 0b010). -/
def pathStore (s : State) (p unit inst addr : Nat) (w : Coded) : State :=
  markDue (storeWord s p unit inst addr w) (·.isAt p unit inst addr) 2

/-- A write-back comes to its edge (R96, R97): a user's write of the byte there wins; else it is made, unless a case of R97 has come
up. `b` is no longer among those due. -/
def finishWriteBack (b : WriteBack) (userHit : Bool) (s : State) : State :=
  if userHit then countCorrection s b.p b.unit b.inst b.addr b.syn 3
  else if b.case ≠ 0 then countCorrection s b.p b.unit b.inst b.addr b.syn b.case
  else match noWriteBack s b.p b.unit false false false with
    | some case => countCorrection s b.p b.unit b.inst b.addr b.syn case
    | none => countCorrection (storeWord s b.p b.unit b.inst b.addr b.word) b.p b.unit b.inst b.addr b.syn 0

/-- A write of one byte by a user: validly coded; a write-back that is due for it is dropped and logged as CASE 0b011
(R97). -/
def userStore (s : State) (p unit inst addr : Nat) (d : Byte) : State :=
  let s := storeWord s p unit inst addr (encodeByte d)
  match s.onchip.due.find? (·.isAt p unit inst addr) with
  | none => s
  | some b =>
    let s := { s with onchip := { s.onchip with due := s.onchip.due.filter (fun c => !c.isAt p unit inst addr) } }
    countCorrection s p unit inst addr b.syn 3

/-- Reads of consecutive bytes, the first as the lowest: the value, whether some byte was corrected, whether some byte is
poisoned. -/
def readBytes (s : State) (p unit inst addr : Nat) : Nat → Nat × Bool × Bool × State
  | 0 => (0, false, false, s)
  | n + 1 =>
    let (b, s) := checkedRead s p unit inst addr false false false
    let (v, c, u, s) := readBytes s p unit inst (addr + 1) n
    (b.data.toNat + 256 * v, b.corrected || c, b.poison || u, s)

/-- Writes of consecutive bytes, the lowest first; `be` says which are written. -/
def writeBytes (s : State) (p unit inst addr : Nat) (v be : Nat) : Nat → State
  | 0 => s
  | n + 1 =>
    let s := if be % 2 == 1 then userStore s p unit inst addr (BitVec.ofNat 8 v) else s
    writeBytes s p unit inst (addr + 1) (v / 256) (be / 2) n

/-- The write-backs due in a memory whose scope is being reset are abandoned and logged as CASE 0b101 (R97). -/
def abandonWriteBacks (s : State) (p : Nat) : State :=
  (s.onchip.due.filter (fun b => b.p == p && b.unit != aonUnit)).foldl
    (fun s b => countCorrection s p b.unit b.inst b.addr b.syn 5)
    { s with onchip := { s.onchip with due := s.onchip.due.filter (fun b => !(b.p == p && b.unit != aonUnit)) } }

/-- The write-backs due in the always-on memory, which no reset below POR and no power state touches (R13). -/
def aonDue (s : State) : List WriteBack := s.onchip.due.filter (fun b => b.p == 20 && b.unit == aonUnit)

/-- Patina's tree memory of a partition. -/
def treeByte (key : Nat) : Bool := 4 ≤ key / 2 ^ 27 / 2048 && key / 2 ^ 27 / 2048 < 20 && key / 2 ^ 27 % 2048 == treeUnit

/-- Every memory of a partition filled with zero bytes and valid check bits (R105): no byte of it listed. The fill skips the
always-on memory and Patina's tree memory (R283). -/
def fillMemories (s : State) (p : Nat) : State :=
  { s with onchip := { s.onchip with
      bytes := s.onchip.bytes.filter (fun e => !(e.1 / 2 ^ 27 / 2048 == p && e.1 / 2 ^ 27 % 2048 != aonUnit && !treeByte e.1))
      wild := s.onchip.wild.filter (fun e => e.1 / 2048 != p) } }

/-- Patina's tree memories filled, as a cold reset and a warm reset that retains no dump key do (R283). -/
def fillTrees (s : State) : State :=
  { s with onchip := { s.onchip with bytes := s.onchip.bytes.filter (fun e => !treeByte e.1) } }

end Sys2Proof.Machine
end

