-- ==== Sys2Proof/Machine/Operands.lean ====
section
/-! DEFINITION. The registers of a Yezar engine as its instructions see them: unified registers with the visibility of
R183, accumulators, loop registers, pointers and their post-update (R181), local addresses (R177 to R179), protection
regions (R193), and the checked reads and writes of the engine's memories. -/

namespace Sys2Proof.Machine

/-! Unified registers (R183, R207, R226). -/

/-- The oldest value of a register that a use of the given kind does not see past. -/
def hiddenBy (r : Nat) (left : Late → Nat) : List Late → Option Word
  | [] => none
  | l :: ls => if l.reg = r ∧ left l ≠ 0 then some l.old else hiddenBy r left ls

/-- A unified register as it stands. -/
def Engine.cur (e : Engine) (r : Nat) : Word := smGet 0 e.u r

/-- A unified register as an ALU operand or a store sees it. -/
def Engine.alu (e : Engine) (r : Nat) : Word := (hiddenBy r Late.alu e.late).getD (e.cur r)

/-- A unified register as X/Y addressing sees it. -/
def Engine.addr (e : Engine) (r : Nat) : Word := (hiddenBy r Late.addr e.late).getD (e.cur r)

/-- A result written to a unified register, hidden from the next `alu` instructions' operands and from the next `addr`
instructions' addressing. The counts stand one higher until the writing instruction retires. -/
def Engine.setU (e : Engine) (r : Nat) (v : Word) (alu addr : Nat) (stands : Bool) : Engine :=
  { e with
    u := smSet 0 e.u r v
    late := if alu = 0 ∧ addr = 0 then e.late else e.late ++ [⟨r, e.cur r, if alu = 0 then 0 else alu + 1, if addr = 0 then 0 else addr + 1, stands⟩] }

/-- A result with ALU visibility: addressing through a pointer, step or length register sees it one instruction later. -/
def Engine.setAlu (e : Engine) (r : Nat) (v : Word) : Engine := e.setU r v 0 (if r < 16 then 0 else 1) true

/-- The same for mfc, ext, mfa, mfah: a later post-update of the register stands (R226). -/
def Engine.setMove (e : Engine) (r : Nat) (v : Word) : Engine := e.setU r v 0 (if r < 16 then 0 else 1) false

/-- A result with the visibility of a load. -/
def Engine.setLoad (e : Engine) (r : Nat) (v : Word) : Engine := if r < 16 then e.setU r v 1 0 true else e.setU r v 1 2 true

/-- The status of an STX, which has the visibility of a load (R225); a later post-update stands (R226). -/
def Engine.setStatus (e : Engine) (r : Nat) (v : Word) : Engine := if r < 16 then e.setU r v 1 0 false else e.setU r v 1 2 false

/-- A post-update: seen at once; lost where a control-format, immediate-format or load instruction's write of the pointer is not yet
visible for addressing (R226). -/
def Engine.setPost (e : Engine) (r : Nat) (v : Word) : Engine :=
  if e.late.any (fun l => l.reg == r && l.addr != 0 && l.stands) then e
  else { e with u := smSet 0 e.u r v, late := e.late.filter (fun l => l.reg != r) }

/-! Accumulators (R182, R183). -/

/-- The four lanes of an accumulator as they stand. -/
def Engine.lanes (e : Engine) (a : Nat) : List Lane := (List.range 4).map (fun k => smGet 0 e.acc (4 * a + k))

/-- The lanes hidden from extractions, moves and stores. -/
def hiddenLanes (a : Nat) : List LateAcc → Option (List Lane)
  | [] => none
  | l :: ls => if l.a = a ∧ l.left ≠ 0 then some l.old else hiddenLanes a ls

/-- The lanes as extractions, moves and stores see them. -/
def Engine.seenLanes (e : Engine) (a : Nat) : List Lane := (hiddenLanes a e.lateAcc).getD (e.lanes a)

/-- Lane values put into the map of lanes, from lane `k` on. -/
def putLanes (m : List (Nat × Lane)) (k : Nat) : List Lane → List (Nat × Lane)
  | [] => m
  | v :: vs => putLanes (smSet 0 m k v) (k + 1) vs

/-- An accumulator written, with MAC visibility. -/
def Engine.setLanes (e : Engine) (a : Nat) (v : List Lane) : Engine :=
  { e with acc := putLanes e.acc (4 * a) v, lateAcc := e.lateAcc ++ [⟨a, e.lanes a, 2⟩] }

/-! Loop registers (R183, R190). -/

/-- A loop register hidden from the end-of-loop test. -/
def hiddenLoop (w : Nat) : List LateLoop → Option Word
  | [] => none
  | l :: ls => if l.which = w ∧ l.left ≠ 0 then some l.old else hiddenLoop w ls

/-- lc, ls and le as the end-of-loop test sees them. -/
def Engine.testLc (e : Engine) : Word := (hiddenLoop 0 e.lateLoop).getD e.lc
def Engine.testLs (e : Engine) : Word := (hiddenLoop 1 e.lateLoop).getD e.ls
def Engine.testLe (e : Engine) : Word := (hiddenLoop 2 e.lateLoop).getD e.le

/-- mtc to lc (0), ls (1) or le (2): the end-of-loop tests of this and of the next instruction see the old value. -/
def Engine.setLoop (e : Engine) (w : Nat) (v : Word) : Engine :=
  match w with
  | 0 => { e with lc := v, lateLoop := e.lateLoop ++ [⟨0, e.lc, 2⟩] }
  | 1 => { e with ls := v, lateLoop := e.lateLoop ++ [⟨1, e.ls, 2⟩] }
  | _ => { e with le := v, lateLoop := e.lateLoop ++ [⟨2, e.le, 2⟩] }

/-! Time in instructions (R224). -/

/-- An instruction retires: every late result comes one instruction nearer. -/
def Engine.tick (e : Engine) : Engine :=
  { e with
    late := (e.late.map (fun l => { l with alu := l.alu - 1, addr := l.addr - 1 })).filter (fun l => l.alu ≠ 0 || l.addr ≠ 0)
    lateAcc := (e.lateAcc.map (fun l => { l with left := l.left - 1 })).filter (fun l => l.left ≠ 0)
    lateLoop := (e.lateLoop.map (fun l => { l with left := l.left - 1 })).filter (fun l => l.left ≠ 0)
    oldWords := (e.oldWords.map (fun o => (o.1, o.2.1, o.2.2 - 1))).filter (fun o => o.2.2 ≠ 0) }

/-- Every earlier instruction completes: every result is visible (R195, R379). -/
def Engine.complete (e : Engine) : Engine := { e with late := [], lateAcc := [], lateLoop := [] }

/-! Pointers (R181). -/

/-- The smallest power of two at or above `l`, for `l` up to 2^15. -/
def powAtLeast (l : Nat) : Nat := ((List.range 16).map (2 ^ ·)).find? (l ≤ ·) |>.getD (2 ^ 15)

/-- The low `n` bits of `x` in reverse order. -/
def bitrev (x : Nat) : Nat → Nat
  | 0 => 0
  | n + 1 => (x % 2) * 2 ^ n + bitrev (x / 2) n

/-- What the post-update of a pointer gives; none where the spec leaves it open: a bit-reversed length that is not a power
of two. -/
def pointerNext (p step len : Word) : Option Word :=
  let l := len.toNat % 2 ^ 15
  if len.getLsbD 31 then
    if l ≠ 0 ∧ 2 ^ l.log2 = l then
      let b := p.toNat / l * l
      let k := l.log2
      some (BitVec.ofNat 32 (b + bitrev (bitrev (p.toNat - b) k + bitrev step.toNat k) k))
    else none
  else if l = 0 then some (p + step)
  else
    let q := powAtLeast l
    let b : Int := ((p.toNat / q * q : Nat) : Int)
    let n : Int := (p.toNat : Int) + step.toInt
    let n := if b + l ≤ n then n - l else n
    let n := if n < b then n + l else n
    some (BitVec.ofInt 32 n)

/-- The offset in XMEM or YMEM that a pointer reads: ptr & 0x7FF8. -/
def pointerOffset (p : Word) : Nat := p.toNat / 8 % 4096 * 8

/-- The next free value of the model. -/
def State.free (s : State) : Word × State := (Config.freeWord s.freeCtr, { s with freeCtr := s.freeCtr + 1 })

/-- An uncorrectable byte of an instance of `size` bytes recorded whose place the spec does not give: its address and syndrome are
free values (assumption 82). -/
def logSomewhere (p unit inst size : Nat) (s : State) : State :=
  let (v, s) := s.free
  logUncorrectable s p unit inst (v.toNat % size) (v.toNat / 2 ^ 25 % 32)

/-- Pointer `p` (a unified number, 16 to 23) of engine `g` post-updated through its step and length registers; the pointer,
step and length are those that addressing saw when the instruction read them, in `e`. -/
def postUpdate (g : Nat) (e : Engine) (p : Nat) (s : State) : State :=
  match pointerNext (e.addr p) (e.addr (p + 8)) (e.addr (p + 16)) with
  | some v => s.setEng g ((s.eng g).setPost p v)
  | none =>
    let (v, s) := s.free
    s.setEng g ((s.eng g).setPost p v)

/-! Local addresses (R177 to R179). -/

/-- What a local address names. -/
inductive Local where
  /-- A byte of IMEM (0), XMEM (1) or YMEM (2). -/
  | mem (inst off : Nat)
  /-- A byte of the ENG_ block. -/
  | eng (off : Nat)
  /-- A device address behind the crew port, or for a hub engine its port to the hub switch. -/
  | port (dev : Nat)
  | unmapped
  deriving DecidableEq, Repr

/-- Where the model keeps hub SRAM, which only hub engines reach by an address: beyond every device address. -/
def hubSram : Nat := 2 ^ 52

/-- A device address in no range of the location map. -/
def nowhere : Nat := 0x060000000000

/-- An address behind the DRAM window: channel, offset in its slot, key identifier. -/
def dramAddress (n off key : Nat) : Nat := if off < 2 ^ 36 then key * 2 ^ 48 + n * 2 ^ 36 + off else nowhere

/-- The local map of engine `g`. -/
def localOf (s : State) (g a : Nat) : Local :=
  let hub := 1024 ≤ g
  if a < 0x8000 then .mem 0 a
  else if 0x10000 ≤ a ∧ a < 0x18000 then .mem 1 (a - 0x10000)
  else if 0x20000 ≤ a ∧ a < 0x28000 then .mem 2 (a - 0x20000)
  else if 0x100000 ≤ a ∧ a < 0x101000 then .eng (a - 0x100000)
  else if 0x10000000 ≤ a ∧ a < 0x11000000 then
    if hub then (if a < 0x10800000 then .port (hubSram + (a - 0x10000000)) else .unmapped)
    else .port (0x020000000000 + g / 64 * 0x10000000 + 0x8000000 + (a - 0x10000000))
  else if 0x20000000 ≤ a ∧ a < 0x30000000 then
    if hub then (if a < 0x24000000 then .port (0x030000000000 + (a - 0x20000000)) else .unmapped)
    else .port (0x020000000000 + g / 64 * 0x10000000 + (a - 0x20000000))
  else if 0x40000000 ≤ a ∧ a < 0x80000000 then
    .port (dramAddress (if hub then s.get (ENG_WIN_DRAM_CH g) else g / 64)
      (s.get (ENG_WIN_DRAM_BASE g) * 2 ^ 20 + (a - 0x40000000)) (s.get (ENG_WIN_DRAM_KEYID g)))
  else if 0x80000000 ≤ a ∧ a < 2 ^ 32 then
    .port ((s.get (ENG_WIN_DEV_HI_ADDR g) * 2 ^ 32 + s.get (ENG_WIN_DEV_LO_ADDR g) * 2 ^ 21 + (a - 0x80000000)) % 2 ^ 52)
  else .unmapped

/-- LDX and STX reach crew SRAM, or hub SRAM for a hub engine (R191). -/
def exclusiveRange (g a : Nat) : Bool :=
  0x10000000 ≤ a && a < (if 1024 ≤ g then 0x10800000 else 0x11000000)

/-! Protection regions (R193). -/

/-- The rights a region bit is asked for. -/
inductive Right where
  | read | write | fetch
  deriving DecidableEq, Repr

/-- Region `r` of engine `g` matches an access. -/
def regionMatches (s : State) (g ctx a r : Nat) : Bool :=
  s.on (ENG_PR_EN g r) && (ctx &&& s.get (ENG_PR_CMASK g r)) == (s.get (ENG_PR_CID g r) &&& s.get (ENG_PR_CMASK g r))
    && s.get (ENG_PR_BASE g r) ≤ a / 4096 && a / 4096 ≤ s.get (ENG_PR_LIMIT g r)

/-- The access of engine `g` at local address `a` is allowed. A fed instruction runs without the regions (R382). -/
def allowed (s : State) (g : Nat) (k : Right) (a : Nat) : Bool :=
  let e := s.eng g
  let ctx := e.ctxid.toNat % 256
  if e.feeding then true
  else match (List.range 16).find? (regionMatches s g ctx a) with
    | some r => match k with
      | .read => s.on (ENG_PR_R g r)
      | .write => s.on (ENG_PR_W g r)
      | .fetch => s.on (ENG_PR_X g r)
    | none => ctx == 0

/-! The engine's memories: instances 0 to 2 of its unit (R91). -/

/-- The partition of engine `g`, and its unit's number there. -/
def engUnit (g : Nat) : Nat := if g < 1024 then g % 64 else g - 1024

/-- Bytes read from a memory of the engine: the value, whether some byte is uncorrectable, the state. -/
def readLocal (s : State) (g inst off bytes : Nat) : Nat × Bool × State :=
  let (v, _, u, s) := readBytes s (engPart g) (engUnit g) inst off bytes
  (v, u, s)

/-- Bytes written to a memory of the engine. -/
def writeLocal (s : State) (g inst off bytes v : Nat) : State :=
  writeBytes s (engPart g) (engUnit g) inst off v (2 ^ bytes - 1) bytes

end Sys2Proof.Machine
end

