-- ==== Sys2Proof/Machine/Startup.lean ====
section
/-! DEFINITION. Holding sectors and starting them up again (R128 to R134, R141, R144, R164): what a held sector gives up,
the lock step, the three release steps, and what the end of a start-up brings. -/

namespace Sys2Proof.Machine

/-- The configuration controller changed. -/
def State.onConfig (s : State) (f : Config → Config) : State := { s with config := f s.config }

/-- The sectors of the dies that a DIE_MASK names. -/
def diesSectors (mask : Nat) : List Nat := (List.range 128).filter (fun x => mask.testBit (x / 32))

/-- A request answered because its target is held or frozen: one that the sector's port had accepted with ERR_BUS, one
still on its way with ERR_DECODE (R164). Management messages are for the router itself. -/
def answerHeld (xs : List Nat) (r : NocReq) : NocReq :=
  match r.dst, r.rsp with
  | some x, none => if xs.contains x && !r.lost && r.opc != 0x18 && r.opc != 0x19 then { r with rsp := some (if r.accepted then .errBus else .errDecode) } else r
  | _, _ => r

/-- A value cut to a bundle's width (R74). -/
def cutTo (w : Nat) (v : BitVec 64) : BitVec 64 := v &&& BitVec.ofNat 64 (2 ^ w - 1)

/-- A bundle when sectors become held (R133, R144): values sent into them are discarded, a state bundle from them presents
its idle value, values of a streaming bundle in transit from them are delivered. -/
def holdBundle (xs : List Nat) (b : Bundle) : Bundle :=
  let b := if xs.contains b.dst then { b with transit := [], level := b.idle, arrived := none } else b
  if xs.contains b.src && !b.stream then { b with transit := [], level := b.idle, arrived := none } else b

/-- A capture in progress meets sectors that become held before their island took its snapshot (R146): they are not captured. -/
def holdCaptured (xs : List Nat) (s : State) : State :=
  let ys := xs.filter (fun x => s.config.capDue.contains (leaderOf s x) && !(s.config.capEdge.map (·.1)).contains (leaderOf s x)
    && !s.bit (CFG_CAP_HELD_SEC (x / 32)) (x % 32))
  if ys.isEmpty then s
  else
    let s := ys.foldl (fun s x => clearShadow true x (s.putBit (CFG_CAP_HELD_SEC (x / 32)) (x % 32) true)) s
    let due := s.config.capDue.filter (fun l => !(membersOf s l).all (fun x => s.bit (CFG_CAP_HELD_SEC (x / 32)) (x % 32)))
    (s.onConfig (fun c => { c with capDue := due })).put CFG_CAP_STATUS_HELD (min 255 (s.get CFG_CAP_STATUS_HELD + ys.length))

/-- The gating bits of sectors cleared: the governor neither skips nor gates a held island (R128). -/
def clearGates (xs : List Nat) (s : State) : State :=
  xs.foldl (fun s x => s.puts [(FAB_SEC_STATUS_GATED_USER (x / 32) (x % 32), 0), (FAB_SEC_STATUS_GATED_GOV (x / 32) (x % 32), 0)]) s

/-- Sectors become held (R128): registers at their initial values, outputs not driven, requests abandoned, the island clock
at 50 MHz with fusion not applied. -/
def holdSectors (xs : List Nat) (s : State) : State :=
  let s := clearGates xs (holdCaptured xs s)
  { s with
    fabric := { s.fabric with
      cells := s.fabric.cells.filter (fun c => !xs.contains (c / 24 / 32 / 55))
      macs := s.fabric.macs.filter (fun e => !xs.contains (e.1 / 48))
      stages := s.fabric.stages.filter (fun e => !xs.contains (e.1 / 208))
      banks := s.fabric.banks.filter (fun e => !xs.contains (bankOwner e.1))
      unarmed := s.fabric.unarmed.filter (fun l => !xs.contains l)
      fences := s.fabric.fences.filter (fun e => !xs.contains e.1)
      irqPrev := s.fabric.irqPrev.filter (fun e => !xs.contains e.1)
      outReleased := s.fabric.outReleased.filter (fun b => !xs.contains (bankOwner b))
      wrReleased := s.fabric.wrReleased.filter (fun x => !xs.contains x)
      gsrReleased := s.fabric.gsrReleased.filter (fun x => !xs.contains x)
      running := s.fabric.running.filter (fun x => !xs.contains x)
      latched := s.fabric.latched.filter (fun x => !xs.contains x) }
    clocks := { s.clocks with
      islFreq := xs.foldl (fun m x => smSet 0 m x 5) s.clocks.islFreq
      unfused := xs.foldl setAdd s.clocks.unfused
      bundles := s.clocks.bundles.map (fun e => (e.1, holdBundle xs e.2)) }
    noc := { s.noc with reqs := (s.noc.reqs.filter (fun r => !xs.contains r.port)).map (answerHeld xs) } }

/-- Configuration memory, shadow cells and memory contents of sectors cleared (R121, R141); write-backs that are due there are
superseded (R97). -/
def clearSectors (xs : List Nat) (s : State) : State :=
  { s with
    onchip := { s.onchip with
      frames := s.onchip.frames.filter (fun e => !xs.contains (e.1 / 512 / 12288))
      bytes := s.onchip.bytes.filter (fun e =>
        !(e.1 / 2 ^ 27 / 2048 < 4 && e.1 / 2 ^ 27 % 2048 < 32 && xs.contains (e.1 / 2 ^ 27 / 2048 * 32 + e.1 / 2 ^ 27 % 2048)))
      wild := s.onchip.wild.filter (fun e => !(e.1 / 2048 < 4 && xs.contains (e.1 / 2048 * 32 + e.1 % 2048)))
      due := (markDue s (fun b => b.p < 4 && b.unit < 32 && xs.contains (32 * b.p + b.unit)) 2).onchip.due
      scrubPos := s.onchip.scrubPos.filter (fun e => !xs.contains e.1) }
    config := { s.config with shadow := s.config.shadow.filter (fun e => !xs.contains (e.1 / 14)) } }

/-- CONFIGURED of sectors set or cleared. -/
def setConfigured (xs : List Nat) (b : Bool) (s : State) : State :=
  xs.foldl (fun s x => s.flag (FAB_SEC_STATUS_CONFIGURED (x / 32) (x % 32)) b) s

/-- REGION_BUSY of sectors set or cleared. -/
def setRegionBusy (xs : List Nat) (b : Bool) (s : State) : State :=
  xs.foldl (fun s x => s.flag (FAB_SEC_STATUS_REGION_BUSY (x / 32) (x % 32)) b) s

/-- Where frame byte `key` of Ingot or Billet contents stands in the on-chip memories (R120); none for other frames. -/
def contentKey (key : Nat) : Option Nat :=
  let x := key / 512 / 12288
  let f := key / 512 % 12288
  let b := key % 512
  if f < 10496 then none
  else
    let place : Nat × Nat :=
      if f < 11264 then ((f - 10496) / 8, (f - 10496) % 8 * 512 + b) else (96 + (f - 11264) / 128, (f - 11264) % 128 * 512 + b)
    some (((x / 32 * 2048 + x % 32) * 128 + place.1) * 2 ^ 20 + place.2)

/-- The Ingot and Billet contents of sectors taken from configuration memory (partition reset sequence, step 7). -/
def restoreContents (xs : List Nat) (s : State) : State :=
  s.onchip.frames.foldl (fun s e =>
    if xs.contains (e.1 / 512 / 12288) then
      match contentKey e.1 with
      | some k => putWord s k e.2
      | none => s
    else s) s

/-- A start-up in progress. -/
def State.startup (s : State) (who : Nat) : Option Startup := (s.config.startups.find? (·.1 == who)).map (·.2)

/-- A start-up replaced, or ended. -/
def State.setStartup (s : State) (who : Nat) (o : Option Startup) : State :=
  s.onConfig (fun c => { c with startups := c.startups.filter (·.1 != who) ++ (o.map (fun u => (who, u))).toList })

/-- The lock step begins (R129): generators move to their image frequency, fusion is applied. -/
def beginStartup (who : Nat) (xs : List Nat) (order gap1 gap2 : Nat) (s : State) : State :=
  let s := { s with clocks := { s.clocks with
    islFreq := s.clocks.islFreq.filter (fun e => !xs.contains e.1), unfused := s.clocks.unfused.filter (fun x => !xs.contains x) } }
  s.setStartup who (some { islands := xs.filter (fun x => leaderOf s x == x), order := order, gap1 := gap1, gap2 := gap2 })

/-- The action of release step `k` (1 to 3) in an order (R131): 0 OUT, 1 WR, 2 GSR. -/
def releaseAction (order k : Nat) : Nat :=
  let row := match order with
    | 1 => [0, 2, 1] | 2 => [1, 0, 2] | 3 => [1, 2, 0] | 4 => [2, 0, 1] | 5 => [2, 1, 0] | _ => [0, 1, 2]
  row.getD (k - 1) 0

/-- Sectors apply a release action (R129 to R132). -/
def applyRelease (act : Nat) (xs : List Nat) (s : State) : State :=
  { s with fabric := match act with
    | 0 => { s.fabric with outReleased := (xs.flatMap banksOf).foldl setAdd s.fabric.outReleased }
    | 1 => { s.fabric with wrReleased := xs.foldl setAdd s.fabric.wrReleased }
    | _ => { s.fabric with gsrReleased := xs.foldl setAdd s.fabric.gsrReleased } }

/-- Sectors leave HELD (R133): NoC ports and crossings open. -/
def leaveHeld (xs : List Nat) (s : State) : State :=
  { s with fabric := { s.fabric with running := xs.foldl setAdd s.fabric.running } }

/-- 512 bits to sixteen words of registers. -/
def putWords (f : Nat → Fld) (n v : Nat) (s : State) : State :=
  s.puts ((List.range n).map (fun w => (f w, v / 2 ^ (32 * w))))

/-- 512 free bits. -/
def freeDigest (s : State) : Nat × State :=
  (List.range 16).foldl (fun p w => let (v, t) := p.2.free; (p.1 + v.toNat * 2 ^ (32 * w), t)) (0, s)

/-- Measurement 3 runs on over one more partial load (R299): SHA-512 over the digest so far and the measurement of the image that was
loaded (assumption 89). -/
def extendMeasurement (m : Nat) (s : State) : State :=
  { s with security := { s.security with meas := smSet 0 s.security.meas 3 (sha512 128 (smGet 0 s.security.meas 3 + 2 ^ 512 * m)) } }

/-- Islands that have a token for a release step and have not applied it apply it now (R132): `l` is the island's leader. -/
def applyToken (who l : Nat) (s : State) : State :=
  match s.startup who with
  | some u =>
    if !u.unapplied.contains l then s
    else applyRelease (releaseAction u.order u.step) (membersOf s l)
      (s.setStartup who (some { u with unapplied := u.unapplied.filter (· ≠ l) }))
  | none => s

/-- The island led by `l` has had a delivered edge: it applies the step whose token it has. -/
def applyTokens (l : Nat) (s : State) : State := (List.range 6).foldl (fun s who => applyToken who l s) s

/-- A readback that waits for the end of a partial load may begin (R143). -/
def wakeReadback (s : State) : State := s.onConfig (fun c => { c with rb := c.rb.map (fun r => { r with waits := false }) })

/-- A start-up ends after the last report (R134, step 9 of R141). With it a wake from Moored ends, which drives WAKE_N where
HOST_WAKE asks for it and the source was no PERST (R357). -/
def finishStartup (who : Nat) (s : State) : State :=
  let s := s.setStartup who none
  match who, s.config.load with
  | 0, l =>
    let s := s.onConfig (fun c => { c with started := true })
    let s := { s with security := { s.security with meas := smSet 0 s.security.meas 3 0 }, host := { s.host with absent := [] } }
    let wakes := s.power.mooredWake.any (· < 3) && s.on PWR_MOORED_HOST_WAKE
    let s := { s with power := { s.power with wakeN := s.power.wakeN || wakes, mooredWake := none } }
    let later := l.any (!·.isPart) || s.config.waitSrc.isSome || s.config.next.isSome
    raiseCfg CFG_CAUSE_DONE (if later then s else s.put CFG_STATUS_STATE 0xA)
  | 1, some l =>
    let s := setRegionBusy l.region false s
    let s := extendMeasurement (measureOf l.head) (putWords CFG_PR_MEAS_MEAS 16 (measureOf l.head) s)
    let found := l.region.any s.config.lost.contains
    let s := s.puts ([(CFG_PR_STATUS_BUSY, 0), (CFG_PR_STATUS_PHASE, 0)] ++ if found then [(CFG_PR_STATUS_REGION_LOST, 0)] else [])
    let s := s.onConfig (fun c => { c with load := none, lost := if found then [] else c.lost })
    raiseCfg CFG_CAUSE_DONE (wakeReadback s)
  | _, _ => s

/-- After the third step no report is due any more, or no island is left: the start-up ends. -/
def checkStartup (who : Nat) (s : State) : State :=
  match s.startup who with
  | some u => if u.due.isEmpty && (u.step == 3 || u.islands.isEmpty) then finishStartup who s else s
  | none => s

/-- Islands leave a start-up without completing it: they stay held. -/
def dropIslands (who : Nat) (ls : List Nat) (s : State) : State :=
  match s.startup who with
  | some u =>
    checkStartup who (s.setStartup who (some { u with
      islands := u.islands.filter (fun l => !ls.contains l), due := u.due.filter (fun l => !ls.contains l)
      unapplied := u.unapplied.filter (fun l => !ls.contains l) }))
  | none => s

/-- Start-up left islands held: SU_PARTIAL in CFG_STATUS and in CFG_CAUSE (R129, R132). -/
def startupPartial (s : State) : State := raiseCfg CFG_CAUSE_SU_PARTIAL (s.flag CFG_STATUS_SU_PARTIAL true)

/-- The clock-alarm leaf of a sector (R129). -/
def sectorAlarm (x : Nat) (s : State) : State := raiseSector (x / 32) (FAB_SEC_CAUSE_CLK_ALARM (x / 32) (x % 32)) s

/-! Gating and banks (R77, R78, R83). -/

/-- GATED_USER of every sector of an island. -/
def putGated (s : State) (l : Nat) (b : Bool) : State :=
  (membersOf s l).foldl (fun s x => s.flag (FAB_SEC_STATUS_GATED_USER (x / 32) (x % 32)) b) s

/-- A gated island wakes (R78). -/
def wakeIsland (s : State) (x : Nat) : State := putGated s (leaderOf s x) false

/-- A bank's rail, as last measured, checked against the voltage that the image declares (R83): outside it the bank enters
mismatch, unless it is there already. -/
def checkBank (b : Nat) (s : State) : State :=
  let d := b / 3
  let k := b % 3
  let img := s.get (FAB_BANK_STATUS_VCCIO_IMG d k)
  if img == 0 || img == s.get (FAB_BANK_STATUS_VCCIO_DET d k) || s.on (FAB_BANK_STATUS_MISMATCH d k) then s
  else raiseSector d (FAB_SEC_CAUSE_BANK d (bankOwner b % 32)) (s.flag (FAB_BANK_STATUS_MISMATCH d k) true)

/-- An image with its declared voltages is in force: every bank is checked anew (R83, R90). -/
def checkBanks (s : State) : State :=
  (List.range 12).foldl (fun s b =>
    let m := FAB_BANK_STATUS_MISMATCH (b / 3) (b % 3)
    let img := s.get (FAB_BANK_STATUS_VCCIO_IMG (b / 3) (b % 3))
    if img == 0 || img == s.get (FAB_BANK_STATUS_VCCIO_DET (b / 3) (b % 3)) then s.flag m false else checkBank b s) s

end Sys2Proof.Machine
end

