-- ==== Sys2Proof/Machine/Recovery.lean ====
section
/-! DEFINITION. The replay journal's recoveries (R336, R342 to R344): which entries a fault takes into its scope, the
start of a recovery, its repetition, and its end by abandonment or by a reset. -/

namespace Sys2Proof.Machine

/-- The mesh row of a sector, by partition and sector or router number (R154): four rows on each of two rows of dies. -/
def meshRow (d i : Nat) : Nat := i % 32 / 8 + 4 * (d / 2)

/-- The mesh row of a fabric unit: a sector or its router. -/
def unitRow (id : Nat) : Option Nat := if id / 2048 < 4 then some (meshRow (id / 2048) (id % 2048)) else none

/-- An entry lies in the scope of a fault (R336). A hub port's fault is logged as hub unit 18, so its row is not known here:
it takes the entries of every row (assumption 21). -/
def inScope (kind unit : Nat) (e : WakeEntry) : Bool :=
  let part := e.dest / 2048
  match kind with
  | 1 | 2 => part < 4 && ((unitRow unit).isNone || unitRow e.dest == unitRow unit)
  | 3 => true
  | 4 | 7 => part == unit / 2048
  | 5 | 6 => e.out && e.dest == unit
  | 8 => !e.out && part == unit / 2048
  | _ => false

/-- The journal changed. -/
def State.onWake (s : State) (f : Wake → Wake) : State := { s with wake := f s.wake }

/-- What the host sees of an inbound entry that completes with an error (R343): PF1 carries CXL.mem. The bits of poisoned data
that no memory holds are free values (assumption 59). -/
def errorCompletion (e : WakeEntry) (s : State) : State :=
  match e.req.req with
  | .host p pf =>
    if e.posted then s
    else if pf.val == 1 then
      let (v, s) := freeDigest s
      s.emit (.hostData p.val e.req.tag v true)
    else s.emit (.hostAbort p.val e.req.tag)
  | _ => s

/-- Entries that satisfy `f` complete with an error and retire. -/
def failEntries (f : WakeEntry → Bool) (s : State) : State :=
  let s := (s.wake.entries.filter (fun e => !e.out && f e)).foldl (fun s e => errorCompletion e s) s
  s.onWake (fun w => { w with entries := w.entries.filter (fun e => e.out || !f e) })

/-- Microseconds since a recovery began. -/
def recoveryMicros (s : State) (r : Recovery) : Nat := (s.clocks.ts - r.start) / 1000

/-- WAKE_LOG completed: how the recovery ended (1 recovered, 2 abandoned, 3 by a reset). -/
def logRecovery (r : Recovery) (ended : Nat) (s : State) : State :=
  s.puts [(WAKE_LOG_UNIT, r.unit), (WAKE_LOG_KIND, r.kind), (WAKE_LOG_END, ended), (WAKE_LOG_REPLAYED, min r.replayed 0xFFFF),
    (WAKE_LOG_DUPS, min r.dups 0xFFFF), (WAKE_LOG_REDELIV, min r.redeliv 0xFFFF),
    (WAKE_LOG_DURATION, recoveryMicros s r), (WAKE_LOG_TS_LO, r.start), (WAKE_LOG_TS_HI, r.start / 2 ^ 32)]

/-- WAKE_STATUS shows the first of the recoveries that run; nothing once none runs. -/
def showRecovery (s : State) : State :=
  match s.wake.recs with
  | r :: _ => s.puts [(WAKE_STATUS_ACTIVE, 1), (WAKE_STATUS_QUIET, r.quiet.toNat), (WAKE_STATUS_KIND, r.kind), (WAKE_STATUS_UNIT, r.unit)]
  | [] => s.puts [(WAKE_STATUS_ACTIVE, 0), (WAKE_STATUS_QUIET, 0), (WAKE_STATUS_KIND, 0), (WAKE_STATUS_UNIT, 0)]

/-- A recovery ends. -/
def endRecovery (r : Recovery) (ended : Nat) (s : State) : State :=
  let left := s.wake.recs.filter (fun q => !(q.kind == r.kind && q.unit == r.unit))
  showRecovery (logRecovery r ended (s.onWake (fun w => { w with recs := left, freed := if left.isEmpty then [] else w.freed })))

/-- A recovery is abandoned (R344): every entry in its scope completes with an error. -/
def abandonRecovery (r : Recovery) (s : State) : State :=
  let s := endRecovery r 2 (failEntries (inScope r.kind r.unit) s)
  raiseWake WAKE_CAUSE_ABANDONED (s.count WAKE_COUNT_ABANDONS)

/-- Entries in a fault's scope are held: those forwarded and not completed (R342, step 1). -/
def holdEntries (kind unit : Nat) (s : State) : State :=
  s.onWake (fun w => { w with entries := w.entries.map (fun e =>
    if !e.out && e.state == 0 && inScope kind unit e then { e with state := 1 } else e) })

/-- A covered fault (R336, R342, R344): a new recovery; the same fault while its recovery runs restarts it once and then
ends it; the same unit within 1 ms of a completed recovery abandons at once. -/
def beginRecovery (kind unit : Nat) (s : State) : State :=
  match s.wake.recs.find? (fun r => r.kind == kind && r.unit == unit) with
  | some r =>
    if r.again then abandonRecovery r s
    else
      let s := s.onWake (fun w => { w with recs := w.recs.map (fun q =>
        if q.kind == kind && q.unit == unit then { q with again := true, quiet := false } else q) })
      raiseWake WAKE_CAUSE_REPEAT (showRecovery (holdEntries kind unit s))
  | none =>
    let last := smGet 0 s.wake.done unit
    let r : Recovery := ⟨kind, unit, s.clocks.ts, false, false, 0, 0, 0⟩
    let first := s.wake.recs.isEmpty
    let s := showRecovery (holdEntries kind unit (s.onWake (fun w => { w with recs := w.recs ++ [r] })))
    let s := s.puts [(WAKE_LOG_TS_LO, s.clocks.ts), (WAKE_LOG_TS_HI, s.clocks.ts / 2 ^ 32)]
    let s := if first then xtSource 7 s else s
    if last != 0 && s.clocks.ts < last - 1 + 1000000 then abandonRecovery r s else s

/-- A reset whose scope contains the unit ends a recovery (R344). -/
def resetRecoveries (parts : List Nat) (s : State) : State :=
  (s.wake.recs.filter (fun r => parts.contains (r.unit / 2048) && r.kind != 7)).foldl (fun s r => endRecovery r 3 s) s

end Sys2Proof.Machine
end

