-- ==== Sys2Proof/Machine/Reset.lean ====
section
/-! DEFINITION. Resets (R48 to R61, R422): scopes, what each reset does to every kind of state (R58), and how a source
starts one. -/

namespace Sys2Proof.Machine

/-- The scopes of R50. A host-link reset here has port-only scope; one of whole-device scope is a warm device reset. -/
inductive Scope where
  | cold (por : Bool)
  | warm
  | part (p : Nat)
  | link (port : Nat)
  deriving DecidableEq, Repr

/-- The partitions that a scope resets. -/
def Scope.parts : Scope → List Nat
  | .cold _ | .warm => List.range 21
  | .part p => [p]
  | .link _ => []

/-- The clock domains that a scope resets (R50). -/
def Scope.domains : Scope → List Nat
  | .cold _ | .warm => allDomains
  | .part p => resetDomains p
  | .link _ => []

/-- Bits `lo` to `lo + n - 1` set. -/
def ones (lo n : Nat) : Nat := (2 ^ n - 1) * 2 ^ lo

/-- The bits of a register instance's field that hold state of partition `p` (R422), as a mask of the field. -/
def ownMask (s : State) (p : Nat) (r : RegRow) (ix : List Nat) (f : FieldRow) : Nat :=
  let i := ix.getD 0 0
  let all (b : Bool) : Nat := if b then ones 0 f.w else 0
  match r.own with
  | .hub => all (p == 20)
  | .none => 0
  | .chan | .chanIdx => all (p == 4 + i)
  | .part | .die => all (p == i)
  | .flat32 => all (p == i / 32)
  | .lane => all (p == if i < 32 then 20 else (i - 32) / 16)
  | .quad => all (p == if i < 8 then 20 else (i - 8) / 4)
  | .probe => all (p == s.get (PROBE_UNIT i) / 2048)
  | .domBits => (List.range 32).foldl (fun m b => if 32 * i + b < 308 && domainPart (32 * i + b) == some p then m + 2 ^ b else m) 0
  | .summaryBits => if p < 20 then 2 ^ p else ones 20 9
  | .summary => all (p == min i 20)
  | .partFail => if f.lo = 0 then (if p < 4 then 2 ^ p else 0) else (if 4 ≤ p && p < 20 then 2 ^ (p - 4) else 0)
  | .rstStatus => all (p == 20)
  | .clkRef => 0

/-- The port whose host-link reset a register instance belongs to (R58, R408). -/
def ownPort (r : RegRow) (ix : List Nat) : Option Nat :=
  let i := ix.getD 0 0
  match r.port with
  | .none => none
  | .idx => some i
  | .bits => none
  | .laneP => if i < 32 then some (i / 16) else none
  | .quadP => if i < 8 then some (i / 4) else none

/-- The bits of a field that describe no part of the always-on or the debug domain, which nothing but POR resets (R13, R422):
of CLK_STABLE and CLK_LOST, all but those of domains 184 and 185. -/
def devBits (r : RegRow) (ix : List Nat) (f : FieldRow) : Nat :=
  if r.own == .domBits && ix.getD 0 0 == 5 then clearBits (ones 0 f.w) (ones 24 2) else ones 0 f.w

/-- The bits of a field that a reset of scope `sc` returns to their cold value (R11): those in its scope that the Kept
column does not name (W = 1, P = 2, H = 4). Host lanes and quads clear at a host-link reset whatever the column holds for
the general ones (R408). -/
def resetMask (s : State) (sc : Scope) (r : RegRow) (ix : List Nat) (f : FieldRow) : Nat :=
  if f.kind == .fixed then 0
  else match sc with
    | .cold true => ones 0 f.w
    | .cold false => if f.kind == .por then 0 else devBits r ix f
    | .warm => if f.kind == .por || f.kept.testBit 0 then 0 else devBits r ix f
    | .part p => if f.kind == .por || f.kept.testBit 1 then 0 else ownMask s p r ix f
    | .link q =>
      if r.port == .bits then (if f.kept.testBit 2 then 0 else 2 ^ q)
      else if ownPort r ix == some q && (!f.kept.testBit 2 || r.port == .laneP || r.port == .quadP) then ones 0 f.w else 0

/-- The field that a key of the register file names. -/
def fieldAt (k : Nat) : Option (RegRow × List Nat × FieldRow) :=
  match rowOf (k / 32) with
  | some (r, ix) => (r.fields.find? (fun f => f.lo == k % 32)).map (fun f => (r, ix, f))
  | none => none

/-- The register file after fields lose the bits that `mask` gives: they return to their cold value, or to the image's
where `image` holds its values. -/
def clearFields (mask : RegRow → List Nat → FieldRow → Nat) (image : List (Nat × Nat)) (s : State) : State :=
  let of (k : Nat) : Nat := match fieldAt k with
    | some (r, ix, f) => mask r ix f
    | none => 0
  let left (k v : Nat) : Nat := match fieldAt k with
    | some (r, ix, f) => if mask r ix f = ones 0 f.w then 0 else clearBits v (mask r ix f)
    | none => v
  let kept := s.regs.filterMap (fun e => if left e.1 e.2 = 0 then none else some (e.1, left e.1 e.2))
  { s with regs := image.foldl (fun m e => if of e.1 = 0 then m else smSet 0 m e.1 e.2) kept }

/-- The register file after a reset. A partition reset gives image fields the image's values; a cold or a warm reset leaves
them at zero until an image is loaded. -/
def resetRegs (sc : Scope) (s : State) : State :=
  match sc with
  | .part _ => clearFields (resetMask s sc) s.imageVals s
  | .link _ => clearFields (resetMask s sc) [] s
  | _ => { clearFields (resetMask s sc) [] s with imageVals := [] }

/-- A key that no other key equals: the next one drawn (R291). -/
def drawKey (slot : Nat) (s : State) : State :=
  { s with security := { s.security with
      drawn := s.security.drawn + 1, keys := smSet 0 s.security.keys slot (s.security.drawn + 1) } }

/-- A dump that an earlier pass of this warm reset retained stands still: the new normal key has not been drawn (R54, R293). -/
def dumpStands (s : State) : Bool := s.security.keyDue && s.on SEC_STATUS_DUMP_HELD

/-- A dump is retained at this warm reset (R293). -/
def retainsDump (s : State) (alarm : Bool) : Bool := ((s.on SEC_DUMP_REQ && s.on SEC_LOCK_DUMP) || dumpStands s) && !alarm

/-- The channels that a retained dump covers: those whose memory is ready (R293). -/
def dumpChannels (s : State) : List Nat :=
  (List.range 16).filter (fun n => if dumpStands s then s.bit SEC_DUMP_CH n else s.get (DRAM_STATUS_STATE n) == 4)

/-- The memory of a channel's DRAM as a reset finds it is left in self-refresh with its contents (R51, R261). -/
def holdsContents (s : State) (n : Nat) : Bool :=
  s.on (DRAM_STATUS_SR_KEPT n) || [4, 5, 6, 7].contains (s.get (DRAM_STATUS_STATE n))

/-- Channel DRAM at a cold or warm reset (R51, R283, R293): a cold reset loses the contents; a warm reset keeps them in
self-refresh, readable only in a channel that enters the dump state, and else the cleared root makes every line read zero. -/
def resetMemories (dump : List Nat) (s : State) : State :=
  { s with
    dram := s.dram.filter (fun c => dump.contains (c.1 / 2 ^ 36))
    patinas := s.patinas.filter (fun e => dump.contains e.1) }

/-- The state in which a load that a reset abandons ends (R125, R143). Steps 1 and 2 of a full load have written nothing; from
step 3 its frames are cleared. From step 4 of a partial load the region is lost. -/
def abandonLoad (s : State) : State :=
  match s.config.load with
  | none => s
  | some l =>
    if l.isPart then
      let lost := 3 ≤ s.get CFG_PR_STATUS_PHASE
      let s := if lost then setConfigured l.region false (clearSectors l.region (setRegionBusy l.region false
        (holdSectors l.region (s.flag CFG_PR_STATUS_REGION_LOST true)))) else s
      let s := s.puts [(CFG_PR_STATUS_BUSY, 0), (CFG_PR_STATUS_PHASE, 0), (CFG_PR_STATUS_CAUSE, 0x15)]
      raiseCfg CFG_CAUSE_FAIL (wakeReadback ((s.onConfig (fun c => { c with
        load := none, lost := if lost then l.region else c.lost })).setStartup 1 none))
    else
      let s := if s.config.loading then clearSectors (diesSectors l.dies) s else s
      let s := s.put CFG_STATUS_CAUSE 0x15
      let s := match l.src with
        | 1 => s.put CFG_FAIL_A 0x15
        | 2 => s.put CFG_FAIL_B 0x15
        | 3 | 5 => s.put CFG_FAIL_HOST 0x15
        | 4 => s.put CFG_FAIL_DBG 0x15
        | _ => s
      let s := s.puts [(CFG_STATUS_STATE, 0), (CFG_HLOAD_CTRL_ACTIVE, 0), (CFG_HLOAD_CTRL_WAITING, 0)]
      raiseCfg CFG_CAUSE_FAIL (s.onConfig (fun c => { c with load := none, stream := {}, loading := false, restart := true }))

/-- A load or a start-up meets a reset (R125, R134, R143): a load in progress is abandoned when the scope holds the hub or a die of the
load; of a start-up only the sectors of the die that is reset drop out, while a reset of the hub abandons it and a wait of the loader. -/
def resetLoads (parts : List Nat) (s : State) : State :=
  let s := match s.config.load with
    | some l =>
      let hit := parts.contains 20 || (if l.isPart then l.region.any (fun x => parts.contains (x / 32))
        else (List.range 4).any (fun d => parts.contains d && l.dies.testBit d))
      if hit then abandonLoad s else s
    | none => s
  if parts.contains 20 then s.onConfig (fun c => { c with startups := [], waitSrc := none, stream := {}, next := none })
  else
    let ls := (List.range 128).filter (fun x => parts.contains (x / 32))
    if ls.isEmpty then s else parts.foldl (fun s d => s.setStartup (2 + d) none) (dropIslands 0 ls s)

/-- The lanes that satisfy `f` keep what they hold; a quad does with its first lane. -/
def Lanes.keep (x : Lanes) (f : Nat → Bool) : Lanes :=
  { rx := x.rx.filter (fun e => f e.1), tx := x.tx.filter (fun e => f e.1), txSet := x.txSet.filter (fun e => f e.1)
    pll := x.pll.filter (fun e => f (4 * e.1)), adapting := x.adapting.filter f, eyeLost := x.eyeLost.filter f
    badCw := x.badCw.filter (fun e => f e.1), lost := x.lost.filter f }

/-- The probes attached to routers or ports of partition `p` lose their queued records (R175). -/
def resetProbes (p : Nat) (s : State) : State :=
  let out (n : Nat) : Bool := s.get (PROBE_UNIT n) / 2048 != p
  { s with noc := { s.noc with probeQ := s.noc.probeQ.filter (fun e => out e.1), gaps := s.noc.gaps.filter out } }

/-- What a reset of logic die `d` does beside its registers: sectors held, bundles and shadow cells emptied. -/
def resetDie (d : Nat) (s : State) : State :=
  let xs := (List.range 32).map (32 * d + ·)
  let s := resetProbes d s
  let s := holdSectors xs (s.onConfig (fun c => { c with shadow := c.shadow.filter (fun e => e.1 / 14 / 32 != d) }))
  { s with
    config := { s.config with capEdge := s.config.capEdge.filter (fun e => e.1 / 32 != d) }
    lanes := s.lanes.keep (fun l => l < 32 || (l - 32) / 16 != d)
    dbg := { s.dbg with isl := s.dbg.isl.filter (fun e => e.1 / 32 != d) } }

/-- Before a reset of channel `n` acts, each LUN's active descriptor is recorded in NAND_ACTIVE (R241). -/
def recordActive (n : Nat) (s : State) : State :=
  (smGet {} s.channels n).luns.foldl (fun s e =>
    match e.2.run.or e.2.prio with
    | some r => s.puts [(NAND_ACTIVE_VALID n e.1, 1), (NAND_ACTIVE_ROW n e.1, r.row)]
    | none => s) s

/-- What a reset of channel `n` does beside its registers: engines, NAND, codec, task queue and DRAM controller start anew;
the DRAM is left in self-refresh; Patina keeps its key and tree (partition reset sequence, step 2). -/
def resetChannel (n : Nat) (s : State) : State :=
  let s := recordActive n s
  { s with
    engines := s.engines.filter (fun e => !(e.1 < 1024 && e.1 / 64 == n))
    channels := s.channels.filter (fun e => e.1 != n)
    drams := s.drams.filter (fun e => e.1 != n)
    onchip := { s.onchip with banks := s.onchip.banks.filter (fun e => e.1 / 16 != n) }
    patinas := (s.patinas.map (fun e => if e.1 == n then (e.1, { e.2 with reenc := [], fill := [] }) else e)).filter (fun e => e.2 != {})
    noc := { s.noc with reqs := s.noc.reqs.filter (fun r => match r.req with
      | .engine g => !(g.val < 1024 && g.val / 64 == n)
      | .mover m => m.val != n
      | _ => true) } }

/-- What a reset of the hub does beside its registers. -/
def resetHub (s : State) : State :=
  let s := resetProbes 20 ((List.range 2).foldl (fun s p => s.puts [(WAKE_SEQ_IN p, 0), (WAKE_SEQ_OUT p, 0)]) s)
  { s with
    engines := s.engines.filter (fun e => e.1 < 1024)
    host := {}
    slots := {}
    wake := { s.wake with entries := [], marks := [], sides := [], recs := [], peek := [], freed := [] }
    security := { s.security with spdm := .start, exchange := false, sessions := [], signed := false, insecure := [], keyed := [], ksData := [], otpBuf := [] }
    config := { s.config with rb := none, bamidDue := true }
    noc := { s.noc with
      reqs := s.noc.reqs.filter (fun r => match r.req with
        | .sector _ | .debug => true
        | .engine g => g.val < 1024
        | .mover _ => true
        | _ => false)
      stopped := false, mgtDue := [] }
    clocks := { s.clocks with latch := [] } }

/-- What a host-link reset of port scope does beside the port's registers (R50): its journal entries are discarded, inbound
transactions not yet executed are dropped, outbound requests complete with a bus error. -/
def resetLink (port : Nat) (s : State) : State :=
  let s := s.puts [(WAKE_SEQ_IN port, 0), (WAKE_SEQ_OUT port, 0)]
  let lost := (s.wake.entries.filter (fun e => e.out && e.port == port)).map (·.req)
  let isHost (r : NocReq) : Bool := match r.req with
    | .host q _ => q.val == port
    | _ => false
  { s with
    lanes := s.lanes.keep (fun l => 32 ≤ l || l / 16 != port)
    wake := { s.wake with
      entries := s.wake.entries.filter (fun e => e.port != port)
      marks := s.wake.marks.filter (fun e => e.1 / 65536 != port)
      sides := s.wake.sides.filter (fun e => e.1 != port) }
    noc := { s.noc with reqs := (s.noc.reqs.filter (fun r => !isHost r)).map (fun r =>
      if r.rsp.isNone && lost.any (fun l => l.port == r.port && l.tag == r.tag) then { r with rsp := some .errBus } else r) }
    host := { s.host with
      msixTable := s.host.msixTable.filter (fun e => e.1 / 256 % 2 != port)
      msixPending := s.host.msixPending.filter (fun e => e / 64 % 2 != port)
      msixOff := setAdd (setAdd s.host.msixOff port) (2 + port)
      busMasterOff := setAdd (setAdd s.host.busMasterOff port) (2 + port)
      cfgSpace := s.host.cfgSpace.filter (fun e => e.1 / 1024 / 8 != port)
      absent := setDel s.host.absent port
      dir := s.host.dir.filter (fun e => e.2.port != port)
      biSnoops := s.host.biSnoops.filter (fun b => b.port != port)
      failed := s.host.failed ++ (lost.filter (fun r => match r.req with
        | .engine _ => true
        | _ => false)).map (fun r => (r.req, r.tag))
      queues := smSet nvAbsent (s.host.queues.filter (fun e => e.1 / 64 != port)) (port * 64) nvAdmin
      nvRegs := s.host.nvRegs.filter (fun e => e.1 / 1024 != port)
      cmds := s.host.cmds.filter (fun c => c.port != port) }
    security := { s.security with
      insecure := s.security.insecure.filter (fun e => e / 8 != port)
      keyed := s.security.keyed.filter (fun e => e / 8 != port) } }

/-- Power states of the partitions reset (R54, R348): entries, wakes, records and operating-point changes abandoned. -/
def resetPower (parts : List Nat) (s : State) : State :=
  let out (p : Nat) : Bool := !parts.contains p
  { s with power := { s.power with
      byGov := s.power.byGov.filter out, quiet := s.power.quiet.filter out, wakeDue := s.power.wakeDue.filter out
      records := s.power.records.filter (fun e => out e.1), changes := s.power.changes.filter (fun e => out e.1)
      later := s.power.later.filter out, capped := s.power.capped.filter (fun x => out (x / 32)), crewMhz := s.power.crewMhz.filter (fun e => out (4 + e.1))
      buckets := s.power.buckets.filter (fun e => out e.1), energy := s.power.energy.filter (fun e => out e.1) } }

/-- The clocks and the bookkeeping of a reset's scope: domains held, partitions busy, to be tested and filled. -/
def resetClocks (sc : Scope) (s : State) : State :=
  let ds := sc.domains
  let ps := sc.parts
  { s with clocks := { s.clocks with
      frozen := s.clocks.frozen.filter (fun d => !ds.contains d)
      released := s.clocks.released.filter (fun d => !ds.contains d)
      busy := ps.foldl setAdd s.clocks.busy
      wide := match sc with | .cold _ => 2 | .warm => 1 | _ => s.clocks.wide
      tested := s.clocks.tested.filter (fun p => !ps.contains p)
      filled := s.clocks.filled.filter (fun p => !ps.contains p)
      halted := s.clocks.halted && (match sc with | .cold _ | .warm => false | _ => true)
      stopped := s.clocks.stopped && (match sc with | .cold _ | .warm => false | _ => true) } }

/-- The reset sequence of partition `p` is over; with the last one a device-wide reset is (R54). -/
def endBusy (p : Nat) (s : State) : State :=
  let left := setDel s.clocks.busy p
  { s with clocks := { s.clocks with busy := left, wide := if left.isEmpty then 0 else s.clocks.wide } }

/-- The configuration controller with what the store holds and nothing else (R110, R111): a rewrite in progress has to begin anew. -/
def storeKept (s : State) : Config := { store := s.config.store, badPages := s.config.badPages }

/-- The rest of what a cold reset does (R42, R51, R419): the timestamp restarts, DRAM contents and every key are lost. -/
def resetCold (por : Bool) (s : State) : State :=
  let onchip : Onchip := if por then {} else { bytes := (fillTrees s).onchip.bytes, wild := s.onchip.wild, due := aonDue s }
  let s := resetMemories [] s
  { s with
    clocks := { s.clocks with ts := 0, missed := 0, firstFrame := false, slew := 0, bundles := [], islFreq := [], unfused := [], latch := [], alarm := true }
    fabric := {}
    onchip := onchip
    noc := {}
    config := { storeKept s with doneLow := true }
    security := { s.security with keys := [], meas := [], keyDue := true }
    wake := {}
    lanes := {}
    power := { s.power with moored := false, mooring := false, draining := false, mooredWake := none, wakeN := false, records := [], rails := [], alert := false, blind := false, opened := 0, window := 0, railDue := List.range 6 }
    dbg := if por then { ir := 2, coxEn := s.dbg.coxEn } else s.dbg }

/-- The rest of what a warm reset does (R51, R58, R419, R283, R291 to R293). -/
def resetWarm (alarm : Bool) (s : State) : State :=
  let keep := retainsDump s alarm
  let dump := if keep then dumpChannels s else []
  let old := smGet 0 s.security.keys (if dumpStands s then 1 else 0)
  let s := resetMemories dump (if keep then s else fillTrees s)
  { s with
    clocks := { s.clocks with bundles := [], islFreq := [], unfused := [], latch := [], alarm := true }
    fabric := {}
    onchip := { s.onchip with due := aonDue s, frames := [], banks := [], scrubPos := [], chkSkipped := false, chkLeft := [] }
    noc := {}
    config := { storeKept s with lastSrc := s.config.lastSrc }
    security := { s.security with keys := if keep then smSet 0 [] 1 old else [], meas := [], keyDue := true }
    wake := { done := s.wake.done }
    lanes := {}
    power := { s.power with moored := false, mooring := false, draining := false, mooredWake := none, wakeN := false, records := [], alert := false, blind := false, opened := 0, window := 0 } }

/-- After the registers of a warm reset: what a retained dump shows (R293), what the memories keep (R261). -/
def markWarm (dump : Option (List Nat)) (kept : List Nat) (s : State) : State :=
  let s := kept.foldl (fun s n => s.flag (DRAM_STATUS_SR_KEPT n) true) s
  match dump with
  | none => s
  | some ns =>
    let s := ns.foldl (fun s n => s.put (PAT_STATUS_STATE n) 2) s
    s.puts [(SEC_DUMP_CH, ns.foldl (fun m n => m + 2 ^ n) 0), (SEC_STATUS_DUMP_HELD, 1), (SEC_CAUSE_DUMP, 1), (SEC_KS_CTRL_STATE 1, 4)]

/-- A reset of a scope begins (R48, R50, R54, R58). `alarm`: its cause is SEC_ALARM. -/
def beginReset (sc : Scope) (alarm : Bool) (s : State) : State :=
  let parts := sc.parts
  let kept := (List.range 16).filter (holdsContents s)
  let s := parts.foldl abandonWriteBacks s
  let s := resetRecoveries parts (resetLoads parts s)
  match sc with
  | .cold por =>
    resetRegs sc (resetClocks sc (resetCold por ((List.range 16).foldl (fun s n => resetChannel n s)
      (resetHub (resetPower parts s)))))
  | .warm =>
    let dump := if retainsDump s alarm then some (dumpChannels s) else none
    let s := resetWarm alarm s
    markWarm dump kept (resetRegs sc (resetClocks sc ((List.range 16).foldl (fun s n => resetChannel n s)
      (resetHub (resetPower parts ((List.range 4).foldl (fun s d => resetDie d s) s))))))
  | .part p =>
    let s := resetPower parts s
    if p < 4 then
      let s := resetRegs sc (resetClocks sc (resetDie p s))
      (List.range 32).foldl (fun s i => s.put (CLK_ISL_PENDING (32 * p + i)) 0) s
    else if p < 20 then
      let s := resetRegs sc (resetClocks sc (resetChannel (p - 4) s))
      let s := if kept.contains (p - 4) then s.flag (DRAM_STATUS_SR_KEPT (p - 4)) true else s
      beginRecovery 7 (unitId p 70) s
    else resetRegs sc (resetClocks sc (resetHub s))
  | .link port => raiseHp (HP_CAUSE_LINK_DOWN port) (resetRegs sc (resetLink port s))

/-- The scope that runs when a reset of scope `sc` comes (R54): the union with a device-wide reset that is in progress, whose
sequence restarts. -/
def unite (s : State) (sc : Scope) : Scope :=
  match sc, s.clocks.wide with
  | .cold por, _ => .cold por
  | _, 2 => .cold false
  | _, 1 => .warm
  | sc, _ => sc

/-- A memory that Moored's entry was bringing into self-refresh is ready again: the entry is abandoned. -/
def leaveMooring (s : State) : State :=
  if !s.power.mooring then s
  else
    let back := (s.drams.filter (fun e => e.2.sr == some .moored)).map (·.1)
    let s := { s with
      drams := (s.drams.map (fun e => (e.1, if e.2.sr == some .moored then { e.2 with sr := none } else e.2))).filter (fun e => e.2 != {})
      power := { s.power with mooring := false, draining := false, mooredWake := none } }
    back.foldl (fun s n => s.puts [(DRAM_STATUS_STATE n, 4), (DRAM_STATUS_SR_KEPT n, 0)]) s

/-- A reset wakes the device from Moored, whose power-on timeline then runs, and abandons an entry of Moored where its scope
holds a partition (R54). -/
def resetWakes (sc : Scope) (s : State) : State :=
  if s.power.moored then { s with power := { s.power with moored := false, mooredWake := none } }
  else if sc.parts.isEmpty then s else leaveMooring s

/-- A reset from one of its sources (R53, R54). `endsHalt`: it is one of those that end an integrity halt; during the halt
every other source is ignored, but for a port's link. -/
def startReset (cause : Fld) (sc : Scope) (endsHalt : Bool) (s : State) : State :=
  let port := match sc with
    | .link _ => true
    | _ => false
  if s.clocks.halted && !endsHalt && !port then s
  else
    let s := s.flag cause true
    let sc := unite s sc
    beginReset sc (cause == RST_CAUSE_SEC_ALARM) (resetWakes sc s)

/-- Before the image's start-up loads RST_LINK_SCOPE and locks it, both ports use port-only scope (R61). -/
def deviceScope (s : State) (port : Nat) : Bool :=
  s.on RST_LINK_SCOPE_LOCK && s.on (if port = 0 then RST_LINK_SCOPE_A_DEVICE else RST_LINK_SCOPE_B_DEVICE)

/-- A host-link reset of a port at its locked scope (R50, R61). -/
def startLinkReset (cause : Fld) (port : Nat) (s : State) : State :=
  if deviceScope s port then startReset cause .warm true s else startReset cause (.link port) true s

/-- SEC_CAUSE bit `b` is raised; a rise whose SEC_ESCALATE bit is set starts a warm device reset with cause SEC_ALARM (R301),
but not during an integrity halt (R53). -/
def raiseSec (b : Nat) (f : Fld) (s : State) : State :=
  let rises := !s.on f
  let s := raiseLeaf 21 f s
  if rises && s.bit SEC_ESCALATE_ESC b then startReset RST_CAUSE_SEC_ALARM .warm false s else s

/-- The integrity halt (R53, R288): every engine and sector stops, ALARM_N is asserted, the failure is logged. -/
def integrityHalt (ch group kind line : Nat) (s : State) : State :=
  if s.clocks.halted then s
  else
    let s := s.puts [(SEC_HALT_LOG_CH, ch), (SEC_HALT_LOG_GROUP, group), (SEC_HALT_LOG_KIND, kind), (SEC_HALT_LOG_LINE, line),
      (SEC_HALT_LOG_TS_LO, s.clocks.ts), (SEC_HALT_LOG_TS_HI, s.clocks.ts / 2 ^ 32), (RST_CAUSE_INTEGRITY_HALT, 1)]
    { s with clocks := { s.clocks with halted := true, alarm := true } }

end Sys2Proof.Machine
end

