-- ==== Sys2Proof/Machine/Mesh.lean ====
section
/-! DEFINITION. The mesh (R154, R155): positions of routers, the dies a route crosses, and the loss of a die's NoC clock
(R170). -/

namespace Sys2Proof.Machine

/-- The mesh position of a sector's router (R154). -/
def meshPos (x : Nat) : Nat × Nat :=
  (8 * (x / 32 % 2) + x % 8, 4 * (x / 64) + x % 32 / 8)

/-- The logic die on which a mesh position lies. -/
def meshDie (p : Nat × Nat) : Nat := p.1 / 8 + 2 * (p.2 / 4)

/-- The numbers from `a` to `b`, whichever is larger. -/
def between (a b : Nat) : List Nat := (List.range (max a b + 1)).filter (fun i => min a b ≤ i)

/-- The dies whose routers a flit crosses from one sector, or from the hub, to another, or to the hub (R155). -/
def routeDies (src dst : Option Nat) : List Nat :=
  match src, dst with
  | none, none => []
  | some x, none => (between 0 (meshPos x).1).map (fun i => meshDie (i, (meshPos x).2))
  | none, some x => (between 0 (meshPos x).1).map (fun i => meshDie (i, (meshPos x).2))
  | some x, some y =>
    (between (meshPos x).1 (meshPos y).1).map (fun i => meshDie (i, (meshPos x).2))
      ++ (between (meshPos x).2 (meshPos y).2).map (fun j => meshDie ((meshPos y).1, j))

/-- The sector of a request's port; none for the hub's ports. -/
def portSector (port : Nat) : Option Nat := if port < 128 then some port else none

/-- A request, or its response on the way back, crosses the routers of die `d` (assumption 33). A request of the hub to a
target outside the fabric stays in the hub switch. -/
def crossesDie (d : Nat) (port : Nat) (dst : Option Nat) : Bool :=
  (routeDies (portSector port) dst ++ routeDies dst (portSector port)).contains d

/-- A die on the route whose routers are not in service: their NoC clock is lost, or a warm reset waits for it (R170). -/
def routeFrozen (s : State) (port : Nat) (dst : Option Nat) : Bool :=
  [0, 1, 2, 3].any (fun d => !runs s (128 + d) && crossesDie d port dst)

/-- NOC_ERR_LOG takes a fault: unit, kind, port, tag, time; its count rises (R175). -/
def logNoc (unit kind port tag : Nat) (s : State) : State :=
  (s.puts [(NOC_ERR_LOG_UNIT, unit), (NOC_ERR_LOG_KIND, kind), (NOC_ERR_LOG_PORT, port), (NOC_ERR_LOG_TAG, tag),
    (NOC_ERR_LOG_TS_LO, s.clocks.ts), (NOC_ERR_LOG_TS_HI, s.clocks.ts / 2 ^ 32)]).count NOC_ERR_LOG_COUNT

/-- The loss of the NoC clock of die `d` (R170): the requests in the frozen mesh complete with ERR_BUS. -/
def meshLost (d : Nat) (s : State) : State :=
  let s := { s with noc := { s.noc with reqs := s.noc.reqs.map (fun r =>
    if crossesDie d r.port r.dst then { r with rsp := some .errBus } else r) } }
  raiseNoc NOC_CAUSE_CLK_LOST (logNoc (unitId d 64) 7 0 0 s)

end Sys2Proof.Machine
end

