-- ==== Sys2Proof/Machine/Clocking.lean ====
section
/-! DEFINITION. The commands of clocks, the timestamp, island frequencies and bundles (spec/02, R32 to R47). -/

namespace Sys2Proof.Machine

/-- The clocks changed. -/
def State.onClocks (s : State) (f : Clocks → Clocks) : State := { s with clocks := f s.clocks }

/-- The lane whose recovered receive clock a domain is (R32). -/
def clockLane (d : Nat) : Option Nat := if 188 ≤ d && d < 284 then some (d - 188) else none

/-- CLOCK_STABLE (R45). A recovered clock that is stable again is the end of its lane's retraining, which takes the lane out of
the electrical idle of R47. -/
def execClockStable (d : Fin 308) (s : State) : Res :=
  let s := s.begin
  let s := { s with lanes := { s.lanes with lost := s.lanes.lost.filter (fun l => clockLane d != some l) } }
  .next (s.putBit (CLK_STABLE_STABLE (d / 32)) (d % 32) true)

/-- The clock-alarm cause of a domain (R46, R48): of its sector, its channel, or the hub. The NoC clock of a die has NOC_CAUSE,
the clock of a general lane or quad the sector that owns it (assumption 73). -/
def clockAlarm (d : Nat) (s : State) : State :=
  if d < 128 then sectorAlarm d s
  else if d < 132 then raiseNoc NOC_CAUSE_CLK_LOST s
  else if d < 180 then raiseCh ((d - 132) % 16) (CH_CAUSE_CLK_ALARM ((d - 132) % 16)) s
  else if d = 184 || d = 185 then s
  else if 220 ≤ d && d < 284 then sectorAlarm (laneOwner (d - 188)) s
  else if 292 ≤ d then sectorAlarm (quadOwner (d - 284)) s
  else raiseRas RAS_CAUSE_CLK_HUB s

/-- A domain is frozen. -/
def freezeDomain (d : Nat) (s : State) : State := s.onClocks (fun c => { c with frozen := setAdd c.frozen d })

/-- Requests that a domain had issued end with a bus error to it (R46). -/
def failIssued (mine : NocReq → Bool) (s : State) : State :=
  { s with noc := { s.noc with reqs := s.noc.reqs.map (fun r => if mine r then { r with rsp := some .errBus } else r) } }

/-- An island freezes (R41, R46, R132, R164): its bundles act as at a reset of that endpoint, requests for it are answered,
a start-up goes on without it. -/
def freezeIsland (d : Nat) (s : State) : State :=
  let xs := membersOf s d
  let s := failIssued (fun r => xs.contains r.port) (freezeDomain d s)
  let s := { s with
    clocks := { s.clocks with bundles := s.clocks.bundles.map (fun e => (e.1, holdBundle xs e.2)) }
    noc := { s.noc with reqs := s.noc.reqs.map (answerHeld xs) } }
  sectorAlarm d ([0, 1, 2, 3, 4, 5].foldl (fun s who =>
    match s.startup who with
    | some u => if u.go && u.islands.contains d then startupPartial (dropIslands who [d] s) else s
    | none => s) s)

/-- A request issued by a unit of clock domain `d` (R32): a crew's engines, a NAND interface's data mover, the hub's movers,
the hub engines, the debug domain, the configuration controller. -/
def issuedBy (d : Nat) (r : NocReq) : Bool :=
  match r.req with
  | .engine g => d == engDomain g
  | .mover m => d == 148 + m.val
  | .hubMover | .hubCrc | .smbus => d == 180
  | .debug => d == 184
  | .config => d == 186
  | _ => false

/-- The lanes of a recovered receive or quad transmit clock (R32). -/
def clockLanes (d : Nat) : List Nat := if d < 284 then [d - 188] else (List.range 4).map (4 * (d - 284) + ·)

/-- What the loss of a stable clock brings (R46, R47, R170). -/
def loseClock (d : Nat) (s : State) : State :=
  if d < 128 then freezeIsland d s
  else if d < 132 then meshLost (d - 128) (freezeDomain d s)
  else if d < 188 then
    let s := clockAlarm d (failIssued (issuedBy d) (freezeDomain d s))
    if 180 ≤ d && d ≠ 184 then s.onClocks (fun c => { c with alarm := true }) else s
  else
    let s := if d < 284 then { s with lanes := { s.lanes with lost := setAdd s.lanes.lost (d - 188) } } else s
    (clockLanes d).foldl (fun s l => raiseLane l 6 s) s

/-- CLOCK_LOST (R46, R47, R170): of a clock that has been stable; the always-on domain is never lost (R35). -/
def execClockLost (d : Fin 308) (s : State) : Res :=
  let s := s.begin
  if !clkStable s d || d.val = 185 then .next s
  else
    let s := s.putBit (CLK_STABLE_STABLE (d / 32)) (d % 32) false
    .next (loseClock d (s.putBit (CLK_LOST_LOST (d / 32)) (d % 32) true))

/-- AON_XTAL_STABLE (R35). -/
def execAonXtalStable (s : State) : Res := .next (s.begin.puts [(CLK_AON_XTAL_OK, 1), (CLK_AON_FALLBACK, 0)])

/-- The always-on domain runs from the fallback, with XTAL_FAIL and the cause (R35). -/
def xtalFails (s : State) : State :=
  raiseRas RAS_CAUSE_AON_XTAL (s.puts [(CLK_AON_XTAL_OK, 0), (CLK_AON_FALLBACK, 1), (CLK_AON_XTAL_FAIL, 1)])

/-- AON_XTAL_TIMEOUT (R35): of an input that has not been found stable. -/
def execAonXtalTimeout (s : State) : Res :=
  let s := s.begin
  .next (if s.on CLK_AON_XTAL_OK then s else xtalFails s)

/-- AON_XTAL_DRIFT (R35): of an input that was stable. -/
def execAonXtalDrift (s : State) : Res :=
  let s := s.begin
  .next (if s.on CLK_AON_XTAL_OK then xtalFails s else s)

/-! The timestamp across devices (R43, R44). -/

/-- TIMESYNC_FRAME_SEND (R43): by a leader or a follower, when bits [19:0] of its count are zero. -/
def execTimesyncFrameSend (s : State) : Res :=
  let s := s.begin
  let mode := s.get CLK_TS_CTRL_MODE
  if (mode = 1 ∨ mode = 2) ∧ s.clocks.ts % 2 ^ 20 = 0 then .next (s.emit (.timesync s.clocks.ts)) else .next s

/-- The bound of R44 between a leader and a follower that `k` further links lie behind: 12 ns from a common SYSCLK and 8 ns for
each further link; 40 ns per link with independent sources (assumption 30). -/
def chainBound (s : State) (k : Nat) : Int := if s.get CLK_REF_MODE = 1 then 40 * (k + 1) else 12 + 8 * k

/-- The bound that LOCKED is judged by: that of the follower's own link, since no register tells it how many links lie before
it (assumption 30). -/
def syncBound (s : State) : Int := chainBound s 0

/-- A follower takes a frame (R43): the first one after follower mode was enabled steps the count forward; later ones slew
it. Slewing back is kept in half nanoseconds. -/
def takeFrame (value : Nat) (s : State) : State :=
  let diff : Int := (value + s.get CLK_TS_CTRL_DELAY : Nat) - (s.clocks.ts : Int)
  let step := !s.clocks.firstFrame && 0 < diff
  let left := if step then 0 else diff
  let s := s.onClocks (fun c => { c with
    ts := if step then (c.ts + diff.toNat) % 2 ^ 64 else c.ts
    slew := if left < 0 then 2 * left else left
    firstFrame := true, missed := 0 })
  s.flag CLK_TS_CTRL_LOCKED (left.natAbs ≤ (syncBound s).natAbs)

/-- TIMESYNC_FRAME_RECEIVE (R43). -/
def execTimesyncFrameReceive (value : BitVec 64) (s : State) : Res :=
  let s := s.begin
  if s.get CLK_TS_CTRL_MODE = 2 then .next (takeFrame value.toNat s) else .next s

/-- TIMESYNC_LOST (R44): the fourth consecutive frame missed is the loss; the follower then runs free and slews no more. -/
def execTimesyncLost (s : State) : Res :=
  let s := s.begin
  if s.get CLK_TS_CTRL_MODE ≠ 2 then .next s
  else if s.clocks.missed + 1 < 4 then .next (s.onClocks (fun c => { c with missed := c.missed + 1 }))
  else .next (raiseRas RAS_CAUSE_TS_LOST ((s.onClocks (fun c => { c with missed := 0, slew := 0 })).puts
    [(CLK_TS_CTRL_LOCKED, 0), (CLK_TS_CTRL_LOST, 1)]))

/-- A write of CLK_TS_CTRL: follower mode newly enabled waits for its first frame (R43). -/
def writeTsCtrl (v : Nat) (s : State) : State :=
  let fresh := v % 4 = 2 ∧ s.get CLK_TS_CTRL_MODE ≠ 2
  let s := writeReg s 0x030000020018 v
  if fresh then s.onClocks (fun c => { c with firstFrame := false, missed := 0, slew := 0 })
  else if v % 4 ≠ 2 then s.onClocks (fun c => { c with slew := 0 }) else s

/-! Island frequencies (R36, R359). -/

/-- The R2 limit of an island's size and the part's grade, in units of 10 MHz. -/
def islandR2 (s : State) (x : Nat) : Nat :=
  let row := match s.get HUB_REV_GRADE with
    | 3 => [80, 76, 70, 62]
    | 2 => [68, 64, 59, 52]
    | _ => [56, 53, 49, 43]
  row.getD (s.get (CLK_ISL_FUSE x)) 0

/-- The limit of an island at an operating point, rounded down to 10 MHz (R358). -/
def islandLimit (s : State) (x op : Nat) : Nat := islandR2 s x * s.get (PWR_OPT_DIE_PCT op) / 100

/-- The operating point whose clock limits a partition keeps (R359): a lowering lowers the clocks first, and they stay low
where it fails; a raise raises them last. -/
def clockOp (s : State) (p : Nat) : Nat :=
  match s.power.changes.find? (·.1 == p) with
  | some (_, c) => if c.up then s.get (PWR_PART_OP_CUR p) else min c.target (s.get (PWR_PART_OP_CUR p))
  | none => s.get (PWR_PART_OP_CUR p)

/-- A frequency needs a higher voltage than the die's operating point gives. At OP5 no value is too high to be taken (R2). -/
def needsVoltage (s : State) (x f : Nat) : Bool :=
  let op := clockOp s (x / 32)
  op != 5 && islandLimit s x op < f

/-- The frequency that CLK_ISL.FREQ of a leader asks for: values 0 to 4 act as 5. -/
def islandWants (s : State) (x : Nat) : Nat := max 5 (s.get (CLK_ISL_FREQ x))

/-- The frequency at which the generator of a sector runs. -/
def islandRuns (s : State) (x : Nat) : Nat := smGet (islandWants s x) s.clocks.islFreq x

/-- The generator's frequency noted: an entry stands only where it differs from what FREQ asks for. -/
def setIslandRuns (x f : Nat) (s : State) : State :=
  s.onClocks (fun c => { c with islFreq := smSet (islandWants s x) c.islFreq x f })

/-- A write of CLK_ISL.FREQ of a leader (R36): the generator runs on at its frequency and moves in steps, or waits for the
voltage. The FREQ fields of its partners keep what the image gave them (assumption 74). -/
def writeFreq (x f : Nat) (s : State) : State :=
  if leaderOf s x ≠ x then s
  else
    let now := islandRuns s x
    let s := { s with power := { s.power with capped := setDel s.power.capped x } }
    setIslandRuns x now (s.puts [(CLK_ISL_FREQ x, f), (CLK_ISL_PENDING x, (needsVoltage s x (max 5 f)).toNat)])

/-- FREQ_WRITE (R36). -/
def execFreqWrite (req : Requester) (sec : Sec) (freq : BitVec 8) (s : State) : Res :=
  .next (guardedWrite s.begin req (0x030000021000 + sec.val * 4) 4 (writeFreq sec.val freq.toNat))

/-- The frequency that a generator moves to: where an operating point caps the island, its limit (R359); where a write of
FREQ waits for the voltage, the old frequency (R36). -/
def islandTarget (s : State) (x : Nat) : Nat :=
  let limit := max 5 (islandLimit s x (clockOp s (x / 32)))
  if !s.on (CLK_ISL_PENDING x) then islandWants s x
  else if s.power.capped.contains x then limit
  else min (islandRuns s x) limit

/-- After a change of the operating point of a die, its islands are capped by the new limit or released to FREQ (R359). -/
def recapIsland (s : State) (x : Nat) : State :=
  if needsVoltage s x (islandWants s x) then
    if s.on (CLK_ISL_PENDING x) then s
    else (s.flag (CLK_ISL_PENDING x) true) |> fun s => { s with power := { s.power with capped := setAdd s.power.capped x } }
  else (s.flag (CLK_ISL_PENDING x) false) |> fun s => { s with power := { s.power with capped := setDel s.power.capped x } }

/-- The islands of a partition, where it is a die. -/
def recap (p : Nat) (s : State) : State :=
  if p < 4 then (((List.range 32).map (32 * p + ·)).filter (fun x => leaderOf s x == x)).foldl recapIsland s else s

/-- ISLAND_FREQ_STEP (R36): one step of 10 MHz. -/
def execIslandFreqStep (sec : Sec) (s : State) : Res :=
  let s := s.begin
  let now := islandRuns s sec
  let goal := islandTarget s sec
  .next (if now < goal then setIslandRuns sec (now + 1) s else if goal < now then setIslandRuns sec (now - 1) s else s)

/-! Bundle crossings (R38 to R41). -/

/-- A bundle replaced. -/
def setBundle (b : Nat) (x : Bundle) (s : State) : State :=
  s.onClocks (fun c => { c with bundles := smInsert c.bundles b x })

/-- The ready that a streaming bundle shows its source while the destination takes nothing (R41, R133, R144): low towards an island that is
held, until it has left HELD; high, with every value lost, towards one in reset, failed, frozen or in a region being reconfigured. -/
def readyUnheard (s : State) (x : Nat) : Bool :=
  regionBusy s x || partFailed s (x / 32) || islandFrozen s x || !s.clocks.released.contains x || !sectorHeld s x

/-- STREAM_BUNDLE_ACCEPT (R39 to R41, R133): a value offered at a streaming bundle is accepted while the crossing holds fewer than
four; a value of a state bundle, which has no handshake, is launched (assumption 32). -/
def execStreamBundleAccept (b : Nat) (value : BitVec 64) (s : State) : Res :=
  let s := s.begin
  match s.clocks.bundles.find? (·.1 == b) with
  | none => .fault .noSuchUnit
  | some (_, x) =>
    if !sectorUp s x.src || !edgeReaches s x.src then .next s
    else if !sectorUp s x.dst then .next (if x.stream then s.emit (.accepted (readyUnheard s x.dst)) else s)
    else if !x.stream then .next (setBundle b { x with transit := x.transit ++ [cutTo x.width value] } s)
    else if x.transit.length < 4 then .next ((setBundle b { x with transit := x.transit ++ [cutTo x.width value] } s).emit (.accepted true))
    else .next (s.emit (.accepted false))

/-- A wake bit of the image changes from 0 to 1 as state bundle `b` goes from one value to another: a gated destination island
wakes (R78). -/
def wakesOnRise (s : State) (b : Nat) (old new : BitVec 64) : Bool :=
  s.fabric.wakeBits.any (fun w => w.1 == b && !old.getLsbD w.2 && new.getLsbD w.2)

/-- BUNDLE_VALUE_ARRIVE (R38 to R41, R78): the oldest value in transit reaches the destination. While the clock there does not run,
of the values of a state bundle the latest is kept, to be presented on the next edge, and those of a streaming bundle stand where
they are. -/
def execBundleValueArrive (b : Nat) (s : State) : Res :=
  let s := s.begin
  match s.clocks.bundles.find? (·.1 == b) with
  | none => .fault .noSuchUnit
  | some (_, x) =>
    match x.transit with
    | [] => .next s
    | v :: rest =>
      if !sectorUp s x.dst then .next (setBundle b { x with transit := rest } s)
      else if edgeReaches s x.dst then
        .next ((setBundle b { x with transit := rest, level := if x.stream then x.level else v, arrived := none } s).emit (.present b v.toNat))
      else if x.stream then .next s
      else
        let s' := setBundle b { x with transit := rest, arrived := some v } s
        .next (if wakesOnRise s b (x.arrived.getD x.level) v then wakeIsland s' x.dst else s')

end Sys2Proof.Machine
end

