-- ==== Sys2Proof/Machine/Dram.lean ====
section
/-! DEFINITION. The channel DRAM controllers (spec/11): the address map, initialisation and training, queues, refresh,
self-refresh, the row-disturbance defence, and internal state errors. -/

namespace Sys2Proof.Machine

/-- A channel's controller. -/
def State.dramc (s : State) (n : Nat) : DramCtrl := smGet {} s.drams n

/-- A channel's controller replaced. -/
def State.setDramc (s : State) (n : Nat) (d : DramCtrl) : State := { s with drams := smSet {} s.drams n d }

/-- The DRAM cells of channel `n` forgotten. -/
def loseDram (n : Nat) (s : State) : State := { s with dram := s.dram.filter (fun c => c.1 / 2 ^ 36 != n) }

/-! Address mapping (R260). -/

/-- Where a physical offset lies: sub-channel, rank, bank, row. -/
structure DramPlace where
  sub : Nat
  rank : Nat
  bank : Nat
  row : Nat
  deriving DecidableEq, Repr

/-- The place of a physical offset, with one rank or two. -/
def dramPlace (two : Bool) (p : Nat) : DramPlace :=
  let row := if two then p / 2 ^ 17 else p / 2 ^ 16
  { sub := slice p 6 1, rank := if two then slice p 16 1 else 0, bank := slice p 12 4 ^^^ row % 16, row := row }

/-- A bank's number in the state: sub-channel × 32 + rank × 16 + bank. -/
def DramPlace.key (p : DramPlace) : Nat := p.sub * 32 + p.rank * 16 + p.bank

/-- The place of an offset in channel `n`. -/
def placeOf (s : State) (n off : Nat) : DramPlace := dramPlace (s.on (DRAM_CFG_RANKS n)) off

/-! Pins (R259). -/

/-- The states of the DRAM pins. -/
inductive DramPins where
  | off | selfRefresh | training | ready
  deriving DecidableEq, Repr

/-- The pins of channel `n` by the state of its controller. -/
def dramPins (s : State) (n : Nat) : DramPins :=
  match s.get (DRAM_STATUS_STATE n) with
  | 0 => if s.on (DRAM_STATUS_SR_KEPT n) then .selfRefresh else .off
  | 8 => .off
  | 5 | 6 => .selfRefresh
  | 4 | 7 => .ready
  | _ => .training

/-! Capacity and layout (R258, R273). -/

/-- The die density of a DENSITY code in Gbit, none where the code is not listed. -/
def dramGbit (code : Nat) : Option Nat := [8, 12, 16, 24, 32][code]?

/-- The installed capacity in MiB that DRAM_CFG asks for: 2 × ranks × die density. -/
def dramMib (s : State) (n : Nat) : Option Nat :=
  (dramGbit (s.get (DRAM_CFG_DENSITY n))).map (fun g => 2 * (1 + s.get (DRAM_CFG_RANKS n)) * g * 128)

/-- Usable capacity in MiB of `c` MiB: by Patina mode, rounded down to 2 MiB (R273). -/
def usableMib (cipher : Bool) (c : Nat) : Nat := (if cipher then c * 8 / 9 else c * 255 / 320) / 2 * 2

/-- DRAM_CFG holds a listed rate and density and at most 8 GiB (R261). -/
def dramCfgGood (s : State) (n : Nat) : Bool :=
  s.get (DRAM_CFG_RATE n) ≤ 5 && (dramMib s n).any (· ≤ 8192)

/-- The segments that PASR refreshes in Moored (R270): those kept, those that hold their lines' metadata, and in Full mode
those that hold the counter tree. -/
def pasrEff (s : State) (n : Nat) : Nat :=
  let code := s.get (DRAM_CFG_DENSITY n)
  if code = 1 ∨ code = 3 then 0xFF
  else
    let keep := s.get (DRAM_PASR_KEEP n)
    let c := s.get (DRAM_CAP_INSTALLED n) * 2 ^ 20
    let d := s.get (DRAM_CAP_USABLE n) * 2 ^ 20
    let cipher := s.on (PAT_CFG_MODE n)
    let seg := c / 8
    let slot := if cipher then 8 else 4
    let covers (t a b : Nat) : Bool := a < b && t * seg < b && a < (t + 1) * seg
    let meta' (k t : Nat) : Bool := covers t (d + min (k * seg) d / slot) (d + min ((k + 1) * seg) d / slot)
    let need (t : Nat) : Bool :=
      keep.testBit t || (List.range 8).any (fun k => keep.testBit k && meta' k t) || (!cipher && covers t (c - c / 256) c)
    (List.range 8).foldl (fun m t => m + (need t).toNat * 2 ^ t) 0

/-! Queues and scheduling (R264 to R267). -/

/-- The drain watermarks in force. -/
def drainHigh (s : State) (n : Nat) : Nat := min 64 (s.get (DRAM_SCHED_WR_HI n))
def drainLow (s : State) (n : Nat) : Nat :=
  if drainHigh s n ≤ s.get (DRAM_SCHED_WR_LO n) then drainHigh s n - 1 else s.get (DRAM_SCHED_WR_LO n)

/-- Write drain is judged again (R267). -/
def DramCtrl.judgeDrain (d : DramCtrl) (hi lo : Nat) : DramCtrl :=
  if d.drain then (if d.writes.length ≤ lo ∧ (!d.drainIdle ∨ d.writes = []) then { d with drain := false, drainIdle := false } else d)
  else if hi ≤ d.writes.length then { d with drain := true, drainIdle := false }
  else if d.reads = [] ∧ d.writes ≠ [] then { d with drain := true, drainIdle := true }
  else d

/-- A read enters its queue (R266, R267): an older write to its row puts the bank into strict order up to that bank's
youngest write. -/
def DramCtrl.takeRead (d : DramCtrl) (place : Nat → DramPlace) (off : Nat) : DramCtrl :=
  let p := place off
  let older := d.writes.filter (fun w => (place w.off).key == p.key)
  let strict := if older.any (fun w => (place w.off).row == p.row)
    then smSet 0 d.strict p.key ((older.map (·.seq + 1)).foldl max 0) else d.strict
  { d with
    reads := d.reads ++ [⟨off, d.seq⟩], seq := d.seq + 1, strict := strict
    drain := d.drain && !d.drainIdle, drainIdle := false }

/-- A write enters its queue. -/
def DramCtrl.takeWrite (d : DramCtrl) (off : Nat) : DramCtrl :=
  { d with writes := d.writes ++ [⟨off, d.seq⟩], seq := d.seq + 1 }

/-- A request enters its queue. -/
def dramTake (s : State) (n : Nat) (d : DramCtrl) (write : Bool) (off : Nat) : DramCtrl :=
  (if write then d.takeWrite off else d.takeRead (placeOf s n) off).judgeDrain (drainHigh s n) (drainLow s n)

/-- The queue of a kind has room. -/
def DramCtrl.hasRoom (d : DramCtrl) (write : Bool) : Bool := (if write then d.writes else d.reads).length < 64

/-- The requests that Patina holds are presented in order, each kind until its queue is full. -/
def dramPresent (s : State) (n : Nat) : List (Bool × Nat) → DramCtrl → DramCtrl
  | [], d => d
  | (w, off) :: rest, d =>
    if d.hasRoom w && !d.held.any (·.1 == w) then dramPresent s n rest (dramTake s n d w off)
    else dramPresent s n rest { d with held := d.held ++ [(w, off)] }

/-! Initialisation and training (R261 to R263). -/

/-- The controller fails (R262): RESET_N low, contents lost, SR_KEPT clear, no usable capacity. -/
def dramFails (n : Nat) (s : State) : State :=
  let s := loseDram n (s.setDramc n {})
  s.puts [(DRAM_STATUS_STATE n, 8), (DRAM_STATUS_SR_KEPT n, 0), (DRAM_CAP_USABLE n, 0)]

/-- The cold or the warm path begins; the cold path drives RESET_N low, which loses the contents. -/
def dramBegin (n : Nat) (s : State) : State :=
  let warm := s.on (DRAM_STATUS_SR_KEPT n)
  let s := if warm then s else loseDram n s
  (s.setDramc n { s.dramc n with warm := warm, failedOnce := false, began := s.clocks.ts }).puts
    [(DRAM_STATUS_STATE n, if warm then 2 else 1), (DRAM_STATUS_RATE_EFF n, s.get (DRAM_CFG_RATE n))]

/-- DRAM_CTRL.START (R261, R277). -/
def dramStart (n : Nat) (s : State) : State :=
  let st := s.get (DRAM_STATUS_STATE n)
  if st ≠ 0 ∧ st ≠ 8 then s
  else if !dramCfgGood s n then s.flag (DRAM_STATUS_CFG_BAD n) true
  else dramBegin n (s.puts [(DRAM_STATUS_CFG_BAD n, 0), (PAT_CFG_LOCK n, 1)])

/-- DRAM_CTRL_START (R261). -/
def execDramCtrlStart (req : Requester) (n : Ch) (s : State) : Res :=
  .next (guardedWrite s.begin req (0x020000040004 + n.val * 0x10000000) 4 (dramStart n.val))

/-- DRAM_AUTO_START (R263): with the memory in self-refresh and the DRAM_CFG kept, which a partition reset and Moored keep
and DRAM_CAP shows. -/
def execDramAutoStart (n : Ch) (s : State) : Res :=
  let s := s.begin
  .next (if s.get (DRAM_STATUS_STATE n) = 0 ∧ s.on (DRAM_STATUS_SR_KEPT n) ∧ s.get (DRAM_CAP_INSTALLED n) ≠ 0 ∧ runs s (164 + n)
    then dramBegin n s else s)

/-- The cold path comes to its step 5, at the latest 2.3 ms after START (R261): STATE = training. -/
def dramTrainingBegins (n : Nat) (s : State) : State :=
  if s.get (DRAM_STATUS_STATE n) = 1 ∧ (s.dramc n).began + 2300000 ≤ s.clocks.ts then s.put (DRAM_STATUS_STATE n) 3 else s

/-- One nanosecond at the DRAM controllers. -/
def dramTimes (s : State) : State := (s.drams.map (·.1)).foldl (fun s n => dramTrainingBegins n s) s

/-- A path is in progress. -/
def dramTrains (s : State) (n : Nat) : Bool := [1, 2, 3].contains (s.get (DRAM_STATUS_STATE n))

/-- The words of trained values. -/
def putTrain (n t : Nat) (w : Word) (s : State) : State :=
  s.puts [(DRAM_TRAIN_RD_MARGIN n t, slice w.toNat 24 8), (DRAM_TRAIN_WR_MARGIN n t, slice w.toNat 16 8),
    (DRAM_TRAIN_CA_MARGIN n t, slice w.toNat 8 8), (DRAM_TRAIN_VREF n t, slice w.toNat 0 8)]

/-- Requests held are presented again where the controller takes them. -/
def dramRelease (n : Nat) (s : State) : State :=
  let d := s.dramc n
  if s.get (DRAM_STATUS_STATE n) = 4 then s.setDramc n (dramPresent s n d.held { d with held := [] }) else s

/-- DRAM_INIT_COMPLETE (R261, R274). -/
def execDramInitComplete (n : Ch) (trainA trainB : Word) (s : State) : Res :=
  let s := s.begin
  if !dramTrains s n then .next s
  else
    let s := putTrain n 1 trainB (putTrain n 0 trainA s)
    let c := (dramMib s n).getD 0
    let d := s.dramc n
    let s := s.setDramc n { d with warm := false, failedOnce := false, retrain := false, sr := none }
    .next (dramRelease n (s.puts [(DRAM_CAP_INSTALLED n, c), (DRAM_CAP_USABLE n, usableMib (s.on (PAT_CFG_MODE n)) c),
      (DRAM_STATUS_SR_KEPT n, 0), (DRAM_STATUS_STATE n, 4)]))

/-- A step has failed a second time (R262): recorded; then a lower rate, or the controller fails. -/
def dramStepFails (n step sub : Nat) (s : State) : State :=
  let s := raiseMemory n (DRAM_CAUSE_TRAIN_FAIL n) (s.puts [(DRAM_STATUS_STEP n, step), (DRAM_STATUS_FAIL_SUB n, sub)])
  let rate := s.get (DRAM_STATUS_RATE_EFF n)
  if step = 1 ∨ rate = 0 ∨ !s.on (DRAM_CFG_FALLBACK n) then dramFails n s
  else
    let s := (s.setDramc n { s.dramc n with failedOnce := false }).puts
      [(DRAM_STATUS_RATE_EFF n, rate - 1), (DRAM_STATUS_STATE n, 3)]
    raiseMemory n (DRAM_CAUSE_FALLBACK n) s

/-- DRAM_TRAINING_FAILURE (R262), also of the steps that a unit reset for training values runs (R275). -/
def execDramTrainingFailure (n : Ch) (step : Fin 6) (sub : Fin 2) (s : State) : Res :=
  let s := s.begin
  let again := s.get (DRAM_STATUS_STATE n) = 7 ∧ (s.dramc n).retrain
  .next (if (dramTrains s n ∨ again) ∧ step.val ≠ 0 then dramStepFails n step sub s else s)

/-- DRAM_CTRL.REF_ALL (R268): ignored unless ready. -/
def dramRefAll (n : Nat) (s : State) : State :=
  if s.get (DRAM_STATUS_STATE n) = 4 then s.setDramc n { s.dramc n with refAll := true } else s

/-- DRAM_CTRL_REF_ALL (R268). -/
def execDramCtrlRefAll (req : Requester) (n : Ch) (s : State) : Res :=
  .next (guardedWrite s.begin req (0x020000040004 + n.val * 0x10000000) 4 (dramRefAll n.val))

/-! Internal state errors and requests (R264, R274, R275). -/

/-- An internal state error of the controller (R275), by its state. -/
def dramStateError (n : Nat) (training : Bool) (s : State) : State :=
  let d := s.dramc n
  let st := s.get (DRAM_STATUS_STATE n)
  let empty : DramCtrl := { d with reads := [], writes := [], drain := false, drainIdle := false, strict := [], rows := [], acts := [] }
  if st = 4 ∨ st = 5 ∨ st = 7 then
    if d.lastErr ≠ 0 ∧ s.clocks.ts < d.lastErr - 1 + 1000000 then
      dramFails n (raiseMemory n (DRAM_CAUSE_STATE_ERR n) s)
    else
      let order := d.writes.foldl (fun m r => smInsert m r.seq (true, r.off)) (d.reads.foldl (fun m r => smInsert m r.seq (false, r.off)) [])
      let s := s.setDramc n { empty with
        held := order.map (·.2) ++ d.held, retrain := d.retrain || training, lastErr := s.clocks.ts + 1 }
      raiseMemory n (DRAM_CAUSE_STATE_ERR n) ((s.put (DRAM_STATUS_STATE n) 7).count WAKE_COUNT_RECOVERIES)
  else if dramTrains s n then
    if d.failedOnce then
      let (v, s) := s.free
      dramStepFails n (1 + v.toNat % 5) (v.toNat / 8 % 2) (s.setDramc n empty)
    else s.setDramc n { empty with failedOnce := true }
  else if st = 6 then
    raiseMemory n (DRAM_CAUSE_STATE_ERR n) (s.setDramc n { empty with retrain := d.retrain || training })
  else s

/-- DRAM_STATE_ERROR (R275). -/
def execDramStateError (n : Ch) (training : Bool) (s : State) : Res := .next (dramStateError n training s.begin)

/-- DRAM_REQUEST (R264, R274): the line at a physical offset. An offset beyond the installed capacity is an internal state
error; a controller that is not initialised takes nothing. -/
def execDramRequest (n : Ch) (write : Bool) (line : Nat) (s : State) : Res :=
  let s := s.begin
  let st := s.get (DRAM_STATUS_STATE n)
  let off := line / 64 * 64
  if s.get (DRAM_CAP_INSTALLED n) * 2 ^ 20 ≤ off then .next (dramStateError n false s)
  else if st = 4 then
    let d := s.dramc n
    if d.hasRoom write && !d.held.any (·.1 == write) then .next (s.setDramc n (dramTake s n d write off))
    else .next (s.setDramc n { d with held := d.held ++ [(write, off)] })
  else if st = 5 ∨ st = 6 ∨ st = 7 ∨ (s.dramc n).retrain then .next (s.setDramc n { s.dramc n with held := (s.dramc n).held ++ [(write, off)] })
  else .next s

/-- The oldest request for a line. -/
def oldestFor (off : Nat) (l : List DramReq) : Option DramReq := l.find? (·.off == off)

/-- In a bank in strict order only the oldest request of the bank goes (R266). -/
def DramCtrl.inOrder (d : DramCtrl) (place : Nat → DramPlace) (r : DramReq) : Bool :=
  let k := (place r.off).key
  smGet 0 d.strict k == 0 || (d.reads ++ d.writes).all (fun q => (place q.off).key != k || r.seq ≤ q.seq)

/-- An activate of a row in the bank's table of 32 entries (R271). -/
def noteActivate (row : Nat) (t : List (Nat × Nat)) : List (Nat × Nat) :=
  if t.any (·.1 == row) then t.map (fun e => if e.1 == row then (e.1, e.2 + 1) else e)
  else
    let low := if t.length < 32 then 0 else (t.map (·.2)).foldl min ((t.map (·.2)).headD 0)
    match t.findIdx? (·.2 == low) with
    | some i => t.set i (row, low + 1)
    | none => t ++ [(row, low + 1)]

/-- The threshold in force (R272). -/
def rdThreshold (s : State) (n : Nat) : Nat := max 256 (s.get (DRAM_RD_CFG_THRESH n))

/-- A row that has reached the threshold has its neighbours refreshed, each by an activate and a precharge (R272): the bank's row is
closed. Those activates are not counted (assumption 95). -/
def defendRow (n bank row : Nat) (s : State) : State :=
  let d := s.dramc n
  let t := noteActivate row (smGet [] d.acts bank)
  if t.any (fun e => e.1 == row && rdThreshold s n ≤ e.2) then
    (s.setDramc n { d with
      acts := smSet [] d.acts bank (t.map (fun e => if e.1 == row then (e.1, 0) else e)), rows := smErase d.rows bank }).count
      (DRAM_RD_STAT_MITIG n)
  else s.setDramc n { d with acts := smSet [] d.acts bank t }

/-- The row of a place is open, by an activate where it was not. -/
def openRow (n : Nat) (p : DramPlace) (s : State) : State :=
  let d := s.dramc n
  if smGet 0 d.rows p.key = p.row + 1 then s
  else
    let rolling := if s.on (DRAM_RD_CFG_RFM n) then smSet 0 d.rolling p.key (smGet 0 d.rolling p.key + 1) else d.rolling
    defendRow n p.key p.row (s.setDramc n { d with rows := smSet 0 d.rows p.key (p.row + 1), rolling := rolling })

/-- After a burst: strict order ends with the last older write; drain is judged. -/
def DramCtrl.settle (d : DramCtrl) (place : Nat → DramPlace) (k hi lo : Nat) : DramCtrl :=
  let still := d.writes.any (fun w => (place w.off).key == k && w.seq + 1 ≤ smGet 0 d.strict k)
  { d with strict := if still then d.strict else smErase d.strict k }.judgeDrain hi lo

/-- DRAM_BURST_COMPLETE (R264 to R267). -/
def execDramBurstComplete (n : Ch) (write : Bool) (line : Nat) (s : State) : Res :=
  let s := s.begin
  let d := s.dramc n
  let place := placeOf s n
  let off := line / 64 * 64
  match oldestFor off (if write then d.writes else d.reads) with
  | none => .next s
  | some r =>
    if !d.inOrder place r then .next s
    else
      let s := openRow n (place off) s
      let d := s.dramc n
      let d := if write then { d with writes := d.writes.filter (·.seq != r.seq) } else { d with reads := d.reads.filter (·.seq != r.seq) }
      .next (dramRelease n (s.setDramc n (d.settle place (place off).key (drainHigh s n) (drainLow s n))))

/-! Refresh (R268). -/

/-- DRAM_REFRESH_TICK (R268): a refresh that is issued leaves none postponed and carries out a REF_ALL that waits; at the
ninth postponement REF_LATE is raised. The rolling activate counts start again (assumption 95). -/
def execDramRefreshTick (n : Ch) (issued : Bool) (s : State) : Res :=
  let s := s.begin
  let d := s.dramc n
  if s.get (DRAM_STATUS_STATE n) ≠ 4 then .next s
  else if issued then .next ((s.setDramc n { d with postponed := 0, refAll := false, rolling := [] }).put (DRAM_REF_POSTPONED n) 0)
  else
    let k := d.postponed + 1
    let s := (s.setDramc n { d with postponed := min k 9 }).put (DRAM_REF_POSTPONED n) (min k 8)
    .next (if 9 ≤ k then raiseMemory n (DRAM_CAUSE_REF_LATE n) s else s)

/-- DRAM_MR4_POLL (R268, R272). -/
def execDramMr4Poll (n : Ch) (rate : BitVec 4) (hot rfm : Bool) (s : State) : Res :=
  let s := s.begin
  if s.get (DRAM_STATUS_STATE n) ≠ 4 then .next s
  else
    let s := s.puts [(DRAM_REF_MR4_RATE n, rate.toNat), (DRAM_RD_CFG_RFM n, rfm.toNat)]
    .next (if hot then raiseMemory n (DRAM_CAUSE_TEMP n) s else s)

/-- DRAM_ROW_IDLE_CLOSE (R265): a row with a request queued is not idle. -/
def execDramRowIdleClose (n : Ch) (bank : Fin 64) (s : State) : Res :=
  let s := s.begin
  let d := s.dramc n
  let busy := (d.reads ++ d.writes).any (fun q =>
    (placeOf s n q.off).key == bank.val && (placeOf s n q.off).row + 1 == smGet 0 d.rows bank)
  .next (if busy then s else s.setDramc n { d with rows := smErase d.rows bank })

/-- DRAM_RD_WINDOW (R271, R272). -/
def execDramRdWindow (n : Ch) (s : State) : Res :=
  let s := s.begin
  let d := s.dramc n
  let m := s.get (DRAM_RD_STAT_MITIG n)
  let a := s.get (DRAM_RD_CFG_ALARM n)
  let s := s.setDramc n { d with acts := d.acts.map (fun e => (e.1, e.2.map (fun r => (r.1, 0)))), mitig0 := m }
  .next (if a ≠ 0 ∧ a * 64 < m - d.mitig0 then raiseMemory n (DRAM_CAUSE_RD_STORM n) s else s)

/-! Self-refresh (R269, R270). -/

/-- Self-refresh entry begins, for Easy or Moored: new requests are held. -/
def dramEnterSr (n : Nat) (why : SrCause) (s : State) : State :=
  if s.get (DRAM_STATUS_STATE n) = 4 then
    (s.setDramc n { s.dramc n with sr := some why, drain := true, drainIdle := false }).put (DRAM_STATUS_STATE n) 5
  else s

/-- The exit from the self-refresh of Easy: the memory runs again with its settings restored; after an error in the training values it
trains first (R275). -/
def dramLeaveSr (n : Nat) (s : State) : State :=
  if s.get (DRAM_STATUS_STATE n) = 6 then
    if (s.dramc n).retrain then (s.setDramc n { s.dramc n with warm := true }).put (DRAM_STATUS_STATE n) 3
    else dramRelease n ((s.setDramc n { s.dramc n with sr := none, retrain := false }).puts
      [(DRAM_STATUS_STATE n, 4), (DRAM_STATUS_SR_KEPT n, 0)])
  else s

/-- DRAM_SELF_REFRESH_ENTRY (R269): writes drained, reads completed, banks precharged and refreshed. -/
def execDramSelfRefreshEntry (n : Ch) (s : State) : Res :=
  let s := s.begin
  if s.get (DRAM_STATUS_STATE n) ≠ 5 then .next s
  else
    let s := s.setDramc n { s.dramc n with reads := [], writes := [], drain := false, drainIdle := false, strict := [], rows := [], postponed := 0 }
    .next (s.puts [(DRAM_PASR_EFF n, pasrEff s n), (DRAM_REF_POSTPONED n, 0), (DRAM_STATUS_SR_KEPT n, 1), (DRAM_STATUS_STATE n, 6)])

/-- DRAM_UNIT_RESET_DONE (R275): ready, or the self-refresh entry it interrupted starts again. -/
def execDramUnitResetDone (n : Ch) (s : State) : Res :=
  let s := s.begin
  if s.get (DRAM_STATUS_STATE n) ≠ 7 then .next s
  else
    let d := s.dramc n
    let s := (s.setDramc n { d with retrain := false }).put (DRAM_STATUS_STATE n) (if d.sr.isSome then 5 else 4)
    .next (dramRelease n s)

end Sys2Proof.Machine
end

