-- ==== Sys2Proof/Machine/Patina.lean ====
section
/-! DEFINITION. Patina (spec/12, R277 to R294): lines of channel DRAM as requesters see them, the counters that decide how a
line reads, failed checks by class, poison, subtrees, and the instance's commands. Plain text stands in `State.dram`; what
the cipher, the tags and the codes find is the operand of a command (assumption 1). -/

namespace Sys2Proof.Machine

/-- A channel's instance. -/
def State.patina (s : State) (n : Nat) : Patina := smGet {} s.patinas n

/-- A channel's instance replaced. -/
def State.setPatina (s : State) (n : Nat) (p : Patina) : State := { s with patinas := smSet {} s.patinas n p }

/-! Lines as bytes. -/

/-- The location of a byte of channel `n`'s slot. -/
def dramKey (n off : Nat) : Nat := n * 2 ^ 36 + off

/-- `k` bytes of channel `n` from an offset, the first as the lowest. -/
def dramBytes (s : State) (n off : Nat) : Nat → Nat
  | 0 => 0
  | k + 1 => (smGet 0 s.dram (dramKey n off)).toNat + 256 * dramBytes s n (off + 1) k

/-- `k` bytes put into channel `n` from an offset, those that `be` names. -/
def putDram (n off v be : Nat) : Nat → State → State
  | 0, s => s
  | k + 1, s =>
    let s := if be % 2 = 1 then { s with dram := smSet 0 s.dram (dramKey n off) (BitVec.ofNat 8 v) } else s
    putDram n (off + 1) (v / 256) (be / 2) k s

/-- The cells of a range of channel `n` forgotten: they read as zero. -/
def clearDram (n off len : Nat) (s : State) : State :=
  { s with dram := s.dram.filter (fun c => !(dramKey n off ≤ c.1 && c.1 < dramKey n (off + len))) }

/-- The value of line `a` of channel `n`: 64 bytes. -/
def lineValue (s : State) (n a : Nat) : Nat := dramBytes s n (a * 64) 64

/-- A byte-enable mask of bytes widened to bits: byte `i` of `new` where bit `i` of `be` is set, else of `old`. -/
def mergeBytes (old new be : Nat) : Nat → Nat
  | 0 => 0
  | k + 1 => (if be % 2 = 1 then new else old) % 256 + 256 * mergeBytes (old / 256) (new / 256) (be / 2) k

/-! Counters (R280, R284, R285). -/

/-- The channel is in Cipher-only mode (R277). -/
def cipherOnly (s : State) (n : Nat) : Bool := s.on (PAT_CFG_MODE n)

/-- A line has been written: it does not read as zero by its counters or by the touched map (R280, R285). -/
def lineWritten (s : State) (n a : Nat) : Bool :=
  if cipherOnly s n then (s.patina n).touched.contains (a / 32768)
  else smGet 0 (s.patina n).major (a / 64) != 0 && smGet 0 (s.patina n).minor a != 0

/-- A read of the line goes to DRAM. -/
def lineInDram (s : State) (n a : Nat) : Bool :=
  if cipherOnly s n then (s.patina n).touched.contains (a / 32768) else smGet 0 (s.patina n).major (a / 64) != 0

/-- The page lies in a strict range (R284). -/
def strictPage (s : State) (n page : Nat) : Bool :=
  (List.range 4).any (fun r =>
    s.on (PAT_STRICT_EN n r) && s.get (PAT_STRICT_BASE n r) ≤ page && page ≤ s.get (PAT_STRICT_LIMIT n r))

/-- A page's lines. -/
def pageLines (page : Nat) : List Nat := (List.range 64).map (64 * page + ·)

/-- A major advance for a write to line `a` (R280, R281): a fresh major, every written line at minor 1, the line itself at 1,
or 2 where it was written. -/
def advanceMajor (n a : Nat) (s : State) : State :=
  let p := s.patina n
  let page := a / 64
  let was := smGet 0 p.minor a != 0
  let minor := (pageLines page).foldl (fun m l => if smGet 0 p.minor l != 0 then smSet 0 m l 1 else m) p.minor
  (s.setPatina n { p with
    g0 := p.g0 + 1, major := smSet 0 p.major page (p.g0 + 1), reenc := setAdd p.reenc page
    minor := smSet 0 minor a (if was then 2 else 1) }).count (PAT_COUNT_REENC n)

/-- The counters of a full write to line `a` (R280, R284, R285). -/
def stepCounters (n a : Nat) (s : State) : State :=
  let p := s.patina n
  if cipherOnly s n then
    let b := a / 32768
    if p.touched.contains b then s
    else (clearDram n (b * 2 ^ 21) (2 ^ 21) s).setPatina n { p with touched := setAdd p.touched b, fill := setAdd p.fill b }
  else if smGet 0 p.major (a / 64) = 0 ∨ smGet 0 p.minor a = 255 ∨ strictPage s n (a / 64) then advanceMajor n a s
  else s.setPatina n { p with minor := smSet 0 p.minor a (smGet 0 p.minor a + 1) }

/-! Keys (R279, R292, R293). -/

/-- The key under which an access with identifier `k` works, with the identifier that its counter blocks carry; in the dump
state the old normal key stands in KS1. -/
def accessKey (s : State) (n k : Nat) : Nat :=
  if s.get (PAT_STATUS_STATE n) = 2 ∧ k = 1 then smGet 0 s.security.keys 1 * 16
  else smGet 0 s.security.keys k * 16 + k

/-! Failed checks (R286 to R289). -/

/-- An access to a line: channel, line, key identifier, requester group, class, and whether it is a posted host write. -/
structure LineAccess where
  n : Nat
  a : Nat
  key : Nat
  group : Nat
  control : Bool
  posted : Bool
  deriving DecidableEq, Repr

/-- PAT_ERR_LOG (R288). -/
def logLine (x : LineAccess) (kind : Nat) (s : State) : State :=
  s.puts [(PAT_ERR_LOG_LINE x.n, x.a), (PAT_ERR_LOG_KEYID x.n, x.key), (PAT_ERR_LOG_GROUP x.n, x.group),
    (PAT_ERR_LOG_CLASS x.n, x.control.toNat), (PAT_ERR_LOG_POSTED x.n, x.posted.toNat), (PAT_ERR_LOG_KIND x.n, kind),
    (PAT_ERR_LOG_TS_LO x.n, s.clocks.ts), (PAT_ERR_LOG_TS_HI x.n, s.clocks.ts / 2 ^ 32)]

/-- The alarm (R288): PAT_CAUSE.INTEG and SEC_CAUSE.DATA_FAIL. -/
def patAlarm (n : Nat) (s : State) : State := raiseSec 0 SEC_CAUSE_DATA_FAIL (raiseMemory n (PAT_CAUSE_INTEG n) s)

/-- The integrity halt of a failed control-class check. -/
def patHalt (x : LineAccess) (kind : Nat) (s : State) : State := integrityHalt x.n x.group kind x.a s

/-- A line marked poisoned (R286). -/
def markLine (n a : Nat) (s : State) : State :=
  s.setPatina n { s.patina n with marks := setAdd (s.patina n).marks a }

/-- Page `p` lies under tree line `i` of level `l` (R282). -/
def underTree (p l i : Nat) : Bool := p / 8 ^ (l + 1) == i

/-- The line lies under a listed tree line (R289). -/
def subtreePoisoned (s : State) (n a : Nat) : Bool :=
  !cipherOnly s n && (List.range 16).any (fun e =>
    s.on (PAT_SUBTREE_VALID n e) && underTree (a / 64) (s.get (PAT_SUBTREE_LEVEL n e)) (s.get (PAT_SUBTREE_INDEX n e)))

/-- A tree line fails (R289): listed, or the list overflows and the channel is poisoned. KIND 6 is an uncorrectable byte of the
on-chip levels, which the memory logs record too (R99). -/
def treeFails (x : LineAccess) (level index kind : Nat) (s : State) : State :=
  let s := logLine x kind (if kind = 6 then logSomewhere (4 + x.n) treeUnit 0 524288 s else s)
  if x.control then patHalt x kind s
  else
    let s := match (List.range 16).find? (fun e => !s.on (PAT_SUBTREE_VALID x.n e)) with
      | some e => s.puts [(PAT_SUBTREE_VALID x.n e, 1), (PAT_SUBTREE_LEVEL x.n e, level), (PAT_SUBTREE_INDEX x.n e, index)]
      | none => raiseMemory x.n (PAT_CAUSE_SUB_FULL x.n) (s.put (PAT_STATUS_STATE x.n) 4)
    patAlarm x.n (raiseSec 1 SEC_CAUSE_SUBTREE (raiseMemory x.n (PAT_CAUSE_SUBTREE x.n) s))

/-- What an access finds: how it ends, the line's value where it ends well, the state. -/
structure LineRes where
  st : PortStatus
  v : Nat
  s : State

/-- Free data: what a line that was altered or written under another key decrypts to (R285). -/
def freeLine (s : State) : Nat × State := freeDigest s

/-- The channel takes the access at all: none where it does, else how the access ends. A controller that is held in reset or
whose channel failed gives a decode error (R18, R20), one whose clock is lost a bus error (R46); the rest by R262, R273, R289,
R291, R293. -/
def channelStop (s : State) (n a key : Nat) (write : Bool) : Option PortStatus :=
  if partFailed s (4 + n) || !s.clocks.released.contains (164 + n) then some .decodeError
  else if isFrozen s (164 + n) then some .busError
  else if s.get (DRAM_STATUS_STATE n) = 8 then some .busError
  else if s.get (DRAM_CAP_USABLE n) * 2 ^ 20 ≤ a * 64 then some .decodeError
  else if s.get (DRAM_STATUS_STATE n) < 4 then some .busError
  else match s.get (PAT_STATUS_STATE n) with
    | 0 => some .busError
    | 2 => if key = 1 ∧ !write then none else some .busError
    | 4 => some (if write then .busError else .poison)
    | _ => if subtreePoisoned s n a then some (if write then .busError else .poison) else none

/-- The check of a line that is read from DRAM (R278 to R289). A line written under another key fails its tag in Full mode,
and decrypts to altered data in Cipher-only. -/
def checkLine (x : LineAccess) (c : LineCheck) (s : State) : LineRes :=
  let n := x.n
  let v := lineValue s n x.a
  let other := lineWritten s n x.a && smGet 0 (s.patina n).lineKey x.a != accessKey s n x.key
  let tag (s : State) : LineRes :=
    let s := logLine x 1 (s.count (PAT_COUNT_INTEG n))
    ⟨.busError, 0, if x.control then patHalt x 1 s else patAlarm n s⟩
  if (s.patina n).marks.contains x.a then
    let s := logLine x 3 s
    ⟨.poison, 0, if x.control then patHalt x 3 s else raiseMemory n (PAT_CAUSE_POISON_RD n) s⟩
  else
    let good (s : State) : LineRes :=
      if !other then ⟨.ok, v, s⟩
      else if cipherOnly s n then let (v, s) := freeLine s; ⟨.ok, v, s⟩
      else tag s
    match c with
    | .ok => good s
    | .corrected _ => good (s.count (PAT_COUNT_CE n))
    | .eccFail =>
      let s := logLine x 2 (markLine n x.a (s.count (PAT_COUNT_UE n)))
      ⟨.poison, 0, if x.control then patHalt x 2 s else raiseMemory n (PAT_CAUSE_UE n) s⟩
    | .tagFail => if cipherOnly s n then (let (v, s) := freeLine s; ⟨.ok, v, s⟩) else tag s
    | .treeEcc l i => if cipherOnly s n then good s else ⟨.poison, 0, treeFails x l i 4 s⟩
    | .treeTag l i => if cipherOnly s n then good s else ⟨.poison, 0, treeFails x l i 5 s⟩
    | .chipByte l i => if cipherOnly s n then good s else ⟨.poison, 0, treeFails x l i 6 s⟩

/-- A read of a line (R279 to R289). The bits of poisoned data are free values (assumption 59). -/
def patRead (x : LineAccess) (c : LineCheck) (s : State) : LineRes :=
  let r : LineRes := match channelStop s x.n x.a x.key false with
    | some st => ⟨st, 0, s⟩
    | none => if lineInDram s x.n x.a then checkLine x c s else ⟨.ok, 0, s⟩
  if r.st = .poison then
    let (v, s) := freeLine r.s
    ⟨.poison, v, s⟩
  else r

/-- A line stored, under a fresh version and the access's key; a mark on it is cleared (R280, R286). -/
def storeLine (x : LineAccess) (v : Nat) (s : State) : State :=
  let s := putDram x.n (x.a * 64) v (2 ^ 64 - 1) 64 (stepCounters x.n x.a s)
  let p := s.patina x.n
  s.setPatina x.n { p with marks := setDel p.marks x.a, lineKey := smSet 0 p.lineKey x.a (accessKey s x.n x.key) }

/-- A full write of a line (R280, R286). -/
def patWrite (x : LineAccess) (v : Nat) (s : State) : PortStatus × State :=
  match channelStop s x.n x.a x.key true with
  | some st => (st, s)
  | none => (.ok, storeLine x v s)

/-- A write of some bytes of a line (R286, R288): read, checked, merged, written; a failed check discards the write and
marks the line. -/
def patMerge (x : LineAccess) (v be : Nat) (c : LineCheck) (s : State) : PortStatus × State :=
  match channelStop s x.n x.a x.key true with
  | some st => (st, s)
  | none =>
    let bad : Bool := match c with
      | .ok | .corrected _ => false
      | .tagFail => !cipherOnly s x.n
      | .eccFail => true
      | _ => !cipherOnly s x.n
    let other := !cipherOnly s x.n && lineWritten s x.n x.a && smGet 0 (s.patina x.n).lineKey x.a != accessKey s x.n x.key
    let fails := lineInDram s x.n x.a && ((s.patina x.n).marks.contains x.a || bad || other)
    let tree : Option (Nat × Nat × Nat) := match c with
      | .treeEcc l i => some (l, i, 4)
      | .treeTag l i => some (l, i, 5)
      | .chipByte l i => some (l, i, 6)
      | _ => none
    if !fails then
      let s := match c with
        | .corrected _ => if lineInDram s x.n x.a then s.count (PAT_COUNT_CE x.n) else s
        | _ => s
      (.ok, storeLine x (mergeBytes (if lineWritten s x.n x.a then lineValue s x.n x.a else 0) v be 64) s)
    else
      let s := match c with
        | .eccFail => s.count (PAT_COUNT_UE x.n)
        | .tagFail => s.count (PAT_COUNT_INTEG x.n)
        | _ => s
      match tree with
      | some (l, i, kind) => (.busError, treeFails x l i kind s)
      | none =>
        let s := logLine x 7 (markLine x.n x.a s)
        (if x.posted then .ok else .busError, if x.control then patHalt x 7 s else patAlarm x.n s)

/-! The commands. -/

/-- The device address of a channel's line with a key identifier. -/
def lineAddress (n key off : Nat) : Nat := key * 2 ^ 48 + n * 2 ^ 36 + off

/-- How an access to a line shows: with its data where it has some. -/
def statusOut (v : Nat) : PortStatus → Out
  | .ok => .done
  | .decodeError => .decodeError
  | .busError => .busError
  | .poison => .data v true

/-- PATINA_LINE_READ (R279 to R289, R295). -/
def execPatinaLineRead (n : Ch) (req : Requester) (key : Fin 16) (off : Nat) (bytes : Fin 65) (control : Bool)
    (check : LineCheck) (s : State) : Res :=
  let s := s.begin
  if !hasRight s req (lineAddress n key off) false then .next (s.emit (.data 0 false))
  else
    let r := patRead ⟨n, off / 64, key, (groupOf req).getD 0, control, false⟩ check s
    match r.st with
    | .ok => .next (r.s.emit (.data (slice r.v (8 * (off % 64)) (8 * min bytes.val (64 - off % 64))) false))
    | st => .next (r.s.emit (statusOut (slice r.v (8 * (off % 64)) (8 * min bytes.val (64 - off % 64))) st))

/-- PATINA_LINE_WRITE (R280). -/
def execPatinaLineWrite (n : Ch) (req : Requester) (key : Fin 16) (off : Nat) (data : BitVec 512) (posted : Bool)
    (s : State) : Res :=
  let s := s.begin
  if !hasRight s req (lineAddress n key off) true then .next (s.emit .done)
  else
    let (st, s) := patWrite ⟨n, off / 64, key, (groupOf req).getD 0, false, posted⟩ data.toNat s
    .next (s.emit (statusOut 0 st))

/-- PATINA_PARTIAL_WRITE (R286): `be` and `data` are of the whole line. -/
def execPatinaPartialWrite (n : Ch) (req : Requester) (key : Fin 16) (off : Nat) (be : BitVec 64) (data : BitVec 512)
    (posted : Bool) (check : LineCheck) (s : State) : Res :=
  let s := s.begin
  if !hasRight s req (lineAddress n key off) true then .next (s.emit .done)
  else
    let (st, s) := patMerge ⟨n, off / 64, key, (groupOf req).getD 0, false, posted⟩ data.toNat be.toNat check s
    .next (s.emit (statusOut 0 st))

/-- PAGE_REENCRYPT_DONE (R280, R288): lines that failed their check are marked. -/
def execPageReencryptDone (n : Ch) (page : Nat) (failed : List Nat) (s : State) : Res :=
  let s := s.begin
  if !(s.patina n).reenc.contains page then .next s
  else
    let s := s.setPatina n { s.patina n with reenc := setDel (s.patina n).reenc page }
    let bad := failed.filter (fun a => a / 64 == page && lineWritten s n a)
    let s := bad.foldl (fun s a => logLine ⟨n, a, 0, 0, false, false⟩ 8 (markLine n a s)) s
    .next (if bad.isEmpty then s else patAlarm n s)

/-- CIPHER_BLOCK_FILL_DONE (R285). -/
def execCipherBlockFillDone (n : Ch) (block : Nat) (s : State) : Res :=
  let s := s.begin
  .next (s.setPatina n { s.patina n with fill := setDel (s.patina n).fill block })

/-- Everything under a tree line reads as zero again: its counter in the parent is zero (R282, R289). -/
def clearTree (n level index : Nat) (s : State) : State :=
  let p := s.patina n
  let under (a : Nat) : Bool := underTree (a / 64) level index
  let s := s.setPatina n { p with
    major := p.major.filter (fun e => !underTree e.1 level index), minor := p.minor.filter (fun e => !under e.1)
    lineKey := p.lineKey.filter (fun e => !under e.1), marks := p.marks.filter (fun a => !under a)
    reenc := p.reenc.filter (fun e => !underTree e level index) }
  { s with dram := s.dram.filter (fun c => !(c.1 / 2 ^ 36 == n && under (c.1 % 2 ^ 36 / 64))) }

/-- PAT_CTRL.CLEAR (R289): ignored where the entry is not valid. -/
def patClear (n entry : Nat) (s : State) : State :=
  let s := s.put (PAT_CTRL_ENTRY n) entry
  if 16 ≤ entry ∨ !s.on (PAT_SUBTREE_VALID n entry) then s
  else
    (clearTree n (s.get (PAT_SUBTREE_LEVEL n entry)) (s.get (PAT_SUBTREE_INDEX n entry)) s).puts
      [(PAT_SUBTREE_VALID n entry, 0), (PAT_SUBTREE_LEVEL n entry, 0), (PAT_SUBTREE_INDEX n entry, 0)]

/-- PAT_CTRL_CLEAR (R289). -/
def execPatCtrlClear (req : Requester) (n : Ch) (entry : Fin 16) (s : State) : Res :=
  .next (guardedWrite s.begin req (0x020000050008 + n.val * 0x10000000) 4 (patClear n entry))

/-- The root and the cached levels of a channel zeroed: every line reads as zero. -/
def zeroTree (n : Nat) (s : State) : State :=
  let p := s.patina n
  loseDram n (s.setPatina n { p with major := [], minor := [], lineKey := [], marks := [], touched := [], reenc := [], fill := [] })

/-- PAT_CTRL.RELEASE (R293): ignored outside the dump state; with the last channel KS1 is zeroised. -/
def patRelease (n : Nat) (s : State) : State :=
  if s.get (PAT_STATUS_STATE n) ≠ 2 then s
  else
    let s := ((zeroTree n s).put (PAT_STATUS_STATE n) 1).putBit SEC_DUMP_CH n false
    if s.get SEC_DUMP_CH ≠ 0 then s
    else
      { s.puts [(SEC_KS_CTRL_STATE 1, 0), (SEC_STATUS_DUMP_HELD, 0)] with
        security := { s.security with keys := smErase s.security.keys 1 } }

/-- PAT_CTRL_RELEASE (R293). -/
def execPatCtrlRelease (req : Requester) (n : Ch) (s : State) : Res :=
  .next (guardedWrite s.begin req (0x020000050008 + n.val * 0x10000000) 4 (patRelease n))

/-- A write of PAT_CTRL: ENTRY, then CLEAR and RELEASE. -/
def writePatCtrl (n v : Nat) (s : State) : State :=
  let s := s.put (PAT_CTRL_ENTRY n) (slice v 8 5)
  let s := if v.testBit 1 then patClear n (slice v 8 5) s else s
  if v.testBit 0 then patRelease n s else s

/-- A request of no host in flight to the DRAM of channel `n`. -/
def internalTo (n : Nat) (r : NocReq) : Bool :=
  r.addr % 2 ^ 48 / 2 ^ 36 == n && match r.req with
    | .host _ _ => false
    | _ => true

/-- The requests of an engine in flight to the DRAM of channel `n` will complete with a bus error (R290). -/
def Engine.failDram (n : Nat) (e : Engine) : Engine :=
  let reaches (dev : Nat) := dev % 2 ^ 48 / 2 ^ 36 == n
  { e with
    wait := e.wait.map (fun p => { p with dead := p.dead || reaches p.dev })
    posted := e.posted.map (fun p => { p with dead := p.dead || (p.taken && reaches p.dev) }) }

/-- PATINA_STATE_ERROR (R290, R336): a second one within 1 ms poisons the channel. -/
def execPatinaStateError (n : Ch) (s : State) : Res :=
  let s := s.begin
  let p := s.patina n
  let st := s.get (PAT_STATUS_STATE n)
  if !runs s (164 + n) ∨ st = 0 then .next s
  else if p.lastErr ≠ 0 ∧ s.clocks.ts < p.lastErr - 1 + 1000000 then
    .next (raiseMemory n (PAT_CAUSE_STATE_ERR n) (s.put (PAT_STATUS_STATE n) 4))
  else
    let s := s.setPatina n { p with lastErr := s.clocks.ts + 1, before := st, reenc := [], fill := [] }
    let s := { s with noc := { s.noc with reqs := s.noc.reqs.map (fun r => if internalTo n r then { r with rsp := some .errBus } else r) } }
    let s := { s with engines := s.engines.map (fun (g : Nat × Engine) => (g.1, g.2.failDram n)) }
    let s := raiseMemory n (PAT_CAUSE_STATE_ERR n) (s.put (PAT_STATUS_STATE n) 3)
    .next (beginRecovery 8 (unitId (4 + n) 68) s)

/-- PATINA_UNIT_RESET_DONE (R290). -/
def execPatinaUnitResetDone (n : Ch) (s : State) : Res :=
  let s := s.begin
  .next (if s.get (PAT_STATUS_STATE n) = 3 then s.put (PAT_STATUS_STATE n) (s.patina n).before else s)

end Sys2Proof.Machine
end

