-- ==== Sys2Proof/Machine/Buffers.lean ====
section
/-! DEFINITION. Plain memory by device address: channel DRAM through Patina, crew SRAM, engine memories, hub SRAM (R19, R179,
R180, R230, R278), read and written byte by byte in ranges; the BUF encoding of a channel's descriptors (R235). -/

namespace Sys2Proof.Machine

/-- What a device address names where it names plain memory. -/
inductive Plain where
  | dram (n off key : Nat)
  /-- A byte of an on-chip memory: partition, unit, instance, address. -/
  | chip (p unit inst addr : Nat)
  deriving DecidableEq, Repr

/-- The plain memory at a device address. Hub SRAM stands beyond the device addresses. -/
def plainOf (addr : Nat) : Option Plain :=
  if hubSram ≤ addr then
    let o := addr - hubSram
    if o < 0x800000 then some (.chip 20 24 (o / 0x80000) (o % 0x80000)) else none
  else match locate addr with
    | .dram n off => some (.dram n off (addr / 2 ^ 48 % 16))
    | .chan n off =>
      if 0x8000000 ≤ off && off < 0x9000000 then
        some (.chip (4 + n) 69 ((off - 0x8000000) / 2 ^ 20) (off % 2 ^ 20))
      else if 0x1000000 ≤ off && off < 0x2000000 then
        let o := off % 0x40000
        if o % 0x10000 < 0x8000 && o / 0x10000 < 3 then some (.chip (4 + n) ((off - 0x1000000) / 0x40000) (o / 0x10000) (o % 0x10000))
        else none
      else none
    | _ => none

/-- Reservations of an engine list on a line, but for one engine's own, break (R191). -/
def breakLine (mine : Nat → Bool) (by_ : Option Nat) (line : Nat) (s : State) : State :=
  ((s.engines.map (·.1)).filter (fun g => mine g && by_ != some g && (s.eng g).rsv.any (·.1 == line))).foldl
    (fun s g => s.setEng g { s.eng g with rsv := none }) s

/-- A write of a byte's line by someone breaks the reservations that others hold on it. -/
def breakAt (by_ : Option Nat) (w : Plain) (s : State) : State :=
  match w with
  | .chip p unit inst addr =>
    if unit == 69 && 4 ≤ p && p < 20 then
      breakLine (fun g => g < 1024 && g / 64 + 4 == p) by_ ((0x10000000 + inst * 2 ^ 20 + addr) / 64) s
    else if unit == 24 && p == 20 then
      breakLine (fun g => 1024 ≤ g) by_ ((0x10000000 + inst * 0x80000 + addr) / 64) s
    else s
  | .dram _ _ _ => s

/-- How an access of a requester to plain memory ends: completed in part with a status. -/
structure Access1 where
  req : Requester
  control : Bool
  posted : Bool
  check : LineCheck
  deriving DecidableEq, Repr

/-- An access of a requester in the data class with nothing wrong in DRAM. -/
def plainAccess (req : Requester) : Access1 := ⟨req, false, false, .ok⟩

/-- The engine that a requester is. -/
def engineOf : Requester → Option Nat
  | .engine g => some g.val
  | _ => none

/-- The unit behind a chip address answers. -/
def chipStop (s : State) (p : Nat) : Option PortStatus :=
  let d := if p < 20 then 132 + (p - 4) else 180
  if p < 20 && partFailed s p then some .decodeError
  else if !s.clocks.released.contains d then some .decodeError
  else if isFrozen s d then some .busError
  else none

/-- A requester of a crew SRAM bank of channel `n` (R185): 0 to 63 an engine, 64 the channel's own port. -/
def bankUser (n : Nat) : Requester → Nat
  | .engine g => if g.val / 64 = n then g.val % 64 else 64
  | _ => 64

/-- The bank of crew SRAM has served an access: the next requester in the round comes first (R185). -/
def bankServes (who p unit inst : Nat) (s : State) : State :=
  if unit = 69 ∧ 4 ≤ p ∧ p < 20 then
    { s with onchip := { s.onchip with banks := smSet 0 s.onchip.banks ((p - 4) * 16 + inst) ((who + 1) % 65) } }
  else s

/-- `k` bytes read within one line. -/
def plainRead (x : Access1) (w : Plain) (k : Nat) (s : State) : LineRes :=
  match w with
  | .dram n off key =>
    let r := patRead ⟨n, off / 64, key, (groupOf x.req).getD 0, x.control, false⟩ x.check s
    { r with v := slice r.v (8 * (off % 64)) (8 * k) }
  | .chip p unit inst addr =>
    match chipStop s p with
    | some st => ⟨st, 0, s⟩
    | none =>
      let (v, _, ue, s) := readBytes (bankServes (bankUser (p - 4) x.req) p unit inst s) p unit inst addr k
      ⟨if ue then .poison else .ok, v, s⟩

/-- Bytes of one line written: `be` and `v` count from the address. -/
def plainWrite (x : Access1) (w : Plain) (v be k : Nat) (s : State) : PortStatus × State :=
  match w with
  | .dram n off key =>
    let l : LineAccess := ⟨n, off / 64, key, (groupOf x.req).getD 0, x.control, x.posted⟩
    let o := off % 64
    if be == 2 ^ 64 - 1 && k == 64 && o == 0 then patWrite l v s
    else patMerge l (v * 2 ^ (8 * o)) (be % 2 ^ k * 2 ^ o) x.check s
  | .chip p unit inst addr =>
    match chipStop s p with
    | some st => (st, s)
    | none =>
      let s := bankServes (bankUser (p - 4) x.req) p unit inst s
      (.ok, breakAt (engineOf x.req) w (writeBytes s p unit inst addr v be k))

/-- A read of `k` bytes within one line at a device address, with the requester's rights; none where no plain memory is. -/
def memRead (x : Access1) (addr k : Nat) (s : State) : Option LineRes :=
  (plainOf addr).map (fun w =>
    if addr < hubSram && !hasRight s x.req addr false then ⟨.ok, 0, s⟩ else plainRead x w k s)

/-- A write of bytes within one line at a device address. -/
def memWrite (x : Access1) (addr v be k : Nat) (s : State) : Option (PortStatus × State) :=
  (plainOf addr).map (fun w =>
    if addr < hubSram && !hasRight s x.req addr true then (.ok, s) else plainWrite x w v be k s)

/-- The pieces within lines of a range: address and bytes. -/
def pieces (addr len : Nat) : List (Nat × Nat) :=
  (List.range ((addr % 64 + len + 63) / 64)).map (fun i =>
    let a := max addr (addr / 64 * 64 + 64 * i)
    (a, min (addr + len) (addr / 64 * 64 + 64 * (i + 1)) - a))

/-- A number as bytes, the first as the lowest. -/
def toBytes (v : Nat) : Nat → List Byte
  | 0 => []
  | k + 1 => BitVec.ofNat 8 v :: toBytes (v / 256) k

/-- Bytes as a number, the first as the lowest. -/
def fromBytes : List Byte → Nat
  | [] => 0
  | b :: l => b.toNat + 256 * fromBytes l

/-- The bytes of a failing piece that come before the failing byte (R239): in channel DRAM the whole line fails, in on-chip memory the
first byte that is uncorrectable. -/
def goodLead (s : State) (addr k : Nat) : Nat :=
  match plainOf addr with
  | some (.chip p unit inst o) => ((List.range k).find? (fun i => verdict (syndrome (storedWord s p unit inst (o + i))) == .uncorrectable)).getD 0
  | _ => 0

/-- The pieces of a range read until one fails: the bytes before the failing byte, how the last access ended. -/
def readPieces (x : Access1) : List (Nat × Nat) → State → List Byte × PortStatus × State
  | [], s => ([], .ok, s)
  | (a, k) :: l, s =>
    match memRead x a k s with
    | none => ([], .decodeError, s)
    | some r =>
      match r.st with
      | .ok => let (b, st, s) := readPieces x l r.s; (toBytes r.v k ++ b, st, s)
      | .poison => (toBytes r.v (goodLead s a k), .poison, r.s)
      | st => ([], st, r.s)

/-- The bytes of a range written piece by piece until one fails: how many were written, how the last access ended. -/
def writePieces (x : Access1) (bytes : List Byte) : List (Nat × Nat) → State → Nat × PortStatus × State
  | [], s => (0, .ok, s)
  | (a, k) :: l, s =>
    match memWrite x a (fromBytes (bytes.take k)) (2 ^ k - 1) k s with
    | none => (0, .decodeError, s)
    | some (.ok, s) => let (n, st, s) := writePieces x (bytes.drop k) l s; (k + n, st, s)
    | some (st, s) => (0, st, s)

/-- A range read. -/
def rangeRead (x : Access1) (addr len : Nat) (s : State) : List Byte × PortStatus × State := readPieces x (pieces addr len) s

/-- A range written. -/
def rangeWrite (x : Access1) (addr : Nat) (bytes : List Byte) (s : State) : Nat × PortStatus × State :=
  writePieces x bytes (pieces addr bytes.length) s

/-- The device address of a buffer of channel `n` in the BUF encoding (R235). -/
def bufAddress (n buf : Nat) : Nat :=
  if buf.testBit 31 then n * 2 ^ 36 + buf % 2 ^ 27 * 64 else 0x020000000000 + n * 0x10000000 + 0x8000000 + buf % 2 ^ 24

/-- A list of bytes made exactly `k` long. -/
def padBytes (l : List Byte) (k : Nat) : List Byte := (l ++ List.replicate (k - l.length) 0).take k

/-- A record of `k` words of crew SRAM, read by the channel's movers: the words, whether some byte was uncorrectable. -/
def crewRecord (n off k : Nat) (s : State) : List Word × Bool × State :=
  let s := bankServes 64 (4 + n) 69 (off / 2 ^ 20 % 16) s
  let (v, _, ue, s) := readBytes s (4 + n) 69 (off / 2 ^ 20 % 16) (off % 2 ^ 20) (4 * k)
  ((List.range k).map (fun i => BitVec.ofNat 32 (v / 2 ^ (32 * i))), ue, s)

end Sys2Proof.Machine
end

