-- ==== Sys2Proof/Machine/Outbound.lean ====
section
/-! DEFINITION. Requests to the host: the windows onto host memory (spec/13, R316, R317) and their journal entries (spec/14,
R333 to R335, R339). -/

namespace Sys2Proof.Machine

/-- The unit identifier of a requester (R15). -/
def requesterUnit : Requester → Nat
  | .sector x => unitId (x / 32) (x % 32)
  | .engine g => unitId (engPart g) (engUnit g)
  | .mover n => unitId (4 + n) 64
  | .config => unitId 20 22
  | .hubCrc => unitId 20 25
  | _ => unitId 20 18

/-- The least number from `k` on that is not in a list, tried `fuel` times. -/
def firstFree (used : List Nat) (k : Nat) : Nat → Option Nat
  | 0 => none
  | fuel + 1 => if used.contains k then firstFree used (k + 1) fuel else some k

/-- The entries of a port in one direction. -/
def portEntries (s : State) (port : Nat) (out : Bool) : List WakeEntry :=
  s.wake.entries.filter (fun e => e.port == port && e.out == out)

/-- Pool lines free for a port (R335). -/
def poolFree (s : State) (port : Nat) : Nat :=
  32768 - ((s.wake.entries.filter (fun e => e.port == port)).map (·.lines)).sum

/-- The message is one of CXL.cache. -/
def coherentOpc (opc : Nat) : Bool := 3 ≤ opc && opc ≤ 6

/-- The message needs the right to write: all but reads and reads for a shared copy. -/
def opcWrites (opc : Nat) : Bool := opc != 0 && opc != 3

/-- A device tag of the port for a request (R316): none where the port may issue no further request of its kind. Without
FLIT mode the tags of CXL.io reads and atomics are 768 to a function, counted for the device's one. -/
def deviceTag (s : State) (port opc : Nat) (posted : Bool) : Option Nat :=
  let live := portEntries s port true
  let many (f : WakeEntry → Bool) : Nat := (live.filter f).length
  if coherentOpc opc && 4096 ≤ many (fun e => coherentOpc e.req.opc) then none
  else if !coherentOpc opc && !posted && !s.on (HP_STATUS_FLIT port) && 768 ≤ many (fun e => !coherentOpc e.req.opc && !e.posted) then none
  else firstFree (live.map (·.slot) ++ (s.wake.freed.filter (· / 16384 == port)).map (· % 16384)) 0 16384

/-- A request to the host of port `port`: its entry is written and it is sent, once (R333, R339). A memory write is posted:
it needs no completion of the host. None where it has to wait for a tag or for the pool (R316, R335). -/
def sendOutbound (port hostAddr : Nat) (r : NocReq) (data be : Nat) (posted : Bool) (s : State) : Option State :=
  match deviceTag s port r.opc posted with
  | none => none
  | some slot =>
    if posted && poolFree s port = 0 then none
    else
      let seq := s.get (WAKE_SEQ_OUT port)
      let e : WakeEntry := {
        port := port, out := true, slot := slot, seq := seq, side := false, replayed := false
        state := if posted then 3 else 2, dest := requesterUnit r.req, req := r, posted := posted, data := data, be := be
        lines := posted.toNat, ts := s.clocks.ts }
      let s := (s.put (WAKE_SEQ_OUT port) (seq + 1)).onWake (fun w => { w with entries := w.entries ++ [e] })
      some (s.emit (.hostRequest port slot r.opc hostAddr data be r.psn))

/-- The window of a port takes accesses (R317). -/
def windowOpen (s : State) (port : Nat) : Bool :=
  s.on (HP_WIN_EN port) && (s.get (HP_STATUS_UP port)).testBit 0 && !s.host.busMasterOff.contains port

/-- The outbound entry of an access: by requester, tag and message. -/
def outboundOf (s : State) (req : Requester) (tag opc : Nat) : Option WakeEntry :=
  s.wake.entries.find? (fun e => e.out && e.req.req == req && e.req.tag == tag && e.req.opc == opc)

/-- A recovery runs that has an entry of the port in its scope. -/
def portRecovers (s : State) (port : Nat) : Bool :=
  s.wake.recs.any (fun r => s.wake.entries.any (fun f => f.port == port && inScope r.kind r.unit f))

/-- An entry retires. Its device tag, where a recovery has the port in its scope, stays unused until no recovery runs (R339). -/
def retireEntry (e : WakeEntry) (s : State) : State :=
  s.onWake (fun w => { w with
    entries := w.entries.filter (fun f => !(f.port == e.port && f.out == e.out && f.slot == e.slot))
    freed := if e.out && portRecovers s e.port then w.freed ++ [e.port * 16384 + e.slot] else w.freed })

/-- An access of a requester to a window, at its issue: the answer where the hub gives it at once; else it is sent, or waits
to be sent. A violation of rights is answered where the response is given. -/
def issueWindow (r : NocReq) (data be : Nat) (s : State) : Option NocRsp × State :=
  match locate r.addr with
  | .window p off =>
    if !hasRight s r.req r.addr (opcWrites r.opc) then (none, s)
    else if !windowOpen s p then (some .errDecode, s)
    else (none, (sendOutbound p (s.get (HP_WIN_BASE p) * 2 ^ 40 + off) r data be (r.opc == 1) s).getD s)
  | _ => (none, s)

/-- How a window access of a requester stands when its response is asked for. -/
inductive WindowEnd where
  /-- Answered: with data as bytes from the address on. -/
  | done (r : NocRsp)
  /-- The host's completion has not come, or the request has not been sent. -/
  | wait
  deriving DecidableEq, Repr

/-- A window access at the delivery of its response (R333): the stored completion is delivered and its entry retires. One
that could not be sent is sent now. One whose entry is gone with its link has failed. -/
def finishWindow (r : NocReq) (data be : Nat) (s : State) : WindowEnd × State :=
  if !hasRight s r.req r.addr (opcWrites r.opc) then (.done (if r.opc = 1 then .ack else .data 0 false), s)
  else if s.host.failed.contains (r.req, r.tag) then
    (.done .errBus, { s with host := { s.host with failed := s.host.failed.erase (r.req, r.tag) } })
  else match outboundOf s r.req r.tag r.opc with
    | some e =>
      if e.state = 3 then
        (.done (if r.opc = 1 then .ack else match e.req.rsp with
          | some x => x
          | none => .data e.data false), retireEntry e s)
      else (.wait, s)
    | none =>
      match issueWindow r data be s with
      | (some x, s) => (.done x, s)
      | (none, s) => (.wait, s)

end Sys2Proof.Machine
end

