-- ==== Sys2Proof/Machine/Probes.lean ====
section
/-! DEFINITION. Probes of the network and their trace (spec/07, R173 to R175): which messages a probe sees, its count, its
records, and the writer that stores them. -/

namespace Sys2Proof.Machine

/-- A message on the mesh: mesh positions of its ends, with X 0x1F for the hub; message type; flits; tag; poisoned; the
address of its command flit where it has one; bits [127:0] of its first flit's data. -/
structure Msg where
  src : Nat × Nat
  dst : Nat × Nat
  opc : Nat
  flits : Nat
  tag : Nat
  psn : Bool
  cmd : Option Nat
  word : Nat
  deriving DecidableEq, Repr

/-- The code of the hub as an X position (R158). -/
def hubX : Nat := 0x1F

/-- The virtual network of a message type (R156). -/
def vnOf (opc : Nat) : Nat := if opc < 0x08 then 0 else if opc < 0x14 then 1 else if opc < 0x18 then 2 else 3

/-- The unit identifier of the router at a mesh position (R15, R154). -/
def routerUnit (x y : Nat) : Nat := unitId (x / 8 + 2 * (y / 4)) (32 + x % 8 + 8 * (y % 4))

/-- The unit identifier names a router. -/
def isRouter (u : Nat) : Bool := u / 2048 < 4 && 32 ≤ u % 2048 && u % 2048 < 64

/-- How a probe names a hub port: hub unit 18 with its row in bits [7:3] (assumption 61). -/
def hubPortUnit (y : Nat) : Nat := unitId 20 (8 * y + 2)

/-- The outputs that a message leaves through: unit and PORT (R155, R173): 0 north, 1 south, 2 east, 3 west, 4 local, 5 and 6
a hub port's eastward and westward output. Rows count from north to south (assumption 61). -/
def routeOut (m : Msg) : List (Nat × Nat) :=
  let (sx, sy) := m.src
  let (dx, dy) := m.dst
  if sx = hubX then
    if dx = hubX then []
    else (hubPortUnit dy, 5) :: (List.range dx).map (fun i => (routerUnit i dy, 2)) ++ [(routerUnit dx dy, 4)]
  else if dx = hubX then (List.range (sx + 1)).map (fun i => (routerUnit i sy, 3)) ++ [(hubPortUnit sy, 6)]
  else
    ((List.range (dx - sx)).map (fun i => (routerUnit (sx + i) sy, 2)))
      ++ ((List.range (sx - dx)).map (fun i => (routerUnit (sx - i) sy, 3)))
      ++ ((List.range (dy - sy)).map (fun j => (routerUnit dx (sy + j), 1)))
      ++ ((List.range (sy - dy)).map (fun j => (routerUnit dx (sy - j), 0)))
      ++ [(routerUnit dx dy, 4)]

/-- The address filter of a probe: a message without a command flit fails it (R173). -/
def addressMatches (s : State) (n : Nat) (cmd : Option Nat) : Bool :=
  !s.on (PROBE_AEN n) || match cmd with
    | some a => s.get64 (PROBE_ALO_LO n) (PROBE_ALO_HI n) ≤ a && a ≤ s.get64 (PROBE_AHI_LO n) (PROBE_AHI_HI n)
    | none => false

/-- Probe `n` matches a message (R173). -/
def probeMatches (s : State) (n : Nat) (m : Msg) : Bool :=
  s.on (PROBE_EN n) && (routeOut m).contains (s.get (PROBE_UNIT n), s.get (PROBE_PORT n))
    && (!s.on (PROBE_SEN n) || (s.get (PROBE_SX n) == m.src.1 && s.get (PROBE_SY n) == m.src.2))
    && (!s.on (PROBE_DEN n) || (s.get (PROBE_DX n) == m.dst.1 && s.get (PROBE_DY n) == m.dst.2))
    && s.bit (PROBE_VNMASK n) (vnOf m.opc)
    && (!s.on (PROBE_OEN n) || s.get (PROBE_OPC n) == m.opc)
    && addressMatches s n m.cmd

/-- The header of a message's first flit (R158) but for AGE and FRAC. -/
def headerOf (m : Msg) : Nat :=
  vnOf m.opc * 2 ^ 46 + m.dst.1 * 2 ^ 41 + m.dst.2 * 2 ^ 38 + m.src.1 * 2 ^ 33 + m.src.2 * 2 ^ 30 + m.opc * 2 ^ 25
    + (if m.flits = 1 then 0 else 1) * 2 ^ 23 + m.psn.toNat * 2 ^ 22 + m.tag % 1024 * 2 ^ 12

/-- A trace record without its GAP bit (R174). AGE and FRAC count cycles and are a free value (assumption 61). -/
def recordOf (n : Nat) (m : Msg) (s : State) : Nat × State :=
  let (age, s) := s.free
  (s.clocks.ts % 2 ^ 64 + (headerOf m + age.toNat % 2 ^ 12) * 2 ^ 64 + n * 2 ^ 112 + m.flits * 2 ^ 118 + m.word % 2 ^ 128 * 2 ^ 128, s)

/-- A record of a probe is lost (R174). -/
def loseRecord (n : Nat) (s : State) : State :=
  let s := { s with noc := { s.noc with gaps := setAdd s.noc.gaps n } }
  raiseNoc NOC_CAUSE_TRACE_LOST (s.count (PROBE_LOST n))

/-- A record enters a probe's queue of 16, or is lost. -/
def queueRecord (n : Nat) (m : Msg) (s : State) : State :=
  let q := smGet [] s.noc.probeQ n
  if 16 ≤ q.length then loseRecord n s
  else
    let (r, s) := recordOf n m s
    { s with noc := { s.noc with probeQ := smSet [] s.noc.probeQ n (q ++ [r]) } }

/-- What MODE adds for a message: its flits; 1; the NoC cycles for which its flits waited for credit, a free value; how many of its
flits were granted at urgency 15, a free value up to their number (assumption 61). -/
def probeCounts (n : Nat) (m : Msg) (s : State) : Nat × State :=
  match s.get (PROBE_MODE n) with
  | 0 => (m.flits, s)
  | 1 => (1, s)
  | 2 => let (v, s) := s.free; (v.toNat, s)
  | _ => let (v, s) := s.free; (v.toNat % (m.flits + 1), s)

/-- What MODE adds goes to the 48-bit count, which saturates. -/
def countProbe (n : Nat) (m : Msg) (s : State) : State :=
  let (k, s) := probeCounts n m s
  s.put64 (PROBE_CNT_LO n) (PROBE_CNT_HI n) (min (s.get64 (PROBE_CNT_LO n) (PROBE_CNT_HI n) + k) (2 ^ 48 - 1))

/-- A probe at a message that it matches: its count, cross-trigger source 4, its record (R173, R174, R388, R391). -/
def probeHit (n : Nat) (m : Msg) (s : State) : State :=
  let s := countProbe n m s
  let s := if s.bit DBG_XT_PROBE_PROBE n then xtSource 4 s else s
  if s.on (PROBE_TRACE n) && s.on SEC_DBG_POLICY_TRACE then queueRecord n m s else s

/-- A message passes every probe. -/
def seeMessage (m : Msg) (s : State) : State :=
  (List.range 32).foldl (fun s n => if probeMatches s n m then probeHit n m s else s) s

/-- The trace destination's bytes: the hub trace buffer, or NOC_TRACE_SIZE (assumption 61). -/
def traceBytes (s : State) : Nat :=
  if s.on NOC_TRACE_CTRL_DEST then (if s.get NOC_TRACE_SIZE_BYTES = 0 then 4096 else s.get NOC_TRACE_SIZE_BYTES / 4096 * 4096) else 2 ^ 20

end Sys2Proof.Machine
end

