-- ==== Sys2Proof/Machine/Reach.lean ====
section
/-! DEFINITION. Requests on their way to a fabric target (spec/07, R156 to R164): what a request is, the target map, ports and their
tags, what the probes see of a request and of its answer, and the records of requests outstanding. -/

namespace Sys2Proof.Machine

/-- A request as its target sees it: requester and tag; address; bytes; 0 read, 1 write, 2 atomic; data and byte enables from
the address on; for an atomic its operation and compare value; poisoned; posted; it reaches channel DRAM without passing the
hub switch (R311); it stays within its channel's or engine's own units (R23); a read without side effects;
the byte enables that its command flit carries, where they are not those alone (R159). -/
structure Ask where
  req : Requester
  tag : Nat
  addr : Nat
  len : Nat
  opc : Nat
  data : Nat := 0
  be : Nat := 0
  op : AtomOp := .other
  cmp : Nat := 0
  psn : Bool := false
  posted : Bool := false
  direct : Bool := false
  inside : Bool := false
  quiet : Bool := false
  flitBe : Option Nat := none

/-- How a request stands at its target. -/
inductive Answer where
  | done (r : NocRsp)
  /-- It waits: for a partition's wake, or for a snoop of a host; its sender presents it again. -/
  | wait
  /-- A target that the model does not hold answers: logic of the fabric, or the host behind a window. -/
  | outside
  deriving DecidableEq, Repr

/-- How an access that ended with a status is answered; `v`: the data of a read. -/
def rspOf (opc v : Nat) : PortStatus → NocRsp
  | .ok => if opc = 1 then .ack else .data v false
  | .decodeError => .errDecode
  | .busError => .errBus
  | .poison => if opc = 0 then .data v true else .errBus

/-- What an access whose right is missing gets: zero, or a write's normal completion (R21, R295). -/
def silentRsp (opc : Nat) : NocRsp := if opc = 1 then .ack else .data 0 false

/-- The requester has every right that the request needs (R295). -/
def permitted (s : State) (a : Ask) : Bool :=
  (a.opc == 1 || hasRight s a.req a.addr false) && (a.opc == 0 || hasRight s a.req a.addr true)

/-- The network changed. -/
def State.onNoc (s : State) (f : Noc → Noc) : State := { s with noc := f s.noc }

/-! The target map (R162). -/

/-- Both words of entry `e` of the target map as the port of a requester holds it: at a sector's injection port what MGT_WR has
loaded there, else the registers' own. -/
def mapWords (s : State) (req : Requester) (e : Nat) : Nat × Nat :=
  let own : Nat := match req with
    | .sector x => smGet 0 s.noc.maps (x.val * 256 + e)
    | _ => 0
  if own = 0 then ((s.on (TMAP_VALID e)).toNat * 2 ^ 31 + s.get (TMAP_BASE e),
    s.get (TMAP_DIE e) * 2 ^ 30 + s.get (TMAP_SIZE e) * 2 ^ 8 + s.get (TMAP_SECTOR e))
  else ((own - 1) % 2 ^ 32, (own - 1) / 2 ^ 32)

/-- A target-map entry claims an offset in the fabric's space. -/
def entryClaims (s : State) (req : Requester) (off e : Nat) : Bool :=
  let (lo, hi) := mapWords s req e
  let b := lo % 2 ^ 28 * 4096
  let z := slice hi 8 5
  lo.testBit 31 && 12 ≤ z && z ≤ 38 && b % 2 ^ z == 0 && b / 2 ^ 38 == slice hi 30 2 && b / 2 ^ z == off / 2 ^ z

/-- The sector whose target port an offset is mapped to. -/
def fabricTarget (s : State) (req : Requester) (off : Nat) : Option Nat :=
  ((List.range 256).find? (entryClaims s req off)).map (fun e => 32 * slice (mapWords s req e).2 30 2 + slice (mapWords s req e).2 0 5)

/-- The sector to which a request goes on the mesh. -/
def requestDst (s : State) (req : Requester) (addr : Nat) : Option Nat :=
  match locate addr with
  | .fabric d off => fabricTarget s req (d * 2 ^ 38 + off)
  | _ => none

/-! Ports and tags (R163). -/

/-- The port through which a requester's requests enter the network (R156): a sector's injection port, or a hub port of the
destination's row; 136 where a request stays in the hub switch. -/
def entryPort (req : Requester) (dst : Option Nat) : Nat :=
  match req with
  | .sector x => x.val
  | _ => match dst with
    | some x => 128 + (meshPos x).2
    | none => 136

/-- A request's record, with its answer. -/
def reqOf (a : Ask) (port : Nat) (dst : Option Nat) (rsp : Option NocRsp) : NocReq :=
  { port := port, tag := a.tag, req := a.req, opc := a.opc, addr := a.addr, len := a.len - 1, dst := dst, accepted := true, rsp := rsp
    psn := a.psn }

/-- The tags in use at a port: at a hub port those that the hub has assigned. -/
def portTags (s : State) (port : Nat) : List Nat :=
  (s.noc.reqs.filter (·.port == port)).map (fun r => if port < 128 then r.tag else r.hubTag)

/-- Every one of the 1,024 tags of a hub port is in use. The hub switch, port 136, has no such tags. -/
def tagsFull (s : State) (port : Nat) : Bool := 128 ≤ port && port < 136 && (firstFree (portTags s port) 0 1024).isNone

/-- A request's tag is outstanding at its port; at a hub port, which assigns the tags itself, the requester's own number of the request
is, or no tag is free (R163). -/
def tagBusy (s : State) (req : Requester) (port tag : Nat) : Bool :=
  tagsFull s port || s.noc.reqs.any (fun r => r.port == port && r.tag == tag && (port < 128 || r.req == req))

/-- A request of a hub port with the lowest tag that is free there. -/
def withHubTag (s : State) (r : NocReq) : NocReq :=
  if 128 ≤ r.port && r.port < 136 then { r with hubTag := (firstFree (portTags s r.port) 0 1024).getD 1024 } else r

/-- The tag that a request's flits carry. -/
def flitTag (r : NocReq) : Nat := if r.port < 128 then r.tag else r.hubTag

/-- A request is recorded, with its answer where it has one. -/
def recordReq (r : NocReq) (s : State) : State := s.onNoc (fun n => { n with reqs := n.reqs ++ [withHubTag s r] })

/-! What the probes see (R156, R158, R159). -/

/-- The ends of a request on the mesh; none where it stays in the hub switch. -/
def meshEnds (port : Nat) (dst : Option Nat) : Option ((Nat × Nat) × (Nat × Nat)) :=
  match portSector port, dst with
  | none, none => none
  | none, some y => some ((hubX, (meshPos y).2), meshPos y)
  | some x, none => some (meshPos x, (hubX, (meshPos x).2))
  | some x, some y => some (meshPos x, meshPos y)

/-- The 32-byte halves of a block that a range touches (R159). -/
def halves (addr len : Nat) : Nat := (addr + len - 1) / 32 - addr / 32 + 1

/-- A request's message type and flits (R156, R159). -/
def requestFlits (opc addr len : Nat) : Nat := if opc = 1 then 1 + halves addr len else if opc = 2 then 2 else if opc = 6 then 3 else 1

/-- The byte enables that a request's command flit carries: bit i for byte i of the 64-byte block. -/
def blockBe (a : Ask) : Nat := if a.opc = 1 then a.flitBe.getD (a.be * 2 ^ (a.addr % 64)) else 0

/-- The first data bits of a command flit. -/
def commandWord (addr len be : Nat) : Nat := addr % 2 ^ 52 + len % 64 * 2 ^ 52 + be % 2 ^ 64 * 2 ^ 64

/-- The probes see a request. -/
def seeRequest (r : NocReq) (be : Nat) (s : State) : State :=
  match meshEnds r.port r.dst with
  | none => s
  | some (a, b) =>
    seeMessage ⟨a, b, r.opc, requestFlits r.opc r.addr (r.len + 1), flitTag (withHubTag s r), false, some r.addr,
      commandWord r.addr r.len be⟩ s

/-- The message type of an answer, and its flits; `excl`: coherent data comes with an exclusive copy. -/
def answerOpc (r : NocReq) (excl : Bool) : NocRsp → Nat × Nat
  | .data _ _ => if r.opc = 2 then (0x0A, 1) else if r.opc = 3 ∨ r.opc = 4 then (if excl then 0x11 else 0x10, 2) else (0x08, halves r.addr (r.len + 1))
  | .ack => (if r.opc = 5 ∨ r.opc = 6 then 0x12 else 0x09, 1)
  | .errDecode => (0x0B, 1)
  | .errBus => (0x0C, 1)

/-- The data of an answer's first flit: read data stands at its place in the half of the block, an atomic's value at the bottom. -/
def answerWord (r : NocReq) (v : Nat) : Nat := if r.opc = 2 then v else v * 2 ^ (8 * (r.addr % 32))

/-- The probes see an answer on its way back. -/
def seeAnswer (r : NocReq) (excl : Bool) (x : NocRsp) (s : State) : State :=
  match meshEnds r.port r.dst with
  | none => s
  | some (a, b) =>
    let (opc, flits) := answerOpc r excl x
    let (v, psn) := match x with
      | .data v psn => (answerWord r v, psn)
      | _ => (0, false)
    seeMessage ⟨b, a, opc, flits, flitTag r, psn, none, v⟩ s

/-! Requests at their target. -/

/-- Requests that a sector's target port has accepted on VN0 and not answered (R164). -/
def acceptedAt (s : State) (x : Nat) : Nat :=
  (s.noc.reqs.filter (fun r => r.dst == some x && r.accepted && r.rsp.isNone && !r.lost && r.opc < 8)).length

/-- A request to a fabric address: its sector where the sector's logic will answer. -/
def serveFabric (a : Ask) (off : Nat) (s : State) : Answer × State :=
  if !permitted s a then (.done (silentRsp a.opc), s)
  else match fabricTarget s a.req off with
    | none => (.done .errDecode, s)
    | some x =>
      if routeFrozen s (entryPort a.req (some x)) (some x) then (.done .errBus, s)
      else if !sectorUp s x then (.done .errDecode, s)
      else if easyHolds s (x / 32) then (.wait, wakePart (x / 32) s)
      else (.outside, if gated s x && !islHalted s x then wakeIsland s x else s)

/-- A request passes the hub switch (R23): all but those of a channel's engines to their own channel's units, those of a sector
to another sector's target, and those that reach the hub's registers from the hub itself. -/
def passesSwitch (s : State) (a : Ask) : Bool :=
  match locate a.addr with
  | .unmapped => false
  | .fabric d off => match a.req with
    | .sector _ => false
    | _ => (fabricTarget s a.req (d * 2 ^ 38 + off)).isSome
  | .hub _ => match a.req with
    | .sector _ => true
    | .engine g => g.val < 1024 && !a.inside
    | _ => false
  | _ => !a.inside

/-- What the hub switch does with a request while it is not in service: held in reset, it keeps dies and channels at their hub
ports until its release; frozen, its bridges answer with a bus error (R46). -/
def switchStop (s : State) (a : Ask) : Option Answer :=
  if !passesSwitch s a then none
  else if !s.clocks.released.contains 181 then some .wait
  else if isFrozen s 181 then some (.done .errBus)
  else none

/-- A request reaches a sector's target port, whose logic sees it; none where the port has accepted 1,024 (R164). -/
def enterFabric (r : NocReq) (a : Ask) (x : Nat) (s : State) : Option State :=
  if 1024 ≤ acceptedAt s x then none
  else some (recordReq r ((seeRequest r (blockBe a) s).emit (.fabricRequest x a.opc a.addr a.len a.data a.be a.op a.cmp a.psn)))

/-- A request of a unit of the hub or of a crew, whose own command brings the answer, leaves for a sector where nothing holds it up
(R163, R164); else it stays with its unit. -/
def sendUnit (a : Ask) (s : State) : State :=
  match locate a.addr, requestDst s a.req a.addr, switchStop s a with
  | .fabric d off, some x, none =>
    let port := entryPort a.req (some x)
    if tagsFull s port then s
    else match serveFabric a (d * 2 ^ 38 + off) s with
      | (.outside, t) => (enterFabric { reqOf a port (some x) none with unit := true } a x t).getD s
      | _ => s
  | _, _, _ => s

/-- The record of a unit's request: of its loads the last, of its posted stores the first. -/
def unitReq (s : State) (a : Ask) : Option NocReq :=
  let l := s.noc.reqs.filter (fun r => r.unit && r.req == a.req && r.opc == a.opc && r.addr == a.addr)
  if a.opc = 0 then l.getLast? else l.head?

/-- A request is over: its tag is free, and fences that waited for it wait no more (R26, R79). -/
def endReq (r : NocReq) (err : Bool) (s : State) : State :=
  let f (x : Fence) : Fence :=
    if x.waiting.contains (r.port, r.tag) then { x with waiting := x.waiting.erase (r.port, r.tag), err := x.err || err } else x
  { s with
    noc := { s.noc with reqs := s.noc.reqs.erase r }
    fabric := { s.fabric with fences := s.fabric.fences.map (fun e => (e.1, f e.2)) } }

/-- An answer is an error. -/
def isErr (x : NocRsp) : Bool := x == .errDecode || x == .errBus

/-- A unit's request ends: with what the network answered instead, or with the target's own answer; none where it has been lost. -/
def endUnit (r : NocReq) (given : NocRsp) (s : State) : Option NocRsp × State :=
  match r.rsp with
  | some x => (some x, endReq r (isErr x) s)
  | none => if r.lost then (none, s) else (some given, endReq r (isErr given) (seeAnswer r false given s))

/-- A unit's request to a fabric target gets the target's answer: one that could not leave before leaves now; none where it waits on. -/
def answerUnit (a : Ask) (given : NocRsp) (s : State) : Option NocRsp × State :=
  let s := if (unitReq s a).isNone then sendUnit a s else s
  match unitReq s a with
  | some r => endUnit r given s
  | none => (none, s)

/-- The request of a requester with a tag and one of some message types, which a response message answers. -/
def findReq (s : State) (req : Requester) (tag : Nat) (opcs : List Nat) : Option NocReq :=
  s.noc.reqs.find? (fun r => r.req == req && r.tag == tag && opcs.contains r.opc && !r.unit)

end Sys2Proof.Machine
end

