-- ==== Sys2Proof/Machine/Ranges.lean ====
section
/-! DEFINITION. What an access meets before its target takes it: the hub switch (spec/01, R23), a channel in Easy (spec/15, R354), and
the directory of the lines that hosts hold (spec/13, R310 to R312); for single requests, and for the transfers that units of the hub
and of the channels make piece by piece. -/

namespace Sys2Proof.Machine

/-- The host ports' state changed. -/
def State.onHost (s : State) (f : HostSide → HostSide) : State := { s with host := f s.host }

/-! Back-invalidation (R310 to R312). -/

/-- The device line of a location (R310). -/
def lineOf (addr : Nat) : Nat := addr % 2 ^ 48 / 64

/-- What an access to a recorded line has to wait for: the port to snoop, and whether BISnpInv. A port's own CXL.mem requests
do not meet its own copies. -/
def biNeeds (s : State) (a : Ask) : Option (Nat × Bool) :=
  match s.host.dir.find? (·.1 == lineOf a.addr) with
  | none => none
  | some (_, d) =>
    let own : Bool := match a.req with
      | .host p pf => pf.val == 1 && p.val == d.port
      | _ => false
    if own || a.direct then none
    else if a.opc ≠ 0 then some (d.port, true)
    else if d.excl then some (d.port, false)
    else none

/-- An access waits for a snoop of a line, which is sent unless it is in flight. -/
def biWait (port line : Nat) (inv : Bool) (who : Requester × Nat) (s : State) : State :=
  if s.host.biSnoops.any (fun b => b.port == port && b.line == line) then
    s.onHost (fun h => { h with biSnoops := h.biSnoops.map (fun b =>
      if b.port == port && b.line == line && !b.waiting.contains who then { b with waiting := b.waiting ++ [who] } else b) })
  else (s.onHost (fun h => { h with biSnoops := h.biSnoops ++ [⟨port, line, inv, [who]⟩] })).emit (.biSnp port line inv.toNat)

/-- An access ended by a snoop that was not answered (R312), taken out of the list of those. -/
def takeFailed (who : Requester × Nat) (s : State) : Option State :=
  if s.host.failed.contains who then some (s.onHost (fun h => { h with failed := h.failed.erase who })) else none

/-- The channel of a location, where it waits for a partition in Easy (R354). -/
def waitsForChannel (s : State) (a : Ask) : Option Nat :=
  let ch : Option Nat := match locate a.addr with
    | .dram n _ => some n
    | .chan n _ => some n
    | _ => none
  match ch with
  | some n => if easyHolds s (4 + n) && ownChannel a.req != some n then some (4 + n) else none
  | none => none

/-! Transfers (R23, R310, R354). -/

/-- How a transfer stands before its target. -/
inductive Turn where
  /-- It goes on. -/
  | go
  /-- It waits; who makes it presents it again. -/
  | wait
  /-- It ends in a bus error. -/
  | fail
  deriving DecidableEq, Repr

/-- The first line of a transfer that has to be snooped: port, line, whether BISnpInv. -/
def rangeNeeds (s : State) (a : Ask) : Option (Nat × Nat × Bool) :=
  match locate a.addr with
  | .dram _ _ =>
    if a.direct then none
    else (s.host.dir.find? (fun e => lineOf a.addr ≤ e.1 && e.1 ≤ lineOf (a.addr + a.len - 1) && (a.opc != 0 || e.2.excl))).map
      (fun e => (e.2.port, e.1, a.opc != 0))
  | _ => none

/-- The transfer number `k` of a requester: `len` bytes read (0) or written (1) from an address on. Within its own channel it passes no
hub switch (R311). -/
def transferAsk (req : Requester) (k addr len opc : Nat) : Ask :=
  let own : Bool := match locate addr with
    | .dram n _ => ownChannel req == some n
    | .chan n _ => ownChannel req == some n
    | _ => false
  { req := req, tag := 2 ^ 20 + k, addr := addr, len := len, opc := opc, direct := own, inside := own }

/-- A transfer comes to its target: the switch holds it or ends it; a snoop that was not answered has ended it; it waits for its
channel's wake, or for the snoop of a line. -/
def turnOf (a : Ask) (s : State) : Turn × State :=
  match switchStop s a, takeFailed (a.req, a.tag) s with
  | some .wait, _ => (.wait, s)
  | some _, _ => (.fail, s)
  | none, some s => (.fail, s)
  | none, none => match waitsForChannel s a, (if permitted s a then rangeNeeds s a else none) with
    | some p, _ => (.wait, wakePart p s)
    | none, some (port, line, inv) => (.wait, biWait port line inv (a.req, a.tag) s)
    | none, none => (.go, s)

/-- The same where the transfer is one with plain memory by device address; any other is for its command to judge. -/
def plainTurn (a : Ask) (s : State) : Turn × State :=
  if a.addr < hubSram && (plainOf a.addr).isSome then turnOf a s else (.go, s)

end Sys2Proof.Machine
end

