-- ==== Sys2Proof/Machine/Nand.lean ====
section
/-! DEFINITION. The NAND interface and its command sequencer (spec/10, R231 to R241, R246, R254), and the CRC contexts that
its phases feed (R248, R249). What the medium answers, what decoding finds, and when a LUN is ready are the operands of
commands (assumption 1). -/

namespace Sys2Proof.Machine

/-- The channel's movers as a requester. -/
def moverOf (n : Nat) : Requester := .mover (BitVec.ofNat 4 n).toFin

/-- A started descriptor of a LUN: its PRIO one or its ordinary one. -/
def Lun.slot (x : Lun) (prio : Bool) : Option NandRun := if prio then x.prio else x.run

/-- The same replaced. -/
def Lun.setSlot (x : Lun) (prio : Bool) (r : Option NandRun) : Lun := if prio then { x with prio := r } else { x with run := r }

/-- A started descriptor replaced. -/
def setRun (n l : Nat) (prio : Bool) (r : Option NandRun) (s : State) : State := s.setLun n l ((s.lun n l).setSlot prio r)

/-- The program that holds the bus: LUN, PRIO, the descriptor. -/
def busHolder (s : State) (n : Nat) : Option (Nat × Bool × NandRun) :=
  (s.chan n).bus.bind (fun b => ((s.lun n b.1).slot b.2).map (fun r => (b.1, b.2, r)))

/-! Descriptor fields (R235). -/

/-- Word `i` of a started descriptor. -/
def NandRun.word (r : NandRun) (i : Nat) : Nat := (r.words.getD i 0).toNat
/-- NCW: codewords of encode and decode phases. -/
def NandRun.ncw (r : NandRun) : Nat := slice (r.word 0) 16 4
/-- LEN: bytes of raw phases. -/
def NandRun.len (r : NandRun) : Nat := slice (r.word 6) 0 16
/-- CTX: CRC context of fed phases. -/
def NandRun.ctx (r : NandRun) : Nat := slice (r.word 6) 16 2

/-- The LUN is absent (R232). -/
def lunAbsent (s : State) (n l : Nat) : Bool := s.get (NAND_CFG_CES n) < l / 4 || s.get (NAND_CFG_LUNS n) < l % 4

/-- A descriptor with a reserved bit set or with NCW above 8. -/
def badDescriptor (w : List Word) : Bool :=
  let x (i : Nat) : Nat := (w.getD i 0).toNat
  (x 0).testBit 23 || x 1 / 2 ^ 24 != 0 || x 2 / 2 ^ 16 != 0 || x 6 / 2 ^ 18 != 0 || x 7 != 0 || 8 < slice (x 0) 16 4

/-- The row after remapping, and whether an entry matched (R254). -/
def remapped (s : State) (n row : Nat) : Nat × Bool :=
  let b := 2 ^ s.get (NAND_CFG_PGBITS n)
  match (List.range 512).find? (fun e => s.on (NAND_REMAP_VALID n e) && s.get (NAND_REMAP_FROM n e) / b == row / b) with
  | some e => (s.get (NAND_REMAP_TO n e) / b * b + row % b, true)
  | none => (row, false)

/-! CRC contexts (R248, R249). -/

/-- Width of a polynomial. -/
def crcWidth (poly : Nat) : Nat := if poly = 2 then 64 else if poly = 3 then 16 else 32
/-- INIT of a polynomial. -/
def crcInit (poly : Nat) : Nat := if poly < 2 then 0xFFFFFFFF else 0
/-- XOROUT of a polynomial. -/
def crcXorOut (poly : Nat) : Nat := if poly < 2 then 0xFFFFFFFF else 0

/-- One bit step: reflected polynomials shift right, the others left. -/
def crcBit (poly v : Nat) : Nat :=
  match poly with
  | 0 => if v % 2 = 1 then v / 2 ^^^ 0x82F63B78 else v / 2
  | 1 => if v % 2 = 1 then v / 2 ^^^ 0xEDB88320 else v / 2
  | 2 => if v / 2 ^ 63 % 2 = 1 then v * 2 % 2 ^ 64 ^^^ 0x42F0E1EBA9EA3693 else v * 2 % 2 ^ 64
  | _ => if v / 2 ^ 15 % 2 = 1 then v * 2 % 2 ^ 16 ^^^ 0x8BB7 else v * 2 % 2 ^ 16

/-- `k` bit steps. -/
def crcBits (poly v : Nat) : Nat → Nat
  | 0 => v
  | k + 1 => crcBits poly (crcBit poly v) k

/-- The shift register after one more byte. -/
def crcByte (poly v : Nat) (b : Byte) : Nat :=
  crcBits poly (v ^^^ (if poly < 2 then b.toNat else b.toNat * 2 ^ (crcWidth poly - 8))) 8

/-- The shift register after more bytes. -/
def crcFeed (poly : Nat) (v : Nat) (l : List Byte) : Nat := l.foldl (crcByte poly) v

/-- The running value of a context. -/
def ctxVal (s : State) (n c : Nat) : Nat := s.get64 (CRC_CTX_VAL_LO n c) (CRC_CTX_VAL_HI n c)

/-- A context fed with bytes. -/
def feedCtx (n c : Nat) (l : List Byte) (s : State) : State :=
  s.put64 (CRC_CTX_VAL_LO n c) (CRC_CTX_VAL_HI n c) (crcFeed (s.get (CRC_CTX_POLY n c)) (ctxVal s n c) l)

/-- The scan engine uses context `c`. -/
def scanUses (s : State) (n c : Nat) : Bool :=
  s.on (CRC_SCAN_BUSY n) && !(s.chan n).scanWaits && s.get (CRC_SCAN_CTX n) == c

/-! Micro-ops (R236). -/

/-- A micro-op. -/
inductive Uop where
  | endOp
  | cmd (byte : Nat)
  | addr (sel imm : Nat)
  | dout (src : Nat) (crc : Bool)
  | din (dst : Nat) (crc cnt : Bool)
  | waitT (ns : Nat)
  | waitRb (poll : Bool)
  | status (mask exp : Nat)
  | undefined
  deriving DecidableEq, Repr

/-- The micro-op that a word holds. -/
def decodeUop (w : Nat) : Uop :=
  let x := w % 2 ^ 28
  match w / 2 ^ 28 with
  | 0 => if x = 0 then .endOp else .undefined
  | 1 => if x < 256 then .cmd x else .undefined
  | 2 => if x < 65536 ∧ x % 8 < 4 ∧ slice x 3 5 = 0 then .addr (x % 8) (x / 256) else .undefined
  | 3 => if x = x % 4 + 16 * slice x 4 1 then .dout (x % 4) (x.testBit 4) else .undefined
  | 4 => if x = x % 4 + 16 * slice x 4 2 then .din (x % 4) (x.testBit 4) (x.testBit 5) else .undefined
  | 5 => if x < 2 ^ 20 then .waitT x else .undefined
  | 6 => if x < 2 then .waitRb (x == 1) else .undefined
  | 7 => if x < 65536 then .status (x % 256) (x / 256) else .undefined
  | _ => .undefined

/-- The micro-op that a program executes next, as it stands in the micro-op memory. -/
def uopAt (s : State) (n : Nat) (r : NandRun) : Uop := decodeUop (s.get (NAND_UOP_WORD n (r.pc % 4096)))

/-- An inline phase feeds context `c`. -/
def inlineFeeds (s : State) (n c : Nat) : Bool :=
  match busHolder s n with
  | some (_, _, r) => r.phase == .data && r.ctx == c && r.fed
  | none => false

/-! NAND_CFG and the bus (R234, R237). -/

/-- The data-rate range of an interface mode, in 25 MT/s. -/
def rateRange (mode : Nat) : Option (Nat × Nat) := if mode = 1 then some (8, 64) else if mode = 2 then some (32, 144) else none

/-- MODE, RATE, ODT and POLL take effect. -/
def applyNandCfg (n v : Nat) (s : State) : State :=
  let mode := v % 4
  let rate := slice v 16 8
  let eff := match rateRange mode with
    | some (lo, hi) => max lo (min hi rate)
    | none => rate
  let s := s.puts [(NAND_CFG_MODE n, mode), (NAND_CFG_ODT n, slice v 6 2), (NAND_CFG_RATE n, eff), (NAND_CFG_POLL n, slice v 24 8)]
  if eff ≠ rate then s.flag (NAND_FLAGS_CLAMP n) true else s

/-- A write of NAND_CFG. -/
def writeNandCfg (n v : Nat) (s : State) : State :=
  let s := s.puts [(NAND_CFG_CES n, slice v 8 2), (NAND_CFG_LUNS n, slice v 10 2), (NAND_CFG_PGBITS n, slice v 12 4)]
  if (s.chan n).bus.isSome then s.setChan n { s.chan n with cfgPend := some (BitVec.ofNat 32 v) } else applyNandCfg n v s

/-- The bus is free: a write of NAND_CFG that waited takes effect, and a scan that waited for an inline phase starts. -/
def releaseBus (n : Nat) (s : State) : State :=
  let c := s.chan n
  let s := s.setChan n { c with bus := none, cfgPend := none, scanWaits := false }
  match c.cfgPend with
  | some v => applyNandCfg n v.toNat s
  | none => s

/-! Completions (R238). -/

/-- Entries of a completion ring by its LOG2. -/
def ringSize (log2 : Nat) : Nat := 2 ^ max 4 (min 12 log2)

/-- The NAND completion ring is full. -/
def nandRingFull (s : State) (n : Nat) : Bool :=
  let k := ringSize (s.get (NAND_CQ_SIZE_LOG2 n))
  (s.get (NAND_CQ_WPTR_INDEX n) + 1) % k == s.get (NAND_CQ_RPTR_INDEX n) % k

/-- The 16 bytes of a completion entry. -/
def nandEntry (l : Nat) (r : NandRun) (status : Nat) : Nat :=
  slice (r.word 0) 24 8 * 2 ^ 24 + l * 2 ^ 16 + r.crcBusy.toNat * 2 ^ 9 + r.remapped.toNat * 2 ^ 8 + status
    + 2 ^ 32 * (r.lastStatus * 2 ^ 24 + min r.maxCorr 4095 * 2 ^ 12 + r.failMask % 256)
    + 2 ^ 64 * min (r.busy / 100) 0xFFFFFFFF + 2 ^ 96 * (r.diff % 2 ^ 32)

/-- A completion is posted: the entry, the ring's pointer, line 19 in the crew. -/
def postNand (n l : Nat) (prio : Bool) (r : NandRun) (status : Nat) (s : State) : State :=
  let k := ringSize (s.get (NAND_CQ_SIZE_LOG2 n))
  let w := s.get (NAND_CQ_WPTR_INDEX n)
  let a := bufAddress n (s.get (NAND_CQ_BASE_BUF n)) / 16 * 16 + w % k * 16
  let (_, _, s) := rangeWrite (plainAccess (moverOf n)) a (toBytes (nandEntry l r status) 16) s
  setLines 19 (crewOf n) (setRun n l prio none (s.put (NAND_CQ_WPTR_INDEX n) ((w + 1) % k)))

/-- A descriptor is at its end with a status: the bus is released where its program held it, and the completion is posted,
or waits for room. -/
def endRun (n l : Nat) (prio : Bool) (r : NandRun) (status : Nat) (s : State) : State :=
  let s := if (s.chan n).bus = some (l, prio) then releaseBus n s else s
  if nandRingFull s n then
    let s := setRun n l prio (some { r with phase := .atEnd status }) s
    s.setChan n { s.chan n with ended := (s.chan n).ended ++ [(l, prio)] }
  else postNand n l prio r status s

/-- Completions that wait are posted in order while the ring has room. -/
def drainEnded (n : Nat) : List (Nat × Bool) → State → State
  | [], s => s
  | (l, p) :: rest, s =>
    if nandRingFull s n then s
    else
      let s := s.setChan n { s.chan n with ended := (s.chan n).ended.drop 1 }
      match (s.lun n l).slot p with
      | some r => (match r.phase with
        | .atEnd st => drainEnded n rest (postNand n l p r st s)
        | _ => drainEnded n rest s)
      | none => drainEnded n rest s

/-- A write of NAND_CQ_RPTR (R238). -/
def writeNandRptr (n v : Nat) (s : State) : State :=
  let s := s.put (NAND_CQ_RPTR_INDEX n) v
  drainEnded n (s.chan n).ended s

/-- NAND_CQ_RPTR_WRITE (R238). -/
def execNandCqRptrWrite (req : Requester) (n : Ch) (index : BitVec 12) (s : State) : Res :=
  .next (guardedWrite s.begin req (0x02000001002C + n.val * 0x10000000) 4 (writeNandRptr n index.toNat))

/-! Submission and grants (R235, R237). -/

/-- A write of NAND_Q_PUSH. -/
def nandPush (n v : Nat) (s : State) : State :=
  let off := slice v 5 19 * 32
  let prio := v.testBit 31
  let (w, _, s) := crewRecord n off 1 s
  let l := slice (w.getD 0 0).toNat 12 4
  let x := s.lun n l
  if 32 ≤ x.queue.length then raiseCh n (CH_CAUSE_NAND_QOVF n) s
  else s.setLun n l { x with queue := if prio then (off, true) :: x.queue else x.queue ++ [(off, false)] }

/-- NAND_DESCRIPTOR_PUSH (R235). -/
def execNandDescriptorPush (req : Requester) (n : Ch) (data : Word) (s : State) : Res :=
  .next (guardedWrite s.begin req (0x020000010010 + n.val * 0x10000000) 4 (nandPush n data.toNat))

/-- A LUN whose PRIO descriptor can start or resume now: none of another is between grant and wait. -/
def prioReady (x : Lun) : Bool :=
  match x.prio with
  | some r => r.phase == .resumable || r.phase == .ready
  | none => (x.queue.head?).any (·.2) && (match x.run with
    | none => true
    | some r => match r.phase with
      | .waitRb _ | .resumable => true
      | _ => false)

/-- A LUN whose ordinary descriptor can start or resume now; a halted LUN starts none. -/
def plainReady (s : State) (n l : Nat) (x : Lun) : Bool :=
  x.prio.isNone && match x.run with
    | some r => r.phase == .resumable || r.phase == .ready
    | none => (x.queue.head?).any (!·.2) && !s.bit (NAND_STATUS_HALT n) l

/-- The next program: PRIO descriptors first, then round robin over the LUN index. -/
def nextProgram (s : State) (n : Nat) : Option (Nat × Bool) :=
  let order := (List.range 16).map (fun i => ((s.chan n).last + i) % 16)
  match order.find? (fun l => prioReady (s.lun n l)) with
  | some l => some (l, true)
  | none => (order.find? (fun l => plainReady s n l (s.lun n l))).map (·, false)

/-- The descriptor at the head of a LUN's queue starts: copied from crew SRAM, checked, its row remapped. -/
def startDescriptor (n l off : Nat) (prio : Bool) (s : State) : State :=
  let x := s.lun n l
  let s := s.setLun n l { x with queue := x.queue.drop 1 }
  let (w, ue, s) := crewRecord n off 8 s
  let row := slice (w.getD 1 0).toNat 0 24
  let (row, hit) := if (w.getD 0 0).toNat.testBit 22 then remapped s n row else (row, false)
  let r : NandRun := {
    words := w, prio := prio, pc := slice (w.getD 0 0).toNat 0 12, row := row, remapped := hit
    phase := .ready, crcBusy := false, lastStatus := 0, maxCorr := 0, failMask := 0, busy := 0, diff := 0 }
  let s := setRun n l prio (some r) (s.setChan n { s.chan n with bus := some (l, prio), last := (l + 1) % 16 })
  if lunAbsent s n l then endRun n l prio r 9 s
  else if ue then endRun n l prio r 6 s
  else if badDescriptor w then endRun n l prio r 5 s
  else s

/-- The sequencer of channel `n` runs: the interface is enabled, and it is in no reset, failure, integrity halt or Moored (R233). -/
def nandRuns (s : State) (n : Nat) : Bool :=
  s.on (NAND_CTRL_EN n) && runs s (148 + n) && !partFailed s (4 + n) && !s.clocks.halted && !s.power.moored

/-- The bus goes to a program: one that starts, or one that resumes after its WAIT_RB. -/
def grantBus (n : Nat) (s : State) : State :=
  match nextProgram s n with
  | none => s
  | some (l, prio) =>
    let x := s.lun n l
    match x.slot prio with
    | some r =>
      setRun n l prio (some { r with phase := .ready, pc := if r.phase = .resumable then r.pc + 1 else r.pc })
        (s.setChan n { s.chan n with bus := some (l, prio), last := (l + 1) % 16 })
    | none => match x.queue with
      | (off, _) :: _ => startDescriptor n l off prio s
      | [] => s

/-- NAND_BUS_GRANT (R237). -/
def execNandBusGrant (n : Ch) (s : State) : Res :=
  let s := s.begin
  .next (if nandRuns s n && (s.chan n).bus.isNone then grantBus n s else s)

/-- The micro-op of the program that holds the bus, where it is at one: what its row does with it. An undefined word ends
the descriptor with status 0x5, whichever row comes. -/
def atUop (n : Nat) (f : Nat → Bool → NandRun → Uop → State → Option State) (s : State) : Res :=
  let s := s.begin
  match busHolder s n with
  | some (l, prio, r) =>
    if !nandRuns s n ∨ r.phase ≠ .ready then .next s
    else if uopAt s n r = .undefined then .next (endRun n l prio r 5 s)
    else .next ((f l prio r (uopAt s n r) s).getD s)
  | none => .next s

/-- The program goes on to its next micro-op. -/
def nextUop (n l : Nat) (prio : Bool) (r : NandRun) (s : State) : State :=
  setRun n l prio (some { r with pc := r.pc + 1, phase := .ready }) s

/-- The status of a descriptor that reaches END. -/
def endStatus (r : NandRun) : Nat := if r.failMask ≠ 0 then 2 else if r.maxCorr ≠ 0 then 1 else 0

/-- END (R238). -/
def execNandEnd (n : Ch) (s : State) : Res :=
  atUop n (fun l p r u s => if u = .endOp then some (endRun n l p r (endStatus r) s) else none) s

/-- CMD (R236). -/
def execNandCmd (n : Ch) (s : State) : Res :=
  atUop n (fun l p r u s => match u with
    | .cmd b => some (nextUop n l p r (s.emit (.nand n l 0 [BitVec.ofNat 8 b])))
    | _ => none) s

/-- The address cycles of an ADDR micro-op. -/
def addrCycles (r : NandRun) (sel imm : Nat) : List Byte :=
  let col := toBytes (slice (r.word 2) 0 16) 2
  let row := toBytes r.row 3
  match sel with
  | 0 => col ++ row
  | 1 => row
  | 2 => col
  | _ => [BitVec.ofNat 8 imm]

/-- ADDR (R236). -/
def execNandAddr (n : Ch) (s : State) : Res :=
  atUop n (fun l p r u s => match u with
    | .addr sel imm => some (nextUop n l p r (s.emit (.nand n l 1 (addrCycles r sel imm))))
    | _ => none) s

/-- A data phase begins, or ends at once: a codeword phase with NCW = 0, a raw phase with LEN = 0. -/
def beginData (n l : Nat) (prio : Bool) (r : NandRun) (coded raw crc : Bool) (s : State) : State :=
  if coded && r.ncw == 0 then endRun n l prio r 8 s
  else if raw && r.len == 0 then endRun n l prio r 5 s
  else
    let busy := crc && scanUses s n r.ctx
    setRun n l prio (some { r with
      phase := .data, crcBusy := r.crcBusy || busy, fed := crc && !busy, uop := s.get (NAND_UOP_WORD n (r.pc % 4096)) }) s

/-- DOUT (R236). -/
def execNandDout (n : Ch) (s : State) : Res :=
  atUop n (fun l p r u s => match u with
    | .dout src crc => some (beginData n l p r (src == 0) (src == 1) crc s)
    | _ => none) s

/-- DIN (R236). -/
def execNandDin (n : Ch) (s : State) : Res :=
  atUop n (fun l p r u s => match u with
    | .din dst crc _ => some (beginData n l p r (dst == 0 || dst == 2) (dst == 1 || dst == 3) crc s)
    | _ => none) s

/-- P1 to P4, and the same through NAND_ROFS (R246). -/
def params (r : NandRun) : List Byte := toBytes (r.word 3) 4
def rofsByte (s : State) (n : Nat) (p : Byte) : Byte :=
  BitVec.ofNat 8 (slice (s.get (NAND_ROFS_CODE n (p.toNat % 128 / 4))) (8 * (p.toNat % 4)) 8)

/-- The context of a fed phase takes bytes. -/
def feedPhase (n : Nat) (r : NandRun) (l : List Byte) (s : State) : State :=
  if r.fed then feedCtx n r.ctx l s else s

/-- RATE: the LDPC code rate of encode and decode phases (R235). -/
def NandRun.rate (r : NandRun) : Nat := slice (r.word 0) 20 2

/-- Codeword bytes of a code rate (R242). -/
def codewordBytes (rate : Nat) : Nat := 4352 + 96 * rate

/-- The parity bytes of a codeword (R242, assumption 94). -/
def parityOf (rate : Nat) (data : List Byte) : List Byte := (List.range (codewordBytes rate - 4096)).map (Config.ldpcParity rate data)

/-- Data as it is sent: each 4,096 bytes with their parity behind them; what is left of a block that a failing buffer cut short stands
alone (R239). -/
def encoded (rate : Nat) (data : List Byte) : Nat → List Byte
  | 0 => []
  | k + 1 =>
    if data.length < 4096 then data
    else data.take 4096 ++ parityOf rate (data.take 4096) ++ encoded rate (data.drop 4096) k

/-- The decoder's iteration limit (R243, R244): MAX_ITER of a job, or that of LDPC_CFG, where 0 acts as 16 and 24. -/
def iterLimit (s : State) (n op max : Nat) : Nat :=
  if max ≠ 0 then max
  else if op = 1 then (if s.get (LDPC_CFG_HARD_ITER n) = 0 then 16 else s.get (LDPC_CFG_HARD_ITER n))
  else (if s.get (LDPC_CFG_SOFT_ITER n) = 0 then 24 else s.get (LDPC_CFG_SOFT_ITER n))

/-- The codeword decodes: it was written with the RATE it is read with (R242), and the decoder converges within its limit (R243). -/
def decodes (x : CwFix) (rate limit : Nat) : Bool := x.written.val == rate && x.iterations ≤ limit

/-- Bits of a list of bytes inverted, by index 8 × byte + bit. -/
def flipBits (flips : List Nat) (l : List Byte) : List Byte :=
  flips.foldl (fun l i => l.modify (i / 8) (· ^^^ BitVec.ofNat 8 (2 ^ (i % 8)))) l

/-- A DOUT phase ends (R236, R239): the bytes sent, up to the one at which the buffer failed. -/
def endDout (n l : Nat) (prio : Bool) (r : NandRun) (src : Nat) (bufErr : Option Nat) (s : State) : State :=
  let len := if src = 0 then r.ncw * 4096 else r.len
  let (b, bad, s) :=
    if src < 2 then
      let (b, st, s) := rangeRead (plainAccess (moverOf n)) (bufAddress n (r.word 4)) len s
      match bufErr with
      | some k => (b.take k, st != .ok || k < len, s)
      | none => (b, st != .ok, s)
    else (if src = 2 then params r else (params r).map (rofsByte s n), false, s)
  let s := feedPhase n r b (s.emit (.nand n l 2 (if src = 0 then encoded r.rate b (r.ncw + 1) else b)))
  if bad then endRun n l prio r 6 s else nextUop n l prio r s

/-- Bits that differ between two lists of bytes. -/
def diffBits (a b : List Byte) : Nat := ((a.zip b).map (fun e => (List.range 8).countP (fun i => (e.1 ^^^ e.2).getLsbD i))).sum

/-- What a decode phase adds to the statistics and to the completion (R254; LDPC_STAT). -/
def countDecode (n cws : Nat) (corr : List Nat) (fails : Nat) (s : State) : State :=
  let add (f : Fld) (k : Nat) (s : State) : State := s.put f (min (s.get f + k) (2 ^ 32 - 1))
  add (LDPC_STAT_FAILS n) fails (add (LDPC_STAT_BITS n) corr.sum
    (s.put64 (LDPC_STAT_CW_LO n) (LDPC_STAT_CW_HI n) ((s.get64 (LDPC_STAT_CW_LO n) (LDPC_STAT_CW_HI n) + cws) % 2 ^ 64)))

/-- One received codeword decoded (R242, R243): its data bytes, the bits corrected, and whether it failed. One that fails is
delivered as received. -/
def decodeCw (rate limit : Nat) (x : CwFix) (failed : Bool) (cw : List Byte) : List Byte × Nat × Bool :=
  if decodes x rate limit && !failed then ((flipBits x.flips cw).take 4096, x.flips.length, false) else (cw.take 4096, 0, true)

/-- The codewords of a decode phase: data bytes, corrected bits and failure of each. -/
def decodePhase (r : NandRun) (limit : Nat) (rx : List Byte) (fixes : List CwFix) (failed : Nat) : List (List Byte × Nat × Bool) :=
  let k := codewordBytes r.rate
  (List.range r.ncw).map (fun i =>
    decodeCw r.rate limit (fixes.getD i ⟨[], (BitVec.ofNat 2 r.rate).toFin, 1⟩) (failed.testBit i) (padBytes (rx.drop (i * k)) k))

/-- A DIN phase ends (R236, R239, R243). -/
def endDin (n l : Nat) (prio : Bool) (r : NandRun) (dst : Nat) (cnt : Bool) (rx : List Byte) (fixes : List CwFix)
    (failed : Nat) (bufErr : Option Nat) (s : State) : State :=
  let coded := dst = 0 ∨ dst = 2
  let cws := decodePhase r (iterLimit s n 1 0) rx fixes failed
  let data := if coded then (cws.map (·.1)).flatten else padBytes rx r.len
  let corr := cws.map (·.2.1)
  let mask := bitsOf r.ncw (fun i => (cws.getD i ([], 0, false)).2.2)
  let r := if coded then { r with maxCorr := corr.foldl max r.maxCorr, failMask := r.failMask ||| mask } else r
  let s := if coded then countDecode n r.ncw corr ((List.range 8).countP mask.testBit) s else s
  let cut := (data.take (bufErr.getD data.length))
  let (k, st, s) := if dst < 2 then rangeWrite (plainAccess (moverOf n)) (bufAddress n (r.word 4)) cut s else (data.length, .ok, s)
  let (r, st, s) := if cnt && !coded then
      let (ref, st', s) := rangeRead (plainAccess (moverOf n)) (bufAddress n (r.word 5)) data.length s
      ({ r with diff := r.diff + diffBits data ref }, if st = .ok then st' else st, s)
    else (r, st, s)
  let bad := st != .ok || (dst < 2 && bufErr.any (· < data.length))
  let s := feedPhase n r (if bad then data.take k else data) s
  if bad then endRun n l prio r 6 s else nextUop n l prio r s

/-- NAND_DATA_PHASE_DONE (R236, R239). -/
def execNandDataPhaseDone (n : Ch) (rx : List Byte) (corrected : List CwFix) (failed : BitVec 8) (bufErr : Option Nat)
    (s : State) : Res :=
  let s := s.begin
  match busHolder s n with
  | some (l, prio, r) =>
    if r.phase ≠ .data ∨ !nandRuns s n then .next s
    else
      let s := s.setChan n { s.chan n with scanWaits := false }
      match decodeUop r.uop with
      | .dout src _ => .next (endDout n l prio r src bufErr s)
      | .din dst _ cnt => .next (endDin n l prio r dst cnt rx corrected failed.toNat bufErr s)
      | _ => .next (endRun n l prio r 5 s)
  | none => .next s

/-- WAIT_T (R236): 0 waits nothing. -/
def execNandWaitT (n : Ch) (s : State) : Res :=
  atUop n (fun l p r u s => match u with
    | .waitT ns => some (if ns = 0 then nextUop n l p r s else setRun n l p (some { r with phase := .waitT }) s)
    | _ => none) s

/-- WAIT_T_EXPIRY (R236). -/
def execNandWaitTExpiry (n : Ch) (s : State) : Res :=
  let s := s.begin
  match busHolder s n with
  | some (l, prio, r) => .next (if r.phase = .waitT ∧ nandRuns s n then nextUop n l prio r s else s)
  | none => .next s

/-- WAIT_RB (R236): the bus is released. -/
def execNandWaitRb (n : Ch) (s : State) : Res :=
  atUop n (fun l p r u s => match u with
    | .waitRb _ =>
      some (releaseBus n (setRun n l p (some { r with phase := .waitRb s.clocks.ts, uop := s.get (NAND_UOP_WORD n (r.pc % 4096)) }) s))
    | _ => none) s

/-- The program of a LUN that waits in WAIT_RB: its PRIO descriptor where one is started. -/
def waitingRun (s : State) (n l : Nat) : Option (Bool × NandRun × Nat) :=
  let x := s.lun n l
  let prio := x.prio.isSome
  (x.slot prio).bind (fun r => match r.phase with
    | .waitRb t => some (prio, r, t)
    | _ => none)

/-- A program's busy time when its LUN is ready or its wait ends. -/
def NandRun.waited (r : NandRun) (ts since : Nat) : NandRun := { r with busy := r.busy + (ts - since) }

/-- The cycles of READ STATUS ENHANCED (R236): the command 78h and the row. -/
def sendStatus (n l : Nat) (r : NandRun) (s : State) : State :=
  (s.emit (.nand n l 0 [0x78])).emit (.nand n l 1 (toBytes r.row 3))

/-- NAND_LUN_READY (R236, R237): seen on RB_N, or with POLL by the 78h that finds the LUN ready. -/
def execNandLunReady (n : Ch) (lun : Fin 16) (s : State) : Res :=
  let s := s.begin
  match waitingRun s n lun with
  | some (p, r, t) =>
    if !nandRuns s n then .next s
    else
      let s := if decodeUop r.uop = .waitRb true then sendStatus n lun r s else s
      .next (setRun n lun p (some { r.waited s.clocks.ts t with phase := .resumable }) s)
  | none => .next s

/-- NAND_WAIT_RB_TIMEOUT (R240). -/
def execNandWaitRbTimeout (n : Ch) (lun : Fin 16) (s : State) : Res :=
  let s := s.begin
  match waitingRun s n lun with
  | some (p, r, t) =>
    let s := raiseCh n (CH_CAUSE_NAND_TMO n) (s.putBit (NAND_STATUS_HALT n) lun true)
    .next (endRun n lun p (r.waited s.clocks.ts t) 4 s)
  | none => .next s

/-- STATUS (R236). -/
def execNandStatus (n : Ch) (byte : Byte) (s : State) : Res :=
  atUop n (fun l p r u s => match u with
    | .status mask exp =>
      let r := { r with lastStatus := byte.toNat }
      let s := sendStatus n l r s
      some (if byte.toNat &&& mask = exp then nextUop n l p r s else endRun n l p r 3 s)
    | _ => none) s

/-! Registers of the interface (R233, R240). -/

/-- A write of NAND_CTRL: clearing EN ends the program that holds the bus with status 0x7. -/
def writeNandCtrl (n : Nat) (en wp : Bool) (s : State) : State :=
  let was := s.on (NAND_CTRL_EN n)
  let s := s.puts [(NAND_CTRL_EN n, en.toNat), (NAND_CTRL_WP_REL n, wp.toNat)]
  match was && !en, busHolder s n with
  | true, some (l, p, r) => endRun n l p r 7 s
  | _, _ => s

/-- NAND_CTRL_EN (R233). -/
def execNandCtrlEn (req : Requester) (n : Ch) (en wpRel : Bool) (s : State) : Res :=
  .next (guardedWrite s.begin req (0x020000010004 + n.val * 0x10000000) 4 (writeNandCtrl n en wpRel))

/-- NAND_CTRL_WP_REL (R233). -/
def execNandCtrlWpRel (req : Requester) (n : Ch) (wpRel : Bool) (s : State) : Res :=
  .next (guardedWrite s.begin req (0x020000010004 + n.val * 0x10000000) 4
    (fun s => writeNandCtrl n (s.on (NAND_CTRL_EN n)) wpRel s))

/-- WP_N of a channel is high (R233): only with EN and WP_REL, and not in a reset, an integrity halt, Moored or a failure. -/
def nandWpHigh (s : State) (n : Nat) : Bool := nandRuns s n && s.on (NAND_CTRL_WP_REL n)

/-- CE_N of chip enable `c` is low (R233, R237): the program that holds the bus holds it. -/
def nandCeLow (s : State) (n c : Nat) : Bool := nandRuns s n && (s.chan n).bus.any (fun b => b.1 / 4 == c)

/-- NAND_CFG_WRITE (R234). -/
def execNandCfgWrite (req : Requester) (n : Ch) (data : Word) (s : State) : Res :=
  .next (guardedWrite s.begin req (0x020000010000 + n.val * 0x10000000) 4 (writeNandCfg n data.toNat))

/-- HALT cleared in the LUNs of a mask (R240). -/
def nandResume (n luns : Nat) (s : State) : State := s.put (NAND_STATUS_HALT n) (clearBits (s.get (NAND_STATUS_HALT n)) luns)

/-- NAND_RESUME (R240). -/
def execNandResume (req : Requester) (n : Ch) (luns : BitVec 16) (s : State) : Res :=
  .next (guardedWrite s.begin req (0x02000001000C + n.val * 0x10000000) 4 (nandResume n luns.toNat))

/-- Every LUN queue is empty and no program holds the bus (R241). -/
def nandQuiet (s : State) (n : Nat) : Bool :=
  (s.chan n).bus.isNone && (s.chan n).luns.all (fun e => e.2.queue.isEmpty && e.2.run.isNone && e.2.prio.isNone)

end Sys2Proof.Machine
end

