-- ==== Sys2Proof/Machine/Crew.lean ====
section
/-! DEFINITION. A channel's LDPC codec, CRC unit, crew task queue and supervisory watchdog (spec/10, R242 to R256). What the
decoder makes of its input is the operand of a command (assumption 1). -/

namespace Sys2Proof.Machine

/-! LDPC jobs (R242 to R245). -/

/-- A write of LDPC_Q_PUSH. -/
def ldpcPush (n v : Nat) (s : State) : State :=
  let c := s.chan n
  if 64 ≤ c.jobs.length then raiseCh n (CH_CAUSE_LDPC_QOVF n) s
  else s.setChan n { c with jobs := c.jobs ++ [slice v 5 19 * 32] }

/-- The oldest job starts where its record holds the operation. A record with an uncorrectable byte is run as it reads; its
source then fails. -/
def startJob (n op : Nat) (s : State) : State :=
  let c := s.chan n
  if c.job.isSome || !runs s (132 + n) then s
  else match c.jobs with
    | [] => s
    | off :: rest =>
      let (w, _, t) := crewRecord n off 8 s
      if (w.getD 0 0).toNat % 4 = op then t.setChan n { t.chan n with jobs := rest, job := some w } else s

/-- LDPC_ENCODE (R244). -/
def execLdpcEncode (n : Ch) (s : State) : Res := .next (startJob n 0 s.begin)
/-- LDPC_HARD_DECODE (R244). -/
def execLdpcHardDecode (n : Ch) (s : State) : Res := .next (startJob n 1 s.begin)
/-- LDPC_SOFT_DECODE_2BIT (R245). -/
def execLdpcSoftDecode2bit (n : Ch) (s : State) : Res := .next (startJob n 2 s.begin)
/-- LDPC_SOFT_DECODE_3BIT (R245). -/
def execLdpcSoftDecode3bit (n : Ch) (s : State) : Res := .next (startJob n 3 s.begin)

/-- The bytes that a job reads: data, a codeword, two bits or a nibble for every bit of the codeword. -/
def jobInput (op rate : Nat) : Nat :=
  match op with
  | 0 => 4096
  | 1 => codewordBytes rate
  | 2 => 2 * codewordBytes rate
  | _ => 4 * codewordBytes rate

/-- The LDPC completion ring is full. -/
def ldpcRingFull (s : State) (n : Nat) : Bool :=
  let k := ringSize (s.get (LDPC_CQ_SIZE_LOG2 n))
  (s.get (LDPC_CQ_WPTR_INDEX n) + 1) % k == s.get (LDPC_CQ_RPTR_INDEX n) % k

/-- A job's completion entry is written, and line 20 set. -/
def postLdpc (n tag status corr iter : Nat) (s : State) : State :=
  let k := ringSize (s.get (LDPC_CQ_SIZE_LOG2 n))
  let w := s.get (LDPC_CQ_WPTR_INDEX n)
  let a := bufAddress n (s.get (LDPC_CQ_BASE_BUF n)) / 16 * 16 + w % k * 16
  let entry := tag * 256 + status + 2 ^ 32 * (iter % 256 * 2 ^ 16 + corr % 4096)
  let (_, _, s) := rangeWrite (plainAccess (moverOf n)) a (toBytes entry 16) s
  setLines 20 (crewOf n) (s.put (LDPC_CQ_WPTR_INDEX n) ((w + 1) % k))

/-- The hard decisions of a job's input (R245): entry 8j + i of the input is bit i of codeword byte j, its hard value the top bit of the
entry, of the three low bits where an entry is a nibble. -/
def hardWord (op : Nat) (rate : Nat) (input : List Byte) : List Byte :=
  let x := fromBytes input
  let w := if op = 1 then 1 else if op = 2 then 2 else 4
  let h := if op = 1 then 0 else if op = 2 then 1 else 2
  if op = 1 then input
  else (List.range (codewordBytes rate)).map (fun j => BitVec.ofNat 8 (bitsOf 8 (fun i => x.testBit (w * (8 * j + i) + h))))

/-- The result of a job on its input (R242 to R245): the bytes written, the bits corrected, the iterations, and whether it failed. -/
def jobResult (s : State) (n w0 : Nat) (x : CwFix) (failed : Bool) (input : List Byte) : List Byte × Nat × Nat × Bool :=
  let op := w0 % 4
  let rate := slice w0 4 2
  if op = 0 then (input ++ parityOf rate input, 0, 0, false)
  else
    let limit := iterLimit s n op (slice w0 16 8)
    let (data, corr, bad) := decodeCw rate limit x failed (hardWord op rate input)
    (data, corr, min x.iterations limit, bad)

/-- The job that runs ends: it reads its source, writes its result, and completes. -/
def endJob (n : Nat) (w : List Word) (x : CwFix) (failed bufErr : Bool) (s : State) : State :=
  let w0 := (w.getD 0 0).toNat
  let op := w0 % 4
  let rate := slice w0 4 2
  let (input, st, s) := rangeRead (plainAccess (moverOf n)) (bufAddress n (w.getD 1 0).toNat) (jobInput op rate) s
  let (out, corr, iter, bad) := jobResult s n w0 x failed input
  let (st, s) := if st ≠ .ok ∨ bufErr then (PortStatus.busError, s)
    else
      let (_, st, s) := rangeWrite (plainAccess (moverOf n)) (bufAddress n (w.getD 2 0).toNat) out s
      (st, s)
  let s := s.setChan n { s.chan n with job := none }
  let tag := slice w0 8 8
  if st ≠ .ok then postLdpc n tag 3 0 0 s
  else if op = 0 then postLdpc n tag 0 0 0 s
  else postLdpc n tag (if bad then 2 else if corr ≠ 0 then 1 else 0) corr iter (countDecode n 1 [corr] bad.toNat s)

/-- LDPC_JOB_COMPLETE (R243, R244): while the ring is full the queue waits. -/
def execLdpcJobComplete (n : Ch) (flips : List Nat) (written : Fin 4) (iterations : Nat) (failed bufErr : Bool) (s : State) : Res :=
  let s := s.begin
  match (s.chan n).job with
  | some w => .next (if ldpcRingFull s n then s else endJob n w ⟨flips, written, iterations⟩ failed bufErr s)
  | none => .next s

/-! The CRC unit (R248 to R250). -/

/-- A context is being fed. -/
def ctxFed (s : State) (n c : Nat) : Bool := inlineFeeds s n c || scanUses s n c

/-- A write of a CRC_CTX register: ignored, with WR_BUSY, while the context is fed. -/
def writeCrcCtx (n c : Nat) (f : State → State) (s : State) : State :=
  if ctxFed s n c then s.flag (CRC_SCAN_WR_BUSY n) true
  else
    let s := f s
    s.put64 (CRC_CTX_VAL_LO n c) (CRC_CTX_VAL_HI n c) (ctxVal s n c % 2 ^ crcWidth (s.get (CRC_CTX_POLY n c)))

/-- POLY written, and with INIT the running value loaded. -/
def writeCrcPoly (n c poly : Nat) (init : Bool) (s : State) : State :=
  let s := s.put (CRC_CTX_POLY n c) poly
  if init then s.put64 (CRC_CTX_VAL_LO n c) (CRC_CTX_VAL_HI n c) (crcInit poly) else s

/-- CRC_CTX_INIT (R248, R249). -/
def execCrcCtxInit (req : Requester) (n : Ch) (c poly : Fin 4) (s : State) : Res :=
  .next (guardedWrite s.begin req (0x020000030000 + n.val * 0x10000000 + c.val * 0x10) 4
    (writeCrcCtx n c (writeCrcPoly n c poly true)))

/-- A write of CRC_SCAN + 0x00: GO is ignored while BUSY = 1. -/
def writeCrcScan (n : Nat) (bsize blk go : Bool) (ctx : Nat) (s : State) : State :=
  let s := s.puts [(CRC_SCAN_BSIZE n, bsize.toNat), (CRC_SCAN_BLK n, blk.toNat), (CRC_SCAN_CTX n, ctx)]
  if !go || s.on (CRC_SCAN_BUSY n) then s
  else (s.flag (CRC_SCAN_BUSY n) true).setChan n { s.chan n with scanWaits := inlineFeeds s n ctx }

/-- CRC_SCAN_GO (R249, R250). -/
def execCrcScanGo (req : Requester) (n : Ch) (bsize blk : Bool) (ctx : Fin 4) (s : State) : Res :=
  .next (guardedWrite s.begin req (0x020000030100 + n.val * 0x10000000) 4 (writeCrcScan n bsize blk true ctx))

/-- The result of a running value: width bits after the final XOR, big-endian (R250). -/
def crcResult (poly v : Nat) : List Byte := (toBytes (v ^^^ crcXorOut poly) (crcWidth poly / 8)).reverse

/-- Per-block results: a block at a time, `k` bytes each; the results so far and the running value of the last block. A block
that a failing read interrupts gives none. -/
def crcBlocks (poly k : Nat) (whole : Bool) : Nat → List Byte → List Byte → Nat → List Byte × Nat
  | 0, _, res, v => (res, v)
  | fuel + 1, data, res, v =>
    if data = [] then (res, v)
    else
      let v := crcFeed poly (crcInit poly) (data.take k)
      if k ≤ data.length || whole then crcBlocks poly k whole fuel (data.drop k) (res ++ crcResult poly v) v
      else (res, v)

/-- The bytes before the failing 64-byte line of a range. -/
def beforeLine (addr k : Nat) : Nat := (addr + k) / 64 * 64 - addr

/-- The bytes of a scan: its source, and how many they are. -/
def scanSource (n : Nat) (s : State) : Nat × Nat :=
  (s.get64 (CRC_SCAN_SRC_LO n) (CRC_SCAN_SRC_HI n), if s.get (CRC_SCAN_LEN n) = 0 then 2 ^ 32 else s.get (CRC_SCAN_LEN n))

/-- What a scan reads before it ends, and how the read ended: `failed` where it could not be made. -/
def scanBytes (n : Nat) (bytes : List Byte) (fail : Option Nat) (failed : Bool) (s : State) : List Byte × Bool × State :=
  let (src, len) := scanSource n s
  let (data, st, s) := if failed then ([], .busError, s)
    else if (plainOf src).isSome then rangeRead (plainAccess (moverOf n)) src len s
    else (padBytes bytes len, .ok, s)
  let data := match fail with
    | some k => data.take (beforeLine src (min k len))
    | none => if st = .ok then data else data.take (beforeLine src data.length)
  (data, decide (st ≠ PortStatus.ok ∨ data.length < len), s)

/-- The transfer of the results of a scan. -/
def scanAsk (n : Nat) (res : List Byte) (s : State) : Ask :=
  transferAsk (moverOf n) 1 (s.get64 (CRC_SCAN_DST_LO n) (CRC_SCAN_DST_HI n)) res.length 1

/-- The results and the running value of a scan per block; no results where its context is fed. -/
def scanValues (n : Nat) (data : List Byte) (bad : Bool) (s : State) : List Byte × Nat :=
  let c := s.get (CRC_SCAN_CTX n)
  let poly := s.get (CRC_CTX_POLY n c)
  if s.on (CRC_SCAN_BLK n) then
    let k := if s.on (CRC_SCAN_BSIZE n) then 4096 else 512
    let (res, v) := crcBlocks poly k (!bad) (data.length / k + 1) data [] (ctxVal s n c)
    (res, if bad ∧ data.length % k = 0 then crcInit poly else v)
  else ([], 0)

/-- A scan over `data` ends: its results written unless they `failed`, its context with the running value, line 21. -/
def endScan (n : Nat) (data res : List Byte) (v : Nat) (bad failed : Bool) (s : State) : State :=
  let c := s.get (CRC_SCAN_CTX n)
  let s := if s.on (CRC_SCAN_BLK n) then
      let s := if failed then s else (rangeWrite (plainAccess (moverOf n)) (scanAsk n res s).addr res s).2.2
      s.put64 (CRC_CTX_VAL_LO n c) (CRC_CTX_VAL_HI n c) v
    else feedCtx n c data s
  let s := s.puts [(CRC_SCAN_BUSY n, 0), (CRC_SCAN_DONE n, 1), (CRC_SCAN_COUNT n, data.length)]
  setLines 21 (crewOf n) (if bad then s.flag (CRC_SCAN_ERR n) true else s)

/-- CRC_SCAN_DONE (R250): nothing where no scan runs or the scan waits. Where its source or the place of its results makes it wait
(R310, R354), all of it is done when the command comes again. -/
def execCrcScanDone (n : Ch) (bytes : List Byte) (fail : Option Nat) (s : State) : Res :=
  let s := s.begin
  if !s.on (CRC_SCAN_BUSY n) || (s.chan n).scanWaits then .next s
  else
    let (src, len) := scanSource n s
    match plainTurn (transferAsk (moverOf n) 0 src len 0) s with
    | (.wait, s) => .next (s.emit .held)
    | (t, u) =>
      let (data, bad, u) := scanBytes n bytes fail (t == .fail) u
      let (res, v) := scanValues n data bad u
      if s.on (CRC_SCAN_BLK n) then
        match plainTurn (scanAsk n res u) u with
        | (.wait, _) => .next ((plainTurn (scanAsk n res s) s).2.emit .held)
        | (t, u) => .next (endScan n data res v bad (t == .fail) u)
      else .next (endScan n data res v bad false u)

/-! The crew task queue (R252, R253). -/

/-- The queue is judged: line 18 is set when it comes to hold an eligible task. -/
def judgeTasks (n : Nat) (s : State) : State :=
  let now := (nextTask s n).isSome
  let was := (s.chan n).elig
  let s := s.setChan n { s.chan n with elig := now }
  if now && !was then setLines 18 (crewOf n) s else s

/-- A push of a task record. -/
def taskPush (n v : Nat) (s : State) : State :=
  let off := v % 2 ^ 24
  if v % 16 ≠ 0 ∨ 1024 ≤ (s.chan n).tasks.length then raiseCh n (CH_CAUSE_TQ_OVF n) s
  else
    let (w, ue, s) := crewRecord n (off + 8) 2 s
    if ue then raiseCh n (CH_CAUSE_TQ_OVF n) s
    else
      let w2 := (w.getD 0 0).toNat
      let t : Task := ⟨off, w2 % 4, slice w2 4 4, if w2.testBit 8 then some (w.getD 1 0).toNat else none, 0⟩
      judgeTasks n (s.setChan n { s.chan n with tasks := (s.chan n).tasks ++ [t] })

/-- CREW_TQ_PUSH (R252). -/
def execCrewTqPush (req : Requester) (n : Ch) (data : Word) (s : State) : Res :=
  .next (guardedWrite s.begin req (0x020000060000 + n.val * 0x10000000) 4 (taskPush n data.toNat))

/-- The queue after the task at offset `off` of effective class `k` is popped: every older task of its class that does not
fit is passed over once more. -/
def passOver (s : State) (n k off : Nat) : List Task → List Task
  | [] => []
  | t :: l =>
    if t.off = off ∧ taskClass s n t = k ∧ (k = 0 ∨ taskFits s n t) then l
    else (if taskClass s n t = k ∧ k ≠ 0 ∧ !taskFits s n t then { t with passed := t.passed + 1 } else t) :: passOver s n k off l

/-- A pop: the offset of the selected task, or all ones; its cost leaves the credit for classes 1 to 3. -/
def taskPop (n : Nat) (s : State) : Nat × State :=
  match nextTask s n with
  | none => (0xFFFFFFFF, s)
  | some (k, t) =>
    let tasks := passOver s n k t.off (s.chan n).tasks
    let s := if k = 0 then s else s.put (CREW_TQ_CREDIT_CREDIT n) (s.get (CREW_TQ_CREDIT_CREDIT n) - t.cost)
    (t.off, judgeTasks n (s.setChan n { s.chan n with tasks := tasks }))

/-- The bytes of an inbound entry of the NVMe queue engine, and the offset of entry `i` of channel `n`'s inbound ring (R319). -/
def inboundOffset (s : State) (n i : Nat) : Nat := s.get (HP_NVCH_IN_BASE n) * 32 + i * 96

/-- The dispatch tables note the engine that popped a command's task (R340). -/
def notePopped (req : Requester) (n off : Nat) (s : State) : State :=
  match req with
  | .engine g =>
    { s with host := { s.host with cmds := s.host.cmds.map (fun c =>
      if c.chan == some n && inboundOffset s n c.slot == off && c.engine.isNone then { c with engine := some g.val } else c) } }
  | _ => s

/-- A read of CREW_TQ_POP: a debug read returns what a pop would select, and changes nothing. -/
def readTaskPop (req : Requester) (n : Nat) (debug : Bool) (s : State) : Nat × State :=
  if debug then (((nextTask s n).map (·.2.off)).getD 0xFFFFFFFF, s)
  else
    let (v, s) := taskPop n s
    (v, notePopped req n v s)

/-- CREW_TQ_POP (R253). -/
def execCrewTqPop (req : Requester) (n : Ch) (s : State) : Res :=
  let s := s.begin
  match regGate s req (0x020000060004 + n.val * 0x10000000) 4 false with
  | .stop o => .next (s.emit o)
  | .wait p => .next ((wakePart p s).emit .held)
  | .silent => .next (s.emit (.value 0))
  | .reach => let (v, s) := readTaskPop req n (req == .debug) s; .next (s.emit (.value v))

/-- TASK_PROMOTED (R253): the queue judged at the present time. -/
def execTaskPromoted (n : Ch) (s : State) : Res := .next (judgeTasks n s.begin)

/-! The supervisory watchdog (R256). -/

/-- A write of CH_SWDT_LOAD. -/
def writeSwdtLoad (n v : Nat) (s : State) : State := s.puts [(CH_SWDT_LOAD_LOAD n, v), (CH_SWDT_COUNT_COUNT n, v)]

/-- CH_SWDT_LOAD (R256). -/
def execChSwdtLoad (req : Requester) (n : Ch) (data : Word) (s : State) : Res :=
  .next (guardedWrite s.begin req (0x020000000020 + n.val * 0x10000000) 4 (writeSwdtLoad n data.toNat))

/-- A write of CH_SWDT_KICK. -/
def writeSwdtKick (n key : Nat) (s : State) : State :=
  if key = 0x5A then s.put (CH_SWDT_COUNT_COUNT n) (s.get (CH_SWDT_LOAD_LOAD n)) else s

/-- CH_SWDT_KICK (R256). -/
def execChSwdtKick (req : Requester) (n : Ch) (key : BitVec 8) (s : State) : Res :=
  .next (guardedWrite s.begin req (0x020000000028 + n.val * 0x10000000) 4 (writeSwdtKick n key.toNat))

/-- The watchdog of channel `n` counts: it is on, the channel is out of reset, in neither Easy nor Moored, and none of its
engines is halted, unless DBG_WDT_POLICY leaves watchdogs running; an integrity halt stops every clock. -/
def swdtRuns (s : State) (n : Nat) : Bool :=
  s.get (CH_SWDT_LOAD_LOAD n) != 0 && runs s (132 + n) && !inEasy s (4 + n) && !s.power.moored && !s.clocks.halted
    && (s.on DBG_WDT_POLICY_CH_RUN || !(crewOf n).any (fun g => s.on (ENG_DBG_HALTED g)))

/-- CH_WDT (R256): the count reaches 0. -/
def execChWdt (n : Ch) (s : State) : Res :=
  let s := s.begin
  if swdtRuns s n then
    .next (startReset RST_CAUSE_CH_WDT (.part (4 + n)) false ((s.put (CH_SWDT_COUNT_COUNT n) 0).putBit RST_CH_WDT_CH n true))
  else .next s

end Sys2Proof.Machine
end

