-- ==== Sys2Proof/Machine/Memories.lean ====
section
/-! DEFINITION. The commands of the on-chip memories (spec/04): reads, write-backs, slag entries, Flux, the configuration
scrubber, on-demand checker tests. -/

namespace Sys2Proof.Machine

/-- Bits upset in a stored word since it was stored. -/
def upsetWord (s : State) (p unit inst addr : Nat) (upset : Coded) : State :=
  if addr < memSize p unit inst then storeWord s p unit inst addr (storedWord s p unit inst addr ^^^ upset) else s

/-- The Wake's range of hub SRAM, which belongs to it alone (R335). -/
def wakeByte (p unit inst addr : Nat) : Bool :=
  p == 20 && unit == 24 && 0x200000 ≤ inst * 0x80000 + addr && inst * 0x80000 + addr < 0x780000

/-- ONCHIP_MEMORY_READ (R95 to R99). An address outside the instance reaches no byte. The data of Patina's tree memory are a
free value (assumption 11). An uncorrectable byte in the Wake's range, which the Wake alone reads, is a hub failure (R335). -/
def execOnchipMemoryRead (p : Part) (unit : Fin 2048) (inst : Fin 128) (addr : Fin 1048576) (upset : BitVec 13)
    (rom cfgWrite : Bool) (userWrite : Option Byte) (s : State) : Res :=
  let s := s.begin
  if memSize p unit inst ≤ addr.val then .next s
  else
    let s := upsetWord s p unit inst addr upset
    let (b, s) := checkedRead s p unit inst addr rom cfgWrite userWrite.isSome
    let s := match userWrite with
      | some d => if rom then s else userStore s p unit inst addr d
      | none => s
    let s := if b.poison && wakeByte p unit inst addr then hubFails s else s
    if unit == treeUnit then .next (s.free.2.emit (.memByte (s.free.1.toNat % 256) b.poison))
    else .next (s.emit (.memByte b.data.toNat b.poison))

/-- The clock of a unit's memories delivers edges (R91, R96): a sector's island runs, is not gated and not halted by the debugger. -/
def memoryEdge (s : State) (p unit : Nat) : Bool :=
  if p < 4 then
    let x := 32 * p + unit % 32
    s.clocks.released.contains (leaderOf s x) && !islandFrozen s x && !gated s x && !inEasy s p && !islHalted s x && !s.clocks.halted
  else if unit == aonUnit then true
  else if p < 20 then runs s ((if unit == treeUnit then 164 else 132) + (p - 4)) && !inEasy s p
  else runs s (if unit < 4 then 183 else 180)

/-- MEMORY_WRITE_BACK (R96, R97). -/
def execMemoryWriteBack (p : Part) (unit : Fin 2048) (inst : Fin 128) (addr : Fin 1048576) (userWrite : Option Byte)
    (s : State) : Res :=
  let s := s.begin
  if !memoryEdge s p unit || memSize p unit inst ≤ addr.val then .next s
  else
    let t := match userWrite with
      | some d => storeWord s p unit inst addr (encodeByte d)
      | none => s
    match s.onchip.due.find? (·.isAt p unit inst addr) with
    | none => .next t
    | some b =>
      .next (finishWriteBack b userWrite.isSome { t with onchip := { t.onchip with due := t.onchip.due.filter (fun c => !c.isAt p unit inst addr) } })

/-- A slag entry freed: every field of it cleared (R98). -/
def freeSlag (p e : Nat) (s : State) : State :=
  (s.puts [(RAS_SLAG_UNIT p e, 0), (RAS_SLAG_INSTANCE p e, 0), (RAS_SLAG_AON p e, 0), (RAS_SLAG_CASE p e, 0),
    (RAS_SLAG_ADDR p e, 0), (RAS_SLAG_COUNT p e, 0), (RAS_SLAG_SYN p e, 0), (RAS_SLAG_TS_LO p e, 0),
    (RAS_SLAG_TS_HI p e, 0)]).putBit (RAS_SLAG_VALID_VALID p) e false

/-- The entries that a mask names, freed. -/
def freeSlags (p mask : Nat) (s : State) : State :=
  (List.range 32).foldl (fun s e => if mask.testBit e then freeSlag p e s else s) s

/-- SLAG_ENTRY_FREE (R98): a write to RAS_SLAG_VALID. -/
def execSlagEntryFree (req : Requester) (p : Part) (mask : Word) (s : State) : Res :=
  .next (guardedWrite s.begin req (0x0300000D0400 + p.val * 4) 4 (freeSlags p.val mask.toNat))

/-- The words of a partition's largest instance: one pass of Flux (R100). -/
def passSteps (p : Nat) : Nat := if p < 4 then 8192 else 131072

/-- Flux may read the memories of a unit (R101): its island runs and is not gated, held or being reconfigured. -/
def fluxReads (s : State) (p unit : Nat) : Bool :=
  if p < 4 then
    let x := 32 * p + unit
    memoryEdge s p unit && !sectorHeld s x && !regionBusy s x
  else memoryEdge s p unit

/-- The units of a partition whose memories Flux reads. -/
def fluxUnits (p : Nat) : List Nat :=
  if p < 4 then List.range 32 else if p < 20 then List.range 64 ++ [treeUnit, 69] else [0, 1, 2, 3, 21, 24, aonUnit]

/-- Flux's word position in an instance (R100). -/
def fluxPosition (s : State) (p unit inst : Nat) : Nat :=
  (smGet 0 s.onchip.fluxTotal p - smGet 0 s.onchip.fluxLag (p * 2048 + unit)) % (memSize p unit inst / 8)

/-- The bytes whose stored word may not be zero: those listed, and those at Flux's positions in memories that a forced release left
without a fill (R49). -/
def fluxKeys (s : State) (p : Nat) : List Nat :=
  let wild := (s.onchip.wild.map (·.1)).filter (· / 2048 == p)
  (s.onchip.bytes.map (·.1)).filter (fun k => !wild.contains (k / 2 ^ 27)) ++
    wild.flatMap (fun u => ((List.range 128).filter (fun i => memSize p (u % 2048) i != 0)).flatMap (fun i =>
      (List.range 8).map (fun b => byteKey p (u % 2048) i (fluxPosition s p (u % 2048) i * 8 + b))))

/-- The stored bytes, not zero, that Flux meets at the present positions; a zero byte is validly coded (R94). -/
def fluxMeets (s : State) (p : Nat) : List (Nat × Nat × Nat) :=
  (fluxKeys s p).filterMap (fun k =>
    let i := k / 2 ^ 20
    let unit := i / 128 % 2048
    if i / 128 / 2048 == p && fluxReads s p unit && k % 2 ^ 20 / 8 == fluxPosition s p unit (i % 128)
    then some (unit, i % 128, k % 2 ^ 20) else none)

/-- One step of Flux in a partition: reads, then positions and pass count. -/
def fluxAdvance (s : State) (p : Nat) (roms : List (Fin 2048 × Fin 128)) : State :=
  let lagging := (fluxUnits p).filter (fun u => !fluxReads s p u)
  let s := (fluxMeets s p).foldl (fun s e =>
    (checkedRead s p e.1 e.2.1 e.2.2 (roms.any (fun r => r.1.val == e.1 && r.2.val == e.2.1)) false false).2) s
  let lag := lagging.foldl (fun l u => smSet 0 l (p * 2048 + u) (smGet 0 l (p * 2048 + u) + 1)) s.onchip.fluxLag
  let total := smGet 0 s.onchip.fluxTotal p + 1
  let steps := smGet 0 s.onchip.fluxSteps p + 1
  let s := { s with onchip := { s.onchip with
    fluxLag := lag, fluxTotal := smSet 0 s.onchip.fluxTotal p total,
    fluxSteps := smSet 0 s.onchip.fluxSteps p (steps % passSteps p) } }
  if steps == passSteps p then s.count (RAS_FLUX_STATUS_PASSES p) false else s

/-- FLUX_STEP (R100, R101). -/
def execFluxStep (p : Part) (upsets : List (Fin 2048 × Fin 128 × Fin 1048576 × BitVec 13))
    (roms : List (Fin 2048 × Fin 128)) (s : State) : Res :=
  let s := upsets.foldl (fun s u => upsetWord s p u.1 u.2.1 u.2.2.1 u.2.2.2) s.begin
  if fluxActive s p then .next (fluxAdvance s p roms) else .next s

/-- FLUX_LATE (R101). -/
def execFluxLate (p : Part) (s : State) : Res :=
  .next (raiseRas RAS_CAUSE_FLUX_LATE (s.begin.flag (RAS_FLUX_STATUS_LATE p) true))

/-- A configuration frame byte. -/
def frameKey (x frame byte : Nat) : Nat := (x * 12288 + frame) * 512 + byte

/-- The scrubber's reading of one byte of a frame (R102, R103). -/
def scrubByte (s : State) (x frame byte : Nat) : State :=
  let k := frameKey x frame byte
  let w := smGet 0 s.onchip.frames k
  let syn := syndrome w
  match verdict syn with
  | .clean => s
  | .correctable i =>
    { s.count RAS_CFG_CE_COUNT with onchip := { s.onchip with frames := smSet 0 s.onchip.frames k (flipBit w i) } }
  | .uncorrectable =>
    raiseRas RAS_CAUSE_CFG_UE ((s.puts [(RAS_CFG_UE_DIE, x / 32), (RAS_CFG_UE_SECTOR, x % 32), (RAS_CFG_UE_FRAME, frame),
      (RAS_CFG_UE_BYTE, byte), (RAS_CFG_UE_SYN, syn), (RAS_CFG_UE_TS_LO, s.clocks.ts % 2 ^ 32),
      (RAS_CFG_UE_TS_HI, s.clocks.ts / 2 ^ 32)]).count RAS_CFG_UE_COUNT)

/-- The scrubber runs on a sector: on the configuration clock, with verified frames, no region being reconfigured, no full load
(R47, R102). -/
def scrubs (s : State) (x : Nat) : Bool :=
  s.on (FAB_SEC_STATUS_CONFIGURED (x / 32) (x % 32)) && !regionBusy s x && !s.config.loading && !inEasy s (x / 32) && runs s 186

/-- CFG_SCRUB_FRAME (R102, R103). -/
def execCfgScrubFrame (sec : Sec) (upsets : List (Fin 512 × BitVec 13)) (s : State) : Res :=
  let s := s.begin
  let x := sec.val
  let frame := smGet 0 s.onchip.scrubPos x
  let s := upsets.foldl (fun s u =>
    let k := frameKey x frame u.1
    { s with onchip := { s.onchip with frames := smSet 0 s.onchip.frames k (smGet 0 s.onchip.frames k ^^^ u.2) } }) s
  if !scrubs s x then .next s
  else
    let met := (s.onchip.frames.map (·.1)).filter (fun k => k / 512 == x * 12288 + frame)
    let s := met.foldl (fun s k => scrubByte s x frame (k % 512)) s
    .next { s with onchip := { s.onchip with scrubPos := smSet 0 s.onchip.scrubPos x ((frame + 1) % 10496) } }

/-- The reference bytes of the checkers' self-test (R104). -/
def referenceBytes : List Byte := [0x00, 0xFF, 0xA5, 0x5A]

/-- Their stored words (R104). -/
def referenceWords : List Coded := [0x0000, 0x03FF, 0x03A5, 0x005A]

/-- The 26 checker vectors of a reference byte (R104): the stored word; its 13 single inversions; the 12 inversions of two
neighbouring bits. -/
def checkerVectors (w : Coded) : List Coded :=
  w :: (List.range 13).map (flipBit w) ++ (List.range 12).map (fun i => flipBit (flipBit w i) (i + 1))

/-- What the self-test demands of a checker that answers a word with a syndrome, and of its encoder, for one reference byte
(R104). -/
def referencePasses (encode : Byte → Coded) (syn : Coded → Nat) (d : Byte) (w : Coded) : Bool :=
  encode d == w && syn w == 0
    && (List.range 13).all (fun i => match verdict (syn (flipBit w i)) with
      | .correctable k => k == i && dataOf (flipBit (flipBit w i) k) == d
      | _ => false)
    && (List.range 12).all (fun i => let n := syn (flipBit (flipBit w i) (i + 1)); n < 16 && n != 0)

/-- The self-test of an encoder and a checker over the four reference bytes (R104). -/
def checkerSelfTest (encode : Byte → Coded) (syn : Coded → Nat) : Bool :=
  (referenceBytes.zip referenceWords).all (fun e => referencePasses encode syn e.1 e.2)

/-- The memories of a unit can be tested on demand: its island is not gated, frozen or held (R106); its clock runs (assumption 81). -/
def isTestable (s : State) (p unit : Nat) : Bool := fluxReads s p unit || (p < 4 && regionBusy s (32 * p + unit) && !sectorHeld s (32 * p + unit) && memoryEdge s p unit)

/-- A write of RAS_CHK_TEST with GO (R106, R107): ignored while a test runs; else the bits that ones clear are cleared, and every
memory that is tested is in the shadow for 104 cycles of its clock. -/
def checkerGo (v : Nat) (s : State) : State :=
  if s.on RAS_CHK_TEST_BUSY then s
  else
    let part := slice v 8 5
    let s := s.put RAS_CHK_TEST_PART part
    let s := if v.testBit 13 then s.flag RAS_CHK_TEST_FAIL false else s
    let s := if v.testBit 14 then s.flag RAS_CHK_TEST_SKIPPED false else s
    if part ≤ 20 then
      let units := (fluxUnits part).filter (· != aonUnit)
      { s.flag RAS_CHK_TEST_BUSY true with onchip := { s.onchip with
          chkSkipped := units.any (fun u => !isTestable s part u), chkPart := part
          chkLeft := (units.filter (isTestable s part)).map (fun u => (u, 104)) } }
    else s

/-- CHECKER_TEST_GO (R106). -/
def execCheckerTestGo (req : Requester) (part : BitVec 5) (s : State) : Res :=
  .next (guardedWrite s.begin req 0x0300000D0010 4 (checkerGo (part.toNat * 256 + 1)))

/-- CHECKER_TEST_DONE (R106): nothing where no test runs. -/
def execCheckerTestDone (fail : Bool) (s : State) : Res :=
  let s := s.begin
  if !s.on RAS_CHK_TEST_BUSY then .next s
  else
    let s := if s.onchip.chkSkipped then s.flag RAS_CHK_TEST_SKIPPED true else s
    let s := { s.flag RAS_CHK_TEST_BUSY false with onchip := { s.onchip with chkLeft := [] } }
    if fail then .next (raiseRas RAS_CAUSE_CHK_FAIL (s.flag RAS_CHK_TEST_FAIL true)) else .next s

end Sys2Proof.Machine
end

