-- ==== Sys2Proof/Machine/Security.lean ====
section
/-! DEFINITION. The security block (spec/12, R291, R292, R296 to R301): key slots, lock bits, owner requests, glitches, and
what Bamid answers over SPDM. -/

namespace Sys2Proof.Machine

/-- The security block changed. -/
def State.onSec (s : State) (f : Security → Security) : State := { s with security := f s.security }

/-- TRNG_HEALTH_FAIL (R291): at the draw of the normal key KS0 stays empty and Patina has no key. -/
def execTrngHealthFail (s : State) : Res :=
  let s := s.begin.flag SEC_STATUS_TRNG_OK false
  let s := if s.security.keyDue then
      (List.range 16).foldl (fun s n => s.put (PAT_STATUS_STATE n) 0)
        ((s.onSec (fun x => { x with keyDue := false, keys := smErase x.keys 0 })).put (SEC_KS_CTRL_STATE 0) 0)
    else s
  .next (raiseSec 4 SEC_CAUSE_TRNG s)

/-- SEC_KS_CTRL.LOAD_TRNG (R291, R292). -/
def ksLoadTrng (k : Nat) (s : State) : State :=
  if k = 0 then
    if s.get (SEC_KS_CTRL_STATE 0) ≠ 0 then s
    else
      let s := (drawKey 0 s).puts [(SEC_KS_CTRL_STATE 0, 3), (SEC_STATUS_TRNG_OK, 1)]
      (List.range 16).foldl (fun s n => if s.get (PAT_STATUS_STATE n) = 0 then s.put (PAT_STATUS_STATE n) 1 else s) s
  else if k = 1 ∨ 15 < k ∨ s.on SEC_LOCK_KEYS then s
  else (drawKey k s).put (SEC_KS_CTRL_STATE k) 1

/-- SEC_KS_DATA as one number, and the key that it makes: written keys stand above the drawn ones. -/
def ksDataValue (s : State) : Nat := (List.range 16).foldl (fun v w => v + smGet 0 s.security.ksData w * 2 ^ (32 * w)) 0

/-- SEC_KS_CTRL.LOAD_DATA (R292). -/
def ksLoadData (k : Nat) (s : State) : State :=
  if k < 2 ∨ 15 < k ∨ s.on SEC_LOCK_KEYS then s
  else (s.onSec (fun x => { x with keys := smSet 0 x.keys k (2 ^ 512 + ksDataValue s), ksData := [] })).put (SEC_KS_CTRL_STATE k) 2

/-- SEC_KS_CTRL.CLOSE (R301). -/
def ksClose (k : Nat) (s : State) : State :=
  if k < 2 ∨ 15 < k then s
  else (s.onSec (fun x => { x with keys := smErase x.keys k })).put (SEC_KS_CTRL_STATE k) 0

/-- A write of SEC_KS_CTRL: one of LOAD_DATA, CLOSE and LOAD_TRNG, else ignored. -/
def writeKsCtrl (k v : Nat) (s : State) : State :=
  match slice v 8 3 with
  | 1 => ksLoadTrng k s
  | 2 => ksClose k s
  | 4 => ksLoadData k s
  | _ => s

/-- The location of SEC_KS_CTRL of a slot. -/
def ksCtrlAt (k : Nat) : Nat := 0x030000050200 + k * 4

/-- KS_LOAD_TRNG (R291, R292). -/
def execKsLoadTrng (req : Requester) (k : Fin 16) (s : State) : Res :=
  .next (guardedWrite s.begin req (ksCtrlAt k) 4 (ksLoadTrng k))

/-- KS_LOAD_DATA (R292). -/
def execKsLoadData (req : Requester) (k : Fin 16) (s : State) : Res :=
  .next (guardedWrite s.begin req (ksCtrlAt k) 4 (ksLoadData k))

/-- KS_CLOSE (R301). -/
def execKsClose (req : Requester) (k : Fin 16) (s : State) : Res :=
  .next (guardedWrite s.begin req (ksCtrlAt k) 4 (ksClose k))

/-! Lock bits (R292, R300). -/

/-- SEC_LOCK.KEYS set: start-up ends, KS2 to KS15 are zeroised and closed. -/
def lockKeys (s : State) : State :=
  if s.on SEC_LOCK_KEYS then s
  else (List.range 14).foldl (fun s i => ksClose (i + 2) s) (s.puts [(SEC_LOCK_KEYS, 1), (SEC_STATUS_SERVICE, 1)])

/-- A write of SEC_LOCK. -/
def writeSecLock (v : Nat) (s : State) : State :=
  let s := if v.testBit 0 then s.flag SEC_LOCK_RIGHTS true else s
  let s := if v.testBit 1 then s.flag SEC_LOCK_DBG true else s
  let s := if v.testBit 3 then s.flag SEC_LOCK_DUMP true else s
  if v.testBit 2 then lockKeys s else s

/-- SEC_LOCK_KEYS (R292). -/
def execSecLockKeys (req : Requester) (s : State) : Res :=
  .next (guardedWrite s.begin req 0x030000050010 4 (writeSecLock 4))

/-- SEC_LOCK_RIGHTS (R300). -/
def execSecLockRights (req : Requester) (s : State) : Res :=
  .next (guardedWrite s.begin req 0x030000050010 4 (writeSecLock 1))

/-- SEC_LOCK_DBG (R300). -/
def execSecLockDbg (req : Requester) (s : State) : Res :=
  .next (guardedWrite s.begin req 0x030000050010 4 (writeSecLock 2))

/-- SEC_LOCK_DUMP (R300). -/
def execSecLockDump (req : Requester) (s : State) : Res :=
  .next (guardedWrite s.begin req 0x030000050010 4 (writeSecLock 8))

/-! Owner requests (R297). -/

/-- Bytes of SEC_OTP_BUF as one number, the first as the lowest. -/
def otpBytes (s : State) (off : Nat) : Nat → Nat
  | 0 => 0
  | k + 1 => smGet 0 s.security.otpBuf off + 256 * otpBytes s (off + 1) k

/-- A write of a word to SEC_OTP_BUF. -/
def writeOtpBuf (off v : Nat) (s : State) : State :=
  s.onSec (fun x => { x with otpBuf := (List.range 4).foldl (fun m i => smSet 0 m (off + i) (v / 256 ^ i % 256)) x.otpBuf })

/-- SEC_OTP_CMD.GO (R297): ignored while a request runs. -/
def otpGo (s : State) : State := s.flag SEC_OTP_STATUS_BUSY true

/-- OTP_PROGRAM (R297). -/
def execOtpProgram (req : Requester) (s : State) : Res :=
  .next (guardedWrite s.begin req 0x030000050110 4 otpGo)

/-- OTP_REVOKE (R297). -/
def execOtpRevoke (req : Requester) (s : State) : Res :=
  .next (guardedWrite s.begin req 0x030000050110 4 otpGo)

/-- A slot that may authorise: programmed and not revoked. -/
def ownerGood (s : State) (k : Nat) : Bool := s.on (SEC_OWNER_PROGRAMMED k) && !s.on (SEC_OWNER_REVOKED k)

/-- The layout of the request is right (R297). -/
def otpShape (s : State) : Bool :=
  let op := otpBytes s 0 1
  (op == 1 || op == 2) && otpBytes s 1 1 < 4 && otpBytes s 3 5 == 0
    && otpBytes s 8 8 == s.get64 SEC_UID_UID_LO SEC_UID_UID_HI && otpBytes s 0x70 16 == 0
    && (op == 1 || (otpBytes s 0x10 64 == 0 && otpBytes s 0x50 32 == 0))

/-- AUTH names a slot that may authorise, or 0xFF while no slot is programmed. -/
def otpAuth (s : State) : Bool :=
  let auth := otpBytes s 2 1
  if auth == 0xFF then (List.range 4).all (fun k => !s.on (SEC_OWNER_PROGRAMMED k)) else auth < 4 && ownerGood s auth

/-- The digest that the signing keys must have. -/
def otpDigest (s : State) : Nat :=
  let auth := otpBytes s 2 1
  if auth = 0xFF then otpBytes s 0x10 64 else smGet 0 s.security.digests auth

/-- The result code of the request (R297); of several refusals the first in this order (assumption 40). -/
def otpResult (s : State) (signed : Bool) (digest : Nat) (written : Bool) : Nat :=
  let op := otpBytes s 0 1
  let slot := otpBytes s 1 1
  if !otpShape s then 1
  else if op = 1 ∧ s.on SEC_LOCK_KEYS then 6
  else if op = 1 ∧ s.on (SEC_OWNER_PROGRAMMED slot) then 3
  else if !otpAuth s then 4
  else if !signed ∨ digest ≠ otpDigest s then 2
  else if op = 2 ∧ (List.range 4).all (fun k => k = slot ∨ !ownerGood s k) then 5
  else if !written then 7
  else 0

/-- The digest of the signing keys in the request (R118, R297). -/
def otpKeyDigest (s : State) : Nat := sha512 1984 (otpBytes s 0x80 1984)

/-- An owner request ends with a result code: what it programs or revokes, SEC_OTP_STATUS, the buffer zeroised, the cause (R297). -/
def endOtp (r : Nat) (s : State) : State :=
  let slot := otpBytes s 1 1
  let d := otpBytes s 0x10 64
  let k := otpBytes s 0x50 32
  let s := if r ≠ 0 then s
    else if otpBytes s 0 1 = 1 then
      (s.flag (SEC_OWNER_PROGRAMMED slot) true).onSec (fun x =>
        { x with digests := smSet 0 x.digests slot d, ownerKeys := smSet 0 x.ownerKeys slot k })
    else s.flag (SEC_OWNER_REVOKED slot) true
  raiseSec 5 SEC_CAUSE_OTP
    ((s.puts [(SEC_OTP_STATUS_BUSY, 0), (SEC_OTP_STATUS_RESULT, r)]).onSec (fun x => { x with otpBuf := [] }))

/-- OTP_REQUEST_DONE (R297). What the two signatures are found to be, and whether the memory takes the programming, are given. -/
def execOtpRequestDone (ed mldsa : Bool) (written : Bool) (s : State) : Res :=
  let s := s.begin
  .next (if s.on SEC_OTP_STATUS_BUSY then endOtp (otpResult s (ed && mldsa) (otpKeyDigest s) written) s else s)

/-- SEC_GLITCH (R301). -/
def execSecGlitch (s : State) : Res := .next (raiseSec 3 SEC_CAUSE_GLITCH s.begin)

/-! SPDM (R299). Request codes, and which request may follow which, are those of SPDM 1.3, which the rule names
(assumption 41). -/

/-- Bamid runs on the hub engines and answers. -/
def bamidRuns (s : State) : Bool := runs s 183 && !s.on CFG_STATUS_BAMID_FAIL && !s.config.bamidDue && !s.clocks.halted && !s.power.moored

/-- Bamid answers a request, if the exchange has come far enough; else it reports an error. -/
def spdmAnswer (code : Nat) (may : State → Bool) (f : State → State) (s : State) : State :=
  if !bamidRuns s then s else if may s then f s else s.emit (.spdmError code)

/-- Version, capabilities and algorithms are settled. -/
def spdmReady (s : State) : Bool := s.security.spdm == .algorithms

/-- The phase of the exchange set. -/
def setSpdm (p : SpdmPhase) (s : State) : State := s.onSec (fun x => { x with spdm := p })

/-- GET_VERSION (R299): the exchange starts anew. -/
def execGetVersion (s : State) : Res :=
  .next (spdmAnswer 0x84 (fun _ => true) (fun s => (setSpdm .version s).emit (.spdm 0x84 0x13)) s.begin)

/-- GET_CAPABILITIES (R299). -/
def execGetCapabilities (s : State) : Res :=
  .next (spdmAnswer 0xE1 (fun s => s.security.spdm == .version) (fun s => (setSpdm .capabilities s).emit (.spdm 0xE1 0)) s.begin)

/-- NEGOTIATE_ALGORITHMS (R299): SHA-512, Ed25519, secp384r1, AES-256-GCM. -/
def execNegotiateAlgorithms (s : State) : Res :=
  .next (spdmAnswer 0xE3 (fun s => s.security.spdm == .capabilities) (fun s => (setSpdm .algorithms s).emit (.spdm 0xE3 0)) s.begin)

/-- Content that the image store or a signature decides and the spec does not give: free. -/
def freeContent (code : Nat) (s : State) : State :=
  let (d, s) := freeDigest s
  s.emit (.spdm code d)

/-- GET_DIGESTS (R299): of the certificate chains. -/
def execGetDigests (s : State) : Res := .next (spdmAnswer 0x81 spdmReady (freeContent 0x81) s.begin)

/-- GET_CERTIFICATE (R298, R299): slot 0 carries the Ed25519 chain, slot 1 the ML-DSA-65 chain. -/
def execGetCertificate (slot : Fin 8) (s : State) : Res :=
  .next (spdmAnswer 0x82 (fun s => spdmReady s && slot.val < 2) (freeContent 0x82) s.begin)

/-- A signed response is sent: UZ_PQSIG then refers to it. -/
def signedAnswer (code : Nat) (s : State) : State := freeContent code (s.onSec (fun x => { x with signed := true }))

/-- CHALLENGE (R299). -/
def execChallenge (slot : Fin 8) (s : State) : Res :=
  .next (spdmAnswer 0x83 (fun s => spdmReady s && slot.val < 2) (signedAnswer 0x83) s.begin)

/-- CFG_MEAS as one number. -/
def cfgMeas (s : State) : Nat := (List.range 16).foldl (fun v w => v + s.get (CFG_MEAS_MEAS w) * 2 ^ (32 * w)) 0

/-- A measurement is sent by its index (R299): 2 is CFG_MEAS; 20 and 21 are digests of registers as they stand, whose
values the spec does not say how to form. -/
def sendMeasurement (i : Nat) (s : State) : State :=
  if i = 2 then s.emit (.spdm 0xE0 (cfgMeas s))
  else if i = 20 ∨ i = 21 then freeContent 0xE0 s
  else s.emit (.spdm 0xE0 (smGet 0 s.security.meas i))

/-- GET_MEASUREMENTS (R299). -/
def execGetMeasurements (index : BitVec 8) (sign : Bool) (s : State) : Res :=
  .next (spdmAnswer 0xE0 (fun s => spdmReady s && 1 ≤ index.toNat && index.toNat ≤ 21)
    (fun s => sendMeasurement index.toNat (if sign then s.onSec (fun x => { x with signed := true }) else s)) s.begin)

/-- KEY_EXCHANGE (R299). -/
def execKeyExchange (slot : Fin 8) (s : State) : Res :=
  .next (spdmAnswer 0xE4 (fun s => spdmReady s && slot.val < 2)
    (fun s => signedAnswer 0xE4 (s.onSec (fun x => { x with exchange := true }))) s.begin)

/-- FINISH (R299): a session opens where its verification data is right. -/
def execFinish (session : Nat) (good : Bool) (s : State) : Res :=
  .next (spdmAnswer 0xE5 (fun s => s.security.exchange && good)
    (fun s => (s.onSec (fun x => { x with exchange := false, sessions := setAdd x.sessions session })).emit (.spdm 0xE5 session))
    s.begin)

/-- END_SESSION (R299). -/
def execEndSession (session : Nat) (s : State) : Res :=
  .next (spdmAnswer 0xEC (fun s => s.security.sessions.contains session)
    (fun s => (s.onSec (fun x => { x with sessions := setDel x.sessions session })).emit (.spdm 0xEC session)) s.begin)

/-- UZ_PQSIG (R299): the second signature over the transcript of the last signed response. -/
def execUzPqsig (s : State) : Res :=
  .next (spdmAnswer 0xFE (fun s => s.security.signed) (freeContent 0xFE) s.begin)

/-- IDE_KM_MESSAGE (R296): inside an open session; a stream in the Insecure state is established again, but for CXL IDE, the
link stream's, which needs a host-link reset. -/
def execIdeKmMessage (port : Port) (stream : Fin 5) (session : Nat) (s : State) : Res :=
  let k := port.val * 8 + stream.val
  .next (spdmAnswer 0x100 (fun s => s.security.sessions.contains session)
    (fun s => (s.onSec (fun x => { x with
      keyed := setAdd x.keyed k, insecure := if stream.val = 0 then x.insecure else setDel x.insecure k })).emit (.spdm 0x100 k))
    s.begin)

end Sys2Proof.Machine
end

