-- ==== Sys2Proof/Machine/Flags.lean ====
section
/-! DEFINITION. What Yezar instructions compute, apart from any state: the status word and conditions (R204, R210), results
and flags of the control and immediate formats (R211 to R215), division steps (R214), lanes, extraction and GF(2^8)
(R182, R220 to R222). -/

namespace Sys2Proof.Machine

/-! The status word. Bits: Z 0, N 1, C 2, V 3, SAT 4, IE 8, EXL 9, LPE 10, DS 11. -/

/-- A status word with bit `i` made `b`. -/
def stSet (st : Word) (i : Nat) (b : Bool) : Word := if b then st ||| (1#32 <<< i) else st &&& ~~~(1#32 <<< i)

/-- The flags an instruction changes: none where it leaves one as it stands. -/
structure Flags where
  z : Option Bool := none
  n : Option Bool := none
  c : Option Bool := none
  v : Option Bool := none
  deriving DecidableEq, Repr

/-- A flag put into a status word. -/
def stPut (st : Word) (i : Nat) : Option Bool → Word
  | some b => stSet st i b
  | none => st

/-- Flags put into a status word. -/
def Flags.apply (f : Flags) (st : Word) : Word := stPut (stPut (stPut (stPut st 0 f.z) 1 f.n) 2 f.c) 3 f.v

/-- Z and N of a result. -/
def flagsZN (r : Word) : Flags := { z := some (r == 0), n := some (r.getLsbD 31) }

end Sys2Proof.Machine

namespace Sys2Proof

/-- A condition against a status word (R210). -/
def Cond.holds (c : Cond) (st : Word) : Bool :=
  let z := st.getLsbD 0
  let n := st.getLsbD 1
  let cy := st.getLsbD 2
  let v := st.getLsbD 3
  match c with
  | .eq => z | .ne => !z | .hs => cy | .lo => !cy | .mi => n | .pl => !n | .vs => v | .vc => !v
  | .hi => cy && !z | .ls => !cy || z | .ge => n == v | .lt => n != v | .gt => !z && n == v | .le => z || n != v
  | .al => true | .sat => st.getLsbD 4

/-- The operation writes its destination: all but cmp and tst. -/
def AluOp.writes : AluOp → Bool
  | .cmp | .tst => false
  | _ => true

/-- The operation writes its destination. -/
def ImmOp.writes : ImmOp → Bool
  | .cmpi | .cmpui | .tsti => false
  | _ => true

end Sys2Proof

namespace Sys2Proof.Machine

/-- An exact signed result that 32 bits do not hold. -/
def overflows (x : Int) : Bool := x < -(2 ^ 31) || 2 ^ 31 ≤ x

/-- A sum with carry-in: the result and Z N C V. -/
def addWith (a b : Word) (cin : Bool) : Word × Flags :=
  let r := BitVec.ofNat 32 (a.toNat + b.toNat + cin.toNat)
  (r, { flagsZN r with
    c := some (2 ^ 32 ≤ a.toNat + b.toNat + cin.toNat)
    v := some (overflows (a.toInt + b.toInt + cin.toNat)) })

/-- A difference with borrow-in: the result and Z N C V; C is 1 when no borrow occurs. -/
def subWith (a b : Word) (bin : Bool) : Word × Flags :=
  let r := a - b - BitVec.ofNat 32 bin.toNat
  (r, { flagsZN r with
    c := some (b.toNat + bin.toNat ≤ a.toNat)
    v := some (overflows (a.toInt - b.toInt - bin.toNat)) })

/-- A shift by `n`, with Z N and C (R213). -/
def shiftBy (op : ShiftOp) (a : Word) (n : Nat) : Word × Flags :=
  let r := match op with
    | .shl => a <<< n
    | .shr => a >>> n
    | .sra => a.sshiftRight (min n 32)
    | .ror => a.rotateRight (n % 32)
  let c := if n = 0 then none else some (match op with
    | .shl => n ≤ 32 && a.getLsbD (32 - n)
    | .shr => n ≤ 32 && a.getLsbD (n - 1)
    | .sra => a.getLsbD (min (n - 1) 31)
    | .ror => r.getLsbD 31)
  (r, { flagsZN r with c := c })

/-- The number of leading zeros of a word, 32 for zero. -/
def leadingZeros (a : Word) : Nat := ((List.range 32).find? (fun i => a.getLsbD (31 - i))).getD 32

/-- The number of ones in a word. -/
def popCount (a : Word) : Nat := ((List.range 32).filter a.getLsbD).length

/-- A signed quotient by 2^32 of a product: its high word. -/
def highWord (x : Int) : Word := BitVec.ofInt 32 (x / 2 ^ 32)

/-- Result and flags of a control-format operation on two sources with the carry `c` (R212). -/
def aluResult (op : AluOp) (a b : Word) (c : Bool) : Word × Flags :=
  let zn (r : Word) : Word × Flags := (r, flagsZN r)
  match op with
  | .add => addWith a b false
  | .adc => addWith a b c
  | .sub => subWith a b false
  | .sbc => subWith a b !c
  | .and => zn (a &&& b)
  | .or => zn (a ||| b)
  | .xor => zn (a ^^^ b)
  | .andn => zn (a &&& ~~~b)
  | .shl => shiftBy .shl a (b.toNat % 64)
  | .shr => shiftBy .shr a (b.toNat % 64)
  | .sra => shiftBy .sra a (b.toNat % 64)
  | .ror => shiftBy .ror a (b.toNat % 32)
  | .mul => zn (a * b)
  | .mulhs => zn (highWord (a.toInt * b.toInt))
  | .mulhu => zn (BitVec.ofNat 32 (a.toNat * b.toNat / 2 ^ 32))
  | .min => zn (if a.toInt ≤ b.toInt then a else b)
  | .max => zn (if a.toInt ≤ b.toInt then b else a)
  | .minu => zn (if a.toNat ≤ b.toNat then a else b)
  | .maxu => zn (if a.toNat ≤ b.toNat then b else a)
  | .clz => zn (BitVec.ofNat 32 (leadingZeros a))
  | .popc => zn (BitVec.ofNat 32 (popCount a))
  | .sextb => zn ((a.setWidth 8).signExtend 32)
  | .sexth => zn ((a.setWidth 16).signExtend 32)
  | .mov => zn a
  | .cmp => subWith a b false
  | .tst => zn (a &&& b)

/-- Result and flags of an immediate-format operation (R215). -/
def immResult (op : ImmOp) (a : Word) (imm : BitVec 14) : Word × Flags :=
  match op with
  | .addi => (a + imm.signExtend 32, {})
  | .andi => (a &&& imm.setWidth 32, {})
  | .ori => (a ||| imm.setWidth 32, {})
  | .xori => (a ^^^ imm.setWidth 32, {})
  | .cmpi => subWith a (imm.signExtend 32) false
  | .cmpui => subWith a (imm.setWidth 32) false
  | .tsti => (a &&& imm.setWidth 32, flagsZN (a &&& imm.setWidth 32))

/-! Division steps (R214). -/

/-- divinit: g(d), g(d + 1) and V. -/
def divInit (n rt : Word) : Word × Word × Bool :=
  let dv := (rt.setWidth 16).toInt
  let an := n.toInt.natAbs
  let bad := dv == 0 || dv.natAbs ≤ an / 2 ^ 16
  let st := bad.toNat * 2 ^ 24 + (decide (dv < 0)).toNat * 2 ^ 22 + (decide (n.toInt < 0)).toNat * 2 ^ 21
    + dv.natAbs % 2 ^ 16
  (if bad then n else BitVec.ofNat 32 an, BitVec.ofNat 32 st, bad)

/-- divs on g(d) = `x` and g(d + 1) = `st`: the new pair and the flags. -/
def divStep (x st : Word) : Word × Word × Flags :=
  let cnt := slice st.toNat 16 5
  if cnt = 16 then (x, st, {})
  else
    let st' := BitVec.ofNat 32 (st.toNat - cnt * 2 ^ 16 + (cnt + 1) % 32 * 2 ^ 16)
    if st.getLsbD 24 then (x, st', if cnt + 1 = 16 then { v := some true } else {})
    else
      let dm : Int := ((slice st.toNat 0 16 : Nat) : Int)
      let a := toSigned 16 (slice x.toNat 16 16)
      let q := slice x.toNat 0 16
      let t := 2 * a + ((q / 2 ^ 15 : Nat) : Int)
      let a := if 0 ≤ a then t - dm else t + dm
      let q := (q * 2 + (decide (0 ≤ a)).toNat) % 2 ^ 16
      if cnt + 1 = 16 then
        let a := if a < 0 then a + dm else a
        let neg := st.getLsbD 21 != st.getLsbD 22
        let v := if neg then decide (0x8000 < q) else decide (0x7FFF < q)
        let q := if neg then (2 ^ 16 - q) % 2 ^ 16 else q
        let a := if st.getLsbD 21 then -a else a
        (BitVec.ofNat 32 (fromSigned 16 a * 2 ^ 16 + q), st',
          { z := some (q == 0), n := some (q.testBit 15), v := some v })
      else (BitVec.ofNat 32 (fromSigned 16 a * 2 ^ 16 + q), st', {})

/-! Lanes (R182, R220 to R222). -/

/-- Lane `k` of a 64-bit operand word. -/
def lane16 (w k : Nat) : Nat := slice w (16 * k) 16

/-- Extraction of a lane: the 16 bits and whether ST.SAT is set. -/
def extract (a : Lane) (sat : Bool) : BitVec 16 × Bool :=
  let x := a.toInt + 2 ^ 15
  if sat && 2 ^ 31 ≤ x then (0x7FFF#16, true)
  else if sat && x < -(2 ^ 31) then (0x8000#16, true)
  else (BitVec.ofInt 16 (x / 2 ^ 16), false)

/-- Carry-less multiplication of bytes reduced modulo 0x11D: the multiplicand doubled along the multiplier's bits. -/
def gfMul (x y : Nat) : Nat → Nat
  | 0 => 0
  | n + 1 =>
    let twice := if x < 128 then 2 * x else (2 * x) ^^^ 0x11D
    (if y % 2 = 1 then x else 0) ^^^ gfMul twice (y / 2) n

/-- gf4 of an X lane and a Y lane (R221). -/
def gf4 (x y : Nat) : Nat :=
  let x0 := x % 256
  let x1 := x / 256 % 256
  let y0 := y % 256
  let y1 := y / 256 % 256
  gfMul x0 y0 8 + gfMul x1 y0 8 * 2 ^ 8 + gfMul x0 y1 8 * 2 ^ 16 + gfMul x1 y1 8 * 2 ^ 24

/-- One lane of a D-arith operation (R220). -/
def laneResult (op : DspOp) (a : Lane) (xl yl : Nat) : Lane :=
  let x := toSigned 16 xl
  let y := toSigned 16 yl
  match op with
  | .mpy => BitVec.ofInt 40 (x * y)
  | .mac => a + BitVec.ofInt 40 (x * y)
  | .msu => a - BitVec.ofInt 40 (x * y)
  | .sqa => a + BitVec.ofInt 40 (x * x)
  | .accx => a + BitVec.ofInt 40 (x * 2 ^ 16)
  | .subx => a - BitVec.ofInt 40 (x * 2 ^ 16)
  | .gmpy => BitVec.ofNat 40 (gf4 xl yl)
  | .gmac => BitVec.ofNat 40 (a.toNat % 2 ^ 32 ^^^ gf4 xl yl)

/-- The lanes of an accumulator after a D-arith operation with lane mask `lm`, from lane `k` on. -/
def lanesResult (op : DspOp) (lm : BitVec 4) (x y : Nat) (k : Nat) : List Lane → List Lane
  | [] => []
  | a :: as =>
    (if lm.getLsbD k then laneResult op a (lane16 x k) (lane16 y k) else a) :: lanesResult op lm x y (k + 1) as

/-- sha of one lane by a signed amount. -/
def shaLane (n : BitVec 6) (a : Lane) : Lane :=
  if 0 ≤ n.toInt then a <<< n.toInt.toNat else a.sshiftRight (-n.toInt).toNat

/-- mtah: bits [39:32] of each lane from the bytes of a word, from lane `k` on. -/
def guardLanes (v : Word) (k : Nat) : List Lane → List Lane
  | [] => []
  | a :: as => BitVec.ofNat 40 (a.toNat % 2 ^ 32 + slice v.toNat (8 * k) 8 * 2 ^ 32) :: guardLanes v (k + 1) as

/-- mfah: the bytes [39:32] of the lanes as one number, the first lane lowest. -/
def guardBytes : List Lane → Nat
  | [] => 0
  | a :: as => a.toNat / 2 ^ 32 + 256 * guardBytes as

/-- Half-words as one number, the first lowest. -/
def packHalves : List Nat → Nat
  | [] => 0
  | h :: hs => h % 2 ^ 16 + 2 ^ 16 * packHalves hs

end Sys2Proof.Machine
end

