-- ==== Sys2Proof/Machine/Slots.lean ====
section
/-! DEFINITION. The command slots (spec/13, R322 to R326): doorbells, the completion of a program, how a running program is
stopped, and what Bamid's engine goes on with afterwards. -/

namespace Sys2Proof.Machine

/-- The slots' state changed. -/
def State.onSlots (s : State) (f : Slots → Slots) : State := { s with slots := f s.slots }

/-- The location of a register of a slot. -/
def slotAt (k off : Nat) : Nat := 0x030000091000 + k * 0x40 + off

/-- The hub engine's number that runs slot `k`'s program. -/
def engineOfSlot (s : State) (k : Nat) : Option Nat := (s.slots.running.find? (·.2 == k)).map (·.1)

/-- The slot whose program hub engine `he` runs. -/
def slotOfEngine (s : State) (he : Nat) : Option Nat := (s.slots.running.find? (·.1 == he)).map (·.2)

/-- A write of a slot's DOORBELL (R322, R323): ignored with OVERRUN unless the slot is idle, done or failed. -/
def ringSlot (k tag : Nat) (s : State) : State :=
  let st := s.get (SLOT_STATE k)
  if st = 1 ∨ st = 2 ∨ st = 3 then s.flag (SLOT_OVERRUN k) true
  else
    let s := setLines 18 hubEngines (s.put (SLOT_TAG k) tag)
    if s.on CFG_STATUS_BAMID_FAIL then s.puts [(SLOT_STATE k, 5), (SLOT_CODE k, 9)]
    else (s.put (SLOT_STATE k) 1).onSlots (fun x => { x with queue := x.queue ++ [k] })

/-- The status record of a slot: the status word as it stands once the slot has completed, RESULT, the timestamp (R324). -/
def statusRecord (s : State) (k code : Nat) : List Byte :=
  toBytes (s.get (SLOT_TAG k) * 2 ^ 16 + code * 2 ^ 8 + s.get (SLOT_SREC_ERR k) * 2 ^ 6 + s.get (SLOT_OVERRUN k) * 2 ^ 5
      + (if code = 0 then 4 else 5)) 4
    ++ toBytes (s.get (SLOT_RESULT k)) 4 ++ toBytes s.clocks.ts 8

/-- Where the status record of a slot goes. -/
def recordAddress (s : State) (k : Nat) : Nat := s.get64 (SLOT_SADDR_LO k) (SLOT_SADDR_HI k) / 16 * 16

/-- The status record written to SADDR (R324). Plain memory takes it; a fabric target or the host's memory reports an error
or none (`err`); a control space drops it, since it is no register access (R6); nothing else answers. -/
def writeRecord (k code : Nat) (err : Bool) (s : State) : State :=
  let a := recordAddress s k
  if a = 0 then s
  else
    let (bad, s) :=
      if (plainOf a).isSome then
        let r := rangeWrite (plainAccess .hubMover) a (statusRecord s k code) s
        (decide (r.2.1 ≠ PortStatus.ok), r.2.2)
      else match locate a with
      | .fabric d o => (err || (fabricTarget s .hubMover (d * 2 ^ 38 + o)).isNone, match fabricTarget s .hubMover (d * 2 ^ 38 + o) with
        | some x => s.emit (.fabricRequest x 1 a 16 (fromBytes (statusRecord s k code)) 0xFFFF .other 0 false)
        | none => s)
      | .window p o =>
        (err, s.emit (.hostRequest p 0 1 (s.get (HP_WIN_BASE p) * 2 ^ 40 + o) (fromBytes (statusRecord s k code)) 0xFFFF false))
      | .unmapped => (true, s)
      | _ => (false, s)
    if bad then s.flag (SLOT_SREC_ERR k) true else s

/-- How the write of a slot's status record stands (R310, R354). -/
def recordTurn (k : Nat) (s : State) : Turn × State :=
  if recordAddress s k = 0 then (.go, s) else plainTurn (transferAsk .hubMover k (recordAddress s k) 16 1) s

/-- A slot runs no more, and waits for nothing. -/
def leaveSlot (k : Nat) (s : State) : State :=
  s.onSlots (fun x => { x with
    queue := x.queue.filter (· != k), running := x.running.filter (·.2 != k), stopped := x.stopped.filter (· / 16 != k),
    waits := x.waits.filter (fun e => !x.running.contains (e.1, k)), ending := x.ending.filter (·.1 != k) })

/-- A slot's status record is written, or has failed; then come STATE, CMD_DONE and its message (R324). -/
def finishSlot (k code : Nat) (err failed : Bool) (s : State) : State :=
  let s := if failed then s.flag (SLOT_SREC_ERR k) true else writeRecord k code err s
  let s := settled 28 (fun s => s.putBit (CMD_DONE_DONE (k / 32)) (k % 32) true) (s.put (SLOT_STATE k) (if code = 0 then 4 else 5))
  let s := if s.on (SLOT_IRQ_EN k) then sendToPorts s (s.get (SLOT_PORT k)) (s.get (SLOT_VEC k)) else s
  leaveSlot k s

/-- A slot whose result stands goes on to its status record, which may have to wait. -/
def recordSlot (k code : Nat) (err : Bool) (s : State) : State :=
  match recordTurn k s with
  | (.wait, s) => (leaveSlot k s).onSlots (fun x => { x with ending := x.ending ++ [(k, code, err)] })
  | (t, s) => finishSlot k code err (t == .fail) s

/-- A slot completes (R324): RESULT where the program gave one, CODE, status record, STATE, CMD_DONE, and its message. One whose
record waits completes no second time. -/
def completeSlot (k code : Nat) (result : Option Nat) (err : Bool) (s : State) : State :=
  if s.slots.ending.any (·.1 == k) then s
  else
    let s := match result with
      | some r => s.put (SLOT_RESULT k) r
      | none => s
    recordSlot k code err (s.put (SLOT_CODE k) code)

/-- Slots whose status record waited go on where it can be written now. -/
def settleSlots (s : State) : State := s.slots.ending.foldl (fun s e => recordSlot e.1 e.2.1 e.2.2 s) s

/-- The engine is Bamid's again, in context 0 and outside a handler; where Bamid goes on is not given, so the address is a free
value (assumption 42). -/
def bamidGoesOn (g : Nat) (s : State) : State :=
  let (v, s) := s.free
  let e := s.eng g
  s.setEng g { e with
    pc := v &&& ~~~3#32, ctxid := 0, st := stSet e.st 9 false, slot := none, rep := none, atom := none, rsv := none,
    late := [], lateAcc := [], lateLoop := [] }

/-- The stop that waits for slot `k`: its status code (R325). -/
def stopCode (s : State) (k : Nat) : Option Nat := (s.slots.stopped.find? (· / 16 == k)).map (· % 16)

/-- Whatever instruction comes next, the boundary is clean (R197). -/
def Engine.surelyClean (e : Engine) : Bool :=
  e.slot.isNone && e.rep.isNone && e.atom.isNone && e.wait.isNone && e.blocked.isNone && !e.fencing && e.lateAcc.isEmpty && e.late.isEmpty
    && e.lateLoop.isEmpty

/-- At a clean boundary of its program, a slot that has been stopped completes (R325). -/
def slotBoundary (g : Nat) (s : State) : State :=
  if g < 1024 then s
  else match slotOfEngine s (g - 1024) with
    | none => s
    | some k => match stopCode s k with
      | none => s
      | some c =>
        let e := s.eng g
        if e.ctxid.toNat % 256 == 0x40 + k && e.surelyClean then bamidGoesOn g (completeSlot k c none false s) else s

/-- A running program is stopped (R325), at once where the boundary is clean. -/
def stopSlot (k code : Nat) (s : State) : State :=
  match engineOfSlot s k with
  | none => s
  | some he =>
    if (stopCode s k).isSome then s
    else slotBoundary (1024 + he) (s.onSlots (fun x => { x with stopped := setAdd x.stopped (k * 16 + code) }))

/-- A write of CTRL.ABORT (R325). -/
def abortSlot (k : Nat) (s : State) : State :=
  match s.get (SLOT_STATE k) with
  | 1 => completeSlot k 6 none false s
  | 2 | 3 => stopSlot k 6 s
  | _ => s

/-- A hub engine is restarted: the slot that it ran fails with CODE 0x08 (R324, R341). -/
def slotEngineLost (g : Nat) (s : State) : State :=
  if g < 1024 then s
  else match slotOfEngine s (g - 1024) with
    | some k => completeSlot k 8 none false s
    | none => s

/-- An exception of the program that a hub engine runs: the slot fails with CODE 0x04 and ECAUSE as its result (R324). -/
def slotException (g ctx : Nat) (s : State) : State :=
  if g < 1024 then s
  else match slotOfEngine s (g - 1024) with
    | some k => if ctx == 0x40 + k then completeSlot k 4 (some (s.eng g).ecause.toNat) false s else s
    | none => s

end Sys2Proof.Machine
end

