-- ==== Sys2Proof/Machine/YezarDecode.lean ====
section
/-! DEFINITION. The words of the Yezar engine's instruction set (spec/09, R206 to R223): which instruction a 32-bit word
is. The debugger feeds words (R382); an undefined word is a command of its own. -/

namespace Sys2Proof

/-- The unified registers an instruction names. -/
def Yz.named : Yz → List Nat
  | .alu _ rd rs rt _ | .divinit rd rs rt _ | .csel _ rd rs rt => [rd, rs, rt]
  | .shift _ rd rs _ _ | .imm _ rd rs _ => [rd, rs]
  | .divs rd _ | .movi rd _ | .movhi rd _ | .load _ rd _ _ | .store _ rd _ _ | .ldx rd _ _ | .stx rd _ _ _
  | .mfc rd _ | .mtc _ rd => [rd]
  | _ => []

/-- The operation of a load names an even g register, a g register, or any. -/
def classOk (wide any : Bool) (r : Nat) : Bool := any || (r < 16 && (!wide || r % 2 == 0))

/-- The word decodes: every register number exists and is of the class its row allows (R206, R212, R216, R217, R219,
R223). -/
def Yz.isDefined (i : Yz) : Bool :=
  i.named.all (· < 40) && match i with
    | .divinit rd _ _ _ | .divs rd _ => classOk true false rd
    | .load op rd _ _ => classOk (op == .ldd) (op == .ld) rd
    | .store op rd _ _ => classOk (op == .std) (op == .st) rd
    | .ldx rd _ wide => classOk wide false rd
    | .stx rd gs _ wide => classOk false false rd && classOk wide false gs
    | .loop e _ => e != 0
    | .mtc cn _ => cn != 0 && cn.val < 14
    | _ => true

/-- The operation reads RS alone; its RT is zero. -/
def AluOp.unary : AluOp → Bool
  | .clz | .popc | .sextb | .sexth | .mov => true
  | _ => false

/-- The fields that an instruction's row does not have are zero (R206): RT of the operations on one source, RD of the
comparisons. -/
def Yz.isPlain : Yz → Bool
  | .alu op rd _ rt _ => (!op.unary || rt == 0) && (!(op == .cmp || op == .tst) || rd == 0)
  | .imm op rd _ _ => !(op == .cmpi || op == .cmpui || op == .tsti) || rd == 0
  | _ => true

end Sys2Proof

namespace Sys2Proof.Machine

/-- Bits `lo` to `lo + w - 1` of an instruction word. -/
def fieldOf (v : Word) (lo w : Nat) : Nat := v.toNat / 2 ^ lo % 2 ^ w

/-- A 6-bit unified register number. -/
def uregAt (v : Word) (lo : Nat) : UReg := Fin.ofNat 64 (fieldOf v lo 6)
/-- A 4-bit number of a g register. -/
def gregAt (v : Word) (lo : Nat) : GReg := Fin.ofNat 16 (fieldOf v lo 4)
/-- A 2-bit field. -/
def quadAt (v : Word) (lo : Nat) : Fin 4 := Fin.ofNat 4 (fieldOf v lo 2)
/-- One bit. -/
def bitAt (v : Word) (i : Nat) : Bool := fieldOf v i 1 == 1

/-- A condition by its number (R210). -/
def condAt (v : Word) (lo : Nat) : Cond :=
  ([.eq, .ne, .hs, .lo, .mi, .pl, .vs, .vc, .hi, .ls, .ge, .lt, .gt, .le, .al, .sat] : List Cond).getD (fieldOf v lo 4) .al

/-- The instruction where every given field, lowest bit and width, is zero (R206). -/
def zeros (v : Word) (l : List (Nat × Nat)) (i : Yz) : Option Yz := if l.all (fun f => fieldOf v f.1 f.2 == 0) then some i else none

/-- The two-source operations of the control format by FUNC (R212). -/
def aluFunc : List AluOp :=
  [.add, .adc, .sub, .sbc, .and, .or, .xor, .andn, .shl, .shr, .sra, .ror, .mul, .mulhs, .mulhu, .min, .max, .minu, .maxu,
   .clz, .popc, .sextb, .sexth, .mov, .cmp, .tst]

/-- The control format (R212). -/
def decodeControl (v : Word) : Option Yz :=
  let fn := fieldOf v 0 7
  let rd := uregAt v 20
  let rs := uregAt v 14
  let rt := uregAt v 8
  let f := bitAt v 7
  if fn < 0x1A then
    match aluFunc[fn]? with
    | some op => zeros v (if 0x18 ≤ fn then [(20, 6)] else if 0x13 ≤ fn then [(8, 6)] else []) (.alu op rd rs rt f)
    | none => none
  else if 0x20 ≤ fn ∧ fn < 0x24 then
    let op := ([.shl, .shr, .sra, .ror] : List ShiftOp).getD (fn - 0x20) .shl
    zeros v [(13, 1)] (.shift op rd rs (Fin.ofNat 32 (fieldOf v 8 5)) f)
  else if fn = 0x30 then some (.divinit rd rs rt f)
  else if fn = 0x31 then zeros v [(14, 6), (8, 6)] (.divs rd f)
  else if 0x60 ≤ fn ∧ fn < 0x70 then zeros v [(7, 1)] (.csel (condAt v 0) rd rs rt)
  else none

/-- The I-src layout (R215); a comparison has no RD. -/
def decodeImm (op : ImmOp) (v : Word) : Option Yz :=
  let i : Yz := .imm op (uregAt v 20) (uregAt v 14) (BitVec.ofNat 14 (fieldOf v 0 14))
  match op with
  | .cmpi | .cmpui | .tsti => zeros v [(20, 6)] i
  | _ => some i

/-- The branch format (R218, R219). -/
def decodeBranch (major : Nat) (v : Word) : Option Yz :=
  match major with
  | 0x20 => some (.b (condAt v 22) (BitVec.ofNat 22 (fieldOf v 0 22)))
  | 0x21 => some (.bl (BitVec.ofNat 26 (fieldOf v 0 26)))
  | 0x22 => zeros v [(20, 1), (0, 16)] (if bitAt v 21 then .jlr (condAt v 22) (gregAt v 16) else .jr (condAt v 22) (gregAt v 16))
  | 0x23 =>
    if bitAt v 25 then zeros v [(16, 9), (0, 12)] (.repeat (.inr (gregAt v 12)))
    else zeros v [(16, 9), (12, 4)] (.repeat (.inl (BitVec.ofNat 12 (fieldOf v 0 12))))
  | _ =>
    let e := BitVec.ofNat 9 (fieldOf v 16 9)
    if bitAt v 25 then zeros v [(4, 12)] (.loop e (.inr (gregAt v 0)))
    else some (.loop e (.inl (BitVec.ofNat 16 (fieldOf v 0 16))))

/-- The D-arith layout (R220). -/
def decodeArith (v : Word) : Option Yz :=
  match ([.mpy, .mac, .msu, .sqa, .accx, .subx, .gmpy, .gmac] : List DspOp)[fieldOf v 22 4]? with
  | some op => zeros v [(12, 2), (0, 8)]
      (.dsp op (quadAt v 20) (quadAt v 18) (quadAt v 16) (bitAt v 15) (bitAt v 14) (BitVec.ofNat 4 (fieldOf v 8 4)))
  | none => none

/-- The D-move layout (R222): every field that a row does not use is zero. G is [19:16], K [15:14], S [13], H [12], PI
[11:10], U [9], SH6 [8:3]. -/
def decodeMove (v : Word) : Option Yz :=
  let a := quadAt v 20
  let g := gregAt v 16
  let k := quadAt v 14
  let h := bitAt v 12
  let pi := quadAt v 10
  let u := bitAt v 9
  match fieldOf v 22 4 with
  | 0x0 => zeros v [(0, 13)] (.ext g a k (bitAt v 13))
  | 0x1 => zeros v [(14, 6), (12, 1), (0, 9)] (.exst false a (bitAt v 13) pi u)
  | 0x2 => zeros v [(14, 6), (12, 1), (0, 9)] (.exst true a (bitAt v 13) pi u)
  | 0x3 => zeros v [(13, 7), (0, 9)] (.gst false a h pi u)
  | 0x4 => zeros v [(13, 7), (0, 9)] (.gst true a h pi u)
  | 0x5 => zeros v [(0, 14)] (.mfa g a k)
  | 0x6 => zeros v [(0, 16)] (.mfah g a)
  | 0x7 => zeros v [(0, 14)] (.mta a k g)
  | 0x8 => zeros v [(0, 16)] (.mtah a g)
  | 0x9 => zeros v [(0, 20)] (.clra a)
  | 0xA => zeros v [(9, 11), (0, 3)] (.sha a (BitVec.ofNat 6 (fieldOf v 3 6)))
  | _ => none

/-- The system format (R223). -/
def decodeSystem (v : Word) : Option Yz :=
  let cn : Fin 16 := gregAt v 10
  match fieldOf v 20 6 with
  | 0x01 => zeros v [(0, 20)] .nop
  | 0x02 => zeros v [(0, 20)] .fence
  | 0x03 => zeros v [(0, 20)] .wait
  | 0x04 => zeros v [(0, 20)] .clrex
  | 0x05 => zeros v [(0, 20)] .reti
  | 0x06 => zeros v [(16, 4)] (.svc (BitVec.ofNat 16 (fieldOf v 0 16)))
  | 0x08 => zeros v [(0, 10)] (.mfc (uregAt v 14) cn)
  | 0x09 => zeros v [(0, 10)] (.mtc cn (uregAt v 14))
  | _ => none

/-- The instruction that a word is, before the checks of register numbers and classes; none where its opcode or a zero field
makes it undefined (R206, R209). -/
def decodeYezar (v : Word) : Option Yz :=
  let major := fieldOf v 26 6
  let wide := BitVec.ofNat 16 (fieldOf v 0 16)
  if major = 0x01 then decodeControl v
  else if major = 0x02 then zeros v [(16, 4)] (.movi (uregAt v 20) wide)
  else if major = 0x03 then zeros v [(16, 4)] (.movhi (uregAt v 20) wide)
  else if 0x04 ≤ major ∧ major ≤ 0x0A then
    decodeImm (([.addi, .andi, .ori, .xori, .cmpi, .cmpui, .tsti] : List ImmOp).getD (major - 4) .addi) v
  else if 0x10 ≤ major ∧ major ≤ 0x15 then
    some (.load (([.ldb, .ldbu, .ldh, .ldhu, .ld, .ldd] : List LoadOp).getD (major - 0x10) .ld) (uregAt v 20) (gregAt v 16) wide)
  else if 0x16 ≤ major ∧ major ≤ 0x19 then
    some (.store (([.stb, .sth, .st, .std] : List StoreOp).getD (major - 0x16) .st) (uregAt v 20) (gregAt v 16) wide)
  else if major = 0x1A then zeros v [(12, 4), (1, 11)] (.ldx (uregAt v 20) (gregAt v 16) (bitAt v 0))
  else if major = 0x1B then zeros v [(1, 11)] (.stx (uregAt v 20) (gregAt v 12) (gregAt v 16) (bitAt v 0))
  else if 0x20 ≤ major ∧ major ≤ 0x24 then decodeBranch major v
  else if major = 0x30 then decodeArith v
  else if major = 0x31 then decodeMove v
  else if major = 0x3E then decodeSystem v
  else none

/-! The words of instructions. -/

/-- A word from its fields, lowest bit and value. -/
def pack (l : List (Nat × Nat)) : Word := BitVec.ofNat 32 ((l.map (fun f => f.2 * 2 ^ f.1)).sum)

/-- FUNC of a two-source operation (R212). -/
def aluCode : AluOp → Nat
  | .add => 0x00 | .adc => 0x01 | .sub => 0x02 | .sbc => 0x03 | .and => 0x04 | .or => 0x05 | .xor => 0x06 | .andn => 0x07
  | .shl => 0x08 | .shr => 0x09 | .sra => 0x0A | .ror => 0x0B | .mul => 0x0C | .mulhs => 0x0D | .mulhu => 0x0E | .min => 0x0F
  | .max => 0x10 | .minu => 0x11 | .maxu => 0x12 | .clz => 0x13 | .popc => 0x14 | .sextb => 0x15 | .sexth => 0x16
  | .mov => 0x17 | .cmp => 0x18 | .tst => 0x19

/-- FUNC of a shift by an immediate (R212). -/
def shiftCode : ShiftOp → Nat
  | .shl => 0x20 | .shr => 0x21 | .sra => 0x22 | .ror => 0x23

/-- A condition's number (R210). -/
def condCode : Cond → Nat
  | .eq => 0 | .ne => 1 | .hs => 2 | .lo => 3 | .mi => 4 | .pl => 5 | .vs => 6 | .vc => 7
  | .hi => 8 | .ls => 9 | .ge => 10 | .lt => 11 | .gt => 12 | .le => 13 | .al => 14 | .sat => 15

/-- The major opcode of an operation with a 14-bit immediate (R215). -/
def immMajor : ImmOp → Nat
  | .addi => 0x04 | .andi => 0x05 | .ori => 0x06 | .xori => 0x07 | .cmpi => 0x08 | .cmpui => 0x09 | .tsti => 0x0A

/-- The major opcode of a load (R216). -/
def loadMajor : LoadOp → Nat
  | .ldb => 0x10 | .ldbu => 0x11 | .ldh => 0x12 | .ldhu => 0x13 | .ld => 0x14 | .ldd => 0x15

/-- The major opcode of a store (R216). -/
def storeMajor : StoreOp → Nat
  | .stb => 0x16 | .sth => 0x17 | .st => 0x18 | .std => 0x19

/-- OP of a D-arith operation (R220). -/
def dspCode : DspOp → Nat
  | .mpy => 0 | .mac => 1 | .msu => 2 | .sqa => 3 | .accx => 4 | .subx => 5 | .gmpy => 6 | .gmac => 7

/-- A word of the control format (R212). -/
def controlWord (fn rd rs rt : Nat) (f : Bool) : Word := pack [(0, fn), (7, f.toNat), (8, rt), (14, rs), (20, rd), (26, 0x01)]

/-- A word of the D-move layout (R222): OP, A, then the row's fields. -/
def moveWord (op a : Nat) (l : List (Nat × Nat)) : Word := pack ((26, 0x31) :: (22, op) :: (20, a) :: l)

/-- A word of the system format (R223). -/
def systemWord (op : Nat) (l : List (Nat × Nat)) : Word := pack ((26, 0x3E) :: (20, op) :: l)

/-- The word of an instruction (R206 to R223). -/
def encodeYezar : Yz → Word
  | .alu op rd rs rt f => controlWord (aluCode op) rd.val rs.val rt.val f
  | .shift op rd rs sh f => controlWord (shiftCode op) rd.val rs.val sh.val f
  | .divinit rd rs rt f => controlWord 0x30 rd.val rs.val rt.val f
  | .divs rd f => controlWord 0x31 rd.val 0 0 f
  | .csel c rd rs rt => controlWord (0x60 + condCode c) rd.val rs.val rt.val false
  | .movi rd imm => pack [(0, imm.toNat), (20, rd.val), (26, 0x02)]
  | .movhi rd imm => pack [(0, imm.toNat), (20, rd.val), (26, 0x03)]
  | .imm op rd rs imm => pack [(0, imm.toNat), (14, rs.val), (20, rd.val), (26, immMajor op)]
  | .load op rd rb off => pack [(0, off.toNat), (16, rb.val), (20, rd.val), (26, loadMajor op)]
  | .store op rd rb off => pack [(0, off.toNat), (16, rb.val), (20, rd.val), (26, storeMajor op)]
  | .ldx rd rb wide => pack [(0, wide.toNat), (16, rb.val), (20, rd.val), (26, 0x1A)]
  | .stx rd g rb wide => pack [(0, wide.toNat), (12, g.val), (16, rb.val), (20, rd.val), (26, 0x1B)]
  | .b c off => pack [(0, off.toNat), (22, condCode c), (26, 0x20)]
  | .bl off => pack [(0, off.toNat), (26, 0x21)]
  | .jr c rb => pack [(16, rb.val), (22, condCode c), (26, 0x22)]
  | .jlr c rb => pack [(16, rb.val), (21, 1), (22, condCode c), (26, 0x22)]
  | .repeat (.inl n) => pack [(0, n.toNat), (26, 0x23)]
  | .repeat (.inr g) => pack [(12, g.val), (25, 1), (26, 0x23)]
  | .loop e (.inl n) => pack [(0, n.toNat), (16, e.toNat), (26, 0x24)]
  | .loop e (.inr g) => pack [(0, g.val), (16, e.toNat), (25, 1), (26, 0x24)]
  | .dsp op a xi yi xu yu lm =>
    pack [(8, lm.toNat), (14, yu.toNat), (15, xu.toNat), (16, yi.val), (18, xi.val), (20, a.val), (22, dspCode op), (26, 0x30)]
  | .ext g a k sat => moveWord 0x0 a.val [(13, sat.toNat), (14, k.val), (16, g.val)]
  | .exst y a sat pi u => moveWord (if y then 0x2 else 0x1) a.val [(9, u.toNat), (10, pi.val), (13, sat.toNat)]
  | .gst y a h pi u => moveWord (if y then 0x4 else 0x3) a.val [(9, u.toNat), (10, pi.val), (12, h.toNat)]
  | .mfa g a k => moveWord 0x5 a.val [(14, k.val), (16, g.val)]
  | .mfah g a => moveWord 0x6 a.val [(16, g.val)]
  | .mta a k g => moveWord 0x7 a.val [(14, k.val), (16, g.val)]
  | .mtah a g => moveWord 0x8 a.val [(16, g.val)]
  | .clra a => moveWord 0x9 a.val []
  | .sha a n => moveWord 0xA a.val [(3, n.toNat)]
  | .nop => systemWord 0x01 []
  | .fence => systemWord 0x02 []
  | .wait => systemWord 0x03 []
  | .clrex => systemWord 0x04 []
  | .reti => systemWord 0x05 []
  | .svc num => systemWord 0x06 [(0, num.toNat)]
  | .mfc rd cn => systemWord 0x08 [(10, cn.val), (14, rd.val)]
  | .mtc cn rs => systemWord 0x09 [(10, cn.val), (14, rs.val)]

/-- The instructions that the debugger may not feed (R382). -/
def notFed : Yz → Bool
  | .b _ _ | .bl _ | .jr _ _ | .jlr _ _ | .repeat _ | .loop _ _ | .reti | .svc _ | .wait | .ldx _ _ _ | .stx _ _ _ _ => true
  | _ => false

end Sys2Proof.Machine
end

