-- ==== Sys2Proof/Machine/Yezar.lean ====
section
/-! DEFINITION. How a Yezar engine executes one instruction (spec/08, 09): what is defined where, breakpoints, the effect of
each operation, retirement with slots, REPEAT, LOOP and atomic sequences, and entry to a handler. -/

namespace Sys2Proof

/-! What an instruction is, apart from any state. -/

/-- What must not stand in a delay slot (R184). -/
def Yz.noSlot : Yz → Bool
  | .b _ _ | .bl _ | .jr _ _ | .jlr _ _ | .reti | .repeat _ | .loop _ _ | .svc _ | .wait => true
  | _ => false

/-- What REPEAT must not repeat (R189). -/
def Yz.noRepeat (i : Yz) : Bool :=
  i.noSlot || match i with
    | .ldx _ _ _ | .stx _ _ _ _ | .fence => true
    | _ => false

/-- What must not stand at le (R190). -/
def Yz.noLe : Yz → Bool
  | .b _ _ | .bl _ | .jr _ _ | .jlr _ _ | .reti | .repeat _ => true
  | _ => false

/-- What must not stand inside an atomic sequence (R191). -/
def Yz.noAtomic : Yz → Bool
  | .ldx _ _ _ | .repeat _ | .loop _ _ | .wait | .svc _ => true
  | _ => false

/-- STX, which may be the 16th instruction after its LDX (R191). -/
def Yz.isStx : Yz → Bool
  | .stx _ _ _ _ => true
  | _ => false

/-- Privileged in a user context (R192, R204). -/
def Yz.privileged : Yz → Bool
  | .reti => true
  | .mfc _ cn => 2 ≤ cn.val && cn.val ≤ 10 && cn.val != 7
  | .mtc cn _ => 2 ≤ cn.val && cn.val ≤ 10
  | _ => false

/-- How a register is read. -/
inductive Use where
  | alu (r : Nat)
  | addr (r : Nat)
  | acc (a : Nat)
  deriving DecidableEq, Repr

/-- X/Y addressing through pointer `p`. -/
def useXy (p : Nat) (u : Bool) : List Use := .addr p :: if u then [.addr (p + 8), .addr (p + 16)] else []

/-- The registers that an instruction reads. -/
def Yz.uses : Yz → List Use
  | .alu op _ rs rt _ => if op.unary then [.alu rs] else [.alu rs, .alu rt]
  | .divinit _ rs rt _ | .csel _ _ rs rt => [.alu rs, .alu rt]
  | .shift _ _ rs _ _ | .imm _ _ rs _ => [.alu rs]
  | .divs rd _ => [.alu rd, .alu (rd + 1)]
  | .movhi rd _ => [.alu rd]
  | .load _ _ rb _ | .ldx _ rb _ | .jr _ rb | .jlr _ rb => [.alu rb]
  | .store op rd rb _ => [.alu rd, .alu rb] ++ if op == .std then [.alu (rd + 1)] else []
  | .stx _ gs rb wide => [.alu gs, .alu rb] ++ if wide then [.alu (gs + 1)] else []
  | .repeat (.inr g) | .loop _ (.inr g) | .mta _ _ g | .mtah _ g => [.alu g]
  | .dsp _ _ xi yi xu yu _ => useXy (16 + xi) xu ++ useXy (20 + yi) yu
  | .ext _ a _ _ | .mfa _ a _ | .mfah _ a => [.acc a]
  | .exst y a _ pi u | .gst y a _ pi u => .acc a :: useXy ((if y then 20 else 16) + pi) u
  | .mtc _ rs => [.alu rs]
  | _ => []

/-- The bytes of a load. -/
def LoadOp.bytes : LoadOp → Nat
  | .ldb | .ldbu => 1
  | .ldh | .ldhu => 2
  | .ld => 4
  | .ldd => 8

/-- The bytes of a store. -/
def StoreOp.bytes : StoreOp → Nat
  | .stb => 1
  | .sth => 2
  | .st => 4
  | .std => 8

end Sys2Proof

namespace Sys2Proof.Machine

/-! What an instruction may be and where it may stand. -/

/-- The engine is in a user context (R192); a fed instruction runs in context 0 (R382). -/
def Engine.user (e : Engine) : Bool := e.ctxid.toNat % 256 != 0 && !e.feeding

/-- The hardware loop is active and the next instruction stands at le. -/
def Engine.atLe (e : Engine) : Bool := e.st.getLsbD 10 && e.pc == e.testLe

/-- A placement that R227 forbids. -/
def Engine.misplaced (e : Engine) (i : Yz) : Bool :=
  (e.slot.isSome && (i.noSlot || e.atLe)) || (e.rep.isSome && i.noRepeat) || (e.atLe && i.noLe)
    || (e.atom.isSome && i.noAtomic)

/-- The count of a REPEAT. -/
def Engine.repCount (e : Engine) : BitVec 12 ⊕ GReg → Nat
  | .inl n => n.toNat + 1
  | .inr g => (e.alu g.val).toNat

/-- An exception that the instruction raises before it reaches any memory, by its code (R194: 0x01, 0x02, 0x03, 0x0B). -/
def Engine.earlyFault (e : Engine) (i : Yz) : Option Nat :=
  if !i.isDefined then some 0x01
  else if e.misplaced i then some 0x02
  else if e.user && i.privileged then some 0x03
  else match i with
    | .repeat c => if e.repCount c = 0 ∨ 4096 < e.repCount c then some 0x0B else none
    | _ => none

/-! Reads that an instruction makes of late results (R197). -/

/-- A use that R183 hides an earlier result from: R197 names those of loads and MACs, R224 takes in the rest. -/
def Engine.hides (e : Engine) : Use → Bool
  | .alu r => e.late.any (fun l => l.reg == r && l.alu != 0)
  | .addr r => e.late.any (fun l => l.reg == r && l.addr != 0)
  | .acc a => e.lateAcc.any (fun l => l.a == a && l.left != 0)

/-- The end-of-loop test of the next instruction is not to see a write of lc, ls or le (R183, R224). -/
def Engine.hidesLoop (e : Engine) : Bool := e.st.getLsbD 10 && e.lateLoop.any (fun l => l.left != 0)

/-- A clean boundary before the given next instruction (R197, R224). -/
def Engine.clean (e : Engine) (next : Option Yz) : Bool :=
  e.slot.isNone && e.rep.isNone && e.atom.isNone && e.wait.isNone && e.blocked.isNone && !e.fencing && !e.hidesLoop
    && match next with
      | some i => !i.uses.any e.hides
      | none => true

/-! Exceptions (R194, R195, R200). -/

/-- An exception: code, INFO, and the local address for EADDR. -/
structure Exc where
  code : Nat
  info : Nat := 0
  addr : Option Nat := none
  deriving DecidableEq, Repr

/-- The engine cause of the engine's partition is raised (R200, R202). -/
def raiseEng (g : Nat) (s : State) : State :=
  if g < 1024 then
    let n := g / 64
    let i := g % 64
    chSettled n (fun s =>
      if i < 32 then s.putBit (CH_ENG_CAUSE_LO_ENG n) i true else s.putBit (CH_ENG_CAUSE_HI_ENG n) (i - 32) true) s
  else settled 20 (fun s => s.putBit INT_PART_CAUSE_HUB_HE (g - 1024) true) s

/-- The open REPEAT, atomic sequence and slot end, with every earlier result visible. -/
def Engine.unwind (e : Engine) : Engine :=
  { e.complete with slot := none, rep := none, atom := none, rsv := if e.atom.isSome then none else e.rsv, wait := none }

/-- A double fault (R200): the engine stops fetching. For a hub engine the Wake's recovery of KIND 0x6 begins (R336); the
engine's bite is its unit reset. -/
def doubleFault (g : Nat) (s : State) : State :=
  let s := raiseEng g ((s.setEng g (s.eng g).unwind).put (ENG_STATUS_STATE g) 4)
  if g < 1024 then s else beginRecovery 6 (unitId 20 (g - 1024)) s

/-- The offset of the vector for a code (R195). -/
def vectorOffset (code : Nat) : Word := if code = 0x0A then 0x40#32 else if code = 0x20 then 0x80#32 else 0#32

/-- Entry to a handler (R195, R196, R189): the saved registers, status, context and the jump. -/
def Engine.enter (e : Engine) (x : Exc) : Engine :=
  let epc := match e.rep with | some r => r.addr | none => e.pc
  let cause := match e.rep with
    | some r => x.code + 2 ^ 8 + r.done % 2 ^ 16 * 2 ^ 16
    | none => x.code + x.info % 2 ^ 16 * 2 ^ 16
  { e.unwind with
    epc := epc
    est := stSet e.st 11 e.slot.isSome
    etgt := match e.slot with | some (t, _) => t | none => e.etgt
    ectx := e.ctxid
    ecause := BitVec.ofNat 32 cause
    eaddr := match x.addr with | some a => BitVec.ofNat 32 a | none => e.eaddr
    st := stSet (stSet (stSet e.st 9 true) 8 false) 10 false
    ctxid := 0
    pc := e.vbase + vectorOffset x.code }

/-- An exception, interrupt or SVC is taken (R195), or is a double fault (R200). An exception of a command program ends the
program (R324). -/
def takeException (g : Nat) (x : Exc) (s : State) : State :=
  let e := s.eng g
  if e.st.getLsbD 9 then doubleFault g s
  else
    let s := s.setEng g (e.enter x)
    if x.code = 0x0A ∨ x.code = 0x20 then s else slotException g (e.ctxid.toNat % 256) s

/-! Halts (R379, R380, R383). -/

/-- The engine halts: pc, slot and REPEAT stand; DBG_STATUS fields are replaced; cross-trigger sources 1 and 2 occur. -/
def takeHalt (g cause hit : Nat) (forced : Bool) (s : State) : State :=
  let e := s.eng g
  let broken := forced && e.atom.isSome
  let s := s.setEng g { e.complete with
    haltReq := none, haltForce := false, stepping := false, stepBegun := false
    rsv := if broken then none else e.rsv }
  let s := s.puts [(ENG_STATUS_STATE g, 3), (ENG_DBG_HALTED g, 1), (ENG_DBG_CAUSE g, cause), (ENG_DBG_HIT g, hit),
    (ENG_DBG_FEED_BUSY g, 0), (ENG_DBG_IN_SLOT g, e.slot.isSome.toNat), (ENG_DBG_RSV_BROKEN g, broken.toNat),
    (ENG_DBG_FORCED g, forced.toNat), (ENG_DBG_PENDING g, 0), (ENG_DBG_PC g, e.pc.toNat / 4),
    (ENG_DBG_TGT g, match e.slot with | some (t, _) => t.toNat | none => 0),
    (ENG_DBG_LEFT g, match e.rep with | some r => r.count - r.done | none => 0)]
  if g < 1024 then (if s.bit DBG_XT_CREW_CREW (g / 64) then xtSource 1 s else s) else xtSource 2 s

/-- A unit of STEP has ended (R383): the engine halts again. -/
def endStep (g : Nat) (s : State) : State :=
  let e := s.eng g
  if e.stepping && e.slot.isNone && e.rep.isNone && e.atom.isNone && e.wait.isNone && e.blocked.isNone && !e.fencing
  then takeHalt g 5 0 false s else s

/-! Comparators (R384, R385). -/

/-- A data access that comparators see: local address, bytes, the low 32 bits of the data, store or load. -/
structure Access where
  addr : Nat
  bytes : Nat
  data : Nat
  wr : Bool
  deriving DecidableEq, Repr

/-- The enable and context qualifiers of comparator `k`, which is not the bound of a range. -/
def armed (s : State) (g k : Nat) : Bool :=
  let c := s.get (ENG_DBG_CTRL g k)
  let ctx := (s.eng g).ctxid.toNat % 256
  c.testBit 31 && (ctx &&& slice c 8 8) == (slice c 16 8 &&& slice c 8 8)
    && !(k % 2 == 1 && (s.get (ENG_DBG_CTRL g (k - 1))).testBit 30)

/-- The range of comparator `k`: first and last byte; `lsz` where it stands alone. -/
def rangeOf (s : State) (g k lsz : Nat) : Nat × Nat :=
  let a := s.get (ENG_DBG_ADDR g k)
  if k % 2 == 0 && (s.get (ENG_DBG_CTRL g k)).testBit 30 then (a, s.get (ENG_DBG_ADDR g (k + 1)))
  else (a / 2 ^ lsz * 2 ^ lsz, a / 2 ^ lsz * 2 ^ lsz + 2 ^ lsz - 1)

/-- Instruction comparator `k` matches a fetch. -/
def matchesFetch (s : State) (g k pc : Nat) : Bool :=
  armed s g k && (rangeOf s g k 2).1 ≤ pc && pc ≤ (rangeOf s g k 2).2

/-- Data comparator `k` matches an access. -/
def matchesData (s : State) (g k : Nat) (a : Access) : Bool :=
  let c := s.get (ENG_DBG_CTRL g k)
  let r := rangeOf s g k (c % 32)
  let m := s.get (ENG_DBG_MASK g k)
  armed s g k && r.1 < a.addr + a.bytes && a.addr ≤ r.2 && (if a.wr then c.testBit 6 else c.testBit 5)
    && (!c.testBit 7 || (a.data % 2 ^ 32 &&& m) == (s.get (ENG_DBG_VALUE g k) &&& m))

/-- A matching comparator fires, unless it is linked and the flag it waits for is clear (R385). -/
def fire (g k cause : Nat) (s : State) : State :=
  let c := s.get (ENG_DBG_CTRL g k)
  let e := s.eng g
  let link := slice c 24 3
  if c.testBit 27 && !e.flags.testBit link then s
  else
    let f := if c.testBit 27 then withBit e.flags link false else e.flags
    let s := s.setEng g { e with flags := withBit f k true }
    let s := if c.testBit 28 then
        let s := haltRequest g cause k s
        if e.slot.isSome && (s.eng g).haltReq.isSome then s.flag (ENG_DBG_DEFERRED g) true else s
      else s
    if c.testBit 29 then xtSource 3 s else s

/-- The instruction comparators at a fetch; the first instruction after a resume makes no match. -/
def watchFetch (g : Nat) (s : State) : State :=
  let e := s.eng g
  if e.resumed then s.setEng g { e with resumed := false }
  else [0, 1, 2, 3].foldl (fun s k => if matchesFetch s g k e.pc.toNat then fire g k 3 s else s) s

/-- The data comparators after an instruction's accesses. -/
def watchData (g : Nat) (acc : List Access) (s : State) : State :=
  if (s.eng g).feeding then s
  else acc.foldl (fun s a => [4, 5, 6, 7].foldl (fun s k => if matchesData s g k a then fire g k 4 s else s) s) s

/-! The effect of an instruction. -/

/-- Where execution goes after an instruction. -/
inductive Flow where
  /-- To what follows. -/
  | next
  /-- A branch: to the slot, and then on at an address. -/
  | branch (cont : Word) (taken : Bool)
  /-- Past a skipped loop, or into a loop's body. -/
  | goto (pc : Word)
  | repeat (count : Nat)
  | reti
  | feather
  | svc (num : Nat)
  /-- The instruction has reset its own engine. -/
  | gone
  deriving DecidableEq, Repr

/-- How far an instruction got. -/
inductive Did where
  /-- It completed, with its data accesses. -/
  | done (flow : Flow) (acc : List Access) (s : State)
  /-- It raised an exception and wrote nothing. -/
  | trap (x : Exc) (s : State)
  /-- It stalls: a crew port request is out, or a FENCE waits. -/
  | stall (s : State)
  deriving DecidableEq, Repr

/-- The engine changed, and nothing else: the instruction completes. -/
def doneWith (g : Nat) (e : Engine) (s : State) : Did := .done .next [] (s.setEng g e)

/-- Loaded data written to its destination (R216). -/
def Engine.loaded (e : Engine) (op : LoadOp) (rd v : Nat) : Engine :=
  match op with
  | .ldb => e.setLoad rd ((BitVec.ofNat 8 v).signExtend 32)
  | .ldbu => e.setLoad rd (BitVec.ofNat 32 (v % 2 ^ 8))
  | .ldh => e.setLoad rd ((BitVec.ofNat 16 v).signExtend 32)
  | .ldhu => e.setLoad rd (BitVec.ofNat 32 (v % 2 ^ 16))
  | .ld => e.setLoad rd (BitVec.ofNat 32 v)
  | .ldd => (e.setLoad rd (BitVec.ofNat 32 v)).setLoad (rd + 1) (BitVec.ofNat 32 (v / 2 ^ 32))

/-- The data of a store (R216). -/
def Engine.storeData (e : Engine) (op : StoreOp) (rd : Nat) : Nat :=
  match op with
  | .std => (e.alu rd).toNat + (e.alu (rd + 1)).toNat * 2 ^ 32
  | _ => (e.alu rd).toNat % 2 ^ (8 * op.bytes)

/-- A read of the engine's own ENG_ block: 32 bits; the ENG_DBG_ registers read zero but for ENG_DBG_DATA in a fed
instruction (R377, R382). -/
def engRead (s : State) (g : Eng) (off bytes : Nat) : Nat × State :=
  if bytes ≠ 4 then (0, s)
  else if 0x800 ≤ off then (if (s.eng g).feeding && off == 0x818 then s.get (ENG_DBG_DATA g) else 0, s)
  else readLatched s (.engine g) (engBase g + off)

/-- A failed store recorded (R177, R187): ENG_ERR and line 17. KIND: 1 decode error, 2 bus error, 3 poison. -/
def storeError (g loc kind : Nat) (s : State) : State :=
  setLine ((s.count (ENG_ERR_COUNT g)).puts [(ENG_ERR_ADDR g, loc), (ENG_ERR_KIND g, kind)]) g 17

/-- The engine's core registers reset (R202 step 3): g, pointers, accumulators, loop and c registers zero. A request of the
core that is still out is given up, and its response will be discarded. -/
def Engine.coreReset (e : Engine) : Engine :=
  { posted := e.posted, stale := e.stale + e.wait.isSome.toNat, tmrArmed := e.tmrArmed, flags := e.flags }

/-- Execution starts at ENG_BOOT with an ECAUSE code; with HOR a halt request waits for the first instruction (R379). -/
def startCore (g code : Nat) (s : State) : State :=
  let e := (s.eng g).coreReset
  let s := s.setEng g { e with pc := BitVec.ofNat 32 (s.get (ENG_BOOT_PC g) * 4), ecause := BitVec.ofNat 32 code }
  let s := s.puts [(ENG_STATUS_STATE g, 1), (ENG_DBG_HALTED g, 0)]
  if s.on (ENG_DBG_HOR g) then haltRequest g 6 0 s else s

/-- A write of ENG_CTRL (R205). -/
def writeEngCtrl (g : Nat) (run restart : Bool) (s : State) : State :=
  let was := s.on (ENG_CTRL_RUN g)
  let s := s.flag (ENG_CTRL_RUN g) run
  if run then (if !was || restart then startCore g 0 s else s)
  else if was then (s.setEng g (s.eng g).coreReset).puts [(ENG_STATUS_STATE g, 0), (ENG_DBG_HALTED g, 0)] else s

/-- A write of a register of the ENG_ block that acts beyond its fields (R198, R202, R205); the rest by access codes. -/
def writeEngReg (g off v : Nat) (s : State) : State :=
  if off = 0x000 then writeEngCtrl g (v.testBit 0) (v.testBit 1) s
  else if off = 0x014 then s.put (ENG_IRQ_PEND_PEND g) (s.get (ENG_IRQ_PEND_PEND g) ||| v % 2 ^ 16)
  else if off = 0x020 then s.puts [(ENG_WDT_LOAD_LOAD g, v), (ENG_WDT_COUNT_COUNT g, v)]
  else if off = 0x028 then (if v % 256 = 0x5A then s.put (ENG_WDT_COUNT_COUNT g) (s.get (ENG_WDT_LOAD_LOAD g)) else s)
  else if off = 0x034 then (s.put (ENG_TMR_HI_TS g) v).setEng g { s.eng g with tmrArmed := true }
  else writeReg s (engBase g + off) v

/-- A store of the engine to its own ENG_ block. -/
def engStore (s : State) (g : Eng) (off bytes v : Nat) : State :=
  if bytes ≠ 4 then s
  else if 0x800 ≤ off then (if (s.eng g).feeding && off == 0x818 then s.put (ENG_DBG_DATA g) v else s)
  else writeEngReg g off v s

/-- The engine no longer runs the program it ran: it was held or restarted by its own store. -/
def leftProgram (g off bytes v : Nat) (s : State) : Bool :=
  bytes == 4 && off == 0 && (!(v.testBit 0) || v.testBit 1) && s.get (ENG_STATUS_STATE g) != 3

/-- The request of an engine's load (0) or store (1) as the hub sees it. -/
def portReq (g : Eng) (opc dev bytes : Nat) : NocReq :=
  { port := 136, tag := opc, req := .engine g, opc := opc, addr := dev, len := bytes - 1, dst := none, accepted := false, rsp := none }

/-- An engine's request as its target sees it. The DRAM window of a channel engine does not pass the hub switch (R23, R311). -/
def portAsk (g : Eng) (opc loc dev bytes v : Nat) : Ask :=
  { req := .engine g, tag := opc, addr := dev, len := bytes, opc := opc, data := v, be := 2 ^ bytes - 1
    direct := decide (g.val < 1024 ∧ 0x40000000 ≤ loc ∧ loc < 0x80000000)
    inside := decide (loc < if g.val < 1024 then 0x80000000 else 0x40000000) }

/-- A request of the engine leaves through its port: one to a window onto host memory goes to the host (R317), one to a fabric target to
its sector (R163). -/
def sendPort (g : Eng) (opc loc dev bytes v : Nat) (s : State) : State :=
  match locate dev with
  | .fabric _ _ => sendUnit (portAsk g opc loc dev bytes v) s
  | _ => (issueWindow (portReq g opc dev bytes) v (2 ^ bytes - 1) s).2

/-- The entries of the store buffer in use: stores that the crew port has not accepted (R187). -/
def Engine.buffered (e : Engine) : Nat := (e.posted.filter (fun p => !p.taken)).length

/-- The crew port accepts the first `k` posted stores, as far as it has not yet: their requests leave and their entries are free
(R187). -/
def takeStores (g : Eng) (k : Nat) (s : State) : State :=
  let ps := (s.eng g).posted
  let s := (ps.take k).foldl (fun s p => if p.taken then s else sendPort g 1 p.loc p.dev p.bytes p.data s) s
  s.setEng g { s.eng g with posted := (ps.take k).map (fun p => { p with taken := true }) ++ ps.drop k }

/-- A request that stalls the pipeline leaves through the crew port, behind the stores in the buffer. -/
def leave (g : Eng) (w : PortReq) (s : State) : State :=
  takeStores g (s.eng g).posted.length (s.setEng g { s.eng g with wait := some w })

/-- A posted store enters the store buffer, or waits for an entry (R187). -/
def postStore (g : Eng) (p : Posted) (acc : List Access) (s : State) : Did :=
  let e := s.eng g
  if e.buffered < 8 then .done .next acc (s.setEng g { e with posted := e.posted ++ [p] })
  else .stall (s.setEng g { e with blocked := some p })

/-- The words of IMEM that a store of the engine changes, as they stood: three more instructions may run them (R188). -/
def keepWords (g : Eng) (inst off bytes : Nat) (s : State) : State :=
  if inst = 0 then
    let old := ((List.range ((bytes + 3) / 4)).map (off / 4 + ·)).map (fun w => (w, BitVec.ofNat 32 (readLocal s g 0 (4 * w) 4).1, 4))
    s.setEng g { s.eng g with oldWords := (s.eng g).oldWords ++ old }
  else s

/-- A load (R193, R194, R216). -/
def doLoad (g : Eng) (op : LoadOp) (rd : UReg) (rb : GReg) (off : BitVec 16) (s : State) : Did :=
  let e := s.eng g
  let a := (e.alu rb + off.signExtend 32).toNat
  let ret (v : Nat) (s : State) : Did := .done .next [⟨a, op.bytes, v, false⟩] (s.setEng g ((s.eng g).loaded op rd v))
  if a % op.bytes ≠ 0 then .trap { code := 0x04, addr := some a } s
  else if !allowed s g .read a then ret 0 s
  else match localOf s g a with
    | .unmapped => .trap { code := 0x05, addr := some a } s
    | .mem inst o =>
      let (v, ue, s) := readLocal s g inst o op.bytes
      if ue then .trap { code := 0x06, addr := some a } s else ret v s
    | .eng o => let (v, s) := engRead s g o op.bytes; ret v s
    | .port d => .stall (sendPort g 0 a d op.bytes 0 (leave g { op := .load op rd, loc := a, dev := d } s))

/-- A store (R187, R193, R216). -/
def doStore (g : Eng) (op : StoreOp) (rd : UReg) (rb : GReg) (off : BitVec 16) (s : State) : Did :=
  let e := s.eng g
  let a := (e.alu rb + off.signExtend 32).toNat
  let v := e.storeData op rd
  let acc : List Access := [⟨a, op.bytes, v, true⟩]
  if a % op.bytes ≠ 0 then .trap { code := 0x04, addr := some a } s
  else if !allowed s g .write a then .done .next acc s
  else match localOf s g a with
    | .unmapped => .done .next acc (storeError g a 1 s)
    | .mem inst o => .done .next acc (writeLocal (keepWords g inst o op.bytes s) g inst o op.bytes v)
    | .eng o => .done (if leftProgram g o op.bytes v s then .gone else .next) acc (engStore s g o op.bytes v)
    | .port d => postStore g { loc := a, dev := d, bytes := op.bytes, data := v } acc s

/-- LDX (R191, R217). -/
def doLdx (g : Eng) (rd : UReg) (rb : GReg) (wide : Bool) (s : State) : Did :=
  let e := s.eng g
  let a := (e.alu rb).toNat
  if a % (if wide then 8 else 4) ≠ 0 then .trap { code := 0x04, addr := some a } s
  else if !exclusiveRange g a then .trap { code := 0x09, addr := some a } s
  else if !allowed s g .read a then doneWith g (e.loaded (if wide then .ldd else .ld) rd 0) s
  else match localOf s g a with
    | .port d => .stall (leave g { op := .ldx rd wide, loc := a, dev := d } s)
    | _ => .trap { code := 0x09, addr := some a } s

/-- STX (R191, R193, R217). -/
def doStx (g : Eng) (rd : UReg) (gs rb : GReg) (wide : Bool) (s : State) : Did :=
  let e := s.eng g
  let a := (e.alu rb).toNat
  let v := (e.alu gs).toNat + if wide then (e.alu (gs + 1)).toNat * 2 ^ 32 else 0
  if a % (if wide then 8 else 4) ≠ 0 then .trap { code := 0x04, addr := some a } s
  else if !exclusiveRange g a then .trap { code := 0x09, addr := some a } s
  else if !allowed s g .write a then doneWith g ({ e with rsv := none, atom := none }.setStatus rd 1) s
  else match localOf s g a with
    | .port d => .stall (leave g { op := .stx rd wide (BitVec.ofNat 64 v), loc := a, dev := d } s)
    | _ => .trap { code := 0x09, addr := some a } s

/-- A 64-bit word of XMEM (1) or YMEM (2) fetched for X/Y: zero where the regions forbid it. -/
def fetchXy (s : State) (g : Eng) (inst off : Nat) : Nat × Bool × State :=
  if allowed s g .read (inst * 0x10000 + off) then readLocal s g inst off 8 else (0, false, s)

/-- A D-arith instruction (R220, R221). -/
def doDsp (g : Eng) (op : DspOp) (a xi yi : Fin 4) (xu yu : Bool) (lm : BitVec 4) (s : State) : Did :=
  let e := s.eng g
  let ox := pointerOffset (e.addr (16 + xi))
  let oy := pointerOffset (e.addr (20 + yi))
  let (x, ux, s) := fetchXy s g 1 ox
  let (y, uy, s) := fetchXy s g 2 oy
  if ux then .trap { code := 0x06, addr := some (0x10000 + ox) } s
  else if uy then .trap { code := 0x06, addr := some (0x20000 + oy) } s
  else
    let s := if lm = 0 then s else s.setEng g (e.setLanes a (lanesResult op lm x y 0 (e.lanes a)))
    let s := if xu then postUpdate g e (16 + xi) s else s
    let s := if yu then postUpdate g e (20 + yi) s else s
    .done .next [⟨0x10000 + ox, 8, x, false⟩, ⟨0x20000 + oy, 8, y, false⟩] s

/-- A store of four half-words through a pointer (exstx, exsty, gstx, gsty; R222). -/
def storeXy (g : Eng) (y : Bool) (pi : Fin 4) (u : Bool) (w : Nat) (sat : Bool) (s : State) : Did :=
  let e := s.eng g
  let p := (if y then 20 else 16) + pi.val
  let inst := if y then 2 else 1
  let o := pointerOffset (e.addr p)
  let s := if allowed s g .write (inst * 0x10000 + o) then writeLocal s g inst o 8 w else s
  let s := if sat then s.setEng g { e with st := stSet e.st 4 true } else s
  let s := if u then postUpdate g e p s else s
  .done .next [⟨inst * 0x10000 + o, 8, w, true⟩] s

/-- A taken branch to an address outside ls to le clears LPE (R190). -/
def Engine.leaveLoop (e : Engine) (target : Word) : Engine :=
  if e.st.getLsbD 10 && !(e.testLs.toNat ≤ target.toNat && target.toNat ≤ e.testLe.toNat)
  then { e with st := stSet e.st 10 false } else e

/-- A branch: taken to a target, with its link where it has one, or on past the slot (R184, R218). -/
def doBranch (g : Eng) (taken link : Bool) (target : Word) (s : State) : Did :=
  let e := s.eng g
  if taken then
    let e := e.leaveLoop target
    .done (.branch target true) [] (s.setEng g (if link then e.setAlu 15 (e.pc + 8#32) else e))
  else .done (.branch (e.pc + 8#32) false) [] s

/-- LOOP (R190, R219). -/
def doLoop (g : Eng) (e9 : BitVec 9) (count : BitVec 16 ⊕ GReg) (s : State) : Did :=
  let e := s.eng g
  let n : Word := match count with
    | .inl c => c.setWidth 32
    | .inr r => (e.alu r.val) &&& 0xFFFF#32
  let le := e.pc + BitVec.ofNat 32 (4 * e9.toNat)
  let e' := { e with lc := n, ls := e.pc + 4#32, le := le, lateLoop := [], st := stSet e.st 10 (n != 0) }
  .done (.goto (if n = 0 then le + 4#32 else e.pc + 4#32)) [] (s.setEng g e')

/-- mfc (R204, R223): a read of the low timestamp word latches the high word for the next read of it (R6). -/
def doMfc (g : Eng) (rd : UReg) (cn : Fin 16) (s : State) : Did :=
  let e := s.eng g
  let ts := s.clocks.ts
  let fin (e : Engine) (v : Word) : Did := doneWith g (e.setMove rd v) s
  match cn.val with
  | 0 => fin e e.pc
  | 1 => fin e e.st
  | 2 => fin e e.epc
  | 3 => fin e e.est
  | 4 => fin e e.ecause
  | 5 => fin e e.ectx
  | 6 => fin e e.etgt
  | 7 => fin e e.ctxid
  | 8 => fin e e.ien
  | 9 => fin e e.vbase
  | 10 => fin e e.eaddr
  | 11 => fin e e.lc
  | 12 => fin e e.ls
  | 13 => fin e e.le
  | 14 => fin { e with tsh := some (ts / 2 ^ 32) } (BitVec.ofNat 32 ts)
  | _ => fin { e with tsh := none } (BitVec.ofNat 32 (e.tsh.getD (ts / 2 ^ 32)))

/-- mtc (R192, R204, R223). -/
def doMtc (g : Eng) (cn : Fin 16) (rs : UReg) (s : State) : Did :=
  let e := s.eng g
  let v := e.alu rs
  let fin (e : Engine) : Did := doneWith g e s
  match cn.val with
  | 1 =>
    let m : Word := if e.user then 0x1F#32 else 0x71F#32
    fin { e with st := (e.st &&& ~~~m) ||| (v &&& m) }
  | 2 => fin { e with epc := v }
  | 3 => fin { e with est := v &&& 0xF1F#32 }
  | 4 => fin { e with ecause := v &&& 0xFFFF01FF#32 }
  | 5 => fin { e with ectx := v &&& 0xFF#32 }
  | 6 => fin { e with etgt := v }
  | 8 => fin { e with ien := v }
  | 9 => fin { e with vbase := v &&& ~~~0xFF#32 }
  | 10 => fin { e with eaddr := v }
  | 11 => fin (e.setLoop 0 v)
  | 12 => fin (e.setLoop 1 v)
  | 13 => fin (e.setLoop 2 v)
  | _ => fin e

/-- divs (R214): a step after the 16th writes nothing, and with BAD the first register of the pair is left alone. -/
def Engine.divs (e : Engine) (rd : Nat) : Engine :=
  let st := e.alu (rd + 1)
  let r := divStep (e.alu rd) st
  if slice st.toNat 16 5 = 16 then e
  else
    let e := if st.getLsbD 24 then e else e.setAlu rd r.1
    let e := e.setAlu (rd + 1) r.2.1
    { e with st := r.2.2.apply e.st }

/-- The effect of a defined and well placed instruction. -/
def perform (g : Eng) (i : Yz) (s : State) : Did :=
  let e := s.eng g
  match i with
  | .alu op rd rs rt f =>
    let r := aluResult op (e.alu rs) (e.alu rt) (e.st.getLsbD 2)
    let e := if op.writes then e.setAlu rd r.1 else e
    doneWith g (if f || !op.writes then { e with st := r.2.apply e.st } else e) s
  | .shift op rd rs sh f =>
    let r := shiftBy op (e.alu rs) sh
    let e := e.setAlu rd r.1
    doneWith g (if f then { e with st := r.2.apply e.st } else e) s
  | .divinit rd rs rt _ =>
    let (q, st, v) := divInit (e.alu rs) (e.alu rt)
    let e := (e.setAlu rd q).setAlu (rd + 1) st
    doneWith g { e with st := stSet e.st 3 v } s
  | .divs rd _ => doneWith g (e.divs rd) s
  | .csel c rd rs rt => doneWith g (e.setAlu rd (if c.holds e.st then e.alu rs else e.alu rt)) s
  | .movi rd imm => doneWith g (e.setAlu rd (imm.signExtend 32)) s
  | .movhi rd imm => doneWith g (e.setAlu rd ((e.alu rd &&& 0xFFFF#32) ||| (imm.setWidth 32 <<< 16))) s
  | .imm op rd rs imm =>
    let r := immResult op (e.alu rs) imm
    doneWith g (if op.writes then e.setAlu rd r.1 else { e with st := r.2.apply e.st }) s
  | .load op rd rb off => doLoad g op rd rb off s
  | .store op rd rb off => doStore g op rd rb off s
  | .ldx rd rb wide => doLdx g rd rb wide s
  | .stx rd gs rb wide => doStx g rd gs rb wide s
  | .b c off => doBranch g (c.holds e.st) false (e.pc + (off.signExtend 32 <<< 2)) s
  | .bl off => doBranch g true true (e.pc + (off.signExtend 32 <<< 2)) s
  | .jr c rb => doBranch g (c.holds e.st) false (e.alu rb &&& ~~~3#32) s
  | .jlr c rb => doBranch g (c.holds e.st) true (e.alu rb &&& ~~~3#32) s
  | .repeat c => .done (.repeat (e.repCount c)) [] s
  | .loop e9 c => doLoop g e9 c s
  | .dsp op a xi yi xu yu lm => doDsp g op a xi yi xu yu lm s
  | .ext rd a k sat =>
    let r := extract ((e.seenLanes a).getD k 0) sat
    let e := e.setMove rd (r.1.signExtend 32)
    doneWith g (if r.2 then { e with st := stSet e.st 4 true } else e) s
  | .exst y a sat pi u =>
    let rs := (e.seenLanes a).map (extract · sat)
    storeXy g y pi u (packHalves (rs.map (·.1.toNat))) (rs.any (·.2)) s
  | .gst y a h pi u => storeXy g y pi u (packHalves ((e.seenLanes a).map (fun l => slice l.toNat (16 * h.toNat) 16))) false s
  | .mfa rd a k => doneWith g (e.setMove rd (((e.seenLanes a).getD k 0).setWidth 32)) s
  | .mfah rd a => doneWith g (e.setMove rd (BitVec.ofNat 32 (guardBytes (e.seenLanes a)))) s
  | .mta a k rs => doneWith g (e.setLanes a ((e.lanes a).set k ((e.alu rs.val).signExtend 40))) s
  | .mtah a rs => doneWith g (e.setLanes a (guardLanes (e.alu rs.val) 0 (e.lanes a))) s
  | .clra a => doneWith g (e.setLanes a [0, 0, 0, 0]) s
  | .sha a n => doneWith g (e.setLanes a ((e.lanes a).map (shaLane n))) s
  | .nop => .done .next [] s
  | .fence =>
    if e.posted.isEmpty then doneWith g { e with oldWords := [] } s
    else .stall (takeStores g e.posted.length (s.setEng g { e with fencing := true }))
  | .wait => .done .feather [] s
  | .clrex => doneWith g { e with rsv := none, atom := none } s
  | .reti => .done .reti [] s
  | .svc num => .done (.svc num.toNat) [] s
  | .mfc rd cn => doMfc g rd cn s
  | .mtc cn rs => doMtc g cn rs s

/-! Retirement (R184, R189, R190, R196). -/

/-- The end-of-loop test after the instruction at pc (R190). -/
def Engine.afterPc (e : Engine) : Engine :=
  if e.atLe then
    if 1 < e.testLc.toNat then
      { e with lc := e.testLc - 1#32, pc := e.testLs, lateLoop := e.lateLoop.filter (fun l => l.which ≠ 0) }
    else if e.testLc.toNat = 1 then
      { e with lc := 0, st := stSet e.st 10 false, pc := e.pc + 4#32,
               lateLoop := e.lateLoop.filter (fun l => l.which ≠ 0) }
    else { e with pc := e.pc + 4#32 }
  else { e with pc := e.pc + 4#32 }

/-- What follows an instruction that does not redirect execution: the next iteration of a REPEAT, the end of a slot, or
the end-of-loop test. -/
def Engine.advance (e : Engine) : Engine :=
  match e.rep with
  | some r => if r.done + 1 < r.count then { e with rep := some { r with done := r.done + 1 } } else { e with rep := none }.afterPc
  | none => match e.slot with
    | some (t, _) => { e with pc := t, slot := none }
    | none => e.afterPc

/-- The engine after an instruction with the given flow. -/
def Engine.follow (e : Engine) : Flow → Engine
  | .next => e.advance
  | .branch cont taken => { e with pc := e.pc + 4#32, slot := some (cont, taken) }
  | .goto pc => { e with pc := pc }
  | .repeat n => { e with pc := e.pc + 4#32, rep := some ⟨e.pc, n, 0⟩ }
  | .reti =>
    { e with
      pc := e.epc
      st := stSet e.est 11 false
      ctxid := e.ectx
      slot := if e.est.getLsbD 11 then some (e.etgt, true) else none }
  | .feather | .svc _ => e.advance
  | .gone => e

/-- Some interrupt line is pending and enabled (R198, R201). -/
def lineReady (s : State) (g : Nat) : Bool := (s.get (ENG_IRQ_PEND_PEND g) &&& (s.eng g).ien.toNat) != 0

/-- An instruction retires. -/
def retire (g : Nat) (flow : Flow) (acc : List Access) (s : State) : State :=
  if flow = .gone then s
  else
    let s := s.setEng g ((s.eng g).follow flow).tick
    let s := match flow with
      | .svc n => takeException g { code := 0x0A, info := n } s
      | .feather => if lineReady s g then s else s.put (ENG_STATUS_STATE g) 2
      | _ => s
    slotBoundary g (endStep g (watchData g acc s))

/-- An instruction that did not complete as itself: its exception, with the atomic sequence it may have been in. -/
def trapped (g : Nat) (x : Exc) (s : State) : State := endStep g (takeException g x s)

/-- What follows what an instruction did. -/
def conclude (g : Nat) : Did → State
  | .done flow acc s => retire g flow acc s
  | .trap x s => trapped g x s
  | .stall s => s

/-! Issue. -/

/-- The engine executes instructions: its clock runs, its partition's memories have been filled (R57), it is released and
running, and neither a request nor a FENCE holds its pipeline (R176, R185). -/
def engReady (s : State) (g : Nat) : Bool :=
  runs s (engDomain g) && s.clocks.filled.contains (engPart g) && !partFailed s (engPart g) && !inEasy s (engPart g) && !s.clocks.halted
    && s.on (ENG_CTRL_RUN g) && s.get (ENG_STATUS_STATE g) == 1 && (s.eng g).wait.isNone && (s.eng g).blocked.isNone
    && !(s.eng g).fencing

/-- The issue of an instruction inside an atomic sequence (R191): the 16th one after the LDX ends it, unless it is an STX. -/
def Engine.countAtomic (e : Engine) (i : Yz) : Engine :=
  match e.atom with
  | some n => if n + 1 = 16 ∧ !i.isStx then { e with atom := none, rsv := none } else { e with atom := some (n + 1) }
  | none => e

/-- The word that a fetch finds: none where it lies outside IMEM or the regions forbid it; an uncorrectable byte. -/
def fetchable (s : State) (g : Nat) : Bool := (s.eng g).pc.toNat < 0x8000 && allowed s g .fetch (s.eng g).pc.toNat

/-- A word is instruction `i`; none stands for the undefined ones. -/
def isWord (i : Option Yz) (w : Word) : Bool :=
  match i with
  | some i => decodeYezar w == some i
  | none => !((decodeYezar w).any (·.isDefined))

/-- The word that IMEM holds at the pc, or an old one that a FENCE has not discarded (R188), is what the engine issues. A word of
zeros, which is what IMEM holds before a program is written there, stands for whatever the command names (assumption 47). -/
def Engine.mayRun (e : Engine) (w : Nat) (i : Option Yz) : Bool :=
  w == 0 || isWord i (BitVec.ofNat 32 w) || e.oldWords.any (fun o => o.1 == e.pc.toNat / 4 && isWord i o.2.1)

/-- The engine takes a word from fetch: exceptions 0x07 and 0x01, then the instruction. The engine cannot have issued an
instruction that stands neither in IMEM nor in the pipeline: nothing is executed (assumption 47). -/
def issue (g : Eng) (i : Option Yz) (s : State) : State :=
  if !fetchable s g then trapped g { code := 0x01 } s
  else
    let (w, ue, s) := readLocal s g 0 (s.eng g).pc.toNat 4
    if ue then trapped g { code := 0x07 } s
    else if !(s.eng g).mayRun w i then s
    else match i with
      | none => trapped g { code := 0x01 } s
      | some i =>
        let s := s.setEng g ((s.eng g).countAtomic i)
        match (s.eng g).earlyFault i with
        | some c => trapped g { code := c } s
        | none => conclude g (perform g i s)

/-- A halt request that waits stops the engine at the next clean boundary (R379), or where it is forced (R380). -/
def haltWaits (s : State) (g : Nat) (i : Option Yz) : Bool :=
  let e := s.eng g
  e.haltReq.isSome && (e.clean i || (e.haltForce && e.slot.isNone && e.wait.isNone && e.blocked.isNone))

/-- A Yezar command: engine `g` issues an instruction. The command stands for the word that the engine fetches; where the
engine does not execute, or halts first, nothing is executed. -/
def runYezar (g : Eng) (i : Option Yz) (s : State) : State :=
  if !engReady s g || haltWaits s g i then s
  else
    let s := watchFetch g s
    if haltWaits s g i then s else issue g i s

end Sys2Proof.Machine
end

