-- ==== Sys2Proof/Machine/Loader.lean ====
section
/-! DEFINITION. Loading images (spec/05, R109 to R135): sources and their order, the checks in their order, payload records,
Bamid, the host-bus stream, and start-up. What signatures, key unwrap and tag come to is the operand of a command (assumption 1). -/

namespace Sys2Proof.Machine

/-! Sources and failure (R121 step F, R123). -/

/-- The order of sources that the BOOT_SEL strap names: 1 slot A, 2 slot B, 3 host bus, 4 Coxswain port. -/
def bootOrder (s : State) : List Nat :=
  match s.get RST_STRAP_BOOT_SEL with
  | 1 => [3]
  | 2 => [4]
  | _ => [1, 2, 3]

/-- The source after one that failed: the next of the order; the last again; the first where the order does not hold it. -/
def sourceAfter (order : List Nat) (src : Nat) : Nat :=
  match order.findIdx? (· == src) with
  | some i => order.getD (i + 1) src
  | none => order.headD 3

/-- The extent of a slot of the store, and where area C begins (R109). -/
def storeSlotSize : Nat := 0x34000000
def areaC : Nat := 0x68000000

/-- A load of a source begins: its header is due. -/
def beginLoad (l : Load) (s : State) : State :=
  (s.onConfig (fun c => { c with load := some l, waitSrc := none, stream := {} })).puts
    [(CFG_STATUS_SOURCE, l.src), (CFG_HLOAD_CTRL_ACTIVE, (l.src == 3).toNat), (CFG_HLOAD_CTRL_WAITING, 0), (CFG_STATUS_STATE, 2)]

/-- The loader waits on the host bus or on the Coxswain port: no load is in progress until the stream begins (R123, R125, R126). -/
def waitOn (src : Nat) (s : State) : State :=
  let s := (s.onConfig (fun c => { c with waitSrc := some src, stream := {} })).puts
    [(CFG_STATUS_SOURCE, src), (CFG_HLOAD_CTRL_ACTIVE, 0), (CFG_HLOAD_CTRL_WAITING, (src == 3).toNat),
      (CFG_STATUS_STATE, if src = 3 then 0xB else 0xC)]
  if src = 3 then raiseCfg CFG_CAUSE_HWAIT s else s

/-- An attempt on a source of the boot order begins: a slot is read, the host bus and the Coxswain port are waited for. -/
def startSource (src : Nat) (s : State) : State :=
  if src = 3 ∨ src = 4 then waitOn src s
  else beginLoad { src := src, isPart := false, addr := (src - 1) * storeSlotSize, inStore := true } s

/-- The boot order from its first source, or the slot that a wake from Moored reloads from. -/
def bootLoad (s : State) : State :=
  let last := s.config.lastSrc
  startSource (if s.config.reload && (last == 1 || last == 2) then last else (bootOrder s).headD 3)
    (s.onConfig (fun c => { c with restart := false, next := none }))

/-- The clear in progress has ended (steps 3 and F of R121, step 5 of R141): the next source's attempt begins, records are taken, a
partial image's frames are written. -/
def clearDone (s : State) : State :=
  let s := if s.get CFG_PR_STATUS_PHASE = 3 then s.put CFG_PR_STATUS_PHASE 4 else s
  match s.config.next with
  | some src => startSource src (s.onConfig (fun c => { c with next := none }))
  | none => if s.get CFG_STATUS_STATE = 6 then s.put CFG_STATUS_STATE 4 else s

/-- The cause of a failed attempt recorded: CFG_STATUS.CAUSE, the source's byte of CFG_FAIL, CFG_CAUSE.FAIL. -/
def recordFailure (src cause : Nat) (s : State) : State :=
  let s := s.put CFG_STATUS_CAUSE cause
  let s := match src with
    | 1 => s.put CFG_FAIL_A cause
    | 2 => s.put CFG_FAIL_B cause
    | 3 | 5 => s.put CFG_FAIL_HOST cause
    | 4 => s.put CFG_FAIL_DBG cause
    | _ => s
  raiseCfg CFG_CAUSE_FAIL s

/-- A partial load fails at its steps 1 to 3 (R142): no frame written, the old region runs on. -/
def partLoadFails (cause : Nat) (s : State) : State :=
  let s := s.onConfig (fun c => { c with load := none })
  raiseCfg CFG_CAUSE_FAIL (s.puts [(CFG_PR_STATUS_BUSY, 0), (CFG_PR_STATUS_PHASE, 0), (CFG_PR_STATUS_CAUSE, cause)])

/-- A load attempt fails with a cause (step F of R121): before step 3 the next source follows at once; later the frames written are
cleared first, which CFG_STATUS.STATE shows (assumption 85). -/
def loadFails (cause : Nat) (s : State) : State :=
  match s.config.load with
  | none => s
  | some l =>
    if l.isPart then partLoadFails cause s
    else
      let next := sourceAfter (bootOrder s) l.src
      let t := recordFailure l.src cause (s.onConfig (fun c => { c with load := none, loading := false }))
      if s.config.loading then
        (clearSectors (List.range 128) t).onConfig (fun c => { c with next := some next }) |>.puts
          [(CFG_STATUS_STATE, 6), (CFG_HLOAD_CTRL_ACTIVE, 0)]
      else startSource next t

/-- The load in progress replaced. -/
def setLoad (l : Load) (s : State) : State := s.onConfig (fun c => { c with load := some l })

/-- A full load's step, which CFG_STATUS.STATE shows. -/
def setPhase (l : Load) (k : Nat) (s : State) : State := (setLoad { l with phase := k } s).put CFG_STATUS_STATE k

/-! Reading a source (R109, R112, R126, R375). -/

/-- `n` bytes of the store from offset `a`, the first as the lowest. -/
def storeNum (s : State) (a n : Nat) : Nat :=
  (s.config.store.filter (fun e => a ≤ e.1 && e.1 < a + n)).foldl (fun v e => v + e.2.toNat * 2 ^ (8 * (e.1 - a))) 0

/-- A page of the store that cannot be corrected is found (R112): it is counted, NV_UE is raised, and the page stays bad until its block
is erased. -/
def findBadPage (p : Nat) (s : State) : State :=
  raiseCfg CFG_CAUSE_NV_UE ((s.count CFG_NV_STATUS_UE_PAGES).onConfig (fun c => { c with badPages := setAdd c.badPages p }))

/-- A byte of the staging memory that cannot be corrected is recorded (R99); its place is free (assumption 82). -/
def stagingBad (s : State) : State := logSomewhere 20 21 (s.free.1.toNat / 2 ^ 26) (2 ^ 20) s

/-- What reading `n` bytes from byte `o` of a load's image comes to: the cause of failure, none where they are read. A page of the store
that is known as bad is found again. -/
def readCause (l : Load) (o n : Nat) (r : SourceRead) (s : State) : Option Nat × State :=
  let a := l.addr + o
  let bad := if l.inStore then s.config.badPages.find? (fun p => a / 4096 ≤ p && p ≤ (a + n - 1) / 4096) else none
  match r, bad with
  | .badPage p, _ => (some 0x13, if l.inStore then findBadPage p s else s)
  | .failed, _ => (some 0x13, s)
  | .staging, _ => if l.isPart then (some 0x23, stagingBad s) else (none, s)
  | .good, some p => (some 0x13, findBadPage p s)
  | .good, none => (none, s)

/-- The bytes of the stream that a load from the host bus or the Coxswain port takes; none where they have not come yet. -/
def takeStream (l : Load) (n : Nat) (s : State) : Option (Nat × State) :=
  if l.isPart ∨ (l.src ≠ 3 ∧ l.src ≠ 4) then some (0, s)
  else
    let x := s.config.stream
    if x.len < n then none
    else some (x.bits % 2 ^ (8 * n), s.onConfig (fun c => { c with stream := ⟨x.len - n, x.bits / 2 ^ (8 * n)⟩ }))

/-- The first 8 KiB of a load's image: from the store, the stream or the device memory that the state holds; else as the command gives
them. None where the stream has not brought them yet. -/
def readHead (l : Load) (given : Nat) (s : State) : Option (Nat × SourceRead × State) :=
  if l.inStore then some (storeNum s l.addr 0x2000, .good, s)
  else if !l.isPart && (l.src == 3 || l.src == 4) then (takeStream l 0x2000 s).map (fun e => (e.1, .good, e.2))
  else if (plainOf l.addr).isSome then
    let (b, st, s) := rangeRead { plainAccess .config with control := true } l.addr 0x2000 s
    some (fromBytes b, if st = .ok then .good else .failed, s)
  else some (given, .good, s)

/-- How the read of the first 8 KiB of an image in device memory stands (R310, R354); from anywhere else it goes on. -/
def headTurn (l : Load) (s : State) : Turn × State :=
  if l.inStore || (!l.isPart && (l.src == 3 || l.src == 4)) then (.go, s) else plainTurn (transferAsk .config 1 l.addr 0x2000 0) s

/-! Header checks (R115, R116, R121 step 1, R122, R138, R139). -/

/-- DEVSET fits the device (R116). -/
def devsetFits (s : State) (d : Nat) : Bool :=
  let grade := slice d 6 2
  let step := s.get HUB_REV_STEP_LETTER * 16 + s.get HUB_REV_STEP_DIGIT
  d / 2 ^ 16 == s.get HUB_ID_DEVICE && slice d 8 8 ≤ step && grade != 0 && grade ≤ s.get HUB_REV_GRADE
    && (!d.testBit 5 || s.on HUB_REV_TEMP) && d % 32 == 0

/-- Some die of a mask is marked failed. -/
def maskHitsFailed (s : State) (mask : Nat) : Bool := (List.range 4).any (fun d => mask.testBit d && partFailed s d)

/-- DIE_MASK is good for the kind (R122, step 1 of R141). -/
def dieMaskGood (s : State) (h : ImgHeader) : Bool :=
  let m := h.dieMask.toNat
  match h.kind.toNat with
  | 1 => m != 0 && m < 16 && (!maskHitsFailed s m || h.flags.toNat.testBit 0)
  | 2 => h.region.die.toNat < 4 && m == 2 ^ h.region.die.toNat && (!maskHitsFailed s m || h.flags.toNat.testBit 0)
  | _ => m == 0

/-- Lengths and reserved bytes are good. -/
def lengthsGood (s : State) (l : Load) (h : ImgHeader) : Bool :=
  let total := 0x2000 + h.payloadLen.toNat
  let most := match l.size with
    | some k => k
    | none => if l.src = 1 ∨ l.src = 2 then s.get (CFG_NV_LEN_LEN (l.src - 1)) else total
  !h.reserved && h.flags.toNat < 2 && total ≤ most
    && (if h.kind.toNat = 2 then total ≤ 64 * 2 ^ 20 && h.regionLen.toNat == 16 + 16 * h.region.idles.length && h.region.idles.length ≤ 123
        else h.regionLen.toNat == 0 && total ≤ 832 * 2 ^ 20)

/-- The kinds a path takes: a partial image, Bamid from area C (sources 6 and 7), channel firmware (8); else a full image, and Bamid over
the host bus while both its copies have failed (R126). -/
def kindAllowed (s : State) (l : Load) (k : Nat) : Bool :=
  if l.isPart then k == 2
  else match l.src with
    | 6 | 7 => k == 3
    | 8 => k == 4
    | src => k == 1 || (k == 3 && src == 3 && s.on CFG_STATUS_BAMID_FAIL)

/-- A slot fails before a byte of it is read: its LEN is 0, or it is being written (R110). -/
def slotEmpty (s : State) (l : Load) : Bool :=
  (l.src == 1 || l.src == 2) && !l.isPart && (s.get (CFG_NV_LEN_LEN (l.src - 1)) == 0 || s.on (CFG_NV_SLOT_BUSY (l.src - 1)))

/-- Step 1 of R121 on a header that has been read: the cause of failure, none where every check passes. A partial image at a device
address with a key identifier cannot be read (R140, assumption 86). -/
def headerCause (s : State) (l : Load) (h : ImgHeader) : Option Nat :=
  if l.isPart && !l.inStore && 2 ^ 48 ≤ l.addr then some 0x13
  else if h.magic.toNat ≠ 0x474D493944585A55 then some 0x01
  else if h.verMajor.toNat ≠ 1 then some 0x02
  else if !devsetFits s h.devset.toNat then some 0x03
  else if !kindAllowed s l h.kind.toNat then some 0x05
  else if !dieMaskGood s h then some 0x04
  else if !lengthsGood s l h then some 0x06
  else none

/-- The receive port of an idle entry (R138): sector × 32 + port. -/
def idlePort (e : IdleEntry) : Nat := (e.dstDie.toNat * 32 + e.dstSector.toNat) * 32 + e.rxPort.toNat

/-- The region descriptor holds (R139): the cause of failure, none where it does. The bundles are those of the loaded full image. -/
def regionCause (s : State) (h : ImgHeader) : Option Nat :=
  let r := h.region
  let reg := (r.die.toNat, r.row.toNat, r.col.toNat, r.size.toNat)
  let xs := regionSectors reg
  let named := r.idles.map idlePort
  let idleGood (e : IdleEntry) : Bool :=
    let x := e.dstDie.toNat * 32 + e.dstSector.toNat
    e.dstDie.toNat < 4 && e.dstSector.toNat < 32 && !xs.contains x && s.config.imgBundles.any (fun b =>
      !b.2.stream && b.2.dst == x && b.2.rxPort == e.rxPort.toNat && xs.contains b.2.src)
  if !s.config.regions.contains reg || r.col.toNat % 2 ^ r.size.toNat != 0 || !r.idles.all idleGood || !named.Nodup then some 0x20
  else if r.banks.toNat ≠ ((List.range 3).foldl (fun m k => m + (xs.contains (bankOwner (3 * r.die.toNat + k))).toNat * 2 ^ k) 0)
  then some 0x24
  else if h.owner.toNat ≠ s.get CFG_IMG_OWNER then some 0x25
  else none

/-- What the loader keeps of a header. -/
def Load.withHeader (l : Load) (s : State) (head : Nat) : Load :=
  let h := parseHeader head
  let r := h.region
  { l with
    head := head, payloadLen := h.payloadLen.toNat
    kind := h.kind.toNat, dies := h.dieMask.toNat, owner := h.owner.toNat, verMinor := h.verMinor.toNat
    frameCount := h.frameCount.toNat, degraded := maskHitsFailed s h.dieMask.toNat
    region := if l.isPart then regionSectors (r.die.toNat, r.row.toNat, r.col.toNat, r.size.toNat) else []
    order := if l.isPart then r.order.toNat else 0, gap1 := r.gap1.toNat, gap2 := r.gap2.toNat, lockTo := r.lockTo.toNat
    idles := if l.isPart then r.idles.map (fun e => (idlePort e, e.idle)) else [] }

/-- The header of a partial load checked: its region is shown, and its descriptor must hold (step 1 of R141). -/
def checkPartHeader (l : Load) (head : Nat) (s : State) : State :=
  let h := parseHeader head
  let r := h.region
  let s := s.puts [(CFG_PR_STATUS_DIE, r.die.toNat), (CFG_PR_STATUS_ROW, r.row.toNat), (CFG_PR_STATUS_COL, r.col.toNat),
    (CFG_PR_STATUS_SIZE, r.size.toNat)]
  match (headerCause s l h).or (regionCause s h) with
  | some c => loadFails c s
  | none => setLoad (l.withHeader s head) s

/-- The header of a full load checked (step 1 of R121). -/
def checkHeader (l : Load) (head : Nat) (s : State) : State :=
  match headerCause s l (parseHeader head) with
  | some c => loadFails c s
  | none =>
    let l := l.withHeader s head
    let s := setPhase l 3 s
    if l.degraded then s.flag CFG_STATUS_DEGRADED true else s

/-- The first 8 KiB of the image are read and checked; `r`: how the command says that the read ended. -/
def takeHead (l : Load) (head : Nat) (given : SourceRead) (s : State) : State :=
  match readHead l head s with
  | none => s
  | some (h, r, s) =>
    match readCause l 0 0x2000 (if r = .good then given else r) s with
    | (some c, s) => loadFails c s
    | (none, s) => if l.isPart then checkPartHeader l h s else checkHeader l h s

/-- LOAD_HEADER_CHECK (R110, R121, R141): the load in progress reads the first 8 KiB of its image. A read that has to wait at its source
is made when the command comes again. -/
def execLoadHeaderCheck (head : BitVec 65536) (srcErr : SourceRead) (s : State) : Res :=
  let s := clearDone s.begin
  match s.config.load with
  | none => .next s
  | some l =>
    if (if l.isPart then l.kind ≠ 0 else l.phase ≠ 2) then .next s
    else if slotEmpty s l then .next (loadFails 0x06 s)
    else match headTurn l s with
      | (.wait, s) => .next (s.emit .held)
      | (.fail, s) => .next (loadFails 0x13 s)
      | (.go, s) => .next (takeHead l head.toNat srcErr s)

/-! Signatures, and the fabric held (R118, R121 steps 2 and 3, R128). -/

/-- Step 2 of R121 on the first 8 KiB of an image: the cause of failure. -/
def signatureCause (s : State) (head : Nat) (g : ImgSignatures) : Option Nat :=
  let owner := headField head 0x300 1
  if 4 ≤ owner ∨ !s.on (SEC_OWNER_PROGRAMMED owner) ∨ s.on (SEC_OWNER_REVOKED owner) then some 0x07
  else if keyDigest head ≠ smGet 0 s.security.digests owner then some 0x08
  else if !g.ed then some 0x09
  else if !g.mldsa then some 0x0A
  else if !headerDigestsGood head then some 0x0B
  else if headField head 0x1800 1 ≠ 1 ∨ !g.unwraps then some 0x0C
  else none

/-- Step 3: every sector is held and cleared, the dies outside DIE_MASK with it; a start-up in progress is abandoned; no
image is loaded, and CFG_DONE is driven low (R130). -/
def holdForLoad (l : Load) (s : State) : State :=
  let xs := List.range 128
  let s := clearSectors xs (setRegionBusy xs false (setConfigured xs false (holdSectors xs s)))
  let s := putWords CFG_MEAS_MEAS 16 0 (s.puts [(CFG_IMG_OWNER, 0), (CFG_IMG_DIES, 0), (CFG_IMG_VER_MINOR, 0),
    (CFG_STATUS_DONE_WAIT, 0), (CFG_STATUS_SU_PARTIAL, 0), (CFG_STATUS_ORDER_RSVD, 0), (CFG_STATUS_DEGRADED, l.degraded.toNat)])
  { s with
    clocks := { s.clocks with bundles := [] }
    config := { s.config with loading := true, startups := [], regions := [], imgBundles := [], doneLow := true, donePin := false } }

/-- Steps 2 and 3 passed: a full image's fabric is held; where something has been written to it, it is being cleared. -/
def signaturesPass (l : Load) (s : State) : State :=
  let l := { l with signed := true }
  if l.isPart then (setLoad l s).put CFG_PR_STATUS_PHASE (if l.total.isSome then 2 else 1)
  else
    let written := !s.onchip.frames.isEmpty
    let s := setPhase l 4 s
    if l.kind ≠ 1 then s
    else (holdForLoad l s).put CFG_STATUS_STATE (if written then 6 else 4)

/-- LOAD_SIGNATURES_DONE (R118, R121, R141). -/
def execLoadSignaturesDone (sig : ImgSignatures) (s : State) : Res :=
  let s := s.begin
  match s.config.load with
  | none => .next s
  | some l =>
    if l.signed ∨ (if l.isPart then l.kind = 0 else l.phase ≠ 3) then .next s
    else match signatureCause s l.head sig with
      | some c => .next (loadFails c s)
      | none => .next (signaturesPass l s)

/-! Payload records (R119, R120). -/

/-- A frame's bytes in configuration memory, with its check bits; the contents of Ingots and Billets also in the memories. -/
def putFrameBytes (key : Nat) : List Byte → State → State
  | [], s => s
  | b :: l, s =>
    let w := if b = 0 then (0 : Coded) else encodeByte b
    let s := match contentKey key with
      | some k => putWord s k w
      | none => s
    putFrameBytes (key + 1) l { s with onchip := { s.onchip with frames := smSet 0 s.onchip.frames key w } }

/-- Frames of one sector from frame `f` on, 512 bytes each; they follow one another in the keys. -/
def putFrames (x f : Nat) (data : List Byte) (s : State) : State := putFrameBytes (frameKey x f 0) data s

/-- The sector that a frame address names. -/
def addrSector (a : Nat) : Nat := a / 2 ^ 30 * 32 + slice a 25 5

/-- A FRAMES record's header is bad (R119). -/
def badFrames (word0 addr count word3 dies : Nat) : Bool :=
  word0 != 1 || addr % 2 ^ 11 != 0 || !dies.testBit (addr / 2 ^ 30) || count == 0 || 12288 < slice addr 11 14 + count || word3 != 0

/-- A load takes payload records; after END every byte that follows is an error. -/
def takesRecords (l : Load) : Bool := if l.isPart then l.kind != 0 && l.decl.isNone else l.phase == 4 || l.phase == 5

/-- The payload bytes of a record of `n` bytes of data are taken. -/
def Load.took (l : Load) (n : Nat) : Load := { l with pos := l.pos + 16 + n }

/-- A record of a load with `n` bytes of data: once its bytes have come, where one is taken, what it does. One that begins behind END is
an error (R119). -/
def onRecord (n : Nat) (r : SourceRead) (f : Load → State → State) (s : State) : Res :=
  let s := clearDone s.begin
  match s.config.load with
  | none => .next s
  | some l =>
    if !takesRecords l then .next s
    else match takeStream l (16 + n) s with
      | none => .next s
      | some (_, s) =>
        match readCause l (0x2000 + l.pos) (16 + n) r s with
        | (some c, s) => .next (loadFails c s)
        | (none, s) => .next (if l.total.isSome then loadFails 0x0D s else f (l.took n) s)

/-- FRAMES_RECORD (R119, R120, R122, R141). A partial image's frames are staged in the Boathouse. -/
def execFramesRecord (word0 addr count word3 : Word) (data : List Byte) (srcErr : SourceRead) (s : State) : Res :=
  onRecord (count.toNat * 512) srcErr (fun l s =>
    let x := addrSector addr.toNat
    let f := slice addr.toNat 11 14
    let bytes := padBytes data (count.toNat * 512)
    if l.kind = 3 then loadFails 0x0D s
    else if badFrames word0.toNat addr.toNat count.toNat word3.toNat (if l.isPart then 15 else l.dies) then loadFails 0x0D s
    else
      let l' := { l with written := l.written + count.toNat }
      if l.isPart then
        if !l.region.contains x then loadFails 0x21 s
        else setLoad { l' with staged := l.staged ++ (List.range count.toNat).map (fun i =>
          (x * 12288 + f + i, fromBytes ((bytes.drop (512 * i)).take 512))) } s
      else setLoad l' (if partFailed s (x / 32) then s else putFrames x f bytes s)) s

/-- The fields of a register location that take their value from the image, with a written word's values. -/
def imageFields (a v : Nat) : List (Fld × Nat) :=
  match rowOf a with
  | some (r, ix) => (r.fields.filter (·.kind == .image)).map (fun f => (f.ref a ix, slice v f.lo f.w))
  | none => []

/-- SETTING_RECORD (R119, R141). -/
def execSettingRecord (word0 off value word3 : Word) (s : State) : Res :=
  onRecord 0 .good (fun l s =>
    if l.kind = 3 then loadFails 0x0D s
    else if l.isPart then loadFails 0x22 s
    else if word0.toNat ≠ 2 ∨ word3.toNat ≠ 0 ∨ 64 ≤ l.settings.length ∨ 0x4000000 ≤ off.toNat
        ∨ (imageFields (0x030000000000 + off.toNat) 0).isEmpty then loadFails 0x0D s
    else setLoad { l with settings := l.settings ++ [(off.toNat, value.toNat)] } s) s

/-- END_RECORD (R119): the tag must follow at once. -/
def execEndRecord (word0 total word2 word3 : Word) (s : State) : Res :=
  onRecord 0 .good (fun l s =>
    if word0.toNat ≠ 0x0F ∨ word2.toNat ≠ 0 ∨ word3.toNat ≠ 0 ∨ l.pos + 16 ≠ l.payloadLen then loadFails 0x0D s
    else
      let l := { l with total := some total.toNat }
      if l.isPart then (setLoad l s).put CFG_PR_STATUS_PHASE (if l.signed then 2 else 1) else setPhase l 5 s) s

/-! MEM records of Bamid and of channel firmware (R125, R255). -/

/-- Bytes written by the configuration path into an on-chip memory. -/
def pathWrite (p unit inst addr : Nat) : List Byte → State → State
  | [], s => s
  | b :: l, s => pathWrite p unit inst (addr + 1) l (pathStore s p unit inst addr (if b = 0 then 0 else encodeByte b))

/-- The same over a memory of several instances of equal size. -/
def pathWriteBanks (p unit size addr : Nat) : List Byte → State → State
  | [], s => s
  | b :: l, s => pathWriteBanks p unit size (addr + 1) l (pathWrite p unit (addr / size) (addr % size) [b] s)

/-- A MEM record of a Bamid image is good. -/
def bamidRecordGood (r : MemRecord) : Bool :=
  let t := r.word1.toNat / 2 ^ 28
  let off := r.word1.toNat % 2 ^ 28
  let len := r.word2.toNat
  let a := r.word3.toNat % 64
  let b := slice r.word3.toNat 8 6
  len % 4 == 0 && match t with
    | 0 | 1 | 2 => off + len ≤ 0x8000 && a ≤ 3 && b ≤ 3 && a ≤ b
    | 3 => off + len ≤ 0x200000 || (0x780000 ≤ off && off + len ≤ 0x800000)
    | _ => false

/-- A MEM record of a Bamid image written. -/
def writeBamidRecord (r : MemRecord) (s : State) : State :=
  let t := r.word1.toNat / 2 ^ 28
  let off := r.word1.toNat % 2 ^ 28
  let data := padBytes r.data r.word2.toNat
  if t < 3 then
    (List.range 4).foldl (fun s g => if r.word3.toNat % 64 ≤ g ∧ g ≤ slice r.word3.toNat 8 6 then pathWrite 20 g t off data s else s) s
  else pathWriteBanks 20 24 0x80000 off data s

/-- Engines released at ENG_BOOT.PC = 0. -/
def releaseEngines (gs : List Nat) (s : State) : State :=
  gs.foldl (fun s g => startCore g 0 (s.puts [(ENG_BOOT_PC g, 0), (ENG_CTRL_RUN g, 1)])) s

/-- MEM_RECORD (R119, R125, R126, R255): in a host-bus load of Bamid; in any other load it is a record error. -/
def execMemRecord (word0 : Word) (rec : MemRecord) (srcErr : SourceRead) (s : State) : Res :=
  onRecord rec.word2.toNat srcErr (fun l s =>
    if l.kind ≠ 3 ∨ word0.toNat ≠ 4 ∨ !bamidRecordGood rec then loadFails 0x0D s else setLoad l (writeBamidRecord rec s)) s

/-- The records of a payload of MEM records and END (R125, R255), from byte `pos` of the payload on: those to be written, and the cause of
failure: 0x0D for any other record, a bad one or bytes behind END; 0x0E where END is missing or counts frames. -/
def memPayload (good : MemRecord → Bool) (len pos : Nat) : List (Word × MemRecord) → List MemRecord × Option Nat
  | [] => ([], some 0x0E)
  | (w, r) :: l =>
    if w.toNat = 0x0F then
      ([], if !l.isEmpty || r.word2.toNat != 0 || r.word3.toNat != 0 || pos + 32 != len then some 0x0D
        else if r.word1.toNat = 0 then none else some 0x0E)
    else if w.toNat ≠ 4 ∨ !good r then ([], some 0x0D)
    else
      let (rs, c) := memPayload good len (pos + 16 + r.word2.toNat) l
      (r :: rs, c)

/-- Steps 1 and 2 of R121 on an image of MEM records: the cause of failure, and what was read of it. -/
def memHeader (l : Load) (given : Nat) (c : ImgChecks) (s : State) : Option Nat × Nat × State :=
  match readHead l given s with
  | none => (some 0x13, 0, s)
  | some (h, r, s) =>
    let (cause, s) := readCause l 0 0x2000 (if r = .good then c.read else r) s
    ((cause.or (headerCause s l (parseHeader h))).or (signatureCause s h c.sig), h, s)

/-- Steps 4 and 5 of R121 on the payload of an image of MEM records: the records to be written, and the cause of failure. -/
def memChecks (l : Load) (h : Nat) (good : MemRecord → Bool) (c : ImgChecks) (records : List (Word × MemRecord)) (s : State) :
    List MemRecord × Option Nat × State :=
  let hd := parseHeader h
  let (bad, s) := readCause l 0x2000 hd.payloadLen.toNat c.read s
  let (rs, rec) := memPayload good hd.payloadLen.toNat 0 records
  let final := if hd.frameCount.toNat ≠ 0 then some 0x0E else if !c.tag then some 0x10
    else if c.sha.toNat ≠ payloadSha h then some 0x11 else if c.shake.toNat ≠ payloadShake h then some 0x12 else none
  (rs, (bad.or rec).or final, s)

/-- Where copy 1 or 2 of Bamid stands: in area C, with at most 16 MiB (R109); its source is 6 or 7. -/
def bamidSource (k : Nat) : Load :=
  { src := 6 + k, isPart := false, addr := areaC + k * 0x1000000, inStore := true, size := some 0x1000000 }

/-- Copy `k` (0 or 1) of Bamid tried (R125): the cause of failure, the bytes of its first 8 KiB, and the machine with the records up to
the failure written. -/
def tryBamid (k : Nat) (c : BamidCopy) (s : State) : Option Nat × Nat × State :=
  match memHeader (bamidSource k) 0 c.checks s with
  | (some cause, h, s) => (some cause, h, s)
  | (none, h, s) =>
    let (rs, cause, s) := memChecks (bamidSource k) h bamidRecordGood c.checks c.records s
    (cause, h, rs.foldl (fun s r => writeBamidRecord r s) s)

/-- What follows a load of Bamid: the loaded image stays in service after a reset of the hub alone, else the boot order. -/
def afterBamid (s : State) : State :=
  if s.get CFG_IMG_DIES ≠ 0 ∧ !s.config.restart then s.put CFG_STATUS_STATE 0xA else bootLoad s

/-- Bamid runs: the engines are released, BAMID_FAIL is clear (assumption 88), measurement 1 is its manifest's digest (R299). -/
def bamidStarts (head : Nat) (s : State) : State :=
  let s := { s with security := { s.security with meas := smSet 0 s.security.meas 1 (measureOf head) } }
  releaseEngines hubEngines (s.flag CFG_STATUS_BAMID_FAIL false)

/-- BAMID_LOAD (R125). -/
def execBamidLoad (first second : BamidCopy) (s : State) : Res :=
  let s := s.begin
  if !s.config.bamidDue || s.clocks.busy.contains 20 || !runs s 186 || !runs s 183 then .next s
  else
    let s := s.onConfig (fun c => { c with bamidDue := false })
    let s := s.puts [(CFG_STATUS_STATE, 1), (CFG_STATUS_SOURCE, 6)]
    match tryBamid 0 first s with
    | (none, h, s) => .next (afterBamid (bamidStarts h s))
    | (some c1, _, s) =>
      let s := (recordFailure 6 c1 s).put CFG_STATUS_SOURCE 7
      match tryBamid 1 second s with
      | (none, h, s) => .next (afterBamid (bamidStarts h s))
      | (some c2, _, s) => .next (afterBamid ((recordFailure 7 c2 s).flag CFG_STATUS_BAMID_FAIL true))

/-! Final checks and what a good image sets (R121 steps 5 and 6). -/

/-- The field at a key takes its value from the image. -/
def imageRow (k : Nat) : Option (RegRow × List Nat × FieldRow) :=
  (rowOf (k / 32)).bind (fun (r, ix) => (r.fields.find? (fun f => f.lo == k % 32 && f.kind == .image)).map (r, ix, ·))

/-- The field at a key is an image field that a lock holds (R10, R61). -/
def imageLocked (s : State) (k : Nat) : Bool :=
  match imageRow k with
  | some (r, ix, f) => f.acc == .rwl && lockedAt s r ix
  | none => false

/-- Image fields of an image take their values: those that `mine` names are first taken back to their default. -/
def applyImage (mine : Nat → Bool) (vals : List (Fld × Nat)) (s : State) : State :=
  let keep (m : List (Nat × Nat)) : List (Nat × Nat) :=
    m.filter (fun e => !((imageRow e.1).isSome && mine e.1 && !imageLocked s e.1))
  let vals := vals.filter (fun e => !imageLocked s e.1.key)
  let t := { s with regs := keep s.regs, imageVals := keep s.imageVals }
  vals.foldl (fun t e =>
    { t.put e.1 e.2 with imageVals := smSet 0 t.imageVals e.1.key ((e.2 % 2 ^ e.1.w) ^^^ e.1.cold) }) t

/-- The register values that sector control frames declare. -/
def declaredVals (d : Declared) : List (Fld × Nat) :=
  d.islands.flatMap (fun e => [(CLK_ISL_FREQ e.1, e.2.1.toNat), (CLK_ISL_FUSE e.1, e.2.2.1.val), (CLK_ISL_LEADER e.1, e.2.2.2.toNat)])
    ++ d.banks.flatMap (fun e => [(FAB_BANK_STATUS_VCCIO_IMG (e.1 / 3) (e.1 % 3), e.2.1.toNat),
      (FAB_BANK_STATUS_GEAR (e.1 / 3) (e.1 % 3), e.2.2.val)])
    ++ d.lanes.flatMap (fun e => imageFields e.1 e.2.toNat)

/-- A declared bundle as it stands before its islands run. -/
def declaredBundle (b : BundleDecl) : Nat × Bundle :=
  let idle := cutTo b.width b.idle
  (b.num, ⟨b.src, b.txPort, b.dst, b.rxPort, b.stream, b.width, idle, idle, [], idle, none⟩)

/-- A bundle put among the declared ones: a transmit or receive port that another bundle occupies takes no second one (R74). -/
def addBundle (m : List (Nat × Bundle)) (b : BundleDecl) : List (Nat × Bundle) :=
  if m.any (fun e => (e.2.src == b.src.val && e.2.txPort == b.txPort.val) || (e.2.dst == b.dst.val && e.2.rxPort == b.rxPort.val)) then m
  else smInsert m b.num (declaredBundle b).2

/-- The dies of a load that take part in start-up: those not failed. -/
def loadSectors (s : State) (l : Load) : List Nat := (diesSectors l.dies).filter (fun x => !partFailed s (x / 32))

/-- Step 6 of R121. -/
def loadSucceeds (l : Load) (d : Declared) (s : State) : State :=
  let xs := loadSectors s l
  let s := checkBanks (applyImage (fun _ => true) (declaredVals d ++ l.settings.flatMap (fun e => imageFields (0x030000000000 + e.1) e.2))
    (setConfigured xs true s))
  let s := putWords CFG_MEAS_MEAS 16 (measureOf l.head) (s.puts [(RST_LINK_SCOPE_LOCK, 1), (CFG_IMG_OWNER, l.owner), (CFG_IMG_DIES, l.dies),
    (CFG_IMG_VER_MINOR, l.verMinor), (CFG_PR_STATUS_REGION_LOST, 0), (CFG_STATUS_STATE, 7),
    (CFG_HLOAD_CTRL_ACTIVE, 0)])
  let s := if 6 ≤ s.get CFG_SU_CTRL_ORDER then s.flag CFG_STATUS_ORDER_RSVD true else s
  let s := { s with
    clocks := { s.clocks with bundles := d.bundles.foldl addBundle [] }
    noc := { s.noc with maps := [] }
    fabric := { s.fabric with wakeBits := d.wakes.map (fun (w : Nat × Fin 64) => (w.1, w.2.val)) }
    config := { s.config with
      loading := false, load := none, lastSrc := l.src, reload := false, lost := []
      imgBundles := d.bundles.foldl addBundle [], regions := d.regions.map declaredRegion, cachers := (d.caches.take 16).map (fun (x : Sec) => x.val) } }
  let s := { s with security := { s.security with meas := smSet 0 s.security.meas 2 (cfgMeas s) } }
  beginStartup 0 xs (s.get CFG_SU_CTRL_ORDER) (s.get CFG_SU_CTRL_GAP1) (s.get CFG_SU_CTRL_GAP2) s

/-- Step 5 of R121: the cause of failure. A payload of Bamid writes no frame. -/
def finalCause (l : Load) (tag : Bool) (sha shake : BitVec 512) (d : Declared) : Option Nat :=
  if l.total ≠ some l.written ∨ l.frameCount ≠ l.written then some 0x0E
  else if !tag then some 0x10
  else if sha.toNat ≠ payloadSha l.head then some 0x11
  else if shake.toNat ≠ payloadShake l.head then some 0x12
  else if l.kind = 1 ∧ !fullAgrees d then some 0x16
  else none

/-- LOAD_FINAL_CHECKS (R121, R126): once the tag has come, also for a payload that ended early. After a Bamid stream the loader waits on
the host bus again for a full image. -/
def execLoadFinalChecks (tag : Bool) (sha shake : BitVec 512) (decl : Declared) (s : State) : Res :=
  let s := clearDone s.begin
  match s.config.load with
  | none => .next s
  | some l =>
    if l.isPart ∨ (l.phase ≠ 4 ∧ l.phase ≠ 5) then .next s
    else match takeStream l 16 s with
      | none => .next s
      | some (_, s) =>
        match finalCause l tag sha shake decl with
        | some c => .next (loadFails c s)
        | none =>
          if l.kind = 3 then .next (startSource 3 (bamidStarts l.head (s.onConfig (fun c => { c with load := none }))))
          else .next (loadSucceeds l decl s)

/-- LOAD_RESTART_AFTER_RESET (R125): once Bamid has been loaded where it is due. -/
def execLoadRestartAfterReset (s : State) : Res :=
  let s := s.begin
  .next (if s.config.restart && s.clocks.busy.isEmpty && !s.config.bamidDue then bootLoad s else s)

/-! The host-bus stream and the Coxswain port's time limit (R124, R126, R127). -/

/-- A host-bus load is in progress. -/
def hostLoading (s : State) : Bool := s.on CFG_HLOAD_CTRL_ACTIVE

/-- The bytes of the ring that the Boathouse is for a stream (R126). -/
def streamRoom : Nat := 64 * 2 ^ 20

/-- The ring has no room for `n` bytes more. -/
def ringFull (s : State) (n : Nat) : Bool := streamRoom < s.config.stream.len + n

/-- Bytes appended to the stream. -/
def appendStream (bytes : List Byte) (s : State) : State :=
  s.onConfig (fun c => { c with stream := ⟨c.stream.len + bytes.length, c.stream.bits + fromBytes bytes * 2 ^ (8 * c.stream.len)⟩ })

/-- A write to the aperture. One that meets a full ring is not taken: the host's writes stall. -/
def hostLoad (req : Requester) (off : Nat) (data : List Byte) (s : State) : State :=
  let first := s.config.waitSrc = some 3 ∧ s.config.load.isNone
  if req ≠ .host 0 0 ∨ (¬ first ∧ !hostLoading s) then s.flag CFG_HLOAD_CTRL_DISCARD true
  else
    let s := if first then (beginLoad { src := 3, isPart := false } s).put CFG_HLOAD_COUNT_BYTES 0 else s
    if off % 4 ≠ 0 ∨ data.length % 4 ≠ 0 ∨ data = [] then loadFails 0x0D s
    else if ringFull s data.length then s
    else (appendStream data s).put CFG_HLOAD_COUNT_BYTES (s.get CFG_HLOAD_COUNT_BYTES + data.length)

/-- HOST_LOAD_WRITE (R126): held while the ring has no room for it. -/
def execHostLoadWrite (req : Requester) (off : Nat) (data : List Byte) (s : State) : Res :=
  let s := s.begin
  if req = .host 0 0 ∧ hostLoading s ∧ ringFull s data.length then .next (s.emit .held)
  else .next (guardedWrite s req 0x030000048000 4 (hostLoad req off data))

/-- HOST_LOAD_TIMEOUT (R126): 100 ms without an accepted write while the ring has room. -/
def execHostLoadTimeout (s : State) : Res :=
  let s := s.begin
  .next (if hostLoading s && !ringFull s 4 then loadFails 0x0F s else s)

/-- CFG_HLOAD_CTRL.ABORT. -/
def hloadAbort (s : State) : State := if hostLoading s then loadFails 0x14 s else s

/-- CFG_HLOAD_ABORT (R126). -/
def execCfgHloadAbort (req : Requester) (s : State) : Res :=
  .next (guardedWrite s.begin req 0x030000040020 4 hloadAbort)

/-- COX_LOAD_TIMEOUT (R124): 1 s without a word after the stream has begun. -/
def execCoxLoadTimeout (s : State) : Res :=
  let s := s.begin
  .next (match s.config.load with
    | some l => if l.src = 4 then loadFails 0x0F s else s
    | none => s)

/-- PF_ABSENT_TIMEOUT (R127). -/
def execPfAbsentTimeout (port : Port) (s : State) : Res :=
  let s := s.begin
  .next (if s.clocks.perst.contains port ∨ s.config.started then s
    else { s with host := { s.host with absent := setAdd s.host.absent port } })

/-! Start-up (R129 to R134, R141). -/

/-- CFG_STATUS.STATE follows a full load's start-up, while no later load is in progress or waited for. -/
def startupState (k : Nat) (s : State) : State :=
  if s.config.load.any (!·.isPart) || s.config.waitSrc.isSome || s.config.next.isSome then s else s.put CFG_STATUS_STATE k

/-- The lock step of a start-up is over: the full load's lets go of CFG_DONE and waits for it to be high, the others go on. -/
def lockOver (who : Nat) (u : Startup) (s : State) : State :=
  let s := s.setStartup who (some { u with locked := true, go := who ≠ 0 })
  match who with
  | 0 => startupState 8 ((s.onConfig (fun c => { c with doneLow := false })).put CFG_STATUS_DONE_WAIT 1)
  | 1 => s.put CFG_PR_STATUS_PHASE 6
  | _ => s

/-- LOCK_STEP_DONE (R129). -/
def execLockStepDone (who : Fin 6) (s : State) : Res :=
  let s := s.begin
  match s.startup who with
  | some u => .next (if !u.locked && u.islands.all (clkStable s) then lockOver who u s else s)
  | none => .next s

/-- LOCK_STEP_TIMEOUT (R129): the islands that are not stable stay held. -/
def execLockStepTimeout (who : Fin 6) (s : State) : Res :=
  let s := s.begin
  match s.startup who with
  | some u =>
    let bad := u.islands.filter (fun l => !clkStable s l)
    if u.locked || bad.isEmpty then .next s
    else
      let s := bad.foldl (fun s l => sectorAlarm l s) (startupPartial s)
      .next (lockOver who { u with islands := u.islands.filter (clkStable s) } s)
  | none => .next s

/-- CFG_DONE_HIGH (R130): the pin, which the XD9 does not drive, has been read high on four reference cycles. -/
def execCfgDoneHigh (s : State) : Res :=
  let s := s.begin
  if s.config.doneLow then .next s
  else
    let s := s.onConfig (fun c => { c with donePin := true })
    match s.startup 0 with
    | some u =>
      if u.locked && !u.go then
        .next (startupState 9 ((s.setStartup 0 (some { u with go := true })).put CFG_STATUS_DONE_WAIT 0))
      else .next s
    | none => .next s

/-- RELEASE_TOKEN (R131, R132): the token of the next step goes to every island that is not frozen; each applies the step at its next
edge and has then to report. -/
def execReleaseToken (who : Fin 6) (s : State) : Res :=
  let s := s.begin
  match s.startup who with
  | some u =>
    if !u.go || !u.due.isEmpty || 3 ≤ u.step then .next s
    else
      let ls := u.islands.filter (fun l => !islandFrozen s l)
      .next (checkStartup who (s.setStartup who (some { u with islands := ls, step := u.step + 1, due := ls, unapplied := ls })))
  | none => .next s

/-- RELEASE_REPORT (R132, R133): an island has applied the step and counted its gap. -/
def execReleaseReport (who : Fin 6) (sec : Sec) (s : State) : Res :=
  let s := s.begin
  let l := leaderOf s sec
  let s := applyToken who l s
  match s.startup who with
  | some u =>
    if !u.due.contains l then .next s
    else
      let s := s.setStartup who (some { u with due := u.due.filter (· ≠ l) })
      .next (checkStartup who (if u.step = 3 then leaveHeld (membersOf s l) s else s))
  | none => .next s

/-! The image store's own upkeep (R112). -/

/-- NV_PAGE_SCRUB (R112): while the hub is in Run. A page above 24 corrections is rewritten to a fresh block, which changes nothing seen;
one above 40 cannot be corrected (the page's BCH code). -/
def execNvPageScrub (page : Fin 524288 × Nat) (uncorrectable : Bool) (s : State) : Res :=
  let s := s.begin
  .next (if runs s 180 && !s.power.moored && (uncorrectable || 40 < page.2) then findBadPage page.1 s else s)

end Sys2Proof.Machine
end

