-- ==== Sys2Proof/Machine/Resetting.lean ====
section
/-! DEFINITION. The commands of resets and of the power-on timeline (spec/02, R48 to R60; R18, R105, R127, R414 to R417). -/

namespace Sys2Proof.Machine

/-- POR (R50): the cold reset that also resets the always-on and the debug domain; pins and rails are then as at power-on
(assumption 5). -/
def execPor (s : State) : Res :=
  .next ((beginReset (.cold true) false s.begin).onClocks (fun _ => {}))

/-- POWER_LOSS (R417): POR is asserted, and the always-on and the debug domain are in reset too. -/
def execPowerLoss (s : State) : Res :=
  .next ((beginReset (.cold true) false s.begin).onClocks (fun _ => { released := [] }))

/-- BROWNOUT (R414, R52): for more than 1 µs; the cold reset then waits for the rails. -/
def execBrownout (ns : Nat) (s : State) : Res :=
  let s := s.begin
  if ns ≤ 1000 then .next s
  else .next ((startReset RST_CAUSE_BROWNOUT (.cold false) true s).onClocks (fun c => { c with rails := false, railWait := true }))

/-- The warm device reset of RESET_N, held while the pin stays low (R51). -/
def pinReset (s : State) : State :=
  (startReset RST_CAUSE_PIN .warm true s).onClocks (fun c => { c with pinHeld := true })

/-- RESET_N_LOW (R51): pulses shorter than 100 ns are ignored; one between 100 ns and 1 µs may or may not start a reset,
which a free value decides. -/
def execResetNLow (ns : Nat) (s : State) : Res :=
  let s := s.begin
  if ns < 100 then .next s
  else if 1000 ≤ ns then .next (pinReset s)
  else
    let (v, s) := s.free
    .next (if v.getLsbD 0 then pinReset s else s)

/-- RESET_N_RISE (R51, R56). -/
def execResetNRise (s : State) : Res :=
  let s := s.begin
  .next (if s.clocks.pinHeld then s.onClocks (fun c => { c with pinHeld := false, strapDue := true }) else s)

/-- STRAP_SAMPLE (R33, R56). -/
def execStrapSample (bootSel clkMode : Fin 4) (pullLo pullHi : Bool) (s : State) : Res :=
  let s := s.begin
  if !s.clocks.strapDue then .next s
  else
    let mode := if clkMode.val = 3 then 0 else clkMode.val
    .next ((s.onClocks (fun c => { c with strapDue := false })).puts
      [(RST_STRAP_CLK_RSVD, (clkMode.val == 3).toNat), (RST_STRAP_PULL_HI, pullHi.toNat), (RST_STRAP_PULL_LO, pullLo.toNat),
       (RST_STRAP_CLK_MODE, mode), (RST_STRAP_BOOT_SEL, bootSel), (CLK_REF_MODE, mode)])

/-- PERST_ASSERT (R50). -/
def execPerstAssert (port : Port) (s : State) : Res :=
  let s := s.begin
  if s.clocks.perst.contains port.val then .next s
  else .next ((startLinkReset (if port = 0 then RST_CAUSE_PERST_A else RST_CAUSE_PERST_B) port s).onClocks
    (fun c => { c with perst := setAdd c.perst port }))

/-- LINK_HOT (R50). -/
def execLinkHot (port : Port) (s : State) : Res := .next (startLinkReset RST_CAUSE_LINK_HOT port s.begin)

/-- The hub's supervisory watchdog counts (R53, R386): not in an integrity halt, and not while a hub engine is halted unless
DBG_WDT_POLICY says so. -/
def hubWatchdogRuns (s : State) : Bool :=
  !s.clocks.halted && (s.on DBG_WDT_POLICY_HUB_RUN || !hubEngines.any (fun g => s.on (ENG_DBG_HALTED g)))

/-- HUB_WDT_EXPIRY (R50). -/
def execHubWdtExpiry (s : State) : Res :=
  let s := s.begin
  .next (if hubWatchdogRuns s then startReset RST_CAUSE_HUB_WDT .warm false s else s)

/-- THERMAL_SHUTDOWN (R52). -/
def execThermalShutdown (s : State) : Res :=
  .next (((s.begin.flag RST_CAUSE_THERM true).onClocks (fun c => { c with
    thermtrip := true, released := [184, 185], rails := false, railWait := true })).emit .railShutdown)

/-- RAILS_IN_RANGE (R52, R416): after a thermal shutdown or a brownout the cold reset proceeds. -/
def execRailsInRange (s : State) : Res :=
  let s := s.begin
  let s := if s.clocks.railWait then beginReset (.cold false) false s else s
  .next (s.onClocks (fun c => { c with rails := true, railWait := false }))

/-- A write of RST_CTRL (R60). -/
def rstCtrl (key scope part : Nat) (s : State) : State :=
  if key ≠ 0xA5 then s
  else match scope with
    | 1 => startReset RST_CAUSE_SOFT .warm true s
    | 2 => if part ≤ 20 then startReset RST_CAUSE_SOFT (.part part) false s else s
    | 3 => startLinkReset RST_CAUSE_SOFT 0 s
    | 4 => startLinkReset RST_CAUSE_SOFT 1 s
    | _ => s

/-- RST_CTRL_WARM (R60). -/
def execRstCtrlWarm (req : Requester) (key : BitVec 8) (s : State) : Res :=
  .next (guardedWrite s.begin req 0x030000010008 4 (rstCtrl key.toNat 1 0))

/-- RST_CTRL_PARTITION (R60). -/
def execRstCtrlPartition (req : Requester) (key : BitVec 8) (part : BitVec 5) (s : State) : Res :=
  .next (guardedWrite s.begin req 0x030000010008 4 (rstCtrl key.toNat 2 part.toNat))

/-- RST_CTRL_HOST_LINK (R60). -/
def execRstCtrlHostLink (req : Requester) (key : BitVec 8) (port : Port) (s : State) : Res :=
  .next (guardedWrite s.begin req 0x030000010008 4 (rstCtrl key.toNat (3 + port.val) 0))

/-- A domain in a scope being reset may be released (R18, R48, R51, R52, R360). -/
def mayRelease (s : State) (d : Nat) : Bool :=
  !s.clocks.released.contains d && clkStable s d && s.clocks.rails && !s.clocks.pinHeld && !s.clocks.railWait
    && !s.clocks.stopped && !s.power.moored && !((domainPart d).any (fun p => (partFailed s p && !(128 ≤ d && d < 132)) || !railGood s p))

/-- DOMAIN_RESET_RELEASE (R48, R52). -/
def execDomainResetRelease (d : Fin 308) (s : State) : Res :=
  let s := s.begin
  if !mayRelease s d then .next s
  else .next (s.onClocks (fun c => { c with
    released := setAdd c.released d, thermtrip := c.thermtrip && d.val ≠ 180 }))

/-- RESET_CLOCK_WAIT_TIMEOUT (R48). -/
def execResetClockWaitTimeout (p : Part) (s : State) : Res :=
  let s := s.begin
  .next ((waitingDomains s p).foldl (fun s d => clockAlarm d s) s)

/-- After the hub's checkers have passed (R18, R57, R291): ALARM_N is released; after a cold or warm reset the normal key is
drawn and every channel that keeps no dump starts with it. -/
def hubPasses (s : State) : State :=
  let s := s.onClocks (fun c => { c with alarm := c.halted, tested := setAdd c.tested 20 })
  if !s.security.keyDue then s
  else
    let s := drawKey 0 { s with security := { s.security with keyDue := false } }
    let s := s.puts [(SEC_STATUS_TRNG_OK, 1), (SEC_KS_CTRL_STATE 0, 3)]
    (List.range 16).foldl (fun s n => if s.get (PAT_STATUS_STATE n) == 2 then s else s.put (PAT_STATUS_STATE n) 1) s

/-- A partition's checkers have failed (R18): it is marked and stays in reset. -/
def partFails (p : Nat) (s : State) : State :=
  let s := if p < 4 then s.putBit HUB_PART_FAIL_DIE_FAIL p true else s.putBit HUB_PART_FAIL_CH_FAIL (p - 4) true
  let s := if p < 4 then holdSectors ((List.range 32).map (32 * p + ·)) s else resetChannel (p - 4) s
  (endBusy p s).onClocks (fun c => { c with
    released := c.released.filter (fun d => !(resetDomains p).contains d)
    tested := setDel c.tested p, filled := setDel c.filled p })

/-- Some domain of a partition is out of reset: its self-test can run. -/
def someReleased (s : State) (p : Nat) : Bool :=
  (resetDomains p).any (fun d => s.clocks.released.contains d && (p != 20 || d == 180))

/-- CHECKER_SELF_TEST_DONE (R18, R48, R57): of a partition whose test is due since its reset. A failure of the hub's stops the XD9. -/
def execCheckerSelfTestDone (p : Part) (pass : Bool) (s : State) : Res :=
  let s := s.begin
  if !someReleased s p || s.clocks.tested.contains p.val then .next s
  else if p.val = 20 then
    if pass then .next (hubPasses s) else .next (hubFails s)
  else if !pass then .next (partFails p s)
  else
    let s := if p.val < 4 then s.putBit HUB_PART_FAIL_DIE_FAIL p false else s.putBit HUB_PART_FAIL_CH_FAIL (p - 4) false
    .next (s.onClocks (fun c => { c with tested := setAdd c.tested p }))

/-- The sectors of a die whose configuration memory holds their image start up again (partition reset, step 7). -/
def restartDie (d : Nat) (s : State) : State :=
  let xs := ((List.range 32).map (32 * d + ·)).filter (fun x => s.on (FAB_SEC_STATUS_CONFIGURED d (x % 32)))
  if xs.isEmpty || s.config.loading then s
  else beginStartup (2 + d) xs (s.get CFG_SU_CTRL_ORDER) (s.get CFG_SU_CTRL_GAP1) (s.get CFG_SU_CTRL_GAP2) (restoreContents xs s)

/-- MEMORY_FILL_DONE (R105). -/
def execMemoryFillDone (p : Part) (s : State) : Res :=
  let s := s.begin
  if !s.clocks.tested.contains p.val || s.clocks.filled.contains p.val then .next s
  else
    let s := (fillMemories s p).onClocks (fun c => { c with filled := setAdd c.filled p })
    .next (if p.val < 4 then restartDie p s else s)

/-- PARTITION_RESET_END (R48, R57): after the fill, or with a domain still waiting. With the hub's, the configuration controller turns to Bamid (step 10). -/
def execPartitionResetEnd (p : Part) (s : State) : Res :=
  let s := s.begin
  if !s.clocks.busy.contains p.val || !(s.clocks.filled.contains p.val || incomplete s p) then .next s
  else
    let s := endBusy p s
    .next (if p.val = 20 && s.clocks.filled.contains 20 && s.config.bamidDue then s.puts [(CFG_STATUS_STATE, 1), (CFG_STATUS_SOURCE, 6)] else s)

end Sys2Proof.Machine
end

