-- ==== Sys2Proof/Machine/Power.lean ====
section
/-! DEFINITION. Power states, operating points, regulators and the rate governor (spec/15, R348 to R368). Power and
temperature readings are operands of commands (assumption 1). -/

namespace Sys2Proof.Machine

/-- The power state changed. -/
def State.onPower (s : State) (f : Power → Power) : State := { s with power := f s.power }

/-- Partition `p` is in Run: neither held nor failed (STATE 0x0). -/
def inRun (s : State) (p : Nat) : Bool :=
  s.get (PWR_PART_STATE p) == 0 && !s.clocks.busy.contains p && !partFailed s p && !s.clocks.halted

/-! Operating points (R358, R359). -/

/-- The lowest operating point of channel `n` is OP2: its DRAM runs above 6,400 MT/s or its NAND above 2,400 MT/s. -/
def fastChannel (s : State) (n : Nat) : Bool := 3 < s.get (DRAM_STATUS_RATE_EFF n) || 96 < s.get (NAND_CFG_RATE n)

/-- The operating point that OP_TGT asks for: values 6 and 7 act as 5; too low a target is clamped, with CLAMP set. -/
def takeTarget (p : Nat) (s : State) : Nat × State :=
  let t := min 5 (s.get (PWR_PART_OP_TGT p))
  if 4 ≤ p && t < 2 && fastChannel s (p - 4) then (2, s.flag (PWR_PART_CLAMP p) true) else (t, s)

/-- The voltage, as an operating point, that the other channels in Run on the rail of channel partition `p` need: the highest
of their present points and targets (R358). -/
def othersNeed (s : State) (p : Nat) : Nat :=
  if p < 4 then 0
  else ((List.range 16).filter (fun n => 4 + n != p && railOf (4 + n) == railOf p && inRun s (4 + n))).foldl (fun m n =>
    max m (max (s.get (PWR_PART_OP_CUR (4 + n))) (((s.power.changes.find? (·.1 == 4 + n)).map (·.2.target)).getD 0))) 0

/-- The present voltage, as an operating point, that the other channels hold the shared rail at. -/
def othersHold (s : State) (p : Nat) : Nat :=
  if p < 4 then 0
  else ((List.range 16).filter (fun n => 4 + n != p && railOf (4 + n) == railOf p && inRun s (4 + n))).foldl (fun m n =>
    max m (s.get (PWR_PART_OP_CUR (4 + n)))) 0

/-- The change of partition `p` ends with its target in force. -/
def opReached (p target : Nat) (s : State) : State :=
  recap p ((s.puts [(PWR_PART_OP_CUR p, target), (PWR_PART_PENDING p, 0)]).onPower (fun w =>
    { w with changes := w.changes.filter (·.1 != p) }))

/-- A change of the operating point begins (R359). A lowering caps the clocks at once. Where the shared rail stays where it
is, or stands high enough already, no voltage is written and the change ends at once. -/
def startOp (p : Nat) (s : State) : State :=
  let (t, s) := takeTarget p s
  let cur := s.get (PWR_PART_OP_CUR p)
  if t == cur then opReached p t s
  else
    let s := (s.flag (PWR_PART_PENDING p) true).onPower (fun w =>
      { w with changes := w.changes.filter (·.1 != p) ++ [(p, ⟨t, cur < t⟩)] })
    if t < cur then
      if cur ≤ othersNeed s p then opReached p t s else recap p s
    else if t ≤ othersHold s p then opReached p t s else s

/-- A target written during a change or in Easy is taken. -/
def takeLater (p : Nat) (s : State) : State :=
  if s.power.later.contains p then startOp p (s.onPower (fun w => { w with later := setDel w.later p })) else s

/-- A write of OP_TGT (R359): during a change and in Easy it is taken later. -/
def writeTarget (p : Nat) (s : State) : State :=
  if s.on (PWR_PART_PENDING p) || inEasy s p then s.onPower (fun w => { w with later := setAdd w.later p }) else startOp p s

/-! Easy (R350 to R354). -/

/-- An Easy entry begins: STATE 0x1; requests for the partition wait from now on. -/
def beginEasy (p : Nat) (gov : Bool) (s : State) : State :=
  (s.put (PWR_PART_STATE p) 1).onPower (fun w =>
    { w with byGov := setPut w.byGov p gov, quiet := setDel w.quiet p, wakeDue := setDel w.wakeDue p })

/-- A write of PWR_PART.REQ: 1 asks for Easy, also while the governor's own entry runs; 0 is a wake source. -/
def writeEasyReq (p : Nat) (req : Bool) (s : State) : State :=
  if !req then wakePart p s
  else if inRun s p then beginEasy p false s
  else if s.get (PWR_PART_STATE p) == 1 then s.onPower (fun w => { w with byGov := setDel w.byGov p })
  else s

/-- A write of the first word of PWR_PART. -/
def writePart (p v : Nat) (s : State) : State :=
  writeEasyReq p (v.testBit 4) (writeTarget p (writeReg s (0x030000030200 + p * 0x10) v))

/-- EASY_REQUEST (R350). -/
def execEasyRequest (req : Requester) (p : Fin 20) (data : Word) (s : State) : Res :=
  .next (guardedWrite s.begin req (0x030000030200 + p.val * 0x10) 4 (writePart p.val (data ||| 0x10#32).toNat))

/-- OP_TARGET_WRITE (R359): REQ stays as it stands. -/
def execOpTargetWrite (req : Requester) (p : Fin 20) (data : Word) (s : State) : Res :=
  .next (guardedWrite s.begin req (0x030000030200 + p.val * 0x10) 4 (fun s =>
    let q := s.on (PWR_PART_REQ p)
    writeTarget p.val (writeReg s (0x030000030200 + p.val * 0x10) (withBit data.toNat 4 q))))

/-- A recovery has partition `p` in its scope (R336, R344). -/
def recoveryTouches (p : Nat) (r : Recovery) : Bool :=
  match r.kind with
  | 1 | 2 => p < 4 && (match unitRow r.unit with
    | some row => row / 4 == p / 2
    | none => true)
  | 3 => true
  | _ => r.unit / 2048 == p

/-- A load, a start-up, a capture or a readback involves die `d` (R143). -/
def dieObserved (s : State) (d : Nat) : Bool :=
  (s.config.load.any (fun l => if l.isPart then l.region.any (· / 32 == d) else l.dies.testBit d))
    || s.config.startups.any (fun e => e.2.islands.any (· / 32 == d))
    || s.config.capDue.any (· / 32 == d) || s.config.rb.any (·.sec / 32 == d)

/-- An engine is held or in Feather. -/
def engineRests (s : State) (g : Nat) : Bool := s.get (ENG_STATUS_STATE g) == 0 || s.get (ENG_STATUS_STATE g) == 2

/-- A request of the network for channel `n` has not been answered. -/
def bridgeBusy (s : State) (n : Nat) : Bool :=
  s.noc.reqs.any (fun r => match locate r.addr with
    | .dram m _ => m == n
    | .chan m _ => m == n
    | _ => false)

/-- Partition `p` is quiescent (R350). -/
def quiescent (s : State) (p : Nat) : Bool :=
  !s.wake.recs.any (recoveryTouches p) &&
  if p < 4 then
    (List.range 32).all (fun i => let x := 32 * p + i; (sectorHeld s x || gated s (leaderOf s x)) && !islHalted s x)
      && !s.noc.reqs.any (fun r => r.port < 128 && r.port / 32 == p) && !dieObserved s p
  else
    let n := p - 4
    (crewOf n).all (fun g => engineRests s g && (s.eng g).wait.isNone && (s.eng g).posted.isEmpty)
      && nandQuiet s n && (s.chan n).jobs.isEmpty && (s.chan n).job.isNone && !s.on (CRC_SCAN_BUSY n) && !bridgeBusy s n

/-- GOVERNOR_IDLE_ENTRY (R350): quiescence has held for PWR_PART.IDLE. -/
def execGovernorIdleEntry (p : Fin 20) (s : State) : Res :=
  let s := s.begin
  .next (if s.get (PWR_PART_IDLE p) ≠ 0 ∧ inRun s p ∧ quiescent s p then beginEasy p true s else s)

/-- The bytes of the save record of a partition (R351). -/
def recordSize (s : State) (p : Nat) : Nat :=
  if p < 4 then 256 else 1024 + 288 * ((crewOf (p - 4)).filter (fun g => s.get (ENG_STATUS_STATE g) != 0)).length

/-- The bytes that channel records take in the pool. -/
def poolUsed (s : State) : Nat := ((s.power.records.filter (fun e => 4 ≤ e.1)).map (·.2)).sum

/-- A channel's DRAM goes to self-refresh with its partition. -/
def easyDram (p : Nat) (s : State) : State := if p < 4 then s else dramEnterSr (p - 4) .easy s

/-- EASY_QUIESCENT (R351, R352): the record is allocated, or the partition becomes Feather-only. -/
def execEasyQuiescent (p : Fin 20) (s : State) : Res :=
  let s := s.begin
  let size := recordSize s p
  if s.get (PWR_PART_STATE p) ≠ 1 ∨ s.power.quiet.contains p.val ∨ !quiescent s p then .next s
  else if p.val < 4 ∨ poolUsed s + size ≤ 257024 then
    .next (easyDram p (s.onPower (fun w => { w with quiet := setAdd w.quiet p, records := smInsert w.records p size })))
  else
    let s := easyDram p (raisePwr PWR_CAUSE_NO_SAVE (s.put (PWR_PART_STATE p) 4))
    .next (if s.power.wakeDue.contains p.val then s.put (PWR_PART_STATE p) 3 else s)

/-- EASY_ENTRY_TIMEOUT (R350): the entry is abandoned; only one that software asked for raises EASY_TO and clears REQ. -/
def execEasyEntryTimeout (p : Fin 20) (s : State) : Res :=
  let s := s.begin
  if s.get (PWR_PART_STATE p) ≠ 1 ∨ s.power.quiet.contains p.val then .next s
  else
    let gov := s.power.byGov.contains p.val
    let s := (s.put (PWR_PART_STATE p) 0).onPower (fun w => { w with byGov := setDel w.byGov p, wakeDue := setDel w.wakeDue p })
    .next (if gov then s else raisePwr PWR_CAUSE_EASY_TO (s.put (PWR_PART_REQ p) 0))

/-- The bits that Easy clears in a field (R11, R58): those of the partition that the Kept column does not name. Read-only
fields with nothing in that column show live state and stay. -/
def easyMask (s : State) (p : Nat) (r : RegRow) (ix : List Nat) (f : FieldRow) : Nat :=
  if f.kind == .fixed || f.kind == .por || f.kind == .image || f.kept.testBit 3 || (f.acc == .ro && f.kept == 0) then 0
  else ownMask s p r ix f

/-- What an engine loses in Easy: the loop registers, and its reservation (R58, R191). -/
def Engine.easy (e : Engine) : Engine := { e with lc := 0, ls := 0, le := 0, lateLoop := [], rsv := none }

/-- The engines of a channel changed. -/
def onCrew (n : Nat) (f : Engine → Engine) (s : State) : State :=
  { s with engines := (s.engines.map (fun e => if e.1 < 1024 && e.1 / 64 == n then (e.1, f e.2) else e)).filter (fun e => e.2 != {}) }

/-- EASY_ENTRY_COMPLETE (R352): clocks stopped, retention voltage; bank pins pass to their hold latches (R86). -/
def execEasyEntryComplete (p : Fin 20) (s : State) : Res :=
  let s := s.begin
  if s.get (PWR_PART_STATE p) ≠ 1 ∨ !s.power.quiet.contains p.val ∨ (p.val < 4 ∧ dieObserved s p) ∨ (4 ≤ p.val ∧ [5, 7].contains (s.get (DRAM_STATUS_STATE (p.val - 4)))) then .next s
  else
    let s := clearFields (easyMask s p) [] s
    let s := if p.val < 4 then
        { s with fabric := { s.fabric with latched := ((List.range 32).map (32 * p.val + ·)).foldl setAdd s.fabric.latched } }
      else onCrew (p.val - 4) Engine.easy s
    .next (s.put (PWR_PART_STATE p) (if s.power.wakeDue.contains p.val then 3 else 2))

/-- EASY_WAKE (R353): a wake source comes. -/
def execEasyWake (p : Fin 20) (s : State) : Res := .next (wakePart p.val s.begin)

/-- The restore clears ST.LPE (R351). -/
def Engine.restored (e : Engine) : Engine := { e with st := stSet e.st 10 false }

/-- A channel's watchdog count below 100 is raised to 100 when it counts again (R256). -/
def raiseSwdt (n : Nat) (s : State) : State :=
  if s.get (CH_SWDT_LOAD_LOAD n) = 0 then s else s.put (CH_SWDT_COUNT_COUNT n) (max 100 (s.get (CH_SWDT_COUNT_COUNT n)))

/-- EASY_WAKE_COMPLETE (R352, R99): with an uncorrectable byte in the record the wake becomes a partition reset; while a clock
of the partition is not stable the wake goes on (R48). -/
def execEasyWakeComplete (p : Fin 20) (ue : Bool) (s : State) : Res :=
  let s := s.begin
  let saved := s.power.records.any (·.1 == p.val)
  if s.get (PWR_PART_STATE p) ≠ 3 then .next s
  else if ue ∧ saved then .next (beginReset (.part p.val) false (raisePwr PWR_CAUSE_WAKE_FAIL (logSomewhere 20 aonUnit (s.free.1.toNat / 2 ^ 30) 65536 s)))
  else if (resetDomains p).any (fun d => d < 188 && !clkStable s d) then .next s
  else
    let s := if saved && 4 ≤ p.val then onCrew (p.val - 4) Engine.restored s else s
    let s := (s.put (PWR_PART_STATE p) 0).onPower (fun w => { w with
      byGov := setDel w.byGov p, quiet := setDel w.quiet p, wakeDue := setDel w.wakeDue p, records := w.records.filter (·.1 != p.val) })
    let s := if p.val < 4 then s else raiseSwdt (p.val - 4) (dramLeaveSr (p.val - 4) s)
    .next (takeLater p.val s)

/-! Moored (R355 to R357). -/

/-- The queues of every channel's NAND sequencer have drained (R241). -/
def nandDrained (s : State) : Bool := (List.range 16).all (nandQuiet s)

/-- Why a Moored request is refused (R355), 0 where it is not. -/
def mooredRefusal (s : State) (drained sysclk : Bool) : Nat :=
  if s.get (HP_STATUS_UP 0) + s.get (HP_STATUS_UP 1) != 0 then 1
  else if s.config.load.isSome || s.config.next.isSome || !s.config.startups.isEmpty || s.on WAKE_STATUS_ACTIVE then 2
  else if !drained && !nandDrained s then 3
  else if !sysclk then 4
  else 0

/-- Step 3 of the entry: channel DRAM goes to self-refresh. -/
def mooredDram (s : State) : State := (List.range 16).foldl (fun s n => dramEnterSr n .moored s) s

/-- Moored entry begins: every engine but the requester's stops, the fabric is held; Easy records are discarded (R294); when the NAND
queues have drained (R241), channel DRAM goes to self-refresh. -/
def beginMoored (req : Requester) (s : State) : State :=
  let keep := engineOf req
  let s := ((s.engines.map (·.1)).filter (fun g => keep != some g)).foldl (fun s g => s.put (ENG_STATUS_STATE g) 0) s
  let s := holdSectors (List.range 128) s
  let wait := !nandDrained s
  let s := if wait then s else mooredDram s
  s.onPower (fun w => { w with mooring := true, draining := wait, mooredWake := none, records := [] })

/-- MOORED_REQUEST (R355): a write with REQ set by any other than a hub engine is a silent violation. -/
def writeMoored (req : Requester) (v : Nat) (drained sysclk : Bool) (s : State) : State :=
  if groupOf req != some 4 then s
  else
    let s := writeReg s 0x030000030100 v
    if s.power.mooring then s
    else match mooredRefusal s drained sysclk with
      | 0 => beginMoored req s
      | code => raisePwr PWR_CAUSE_MOORED_REF (s.put PWR_MOORED_REFUSE code)

/-- MOORED_REQUEST (R355). -/
def execMooredRequest (req : Requester) (data : Word) (drained sysclk : Bool) (s : State) : Res :=
  .next (guardedWrite s.begin req 0x030000030100 4 (writeMoored req data.toNat drained sysclk))

/-- The bits that Moored clears in a field (R11, R58): none of the always-on or the debug domain (R13). -/
def mooredMask (r : RegRow) (ix : List Nat) (f : FieldRow) : Nat :=
  if f.kind == .fixed || f.kind == .por || f.kept.testBit 4 then 0 else devBits r ix f

/-- A physical offset of channel `n` lies in a segment that self-refresh keeps in Moored (R270). -/
def segmentKept (s : State) (n off : Nat) : Bool :=
  let seg := s.get (DRAM_CAP_INSTALLED n) * 2 ^ 17
  seg != 0 && (s.get (DRAM_PASR_EFF n)).testBit (off / seg) && s.on (DRAM_STATUS_SR_KEPT n)

/-- Channel DRAM after Moored (R58, R270, R294): lines outside the kept segments are lost and read as never written; in
Cipher-only mode their blocks stay marked as touched. -/
def moorMemory (s : State) : State :=
  let keep (n line : Nat) : Bool := segmentKept s n (line * 64)
  { s with
    dram := s.dram.filter (fun c => keep (c.1 / 2 ^ 36) (c.1 % 2 ^ 36 / 64))
    patinas := (s.patinas.map (fun e =>
      let p := e.2
      let p := { p with lineKey := p.lineKey.filter (fun l => keep e.1 l.1), reenc := [], fill := [] }
      (e.1, if s.on (PAT_CFG_MODE e.1) then p
        else { p with
          major := p.major.filter (fun l => keep e.1 (l.1 * 64)), minor := p.minor.filter (fun l => keep e.1 l.1)
          marks := p.marks.filter (fun l => keep e.1 l) }))).filter (fun e => e.2 != {}) }

/-- The registers after Moored. -/
def moorRegs (s : State) : State := { clearFields mooredMask [] s with imageVals := [] }

/-- What is left of the on-chip memories in Moored: the always-on memory with the write-backs due in it (R13, R58), and Flux's
positions (R101). -/
def moorOnchip (s : State) : Onchip :=
  { bytes := s.onchip.bytes.filter (fun e => e.1 / 2 ^ 27 == 20 * 2048 + aonUnit), due := aonDue s
    fluxTotal := s.onchip.fluxTotal, fluxLag := s.onchip.fluxLag, fluxSteps := s.onchip.fluxSteps }

/-- Everything off but the always-on and the debug domain (R58, R355 to R357, R369). Write-backs that are due in memories that lose
their contents are abandoned as at a reset (assumption 79). -/
def moor (s : State) : State :=
  let s := (List.range 21).foldl abandonWriteBacks (moorMemory s)
  let s := resetHub ((List.range 16).foldl (fun s n => resetChannel n s) ((List.range 4).foldl (fun s d => resetDie d s) s))
  let s := moorRegs s
  { s with
    clocks := { s.clocks with
      frozen := s.clocks.frozen.filter (· == 184), released := [184, 185], busy := List.range 21, tested := [], filled := [], bundles := [], islFreq := [], unfused := [], latch := [], alarm := false }
    fabric := {}
    onchip := moorOnchip s
    config := { storeKept s with
      lastSrc := s.config.lastSrc, reload := true }
    noc := {}
    wake := {}
    lanes := {}
    dbg := { s.dbg with isl := [] }
    power := { moored := true, mooredWake := s.power.mooredWake, rails := s.power.rails, railDue := List.range 6 } }

/-- The wake from Moored begins (R357, R419): rails rise to OP5, the power-on timeline runs from its step 5. -/
def wakeMoored (src : Nat) (s : State) : State :=
  ((s.put PWR_MOORED_SRC (2 ^ src)).onPower (fun w => { w with moored := false, mooredWake := some src })).onClocks
    (fun c => { c with released := [184, 185], alarm := true })

/-- A Moored wake source comes (R348, R357): nothing where WAKE_EN leaves it out. -/
def mooredSource (src : Nat) (s : State) : State :=
  if !s.bit PWR_MOORED_WAKE_EN src then s
  else if s.power.moored then wakeMoored src s
  else if s.power.mooring && s.power.mooredWake.isNone then s.onPower (fun w => { w with mooredWake := some src })
  else s

/-- MOORED_ENTRY_COMPLETE (R355): the step that the entry waits for is over, first the drain of the NAND queues (R241), then the rest. -/
def execMooredEntryComplete (s : State) : Res :=
  let s := s.begin
  if s.power.mooring && s.power.draining then
    .next (if nandDrained s then mooredDram (s.onPower (fun w => { w with draining := false })) else s)
  else if !s.power.mooring || (List.range 16).any (fun n => [5, 7].contains (s.get (DRAM_STATUS_STATE n))) then .next s
  else
    let s := moor s
    .next (match s.power.mooredWake with
      | some src => wakeMoored src s
      | none => s)

/-- A rise of PERST: WAKE_N is given up (R357); it is a wake source of Moored. -/
def perstRises (port : Nat) (s : State) : State :=
  mooredSource (3 + port) ((s.onPower (fun w => { w with wakeN := false })).onClocks (fun c => { c with perst := setDel c.perst port }))

/-- PERST_RELEASE (R127, R357): the end of the reset; links then train, which LINK_RETRAIN reports. -/
def execPerstRelease (port : Port) (s : State) : Res :=
  let s := s.begin
  .next (if s.clocks.perst.contains port.val then perstRises port.val s else s)

/-- MOORED_WAKE (R357); PERST rising is PERST_RELEASE itself, and the timer needs its time. -/
def execMooredWake (src : Fin 5) (s : State) : Res :=
  let s := s.begin
  if src.val = 1 ∧ s.clocks.ts < s.get64 PWR_AON_TMR_LO_TS PWR_AON_TMR_HI_TS then .next s
  else if 3 ≤ src.val ∧ s.clocks.perst.contains (src.val - 3) then .next (perstRises (src.val - 3) s)
  else .next (mooredSource src s)

/-- AON_TIMER_EXPIRY (R357). -/
def execAonTimerExpiry (s : State) : Res :=
  let s := s.begin
  .next (if s.clocks.ts < s.get64 PWR_AON_TMR_LO_TS PWR_AON_TMR_HI_TS then s else mooredSource 1 s)

/-- WAKE_N_TIMEOUT (R357): WAKE_N has been low for 1 s. -/
def execWakeNTimeout (s : State) : Res := .next (s.begin.onPower (fun w => { w with wakeN := false }))

/-! Regulators (R359, R360). -/

/-- Partitions on a rail with a change in progress. -/
def changingOn (s : State) (rail : Nat) : List Nat :=
  (s.power.changes.map (·.1)).filter (fun p => railOf p == some rail && s.on (PWR_PART_PENDING p))

/-- A change acknowledged: OP_CUR is the target. -/
def opAck (p : Nat) (s : State) : State :=
  match s.power.changes.find? (·.1 == p) with
  | some (_, c) => takeLater p (opReached p c.target s)
  | none => s

/-- A change not acknowledged (R359): OP_CUR stays; on a lowering the clocks stay low. -/
def opFails (p : Nat) (s : State) : State :=
  let s := s.puts [(PWR_PART_FAIL p, 1), (PWR_PART_PENDING p, 0)]
  takeLater p (recap p (s.onPower (fun w => { w with changes := w.changes.filter (fun e => !(e.1 == p && e.2.up)) })))

/-- AVS_ACK (R359, R360): first of the OP5 voltage after power-on or a Moored wake. -/
def execAvsAck (rail : Fin 6) (s : State) : Res :=
  let s := s.begin
  if s.power.railDue.contains rail.val then .next (s.onPower (fun w => { w with railDue := setDel w.railDue rail }))
  else .next ((changingOn s rail).foldl (fun s p => opAck p s) s)

/-- AVS_ACK_TIMEOUT (R359, R360). -/
def execAvsAckTimeout (rail : Fin 6) (s : State) : Res :=
  let s := s.begin
  if s.power.railDue.contains rail.val then .next (raisePwr PWR_CAUSE_AVS_FAIL s)
  else match changingOn s rail with
    | [] => .next s
    | ps => .next (raisePwr PWR_CAUSE_AVS_FAIL (ps.foldl (fun s p => opFails p s) s))

/-- The R2 engine clock of the part's grade in MHz. -/
def engineMhz (s : State) : Nat :=
  match s.get HUB_REV_GRADE with
  | 3 => 1500
  | 2 => 1300
  | _ => 1050

/-- The crew clock that an operating point gives (R358), rounded down to 10 MHz. -/
def crewLimit (s : State) (n : Nat) : Nat :=
  engineMhz s * s.get (PWR_OPT_CH_PCT (clockOp s (4 + n))) / 1000 * 10

/-- CREW_CLOCK_STEP (R359): one step of 50 MHz toward the crew clock of the operating point. -/
def execCrewClockStep (n : Ch) (s : State) : Res :=
  let s := s.begin
  let now := smGet (engineMhz s) s.power.crewMhz n
  let goal := crewLimit s n
  let next := if now < goal then min goal (now + 50) else max goal (now - 50)
  .next (s.onPower (fun w => { w with crewMhz := smSet (engineMhz s) w.crewMhz n next }))

/-! Telemetry (R361). -/

/-- PMBUS_READ (R361): of a polled rail. -/
def execPmbusRead (rail : Fin 21) (mw : Nat) (s : State) : Res :=
  let s := s.begin
  if s.on (PWR_PMB_VALID rail) then .next (s.onPower (fun w => { w with rails := smSet 0 w.rails rail mw, alert := false }))
  else .next s

/-- PMBUS_ALERT (R361). -/
def execPmbusAlert (s : State) : Res :=
  .next (raisePwr PWR_CAUSE_PMB_ALERT (s.begin.onPower (fun w => { w with alert := true })))

/-- TELEMETRY_LOST (R361). -/
def execTelemetryLost (s : State) : Res :=
  .next (raisePwr PWR_CAUSE_TELEM (s.begin.onPower (fun w => { w with blind := true })))

/-- TELEMETRY_RESTORED (R361). -/
def execTelemetryRestored (s : State) : Res := .next (s.begin.onPower (fun w => { w with blind := false }))

/-! The rate governor (R362 to R366). -/

/-- The budget of the governor mode in W (R365). -/
def budgetOf (s : State) : Nat :=
  match s.get PWR_MODE_MODE with
  | 0 => 180
  | 1 => 300
  | 2 => 420
  | _ => if s.on PWR_MODE_WINDOW then 460 else 420

/-- The power outside the AVS rails in mW: the latest reading of each rail that is polled (R362). -/
def hubPower (s : State) : Nat := ((s.power.rails.filter (fun e => s.on (PWR_PMB_VALID e.1))).map (·.2)).sum

/-- The throttle threshold: values above 100 act as 100. -/
def softLimit (s : State) : Int := (min 100 (s.get PWR_THERM_SOFT) : Nat)

/-- The ceiling that a partition's hottest sensor gives (R366), none where all its sensors have failed (R361). -/
def ceilingOf (s : State) (p : Nat) (t : Option Int) : Nat :=
  let floor := s.get (PWR_PART_FLOOR p)
  match t with
  | none => floor
  | some t =>
    if t < softLimit s then 255 else if 100 ≤ t then floor else max floor (255 - 48 * (t - softLimit s)).toNat

/-- A two's complement number of 8 bits as an integer, and a number cut to so many bits. -/
def signed8 (v : Nat) : Int := if v < 128 then v else (v : Int) - 256
/-- An integer in two's complement of `w` bits. -/
def twos (w : Nat) (i : Int) : Nat := (i % (2 ^ w : Int)).toNat

/-- A Sprint window closes and the cool-down begins (R365). -/
def closeWindow (s : State) : State :=
  let s := (s.puts [(PWR_MODE_WINDOW, 0), (PWR_MODE_COOLING, 1)]).onPower (fun w => { w with window := s.clocks.ts - (w.opened - 1), closed := s.clocks.ts, opened := 0 })
  s.put PWR_MODE_BUDGET (budgetOf s)

/-- A partition's hottest sensor, by a list of such readings, stands at a threshold or above, and stood below it, or gave no reading, at
the last tick (R366). -/
def somethingCrosses (s : State) (now : List (Nat × Int)) (limit : Int) : Bool :=
  now.any (fun e => decide (limit ≤ e.2) && !s.power.temps.any (fun f => f.1 == e.1 && decide (limit ≤ f.2)))

/-- The temperatures of a tick: TJ_MAX, the causes of R366, the ceilings, and the Sprint window at 90 °C. -/
def takeTemps (temps : List (Fin 20 × Option Int)) (hub : Int) (s : State) : State :=
  let hottest := temps.foldl (fun m e => match e.2 with | some t => max m t | none => m) hub
  let now := (20, hub) :: temps.filterMap (fun e => e.2.map (fun t => (e.1.val, t)))
  let soft := somethingCrosses s now (softLimit s)
  let hot := somethingCrosses s now 100
  let s := (s.put PWR_THERM_TJ_MAX (twos 8 hottest)).onPower (fun w => { w with temps := now })
  let s := if soft then raisePwr PWR_CAUSE_THERM_SOFT s else s
  let s := if hot then raisePwr PWR_CAUSE_THERM_HOT s else s
  let s := temps.foldl (fun s e => s.put (PWR_PART_CEIL e.1) (ceilingOf s e.1 e.2)) s
  if s.on PWR_MODE_WINDOW then (if 90 ≤ hottest then closeWindow s else s)
  else if s.get PWR_MODE_MODE = 3 ∧ !s.on PWR_MODE_COOLING ∧ hottest < 90 then
    (s.flag PWR_MODE_WINDOW true).onPower (fun w => { w with opened := s.clocks.ts + 1 })
  else s

/-- The power of partition `p` in the last tick in mW. -/
def powerOf (power : List (Fin 20 × Nat)) (p : Nat) : Nat := ((power.find? (fun e => e.1.val == p)).map (·.2)).getD 0

/-- The energy that a partition used is counted (R362): ENERGY in mJ, the rest kept in units of 10 nJ. -/
def countEnergy (power : List (Fin 20 × Nat)) (p : Nat) (s : State) : State :=
  let e := smGet 0 s.power.energy p + powerOf power p
  (s.put (PWR_PART_ENERGY p) (s.get (PWR_PART_ENERGY p) + e / 100000)).onPower (fun w => { w with energy := smSet 0 w.energy p (e % 100000) })

/-- The bucket and the rate of partition `p` after a tick (R362): its allowance `a` and its power in W. -/
def govern (s : State) (p : Nat) (a m : Rat) : Rat × Nat :=
  let depth := max 1 (s.get PWR_CTRL_DEPTH)
  let bmax := a * depth
  let b := min bmax (smGet 0 s.power.buckets p + (a - m) / 100)
  let r : Int := s.get (PWR_PART_RATE p)
  let r := if b < 0 ∧ a < m then min r (r * a / m).floor else r
  let r := if bmax / 2 ≤ b then r + s.get PWR_CTRL_UP else r
  (b, (max (s.get (PWR_PART_FLOOR p) : Int) (min (s.get (PWR_PART_CEIL p) : Int) r)).toNat)

/-- GATED_GOV of a die's islands: at rate 0 those that are neither rate-exempt nor held are in Feather (R128, R349). -/
def gateByRate (d rate : Nat) (s : State) : State :=
  (List.range 32).foldl (fun s i =>
    s.flag (FAB_SEC_STATUS_GATED_GOV d i) (rate == 0 && !exempt s (32 * d + i) && !sectorHeld s (32 * d + i))) s

/-- The channel's credit refilled (R364). -/
def refillCredit (n rate : Nat) (s : State) : State :=
  let c := if rate = 255 then 4095 else min 4095 (s.get (CREW_TQ_CREDIT_CREDIT n) + rate)
  judgeTasks n (s.put (CREW_TQ_CREDIT_CREDIT n) c)

/-- A partition's bucket and rate set. -/
def governPart (power : List (Fin 20 × Nat)) (a : Rat) (p : Nat) (s : State) : State :=
  let (b, rate) := govern s p a ((powerOf power p : Rat) / 1000)
  let s := (s.puts [(PWR_PART_BUCKET p, twos 32 (b * 1000).floor), (PWR_PART_RATE p, rate)]).onPower (fun w =>
    { w with buckets := smSet 0 w.buckets p b })
  if p < 4 then gateByRate p rate s else s

/-- The partitions in Run. -/
def inRuns (s : State) : List Nat := (List.range 20).filter (inRun s)

/-- Every partition in Run governed. With every share 0 the spec states no allowance: a free value stands for it. -/
def governAll (power : List (Fin 20 × Nat)) (s : State) : State :=
  let runs := inRuns s
  let sum := (runs.map (fun p => s.get (PWR_PART_SHARE p))).sum
  let left : Rat := (s.get PWR_MODE_BUDGET : Rat) - (hubPower s : Rat) / 1000
  let (free, s) := if sum = 0 then (let (v, t) := s.free; ((v.toNat : Rat) / 1000, t)) else (0, s)
  runs.foldl (fun s p => governPart power (if sum = 0 then free else left * s.get (PWR_PART_SHARE p) / sum) p s) s

/-- The ticks in a row whose total power has exceeded the budget (R362). -/
def countOver (s : State) : State :=
  s.onPower (fun w => { w with overTicks := if s.get PWR_MODE_BUDGET * 1000 < s.get PWR_TOTAL_MW then w.overTicks + 1 else 0 })

/-- GOVERNOR_TICK (R362 to R366): nothing while the hub is in reset, Moored or halted. Lost telemetry holds rates and
buckets. -/
def execGovernorTick (power : List (Fin 20 × Nat)) (temps : List (Fin 20 × Option Int)) (hubTemp : Int) (s : State) : Res :=
  let s := s.begin
  if !runs s 180 || s.power.moored || s.clocks.halted then .next s
  else
    let s := takeTemps temps hubTemp s
    let s := s.put PWR_MODE_BUDGET (budgetOf s)
    let s := (List.range 20).foldl (fun s p => countEnergy power p s) s
    let s := countOver (s.put PWR_TOTAL_MW ((power.map (·.2)).sum + hubPower s))
    let s := if s.power.blind then s else governAll power s
    .next (((List.range 16).filter (fun n => inRun s (4 + n))).foldl (fun s n => refillCredit n (s.get (PWR_PART_RATE (4 + n))) s) s)

/-- BUDGET_OVER (R362): for 100 consecutive ticks. -/
def execBudgetOver (s : State) : Res :=
  let s := s.begin
  .next (if 100 ≤ s.power.overTicks then raisePwr PWR_CAUSE_OVER s else s)

/-- SPRINT_WINDOW_CLOSE (R365): 50 ms after it opened. -/
def execSprintWindowClose (s : State) : Res :=
  let s := s.begin
  .next (if s.on PWR_MODE_WINDOW && decide (s.power.opened - 1 + 50000000 ≤ s.clocks.ts) then closeWindow s else s)

/-- SPRINT_COOLDOWN_END (R365): four times the window's length after its close. -/
def execSprintCooldownEnd (s : State) : Res :=
  let s := s.begin
  .next (if s.power.closed + 4 * s.power.window ≤ s.clocks.ts then s.flag PWR_MODE_COOLING false else s)

end Sys2Proof.Machine
end

