-- ==== Sys2Proof/Machine/Debug.lean ====
section
/-! DEFINITION. The debug domain (spec/16, R369 to R392): the test access port, forced release, halts of engines and
islands, instruction feeding, triggers. Accesses of the port and of the access sets stand in DebugPort. -/

namespace Sys2Proof.Machine

/-- The debug domain changed. -/
def State.onDebug (s : State) (f : Debug → Debug) : State := { s with dbg := f s.dbg }

/-! The test access port (R369, R371 to R373). -/

/-- The bits that a reset of the debug domain clears (R369): every register of the DBG_ block, and the settings of the
ENG_DBG_ blocks that are marked for POR. -/
def debugMask (r : RegRow) (_ix : List Nat) (f : FieldRow) : Nat :=
  let block := 0x0300000B0000 ≤ r.base && r.base < 0x0300000B8000
  if (block && f.kind != .fixed) || (engDebugAt r.base && f.kind == .por) then ones 0 f.w else 0

/-- TRST_N (R369): low for at least 100 ns. -/
def execTrstN (s : State) : Res :=
  let s := clearFields debugMask [] s.begin
  .next ((s.onDebug (fun d => { coxEn := d.coxEn })).onClocks (fun c => { c with frozen := setDel c.frozen 184 }))

/-- TEST_LOGIC_RESET (R371): through TMS, only the TAP controller and the instruction register. -/
def execTestLogicReset (s : State) : Res := .next (s.begin.onDebug (fun d => { d with ir := 2 }))

/-- An Update-IR (R371): with COX_EN low every instruction but IDCODE is BYPASS. -/
def updateIr (code : Nat) (coxEn : Bool) (s : State) : State :=
  s.onDebug (fun d => { d with ir := if coxEn || code == 2 then code else 0xFF, coxEn := coxEn })

/-- EXTEST (R373): the pins follow the boundary register. -/
def execExtest (coxEn : Bool) (s : State) : Res := .next (updateIr 0x00 coxEn s.begin)

/-- SAMPLE_PRELOAD (R371): the cells are preloaded, the pins stay functional. -/
def execSamplePreload (coxEn : Bool) (cells : List (Fin 6567)) (s : State) : Res :=
  let s := updateIr 0x01 coxEn s.begin
  .next (if coxEn then s.onDebug (fun d => { d with cells := (cells.map (·.val)).foldl setAdd [] }) else s)

/-- IDCODE (R372). -/
def execIdcode (coxEn : Bool) (s : State) : Res :=
  let s := updateIr 0x02 coxEn s.begin
  .next (s.emit (.value (s.get HUB_REV_STEP_LETTER * 2 ^ 28 + 0x0D09 * 2 ^ 12 + 0x6B5 * 2 + 1)))

/-- CLAMP (R373). -/
def execClamp (coxEn : Bool) (s : State) : Res := .next (updateIr 0x03 coxEn s.begin)
/-- HIGHZ (R373). -/
def execHighz (coxEn : Bool) (s : State) : Res := .next (updateIr 0x04 coxEn s.begin)
/-- BYPASS (R371). -/
def execBypass (coxEn : Bool) (s : State) : Res := .next (updateIr 0xFF coxEn s.begin)
/-- DBG_REG (R371). -/
def execDbgReg (coxEn : Bool) (s : State) : Res := .next (updateIr 0x10 coxEn s.begin)
/-- DBG_IMG (R371). -/
def execDbgImg (coxEn : Bool) (s : State) : Res := .next (updateIr 0x11 coxEn s.begin)
/-- RST_OVR (R371). -/
def execRstOvr (coxEn : Bool) (s : State) : Res := .next (updateIr 0x12 coxEn s.begin)

/-- A Coxswain-port load takes words: the loader waits for its stream, or reads it. -/
def coxLoading (s : State) : Bool :=
  (s.config.waitSrc == some 4 && s.config.load.isNone) || s.config.load.any (fun l => !l.isPart && l.src == 4)

/-- DBG_IMG_UPDATE (R375): four bytes appended to the load stream, the low one first; none where the ring is full. -/
def execDbgImgUpdate (data : Word) (full : Bool) (s : State) : Res :=
  let s := s.begin
  if s.dbg.ir ≠ 0x11 then .next s
  else if full || !coxLoading s || ringFull s 4 then .next (s.onDebug (fun d => { d with imgOk := false }))
  else
    let first := s.config.load.isNone
    let s := if first then beginLoad { src := 4, isPart := false } s else s
    .next ((appendStream (toBytes data.toNat 4) s).onDebug (fun d => { d with
      imgOk := true, imgBytes := if first then 4 else (d.imgBytes + 4) % 2 ^ 32 }))

/-! Forced release (R49, R376). -/

/-- The clock domain of a register location. -/
def registerDomain (a : Nat) : Option Nat :=
  match locate a with
  | .chan n off => some (chanDomain n off)
  | .hub off => some (if 0xB8000 ≤ off && off < 0xBC000 then 183 else hubDomain off)
  | _ => none

/-- Offsets and indices of a register's instances. -/
def instances : List (Nat × Nat) → List (Nat × List Nat)
  | [] => [(0, [])]
  | (count, stride) :: ds => (List.range count).flatMap (fun i => (instances ds).map (fun e => (i * stride + e.1, i :: e.2)))

/-- A field given a free value. -/
def freeField (f : Fld) (s : State) : State := let (v, t) := s.free; t.put f v.toNat

/-- The registers of a domain hold any value: free values. -/
def freeRegs (d : Nat) (s : State) : State :=
  (chanRows ++ hubRows).foldl (fun s r => (instances r.dims).foldl (fun s e =>
    if registerDomain (r.base + e.1) == some d then
      r.fields.foldl (fun s f => if f.kind == .fixed || f.kind == .por then s else freeField (f.ref (r.base + e.1) e.2) s) s
    else s) s) s

/-- `k` free words, from the one of number `c`, as one number. -/
def freeNum (c : Nat) : Nat → Nat
  | 0 => 0
  | k + 1 => (Config.freeWord c).toNat + 2 ^ 32 * freeNum (c + 1) k

/-- A free bit. -/
def freeBit (c : Nat) : Bool := (Config.freeWord c).getLsbD 0

/-- A list of at most `k` free entries of `w` words each, from the free word of number `c`. -/
def freeList {α : Type} (k c w : Nat) (f : Nat → α) : List α := (List.range (freeNum c 1 % (k + 1))).map (fun i => f (c + 1 + w * i))

/-- An engine whose registers hold any value; the stores in its buffer are the spurious requests that it may issue (R49). -/
def freeEngine (g : Nat) (s : State) : State :=
  let c := s.freeCtr
  let w (i : Nat) : Word := Config.freeWord (c + i)
  let u := (List.range 40).foldl (fun l i => smSet 0 l i (w i)) ([] : List (Nat × Word))
  let acc := (List.range 16).foldl (fun l i => smSet 0 l i (BitVec.ofNat 40 (freeNum (c + 40 + 2 * i) 2))) ([] : List (Nat × Lane))
  { s.setEng g { s.eng g with
      posted := freeList 8 (c + 86) 6 (fun i =>
        { loc := freeNum i 1, dev := freeNum (i + 1) 2 % 2 ^ 52, bytes := 2 ^ (freeNum (i + 3) 1 % 4), data := freeNum (i + 4) 2 })
      rsv := if freeBit (c + 135) then some (freeNum (c + 136) 1 / 64, freeBit (c + 137)) else none
      u := u, acc := acc, pc := w 72, st := w 73, epc := w 74, est := w 75, ecause := w 76, ectx := w 77, etgt := w 78
      ctxid := w 79, ien := w 80, vbase := w 81, eaddr := w 82, lc := w 83, ls := w 84, le := w 85 } with
    freeCtr := c + 138 }

/-- The macrocells of a sector are numbered from its number times this. -/
def sectorCells : Nat := 55 * 32 * 24

/-- A MAC block's registers of any value, from the free word of number `c`. -/
def freeMac (c : Nat) : Mac :=
  let x := freeNum (c + 8) 1
  { p := BitVec.ofNat 64 (freeNum c 2), prod := BitVec.ofNat 64 (freeNum (c + 2) 2)
    inp := ⟨BitVec.ofNat 27 (freeNum (c + 4) 1), BitVec.ofNat 24 (freeNum (c + 5) 1), BitVec.ofNat 64 (freeNum (c + 6) 2),
      if x.testBit 0 then (if x.testBit 1 then .pcin else .c) else (if x.testBit 1 then .acc else .zero), x.testBit 2, x.testBit 3, x.testBit 4⟩ }

/-- A stage of a memory port's read path of any value. -/
def freeStage (c : Nat) : MemStage :=
  let x := freeNum (c + 4) 1
  { data := BitVec.ofNat 128 (freeNum c 4), ce := x.testBit 0, ue := x.testBit 1 }

/-- The registers of a sector's fabric hold any value: macrocells, MAC blocks, read paths of memory ports. -/
def freeFabric (x : Nat) (s : State) : State :=
  let c := s.freeCtr
  let cells := (List.range sectorCells).foldl (fun l i =>
    setPut l (x * sectorCells + i) ((Config.freeWord (c + i / 32)).getLsbD (i % 32))) s.fabric.cells
  let m := c + sectorCells / 32
  let macs := (List.range 48).foldl (fun l i => smSet {} l (x * 48 + i) (freeMac (m + 9 * i))) s.fabric.macs
  let st := m + 9 * 48
  let stages := (List.range 208).foldl (fun l i =>
    smSet [] l (x * 208 + i) ((List.range 3).map (fun j => freeStage (st + 5 * (3 * i + j))))) s.fabric.stages
  { s with fabric := { s.fabric with cells := cells, macs := macs, stages := stages }, freeCtr := st + 5 * 624 }

/-- A free pair of numbers. -/
def freePair (c : Nat) : Nat × Nat := (freeNum c 1, freeNum (c + 1) 1)

/-- A started descriptor of any value: 24 words. -/
def freeRun (prio : Bool) (c : Nat) : NandRun :=
  let n (i : Nat) : Nat := freeNum (c + i) 1
  { words := (List.range 8).map (fun i => Config.freeWord (c + i)), prio := prio, pc := n 8 % 4096, row := n 9 % 2 ^ 24
    remapped := freeBit (c + 10)
    phase := match n 11 % 6 with
      | 0 => .ready | 1 => .data | 2 => .waitT | 3 => .waitRb (freeNum (c + 12) 2) | 4 => .resumable | _ => .atEnd (n 14 % 256)
    crcBusy := freeBit (c + 15), lastStatus := n 16 % 256, maxCorr := n 17, failMask := n 18 % 256, busy := n 19, diff := n 20
    uop := n 21, fed := freeBit (c + 22) }

/-- A LUN of any value: 90 words. -/
def freeLun (c : Nat) : Lun :=
  { queue := freeList 32 c 1 (fun i => (freeNum i 1 % 2 ^ 19 * 32, (Config.freeWord i).getLsbD 31))
    run := if freeBit (c + 33) then some (freeRun false (c + 34)) else none
    prio := if freeBit (c + 58) then some (freeRun true (c + 59)) else none }

/-- The NAND sequencer of channel `n` in any state. -/
def freeNand (n : Nat) (s : State) : State :=
  let c := s.freeCtr
  let s := (List.range 16).foldl (fun s l => s.setLun n l (freeLun (c + 90 * l))) s
  let d := c + 1440
  { s.setChan n { s.chan n with
      bus := if freeBit d then some (freeNum (d + 1) 1 % 16, freeBit (d + 2)) else none
      last := freeNum (d + 3) 1 % 16
      cfgPend := if freeBit (d + 4) then some (Config.freeWord (d + 5)) else none
      ended := freeList 32 (d + 6) 2 (fun i => (freeNum i 1 % 16, freeBit (i + 1))) } with
    freeCtr := d + 71 }

/-- The codec, the scan engine and the task queue of channel `n` in any state. -/
def freeCrew (n : Nat) (s : State) : State :=
  let c := s.freeCtr
  { s.setChan n { s.chan n with
      jobs := freeList 64 c 1 (fun i => freeNum i 1 % 2 ^ 19 * 32)
      job := if freeBit (c + 65) then some ((List.range 8).map (fun i => Config.freeWord (c + 66 + i))) else none
      scanWaits := freeBit (c + 74)
      tasks := freeList 1024 (c + 75) 5 (fun i =>
        ⟨freeNum i 1 % 2 ^ 20 * 16, freeNum (i + 1) 1 % 4, freeNum (i + 2) 1 % 16,
          if freeBit (i + 3) then some (freeNum (i + 4) 1) else none, freeNum (i + 3) 1 / 2 % 17⟩)
      elig := freeBit (c + 5196) } with
    freeCtr := c + 5197 }

/-- The DRAM controller of channel `n` in any state. -/
def freeDram (n : Nat) (s : State) : State :=
  let c := s.freeCtr
  let req (i : Nat) : DramReq := ⟨freeNum i 2 % 2 ^ 36, freeNum (i + 2) 1⟩
  let d := c + 3 * 193
  { s with
    drams := smSet {} s.drams n {
      reads := freeList 64 c 3 req, writes := freeList 64 (c + 193) 3 req
      held := freeList 64 (c + 386) 3 (fun i => (freeBit i, freeNum (i + 1) 2 % 2 ^ 36))
      seq := freeNum d 1, drain := freeBit (d + 1), drainIdle := freeBit (d + 2)
      strict := freeList 64 (d + 3) 2 freePair, rows := freeList 64 (d + 132) 2 freePair
      acts := freeList 64 (d + 261) 66 (fun i => (freeNum i 1, freeList 32 (i + 1) 2 freePair))
      mitig0 := freeNum (d + 4486) 1, postponed := freeNum (d + 4487) 1 % 9, refAll := freeBit (d + 4488), warm := freeBit (d + 4489)
      retrain := freeBit (d + 4490), failedOnce := freeBit (d + 4491), lastErr := freeNum (d + 4492) 2
      sr := if freeBit (d + 4494) then some .reset else none, began := freeNum (d + 4495) 2
      rolling := freeList 64 (d + 4497) 2 freePair }
    freeCtr := d + 4626 }

/-- What a lane holds that its receive or its quad's transmit clock moves. -/
def freeLanes (d : Nat) (s : State) : State :=
  let c := s.freeCtr
  let words (i : Nat) : List Nat := freeList 16 i 4 (fun j => freeNum j 4)
  if 188 ≤ d ∧ d < 284 then { s with lanes := { s.lanes with rx := smSet [] s.lanes.rx (d - 188) (words c) }, freeCtr := c + 65 }
  else if 284 ≤ d then
    let ls := (List.range 96).filter (fun l => quadOf l == d - 284)
    { s with lanes := { s.lanes with tx := ls.foldl (fun m l => smSet [] m l (words (c + 65 * l))) s.lanes.tx }, freeCtr := c + 65 * 96 }
  else s

/-- The memories of a domain, neither self-tested nor filled, hold any code words: their units. -/
def freeUnits (d : Nat) : List Nat :=
  if d < 128 then [d / 32 * 2048 + d % 32]
  else if 132 ≤ d ∧ d < 148 then ((69 :: List.range 64).map ((d - 132 + 4) * 2048 + ·))
  else if d = 180 then [20 * 2048 + 21, 20 * 2048 + 24]
  else if d = 183 then (List.range 4).map (20 * 2048 + ·)
  else []

/-- They do from now on. -/
def freeMemories (d : Nat) (s : State) : State :=
  let us := freeUnits d
  { s with
    onchip := { s.onchip with
      bytes := s.onchip.bytes.filter (fun e => !us.contains (e.1 / 2 ^ 27))
      wild := s.onchip.wild.filter (fun e => !us.contains e.1) ++ us.map (·, s.freeCtr) }
    freeCtr := s.freeCtr + us.length }

/-- The queues and engines behind the registers of a domain. -/
def freeBlocks (d : Nat) (s : State) : State :=
  if d < 128 then freeFabric d s
  else if 132 ≤ d ∧ d < 148 then freeCrew (d - 132) ((crewOf (d - 132)).foldl (fun s g => freeEngine g s) s)
  else if 148 ≤ d ∧ d < 164 then freeNand (d - 148) s
  else if 164 ≤ d ∧ d < 180 then freeDram (d - 164) s
  else if d = 183 then hubEngines.foldl (fun s g => freeEngine g s) s
  else freeLanes d s

/-- A domain released without waiting (R49): its registers, the blocks behind them and its memories hold any value (assumption 25). -/
def forceRelease (d : Nat) (s : State) : State :=
  (freeMemories d (freeBlocks d (freeRegs d s))).onClocks (fun c => { c with released := setAdd c.released d })

/-- The held domains that an index names: one, or with 0x1FF every one. -/
def heldNamed (s : State) (index : Nat) : List Nat :=
  ((List.range 308).filter (fun d => index == 0x1FF || d == index)).filter (fun d => !s.clocks.released.contains d)

/-- RST_OVR_UPDATE (R49, R376). -/
def execRstOvrUpdate (key : BitVec 8) (index : BitVec 9) (s : State) : Res :=
  let s := s.begin
  if s.dbg.ir ≠ 0x12 ∨ key ≠ 0xA5#8 ∨ !s.on SEC_DBG_POLICY_FORCE then .next s
  else match heldNamed s index.toNat with
    | [] => .next s
    | ds => .next ((ds.foldl (fun s d => forceRelease d s) s).flag RST_STATUS_FORCED true)

/-! Resets through DBG_RST (R392). -/

/-- A write of DBG_RST. -/
def dbgRst (key scope part : Nat) (s : State) : State :=
  if key ≠ 0xA5 then s
  else match scope with
    | 1 => startReset RST_CAUSE_DEBUG .warm true s
    | 2 => if part ≤ 20 then startReset RST_CAUSE_DEBUG (.part part) false s else s
    | _ => s

/-- DBG_RST_WARM (R392). -/
def execDbgRstWarm (req : Requester) (key : BitVec 8) (s : State) : Res :=
  .next (guardedWrite s.begin req 0x0300000B0004 4 (dbgRst key.toNat 1 0))

/-- DBG_RST_PARTITION (R392). -/
def execDbgRstPartition (req : Requester) (key : BitVec 8) (part : BitVec 5) (s : State) : Res :=
  .next (guardedWrite s.begin req 0x0300000B0004 4 (dbgRst key.toNat 2 part.toNat))

/-! The weigh-enough halt (R379 to R383). -/

/-- The location of a register of an engine's ENG_DBG_ block. -/
def engDbgAt (g off : Nat) : Nat := engBase g + 0x800 + off

/-- The engine can take a halt: it runs or is in Feather, its clock is not stopped. -/
def canHalt (s : State) (g : Nat) : Bool :=
  runs s (engDomain g) && !partFailed s (engPart g) && !inEasy s (engPart g) && !s.clocks.halted
    && s.on (ENG_CTRL_RUN g) && (s.get (ENG_STATUS_STATE g) == 1 || s.get (ENG_STATUS_STATE g) == 2)

/-- ENGINE_HALT_TAKEN (R379, R380): at a clean boundary, or where the halt is forced. -/
def execEngineHaltTaken (g : Eng) (next : Option Yz) (s : State) : Res :=
  let s := s.begin
  match (s.eng g).haltReq with
  | none => .next s
  | some (cause, hit) =>
    if !canHalt s g || !haltWaits s g next then .next s
    else .next (takeHalt g cause hit ((s.eng g).rep.isSome || (s.eng g).atom.isSome) s)

/-- A halt request that waits is to be forced. -/
def forceHalt (g : Nat) (s : State) : State :=
  if (s.eng g).haltReq.isSome then s.setEng g { s.eng g with haltForce := true } else s

/-- HALT_FORCE_TIMEOUT (R380): 8,192 engine cycles after the request arrived. -/
def execHaltForceTimeout (g : Eng) (s : State) : Res := .next (forceHalt g s.begin)

/-- A watchdog that was frozen counts on from at least `least` (R203, R256, R390). -/
def thawWatchdog (load count : Fld) (least : Nat) (s : State) : State :=
  if s.get load = 0 then s else s.put count (max least (s.get count))

/-- The engine goes on where it stands (R383); `step` halts it again after one unit. -/
def resumeEngine (step : Bool) (g : Nat) (s : State) : State :=
  if !s.on (ENG_DBG_HALTED g) || (s.eng g).feeding then s
  else
    let s := s.setEng g { s.eng g with resumed := true, stepping := step, stepBegun := false }
    let s := s.puts [(ENG_DBG_HALTED g, 0), (ENG_STATUS_STATE g, 1)]
    let s := if s.on DBG_WDT_POLICY_ENG_RUN then s else thawWatchdog (ENG_WDT_LOAD_LOAD g) (ENG_WDT_COUNT_COUNT g) 4096 s
    if g < 1024 && !s.on DBG_WDT_POLICY_CH_RUN && !(crewOf (g / 64)).any (fun h => s.on (ENG_DBG_HALTED h))
    then thawWatchdog (CH_SWDT_LOAD_LOAD (g / 64)) (CH_SWDT_COUNT_COUNT (g / 64)) 100 s else s

/-- A write of ENG_DBG_CTRL: its settings, then HALT, RESUME, STEP and FORCE. -/
def writeEngDbg (g v : Nat) (s : State) : State :=
  let s := writeReg s (engDbgAt g 0) v
  let s := if v.testBit 0 then haltRequest g 1 0 s else s
  let s := if v.testBit 1 then resumeEngine false g s else s
  let s := if v.testBit 2 && s.on SEC_DBG_POLICY_HALT then resumeEngine true g s else s
  if v.testBit 3 then forceHalt g s else s

/-- The settings of ENG_DBG_CTRL as they stand, with an action bit. -/
def engDbgWith (s : State) (g act : Nat) : Nat :=
  (s.on (ENG_DBG_HOR g)).toNat * 2 ^ 8 + (s.on (ENG_DBG_STEP_IE g)).toNat * 2 ^ 4 + 2 ^ act

/-- ENG_DBG_HALT (R379). -/
def execEngDbgHalt (req : Requester) (g : Eng) (s : State) : Res :=
  .next (guardedWrite s.begin req (engDbgAt g 0) 4 (fun s => writeEngDbg g (engDbgWith s g 0) s))

/-- ENG_DBG_FORCE (R380). -/
def execEngDbgForce (req : Requester) (g : Eng) (s : State) : Res :=
  .next (guardedWrite s.begin req (engDbgAt g 0) 4 (fun s => writeEngDbg g (engDbgWith s g 3) s))

/-- ENG_DBG_RESUME (R383). -/
def execEngDbgResume (req : Requester) (g : Eng) (s : State) : Res :=
  .next (guardedWrite s.begin req (engDbgAt g 0) 4 (fun s => writeEngDbg g (engDbgWith s g 1) s))

/-- ENG_DBG_STEP (R383), with STEP_IE. -/
def execEngDbgStep (req : Requester) (g : Eng) (ie : Bool) (s : State) : Res :=
  .next (guardedWrite s.begin req (engDbgAt g 0) 4 (fun s => writeEngDbg g (withBit (engDbgWith s g 2) 4 ie) s))

/-- A write of ENG_DBG_PC (R383): only while the engine is halted; refused where the policy forbids it (R391). -/
def writeEngDbgPc (g v : Nat) (s : State) : State :=
  if !s.on (ENG_DBG_HALTED g) || !s.on SEC_DBG_POLICY_MEM then s
  else
    let s := s.setEng g { s.eng g with pc := BitVec.ofNat 32 (v / 4 * 4), slot := none, rep := none }
    s.puts [(ENG_DBG_PC g, v / 4), (ENG_DBG_IN_SLOT g, 0), (ENG_DBG_LEFT g, 0)]

/-- ENG_DBG_PC_WRITE (R383). -/
def execEngDbgPcWrite (req : Requester) (g : Eng) (data : Word) (s : State) : Res :=
  .next (guardedWrite s.begin req (engDbgAt g 8) 4 (writeEngDbgPc g data.toNat))

/-- A fed instruction is over. -/
def endFeed (g : Nat) (s : State) : State :=
  (s.setEng g { (s.eng g).complete with feeding := false }).put (ENG_DBG_FEED_BUSY g) 0

/-- A fed instruction executes (R382): outside slot, REPEAT and sequence; an exception writes nothing but FEED_ERR; a crew
port request or a FENCE keeps FEED_BUSY set. -/
def feed (g : Eng) (i : Yz) (s : State) : State :=
  let e := s.eng g
  let s := s.setEng g { e with feeding := true }
  match perform g i s with
  | .done _ _ s => endFeed g s
  | .trap x s => endFeed g (s.put (ENG_DBG_FEED_ERR g) x.code)
  | .stall s => s.put (ENG_DBG_FEED_BUSY g) 1

/-- A write of ENG_DBG_INSTR (R382). -/
def writeEngInstr (g : Eng) (v : Word) (s : State) : State :=
  if !s.on (ENG_DBG_HALTED g) || (s.eng g).feeding || !s.on SEC_DBG_POLICY_MEM then s
  else match decodeYezar v with
    | none => s.put (ENG_DBG_FEED_ERR g) 0x01
    | some i =>
      if !i.isDefined then s.put (ENG_DBG_FEED_ERR g) 0x01
      else if notFed i then s.put (ENG_DBG_FEED_ERR g) 0x02
      else feed g i s

/-- INSTRUCTION_FEED (R382). -/
def execInstructionFeed (req : Requester) (g : Eng) (word : Word) (s : State) : Res :=
  .next (guardedWrite s.begin req (engDbgAt g 0x14) 4 (writeEngInstr g word))

/-- A write of a comparator's CTRL clears its flag (R385). -/
def writeEngCmp (g k v : Nat) (s : State) : State :=
  let s := writeReg s (engDbgAt g (0x4C + k * 0x10)) v
  s.setEng g { s.eng g with flags := withBit (s.eng g).flags k false }

/-- A write of a register of an ENG_DBG_ block by its offset there. -/
def writeEngDebugReg (g : Eng) (off : Nat) (v : Word) (s : State) : State :=
  if off = 0 then writeEngDbg g v.toNat s
  else if off = 8 then writeEngDbgPc g v.toNat s
  else if off = 0x14 then writeEngInstr g v s
  else if 0x40 ≤ off ∧ off < 0xC0 ∧ off % 0x10 = 0xC then writeEngCmp g ((off - 0x40) / 0x10) v.toNat s
  else writeReg s (engDbgAt g off) v.toNat

/-- The engines that DBG_CREW_HALT and DBG_CREW_RESUME name: bits 15 to 0 crews, bits 19 to 16 hub engines. -/
def namedEngines (v : Nat) : List Nat := crewsOf v ++ ((List.range 4).filter (fun i => v.testBit (16 + i))).map (1024 + ·)

/-- A write of DBG_CREW_HALT. -/
def crewHalt (v : Nat) (s : State) : State := haltAll 2 (namedEngines v) s

/-- DBG_CREW_HALT (R386). -/
def execDbgCrewHalt (req : Requester) (data : Word) (s : State) : Res :=
  .next (guardedWrite s.begin req 0x0300000B0010 4 (crewHalt data.toNat))

/-- A halted engine is released; a request not yet taken is cancelled. -/
def releaseEngine (s : State) (g : Nat) : State :=
  let s := if (s.eng g).haltReq.isSome then
      (s.setEng g { s.eng g with haltReq := none, haltForce := false }).puts [(ENG_DBG_PENDING g, 0), (ENG_DBG_DEFERRED g, 0)]
    else s
  resumeEngine false g s

/-- A write of DBG_CREW_RESUME. -/
def crewResume (v : Nat) (s : State) : State := (namedEngines v).foldl releaseEngine s

/-- DBG_CREW_RESUME (R386). -/
def execDbgCrewResume (req : Requester) (data : Word) (s : State) : Res :=
  .next (guardedWrite s.begin req 0x0300000B0014 4 (crewResume data.toNat))

/-! Islands and triggers (R387 to R389). -/

/-- A write of DBG_ISL_HALT (R387): without the policy's HALT no island is newly halted (R391). A halt request wakes the die
from Easy (R353). Edges left to step are dropped where the island's bits clear. -/
def writeIslHalt (d v : Nat) (s : State) : State :=
  let old := s.get (DBG_ISL_HALT_SEC d)
  let v := if s.on SEC_DBG_POLICY_HALT then v else v &&& old
  let s := s.put (DBG_ISL_HALT_SEC d) v
  let s := s.onDebug (fun b => { b with isl := b.isl.filter (fun e => islHalted s e.1) })
  if clearBits v old != 0 then wakePart d s else s

/-- DBG_ISL_HALT (R387). -/
def execDbgIslHalt (req : Requester) (die : Fin 4) (data : Word) (s : State) : Res :=
  .next (guardedWrite s.begin req (0x0300000B0020 + die.val * 4) 4 (writeIslHalt die data.toNat))

/-- A write of DBG_ISL_STEP: N edges for the halted island of a sector. -/
def writeIslStep (v : Nat) (s : State) : State :=
  let x := 32 * slice v 30 2 + slice v 25 5
  if !islHalted s x || !s.on SEC_DBG_POLICY_HALT || v % 256 = 0 then s
  else s.onDebug (fun b => { b with isl := smSet 0 b.isl (leaderOf s x) (v % 256) })

/-- DBG_ISL_STEP (R387). -/
def execDbgIslStep (req : Requester) (data : Word) (s : State) : Res :=
  .next (guardedWrite s.begin req 0x0300000B0030 4 (writeIslStep data.toNat))

/-- TRIG_IN (R389). -/
def execTrigIn (s : State) : Res := .next (xtSource 0 s.begin)

/-- A write of DBG_XT_PULSE: source 6 of each channel whose bit is set (R388). -/
def xtPulse (v : Nat) (s : State) : State := xtChannels 6 ((List.range 8).filter v.testBit) s

/-- DBG_XT_PULSE (R388). -/
def execDbgXtPulse (req : Requester) (data : BitVec 8) (s : State) : Res :=
  .next (guardedWrite s.begin req 0x0300000B0248 4 (xtPulse data.toNat))

end Sys2Proof.Machine
end

