-- ==== Sys2Proof/Machine/Engines.lean ====
section
/-! DEFINITION. The events of a Yezar engine that no instruction makes (spec/08, R180, R198 to R206): interrupts, the end of
Feather, outside accesses to its memories, its watchdog, its control registers and its timer. -/

namespace Sys2Proof.Machine

/-- The lowest line that is pending and enabled (R198). -/
def lowestLine (s : State) (g : Nat) : Option Nat :=
  (List.range 32).find? (fun l => (s.get (ENG_IRQ_PEND_PEND g)).testBit l && (s.eng g).ien.getLsbD l)

/-- The engine takes an interrupt at this boundary (R197, R198): IE set, EXL clear, no halt comes first (R379), and a step
leaves interrupts on (R383). -/
def takesInterrupt (s : State) (g : Nat) (next : Option Yz) : Bool :=
  let e := s.eng g
  engReady s g && e.haltReq.isNone && e.st.getLsbD 8 && !e.st.getLsbD 9 && e.clean next
    && (!e.stepping || s.on (ENG_DBG_STEP_IE g))

/-- INTERRUPT_ENTRY (R195, R198). -/
def execInterruptEntry (g : Eng) (next : Option Yz) (s : State) : Res :=
  let s := s.begin
  if !takesInterrupt s g next then .next s
  else match lowestLine s g with
    | some l => .next (takeException g { code := 0x20, info := l } s)
    | none => .next s

/-- FEATHER_WAKE (R201): a pending enabled line, or a halt request. -/
def execFeatherWake (g : Eng) (s : State) : Res :=
  let s := s.begin
  if s.get (ENG_STATUS_STATE g) = 2 && runs s (engDomain g) && !inEasy s (engPart g) && !s.clocks.halted
      && (lineReady s g || (s.eng g).haltReq.isSome)
  then .next (s.put (ENG_STATUS_STATE g) 1) else .next s

/-! Outside accesses (R180). -/

/-- The device address of a byte of a channel engine's memory. -/
def engMemAddress (g inst off : Nat) : Nat :=
  0x020000000000 + g / 64 * 0x10000000 + 0x1000000 + g % 64 * 0x40000 + inst * 0x10000 + off

/-- ENGINE_MEMORY_OUTSIDE_ACCESS (R180): 32 bits, with the requester's rights. -/
def execEngineMemoryOutsideAccess (req : Requester) (g : Fin 1024) (inst : Fin 3) (off : Fin 32768) (write : Option Word)
    (s : State) : Res :=
  let s := s.begin
  let a := engMemAddress g inst off
  if s.clocks.halted && (groupOf req).any (· < 4) then .next (s.emit .completerAbort)
  else match turnOf (transferAsk req 0 a 4 (if write.isSome then 1 else 0)) s, write with
    | (.wait, s), _ => .next (s.emit .held)
    | (.fail, s), _ => .next (s.emit (statusOut 0 .busError))
    | (.go, s), none =>
      let r := (memRead (plainAccess req) a 4 s).getD ⟨.decodeError, 0, s⟩
      .next (r.s.emit (match r.st with
        | .ok => .value r.v
        | st => statusOut r.v st))
    | (.go, s), some v =>
      let (_, st, s) := rangeWrite (plainAccess req) a (toBytes v.toNat 4) s
      .next (s.emit (statusOut 0 st))

/-! The watchdog (R202, R203). -/

/-- The engine's watchdog counts: the core is released, not held in reset or in Easy, and not frozen by a halt (R202, R203,
R390). -/
def watchdogRuns (s : State) (g : Nat) : Bool :=
  s.get (ENG_WDT_LOAD_LOAD g) != 0 && s.on (ENG_CTRL_RUN g) && runs s (engDomain g) && !partFailed s (engPart g)
    && !inEasy s (engPart g) && !s.clocks.halted
    && (!s.on (ENG_DBG_HALTED g) || s.on DBG_WDT_POLICY_ENG_RUN)

/-- The unit identifier of an engine (R15). -/
def unitOfEngine (g : Nat) : Nat := unitId (engPart g) (engUnit g)

/-- The core is reset and starts again at ENG_BOOT with code 0x10 (R202, steps 1 to 4); where the restart fails the engine
enters a double fault instead. The count starts again from LOAD. Entries of the store buffer that the crew port has not
accepted are discarded, and so will be the responses to the others. The four steps are one command: no other falls between them, so
STATE 0x5 is over when it ends (assumption 93). -/
def biteEngine (g : Nat) (fails : Bool) (s : State) : State :=
  let e := s.eng g
  let s := s.setEng g { e with posted := (e.posted.filter (·.taken)).map (fun p => { p with mute := true }) }
  let s := s.put (ENG_WDT_COUNT_COUNT g) (s.get (ENG_WDT_LOAD_LOAD g))
  let s := (startCore g 0x10 s).count (ENG_STATUS_BITES g)
  if fails then doubleFault g s else raiseEng g s

/-- The bite is the unit reset of a recovery that the engine's double fault began (R200, R336). -/
def resetsForFault (s : State) (g : Nat) : Bool :=
  s.get (ENG_STATUS_STATE g) == 4 && s.wake.recs.any (fun r => r.kind == 6 && r.unit == unitOfEngine g)

/-- ENGINE_WATCHDOG_BITE (R202): then the Wake's recovery of KIND 0x5, or 0x6 for a hub engine (R336). -/
def execEngineWatchdogBite (g : Eng) (restartFails : Bool) (s : State) : Res :=
  let s := s.begin
  if !watchdogRuns s g then .next s
  else
    let t := slotEngineLost g (biteEngine g restartFails s)
    .next (if resetsForFault s g then t else beginRecovery (if g.val < 1024 then 5 else 6) (unitOfEngine g) t)

/-! Registers of the ENG_ block (R198, R202, R205). -/

/-- ENG_WDT_LOAD. -/
def execEngWdtLoad (req : Requester) (g : Eng) (data : Word) (s : State) : Res :=
  .next (guardedWrite s.begin req (engBase g + 0x20) 4 (writeEngReg g 0x20 data.toNat))

/-- ENG_WDT_KICK. -/
def execEngWdtKick (req : Requester) (g : Eng) (key : BitVec 8) (s : State) : Res :=
  .next (guardedWrite s.begin req (engBase g + 0x28) 4 (writeEngReg g 0x28 key.toNat))

/-- ENG_CTRL_RUN: a write of RUN that leaves RESTART at 0. -/
def execEngCtrlRun (req : Requester) (g : Eng) (run : Bool) (s : State) : Res :=
  .next (guardedWrite s.begin req (engBase g) 4 (writeEngCtrl g run false))

/-- ENG_CTRL_RESTART. -/
def execEngCtrlRestart (req : Requester) (g : Eng) (run : Bool) (s : State) : Res :=
  .next (guardedWrite s.begin req (engBase g) 4 (writeEngCtrl g run true))

/-- ENG_IRQ_SET. -/
def execEngIrqSet (req : Requester) (g : Eng) (lines : BitVec 16) (s : State) : Res :=
  .next (guardedWrite s.begin req (engBase g + 0x14) 4 (writeEngReg g 0x14 lines.toNat))

/-- ENG_TMR_ARM: a write of ENG_TMR_HI. -/
def execEngTmrArm (req : Requester) (g : Eng) (hi : Word) (s : State) : Res :=
  .next (guardedWrite s.begin req (engBase g + 0x34) 4 (writeEngReg g 0x34 hi.toNat))

/-- ENGINE_TIMER (R198, R353): the timestamp has reached the armed compare; line 16 is set once, and a partition in Easy
wakes. -/
def execEngineTimer (g : Eng) (s : State) : Res :=
  let s := s.begin
  let e := s.eng g
  if !e.tmrArmed || s.clocks.ts < s.get64 (ENG_TMR_LO_TS g) (ENG_TMR_HI_TS g) then .next s
  else .next (wakePart (engPart g) (setLine (s.setEng g { e with tmrArmed := false }) g 16))

/-- UNDEFINED_INSTRUCTION (R194, R206): the engine issues a word that decodes to no instruction, or to one with a register
its row does not allow; a word that decodes is not this command's. -/
def execUndefinedInstruction (g : Eng) (word : Word) (s : State) : Res :=
  let s := s.begin
  match decodeYezar word with
  | none => .next (runYezar g none s)
  | some i => .next (if i.isDefined then s else runYezar g none s)

end Sys2Proof.Machine
end

