-- ==== Sys2Proof/Machine/Routing.lean ====
section
/-! DEFINITION. The routing inside a sector and across the members of a fused island (R62, R71 to R74): which tiles a segment
passes, which elements stand beside a tile, and which segment may drive another. Which of the segments that pass a tile are
candidates of a multiplexer is fixed in silicon and not given; every one counts as a candidate (assumption 76). -/

namespace Sys2Proof.Machine

/-- A tile: sector, column, row (R62). -/
abbrev Tile := Nat × Nat × Nat

/-- The tile `i` steps away from a tile, in columns to the east and rows to the south: in the same sector, or in another member of
the fused island where only columns are crossed. Segments end at the edge. -/
def tileAt (s : State) (x col row : Nat) (dx dy : Int) (i : Nat) : Option Tile :=
  let c : Int := 55 * (x % 8 : Nat) + col + dx * i
  let r : Int := row + dy * i
  if 0 ≤ c ∧ c < 440 ∧ 0 ≤ r ∧ r < 32 then
    let y := x / 8 * 8 + c.toNat / 55
    if y = x ∨ (dy = 0 ∧ leaderOf s y = leaderOf s x) then some (y, c.toNat % 55, r.toNat) else none
  else none

/-- One step in a direction, in columns and rows. -/
def dirStep : Dir → Int × Int
  | .north => (0, -1)
  | .south => (0, 1)
  | .east => (1, 0)
  | .west => (-1, 0)

/-- One step to a neighbour, clockwise from north. -/
def nearStep (side : Nat) : Int × Int :=
  [(0, -1), (1, -1), (1, 0), (1, 1), (0, 1), (-1, 1), (-1, 0), (-1, -1)].getD side (0, 0)

/-- The tiles that a segment passes, its start first (R73, R74): a local segment leads to a neighbour in the same sector. -/
def segTiles (s : State) (g : Seg) : List Tile :=
  let run (d : Int × Int) (n : Nat) : List Tile :=
    (List.range (n + 1)).filterMap (tileAt s g.sec g.col g.row d.1 d.2)
  match g.kind with
  | .near side _ => (run (nearStep side) 1).filter (·.1 == g.sec.val)
  | .four d _ => run (dirStep d) 4
  | .sixteen d _ => run (dirStep d) 16

/-- The tile from which a segment starts. -/
def segStart (g : Seg) : Tile := (g.sec.val, g.col.val, g.row.val)

/-- Segment `h` may drive segment `g`: `g` starts at an end of `h` (R73). -/
def segJoins (s : State) (h g : Seg) : Bool :=
  segStart g == segStart h || (segTiles s h).getLast? == some (segStart g)

/-- Where a MAC block stands: column and rows (R62). -/
def macPlace (idx : Nat) : Nat × List Nat := ([13, 34, 48].getD (idx / 16) 0, [2 * (idx % 16), 2 * (idx % 16) + 1])

/-- Where an Ingot (0 to 95) or a Billet (96 to 103) stands. -/
def memPlace (inst : Nat) : Nat × List Nat :=
  if inst < 96 then ([6, 20, 41].getD (inst / 32) 0, [inst % 32]) else (27, (List.range 4).map (4 * (inst - 96) + ·))

/-- A tile is one that the element stands on, or the tile of a block beside it (R73). -/
def isBeside (place : Nat × List Nat) (x : Nat) (t : Tile) : Bool :=
  t.1 == x && place.2.contains t.2.2 && (t.2.1 == place.1 || t.2.1 + 1 == place.1 || t.2.1 == place.1 + 1)

end Sys2Proof.Machine
end

