-- ==== Sys2Proof/Machine/Fabric.lean ====
section
/-! DEFINITION. The fabric (spec/03): product-term blocks, MAC blocks, fabric memory ports and banks on one delivered edge,
and the commands of islands, fences, user interrupts and banks. -/

namespace Sys2Proof.Machine

/-- A product term of a block (R63). -/
def termValue (t : TermCfg) (x : BitVec 48) : Bool :=
  t.en && (x &&& t.trueLits == t.trueLits) && (~~~x &&& t.compLits == t.compLits)

/-- The terms of pair `p` that are steered to destination `d`, ORed (R65). -/
def steered (terms : List TermCfg) (x : BitVec 48) (p d : Nat) : Bool :=
  ((terms.drop (8 * p)).take 8).any (fun t => t.dest.val == d && termValue t x)

/-- Some term of pair `p` is steered to destination `d`. -/
def hasTerm (terms : List TermCfg) (p d : Nat) : Bool :=
  ((terms.drop (8 * p)).take 8).any (fun t => t.dest.val == d)

/-- What a control-term selection gives: 1 for clock enables where none is selected, 0 for reset and set (R64). -/
def ctlValue (b : BlockEdge) (x : BitVec 48) (sel : Fin 3) (first : Nat) (none : Bool) : Bool :=
  match sel.val with
  | 0 => none
  | i => (b.ctl[first + i - 1]?).elim false (fun t => termValue t x)

/-- What a macrocell computes: its OR output with the cascade (R66), its output s, its carry-out (R68). -/
structure CellOut where
  orOut : Bool
  s : Bool
  cout : Bool
  deriving DecidableEq, Repr

/-- Macrocell `m` of a block with inputs `x` (R66 to R68): `orBelow` is the OR output of M(m - 2). -/
def cellOut (b : BlockEdge) (x : BitVec 48) (c : CellCfg) (donor : Bool) (m : Nat) (orBelow cin : Bool) : CellOut :=
  let sum := steered b.terms x (m / 2) (1 + m % 2) || (c.casc && orBelow)
  let loc := if donor then false else sum
  let v := if hasTerm b.terms (m / 2) (3 + m % 2) then steered b.terms x (m / 2) (3 + m % 2) else c.xorConst
  if c.arith then ⟨sum, xor (xor loc v) cin, (loc && v) || (cin && xor loc v)⟩ else ⟨sum, xor loc v, cin⟩

/-- The cells of a block from M`m` on, given the OR outputs of the two below and the carry-in. -/
def cellOuts (b : BlockEdge) (x : BitVec 48) : List CellCfg → Nat → Bool → Bool → Bool → List CellOut
  | [], _, _, _, _ => []
  | c :: cs, m, or2, or1, cin =>
    let donor := (cs[1]?).elim false (·.casc)
    let o := cellOut b x c donor m or2 cin
    o :: cellOuts b x cs (m + 1) or1 o.orOut o.cout

/-- The next value of a macrocell's register (R69, R70). -/
def cellNext (b : BlockEdge) (x : BitVec 48) (c : CellCfg) (gsr : Bool) (s q : Bool) : Bool :=
  let ce := ctlValue b x c.ce 0 true
  let sr := ctlValue b x c.sr 2 false
  let ss := ctlValue b x c.ss 4 false
  if gsr then c.init
  else match c.mode with
    | .d => if sr then false else if ss then true else if ce then s else q
    | .t => if sr then false else if ss then true else if ce then xor q s else q
    | .latch => if ce then (if sr then false else if ss then true else s) else q

/-- The number of a block among all tiles. -/
def blockKey (b : BlockEdge) : Nat := (b.sec.val * 55 + b.col.val) * 32 + b.row.val

/-- The number of a macrocell. -/
def cellKey (b : BlockEdge) (m : Nat) : Nat := blockKey b * 24 + m

/-- The registered output of a macrocell: the state lists the cells that differ from their initial value. -/
def cellQ (s : State) (b : BlockEdge) (c : CellCfg) (m : Nat) : Bool :=
  xor c.init (s.fabric.cells.contains (cellKey b m))

/-- The registers of a block updated. -/
def putCells (b : BlockEdge) (x : BitVec 48) (gsr : Bool) (old : State) : List (CellCfg × CellOut) → Nat → State → State
  | [], _, s => s
  | (c, o) :: l, m, s =>
    let q := cellNext b x c gsr o.s (cellQ old b c m)
    putCells b x gsr old l (m + 1)
      { s with fabric := { s.fabric with cells := setPut s.fabric.cells (cellKey b m) (xor q c.init) } }

/-- The global set/reset of a sector is asserted (R128, R131). -/
def gsrAsserted (s : State) (x : Nat) : Bool := !s.fabric.gsrReleased.contains x

/-- The 51-bit product of a MAC block, extended to 64 bits (R75). -/
def macProduct (e : MacEdge) (i : MacIn) : BitVec 64 :=
  (if e.aSigned then i.a.signExtend 64 else i.a.setWidth 64) * (if e.bSigned then i.b.signExtend 64 else i.b.setWidth 64)

/-- The signed overflow of a 64-bit add or subtract (R75). -/
def macOverflow (x y : BitVec 64) (sub : Bool) : Bool :=
  let r : Int := if sub then x.toInt - y.toInt else x.toInt + y.toInt
  r < -(2 ^ 63) || 2 ^ 63 ≤ r

/-- A MAC block on one edge: its next registers, the value it outputs, its overflow (R75, R76). C and the controls keep step with
the product that they belong to, so that the latency of every input is the number of registers enabled (assumption 13). In a cycle
with CLR or LOAD, in which p does not take the sum, OVF is 0 (assumption 13). -/
def macStep (e : MacEdge) (pcin : BitVec 64) (m : Mac) : Mac × BitVec 64 × Bool :=
  let first := if e.regIn then m.inp else e.inp
  let comb := macProduct e first
  let prod := if e.regProd then m.prod else comb
  let i := if e.regProd then m.mid else first
  let addend := match i.addend with
    | .acc => m.p
    | .c => i.c
    | .pcin => pcin
    | .zero => 0
  let next := if i.clr then 0 else if i.load then i.c else if i.sub then addend - prod else addend + prod
  let ovf := !i.clr && !i.load && macOverflow addend prod i.sub
  let m' : Mac := if e.ce then
      { p := if e.regOut then next else m.p, prod := if e.regProd then comb else m.prod
        mid := if e.regProd then first else m.mid, inp := if e.regIn then e.inp else m.inp }
    else m
  (m', if e.regOut then m'.p else next, ovf)

/-- The MAC block above in the same column, whose registered output is the cascade input (R76). -/
def cascadeIn (s : State) (e : MacEdge) : BitVec 64 :=
  if e.idx.val % 16 = 0 then (List.range 64).foldl (fun v i => v + BitVec.ofNat 64 ((Config.freeNet s.freeCtr (2 ^ 50 + i)).toNat * 2 ^ i)) 0
  else (smGet {} s.fabric.macs (e.sec.val * 48 + e.idx.val - 1)).p

/-- The read latency of a port in stages (R92). -/
def memLatency (e : MemEdge) : Nat := (if e.inst.val < 96 then 1 else 2) + e.outReg.toNat

/-! The levels between the elements in the cycle that an edge ends (R71 to R74). -/

/-- The levels of an island: the state before the edge, the settings, the elements, and what blocks and MAC blocks put out, by
`blockKey`, or 2^20 + 48 × sector + index: of a block s of M0 to M23, the carry-out in bit 24, q from bit 25 on; of a MAC block
its output and OVF. -/
structure Net where
  s : State
  logic : Logic
  macs : List MacEdge
  mems : List MemEdge
  tab : List (Nat × Nat) := []

/-- A bit that an element puts out, none where the edge does not list the element. -/
def Net.bit (n : Net) (k i : Nat) : Option Bool := (n.tab.find? (·.1 == k)).map (·.2.testBit i)

/-- What a memory port presents before the edge. -/
def memShown (s : State) (e : MemEdge) (portB : Bool) : MemStage :=
  (smGet [] s.fabric.stages ((e.sec.val * 104 + e.inst.val) * 2 + portB.toNat)).getD (memLatency e - 1) {}

/-- The level that a driver other than a segment gives the segment `g` (R71 to R74), none where the driver does not stand there. -/
def srcBit (n : Net) (g : Seg) : SegSrc → Option Bool
  | .cell m reg => n.bit ((g.sec.val * 55 + g.col.val) * 32 + g.row.val) (if reg then 25 + m else m)
  | .carry => n.bit ((g.sec.val * 55 + g.col.val) * 32 + g.row.val) 24
  | .mac idx b => if isBeside (macPlace idx) g.sec (segStart g) then n.bit (2 ^ 20 + g.sec.val * 48 + idx.val) b else none
  | .mem inst portB b =>
    if isBeside (memPlace inst) g.sec (segStart g) then
      (n.mems.find? (fun e => e.sec == g.sec && e.inst == inst)).map (fun e =>
        let o := memShown n.s e portB
        if b.val < 128 then o.data.getLsbD b else if b.val = 128 then o.ce else o.ue)
    else none
  | .pin bank b => if bankOwner bank == g.sec.val then some ((smGet {} n.s.fabric.banks bank).inp.testBit b) else none
  | .bundle rx b =>
    (n.s.clocks.bundles.find? (fun e => !e.2.stream && e.2.dst == g.sec.val && e.2.rxPort == rx.val)).map (·.2.level.getLsbD b)
  | .port v => some v
  | .seg _ => none

/-- The level of a segment: its driver's, through as many segments as the routing has (R73). -/
def segBit (n : Net) : Nat → Seg → Option Bool
  | 0, _ => none
  | k + 1, g =>
    match n.logic.routes.find? (·.seg == g) with
    | none => none
    | some r => match r.src with
      | .seg h => if segJoins n.s h g then segBit n k h else none
      | src => srcBit n g src

/-- The level at a tap: the segment's, where it passes a tile at which the pin stands. -/
def tapBit (n : Net) (g : Seg) (here : Tile → Bool) : Option Bool :=
  if (segTiles n.s g).any here then segBit n (n.logic.routes.length + 1) g else none

/-- The 48 inputs of a block: each takes local feedback or a segment that passes the tile (R71, R73); an input that nothing drives
has a free level. -/
def blockInputs (n : Net) (b : BlockEdge) : BitVec 48 :=
  BitVec.ofNat 48 (ofBits ((List.range 48).map (fun i =>
    let v := match b.ins[i]? with
      | some (.own m reg) => n.bit (blockKey b) (if reg then 25 + m else m)
      | some (.seg g) => tapBit n g (· == (b.sec.val, b.col.val, b.row.val))
      | none => none
    v.getD (Config.freeNet n.s.freeCtr (blockKey b * 64 + i)))))

/-- The carry-in of M0 of a block (R72): from the block above, if it is in the same sector's column. -/
def carryIn (n : Net) (b : BlockEdge) (x : BitVec 48) : Bool :=
  match b.cin with
  | .zero => false
  | .one => true
  | .i47 => x.getLsbD 47
  | .above => ((if b.row.val = 0 then none else n.bit (blockKey b - 1) 24)).getD (Config.freeNet n.s.freeCtr (blockKey b * 64 + 48))

/-- A macrocell that the image leaves unused: it passes the carry on. -/
def idleCell : CellCfg := ⟨.d, false, 0, 0, 0, false, false, false⟩

/-- What the macrocells of a block compute in the cycle. -/
def blockOuts (n : Net) (b : BlockEdge) : List CellOut :=
  let x := blockInputs n b
  cellOuts b x ((b.cells ++ List.replicate 24 idleCell).take 24) 0 false false (carryIn n b x)

/-- What a block puts out: s, the carry-out of M23, and q, where a transparent latch shows the value that it takes (R70, R71). -/
def blockValue (n : Net) (b : BlockEdge) : Nat :=
  let x := blockInputs n b
  let outs := blockOuts n b
  let qs := ((b.cells.zip outs).zip (List.range 24)).map (fun e =>
    let q := cellQ n.s b e.1.1 e.2
    if e.1.1.mode == .latch then cellNext b x e.1.1 (gsrAsserted n.s b.sec) e.1.2.s q else q)
  ofBits (outs.map (·.s) ++ [(outs.getLastD ⟨false, false, false⟩).cout] ++ qs)

/-- The bits of a number that taps drive. -/
def overlay (n : Net) (x : Nat) (place : Option (Nat × List Nat)) (bitOf : PinBit → Option Nat) (v : Nat) : Nat :=
  n.logic.taps.foldl (fun v t =>
    if t.sec.val ≠ x then v
    else match bitOf t.pin with
      | none => v
      | some i =>
        let here (tile : Tile) : Bool := match place with
          | some p => isBeside p x tile
          | none => tile.1 == x
        withBit v i ((tapBit n t.seg here).getD (Config.freeNet n.s.freeCtr (2 ^ 40 + x * 512 + i)))) v

/-- The pins of a MAC block as one number (`PinBit`). -/
def macPins (e : MacEdge) : Nat :=
  let i := e.inp
  let sel : Nat := match i.addend with
    | .acc => 0 | .c => 1 | .pcin => 2 | .zero => 3
  i.a.toNat + 2 ^ 27 * i.b.toNat + 2 ^ 51 * i.c.toNat + 2 ^ 115 * sel + 2 ^ 117 * i.sub.toNat + 2 ^ 118 * i.load.toNat
    + 2 ^ 119 * i.clr.toNat + 2 ^ 120 * e.ce.toNat

/-- A MAC block with the pins that the routing gives it. -/
def routedMac (n : Net) (e : MacEdge) : MacEdge :=
  if n.logic.taps.isEmpty then e
  else
    let v := overlay n e.sec (some (macPlace e.idx)) (fun p => match p with
      | .mac idx b => if idx == e.idx then some b.val else none
      | _ => none) (macPins e)
    let sel : MacAddend := match v / 2 ^ 115 % 4 with
      | 0 => .acc | 1 => .c | 2 => .pcin | _ => .zero
    { e with
      ce := v.testBit 120
      inp := ⟨BitVec.ofNat 27 v, BitVec.ofNat 24 (v / 2 ^ 27), BitVec.ofNat 64 (v / 2 ^ 51), sel, v.testBit 117, v.testBit 118, v.testBit 119⟩ }

/-- A memory port with the pins that the routing gives it. -/
def routedPort (n : Net) (e : MemEdge) (portB : Bool) (q : MemPort) : MemPort :=
  let v := overlay n e.sec (some (memPlace e.inst)) (fun p => match p with
    | .mem inst pb b => if inst == e.inst && pb == portB then some b.val else none
    | _ => none) (q.read.toNat + 2 * q.be.toNat + 2 ^ 17 * q.data.toNat + 2 ^ 145 * (q.addr % 2 ^ 16))
  ⟨v.testBit 0, BitVec.ofNat 16 (v / 2), v / 2 ^ 145, BitVec.ofNat 128 (v / 2 ^ 17)⟩

/-- A memory with the pins that the routing gives its ports. -/
def routedMem (n : Net) (e : MemEdge) : MemEdge :=
  if n.logic.taps.isEmpty then e else { e with a := routedPort n e false e.a, b := routedPort n e true e.b }

/-- A bank with the output bits and enables that the routing gives it. -/
def routedBank (n : Net) (e : BankEdge) : BankEdge :=
  if n.logic.taps.isEmpty then e
  else
    let of (oe : Bool) (v : Nat) : Nat := overlay n (bankOwner e.bank) none (fun p => match p with
      | .bank k o b => if k == e.bank && o == oe then some b.val else none
      | _ => none) v
    { e with out := of false e.out, oe := BitVec.ofNat 48 (of true e.oe.toNat) }

/-- What a MAC block puts out in the cycle. -/
def macValue (n : Net) (e : MacEdge) : Nat :=
  let e := routedMac n e
  let m := smGet {} n.s.fabric.macs (e.sec.val * 48 + e.idx.val)
  let (_, p, ovf) := macStep e (cascadeIn n.s e) m
  (if e.regOut then m.p else p).toNat + 2 ^ 64 * ovf.toNat

/-- Every element computes once from the levels. -/
def netStep (n : Net) : List (Nat × Nat) :=
  n.logic.blocks.map (fun b => (blockKey b, blockValue n b)) ++ n.macs.map (fun e => (2 ^ 20 + e.sec.val * 48 + e.idx.val, macValue n e))

/-- The levels settle. Where they do not, as in a combinational loop, which has no level of its own, every level is free. -/
def settle : Nat → Net → Net
  | 0, n => { n with tab := [] }
  | k + 1, n => let t := netStep n; if t == n.tab then n else settle k { n with tab := t }

/-- The settled levels of an island before an edge. Each element looks at the levels of others, so that as many rounds as there are
outputs suffice without a loop. -/
def network (s : State) (logic : Logic) (macs : List MacEdge) (mems : List MemEdge) : Net :=
  settle (64 * (logic.blocks.length + macs.length) + 2)
    { s := s, logic := logic, macs := macs, mems := mems
      tab := logic.blocks.map (fun b => (blockKey b, 0)) ++ macs.map (fun e => (2 ^ 20 + e.sec.val * 48 + e.idx.val, 0)) }

/-- A block of an island on one edge. -/
def stepBlock (n : Net) (s : State) (b : BlockEdge) : State :=
  let outs := blockOuts n b
  let s := putCells b (blockInputs n b) (gsrAsserted n.s b.sec) n.s (b.cells.zip outs) 0 s
  let q := ofBits ((b.cells.zip (List.range 24)).map (fun e => cellQ s b e.1 e.2))
  s.emit (.block b.sec b.col b.row (blockValue n b % 2 ^ 25) q)

/-- The MAC blocks of an island on one edge. -/
def stepMac (n : Net) (s : State) (e : MacEdge) : State :=
  let k := e.sec.val * 48 + e.idx.val
  if gsrAsserted s e.sec then { s with fabric := { s.fabric with macs := smSet {} s.fabric.macs k {} } }
  else
    let e := routedMac n e
    let (m, p, ovf) := macStep e (cascadeIn n.s e) (smGet {} n.s.fabric.macs k)
    { s with fabric := { s.fabric with macs := smSet {} s.fabric.macs k m } }.emit (.mac e.sec e.idx p ovf)

/-- The depth of a fabric memory instance in words of its width. -/
def memDepth (e : MemEdge) : Nat := (if e.inst.val < 96 then 4096 else 65536) / 2 ^ e.width.val

/-- The byte address of a port's word. -/
def portByte (e : MemEdge) (q : MemPort) : Nat := q.addr % memDepth e * 2 ^ e.width.val

/-- The bytes of a port's word. -/
def portBytes (e : MemEdge) (q : MemPort) : List Nat := (List.range (2 ^ e.width.val)).map (portByte e q + ·)

/-- The bytes that a port writes: none in a ROM, none from port B but in true dual port mode, none before the sector's
write enables are released (R92, R128). -/
def portWrites (s : State) (e : MemEdge) (portB : Bool) (q : MemPort) : List (Nat × Byte) :=
  if e.mode == .rom || (portB && e.mode != .trueDual) || !s.fabric.wrReleased.contains e.sec.val then []
  else (List.range (2 ^ e.width.val)).filterMap (fun j =>
    if q.be.getLsbD j then some (portByte e q + j, q.data.extractLsb' (8 * j) 8) else none)

/-- A port reads on this edge: in simple dual port mode only port B reads; in single port mode there is no port B. -/
def portReads (e : MemEdge) (portB : Bool) (q : MemPort) : Bool :=
  q.read && (match e.mode with
    | .single => !portB
    | .simpleDual => portB
    | _ => true)

/-- The bytes of a port's word, lowest first: read, checked, and replaced by the byte the same port writes where the image
sets it write-first (R93). `seen` are the bytes that the other port reads in the same cycle (R96). -/
def portRead (e : MemEdge) (seen : List Nat) (own all : List (Nat × Byte)) : List Nat → State → Nat × Bool × Bool × State
  | [], s => (0, false, false, s)
  | a :: as, s =>
    let (b, s) := if seen.contains a then
        secondRead s (e.sec.val / 32) (e.sec.val % 32) e.inst.val a (e.mode == .rom) (all.any (·.1 == a))
      else checkedRead s (e.sec.val / 32) (e.sec.val % 32) e.inst.val a (e.mode == .rom) false (all.any (·.1 == a))
    let d := match own.find? (·.1 == a) with
      | some w => if e.readFirst then b.data else w.2
      | none => b.data
    let (v, c, u, s) := portRead e seen own all as s
    (d.toNat + 256 * v, b.corrected || c, b.poison || u, s)

/-- One port's read path on one edge: a new first stage, the others shifted, the last one presented. A port that does not read
keeps its first stage, data and outputs alike (assumption 77). -/
def portStage (e : MemEdge) (portB : Bool) (q : MemPort) (seen : List Nat) (own all : List (Nat × Byte)) (s : State) : State :=
  let k := (e.sec.val * 104 + e.inst.val) * 2 + portB.toNat
  let old := smGet [] s.fabric.stages k
  let (first, s) := if portReads e portB q then
      let (v, c, u, s) := portRead e seen own all (portBytes e q) s
      ((⟨BitVec.ofNat 128 v, c, u⟩ : MemStage), s)
    else (old.headD {}, s)
  let stages := first :: old.take (memLatency e - 1)
  let s := { s with fabric := { s.fabric with stages := smSet [] s.fabric.stages k stages } }
  let o := stages.getD (memLatency e - 1) {}
  s.emit (.memPort e.sec e.inst portB.toNat o.data o.ce o.ue)

/-- A fabric memory instance on one edge: both ports read what stood before, then the writes are made; port A's byte is
stored where both write (R93), and there port B, which then writes nothing, reads the byte that stood before (assumption 78). -/
def stepMem (s : State) (e : MemEdge) : State :=
  let wa := portWrites s e false e.a
  let wb := (portWrites s e true e.b).filter (fun w => !wa.any (·.1 == w.1))
  let s := portStage e false e.a [] wa (wa ++ wb) s
  let s := portStage e true e.b (if portReads e false e.a then portBytes e e.a else []) wb (wa ++ wb) s
  (wa ++ wb).foldl (fun s w => userStore s (e.sec.val / 32) (e.sec.val % 32) e.inst.val w.1 w.2) s

/-- The bytes that users write in a fabric memory on one edge. -/
def userBytes (s : State) (e : MemEdge) : List Nat :=
  (portWrites s e false e.a ++ portWrites s e true e.b).map (fun w => byteKey (e.sec.val / 32) (e.sec.val % 32) e.inst.val w.1)

/-- A write-back is due in a memory of the island of sector `x`. -/
def dueIn (s : State) (x : Nat) (b : WriteBack) : Bool := b.p < 4 && leaderOf s (32 * b.p + b.unit % 32) == leaderOf s x

/-- The memories of an island on one edge (R96): the write-backs due from earlier edges are made on it, where no user writes the
byte. -/
def stepMems (x : Nat) (mems : List MemEdge) (s : State) : State :=
  let old := s.onchip.due.filter (dueIn s x)
  let hits := mems.flatMap (userBytes s)
  let t := mems.foldl stepMem { s with onchip := { s.onchip with due := s.onchip.due.filter (fun b => !dueIn s x b) } }
  old.foldl (fun t b => finishWriteBack b (hits.contains (byteKey b.p b.unit b.inst b.addr)) t) t

/-- The memories of an island in the self-test shadow have one cycle less left there (R106). -/
def tickShadow (x : Nat) (s : State) : State :=
  let mine (u : Nat) : Bool := s.onchip.chkPart < 4 && leaderOf s (32 * s.onchip.chkPart + u) == leaderOf s x
  { s with onchip := { s.onchip with chkLeft :=
    (s.onchip.chkLeft.map (fun e => if mine e.1 then (e.1, e.2 - 1) else e)).filter (·.2 != 0) } }

/-- A bank on one edge (R84, R86). -/
def stepBank (s : State) (e : BankEdge) : State :=
  let bits := 48 * 2 ^ s.get (FAB_BANK_STATUS_GEAR (e.bank.val / 3) (e.bank.val % 3))
  let old := smGet {} s.fabric.banks e.bank
  let inp := match bankPins s e.bank with
    | .driven | .boundary => e.inp % 2 ^ bits
    | .mismatch => 0
    | .highZ | .latched => old.inp
  { s with fabric := { s.fabric with banks := smSet {} s.fabric.banks e.bank ⟨e.out % 2 ^ bits, e.oe, inp⟩ } }

/-- The pattern that a GEN or CHK code selects: codes from 7 act as off (R404). -/
def pattern (code : Nat) : Nat := if 7 ≤ code then 0 else code

/-- What passed on a lane since the edge before (R401 to R403): the transmitter took words, words were received. In near-end
parallel loopback the words sent are received. A receive buffer that is full discards the newest word; that, a transmit buffer
that ran dry with no generator and no far-end loopback in its place, and a slip raise FIFO. -/
def laneTraffic (s : State) (e : LaneEdge) : State :=
  let l := e.lane.val
  let loop := s.get (LANE_LOOP l)
  let tx := smGet [] s.lanes.tx l
  let rx := smGet [] s.lanes.rx l ++ (if loop == 2 then tx.take e.sent else e.got)
  let dry := tx.length < e.sent && pattern (s.get (LANE_GEN l)) == 0 && loop != 3
  let s := { s with lanes := { s.lanes with
    tx := smSet [] s.lanes.tx l (tx.drop e.sent), rx := smSet [] s.lanes.rx l (rx.take 16) } }
  if dry || 16 < rx.length || (e.slip && loop == 3) then raiseLane l 2 s else s

/-- A lane's fabric port on one edge: a word taken from the receive buffer, a word offered to the transmit buffer (R401). -/
def stepLane (s : State) (e : LaneEdge) : State :=
  let l := e.lane.val
  if !s.on (LANE_EN l) then s
  else
    let s := laneTraffic s e
    let rx := smGet [] s.lanes.rx l
    let s := if e.take then
        match rx with
        | w :: ws => { s with lanes := { s.lanes with rx := smSet [] s.lanes.rx l ws } }.emit (.laneWord l w)
        | [] => s
      else s
    match e.tx with
    | none => s
    | some w =>
      let tx := smGet [] s.lanes.tx l
      if tx.length < 16 then
        { s with lanes := { s.lanes with tx := smSet [] s.lanes.tx l (tx ++ [w]) } }.emit (.laneAccept l true)
      else s.emit (.laneAccept l false)

/-- A delivered edge of a halted island uses up one of the edges that DBG_ISL_STEP asked for (R387). -/
def spendStep (s : State) (l : Nat) : State :=
  if islHalted s l then { s with dbg := { s.dbg with isl := smSet 0 s.dbg.isl l (smGet 0 s.dbg.isl l - 1) } } else s

/-- Values that reached an island while its clock did not run are presented on its first edge (R41). -/
def presentArrived (xs : List Nat) (s : State) : State :=
  let due := s.clocks.bundles.filterMap (fun e => if xs.contains e.2.dst then e.2.arrived.map (fun v => (e.1, v)) else none)
  let s := { s with clocks := { s.clocks with bundles := s.clocks.bundles.map (fun e =>
    if xs.contains e.2.dst then (e.1, { e.2 with level := e.2.arrived.getD e.2.level, arrived := none }) else e) } }
  due.foldl (fun s e => s.emit (.present e.1 e.2.toNat)) s

/-- What an edge of the island of sector `sec` begins with: it uses up a debugger's step, arrived values are presented, and the hold
latches of the island's banks open (R41, R86, R387). -/
def edgeBegins (s : State) (sec : Nat) : State :=
  let l := leaderOf s sec
  let s := presentArrived (membersOf s l) (spendStep s.begin l)
  { s with fabric := { s.fabric with latched := s.fabric.latched.filter (fun x => leaderOf s x != l) } }

/-- The number of macrocell Mm in PT column c (R62, R148) as the state counts macrocells of sector `x`. -/
def cellNumber (x i : Nat) : Nat :=
  let m := i % 24
  let r := i / 24 % 32
  let c := i / 768
  ((x * 55 + (c + c / 6)) * 32 + r) * 24 + m

/-- Bits of macrocells `first` to `first + k - 1` of a sector, the first as the lowest. -/
def cellBits (s : State) (init : List Nat) (x first : Nat) : Nat → Nat
  | 0 => 0
  | k + 1 =>
    let n := cellNumber x first
    (xor (s.fabric.cells.contains n) (init.contains n)).toNat + 2 * cellBits s init x (first + 1) k

/-- The output latch of a memory port: the last stage before an output register. -/
def portLatch (s : State) (x inst port : Nat) : Nat :=
  let st := smGet [] s.fabric.stages ((x * 104 + inst) * 2 + port)
  (st.getD (if inst < 96 then 0 else 1) {}).data.toNat

/-- Ports of instances as consecutive fields of `w` bits: instances from `first` on. -/
def portFields (s : State) (x w first k : Nat) : Nat :=
  (List.range k).foldl (fun v i =>
    v + portLatch s x (first + i) 0 % 2 ^ w * 2 ^ (2 * w * i) + portLatch s x (first + i) 1 % 2 ^ w * 2 ^ (2 * w * i + w)) 0

/-- The output registers of a sector's MAC blocks. -/
def macFields (s : State) (x : Nat) : Nat :=
  (List.range 48).foldl (fun v k => v + (smGet {} s.fabric.macs (x * 48 + k)).p.toNat * 2 ^ (64 * k)) 0

/-- Shadow frame `f` of a sector (R148), frame 13 with its flags and timestamp. -/
def shadowFrame (s : State) (init : List Nat) (x : Nat) (frozen noEdge : Bool) (ts f : Nat) : Nat :=
  if f < 9 then cellBits s init x (4096 * f) 4096
  else if f < 12 then portFields s x 64 (32 * (f - 9)) 32
  else if f = 12 then portFields s x 128 96 8
  else macFields s x + frozen.toNat * 2 ^ 4029 + noEdge.toNat * 2 ^ 4031 + ts * 2 ^ 4032

/-- A sector's shadow cells take its snapshot. -/
def snapshot (init : List Nat) (frozen noEdge : Bool) (ts x : Nat) (s : State) : State :=
  let frames := (List.range 14).foldl (fun m f => smSet 0 m (x * 14 + f) (shadowFrame s init x frozen noEdge ts f)) s.config.shadow
  { s with config := { s.config with shadow := frames } }

/-- What an edge of the island led by `l` ends with: the island applies the release step whose token it has (R132), and its shadow cells take
what its registers hold after the edge, where a capture waits for it (R145). -/
def edgeEnds (l : Nat) (s : State) : State :=
  let s := if s.config.capDue.contains l && !(s.config.capEdge.map (·.1)).contains l then
      ((membersOf s l).filter (fun x => !notCaptured s x)).foldl (fun t x => snapshot [] false false s.clocks.ts x t)
        (s.onConfig (fun c => { c with capEdge := smInsert c.capEdge l s.clocks.ts }))
    else s
  applyTokens l s

/-- ISLAND_CYCLE (R62 to R76, R84, R92, R93, R402): only elements of the island itself see the edge, and a block stands in a
column of blocks. -/
def execIslandCycle (sec : Sec) (logic : Logic) (macs : List MacEdge) (mems : List MemEdge)
    (banks : List BankEdge) (lanes : List LaneEdge) (s : State) : Res :=
  if !edgeReaches s sec then .next s.begin
  else
    let here (x : Nat) : Bool := leaderOf s x == leaderOf s sec
    let s := edgeBegins s sec
    let blocks := logic.blocks.filter (fun b => here b.sec && b.col.val % 7 != 6)
    let macs := macs.filter (here ·.sec)
    let mems := mems.filter (here ·.sec)
    let n := network s { logic with blocks := blocks } macs mems
    let t := blocks.foldl (stepBlock n) s
    let t := macs.foldl (stepMac n) t
    let t := tickShadow sec (stepMems sec (mems.map (routedMem n)) t)
    let t := (banks.filter (fun b => here (bankOwner b.bank))).foldl (fun t e => stepBank t (routedBank n e)) t
    let t := (lanes.filter (fun l => 32 ≤ l.lane.val && here (laneOwner l.lane))).foldl stepLane t
    .next (edgeEnds (leaderOf s sec) { t with freeCtr := t.freeCtr + 1 })

/-- ISLAND_GATE (R77, R128). -/
def execIslandGate (sec : Sec) (req : Bool) (s : State) : Res :=
  let s := s.begin
  let l := leaderOf s sec
  if !edgeReaches s sec || sectorHeld s l then .next s
  else if !req then .next { s with fabric := { s.fabric with unarmed := setDel s.fabric.unarmed l } }
  else if s.fabric.unarmed.contains l then .next s
  else .next (putGated { s with fabric := { s.fabric with unarmed := setAdd s.fabric.unarmed l } } l true)

/-- ISLAND_WAKE (R78): a die in Easy wakes too (R353). -/
def execIslandWake (sec : Sec) (s : State) : Res := .next (wakePart (sec.val / 32) (wakeIsland s.begin sec))

/-- The requests outstanding at a set of injection ports, by port and tag. -/
def outstandingAt (s : State) (ports : List Nat) : List (Nat × Nat) :=
  (s.noc.reqs.filter (fun r => ports.contains r.port)).map (fun r => (r.port, r.tag))

/-- FABRIC_FENCE (R79): the fence of a sector is bound to ports of its own island; a req while it is pending is absorbed into it. -/
def execFabricFence (sec : Sec) (ports : List Sec) (s : State) : Res :=
  let s := s.begin
  let l := leaderOf s sec
  let bound := (ports.map (·.val)).filter (fun x => leaderOf s x == l)
  if !edgeReaches s sec || sectorHeld s l || (s.fabric.fences.map (·.1)).contains sec.val then .next s
  else .next { s with fabric := { s.fabric with
    fences := smInsert s.fabric.fences sec.val ⟨bound, outstandingAt s bound, false⟩ } }

/-- FABRIC_FENCE_DONE (R79): on a delivered edge with every earlier completion arrived. -/
def execFabricFenceDone (sec : Sec) (s : State) : Res :=
  let s := s.begin
  match s.fabric.fences.find? (·.1 == sec.val) with
  | none => .next s
  | some (_, f) =>
    if edgeReaches s sec && f.waiting.isEmpty then
      .next ({ s with fabric := { s.fabric with fences := smErase s.fabric.fences sec.val } }.emit (.fenceDone sec f.err))
    else .next s

/-- USER_IRQ (R80): a line's leaf is set on the edge at which the line is 1 after having been 0. -/
def execUserIrq (sec : Sec) (lines : BitVec 4) (s : State) : Res :=
  let s := s.begin
  let x := sec.val
  if !edgeReaches s x || sectorHeld s x then .next s
  else
    let rose := clearBits lines.toNat (smGet 0 s.fabric.irqPrev x)
    let f := FAB_SEC_CAUSE_USER (x / 32) (x % 32)
    let s := settled (x / 32) (fun s => s.put f (s.get f ||| rose)) s
    .next { s with fabric := { s.fabric with irqPrev := smSet 0 s.fabric.irqPrev x lines.toNat } }

/-- BANK_VCCIO_MISMATCH (R83): the rail is measured; a bank the image marks as unused is never checked, and one that is in mismatch
already does not enter it. -/
def execBankVccioMismatch (bank : Fin 12) (det : BitVec 3) (s : State) : Res :=
  .next (checkBank bank (s.begin.put (FAB_BANK_STATUS_VCCIO_DET (bank.val / 3) (bank.val % 3)) det.toNat))

/-- BANK_VCCIO_RESTORE (R83): the rail of a bank in use has stayed inside its declared window for 1 ms. -/
def execBankVccioRestore (bank : Fin 12) (s : State) : Res :=
  let d := bank.val / 3
  let k := bank.val % 3
  let s := s.begin
  let img := s.get (FAB_BANK_STATUS_VCCIO_IMG d k)
  .next (if img == 0 then s else (s.put (FAB_BANK_STATUS_VCCIO_DET d k) img).flag (FAB_BANK_STATUS_MISMATCH d k) false)

end Sys2Proof.Machine
end

