-- ==== Sys2Proof/Machine/LaneCmds.lean ====
section
/-! DEFINITION. The commands of the serial lanes (spec/17, R393 to R408). Levels, locks and what a medium delivers are
operands of commands (assumption 1). -/

namespace Sys2Proof.Machine

/-- The lanes changed. -/
def State.onLanes (s : State) (f : Lanes → Lanes) : State := { s with lanes := f s.lanes }

/-- Location of a register of lane `l`, and of quad `q`. -/
def laneAt (l off : Nat) : Nat := 0x0300000C1000 + l * 0x100 + off
def quadAddr (q off : Nat) : Nat := 0x0300000C0100 + q * 0x20 + off

/-- A lane's settings take writes: those of a host lane only while its port is held for lane test (R406). -/
def laneOpen (s : State) (l : Nat) : Bool := 32 ≤ l || s.bit LANE_HTEST_PORT (l / 16)

/-- A value of `w` bits as a signed number. -/
def signedOf (w v : Nat) : Int := if v < 2 ^ (w - 1) then v else (v : Int) - 2 ^ w

/-! Quads (R393, R394). -/

/-- A baud rate, given as `num / den` in Bd, lies in the range of a modulation. -/
def baudFits (pam4 : Bool) (num den : Nat) : Bool :=
  if pam4 then 16000000000 * den ≤ num && num ≤ 112000000000 * den else 1250000000 * den ≤ num && num ≤ 56000000000 * den

/-- The setting is one that a quad applies: PLL frequency and baud rate in range, the latter for every enabled lane's
modulation; with no lane enabled, for some modulation. -/
def quadFits (s : State) (q nint nfrac div fref : Nat) : Bool :=
  let v := fref * (nint * 2 ^ 24 + nfrac)
  let on := ((List.range 4).map (4 * q + ·)).filter (fun l => s.on (LANE_EN l))
  let fits (pam4 : Bool) : Bool := baudFits pam4 (4 * v) (2 ^ 24 * 2 ^ div)
  div ≤ 5 && 16 ≤ nint && 10000000000 * 2 ^ 24 ≤ v && v ≤ 28000000000 * 2 ^ 24
    && (if on.isEmpty then fits false || fits true else on.all (fun l => fits (s.on (LANE_PAM4 l))))

/-- The ADC path is in use above 32 GBd (R394). -/
def adcPath (nint nfrac div fref : Nat) : Bool := 32000000000 * 2 ^ 24 * 2 ^ div < 4 * fref * (nint * 2 ^ 24 + nfrac)

/-- A write of the quad's first word; APPLY takes the setting or sets CFG_ERR. -/
def writeQuad (q v fref : Nat) (s : State) : State :=
  let s := writeReg s (quadAddr q 0) v
  if q < 8 || !v.testBit 31 then s
  else
    let nint := s.get (QUAD_NINT q)
    let nfrac := s.get (QUAD_NFRAC q)
    let div := s.get (QUAD_DIV q)
    if quadFits s q nint nfrac div fref then
      let s := s.onLanes (fun x => { x with pll := x.pll.filter (fun e => e.1 != q) ++ [(q, nint, nfrac, div)] })
      (List.range 4).foldl (fun s k => s.flag (LANE_ADC (4 * q + k)) (adcPath nint nfrac div fref)) s
    else s.flag (QUAD_CFG_ERR q) true

/-- QUAD_APPLY (R393). -/
def execQuadApply (req : Requester) (q : Fin 24) (data : Word) (fref : Nat) (s : State) : Res :=
  .next (guardedWrite s.begin req (quadAddr q 0) 4 (writeQuad q (data ||| 0x80000000#32).toNat fref))

/-! Transmitter and receiver (R395, R398, R399). -/

/-- A set of transmit coefficients that can be applied: MAIN at least 16, magnitudes at most 64 in sum. -/
def txeqFits (eq main : Nat) : Bool :=
  let c (lo : Nat) : Nat := (signedOf 8 (slice eq lo 8)).natAbs
  let m := signedOf 8 main
  16 ≤ m && c 0 + c 8 + c 16 + c 24 + m.natAbs ≤ 64

/-- A write of LANE + 0x14; APPLY takes the set whole or sets TXEQ_ERR. AMP codes above 32 act as 32. -/
def writeTxeq (l v : Nat) (s : State) : State :=
  if !laneOpen s l then s
  else
    let s := writeReg s (laneAt l 0x14) v
    if !v.testBit 31 then s
    else if txeqFits (s.get (LANE_TXEQ l)) (s.get (LANE_MAIN l)) then
      s.onLanes (fun x => { x with txSet := x.txSet.filter (fun e => e.1 != l)
                              ++ [(l, s.get (LANE_TXEQ l), s.get (LANE_MAIN l), min 32 (s.get (LANE_AMP l)))] })
    else s.flag (LANE_TXEQ_ERR l) true

/-- TXEQ_APPLY (R395). -/
def execTxeqApply (req : Requester) (l : Fin 96) (data : Word) (s : State) : Res :=
  .next (guardedWrite s.begin req (laneAt l 0x14) 4 (writeTxeq l (data ||| 0x80000000#32).toNat))

/-- A write of LANE + 0x18; ADAPT starts an adaptation. -/
def writeRxeq (l v : Nat) (s : State) : State :=
  if !laneOpen s l then s
  else
    let s := writeReg s (laneAt l 0x18) v
    if v.testBit 31 then
      (s.puts [(LANE_ADAPT_DONE l, 0), (LANE_ADAPT_FAIL l, 0)]).onLanes (fun x => { x with adapting := setAdd x.adapting l })
    else s

/-- ADAPT (R398). -/
def execAdapt (req : Requester) (l : Fin 96) (data : Word) (s : State) : Res :=
  .next (guardedWrite s.begin req (laneAt l 0x18) 4 (writeRxeq l (data ||| 0x80000000#32).toNat))

/-- ADAPT_COMPLETE (R398): frozen taps and a fixed CTLE stay. -/
def execAdaptComplete (l : Fin 96) (converged : Bool) (ctle : Fin 49) (ffe : BitVec 192) (dfe : BitVec 24) (s : State) : Res :=
  let s := s.begin
  if !s.lanes.adapting.contains l.val then .next s
  else
    let s := if s.on (LANE_CTLE_FIX l) then s else s.put (LANE_CTLE l) ctle
    let s := if s.on (LANE_FFE_FRZ l) then s else s.puts
      [(LANE_FFE0 l, slice ffe.toNat 0 32), (LANE_FFE1 l, slice ffe.toNat 32 32), (LANE_FFE2 l, slice ffe.toNat 64 32),
       (LANE_FFE3 l, slice ffe.toNat 96 32), (LANE_FFE4 l, slice ffe.toNat 128 32), (LANE_FFE5 l, slice ffe.toNat 160 32)]
    let s := if s.on (LANE_DFE_FRZ l) then s else s.put (LANE_DFE l) dfe.toNat
    .next ((s.puts [(LANE_ADAPT_DONE l, 1), (LANE_ADAPT_FAIL l, (!converged).toNat)]).onLanes
      (fun x => { x with adapting := setDel x.adapting l }))

/-- LOS (R399): the loop holds. -/
def execLos (l : Fin 96) (s : State) : Res := .next (raiseLane l 0 (s.begin.flag (LANE_LOS l) true))

/-- SIGNAL_RETURN (R399). -/
def execSignalReturn (l : Fin 96) (s : State) : Res := .next (s.begin.flag (LANE_LOS l) false)

/-- CDR_LOCK (R399). -/
def execCdrLock (l : Fin 96) (s : State) : Res := .next (s.begin.flag (LANE_CDR_LOCK l) true)

/-- The recovery loop loses its lock; a dwell that runs is spoilt (R405). -/
def loseCdr (l : Nat) (s : State) : State :=
  (s.flag (LANE_CDR_LOCK l) false).onLanes (fun x => { x with eyeLost := if s.on (LANE_BUSY l) then setAdd x.eyeLost l else x.eyeLost })

/-- CDR_UNLOCK (R399): of a loop that was locked. -/
def execCdrUnlock (l : Fin 96) (s : State) : Res :=
  let s := s.begin
  .next (if s.on (LANE_CDR_LOCK l) then raiseLane l 1 (loseCdr l s) else s)

/-- BLOCK_LOCK (R400): in the 64b/66b modes of a general lane. -/
def execBlockLock (l : Fin 96) (gained : Bool) (s : State) : Res :=
  let s := s.begin
  if l.val < 32 ∨ s.get (LANE_PCS l) = 0 ∨ s.get (LANE_PCS l) = 3 then .next s
  else if gained then .next (s.flag (LANE_BLOCK_LOCK l) true)
  else .next (if s.on (LANE_BLOCK_LOCK l) then raiseLane l 3 (s.flag (LANE_BLOCK_LOCK l) false) else s)

/-- A write of LANE + 0x00; RST resets PMA and PCS, which then relock. -/
def writeLaneCtrl (l v : Nat) (s : State) : State :=
  if !laneOpen s l then s
  else
    let s := writeReg s (laneAt l 0) v
    if !v.testBit 0 then s
    else
      let s := loseCdr l s
      let s := s.puts [(LANE_BLOCK_LOCK l, 0), (LANE_FEC_LOCK l, 0), (LANE_PLOCK l, 0), (LANE_ADAPT_DONE l, 0), (LANE_ADAPT_FAIL l, 0)]
      s.onLanes (fun x => { x with rx := smErase x.rx l, tx := smErase x.tx l, adapting := setDel x.adapting l, badCw := smErase x.badCw l })

/-- LANE_RESET (R408). -/
def execLaneReset (req : Requester) (l : Fin 96) (data : Word) (s : State) : Res :=
  .next (guardedWrite s.begin req (laneAt l 0) 4 (writeLaneCtrl l (data ||| 1#32).toNat))

/-- LOOPBACK_SELECT (R403). -/
def execLoopbackSelect (req : Requester) (l : Fin 96) (data : Word) (s : State) : Res :=
  .next (guardedWrite s.begin req (laneAt l 0) 4 (writeLaneCtrl l data.toNat))

/-! Codewords and patterns (R400, R404). -/

/-- A saturating count of `k` more. -/
def State.countBy (s : State) (f : Fld) (k : Nat) : State := s.put f (min (2 ^ f.w - 1) (s.get f + k))

/-- CODEWORD_RECEIVE (R400): lock after eight codewords with zero syndrome, lost after three in a row that cannot be
corrected. -/
def execCodewordReceive (l : Fin 96) (corrected : Option (Fin 16)) (gained : Bool) (s : State) : Res :=
  let s := s.begin
  if l.val < 32 ∨ s.get (LANE_PCS l) ≠ 2 ∨ !s.on (LANE_EN l) then .next s
  else if !s.on (LANE_FEC_LOCK l) then .next (if gained then s.flag (LANE_FEC_LOCK l) true else s)
  else match corrected with
    | some n =>
      let s := s.onLanes (fun x => { x with badCw := smErase x.badCw l })
      .next (if n.val = 0 then s else (s.countBy (LANE_CORR_CW l) 1).countBy (LANE_CORR_SYM l) n)
    | none =>
      let bad := smGet 0 s.lanes.badCw l + 1
      let s := s.onLanes (fun x => { x with badCw := smSet 0 x.badCw l (if bad = 3 then 0 else bad) })
      let s := if bad = 3 then s.flag (LANE_FEC_LOCK l) false else s
      .next (raiseLane l 4 (s.countBy (LANE_UNCORR_CW l) 1))

/-- A write of the pattern codes: a checker that is off is not locked. -/
def writePattern (l v : Nat) (s : State) : State :=
  let s := writeReg s (laneAt l 0x40) v
  if pattern (s.get (LANE_CHK l)) = 0 then s.flag (LANE_PLOCK l) false else s

/-- A write of LANE + 0x44 with CLR. -/
def prbsClear (l : Nat) (s : State) : State :=
  s.puts [(LANE_ERR_LO l, 0), (LANE_ERR_HI l, 0), (LANE_BITS_LO l, 0), (LANE_BITS_HI l, 0)]

/-- PRBS_CLR (R404). -/
def execPrbsClr (req : Requester) (l : Fin 96) (s : State) : Res :=
  .next (guardedWrite s.begin req (laneAt l 0x44) 4 (prbsClear l))

/-- PRBS_LOCK (R404): of a checker that is on. -/
def execPrbsLock (l : Fin 96) (s : State) : Res :=
  let s := s.begin
  .next (if pattern (s.get (LANE_CHK l)) = 0 then s else s.flag (LANE_PLOCK l) true)

/-- A 48-bit counter of two words counted on, saturating. -/
def count48 (lo hi : Fld) (k : Nat) (s : State) : State := s.put64 lo hi (min (2 ^ 48 - 1) (s.get64 lo hi + k))

/-- PRBS_LOCK_LOST (R404). -/
def execPrbsLockLost (l : Fin 96) (bits errs : Nat) (s : State) : Res :=
  let s := s.begin
  if !s.on (LANE_PLOCK l) then .next s
  else
    let s := count48 (LANE_BITS_LO l) (LANE_BITS_HI l) bits (count48 (LANE_ERR_LO l) (LANE_ERR_HI l) errs s)
    .next (raiseLane l 5 ((s.flag (LANE_PLOCK l) false).count (LANE_RESYNC l)))

/-! Eye monitor (R405). -/

/-- A write of LANE + 0x60; GO starts a dwell unless one runs. -/
def writeEye (l v : Nat) (s : State) : State :=
  let s := writeReg s (laneAt l 0x60) v
  if !v.testBit 31 || s.on (LANE_BUSY l) then s
  else (s.puts [(LANE_BUSY l, 1), (LANE_INVALID l, 0)]).onLanes (fun x =>
    { x with eyeLost := setPut x.eyeLost l (!s.on (LANE_CDR_LOCK l)) })

/-- EYE_GO (R405). -/
def execEyeGo (req : Requester) (l : Fin 96) (data : Word) (s : State) : Res :=
  .next (guardedWrite s.begin req (laneAt l 0x60) 4 (writeEye l (data ||| 0x80000000#32).toNat))

/-- EYE_DWELL_DONE (R405). -/
def execEyeDwellDone (l : Fin 96) (count : BitVec 48) (s : State) : Res :=
  let s := s.begin
  if !s.on (LANE_BUSY l) then .next s
  else
    let s := (s.put64 (LANE_EYE_ERR_LO l) (LANE_EYE_ERR_HI l) count.toNat).puts
      [(LANE_BUSY l, 0), (LANE_INVALID l, (s.lanes.eyeLost.contains l.val).toNat)]
    .next (s.onLanes (fun x => { x with eyeLost := setDel x.eyeLost l }))

/-! Lane test of host ports (R406). -/

/-- The link of port `p` is brought down for lane test (R406): a host-link reset, after which the bit stands, unless the reset took the
whole device (R61). -/
def testPort (p : Nat) (s : State) : State :=
  let t := startLinkReset RST_CAUSE_LINK_HOT p s
  if deviceScope s p then t else t.putBit LANE_HTEST_PORT p true

/-- A write of LANE_HTEST: a bit newly set brings its port's link down. -/
def writeHtest (v : Nat) (s : State) : State :=
  let old := s.get LANE_HTEST_PORT
  let s := s.put LANE_HTEST_PORT v
  [0, 1].foldl (fun s p => if v.testBit p && !old.testBit p then testPort p s else s) s

/-- LANE_HTEST (R406). -/
def execLaneHtest (req : Requester) (data : BitVec 2) (s : State) : Res :=
  .next (guardedWrite s.begin req 0x0300000C0010 4 (writeHtest data.toNat))

end Sys2Proof.Machine
end

