-- ==== Sys2Proof/Machine/Nvme.lean ====
section
/-! DEFINITION. The NVMe-compatible queue engine of PF2 (spec/13, R318 to R321; spec/14, R340). The formats of submission and
completion entries are those of the NVMe Base Specification 2.0, which R318 names (assumption 50). -/

namespace Sys2Proof.Machine

/-- A queue pair of PF2 of a port. -/
def nvQueue (s : State) (port q : Nat) : NvQueue := smGet nvAbsent s.host.queues (port * 64 + q)

/-- A queue pair replaced. -/
def setNvQueue (port q : Nat) (x : NvQueue) (s : State) : State :=
  s.onHost (fun h => { h with queues := smSet nvAbsent h.queues (port * 64 + q) x })

/-- The completion queue has room for an entry. -/
def NvQueue.hasRoom (x : NvQueue) : Bool := 2 ≤ x.cqSize && (x.cqTail + 1) % x.cqSize != x.cqHead

/-- A completion entry is written to the host (R320): the engine fills the submission queue head and the phase tag, and the
queue's vector follows. `body`: the entry as a 128-bit number without these. -/
def postCompletion (port q body : Nat) (s : State) : State :=
  let x := nvQueue s port q
  let entry := withBit (body - slice body 64 16 * 2 ^ 64 + x.head * 2 ^ 64) 112 x.phase
  let wraps := x.cqTail + 1 == x.cqSize
  let s := setNvQueue port q { x with cqTail := if wraps then 0 else x.cqTail + 1, phase := x.phase != wraps } s
  let s := s.emit (.nvmeCompletion port q entry x.vec)
  if x.vec = 0xFFFF then s else sendMsix s (2 + port) (x.vec % 64)

/-- The body of a completion of a command by the queue engine or by Bamid: DW0, queue, command identifier, status. -/
def completionBody (dw0 q cid status : Nat) : Nat :=
  dw0 + q * 2 ^ 80 + cid * 2 ^ 96 + status * 2 ^ 113

/-- The submission queue entries of an I/O queue are created or deleted by Bamid (R318), as the admin command asks. -/
def serveQueue (port op : Nat) (qid size vec : Nat) (x : NvQueue) (s : State) : Nat × State :=
  if qid = 0 ∨ 63 < qid then (0x101, s)
  else match op with
    | 0x00 => if x.size = 0 then (0x101, s) else (0, setNvQueue port qid { x with size := 0, head := 0, tail := 0 } s)
    | 0x01 =>
      if x.size ≠ 0 then (0x101, s) else if x.cqSize = 0 then (0x100, s) else if size < 2 ∨ 4096 < size then (0x102, s)
      else (0, setNvQueue port qid { x with size := size, head := 0, tail := 0 } s)
    | 0x04 =>
      if x.cqSize = 0 then (0x101, s) else if x.size ≠ 0 then (0x10C, s) else (0, setNvQueue port qid nvAbsent s)
    | _ =>
      if x.cqSize ≠ 0 then (0x101, s) else if size < 2 ∨ 4096 < size then (0x102, s)
      else (0, setNvQueue port qid { nvAbsent with cqSize := size, vec := vec } s)

/-- Bamid serves an admin command and completes it. What it answers to commands that are not of queues is not given: the
words of that completion are free values (assumption 51). -/
def serveAdmin (port : Nat) (cmd : Nat) (s : State) : State :=
  let op := cmd % 256
  let cid := slice cmd 16 16
  if op ∈ [0x00, 0x01, 0x04, 0x05] then
    let qid := slice cmd 320 16
    let vec := if slice cmd 353 1 = 1 then slice cmd 368 16 else 0xFFFF
    let (st, s) := serveQueue port op qid (slice cmd 336 16 + 1) vec (nvQueue s port qid) s
    postCompletion port 0 (completionBody 0 0 cid st) s
  else
    let (d, s) := s.free
    let (st, s) := s.free
    postCompletion port 0 (completionBody d.toNat 0 cid (st.toNat % 2 ^ 15)) s

/-- Bytes written into crew SRAM by the queue engine. -/
def crewWrite (n off : Nat) (bytes : List Byte) (s : State) : State :=
  ((pieces off bytes.length).foldl (fun (a : List Byte × State) p =>
    let k := p.2
    let o := p.1 % 2 ^ 24
    (a.1.drop k, (plainWrite (plainAccess .hubMover) (.chip (4 + n) 69 (o / 2 ^ 20) (o % 2 ^ 20)) (fromBytes (a.1.take k)) (2 ^ k - 1) k a.2).2))
    (bytes, s)).2

/-- Entries of a ring: 2^LOG2, LOG2 below 4 acting as 4 and above 10 as 10. -/
def nvRing (log2 : Nat) : Nat := 2 ^ max 4 (min 10 log2)

/-- The channel takes inbound entries now: in service with running firmware, room in its inbound ring and in the task queue
(R319). -/
def takesInbound (s : State) (n : Nat) : Bool :=
  chanUp s n (132 + n) && runs s 181 && s.get (CH_FW_STATE n) == 2 && (s.chan n).tasks.length < 1024
    && (s.get (HP_NVCH_IN_WP n) + 1) % nvRing (s.get (HP_NVCH_IN_LOG2 n)) != s.get (HP_NVCH_IN_RP n)

/-- ENTRY, and CLASS with COST, of a command's task record: those of its first dispatch where this is not the first (R340). -/
def taskWords (s : State) (n : Nat) (c : NvCmd) : Nat × Nat :=
  c.sent.getD (s.get (HP_NVCH_ENTRY n), s.get (HP_NVCH_CLASS n) + s.get (HP_NVCH_COST n) * 16)

/-- The inbound entry of a command that will stand at crew SRAM offset `off` (R319). -/
def inboundEntry (s : State) (n off : Nat) (c : NvCmd) : List Byte :=
  let (entry, task) := taskWords s n c
  toBytes entry 4 ++ toBytes ((off + 0x10) % 2 ^ 24) 4 ++ toBytes task 4 ++ toBytes 0 4
    ++ toBytes (c.port + c.q * 4) 4 ++ toBytes c.head 4 ++ toBytes c.ts 8 ++ toBytes c.cmd 64

/-- A command's inbound entry is written and its task pushed (R319). A command dispatched again keeps its place in the
dispatch table (R340). -/
def sendInbound (n : Nat) (c : NvCmd) (s : State) : State :=
  let i := s.get (HP_NVCH_IN_WP n)
  let off := inboundOffset s n i % 2 ^ 24
  let s := crewWrite n off (inboundEntry s n off c) s
  let s := s.put (HP_NVCH_IN_WP n) ((i + 1) % nvRing (s.get (HP_NVCH_IN_LOG2 n)))
  let c := { c with chan := some n, slot := i, engine := none, redo := false, sent := some (taskWords s n c) }
  let same (d : NvCmd) : Bool := d.port == c.port && d.seq == c.seq
  let cmds := if s.host.cmds.any same then s.host.cmds.map (fun d => if same d then c else d) else s.host.cmds ++ [c]
  let s := s.onHost (fun h => { h with cmds := cmds })
  taskPush n off s

/-- Commands of channel `n` that have to be dispatched again, oldest first, for as long as the channel takes them (R340). -/
def redispatch (n : Nat) (s : State) : State :=
  (s.host.cmds.filter (fun c => c.redo && c.chan == some n)).foldl
    (fun s c => if takesInbound s n then sendInbound n c s else s) s

/-- An outbound entry of the ring is consumed (R320): its 32 bytes as a number. Nothing where its queue exists and has no
room. -/
def consumeEntry (n e : Nat) (s : State) : Option State :=
  let port := slice e 128 2
  let q := slice e 80 16
  let x := nvQueue s port q
  if 1 < port ∨ 63 < q ∨ x.size = 0 then some (raiseHp (HP_CAUSE_NVQ_ERR (port % 2)) s)
  else if !x.hasRoom then none
  else
    let cid := slice e 96 16
    let s := postCompletion port q (e % 2 ^ 128) s
    let left (c : NvCmd) : Bool := !(c.port == port && c.q == q && slice c.cmd 16 16 == cid && c.chan == some n)
    some (s.onHost (fun h => { h with cmds := h.cmds.filter left }))

/-- The queue engine consumes the outbound ring of channel `n` (R320). An entry that holds an uncorrectable byte is
discarded. -/
def drainOutbound (n : Nat) : Nat → State → State
  | 0, s => s
  | k + 1, s =>
    let rp := s.get (HP_NVCH_OUT_RP n)
    if rp = s.get (HP_NVCH_OUT_WP n) then s
    else
      let (w, ue, s) := crewRecord n ((s.get (HP_NVCH_OUT_BASE n) * 32 + rp * 32) % 2 ^ 24) 8 s
      let e := (List.range 8).foldl (fun v i => v + (w.getD i 0).toNat * 2 ^ (32 * i)) 0
      match (if ue then some s else consumeEntry n e s) with
      | none => s
      | some s => drainOutbound n k (s.put (HP_NVCH_OUT_RP n) ((rp + 1) % nvRing (s.get (HP_NVCH_OUT_LOG2 n))))

/-- A write of HP_NVCH.OUT_WP. -/
def writeOutWp (n wp : Nat) (s : State) : State :=
  redispatch n (drainOutbound n 1024 (s.put (HP_NVCH_OUT_WP n) (wp % 1024)))

/-- NVME_OUT_WP_WRITE (R320). -/
def execNvmeOutWpWrite (req : Requester) (n : Ch) (wp : BitVec 10) (s : State) : Res :=
  .next (guardedWrite s.begin req (0x030000080818 + n.val * 0x40) 4 (writeOutWp n wp.toNat))

/-- A doorbell of a submission queue: its new tail. -/
def ringSq (port q tail : Nat) (s : State) : State :=
  let x := nvQueue s port q
  if tail < x.size then setNvQueue port q { x with tail := tail } s else s

/-- A doorbell of a completion queue: its new head; entries that waited for room are written. -/
def ringCq (port q head : Nat) (s : State) : State :=
  let x := nvQueue s port q
  if head < x.cqSize then (List.range 16).foldl (fun s n => drainOutbound n 1024 s) (setNvQueue port q { x with cqHead := head } s) else s

/-- The hub serves the port: its clock runs and sub-link 0 is up. -/
def portServes (s : State) (port : Nat) : Bool := runs s 180 && !s.clocks.halted && (s.get (HP_STATUS_UP port)).testBit 0

/-- NVME_SQ_DOORBELL (R318). -/
def execNvmeSqDoorbell (port : Port) (q : Fin 64) (tail : Fin 4096) (s : State) : Res :=
  let s := s.begin
  .next (if portServes s port then ringSq port q tail s else s)

/-- The status Invalid Namespace or Format. -/
def badNamespace : Nat := 0x0B

/-- NVME_COMMAND_DISPATCH (R318, R319, R340): the next entry of a submission queue is fetched and dispatched. Nothing is
fetched where the queue is empty, the port's dispatch table is full, the command's channel takes none, or, for an admin
command, Bamid does not run. -/
def execNvmeCommandDispatch (port : Port) (q : Fin 64) (cmd : BitVec 512) (s : State) : Res :=
  let s := s.begin
  let x := nvQueue s port q
  if !portServes s port || x.size == 0 || x.head == x.tail || 4096 ≤ (s.host.cmds.filter (fun c => c.port == port.val)).length then
    .next s
  else
    let head := (x.head + 1) % x.size
    let seq := s.get (WAKE_SEQ_OUT port)
    let take (s : State) : State := (setNvQueue port q { x with head := head } s).put (WAKE_SEQ_OUT port) (seq + 1)
    let c : NvCmd := ⟨port, q, cmd.toNat, seq, head, s.clocks.ts, none, 0, none, false, none⟩
    if q.val = 0 then
      if !bamidRuns s || !x.hasRoom then .next s else .next (serveAdmin port cmd.toNat (setLines 20 hubEngines (take s)))
    else
      let ns := slice cmd.toNat 32 32
      if ns = 0 ∨ 64 < ns ∨ !s.on (HP_NS_VALID (ns - 1)) then
        if x.hasRoom then
          .next (postCompletion port q (completionBody 0 q (slice cmd.toNat 16 16) badNamespace) (take s))
        else .next s
      else
        let n := s.get (HP_NS_CH (ns - 1))
        let s := redispatch n s
        if easyHolds s (4 + n) then .next (wakePart (4 + n) s)
        else .next (if takesInbound s n then sendInbound n c (take s) else s)

end Sys2Proof.Machine
end

