-- ==== Sys2Proof/Machine/Observe.lean ====
section
/-! DEFINITION. Partial reconfiguration, capture and readback (spec/06, R136 to R153). -/

namespace Sys2Proof.Machine

/-! Partial loads (R140 to R144). -/

/-- A write of CFG_PR_CTRL with GO: the source, its size and SRC_STORE are those that the registers hold at GO (assumption 86). -/
def prGo (srcStore : Bool) (s : State) : State :=
  let s := s.flag CFG_PR_CTRL_SRC_STORE srcStore
  if s.on CFG_PR_STATUS_BUSY || s.get CFG_STATUS_STATE != 0xA || s.config.load.isSome then s
  else
    let l : Load := { src := 0, isPart := true, size := some (s.get CFG_PR_LEN_LEN), inStore := srcStore
                      addr := if srcStore then areaC + s.get CFG_PR_SRC_LO_ADDR else s.get64 CFG_PR_SRC_LO_ADDR CFG_PR_SRC_HI_ADDR }
    (setLoad l s).puts [(CFG_PR_STATUS_BUSY, 1), (CFG_PR_STATUS_PHASE, 1)]

/-- PR_GO (R140, R143). -/
def execPrGo (req : Requester) (srcStore : Bool) (s : State) : Res :=
  .next (guardedWrite s.begin req 0x030000040200 4 (prGo srcStore))

/-- A write of CFG_PR_CTRL with ABORT: only at steps 1 to 3. -/
def prAbort (s : State) : State :=
  if s.on CFG_PR_STATUS_BUSY && s.get CFG_PR_STATUS_PHASE ≤ 2 then partLoadFails 0x14 s else s

/-- PR_ABORT (R143). -/
def execPrAbort (req : Requester) (s : State) : Res := .next (guardedWrite s.begin req 0x030000040200 4 prAbort)

/-- The idle value that a bundle gets when its region changes (R139, R144): the entry's, or zero where there is none; only
state bundles that leave the region have one. -/
def idleBundle (l : Load) (b : Bundle) : Bundle :=
  if !b.stream && l.region.contains b.src && !l.region.contains b.dst then
    { b with idle := match l.idles.find? (·.1 == b.dst * 32 + b.rxPort) with
      | some e => cutTo b.width e.2
      | none => 0 }
  else b

/-- Steps 4 and 5 of R141: the region is held and being cleared. -/
def prHold (l : Load) (d : Declared) (s : State) : State :=
  let s := s.onClocks (fun c => { c with bundles := c.bundles.map (fun e => (e.1, idleBundle l e.2)) })
  let s := holdSectors l.region (clearSectors l.region s)
  let s := setConfigured l.region false (setRegionBusy l.region true s)
  setLoad { l with decl := some d } (s.put CFG_PR_STATUS_PHASE 3)

/-- Steps 2 and 3 of R141 on what the frames declare, the counts, the tag and the digests: the cause of failure. -/
def prCause (l : Load) (tag : Bool) (sha shake : BitVec 512) (d : Declared) : Option Nat :=
  if !partAgrees l.region d then some 0x16 else finalCause l tag sha shake d

/-- PR_FINAL_CHECKS (R141 step 3): only once the signatures have passed. -/
def execPrFinalChecks (tag : Bool) (sha shake : BitVec 512) (decl : Declared) (s : State) : Res :=
  let s := s.begin
  match s.config.load with
  | none => .next s
  | some l =>
    if !l.isPart ∨ !l.signed ∨ l.decl.isSome then .next s
    else match prCause l tag sha shake decl with
      | some c => .next (partLoadFails c s)
      | none => .next (prHold l decl s)

/-- A bundle that the partial image's frames declare, with the idle value that its region's descriptor left in force; a streaming one
from the region still holds the values that were in transit to the same receive port (R144). -/
def regionBundle (l : Load) (old : List (Nat × Bundle)) (b : BundleDecl) : Bundle :=
  let n := idleBundle l (declaredBundle b).2
  match old.find? (fun e => e.2.stream && n.stream && e.2.dst == n.dst && e.2.rxPort == n.rxPort && l.region.contains e.2.src) with
  | some (_, x) => { n with transit := x.transit }
  | none => n

/-- The bundles after a partial load: those of the region are the partial image's, as far as their ports are free (R74). -/
def regionBundles (l : Load) (decl : List BundleDecl) (old : List (Nat × Bundle)) : List (Nat × Bundle) :=
  let mine (x : Nat) : Bool := l.region.contains x
  let keep := old.filter (fun e => !mine e.2.src && !mine e.2.dst)
  (decl.filter (fun (b : BundleDecl) => mine b.src || mine b.dst)).foldl (fun m (b : BundleDecl) =>
    (addBundle m b).map (fun e => if e == declaredBundle b then (e.1, regionBundle l old b) else e)) keep

/-- The sector whose image sets a register field: that of an island, the owner of a bank, a general lane or a general quad. -/
def keySector (k : Nat) : Option Nat :=
  let a := k / 32
  if 0x030000021000 ≤ a && a < 0x030000021200 then some ((a - 0x030000021000) / 4)
  else if 0x030000100000 ≤ a && a < 0x030000200000 && 0x300 ≤ a % 0x40000 && a % 0x40000 < 0x30C then
    some (bankOwner (3 * ((a - 0x030000100000) / 0x40000) + (a % 0x40000 - 0x300) / 4))
  else if 0x0300000C1000 ≤ a && a < 0x0300000C7000 then
    let l := (a - 0x0300000C1000) / 0x100
    if 32 ≤ l then some (laneOwner l) else none
  else if 0x0300000C0100 ≤ a && a < 0x0300000C0400 then
    let q := (a - 0x0300000C0100) / 0x20
    if 8 ≤ q then some (quadOwner q) else none
  else none

/-- Steps 6 and 7 of R141: the frames written, CONFIGURED set, the region's declarations in force, the lock step begun. -/
def prWritten (l : Load) (d : Declared) (s : State) : State :=
  let s := l.staged.foldl (fun s e => putFrames (e.1 / 12288) (e.1 % 12288) (toBytes e.2 512) s) s
  let mine (x : Nat) : Bool := l.region.contains x
  let vals := (declaredVals d).filter (fun e => (keySector e.1.key).any mine)
  let s := applyImage (fun k => (keySector k).any mine) vals s
  let s := s.onClocks (fun c => { c with bundles := regionBundles l d.bundles c.bundles })
  let s := if 6 ≤ l.order then s.flag CFG_STATUS_ORDER_RSVD true else s
  beginStartup 1 l.region l.order l.gap1 l.gap2 ((setConfigured l.region true s).put CFG_PR_STATUS_PHASE 5)

/-- The Boathouse could not be read at step 6 (R142): the region is lost. -/
def regionLost (l : Load) (s : State) : State :=
  let s := setRegionBusy l.region false (clearSectors l.region (stagingBad s))
  let s := wakeReadback (s.onConfig (fun c => { c with load := none, lost := l.region }))
  raiseCfg CFG_CAUSE_FAIL (s.puts [(CFG_PR_STATUS_REGION_LOST, 1), (CFG_PR_STATUS_CAUSE, 0x23), (CFG_PR_STATUS_BUSY, 0),
    (CFG_PR_STATUS_PHASE, 0)])

/-- PR_FRAMES_WRITTEN (R141, R142). -/
def execPrFramesWritten (ue : Bool) (s : State) : Res :=
  let s := clearDone s.begin
  match s.config.load with
  | some l => match l.decl with
    | some d => .next (if !l.isPart ∨ s.get CFG_PR_STATUS_PHASE ≠ 4 then s else if ue then regionLost l s else prWritten l d s)
    | none => .next s
  | none => .next s

/-! Capture (R145 to R148). -/

/-- A write of CFG_CAP_CTRL. -/
def writeCapCtrl (trigEn go : Bool) (s : State) : State :=
  let s := s.flag CFG_CAP_CTRL_TRIG_EN trigEn
  if go then captureToken s else s

/-- CAPTURE_GO (R145). -/
def execCaptureGo (req : Requester) (trigEn : Bool) (s : State) : Res :=
  .next (guardedWrite s.begin req 0x030000040240 4 (writeCapCtrl trigEn true))

/-- An island's snapshot is taken; with the last one the capture ends, which is source 5 of the cross-triggers (R388). -/
def endSnapshot (l : Nat) (s : State) : State :=
  let s := s.onConfig (fun c => { c with capDue := c.capDue.filter (· ≠ l), capEdge := c.capEdge.filter (·.1 ≠ l) })
  if s.config.capDue.isEmpty then xtSource 5 (s.puts [(CFG_CAP_STATUS_BUSY, 0), (CFG_CAP_STATUS_VALID, 1)]) else s

/-- The sectors of an island that a capture takes. -/
def captured (s : State) (l : Nat) : List Nat := (membersOf s l).filter (fun x => !notCaptured s x)

/-- Shadow frames 0 to 8 of a sector, taken at an edge without regard to initial values, given them. -/
def withInitial (init : List Nat) (x : Nat) (s : State) : State :=
  let frames := (List.range 9).foldl (fun m f =>
    smSet 0 m (x * 14 + f) (smGet 0 m (x * 14 + f) ^^^ cellBits { s with fabric := {} } init x (4096 * f) 4096)) s.config.shadow
  s.onConfig (fun c => { c with shadow := frames })

/-- CAPTURE_SNAPSHOT (R145): the island has had its first edge after the token came, or has it now. -/
def execCaptureSnapshot (sec : Sec) (init : List Nat) (s : State) : Res :=
  let s := s.begin
  let l := leaderOf s sec
  if !s.config.capDue.contains l then .next s
  else if (s.config.capEdge.map (·.1)).contains l then .next (endSnapshot l ((captured s l).foldl (fun t x => withInitial init x t) s))
  else if !edgeReaches s sec then .next s
  else .next (endSnapshot l ((captured s l).foldl (fun t x => snapshot init false false s.clocks.ts x t) s))

/-- CAPTURE_NO_EDGE (R146): the timestamp is that of the token's arrival. With no island left to wait for, the capture ends. -/
def execCaptureNoEdge (sec : Sec) (init : List Nat) (s : State) : Res :=
  let s := s.begin
  let l := leaderOf s sec
  if !s.on CFG_CAP_STATUS_BUSY then .next s
  else if s.config.capDue.isEmpty then .next (endSnapshot l s)
  else if !s.config.capDue.contains l || (s.config.capEdge.map (·.1)).contains l then .next s
  else
    let xs := captured s l
    let ts := s.get64 CFG_CAP_TS_LO_TS CFG_CAP_TS_HI_TS
    let fz := islandFrozen s sec
    let s := xs.foldl (fun s x => (snapshot init fz true ts x s).putBit (CFG_CAP_NOEDGE_SEC (x / 32)) (x % 32) true) s
    .next (endSnapshot l (s.put CFG_CAP_STATUS_NO_EDGE (min 255 (s.get CFG_CAP_STATUS_NO_EDGE + xs.length))))

/-! Readback (R149, R150). -/

/-- A full load is in progress (R150): it has begun, or its failed attempt is being cleared; a loader that waits for a stream loads
nothing. -/
def fullLoading (s : State) : Bool := s.config.load.any (!·.isPart) || s.config.next.isSome

/-- GO of a readback, or its refusal. -/
def readbackGo (shadow : Bool) (s : State) : State :=
  let s := s.flag CFG_RB_CTRL_SHADOW shadow
  let n := s.get CFG_RB_COUNT_COUNT
  let f := s.get CFG_RB_FRAME_FRAME
  if s.on CFG_RB_STATUS_BUSY || fullLoading s || n == 0 || (if shadow then 14 else 12288) < f + n || s.get CFG_RB_DST_LO_ADDR % 64 != 0 then
    s.flag CFG_RB_STATUS_REFUSED true
  else
    let rb : Readback := {
      shadow := shadow, sec := s.get CFG_RB_FRAME_DIE * 32 + s.get CFG_RB_FRAME_SECTOR, frame := f, left := n
      dst := s.get64 CFG_RB_DST_LO_ADDR CFG_RB_DST_HI_ADDR, abort := false
      waits := 3 ≤ s.get CFG_PR_STATUS_PHASE }
    (s.onConfig (fun c => { c with rb := some rb })).puts [(CFG_RB_STATUS_BUSY, 1), (CFG_RB_STATUS_UE, 0)]

/-- READBACK_GO (R149, R150). -/
def execReadbackGo (req : Requester) (shadow : Bool) (s : State) : Res :=
  .next (guardedWrite s.begin req 0x030000040280 4 (readbackGo shadow))

/-- ABORT of a readback: it stops after the frame in progress. -/
def readbackAbort (s : State) : State := s.onConfig (fun c => { c with rb := c.rb.map (fun r => { r with abort := true }) })

/-- READBACK_ABORT (R149). -/
def execReadbackAbort (req : Requester) (s : State) : Res :=
  .next (guardedWrite s.begin req 0x030000040280 4 readbackAbort)

/-- A readback ends. -/
def endReadback (s : State) : State := (s.onConfig (fun c => { c with rb := none })).flag CFG_RB_STATUS_BUSY false

/-- Configuration frames of a sector are not available (R149). -/
def frameHidden (s : State) (x : Nat) : Bool :=
  sectorHeld s x || regionBusy s x || !s.on (FAB_SEC_STATUS_CONFIGURED (x / 32) (x % 32))

/-- A byte of a configuration frame as it is read: corrected, or as stored and counted where it is uncorrectable; one of Ingot or Billet
contents is read through the repair path without a trace (R149). -/
def configByte (s : State) (x frame b : Nat) : Byte × State :=
  let key := frameKey x frame b
  let w := match contentKey key with
    | some k => wordAt s k
    | none => smGet 0 s.onchip.frames key
  match verdict (syndrome w) with
  | .clean => (dataOf w, s)
  | .correctable i => (dataOf (flipBit w i), s)
  | .uncorrectable => (dataOf w, (if (contentKey key).isSome then s else scrubByte s x frame b).count CFG_RB_STATUS_UE)

/-- The bytes of a configuration frame from byte `b` on. -/
def configBytes (x frame b : Nat) : Nat → State → List Byte × State
  | 0, s => ([], s)
  | k + 1, s =>
    let (d, s) := configByte s x frame b
    let (l, s) := configBytes x frame (b + 1) k s
    (d :: l, s)

/-- The bytes that a readback returns for its next frame. -/
def readbackBytes (r : Readback) (s : State) : List Byte × State :=
  if r.shadow then (toBytes (smGet 0 s.config.shadow (r.sec * 14 + r.frame)) 512, s)
  else if frameHidden s r.sec then (List.replicate 512 0, s.flag CFG_RB_STATUS_SKIPPED true)
  else configBytes r.sec r.frame 0 512 s

end Sys2Proof.Machine
end

