-- ==== Sys2Proof/Machine/Service.lean ====
section
/-! DEFINITION. The command slots' commands and Bamid's service calls (spec/13, R322 to R327), with the writes of the image
store (spec/05, R109 to R113) and the loading of channel firmware (spec/10, R255). -/

namespace Sys2Proof.Machine

/-! Slots (R322 to R326). -/

/-- SLOT_DOORBELL (R322, R323). -/
def execSlotDoorbell (req : Requester) (slot : Fin 64) (tag : BitVec 16) (s : State) : Res :=
  .next (guardedWrite s.begin req (slotAt slot 0x1C) 4 (ringSlot slot tag.toNat))

/-- SLOT_ABORT (R325). -/
def execSlotAbort (req : Requester) (slot : Fin 64) (s : State) : Res :=
  .next (guardedWrite s.begin req (slotAt slot 0x2C) 4 (abortSlot slot))

/-- The slot watchdog of slot `k` counts: its program runs, WDT is not 0, and no halt freezes it (R325, R390). -/
def slotWatchdogRuns (s : State) (k : Nat) : Bool :=
  s.get (SLOT_STATE k) == 3 && s.get (SLOT_WDT k) != 0 && runs s 183 && !s.clocks.halted
    && (engineOfSlot s k).any (fun he => !s.on (ENG_DBG_HALTED (1024 + he)) || s.on DBG_WDT_POLICY_HUB_RUN)

/-- SLOT_WATCHDOG_EXPIRY (R325): line 19, and the program stops. -/
def execSlotWatchdogExpiry (slot : Fin 64) (s : State) : Res :=
  let s := s.begin
  .next (if slotWatchdogRuns s slot then stopSlot slot 5 (setLines 19 hubEngines s) else s)

/-- CMD_CAP_LOCK (R326). -/
def execCmdCapLock (req : Requester) (s : State) : Res :=
  .next (guardedWrite s.begin req 0x030000090000 4 (fun s => s.flag CMD_CTRL_CAP_LOCK true))

/-- The queued slot that starts next (R323): CFG.PRIO 1 before 0 (assumption 52), then doorbell order. -/
def nextSlot (s : State) : Option Nat :=
  (s.slots.queue.find? (fun k => s.on (SLOT_PRIO k))).or s.slots.queue.head?

/-- A region of hub engine `g`, in pages of 4 KiB, for the context of slot `k`. -/
def putRegion (g k r base limit : Nat) (en rd wr ex : Bool) (s : State) : State :=
  s.puts [(ENG_PR_BASE g r, base), (ENG_PR_LIMIT g r, limit), (ENG_PR_EN g r, en.toNat), (ENG_PR_CID g r, 0x40 + k),
    (ENG_PR_CMASK g r, 0xFF), (ENG_PR_X g r, ex.toNat), (ENG_PR_W g r, wr.toNat), (ENG_PR_R g r, rd.toNat)]

/-- The protection regions that Bamid sets from the capability mask (R323; assumption 53): the program's code; XMEM and YMEM;
4 MiB of the device window; the hub control window with REG; the DRAM window with DRAM. A locked set stays (R193). -/
def programRegions (g k cap : Nat) (s : State) : State :=
  if s.on (ENG_PR_LOCK_LOCK g) then s
  else
    let s := putRegion g k 0 4 7 true true false true s
    let s := putRegion g k 1 0x10 0x27 true true true false s
    let s := putRegion g k 2 0x80000 0x803FF true true true false s
    let s := putRegion g k 3 0x20000 0x23FFF (cap.testBit 3) true true false s
    let s := putRegion g k 4 0x40000 0x7FFFF (cap.testBit 0) true true false s
    (List.range 11).foldl (fun s i => s.flag (ENG_PR_EN g (i + 5)) false) s

/-- The device window of engine `g` moved so that it begins at the 2 MiB block of an address; the address's local address. -/
def mapWindow (g addr : Nat) (s : State) : Nat × State :=
  let a := addr % 2 ^ 52
  (0x80000000 + a % 2 ^ 21, s.puts [(ENG_WIN_DEV_LO_ADDR g, a / 2 ^ 21 % 2 ^ 11), (ENG_WIN_DEV_HI_ADDR g, a / 2 ^ 32)])

/-- The engine begins the program of slot `k` (R323): the program in IMEM, the context 0x40 + k, g1 to g3. -/
def beginProgram (he k : Nat) (prog : List Byte) (s : State) : State :=
  let g := 1024 + he
  let s := writeBytes s 20 he 0 0x4000 (fromBytes prog) (2 ^ prog.length - 1) prog.length
  let s := programRegions g k (s.get (SLOT_CAP k)) s
  let (a, s) := mapWindow g (s.get64 (SLOT_ARG_LO k) (SLOT_ARG_HI k)) s
  let e := s.eng g
  let e := ((e.setAlu 1 (BitVec.ofNat 32 a)).setAlu 2 (BitVec.ofNat 32 k)).setAlu 3 (BitVec.ofNat 32 (s.get (SLOT_TAG k)))
  let s := s.setEng g { e with
    pc := 0x4000, ctxid := BitVec.ofNat 32 (0x40 + k), st := stSet (stSet e.st 8 true) 9 false
    slot := none, rep := none, atom := none }
  (s.puts [(SLOT_STATE k, 3), (ENG_STATUS_STATE g, 1)]).onSlots (fun x => { x with
    queue := x.queue.filter (· != k), running := x.running.filter (·.2 != k) ++ [(he, k)] })

/-- The program's bytes have to wait at their source: the slot is loading (R323), and the engine is its own. -/
def loadSlot (he k : Nat) (s : State) : State :=
  (s.put (SLOT_STATE k) 2).onSlots (fun x => { x with
    queue := x.queue.filter (· != k), running := x.running.filter (·.2 != k) ++ [(he, k)] })

/-- How the fetch of a slot's program stands (R310, R354). -/
def programTurn (k : Nat) (s : State) : Turn × State :=
  plainTurn (transferAsk .hubMover (64 + k) (s.get64 (SLOT_PROG_LO k) (SLOT_PROG_HI k)) (s.get (SLOT_LEN k)) 0) s

/-- The program's bytes: read through the hub mover in the control class where the model holds the source (R287, R323), else
as the command gives them; none where the fetch failed. -/
def fetchProgram (k : Nat) (prog : List Byte) (fetchErr : Bool) (s : State) : Option (List Byte) × State :=
  let a := s.get64 (SLOT_PROG_LO k) (SLOT_PROG_HI k)
  let len := s.get (SLOT_LEN k)
  if (plainOf a).isSome then
    let (b, st, s) := rangeRead ⟨.hubMover, true, false, .ok⟩ a len s
    (match st with | .ok => some b | _ => none, s)
  else (if fetchErr then none else some (padBytes prog len), s)

/-- LEN and PROG of a slot are as they must be (status code 0x03 else). -/
def programFits (s : State) (k : Nat) : Bool :=
  let len := s.get (SLOT_LEN k)
  len != 0 && len ≤ 8192 && len % 4 == 0 && s.get (SLOT_PROG_LO k) % 4 == 0

/-- Hub engine `he` may start the program of slot `k`: it is the next one and the engine is free, or the engine loads it already. -/
def mayStart (s : State) (he k : Nat) : Bool :=
  (s.slots.running.contains (he, k) && s.get (SLOT_STATE k) == 2) || (nextSlot s == some k && !s.slots.running.any (·.1 == he))

/-- SLOT_PROGRAM_START (R323, R324). A program that was aborted while it was loaded stops before its first instruction. -/
def execSlotProgramStart (slot : Fin 64) (he : Fin 4) (prog : List Byte) (fetchErr : Bool) (s : State) : Res :=
  let s := s.begin
  let g := 1024 + he.val
  if !mayStart s he slot || !bamidRuns s || !s.on (ENG_CTRL_RUN g)
      || !(s.get (ENG_STATUS_STATE g) == 1 || s.get (ENG_STATUS_STATE g) == 2) then .next s
  else if !programFits s slot then .next (completeSlot slot 3 none false s)
  else match programTurn slot s with
    | (.wait, s) => .next ((loadSlot he slot s).emit .held)
    | (.fail, s) => .next (completeSlot slot 2 none false s)
    | (.go, s) =>
      let (b, s) := fetchProgram slot prog fetchErr s
      match b with
      | none => .next (completeSlot slot 2 none false s)
      | some b => .next (slotBoundary g (beginProgram he slot b s))

/-! Service calls (R327). -/

/-- The slot whose program waits, on hub engine `he`, in Bamid's handler for service call `num`. -/
def callOf (s : State) (he num : Nat) : Option Nat :=
  let e := s.eng (1024 + he)
  match slotOfEngine s he with
  | some k =>
    if bamidRuns s && e.ecause.toNat % 256 == 0x0A && e.ecause.toNat / 2 ^ 16 == num && e.ectx.toNat == 0x40 + k
        && e.ctxid.toNat % 256 == 0 && e.st.getLsbD 9 && s.get (ENG_STATUS_STATE (1024 + he)) == 1 then some k else none
  | none => none

/-- The return from a service call: status in g1, further registers, RETI; a program that was stopped meanwhile ends (R325). -/
def serviceReturn (he status : Nat) (regs : List (Nat × Nat)) (s : State) : State :=
  if (slotOfEngine s he).isNone then s
  else
    let g := 1024 + he
    let e := regs.foldl (fun (e : Engine) r => e.setAlu r.1 (BitVec.ofNat 32 r.2)) ((s.eng g).setAlu 1 (BitVec.ofNat 32 status))
    slotBoundary g ((s.setEng g (e.follow .reti)).onSlots (fun x => { x with waits := x.waits.filter (·.1 != he) }))

/-- What a service call does: it returns a status and registers, or its program stays blocked. -/
inductive Call where
  | ret (status : Nat) (regs : List (Nat × Nat)) (s : State)
  | stays (s : State)
  deriving DecidableEq, Repr

/-- A call that succeeds. -/
def callOk (s : State) : Call := .ret 0 [] s

/-- A call with a bad argument. -/
def callBad (s : State) : Call := .ret 0xFFFFFFFE [] s

/-- A call whose facility is busy. -/
def callBusy (s : State) : Call := .ret 0xFFFFFFFD [] s

/-- Arguments g1 to g4 of a call on hub engine `he`. -/
def argOf (s : State) (he i : Nat) : Nat := ((s.eng (1024 + he)).cur i).toNat

/-- A service call `num` of hub engine `he`, with the capability that it needs (R326): its effect is `f` of the slot. Where no
program waits in that call, nothing happens. -/
def serviceCall (he : Fin 4) (num : Nat) (cap : Option Nat) (f : Nat → State → Call) (s : State) : Res :=
  let s := s.begin
  match callOf s he num with
  | none => .next s
  | some k =>
    if cap.any (fun c => !(s.get (SLOT_CAP k)).testBit c) then .next (serviceReturn he 0xFFFFFFFF [] s)
    else match f k s with
      | .ret st regs t => .next (serviceReturn he st regs t)
      | .stays t => .next t

/-- The call that hub engine `he` waits for has begun, in its phase `ph`. -/
def waitsIn (s : State) (he num ph : Nat) : Bool := s.slots.waits.contains (he, num + ph * 2 ^ 16)

/-- The call goes on to wait in phase `ph`. -/
def waitCall (he num ph : Nat) (s : State) : State :=
  s.onSlots (fun x => { x with waits := x.waits.filter (·.1 != he) ++ [(he, num + ph * 2 ^ 16)] })

/-- What comes of the bytes of a local buffer. -/
inductive Buffer where
  | bytes (b : List Byte)
  | bad
  /-- The memory behind the engine's port makes it wait (R310, R354). -/
  | wait
  deriving DecidableEq, Repr

/-- Bytes of a local buffer of a program: from the engine's memories, or from plain memory behind its port. -/
def readBuffer (he : Fin 4) (a len : Nat) (s : State) : Buffer × State :=
  let g := 1024 + he.val
  match localOf s g a with
  | .mem inst off =>
    if 0x8000 < off + len then (.bad, s)
    else
      let (v, ue, s) := readLocal s g inst off len
      (if ue then .bad else .bytes (toBytes v len), s)
  | .port d =>
    let e : Requester := .engine (Fin.ofNat 1028 g)
    match plainTurn (transferAsk e 0 d len 0) s with
    | (.wait, s) => (.wait, s)
    | (.fail, s) => (.bad, s)
    | (.go, s) =>
      let (b, st, s) := rangeRead (plainAccess e) d len s
      (match st with | .ok => .bytes b | _ => .bad, s)
  | _ => (.bad, s)

/-- A call goes on with the bytes of its buffer, fails for a bad one, or waits with its buffer. -/
def withBuffer (r : Buffer × State) (f : List Byte → State → Call) : Call :=
  match r with
  | (.bytes b, s) => f b s
  | (.bad, s) => callBad s
  | (.wait, s) => .stays s

/-- Bytes written to a local buffer of a program, and how that ended. -/
def writeBuffer (he : Fin 4) (a : Nat) (bytes : List Byte) (s : State) : Turn × State :=
  let g := 1024 + he.val
  match localOf s g a with
  | .mem inst off =>
    if 0x8000 < off + bytes.length then (.fail, s)
    else (.go, writeBytes s 20 he inst off (fromBytes bytes) (2 ^ bytes.length - 1) bytes.length)
  | .port d =>
    let e : Requester := .engine (Fin.ofNat 1028 g)
    match plainTurn (transferAsk e 1 d bytes.length 1) s with
    | (.go, s) =>
      let (_, st, s) := rangeWrite (plainAccess e) d bytes s
      (match st with | .ok => .go | _ => .fail, s)
    | r => r
  | _ => (.fail, s)

/-- A call ends with the transfer that it made last, or waits with it. -/
def callTurn (r : Turn × State) : Call :=
  match r with
  | (.go, s) => callOk s
  | (.fail, s) => callBad s
  | (.wait, s) => .stays s

/-- EXIT (R324): the slot completes with the program's result and code, or, where it had been stopped, with its stop's
code (R325). -/
def execExit (he : Fin 4) (recordErr : Bool) (s : State) : Res :=
  let s := s.begin
  match callOf s he 0x0000 with
  | none => .next s
  | some k =>
    .next (bamidGoesOn (1024 + he) (match stopCode s k with
      | some c => completeSlot k c none recordErr s
      | none => completeSlot k (if argOf s he 2 = 0 then 0 else 1) (some (argOf s he 1)) recordErr s))

/-- The capability bit that mapping a location needs (R326). -/
def mapCap (addr : Nat) : Option Nat :=
  match locate addr with
  | .dram _ _ => some 0
  | .fabric _ _ => some 1
  | .window _ _ => some 2
  | .hub _ | .chan _ _ => some 3
  | .unmapped => none

/-- MAP: the device window at the address in g1, g2; g2 returns the local address. -/
def execMap (he : Fin 4) (s : State) : Res :=
  serviceCall he 0x0001 none (fun k s =>
    let a := argOf s he 1 + argOf s he 2 % 2 ^ 20 * 2 ^ 32
    match mapCap a with
    | none => callBad s
    | some c =>
      if !(s.get (SLOT_CAP k)).testBit c then .ret 0xFFFFFFFF [] s
      else if c = 0 ∧ a / 2 ^ 48 ≠ 0 then callBad s
      else
        let (l, s) := mapWindow (1024 + he) a s
        .ret 0 [(2, l)] s) s

/-- TIME: the timestamp in g2, g3. -/
def execTime (he : Fin 4) (s : State) : Res :=
  serviceCall he 0x0002 none (fun _ s => .ret 0 [(2, s.clocks.ts % 2 ^ 32), (3, s.clocks.ts / 2 ^ 32)] s) s

/-- A measurement by its index, as a 512-bit number (R299). -/
def measurementOf (i : Nat) (s : State) : Nat × State :=
  if i = 2 then (cfgMeas s, s) else if i = 20 ∨ i = 21 then freeDigest s else (smGet 0 s.security.meas i, s)

/-- MEASURE: the measurement of index g1 to the local buffer at g2. -/
def execMeasure (he : Fin 4) (s : State) : Res :=
  serviceCall he 0x0003 none (fun _ s =>
    let i := argOf s he 1
    if i = 0 ∨ 21 < i then callBad s
    else
      let a := argOf s he 2
      let (m, s) := measurementOf i s
      callTurn (writeBuffer he a (toBytes m 64) s)) s

/-- A full or partial load is in progress (R125); a loader that waits for a stream loads nothing. -/
def loadBusy (s : State) : Bool := fullLoading s || s.on CFG_PR_STATUS_BUSY

/-- LOAD_FULL: a runtime full load of source g1 begins (R123, R125); from memory, of g4 bytes. -/
def execLoadFull (he : Fin 4) (s : State) : Res :=
  serviceCall he 0x0010 (some 4) (fun _ s =>
    let src := argOf s he 1
    if 2 < src then callBad s
    else if loadBusy s then callBusy s
    else
      let a := argOf s he 2 + argOf s he 3 % 2 ^ 20 * 2 ^ 32
      callOk (if src = 2 then beginLoad { src := 5, isPart := false, addr := a, size := some (argOf s he 4) } s else startSource (src + 1) s)) s

/-- The word of CFG_PR_STATUS. -/
def prStatus (s : State) : Nat := readReg s 0x030000040204

/-- LOAD_PARTIAL: a partial load (R141); when it has ended, g2 returns CFG_PR_STATUS. -/
def execLoadPartial (he : Fin 4) (s : State) : Res :=
  serviceCall he 0x0011 (some 4) (fun _ s =>
    if waitsIn s he 0x0011 0 then
      (if s.on CFG_PR_STATUS_BUSY then .stays s else .ret 0 [(2, prStatus s)] s)
    else if loadBusy s then callBusy s
    else
      let a := argOf s he 1 + argOf s he 2 % 2 ^ 20 * 2 ^ 32
      let store := argOf s he 4 % 2 == 1
      let s := s.puts [(CFG_PR_SRC_LO_ADDR, a % 2 ^ 32), (CFG_PR_SRC_HI_ADDR, a / 2 ^ 32), (CFG_PR_LEN_LEN, argOf s he 3)]
      let s := prGo store s
      if s.on CFG_PR_STATUS_BUSY then .stays (waitCall he 0x0011 0 s) else callBusy s) s

/-- A word of CAPTURE_READBACK's parameter block, by its offset from CFG_CAP_CTRL. -/
def blockWord (b : List Byte) (off : Nat) : Nat := fromBytes ((b.drop off).take 4)

/-- The readback of a parameter block begins, or the call ends where the block asks for none. -/
def blockReadback (he : Nat) (b : List Byte) (s : State) : Call :=
  let c := blockWord b 0x40
  if !c.testBit 0 then callOk s
  else
    let f := blockWord b 0x48
    let s := s.puts [(CFG_RB_FRAME_DIE, f / 2 ^ 30), (CFG_RB_FRAME_SECTOR, slice f 25 5), (CFG_RB_FRAME_FRAME, slice f 11 14),
      (CFG_RB_COUNT_COUNT, blockWord b 0x4C % 2 ^ 14), (CFG_RB_DST_LO_ADDR, blockWord b 0x50),
      (CFG_RB_DST_HI_ADDR, blockWord b 0x54 % 2 ^ 20)]
    let s := readbackGo (c.testBit 1) s
    if s.on CFG_RB_STATUS_BUSY then .stays (waitCall he 0x0012 2 s) else callBad s

/-- CAPTURE_READBACK: the capture and then the readback that the local block at g1 asks for. -/
def execCaptureReadback (he : Fin 4) (s : State) : Res :=
  serviceCall he 0x0012 (some 4) (fun _ s =>
    if waitsIn s he 0x0012 2 then (if s.on CFG_RB_STATUS_BUSY then .stays s else callOk s)
    else
      let waited := waitsIn s he 0x0012 1
      if s.on CFG_CAP_STATUS_BUSY then (if waited then .stays s else callBusy s)
      else if !waited && s.on CFG_RB_STATUS_BUSY then callBusy s
      else withBuffer (readBuffer he (argOf s he 1) 0x58 s) (fun b s =>
        if waited || !(blockWord b 0).testBit 0 then blockReadback he b s
        else
          let s := (List.range 4).foldl (fun s d => s.put (CFG_CAP_MASK_SEL d) (blockWord b (0x10 + 4 * d))) s
          let s := writeCapCtrl ((blockWord b 0).testBit 1) true s
          if s.on CFG_CAP_STATUS_BUSY then .stays (waitCall he 0x0012 1 s) else blockReadback he b s)) s

/-! The image store (R109 to R113). -/

/-- The store's bytes from `a` to before `b` forgotten; its bad pages there are good again (R112). -/
def eraseStore (a b : Nat) (s : State) : State :=
  s.onConfig (fun c => { c with
    store := c.store.filter (fun e => !(a ≤ e.1 && e.1 < b)), badPages := c.badPages.filter (fun p => !(a ≤ p * 4096 && p * 4096 < b)) })

/-- Blocks that failed take spares, one each, as far as there are any (R113): the first block for which there was none. -/
def takeSpares : List Nat → State → Option Nat × State
  | [], s => (none, s)
  | b :: l, s =>
    if s.get CFG_NV_STATUS_SPARES = 0 then (some b, raiseCfg CFG_CAUSE_NV_SPARES s)
    else takeSpares l (s.put CFG_NV_STATUS_SPARES (s.get CFG_NV_STATUS_SPARES - 1))

/-- The blocks of a list that lie among `n`, each once, in rising order. -/
def failingBlocks (bad : List Nat) (n : Nat) : List Nat := (List.range n).filter bad.contains

/-- The erasure of slot `n` counted (R110, R111). -/
def countErase (n : Nat) (s : State) : State :=
  let s := (s.count (CFG_NV_SLOT_WRITES n)).puts [(CFG_NV_LEN_LEN n, 0), (CFG_NV_SLOT_BUSY n, 1)]
  let s := s.onConfig (fun c => { c with nextPage := smInsert c.nextPage n 0 })
  if 10000 ≤ s.get (CFG_NV_SLOT_WRITES n) && !s.on (CFG_NV_SLOT_WORN n) then raiseCfg CFG_CAUSE_NV_WORN (s.flag (CFG_NV_SLOT_WORN n) true)
  else s

/-- A load reads slot `n` (R110): it has begun and its payload is not over. -/
def slotRead (s : State) (n : Nat) : Bool := s.config.load.any (fun l => !l.isPart && l.src == n + 1)

/-- Slot `n` erased. Where no spare is left for a block, the erasure ends there with an error: the blocks before it are erased, LEN is 0
and no rewrite has begun (assumption 87). -/
def eraseSlot (n : Nat) (bad : List Nat) (s : State) : Call :=
  let a := n * storeSlotSize
  match takeSpares (failingBlocks bad 3328) s with
  | (none, s) => callOk (countErase n (eraseStore a (a + storeSlotSize) s))
  | (some b, s) => callBad ((eraseStore a (a + b * 2 ^ 18) s).put (CFG_NV_LEN_LEN n) 0)

/-- Block `b` of area C erased. -/
def eraseBlock (b : Nat) (bad : List Nat) (s : State) : Call :=
  match takeSpares (failingBlocks bad 1) s with
  | (none, s) => callOk (eraseStore (areaC + b * 2 ^ 18) (areaC + (b + 1) * 2 ^ 18) s)
  | (some _, s) => callBad s

/-- STORE_ERASE (R110, R111, R113): g1 is slot 0 or 1, or 2 + b for block b of area C (assumption 54); a slot that a load reads is busy. -/
def execStoreErase (he : Fin 4) (bad : List Nat) (s : State) : Res :=
  serviceCall he 0x0020 (some 5) (fun _ s =>
    let i := argOf s he 1
    if 2 + 1536 ≤ i then callBad s
    else if i < 2 then (if slotRead s i then callBusy s else eraseSlot i bad s)
    else eraseBlock (i - 2) bad s) s

/-- Bytes programmed into the store from an offset. -/
def programStore (off : Nat) : List Byte → List Host.Cell → List Host.Cell
  | [], m => m
  | b :: l, m => programStore (off + 1) l (smSet 0 m off b)

/-- A write of `len` bytes at a store offset may be made: in area C; in a slot, where it has been erased and the write begins at the
page that is programmed next (R110). -/
def writeFits (s : State) (off len : Nat) : Bool :=
  off + len ≤ 2 ^ 31 && (areaC ≤ off ||
    (off / storeSlotSize == (off + len - 1) / storeSlotSize
      && s.config.nextPage.contains (off / storeSlotSize, off % storeSlotSize / 4096) && off % storeSlotSize % 4096 == 0))

/-- The bytes that are programmed, up to the first block for which there was no spare; in a slot the page programmed next moves on. -/
def putStore (off : Nat) (b : List Byte) (s : State) : State :=
  s.onConfig (fun c => { c with
    store := programStore off b c.store
    nextPage := if areaC ≤ off then c.nextPage
      else smInsert c.nextPage (off / storeSlotSize) ((off % storeSlotSize + b.length + 4095) / 4096) })

/-- STORE_WRITE (R110, R113): g3 bytes from the local buffer at g2 to store offset g1. -/
def execStoreWrite (he : Fin 4) (data : List Byte) (bad : List Nat) (s : State) : Res :=
  serviceCall he 0x0021 (some 5) (fun _ s =>
    let off := argOf s he 1
    let len := argOf s he 3
    if !writeFits s off len then callBad s
    else withBuffer (if len ≤ 0x8000 then readBuffer he (argOf s he 2) len s else (.bytes (padBytes data len), s)) (fun b s =>
      match takeSpares (failingBlocks bad ((off % 2 ^ 18 + len + 2 ^ 18 - 1) / 2 ^ 18)) s with
      | (none, s) => callOk (putStore off b s)
      | (some k, s) => callBad (putStore off (b.take (k * 2 ^ 18 - off % 2 ^ 18)) s))) s

/-- STORE_COMMIT (R110): LEN of slot g1 becomes g2. -/
def execStoreCommit (he : Fin 4) (s : State) : Res :=
  serviceCall he 0x0022 (some 5) (fun _ s =>
    let i := argOf s he 1
    if 1 < i ∨ storeSlotSize < argOf s he 2 then callBad s
    else callOk ((s.onConfig (fun c => { c with nextPage := smErase c.nextPage i })).puts
      [(CFG_NV_LEN_LEN i, argOf s he 2), (CFG_NV_SLOT_BUSY i, 0)])) s

/-! Channel firmware (R255). -/

/-- The size of a MEM record's target memory. -/
def targetSize (t : Nat) : Nat := if t < 3 then 0x8000 else if t = 3 then 2 ^ 24 else if t = 4 then 2 ^ 14 else 0

/-- A MEM record of channel firmware is right: it stays in its memory, its length is a multiple of 4 and that of its data. -/
def firmwareRecordGood (r : MemRecord) : Bool :=
  let off := r.word1.toNat % 2 ^ 28
  let len := r.word2.toNat
  len % 4 == 0 && off + len ≤ targetSize (r.word1.toNat / 2 ^ 28) && r.data.length == len

/-- The engines that a record names. -/
def recordEngines (n : Nat) (word3 : Word) : List Nat :=
  (crewOf n).filter (fun g => word3.toNat % 64 ≤ g % 64 && g % 64 ≤ slice word3.toNat 8 6)

/-- A MEM record written: to every engine in its range, to crew SRAM, or to the micro-op memory. -/
def writeFirmwareRecord (n : Nat) (s : State) (r : MemRecord) : State :=
  let t := r.word1.toNat / 2 ^ 28
  let off := r.word1.toNat % 2 ^ 28
  let data := r.data
  if t < 3 then
    (recordEngines n r.word3).foldl (fun s g => writeBytes s (4 + n) (g % 64) t off (fromBytes data) (2 ^ data.length - 1) data.length) s
  else if t = 3 then crewWrite n off data s
  else (List.range (data.length / 4)).foldl (fun s i => s.put (NAND_UOP_WORD n ((off / 4 + i) % 4096)) (blockWord data (4 * i))) s

/-- Where the image of CH_FIRMWARE stands: g2, g3 is an offset in area C where it lies in it, else a device address (assumption 90). -/
def firmwareSource (a : Nat) : Load :=
  if a < 384 * 2 ^ 20 then { src := 8, isPart := false, addr := areaC + a, inStore := true, size := some (384 * 2 ^ 20 - a) }
  else { src := 8, isPart := false, addr := a }

/-- The firmware of channel `n` has failed with a cause (R255). -/
def firmwareFails (n owner cause : Nat) (s : State) : State :=
  raiseCh n (CH_CAUSE_FW_FAIL n) (s.puts [(CH_FW_OWNER n, owner), (CH_FW_CAUSE n, cause), (CH_FW_STATE n, 3)])

/-- The firmware of channel `n` is in force (R255): written, its engines released, measured (R299). -/
def firmwareRuns (n owner head : Nat) (records : List MemRecord) (s : State) : State :=
  let s := records.foldl (writeFirmwareRecord n) (s.puts [(CH_FW_OWNER n, owner), (CH_FW_CAUSE n, 0)])
  let gs := (crewOf n).filter (fun g => records.any (fun r => r.word1.toNat / 2 ^ 28 == 0 && (recordEngines n r.word3).contains g))
  let s := gs.foldl (fun s g => writeEngCtrl g true false (s.put (ENG_BOOT_PC g) 0)) s
  let s := { s with security := { s.security with meas := smSet 0 s.security.meas (4 + n) (measureOf head) } }
  redispatch n (s.put (CH_FW_STATE n) 2)

/-- The image of channel firmware checked by steps 1, 2 and 5 of R121 and loaded, or failed with the cause (R255). -/
def loadFirmware (n : Nat) (l : Load) (head : Nat) (c : ImgChecks) (records : List (Word × MemRecord)) (s : State) : Bool × State :=
  match memHeader l head c s with
  | (some cause, h, s) => (false, firmwareFails n (headField h 0x300 1) cause s)
  | (none, h, s) =>
    let owner := headField h 0x300 1
    match memChecks l h firmwareRecordGood c records s with
    | (_, some cause, s) => (false, firmwareFails n owner cause s)
    | (rs, none, s) => (true, firmwareRuns n owner h rs s)

/-- The channel's DRAM controller starts, or is about to start itself: the channel's firmware waits for it (R263). -/
def dramStarting (s : State) (n : Nat) : Bool :=
  dramTrains s n || (s.get (DRAM_STATUS_STATE n) == 0 && s.on (DRAM_STATUS_SR_KEPT n) && s.get (DRAM_CAP_INSTALLED n) != 0)

/-- CH_FIRMWARE (R255, R327): the firmware for channel g1 from g2, g3. The call shows the state loading, and the next presentation of the
command is what its checks find. -/
def execChFirmware (he : Fin 4) (head : BitVec 65536) (checks : ImgChecks) (records : List (Word × MemRecord)) (s : State) : Res :=
  serviceCall he 0x0030 (some 6) (fun _ s =>
    let n := argOf s he 1
    if 15 < n then callBad s
    else if easyHolds s (4 + n) then .stays (wakePart (4 + n) s)
    else if !chanUp s n (132 + n) then callBusy s
    else if dramStarting s n then .stays s
    else if !waitsIn s he 0x0030 0 then .stays (waitCall he 0x0030 0 (s.put (CH_FW_STATE n) 1))
    else
      let l := firmwareSource (argOf s he 2 + argOf s he 3 % 2 ^ 20 * 2 ^ 32)
      match headTurn l s with
      | (.wait, s) => .stays s
      | (t, s) =>
        let (ok, s) := loadFirmware n l head.toNat (if t = .fail then { checks with read := .failed } else checks) records s
        if ok then callOk s else callBad s) s

/-- CH_RESET: the partition reset of channel g1. -/
def execChReset (he : Fin 4) (s : State) : Res :=
  serviceCall he 0x0031 (some 6) (fun _ s =>
    let n := argOf s he 1
    if 15 < n then callBad s else callOk (rstCtrl 0xA5 2 (4 + n) s)) s

/-- DRAM_START: DRAM_CFG, the Patina mode, START (R261). -/
def execDramStart (he : Fin 4) (s : State) : Res :=
  serviceCall he 0x0032 (some 6) (fun _ s =>
    let n := argOf s he 1
    if 15 < n ∨ 1 < argOf s he 3 then callBad s
    else if easyHolds s (4 + n) then .stays (wakePart (4 + n) s)
    else if !chanUp s n (164 + n) || !(s.get (DRAM_STATUS_STATE n) == 0 || s.get (DRAM_STATUS_STATE n) == 8) then callBusy s
    else
      let s1 := writeReg s (0x020000040000 + n * 0x10000000) (argOf s he 2)
      let s2 := if s.on (PAT_CFG_LOCK n) then s1 else s1.put (PAT_CFG_MODE n) (argOf s he 3)
      let s3 := dramStart n s2
      if s3.on (DRAM_STATUS_CFG_BAD n) then callBad s3 else callOk s3) s

/-- POWER_STATE: for the partitions of g1, g2 = 0 ends Easy, 1 asks for Easy, 2 asks for Moored (assumption 55). -/
def execPowerState (he : Fin 4) (drained sysclk : Bool) (s : State) : Res :=
  serviceCall he 0x0040 (some 7) (fun _ s =>
    let mask := argOf s he 1
    let ps := (List.range 20).filter mask.testBit
    match argOf s he 2 with
    | 0 => callOk (ps.foldl (fun s p => writeEasyReq p false (s.flag (PWR_PART_REQ p) false)) s)
    | 1 => callOk (ps.foldl (fun s p => writeEasyReq p true (s.flag (PWR_PART_REQ p) true)) s)
    | 2 => callOk (writeMoored (.engine (Fin.ofNat 1028 (1024 + he.val))) (withBit (readReg s 0x030000030100) 0 true) drained sysclk s)
    | _ => callBad s) s

/-- OP_SET: the operating point g2 of partition g1 (R359). -/
def execOpSet (he : Fin 4) (s : State) : Res :=
  serviceCall he 0x0041 (some 7) (fun _ s =>
    let p := argOf s he 1
    if 19 < p ∨ 7 < argOf s he 2 then callBad s else callOk (writeTarget p (s.put (PWR_PART_OP_TGT p) (argOf s he 2)))) s

/-- RESET: a write of RST_CTRL, of device or host-link scope (R60, R326). -/
def execResetCall (he : Fin 4) (s : State) : Res :=
  serviceCall he 0x0050 (some 8) (fun _ s =>
    let v := argOf s he 1
    if !List.contains [1, 3, 4] (slice v 0 3) then callBad s
    else callOk (rstCtrl (slice v 24 8) (slice v 0 3) 0 s)) s

/-- The length for CRC_RUN: the first word of the argument block (assumption 56). -/
def crcLength (k : Nat) (bytes : List Byte) (s : State) : Nat × State :=
  let a := s.get64 (SLOT_ARG_LO k) (SLOT_ARG_HI k)
  if (plainOf a).isSome then
    let (b, _, s) := rangeRead (plainAccess .hubMover) a 4 s
    (fromBytes b, s)
  else (bytes.length, s)

/-- The bytes that CRC_RUN of slot `k` is over. -/
def crcBytes (k a len : Nat) (bytes : List Byte) (s : State) : Buffer × State :=
  if (plainOf a).isSome then
    match plainTurn (transferAsk .hubCrc k a len 0) s with
    | (.wait, s) => (.wait, s)
    | (.fail, s) => (.bad, s)
    | (.go, s) =>
      let (b, st, s) := rangeRead (plainAccess .hubCrc) a len s
      (if st = .ok then .bytes b else .bad, s)
  else (.bytes (padBytes bytes len), s)

/-- CRC_RUN: hub CRC unit g1 computes polynomial g2 over bytes from the address in g3, g4; g2 and g3 return the result. The
bytes come with the command where the model does not hold them. -/
def execCrcRun (he : Fin 4) (bytes : List Byte) (s : State) : Res :=
  serviceCall he 0x0060 (some 9) (fun k s =>
    let poly := argOf s he 2
    let a := argOf s he 3 + argOf s he 4 % 2 ^ 20 * 2 ^ 32
    if 3 < argOf s he 1 ∨ 3 < poly then callBad s
    else match plainTurn (transferAsk .hubMover (128 + k) (s.get64 (SLOT_ARG_LO k) (SLOT_ARG_HI k)) 4 0) s with
      | (.wait, s) => .stays s
      | (.fail, s) => callBad s
      | (.go, s) =>
        let (len, s) := crcLength k bytes s
        withBuffer (crcBytes k a len bytes s) (fun b s =>
          let v := crcFeed poly (crcInit poly) b ^^^ crcXorOut poly
          .ret 0 [(2, v % 2 ^ 32), (3, v / 2 ^ 32)] s)) s

/-- A write of the first word of HP_HDM: ignored while EN = 1, except one that clears EN (R308). -/
def writeHdm (r v : Nat) (s : State) : State :=
  if s.on (HP_HDM_EN r) && v.testBit 31 then s else writeReg s (0x030000080400 + r * 8) v

/-- HDM_SET: the words g2 and g3 of HDM range g1. -/
def execHdmSet (he : Fin 4) (s : State) : Res :=
  serviceCall he 0x0070 (some 10) (fun _ s =>
    let r := argOf s he 1
    let v := argOf s he 2
    if 7 < r then callBad s
    else if s.on (HP_HDM_EN r) && v.testBit 31 then callBusy s
    else
      let size := argOf s he 3
      let s := if s.on (HP_HDM_EN r) then s else writeReg s (0x030000080404 + r * 8) size
      callOk (writeHdm r v s)) s

/-- NS_MAP: namespace g1 to channel g2, or unmapped. -/
def execNsMap (he : Fin 4) (s : State) : Res :=
  serviceCall he 0x0071 (some 10) (fun _ s =>
    let i := argOf s he 1
    let c := argOf s he 2
    if i = 0 ∨ 64 < i ∨ (15 < c ∧ c ≠ 0xFF) then callBad s
    else if c = 0xFF then callOk (s.flag (HP_NS_VALID (i - 1)) false)
    else callOk (s.puts [(HP_NS_VALID (i - 1), 1), (HP_NS_CH (i - 1), c)])) s

/-- KEY_SLOT: slot g1, 2 to 15, before SEC_LOCK.KEYS (R292). -/
def execKeySlot (he : Fin 4) (s : State) : Res :=
  serviceCall he 0x0080 (some 11) (fun _ s =>
    let k := argOf s he 1
    if k < 2 ∨ 15 < k ∨ 2 < argOf s he 2 ∨ s.on SEC_LOCK_KEYS then callBad s
    else match argOf s he 2 with
      | 0 => callOk (ksLoadTrng k s)
      | 2 => callOk (ksClose k s)
      | _ =>
        withBuffer (readBuffer he (argOf s he 3) 64 s) (fun b s => callOk (ksLoadData k (s.onSec (fun x => { x with
            ksData := (List.range 16).foldl (fun m w => smSet 0 m w (blockWord b (4 * w))) [] }))))) s

/-- The bytes of an owner request (R297). -/
def otpRequestSize : Nat := 0x156D

/-- OWNER_REQ: the request in the local buffer at g1 is submitted (R297); it returns once the request has ended, with success
where its result is 0. -/
def execOwnerReq (he : Fin 4) (s : State) : Res :=
  serviceCall he 0x0090 (some 12) (fun _ s =>
    if waitsIn s he 0x0090 0 then
      (if s.on SEC_OTP_STATUS_BUSY then .stays s else if s.get SEC_OTP_STATUS_RESULT = 0 then callOk s else callBad s)
    else if s.on SEC_OTP_STATUS_BUSY then callBusy s
    else withBuffer (readBuffer he (argOf s he 1) otpRequestSize s) (fun b s =>
      let s := (List.range (otpRequestSize / 4 + 1)).foldl (fun s i => writeOtpBuf (4 * i) (blockWord b (4 * i)) s) s
      .stays (waitCall he 0x0090 0 (otpGo s)))) s

end Sys2Proof.Machine
end

