-- ==== Sys2Proof/Machine/Special.lean ====
section
/-! DEFINITION. Writes of registers by location, with the actions that a write starts (R6 to R10): one dispatcher, which the
commands that write a register by its address, stores of engines and messages of the network share. -/

namespace Sys2Proof.Machine

/-- A write of HUB_INT_MASK (R330): a bit cleared while its summary bit is 1 sends its vector. -/
def writeIntMask (v : Nat) (s : State) : State :=
  let old := s.get HUB_INT_MASK_MASK
  let s := s.put HUB_INT_MASK_MASK v
  (List.range 29).foldl (fun s b => if old.testBit b && !v.testBit b && summaryBit s b then sendVector s b else s) s

/-- A write of NOC_TRACE_CTRL: EN newly set starts the writer anew (R175). -/
def writeTraceCtrl (v : Nat) (s : State) : State :=
  let fresh := !s.on NOC_TRACE_CTRL_EN && v.testBit 0
  let s := writeReg s 0x030000060100 v
  if fresh then { s.puts [(NOC_TRACE_WPTR_WRAPPED, 0), (NOC_TRACE_WPTR_OFFSET, 0)] with noc := { s.noc with stopped := false } } else s

/-- The words of a journal entry (R335). How the request stands in HDR, and which pool line is the entry's first, are not
given: free values (assumption 57). -/
def entryWords (e : WakeEntry) (s : State) : List Nat × State :=
  let (h, s) := (List.range 4).foldl (fun (a : List Nat × State) _ => let (v, t) := a.2.free; (a.1 ++ [v.toNat], t)) ([], s)
  let (l, s) := s.free
  let w1 := 2 ^ 31 + e.out.toNat * 2 ^ 30 + e.side.toNat * 2 ^ 29 + e.replayed.toNat * 2 ^ 28 + e.state * 2 ^ 24 + e.dest
  ([e.seq, w1] ++ h ++ [l.toNat / 2 ^ 17 * 2 ^ 17 + e.lines * 2 ^ 10, e.ts % 2 ^ 32], s)

/-- A write of WAKE_PEEK_SEL: the selected entry is copied into WAKE_PEEK_DATA (R347). -/
def writePeek (v : Nat) (s : State) : State :=
  let s := writeReg s 0x030000070100 v
  let port := s.get WAKE_PEEK_SEL_PORT
  let out := s.on WAKE_PEEK_SEL_OUT
  let (ws, s) := match (portEntries s port out).find? (fun e => e.slot == s.get WAKE_PEEK_SEL_INDEX) with
    | some e => entryWords e s
    | none => ([], s)
  s.onWake (fun w => { w with peek := (List.range 8).foldl (fun m i => smSet 0 m i (ws.getD i 0)) [] })

/-- A write of the control word of a debug access set (R377): its settings, and with GO an access begins unless one runs. -/
def writeAccess (a v : Nat) (s : State) : State :=
  let s := s.puts [(DBG_ACC_INC a, slice v 8 1), (DBG_ACC_SIZE a, slice v 4 2), (DBG_ACC_KIND a, slice v 1 2)]
  if !v.testBit 0 || s.on (DBG_ACC_BUSY a) then s
  else
    let x : DbgAccess := ⟨s.get64 (DBG_ACC_ADDR_LO a) (DBG_ACC_ADDR_HI a), 2 ^ slice v 4 2, slice v 1 2 % 3,
      s.get64 (DBG_ACC_DATA_LO a) (DBG_ACC_DATA_HI a), none⟩
    (s.flag (DBG_ACC_BUSY a) true).onDebug (fun d => { d with sets := d.sets.filter (·.1 != a) ++ [(a, x)] })

/-- A write of a register of the ENG_ block of engine `g`. -/
def writeEngineBlock (g : Nat) (o v : Nat) (s : State) : State :=
  if o < 0x800 then writeEngReg g o v s else writeEngDebugReg (Fin.ofNat 1028 g) (o - 0x800) (BitVec.ofNat 32 v) s

/-- A write of a register in the control space of channel `n`, by offset. -/
def writeChannel (n off v : Nat) (s : State) : State :=
  let loc := 0x020000000000 + n * 0x10000000 + off
  if 0x100000 ≤ off ∧ off < 0x140000 then writeEngineBlock (64 * n + (off - 0x100000) / 0x1000) (off % 0x1000) v s
  else if 0x30000 ≤ off ∧ off < 0x30040 then
    writeCrcCtx n ((off - 0x30000) / 0x10) (fun s =>
      if off % 0x10 = 0 then writeCrcPoly n ((off - 0x30000) / 0x10) (v % 4) (v.testBit 2) s else writeReg s loc v) s
  else match off with
    | 0x00020 => writeSwdtLoad n v s
    | 0x00028 => writeSwdtKick n (v % 256) s
    | 0x10000 => writeNandCfg n v s
    | 0x10004 => writeNandCtrl n (v.testBit 0) (v.testBit 1) s
    | 0x1000C => nandResume n (v % 2 ^ 16) s
    | 0x10010 => nandPush n v s
    | 0x1002C => writeNandRptr n (v % 2 ^ 12) s
    | 0x20010 => ldpcPush n v s
    | 0x30100 => writeCrcScan n (v.testBit 6) (v.testBit 5) (v.testBit 0) (slice v 3 2) s
    | 0x40004 =>
      let s := if v.testBit 1 then dramRefAll n s else s
      if v.testBit 0 then dramStart n s else s
    | 0x50008 => writePatCtrl n v s
    | 0x60000 => taskPush n v s
    | 0x6000C | 0x60010 => judgeTasks n (writeReg s loc v)
    | _ => writeSettled s loc v

/-- A write of a register of the debug block, by offset in it. -/
def writeDebug (off v : Nat) (s : State) : State :=
  let loc := 0x0300000B0000 + off
  if 0x8000 ≤ off ∧ off < 0xC000 then writeEngineBlock (1024 + (off - 0x8000) / 0x1000) (off % 0x1000) v s
  else match off with
    | 0x004 => dbgRst (slice v 24 8) (slice v 0 3) (slice v 8 5) s
    | 0x010 => crewHalt v s
    | 0x014 => crewResume v s
    | 0x020 | 0x024 | 0x028 | 0x02C => writeIslHalt ((off - 0x20) / 4) v s
    | 0x030 => writeIslStep v s
    | 0x110 | 0x130 => writeAccess ((off - 0x100) / 0x20) v s
    | 0x248 => xtPulse (v % 256) s
    | _ => writeSettled s loc v

/-- A write of a register of the lanes' block, by offset in it. The reference frequency that a quad's setting is judged by is
a free value here (assumption 58). -/
def writeLanes (off v : Nat) (s : State) : State :=
  let loc := 0x0300000C0000 + off
  if off = 0x10 then writeHtest (v % 4) s
  else if 0x100 ≤ off ∧ off < 0x400 ∧ off % 0x20 = 0 then
    if v.testBit 31 ∧ 0x200 ≤ off then
      let (f, s) := s.free
      writeQuad ((off - 0x100) / 0x20) v f.toNat s
    else writeSettled s loc v
  else if 0x1000 ≤ off ∧ off < 0x7000 then
    let l := (off - 0x1000) / 0x100
    match off % 0x100 with
    | 0x00 => writeLaneCtrl l v s
    | 0x14 => writeTxeq l v s
    | 0x18 => writeRxeq l v s
    | 0x40 => writePattern l v s
    | 0x44 => if v.testBit 31 then prbsClear l s else s
    | 0x60 => writeEye l v s
    | _ => writeSettled s loc v
  else writeSettled s loc v

/-- A write of a register of a command slot, by offset in it. -/
def writeSlot (k off v : Nat) (s : State) : State :=
  match off with
  | 0x1C => ringSlot k (v % 2 ^ 16) s
  | 0x2C => if v.testBit 0 then abortSlot k s else s
  | _ => writeSettled s (slotAt k off) v

/-- A write of a register of the configuration controller, by offset in its block. -/
def writeCfg (req : Requester) (off v : Nat) (s : State) : State :=
  if 0x8000 ≤ off then hostLoad req (off - 0x8000) (toBytes v 4) s
  else match off with
    | 0x020 =>
      let s := writeSettled s 0x030000040020 v
      if v.testBit 0 then hloadAbort s else s
    | 0x200 =>
      let s := if v.testBit 3 then prAbort s else s
      if v.testBit 0 then prGo (v.testBit 1) s else writeReg s 0x030000040200 v
    | 0x240 => writeCapCtrl (v.testBit 1) (v.testBit 0) s
    | 0x280 =>
      let s := if v.testBit 2 then readbackAbort s else s
      if v.testBit 0 then readbackGo (v.testBit 1) s else s.flag CFG_RB_CTRL_SHADOW (v.testBit 1)
    | _ => writeSettled s (0x030000040000 + off) v

/-- A write of a register of the security block, by offset in it. -/
def writeSec (off v : Nat) (s : State) : State :=
  if 0x2000 ≤ off ∧ off < 0x4000 then writeOtpBuf (off - 0x2000) v s
  else if 0x200 ≤ off ∧ off < 0x240 then writeKsCtrl ((off - 0x200) / 4) v s
  else if 0x280 ≤ off ∧ off < 0x2C0 then s.onSec (fun x => { x with ksData := smSet 0 x.ksData ((off - 0x280) / 4) v })
  else match off with
    | 0x010 => writeSecLock v s
    | 0x110 => if v.testBit 0 then otpGo s else s
    | _ => writeSettled s (0x030000050000 + off) v

/-- A write of a register of the power block, by offset in it. PWR_MOORED's drain and clock are taken to be as they must be
(assumption 55). -/
def writePower (req : Requester) (off v : Nat) (s : State) : State :=
  if off = 0x100 then
    if v.testBit 0 then writeMoored req v true true s else writeReg s 0x030000030100 v
  else if 0x200 ≤ off ∧ off < 0x340 ∧ off % 0x10 = 0 then writePart ((off - 0x200) / 0x10) v s
  else writeSettled s (0x030000030000 + off) v

/-- A write of a register of the host-port block, by offset in it. -/
def writeHost (off v : Nat) (s : State) : State :=
  if 0x400 ≤ off ∧ off < 0x440 ∧ off % 8 = 0 then writeHdm ((off - 0x400) / 8) v s
  else if 0x800 ≤ off ∧ off < 0xC00 ∧ off % 0x40 = 0x18 then writeOutWp ((off - 0x800) / 0x40) v s
  else writeSettled s (0x030000080000 + off) v

/-- A write of a register in the hub control space, by offset. -/
def writeHub (req : Requester) (off v : Nat) (s : State) : State :=
  let o := off % 0x10000
  match off / 0x10000 with
  | 0 => if o = 0x104 then writeIntMask v s else writeSettled s (0x030000000000 + off) v
  | 1 => if o = 8 then rstCtrl (slice v 24 8) (slice v 0 3) (slice v 8 5) s else writeSettled s (0x030000000000 + off) v
  | 2 =>
    if o = 0x18 then writeTsCtrl v s
    else if 0x1000 ≤ o ∧ o < 0x1200 ∧ o % 4 = 0 then writeFreq ((o - 0x1000) / 4) (v % 2 ^ 8) s
    else writeSettled s (0x030000000000 + off) v
  | 3 => writePower req o v s
  | 4 => writeCfg req o v s
  | 5 => writeSec o v s
  | 6 => if o = 0x100 then writeTraceCtrl v s else writeSettled s (0x030000000000 + off) v
  | 7 => if o = 0x100 then writePeek v s else writeSettled s (0x030000000000 + off) v
  | 8 => writeHost o v s
  | 9 => if 0x1000 ≤ o ∧ o < 0x2000 then writeSlot ((o - 0x1000) / 0x40) (o % 0x40) v s else writeSettled s (0x030000000000 + off) v
  | 0xA =>
    if 0x8000 ≤ o ∧ o < 0xC000 ∧ o % 0x2000 < 0x400 then writeMsix ((o - 0x8000) / 0x2000) (o % 0x2000 / 4) v s
    else writeSettled s (0x030000000000 + off) v
  | 0xB => writeDebug o v s
  | 0xC => writeLanes o v s
  | 0xD =>
    if o = 0x10 then (if v.testBit 0 then checkerGo v s else writeSettled s 0x0300000D0010 v)
    else if 0x400 ≤ o ∧ o < 0x454 then freeSlags ((o - 0x400) / 4) v s
    else writeSettled s (0x030000000000 + off) v
  | _ => writeSettled s (0x030000000000 + off) v

/-- A write of a word that has reached the register at a device address. -/
def writeSpecial (req : Requester) (addr v : Nat) (s : State) : State :=
  match locate addr with
  | .hub off => writeHub req off v s
  | .chan n off => writeChannel n off v s
  | _ => s

/-- A read of a word that has reached the register at a device address, with what the read does: CREW_TQ_POP pops, but not
for a debug read (R8, R253). -/
def readSpecial (req : Requester) (addr : Nat) (debug : Bool) (s : State) : Nat × State :=
  match locate addr with
  | .chan n 0x60004 => readTaskPop req n debug s
  | _ => readLatched s req (addr % 2 ^ 48)

end Sys2Proof.Machine
end

