-- ==== Sys2Proof/Machine/Target.lean ====
section
/-! DEFINITION. What a target does with a request (R19 to R25, R159, R161, R162, R164, R310, R354): plain memory, registers,
and the fabric's targets, for requests of engines, of the network, of hosts and of the debug domain. -/

namespace Sys2Proof.Machine

/-- The value that an atomic operation on `w` bits leaves (R159); none where the operation is not in the table. -/
def atomResult (op : AtomOp) (w old x cmp : Nat) : Option Nat :=
  let m := 2 ^ w
  match op with
  | .swap => some (x % m)
  | .add => some ((old + x) % m)
  | .and => some (old &&& (x % m))
  | .or => some (old ||| (x % m))
  | .xor => some (old ^^^ (x % m))
  | .smax => some (if toSigned w x < toSigned w old then old else x % m)
  | .smin => some (if toSigned w x < toSigned w old then x % m else old)
  | .umax => some (max old (x % m))
  | .umin => some (min old (x % m))
  | .cas => some (if old = cmp % m then x % m else old)
  | .other => none

/-- A write to plain memory. Poisoned data marks its line in channel DRAM; no on-chip memory can hold poison (R161). -/
def serveWrite (a : Ask) (x : Access1) (s : State) : NocRsp × State :=
  match plainOf a.addr with
  | none => (.errDecode, s)
  | some w =>
    if a.addr < hubSram && !hasRight s a.req a.addr true then (.ack, s)
    else match w with
      | .chip _ _ _ _ =>
        if a.psn then (.errBus, s) else let (st, s) := plainWrite x w a.data a.be a.len s; (rspOf 1 0 st, s)
      | .dram n off _ =>
        match plainWrite x w a.data a.be a.len s with
        | (.ok, s) => (.ack, if a.psn then markLine n (off / 64) s else s)
        | (st, s) => (rspOf 1 0 st, s)

/-- An atomic operation on plain memory: it returns the value before (R156, R159). -/
def serveAtomic (a : Ask) (x : Access1) (s : State) : NocRsp × State :=
  if a.addr < hubSram && !permitted s a then (silentRsp a.opc, s)
  else match memRead x a.addr a.len s with
  | none => (.errDecode, s)
  | some r =>
    match r.st with
    | .ok =>
      match atomResult a.op (8 * a.len) r.v a.data a.cmp with
      | none => (.errBus, r.s)
      | some v =>
        match memWrite x a.addr v (2 ^ a.len - 1) a.len r.s with
        | some (.ok, s) => (.data r.v false, s)
        | some (st, s) => (rspOf 2 0 st, s)
        | none => (.errDecode, r.s)
    | st => (rspOf 2 0 st, r.s)

/-- A request to plain memory. -/
def serveMemory (a : Ask) (s : State) : NocRsp × State :=
  let x : Access1 := ⟨a.req, false, a.posted, .ok⟩
  match a.opc with
  | 0 => match memRead x a.addr a.len s with
    | none => (.errDecode, s)
    | some r => (rspOf 0 r.v r.st, r.s)
  | 1 => serveWrite a x s
  | _ => serveAtomic a x s

/-- An error of a register access as a response. -/
def stopRsp : Out → NocRsp
  | .decodeError => .errDecode
  | _ => .errBus

/-- Words of registers read from an address on, the first lowest. -/
def readWords (req : Requester) (quiet : Bool) (addr : Nat) : Nat → State → Nat × State
  | 0, s => (0, s)
  | k + 1, s =>
    let (v, s) := readSpecial req addr quiet s
    let (w, s) := readWords req quiet (addr + 4) k s
    (v + 2 ^ 32 * w, s)

/-- Words of registers written from an address on: those whose four bytes are enabled. -/
def writeWords (req : Requester) (addr v be : Nat) : Nat → State → State
  | 0, s => s
  | k + 1, s =>
    let s := if be % 16 = 15 then writeSpecial req addr (v % 2 ^ 32) s else s
    writeWords req (addr + 4) (v / 2 ^ 32) (be / 16) k s

/-- A request to registers. A wider access is made as accesses of 32 bits, in rising order (R6, R22, assumption 60). Registers
take neither atomics nor poisoned data (R161). -/
def serveRegister (a : Ask) (s : State) : Answer × State :=
  let size := if a.len % 4 = 0 && a.len ≠ 0 then 4 else a.len
  match regGate s a.req a.addr size (a.opc != 0) with
  | .stop o => (.done (stopRsp o), s)
  | .wait p => (.wait, wakePart p s)
  | .silent => (.done (silentRsp a.opc), s)
  | .reach => match a.opc with
    | 0 => let (v, s) := readWords a.req a.quiet a.addr (a.len / 4) s; (.done (.data v false), s)
    | 1 => if a.psn then (.done .errBus, s) else (.done .ack, writeWords a.req a.addr a.data a.be (a.len / 4) s)
    | _ => (.done .errBus, s)

/-! Requests. -/

/-- A request to channel DRAM behind the directory. -/
def serveDram (a : Ask) (s : State) : Answer × State :=
  match takeFailed (a.req, a.tag) s with
  | some s => (.done .errBus, s)
  | none =>
    match (if permitted s a then biNeeds s a else none) with
    | some (p, inv) => (.wait, biWait p (lineOf a.addr) inv (a.req, a.tag) s)
    | none => let (r, s) := serveMemory a s; (.done r, s)

/-- A request at its target. -/
def serve (a : Ask) (s : State) : Answer × State :=
  if hubSram ≤ a.addr then (let (r, s) := serveMemory a s; (.done r, s))
  else if let some x := switchStop s a then (x, s)
  else match waitsForChannel s a with
    | some p => (.wait, wakePart p s)
    | none => match locate a.addr with
      | .dram _ _ => serveDram a s
      | .fabric die off => serveFabric a (die * 2 ^ 38 + off) s
      | .window _ _ => (.outside, s)
      | .unmapped => (.done .errDecode, s)
      | .hub _ => serveRegister a s
      | .chan _ _ =>
        match plainOf a.addr with
        | some _ =>
          if s.clocks.halted && (groupOf a.req).any (· < 4) then (.done .errBus, s)
          else let (r, s) := serveMemory a s; (.done r, s)
        | none => serveRegister a s

end Sys2Proof.Machine
end

