-- ==== Sys2Proof/Machine/CrewPort.lean ====
section
/-! DEFINITION. The crew ports of the engines (spec/08, R185 to R187, R191): the responses to the request that stalls an engine
and to its posted stores, and their timeouts. -/

namespace Sys2Proof.Machine

/-- The destination of an engine's request (R24), one addressed unit: a channel's DRAM through the DRAM window, and again through
the device window (R178);
a block of a control space (R31, R230), all of crew SRAM or of the engine memories being one; hub SRAM; a window; a sector's
target port. -/
def portDest (s : State) (loc dev : Nat) : Nat :=
  if hubSram ≤ dev then 0x501
  else match locate dev with
    | .dram n _ => 0x100 + n + if 0x80000000 ≤ loc then 0x80 else 0
    | .chan n off => 0x1000 * (n + 1) + (if off < 0x1000000 then off / 0x10000 else 0x100 + off / 0x1000000)
    | .hub off => 0x20000 + off / 0x10000
    | .window p _ => 0x310 + p
    | .fabric d off => 0x400 + (fabricTarget s .hubMover (d * 2 ^ 38 + off)).getD 128
    | .unmapped => 0x500

/-- How an answer ends an engine's request: its status and data. -/
def portEnd : NocRsp → PortStatus × Nat
  | .data v psn => (if psn then .poison else .ok, v)
  | .ack => (.ok, 0)
  | .errDecode => (.decodeError, 0)
  | .errBus => (.busError, 0)

/-- The response of a target that the model does not hold: its status and data. -/
def givenRsp (opc bytes : Nat) (status : PortStatus) (data : Nat) : NocRsp := rspOf opc (data % 2 ^ (8 * bytes)) status

/-- The answer to an engine's request: the target's own, or what came back instead; none where it waits on. `data` is what a
target answers that the model does not hold. -/
def portAnswer (g : Eng) (a : Ask) (status : PortStatus) (data : Nat) (s : State) : Option (PortStatus × Nat) × State :=
  if (unitReq s a).isSome then
    let (x, s) := answerUnit a (givenRsp a.opc a.len status data) s
    (x.map portEnd, s)
  else if status != .ok then
    (some (status, 0), ((outboundOf s a.req a.tag a.opc).map (retireEntry · s)).getD s)
  else match serve a s with
    | (.done r, s) => (some (portEnd r), s)
    | (.wait, s) => (none, s)
    | (.outside, s) =>
      match locate a.addr with
      | .window _ _ =>
        match finishWindow (portReq g a.opc a.addr a.len) a.data a.be s with
        | (.done r, s) => (some (portEnd r), s)
        | (.wait, s) => (none, s)
      | _ =>
        let (x, s) := answerUnit a (givenRsp a.opc a.len status data) s
        (x.map portEnd, s)

/-- A request of an engine that has been given up is recorded no more. -/
def dropUnit (a : Ask) (s : State) : State := ((unitReq s a).map (fun r => endReq r true s)).getD s

/-- The oldest load of an engine that is still recorded and that nothing waits for. -/
def staleUnit (g : Eng) (s : State) : State :=
  ((s.noc.reqs.find? (fun r => r.unit && r.req == .engine g && r.opc == 0)).map (fun r => endReq r true s)).getD s

/-- An instruction that was stalled ends in an exception; a fed one records the code in FEED_ERR (R186, R194, R382). -/
def portFault (g : Eng) (code loc : Nat) (s : State) : State :=
  if (s.eng g).feeding then endFeed g ((s.setEng g { s.eng g with wait := none }).put (ENG_DBG_FEED_ERR g) code)
  else trapped g { code := code, addr := some loc } s

/-- An instruction that was stalled completes. -/
def portDone (g : Eng) (acc : List Access) (s : State) : State :=
  if (s.eng g).feeding then endFeed g s else retire g .next acc s

/-- An STX that the target has taken, or that failed, writes 0 or 1 (R191). -/
def finishStx (g : Eng) (p : PortReq) (rd bytes v fails : Nat) (s : State) : State :=
  let e := s.eng g
  portDone g [⟨p.loc, bytes, v, true⟩]
    (s.setEng g ({ e with wait := none, rsv := none, atom := none }.setStatus rd (BitVec.ofNat 32 fails)))

/-- The exception code of a failed response: 0x08 for poison, else 0x05 (R194). -/
def faultCode (st : PortStatus) : Nat := if st = .poison then 0x08 else 0x05

/-- The response to a stalled load. -/
def respondLoad (g : Eng) (p : PortReq) (op : LoadOp) (rd : Nat) (status : PortStatus) (data : Nat) (s : State) : State :=
  match portAnswer g (portAsk g 0 p.loc p.dev op.bytes 0) status data s with
  | (none, s) => s.emit .held
  | (some (.ok, v), s) =>
    portDone g [⟨p.loc, op.bytes, v, false⟩] (s.setEng g ({ s.eng g with wait := none }.loaded op rd v))
  | (some (st, _), s) => portFault g (faultCode st) p.loc s

/-- The response to a stalled LDX: the line is reserved and the atomic sequence opens. -/
def respondLdx (g : Eng) (p : PortReq) (rd : Nat) (wide : Bool) (status : PortStatus) (data : Nat) (s : State) : State :=
  let op : LoadOp := if wide then .ldd else .ld
  match portAnswer g (portAsk g 0 p.loc p.dev op.bytes 0) status data s with
  | (none, s) => s.emit .held
  | (some (.ok, v), s) =>
    portDone g [⟨p.loc, op.bytes, v, false⟩]
      (s.setEng g ({ s.eng g with wait := none, rsv := some (p.loc / 64, wide), atom := some 0 }.loaded op rd v))
  | (some (st, _), s) => portFault g (faultCode st) p.loc s

/-- The response to a stalled STX: it writes only while the reservation is held, on the same line and at the same size. -/
def respondStx (g : Eng) (p : PortReq) (rd : Nat) (wide : Bool) (v : Nat) (status : PortStatus) (s : State) : State :=
  let bytes := if wide then 8 else 4
  if status = .ok ∧ (s.eng g).rsv ≠ some (p.loc / 64, wide) then finishStx g p rd bytes v 1 s
  else match portAnswer g (portAsk g 1 p.loc p.dev bytes v) status 0 s with
    | (none, s) => s.emit .held
    | (some (.ok, _), s) => finishStx g p rd bytes v 0 s
    | (some (_, _), s) => portFault g 0x05 p.loc s

/-- A FENCE that waited for the posted stores completes with the last of them (R26, R187); what was fetched before is fetched
anew (R188). -/
def endFence (g : Eng) (s : State) : State :=
  let e := s.eng g
  if e.fencing && e.posted.isEmpty then portDone g [] (s.setEng g { e with fencing := false, oldWords := [] }) else s

/-- A store that waited for an entry of the store buffer has one now (R187): the pipeline goes on. -/
def unblock (g : Eng) (s : State) : State :=
  let e := s.eng g
  match e.blocked with
  | none => s
  | some p =>
    if e.buffered < 8 then
      portDone g [⟨p.loc, p.bytes, p.data, true⟩] (s.setEng g { e with blocked := none, posted := e.posted ++ [p] })
    else s

/-- ENG_ERR.KIND of a failed store (R187): 1 decode error, 2 bus error, 3 poison. -/
def errKind : PortStatus → Nat
  | .decodeError => 1
  | .poison => 3
  | _ => 2

/-- A posted store completes: it leaves the list, and an error is reported on line 17 (R187), unless the engine has bitten since it
was issued (R202). -/
def endStore (g : Eng) (p : Posted) (st : PortStatus) (s : State) : State :=
  let s := s.setEng g { s.eng g with posted := (s.eng g).posted.drop 1 }
  endFence g (unblock g (if st = .ok || p.mute then s else storeError g p.loc (errKind st) s))

/-- The response to the oldest posted store, which the crew port has accepted by then. -/
def respondStore (g : Eng) (p : Posted) (status : PortStatus) (s : State) : State :=
  match portAnswer g (portAsk g 1 p.loc p.dev p.bytes p.data) status 0 (takeStores g 1 s) with
  | (none, s) => (unblock g s).emit .held
  | (some (st, _), s) => endStore g p st s

/-- A stalled request waits for an older store to its destination: the two take effect in program order (R187). -/
def behindStore (s : State) (g : Eng) (p : PortReq) : Bool :=
  (s.eng g).posted.any (fun q => portDest s q.loc q.dev == portDest s p.loc p.dev)

/-- The bank of crew SRAM that a request of an engine reaches by its crew port, as channel × 16 + bank (R185). -/
def bankOf (dev : Nat) : Option Nat :=
  match locate dev with
  | .chan n off => if 0x8000000 ≤ off ∧ off < 0x9000000 then some (n * 16 + (off - 0x8000000) / 2 ^ 20) else none
  | _ => none

/-- An engine waits for a bank of its crew SRAM, with its stalled request or its oldest accepted store. -/
def waitsForBank (e : Engine) (b : Nat) : Bool :=
  (match e.posted with
    | p :: _ => p.taken && bankOf p.dev == some b
    | [] => match e.wait with
      | some w => bankOf w.dev == some b
      | none => false)

/-- It is the turn of engine `g` at a bank: no engine of the channel that comes before it in the round waits there (R185). -/
def inTurn (s : State) (g : Eng) (b : Nat) : Bool :=
  let first := smGet 0 s.onchip.banks b
  let place (h : Nat) : Nat := (h % 64 + 65 - first) % 65
  !s.engines.any (fun h => h.1 < 1024 && h.1 / 64 == b / 16 && h.1 != g.val && decide (place h.1 < place g.val) && waitsForBank h.2 b)

/-- A bank that the engine's request waits for serves another first (R185). -/
def outOfTurn (s : State) (g : Eng) (dev : Nat) (status : PortStatus) : Bool :=
  match bankOf dev with
  | some b => status == .ok && g.val / 64 == b / 16 && !inTurn s g b
  | none => false

/-- CREW_PORT_RESPONSE (R185, R187, R191). A response to a request that was given up is discarded (R186, R202); one out of the round
of a crew SRAM bank is held; one that a unit reset of Patina ended is a bus error (R290). -/
def execCrewPortResponse (g : Eng) (store : Bool) (status : PortStatus) (data : BitVec 64) (s : State) : Res :=
  let s := s.begin
  let e := s.eng g
  let req := if store then e.posted.head?.map (fun p => (p.dev, p.dead)) else e.wait.map (fun p => (p.dev, p.dead))
  let status := if req.any (·.2) then .busError else status
  if req.any (fun p => outOfTurn s g p.1 status) then .next (s.emit .held)
  else if store then
    match e.posted with
    | p :: _ => .next (respondStore g p status s)
    | [] => .next s
  else match e.wait with
    | none => .next ((staleUnit g s).setEng g { e with stale := e.stale - 1 })
    | some p =>
      if behindStore s g p then .next s
      else match p.op with
        | .load op rd => .next (respondLoad g p op rd status data.toNat s)
        | .ldx rd wide => .next (respondLdx g p rd wide status data.toNat s)
        | .stx rd wide v => .next (respondStx g p rd wide v.toNat status s)

/-- CREW_PORT_TIMEOUT (R186): the request is completed at the crew port; its response will be discarded. -/
def execCrewPortTimeout (g : Eng) (store : Bool) (s : State) : Res :=
  let s := s.begin
  let e := s.eng g
  let late (s : State) : State := s.setEng g { s.eng g with stale := (s.eng g).stale + 1 }
  if store then
    match e.posted with
    | p :: _ => .next (endStore g p .busError (late (dropUnit (portAsk g 1 p.loc p.dev p.bytes p.data) (takeStores g 1 s))))
    | [] => .next s
  else match e.wait with
    | some p => .next (portFault g 0x05 p.loc (late s))
    | none => .next s

/-! Time (R187). -/

/-- The crew port may accept the oldest store in the buffer of engine `g`: when it does so is a free value (assumption 92). -/
def portTakes (g : Nat) (s : State) : State :=
  if h : g < 1028 then
    let e := s.eng g
    match e.posted.findIdx? (fun p => !p.taken) with
    | none => s
    | some k =>
      if runs s (engDomain g) && !inEasy s (engPart g) && !s.clocks.halted then
        let (v, s) := s.free
        if v.getLsbD 0 then unblock ⟨g, h⟩ (takeStores ⟨g, h⟩ (k + 1) s) else s
      else s
  else s

/-- One nanosecond at the crew ports. -/
def portsTake (s : State) : State :=
  ((s.engines.filter (fun e => e.2.posted.any (fun p => !p.taken))).map (·.1)).foldl (fun s g => portTakes g s) s

end Sys2Proof.Machine
end

