-- ==== Sys2Proof/Machine/Trace.lean ====
section
/-! DEFINITION. The trace writer (spec/07, R174, R175). -/

namespace Sys2Proof.Machine

/-- The base of a destination in channel DRAM; none where it lies outside it. -/
def traceBase (s : State) : Option Nat :=
  let a := s.get64 NOC_TRACE_BASE_LO_ADDR NOC_TRACE_BASE_HI_ADDR
  match locate a with
  | .dram _ _ => some (a / 4096 * 4096)
  | _ => none

/-- The next record's place moves on: past the end it wraps, or the writer stops (R174). -/
def advanceTrace (s : State) : State :=
  let o := s.get NOC_TRACE_WPTR_OFFSET + 32
  if o < traceBytes s then s.put NOC_TRACE_WPTR_OFFSET o
  else if s.on NOC_TRACE_CTRL_WRAP then s.puts [(NOC_TRACE_WPTR_OFFSET, 0), (NOC_TRACE_WPTR_WRAPPED, 1)]
  else raiseNoc NOC_CAUSE_TRACE_FULL { s.put NOC_TRACE_WPTR_OFFSET o with noc := { s.noc with stopped := true } }

/-- A record stored at the next place: false where the write fails. -/
def putRecord (probe : Fin 32) (r : Nat) (s : State) : Bool × State :=
  let o := s.get NOC_TRACE_WPTR_OFFSET
  if s.on NOC_TRACE_CTRL_DEST then
    match traceBase s with
    | none => (false, { s with noc := { s.noc with stopped := true } })
    | some b =>
      match rangeWrite (plainAccess (.traceWriter probe)) (b + o) (toBytes r 32) s with
      | (_, .ok, s) => (true, s)
      | (_, _, s) => (false, s)
  else (true, { s with noc := { s.noc with traceBuf := smSet 0 s.noc.traceBuf (o / 32) r } })

/-- The writer takes a record. One that reaches it while it is off is dropped (assumption 61). -/
def storeTrace (probe : Fin 32) (r : Nat) (s : State) : State :=
  if !s.on NOC_TRACE_CTRL_EN then s
  else if s.noc.stopped then loseRecord probe s
  else
    let gap := s.noc.gaps.contains probe.val
    match putRecord probe (if gap then r + 2 ^ 117 else r) s with
    | (true, s) => advanceTrace { s with noc := { s.noc with gaps := setDel s.noc.gaps probe } }
    | (false, s) => loseRecord probe s

/-- How the write of a probe's next record to channel DRAM stands (R310, R354); where the writer does not take it there, it goes on. -/
def traceTurn (probe : Fin 32) (s : State) : Turn × State :=
  if !s.on NOC_TRACE_CTRL_EN || s.noc.stopped || !s.on NOC_TRACE_CTRL_DEST then (.go, s)
  else match traceBase s with
    | none => (.go, s)
    | some b => plainTurn (transferAsk (.traceWriter probe) 0 (b + s.get NOC_TRACE_WPTR_OFFSET) 32 1) s

/-- The sector at whose router a probe stands; none for one at a hub port. -/
def probeSector (s : State) (n : Nat) : Option Nat :=
  let u := s.get (PROBE_UNIT n)
  if isRouter u then some (32 * (u / 2048) + u % 2048 - 32) else none

/-- A trace record on its way as a TRACE flit, which has no command flit and no tag (R156, R174); one of a hub port's probe does not
use the mesh. -/
def traceMsg (s : State) (n r : Nat) : Option Msg :=
  (probeSector s n).map (fun x => ⟨meshPos x, (hubX, (meshPos x).2), 0x1F, 1, 0, false, none, r⟩)

/-- TRACE (R174): the oldest queued record of a probe reaches the writer, unless the mesh on its way is frozen (R170), or
its place in channel DRAM makes it wait (R310, R354). -/
def execTrace (probe : Fin 32) (s : State) : Res :=
  let s := s.begin
  match smGet [] s.noc.probeQ probe with
  | [] => .next s
  | r :: q =>
    if (probeSector s probe).any (fun x => routeFrozen s x none) then .next s
    else match traceTurn probe s with
      | (.wait, s) => .next (s.emit .held)
      | (t, s) =>
        let s := { s with noc := { s.noc with probeQ := smSet [] s.noc.probeQ probe q } }
        let s := ((traceMsg s probe r).map (seeMessage · s)).getD s
        .next (if t = .fail then loseRecord probe s else storeTrace probe r s)

end Sys2Proof.Machine
end

