-- ==== Sys2Proof/Machine/Noc.lean ====
section
/-! DEFINITION. Requests on the network (spec/07): issue at a port, what the target answers, delivery of the answer, timeouts,
faults and management messages. A request takes effect when it reaches its target, which is where its row stands; where it
has to wait on the way, nothing is recorded and its sender presents it again. -/

namespace Sys2Proof.Machine

/-- The requester's port takes its requests: a held sector issues nothing, and a port that a pending fence binds accepts no
new request (R79). -/
def issues (s : State) : Requester → Bool
  | .sector x => !sectorHeld s x && !s.fabric.fences.any (fun e => e.2.ports.contains x.val)
  | _ => true

/-- A request whose shape a port answers itself with ERR_BUS (R159): it crosses a 64-byte boundary, or is an atomic that is not
aligned. -/
def badShape (a : Ask) : Bool := 64 < a.addr % 64 + a.len || (a.opc == 2 && a.addr % a.len != 0)

/-- A request to a window onto host memory leaves for the host. -/
def leaveWindow (a : Ask) (port : Nat) (s : State) : State :=
  let r := reqOf a port none none
  let (x, s) := issueWindow r a.data a.be (seeRequest r (blockBe a) s)
  recordReq { r with rsp := x } s

/-- A request that its port answers itself and that never enters the mesh: a misshapen one (R159), one whose way to the hub is frozen
(R170), one to a fabric address that no entry of the target map claims (R162). -/
def portAnswers (a : Ask) (port : Nat) (dst : Option Nat) (s : State) : Option NocRsp :=
  if badShape a then some .errBus
  else match locate a.addr, dst with
    | .fabric _ _, none => some (if permitted s a then .errDecode else silentRsp a.opc)
    | _, _ => if port < 128 && dst.isNone && routeFrozen s port none then some .errBus else none

/-- A request at its port and on to its target (R159, R162 to R164, R170). -/
def issueRequest (a : Ask) (s : State) : State :=
  let dst := requestDst s a.req a.addr
  let port := entryPort a.req dst
  if !issues s a.req || tagBusy s a.req port a.tag then s
  else match portAnswers a port dst s with
    | some x => recordReq (reqOf a port (if badShape a then none else dst) (some x)) s
    | none =>
      match serve a s with
      | (.wait, s) => s.emit .held
      | (.outside, s) => match dst with
        | some x => (enterFabric (reqOf a port dst none) a x s).getD (s.emit .held)
        | none => leaveWindow a port s
      | (.done x, s) => recordReq (reqOf a port dst (some x)) (seeRequest (reqOf a port dst (some x)) (blockBe a) s)

/-- RD (R156, R159). -/
def execRd (req : Requester) (tag : Fin 1024) (addr : BitVec 52) (len : Fin 64) (s : State) : Res :=
  .next (issueRequest { req := req, tag := tag, addr := addr.toNat, len := len.val + 1, opc := 0 } s.begin)

/-- WR (R156, R159): data and byte enables stand at their place in the 64-byte block. -/
def execWr (req : Requester) (tag : Fin 1024) (addr : BitVec 52) (len : Fin 64) (be : BitVec 64) (data : BitVec 512) (psn : Bool)
    (s : State) : Res :=
  let o := addr.toNat % 64
  .next (issueRequest {
    req := req, tag := tag, addr := addr.toNat, len := len.val + 1, opc := 1, psn := psn
    data := data.toNat / 2 ^ (8 * o) % 2 ^ (8 * (len.val + 1)), be := be.toNat / 2 ^ o % 2 ^ (len.val + 1), flitBe := some be.toNat } s.begin)

/-- ATOM (R156, R159). -/
def execAtom (req : Requester) (tag : Fin 1024) (addr : BitVec 52) (wide : Bool) (op : AtomOp) (operand compare : BitVec 64)
    (s : State) : Res :=
  .next (issueRequest {
    req := req, tag := tag, addr := addr.toNat, len := if wide then 8 else 4, opc := 2, op := op
    data := operand.toNat, cmp := compare.toNat } s.begin)

/-! Delivery. -/

/-- The answer that a request gets: the one on its way; for a window what the host completed; else what its target, which the
model does not hold, answers now. -/
def answerFor (r : NocReq) (given : Option NocRsp) (s : State) : Option NocRsp × State :=
  match r.rsp with
  | some x => (some x, s)
  | none => if r.lost then (none, s) else match locate r.addr with
    | .window _ _ =>
      match finishWindow r 0 0 s with
      | (.done x, s) => (some x, s)
      | (.wait, s) => (none, s)
    | _ => (given, s)

/-- What the requester sees of an answer. -/
def answerOut : NocRsp → Out
  | .data v psn => .data v psn
  | .ack => .done
  | .errDecode => .decodeError
  | .errBus => .busError

/-- An answer is of the kind that a response message carries. -/
def sameKind : NocRsp → NocRsp → Bool
  | .data _ _, .data _ _ => true
  | x, y => x == y

/-- An answer reaches its requester; `excl`: coherent data comes with an exclusive copy. -/
def deliverAs (excl : Bool) (r : NocReq) (x : NocRsp) (s : State) : State :=
  endReq r (isErr x) ((seeAnswer r excl x s).emit (answerOut x))

/-- An answer that grants no copy reaches its requester. -/
def deliver (r : NocReq) (x : NocRsp) (s : State) : State := deliverAs false r x s

/-- A response message for a request: delivered where its kind is that of the answer; an answer of another kind stands and its
own message will carry it. A response to no outstanding request is discarded (R171). -/
def respond (r : NocReq) (kind : NocRsp) (given : Option NocRsp) (s : State) : State :=
  match answerFor r given s with
  | (none, s) => s
  | (some x, s) =>
    if sameKind x kind then deliver r x s
    else s.onNoc (fun n => { n with reqs := n.reqs.map (fun q => if q == r then { q with rsp := some x } else q) })

/-- The data of a block from an address on. -/
def fromBlock (data addr len : Nat) : Nat := data / 2 ^ (8 * (addr % 64)) % 2 ^ (8 * len)

/-- RD_DATA at a requester inside the XD9. -/
def respondData (req : Requester) (tag data : Nat) (psn : Bool) (s : State) : State :=
  match findReq s req tag [0] with
  | none => s
  | some r => respond r (.data 0 false) (some (.data (fromBlock data r.addr (r.len + 1)) psn)) s

/-- WR_ACK at a requester inside the XD9. -/
def respondAck (req : Requester) (tag : Nat) (s : State) : State :=
  match findReq s req tag [1] with
  | none => s
  | some r => respond r .ack (some .ack) s

/-- ATOM_DATA (R156): the value before the operation. -/
def execAtomData (req : Requester) (tag : Fin 1024) (data : Datum) (s : State) : Res :=
  let s := s.begin
  match findReq s req tag [2] with
  | none => .next s
  | some r => .next (respond r (.data 0 false) (some (.data (data.bits.toNat % 2 ^ (8 * (r.len + 1))) data.psn)) s)

/-- An error at a requester inside the XD9. Only a port or the hub answers ERR_DECODE; a target that the model does not hold
may answer ERR_BUS. -/
def respondError (req : Requester) (tag : Nat) (x : NocRsp) (s : State) : State :=
  match findReq s req tag [0, 1, 2, 3, 4, 5, 6] with
  | none => s
  | some r => respond r x (if r.dst.isSome && x == .errBus then some .errBus else none) s

/-! Timeouts, stalls, faults. -/

/-- The outbound entry of a request that its requester has given up retires with the host's completion, or at once where that
has come (R171, R186). -/
def abandonOutbound (req : Requester) (tag opc : Nat) (s : State) : State :=
  match outboundOf s req tag opc with
  | none => s
  | some e =>
    if e.state = 3 then retireEntry e s
    else s.onWake (fun w => { w with entries := w.entries.map (fun f =>
      if f == e then { f with req := { f.req with tag := 16384, accepted := true } } else f) })

/-- The unit and PORT that the log names for a port: the sector's router and its local port, or the hub port. -/
def portUnit (port : Nat) : Nat × Nat :=
  if port < 128 then (unitId (port / 32) (32 + port % 32), 4) else (unitId 20 18, 5)

/-- A request outstanding at a port, by its requester's number of it: also those of crew ports, of debug access sets, and of the management
of the routers, whose number is the tag (R171). -/
def outstanding (s : State) (req : Requester) (tag : Nat) : Option NocReq :=
  s.noc.reqs.find? (fun r => r.req == req && r.tag == tag && !(r.unit && r.lost && r.rsp.isSome))

/-- A unit's request is given up: its tag is free, and its unit's own command brings ERR_BUS. -/
def giveUp (r : NocReq) (s : State) : State :=
  s.onNoc (fun n => { n with reqs := n.reqs.map (fun q => if q == r then { q with rsp := some .errBus, lost := true, hubTag := 1024 } else q) })

/-- NOC_REQUEST_TIMEOUT (R171). -/
def execNocRequestTimeout (req : Requester) (tag : Fin 16384) (s : State) : Res :=
  let s := s.begin
  match outstanding s req tag with
  | none => .next s
  | some r =>
    let (u, p) := portUnit r.port
    let s := abandonOutbound r.req r.tag r.opc (logNoc u 5 p (flitTag r) s)
    .next (raiseNoc NOC_CAUSE_TIMEOUT (if r.unit then giveUp r s else (endReq r true s).emit .busError))

/-- NOC_STALL (R172). An error log names no unit that does not exist (R15). -/
def execNocStall (unit : BitVec 16) (port : BitVec 8) (s : State) : Res :=
  let s := s.begin
  .next (if s.get NOC_CTRL_STALL_LIM = 0 || !unitExists unit.toNat then s else raiseNoc NOC_CAUSE_STALL (logNoc unit.toNat 6 port.toNat 0 s))

/-- The units that a message from `a` to `b` passes. -/
def routeUnits (a b : Nat × Nat) : List Nat := (routeOut ⟨a, b, 0, 1, 0, false, none, 0⟩).map (·.1)

/-- A request, or its answer, passes a router, or the hub's ports, which the log names as one unit. -/
def onRoute (u : Nat) (r : NocReq) : Bool :=
  match meshEnds r.port r.dst with
  | none => false
  | some (a, b) => if isRouter u then (routeUnits a b ++ routeUnits b a).contains u else a.1 == hubX || b.1 == hubX

/-- The Wake records a request: it is for the host (R333). -/
def wakeRecords (r : NocReq) : Bool :=
  match locate r.addr with
  | .window _ _ => true
  | _ => false

/-- A flit of read data with this tag on its way through a unit is poisoned (R169). -/
def poisonFlit (u tag : Nat) (s : State) : State :=
  match s.noc.reqs.find? (fun r => onRoute u r && flitTag r == tag && r.rsp.any (sameKind (.data 0 false))) with
  | none => s
  | some r => s.onNoc (fun n => { n with reqs := n.reqs.map (fun q => if q != r then q else
      { q with rsp := q.rsp.map (fun x => match x with
        | .data v _ => .data v true
        | x => x) }) })

/-- Which of the requests that the Wake does not record are lost with a unit, and which stay: which of them had a flit in it is a free
value (R169, assumption 91). -/
def loseFlits (u : Nat) : List NocReq → State → List NocReq × State
  | [], s => ([], s)
  | r :: l, s =>
    if onRoute u r && !wakeRecords r && !(r.lost && r.rsp.isSome) then
      let (v, s) := s.free
      let (l, s) := loseFlits u l s
      ((if v.getLsbD 0 then { r with rsp := none, lost := true } else r) :: l, s)
    else
      let (l, s) := loseFlits u l s
      (r :: l, s)

/-- A router, or a hub port, is reset: what it held is lost, and the settings that MGT_WR had loaded into a router with it (R16, R169). -/
def resetRouter (u : Nat) (s : State) : State :=
  let (reqs, s) := loseFlits u s.noc.reqs s
  let x := 32 * (u / 2048) + u % 2048 - 32
  s.onNoc (fun n => { n with
    reqs := reqs
    routerRegs := if isRouter u then n.routerRegs.filter (fun e => e.1 / 2 ^ 32 != x) else n.routerRegs
    maps := if isRouter u then n.maps.filter (fun e => e.1 / 256 != x) else n.maps })

/-- ROUTER_FAULT (R169, R336): what a code corrects is counted (kind 0, which the log does not have: assumption 91); data that no code
corrects is poisoned and delivered; any other kind resets the unit, and the Wake replays. Kinds 5 to 7 are no faults of a router. -/
def execRouterFault (unit : BitVec 16) (kind port : BitVec 8) (tag : Fin 1024) (s : State) : Res :=
  let s := s.begin
  let u := unit.toNat
  if !(isRouter u || u == unitId 20 18) || (isRouter u && !runs s (128 + u / 2048)) then .next s
  else if kind = 0 then .next (s.count NOC_LINK_CE_COUNT)
  else if kind = 2 then .next (raiseNoc NOC_CAUSE_LINK_POISON (logNoc u 2 port.toNat tag (poisonFlit u tag s)))
  else if kind = 1 ∨ kind = 3 ∨ kind = 4 then
    .next (beginRecovery (if isRouter u then 1 else 2) u
      (resetRouter u (raiseNoc NOC_CAUSE_ROUTER_FAULT (logNoc u kind.toNat port.toNat tag s))))
  else .next s

/-! Management and debug messages on VN3. -/

/-- A message between the hub and a sector's router or ports. -/
def sectorMsg (x : Nat) (toSector : Bool) (opc flits : Nat) (cmd : Option Nat) (word : Nat) : Msg :=
  let hub := (hubX, (meshPos x).2)
  if toSector then ⟨hub, meshPos x, opc, flits, 0, false, cmd, word⟩ else ⟨meshPos x, hub, opc, flits, 0, false, cmd, word⟩

/-- The router of a sector takes messages of the hub: no die on the way has lost its NoC clock. -/
def routerAnswers (s : State) (x : Nat) : Bool := !routeFrozen s 136 (some x)

/-- An idle value reaches a receive port during step 4 of a partial load (R41, R138, R156): addresses below 32 are the receive ports of a
sector, whose state bundle from the region takes it (assumption 62). -/
def loadIdle (x port : Nat) (v : BitVec 64) (s : State) : State :=
  { s with clocks := { s.clocks with bundles := s.clocks.bundles.map (fun e =>
    if e.2.dst == x && e.2.rxPort == port && !e.2.stream && regionBusy s e.2.src then (e.1, { e.2 with idle := cutTo e.2.width v }) else e) } }

/-- What MGT_WR loads: an idle value; from address 256 on an entry of the target map's copy at the sector's injection port; any other
setting of the router. -/
def loadRouter (x addr : Nat) (data : BitVec 64) (s : State) : State :=
  if addr < 32 then loadIdle x addr data s
  else if 256 ≤ addr ∧ addr < 512 then s.onNoc (fun n => { n with maps := smSet 0 n.maps (x * 256 + (addr - 256)) (data.toNat + 1) })
  else s.onNoc (fun n => { n with routerRegs := smSet 0 n.routerRegs (x * 2 ^ 32 + addr) (data.toNat + 1) })

/-- A management request at its hub port (R156): recorded, with what its MGT_RSP brings, 0 for a write, the value read plus one. -/
def mgtWaits (x opc addr v : Nat) (rsp : Option NocRsp) (s : State) : State :=
  let r := withHubTag s { port := 128 + (meshPos x).2, tag := 0, req := .config, opc := opc, addr := addr, len := 7, dst := some x, accepted := true
                          rsp := rsp, unit := true }
  s.onNoc (fun n => { n with reqs := n.reqs ++ [{ r with tag := r.hubTag }], mgtDue := n.mgtDue ++ [(x, v)] })

/-- A management request is sent where its hub port has a tag free (R163); the boundary of a frozen mesh answers it (R170). -/
def mgtSend (x opc addr : Nat) (f : State → Nat × State) (s : State) : State :=
  if tagsFull s (128 + (meshPos x).2) then s.emit .held
  else if !routerAnswers s x then mgtWaits x opc addr 0 (some .errBus) s
  else
    let (v, s) := f (seeMessage (sectorMsg x true opc (if opc = 0x18 then 2 else 1) (some addr) (commandWord addr 7 0)) s)
    mgtWaits x opc addr v none s

/-- MGT_WR (R156). -/
def execMgtWr (sec : Sec) (addr : BitVec 32) (data : BitVec 64) (s : State) : Res :=
  .next (mgtSend sec 0x18 addr.toNat (fun s => (0, loadRouter sec addr.toNat data s)) s.begin)

/-- What MGT_RD reads: an idle value, an entry of the target map's copy, a setting that was loaded, or a status that is not given: a
free value. -/
def mgtValue (x addr : Nat) (s : State) : Nat × State :=
  match s.clocks.bundles.find? (fun e => e.2.dst == x && e.2.rxPort == addr) with
  | some e => (e.2.idle.toNat, s)
  | none =>
    if 256 ≤ addr ∧ addr < 512 then
      let (lo, hi) := mapWords s (.sector (Fin.ofNat 128 x)) (addr - 256)
      (lo + 2 ^ 32 * hi, s)
    else match smGet 0 s.noc.routerRegs (x * 2 ^ 32 + addr) with
      | 0 => let (v, s) := s.free; (v.toNat, s)
      | v => (v - 1, s)

/-- MGT_RD (R156). -/
def execMgtRd (sec : Sec) (addr : BitVec 32) (s : State) : Res :=
  .next (mgtSend sec 0x19 addr.toNat (fun s => let (v, s) := mgtValue sec addr.toNat s; (v + 1, s)) s.begin)

/-- The record of a sector's oldest management request. -/
def mgtReq (s : State) (x : Nat) : Option NocReq :=
  s.noc.reqs.find? (fun r => r.unit && r.dst == some x && (r.opc == 0x18 || r.opc == 0x19))

/-- MGT_RSP (R156): the oldest management request of a sector is answered; with ERR_BUS where the network has given it up. -/
def execMgtRsp (sec : Sec) (s : State) : Res :=
  let s := s.begin
  match s.noc.mgtDue.find? (·.1 == sec.val), mgtReq s sec with
  | some e, some r =>
    if r.lost && r.rsp.isNone then .next s
    else
      let s := s.onNoc (fun n => { n with mgtDue := n.mgtDue.erase e, reqs := n.reqs.erase r })
      if r.rsp.isSome then .next (s.emit .busError)
      else
        let s := seeMessage (sectorMsg sec false 0x1A 1 none (e.2 - 1)) s
        .next (s.emit (if e.2 = 0 then .done else .value (e.2 - 1)))
  | _, _ => .next s

/-- The debug access of a set that is on its way to a fabric target with a kind: read 0, consume read 1, write 2. -/
def debugAccess (s : State) (set kind addr size : Nat) : Option (DbgAccess × Nat) :=
  match s.dbg.sets.find? (·.1 == set) with
  | none => none
  | some (_, x) =>
    match requestDst s .debug addr with
    | none => none
    | some t => if x.kind = kind ∧ x.addr = addr ∧ x.size = size ∧ x.answer = none then some (x, t) else none

/-- The record of the debug access of a set on the mesh. -/
def debugReq (s : State) (set : Nat) : Option NocReq :=
  s.noc.reqs.find? (fun r => r.unit && r.req == .debug && r.tag == set && 0x1B ≤ r.opc)

/-- A debug access on the mesh reaches its target, with the debug flag where it is a read without side effects (R378); the hub port
records it (R163, R164). -/
def debugMessage (set kind addr size opc data : Nat) (s : State) : State :=
  match debugAccess s set kind addr size with
  | none => s
  | some (_, t) =>
    if !routerAnswers s t || !sectorUp s t || (debugReq s set).isSome then s
    else if tagsFull s (128 + (meshPos t).2) then s.emit .held
    else
      let flits := if opc = 0x1D then 1 + halves addr size else 1
      let be := if opc = 0x1D then (2 ^ size - 1) * 2 ^ (addr % 64) else 0
      let s := seeMessage (sectorMsg t true opc flits (some addr) (commandWord addr (size - 1) be)) s
      recordReq { port := 128 + (meshPos t).2, tag := set, req := .debug, opc := opc, addr := addr, len := size - 1, dst := some t, accepted := true
                  rsp := none, unit := true } (s.emit (.message opc t addr data))

/-- DBG_RD (R378). -/
def execDbgRd (set : Fin 2) (addr : BitVec 52) (size : Fin 4) (s : State) : Res :=
  .next (debugMessage set 0 addr.toNat (2 ^ size.val) 0x1B 0 s.begin)

/-- DBG_RDC (R378). -/
def execDbgRdc (set : Fin 2) (addr : BitVec 52) (size : Fin 4) (s : State) : Res :=
  .next (debugMessage set 1 addr.toNat (2 ^ size.val) 0x1C 0 s.begin)

/-- DBG_WR (R156). -/
def execDbgWr (set : Fin 2) (addr : BitVec 52) (size : Fin 4) (data : BitVec 64) (s : State) : Res :=
  .next (debugMessage set 2 addr.toNat (2 ^ size.val) 0x1D (data.toNat % 2 ^ (8 * 2 ^ size.val)) s.begin)

/-- DBG_RSP (R156): a fabric target's answer to the access of a set, which has reached it. Data of a read stands at its place in the half
of the block. One for an access that the network has given up is discarded. -/
def execDbgRsp (set : Fin 2) (data : BitVec 64) (err : Bool) (s : State) : Res :=
  let s := s.begin
  match debugReq s set with
  | none => .next s
  | some r =>
    if r.rsp.isSome || r.lost then .next s
    else
      let s := seeMessage (sectorMsg (r.dst.getD 0) false 0x1E 1 none (data.toNat * 2 ^ (8 * (r.addr % 32)))) s
      let s := s.onNoc (fun n => { n with reqs := n.reqs.erase r })
      .next (s.onDebug (fun d => { d with sets := d.sets.map (fun e =>
        if e.1 == set.val then (e.1, { e.2 with answer := some (data.toNat, err) }) else e) }))

end Sys2Proof.Machine
end

