-- ==== Sys2Proof/Machine/Coherency.lean ====
section
/-! DEFINITION. The coherency agent (spec/13, R313 to R315): coherent requests of caching sectors, the snoop filter, snoops of
the host and their answers. A host line is a location divided by 64. -/

namespace Sys2Proof.Machine

/-- The snoop filter's entry for a line. -/
def sfEntry (s : State) (line : Nat) : Option SfEntry := (s.host.sf.find? (·.1 == line)).map (·.2)

/-- An entry replaced, as the most recently granted one; none removes it. -/
def setSf (line : Nat) (e : Option SfEntry) (s : State) : State :=
  s.onHost (fun h => { h with sf := h.sf.filter (·.1 != line) ++ (e.map (fun x => (line, x))).toList })

/-- An entry changed where it stands. -/
def editSf (line : Nat) (f : SfEntry → SfEntry) (s : State) : State :=
  s.onHost (fun h => { h with sf := (h.sf.map (fun e => if e.1 == line then (line, f e.2) else e)).filter (fun e => !e.2.present.isEmpty) })

/-- A sector holds a line no more. -/
def dropCopy (line x : Nat) (s : State) : State :=
  editSf line (fun e => ⟨e.present.erase x, if e.owner == some x then none else e.owner⟩) s

/-- A copy granted to a sector. -/
def grantCopy (line x : Nat) (excl : Bool) (s : State) : State :=
  let e := (sfEntry s line).getD ⟨[], none⟩
  let present := if e.present.contains x then e.present else e.present ++ [x]
  setSf line (some ⟨present, if excl then some x else if e.owner == some x then none else e.owner⟩) s

/-- CXL.cache is enabled on port A, whose link is up. -/
def cacheOn (s : State) : Bool := s.on (HP_STATUS_CACHE 0) && (s.get (HP_STATUS_UP 0)).testBit 0

/-- The agent takes a coherent request (R313, R314): of a declared caching sector, for the window of port A. -/
def agentTakes (s : State) (x addr : Nat) : Bool :=
  cacheOn s && s.config.cachers.contains x && match locate addr with
    | .window 0 _ => true
    | _ => false

/-- The host address of a line. -/
def hostLine (s : State) (line : Nat) : Nat := s.get (HP_WIN_BASE 0) * 2 ^ 40 + line * 64 % 2 ^ 40

/-- A coherent request's record. -/
def coherentReq (sec tag : Nat) (addr opc : Nat) (rsp : Option NocRsp) : NocReq :=
  { port := sec, tag := tag, req := .sector (Fin.ofNat 128 sec), opc := opc, addr := addr / 64 * 64, len := 63, dst := none, accepted := true
    rsp := rsp }

/-- A D2H request goes to the host (R313). -/
def sendD2h (r : NocReq) (data : Nat) (s : State) : Option State :=
  sendOutbound 0 (hostLine s (lineOf r.addr)) r data (2 ^ 64 - 1) false s

/-- Modified data of a line goes back to the host by DirtyEvict, on behalf of the sector that held it; nobody waits for the
completion. -/
def writeBackLine (line x : Nat) (data : Nat × Bool) (s : State) : Option State :=
  sendD2h { coherentReq x 16384 (line * 64) 6 none with psn := data.2 } data.1 s

/-- The ways of a line's set that entries and reads in flight take. -/
def waysUsed (s : State) (line : Nat) : Nat :=
  let same (l : Nat) : Bool := l % 32768 == line % 32768
  (s.host.sf.filter (fun e => same e.1)).length
    + (s.noc.reqs.filter (fun r => (r.opc == 3 || r.opc == 4) && r.rsp.isNone && same (lineOf r.addr) && (sfEntry s (lineOf r.addr)).isNone)).length

/-- The least recently granted way of a full set is evicted with BINV (R314). -/
def evictWay (line : Nat) (s : State) : State :=
  match s.host.sf.find? (fun e => e.1 % 32768 == line % 32768 && !s.host.snoops.any (fun x => x.line == e.1 && x.who == .evict)) with
  | none => s
  | some e =>
    if s.host.snoops.any (fun x => x.who == .evict && x.line % 32768 == line % 32768) then s
    else s.onHost (fun h => { h with snoops := h.snoops ++ [⟨e.1, 0x17, e.2.present, none, .evict, 0⟩] })

/-- A coherent request that reaches the agent, where none of its rules turns it away (R313). -/
def coherentIssue (sec tag addr opc : Nat) (f : NocReq → State → State) (s : State) : State :=
  let r := coherentReq sec tag addr opc none
  if !issues s (.sector (Fin.ofNat 128 sec)) || tagBusy s (.sector (Fin.ofNat 128 sec)) sec tag then s
  else if routeFrozen s sec none || !agentTakes s sec addr then recordReq { r with rsp := some .errBus } s
  else if !hasRight s r.req addr (opcWrites opc) then recordReq { r with rsp := some (if opc ≤ 4 then .data 0 false else .ack) } s
  else f r s

/-- A D2H request is sent and recorded, or waits for a tag. -/
def coherentSend (r : NocReq) (data : Nat) (s : State) : State :=
  match sendD2h r data s with
  | some t => recordReq r (seeRequest r 0 t)
  | none => s.emit .held

/-- RD_SH or RD_OWN at the agent (R314): a way is made free; a sector that holds the line Exclusive is snooped first. -/
def coherentRead (r : NocReq) (x : Nat) (s : State) : State :=
  let line := lineOf r.addr
  match sfEntry s line with
  | none => if 16 ≤ waysUsed s line then (evictWay line s).emit .held else coherentSend r 0 s
  | some e =>
    match e.owner with
    | some o =>
      if o = x then coherentSend r 0 s
      else
        let own := r.opc == 4
        let s := recordReq r (seeRequest r 0 s)
        s.onHost (fun h => { h with snoops := h.snoops ++ [⟨line, if own then 0x14 else 0x15, [o], none, .sector x r.tag own, 0⟩] })
    | none => coherentSend r 0 s

/-- RD_SH (R313, R314). -/
def execRdSh (sec : Sec) (tag : Fin 1024) (addr : BitVec 52) (s : State) : Res :=
  .next (coherentIssue sec tag addr.toNat 3 (fun r s => coherentRead r sec s) s.begin)

/-- RD_OWN (R313, R314). -/
def execRdOwn (sec : Sec) (tag : Fin 1024) (addr : BitVec 52) (s : State) : Res :=
  .next (coherentIssue sec tag addr.toNat 4 (fun r s => coherentRead r sec s) s.begin)

/-- CLEAN_EVICT (R313). -/
def execCleanEvict (sec : Sec) (tag : Fin 1024) (addr : BitVec 52) (s : State) : Res :=
  .next (coherentIssue sec tag addr.toNat 5 (fun r s => coherentSend r 0 s) s.begin)

/-- The number under which a line that a sector lost is kept (R315). -/
def lostKey (line x : Nat) : Nat := line * 128 + x

/-- DIRTY_EVICT (R313, R315): of a line that the sector was removed from, the data is discarded. -/
def execDirtyEvict (sec : Sec) (tag : Fin 1024) (addr : BitVec 52) (data : LineData) (s : State) : Res :=
  .next (coherentIssue sec tag addr.toNat 6 (fun r s =>
    let k := lostKey (lineOf r.addr) sec
    if s.host.dropped.contains k then
      recordReq { r with rsp := some .ack } ((seeRequest r 0 s).onHost (fun h => { h with dropped := h.dropped.erase k }))
    else coherentSend { r with psn := data.psn } data.bits.toNat s) s.begin)

/-- Coherent data of a request that the host has completed reaches the sector, with the state it was granted (R313). -/
def coherentData (sec tag : Nat) (opcs : List Nat) (excl : Bool) (s : State) : State :=
  match findReq s (.sector (Fin.ofNat 128 sec)) tag opcs with
  | none => s
  | some r =>
    match answerFor r none s with
    | (some (.data v psn), s) => deliverAs excl r (.data v psn) (grantCopy (lineOf r.addr) sec excl s)
    | (some x, s) => s.onNoc (fun n => { n with reqs := n.reqs.map (fun q => if q == r then { q with rsp := some x } else q) })
    | (none, s) => s

/-- CDATA_S (R313): it answers RD_SH. The data is the host's, which the journal holds, with its poison. -/
def execCdataS (sec : Sec) (tag : Fin 1024) (_data : LineData) (s : State) : Res := .next (coherentData sec tag [3] false s.begin)

/-- CDATA_E (R313): it answers RD_OWN, and RD_SH where the host granted an exclusive copy. -/
def execCdataE (sec : Sec) (tag : Fin 1024) (_data : LineData) (s : State) : Res := .next (coherentData sec tag [3, 4] true s.begin)

/-- EVICT_ACK (R313): the line has left the sector. -/
def execEvictAck (sec : Sec) (tag : Fin 1024) (s : State) : Res :=
  let s := s.begin
  match findReq s (.sector sec) tag [5, 6] with
  | none => .next s
  | some r =>
    match answerFor r none s with
    | (some .errBus, s) => .next (s.onNoc (fun n => { n with reqs := n.reqs.map (fun q => if q == r then { q with rsp := some .errBus } else q) }))
    | (some _, s) => .next (deliver r .ack (dropCopy (lineOf r.addr) sec s))
    | (none, s) => .next s

/-! Snoops (R314). -/

/-- An H2D snoop: to each present sector, or answered at once as invalid. -/
def hostSnoop (line kind : Nat) (s : State) : State :=
  if !cacheOn s then s
  else match sfEntry s line with
    | none => s.emit (.snpAnswer line none)
    | some e => s.onHost (fun h => { h with snoops := h.snoops ++ [⟨line, kind, e.present, none, .host, 0⟩] })

/-- SNPINV. -/
def execSnpinv (line : BitVec 46) (s : State) : Res := .next (hostSnoop line.toNat 0x14 s.begin)

/-- SNPDATA. -/
def execSnpdata (line : BitVec 46) (s : State) : Res := .next (hostSnoop line.toNat 0x15 s.begin)

/-- SNPCUR. -/
def execSnpcur (line : BitVec 46) (s : State) : Res := .next (hostSnoop line.toNat 0x16 s.begin)

/-- A snoop message of a kind reaches a sector that has still to answer it. -/
def snoopMessage (sec line kind : Nat) (s : State) : State :=
  if s.host.snoops.any (fun x => x.line == line && x.kind == kind && x.waiting.contains sec) && routerAnswers s sec && sectorUp s sec then
    (seeMessage (sectorMsg sec true kind 1 (some (line * 64)) (commandWord (line * 64) 63 0)) s).emit (.message kind sec line 0)
  else s

/-- SNP_INV. -/
def execSnpInv (sec : Sec) (line : BitVec 46) (s : State) : Res := .next (snoopMessage sec line.toNat 0x14 s.begin)

/-- SNP_DATA. -/
def execSnpData (sec : Sec) (line : BitVec 46) (s : State) : Res := .next (snoopMessage sec line.toNat 0x15 s.begin)

/-- SNP_CUR. -/
def execSnpCur (sec : Sec) (line : BitVec 46) (s : State) : Res := .next (snoopMessage sec line.toNat 0x16 s.begin)

/-- BINV. -/
def execBinv (sec : Sec) (line : BitVec 46) (s : State) : Res := .next (snoopMessage sec line.toNat 0x17 s.begin)

/-- The copy that a snoop leaves with a sector that has answered it (R156, R314). -/
def snooped (line kind x : Nat) (s : State) : State :=
  match kind with
  | 0x15 => editSf line (fun e => { e with owner := if e.owner == some x then none else e.owner }) s
  | 0x16 => s
  | _ => dropCopy line x s

/-- What follows once every sector has answered a snoop: the host is answered; or modified data goes back, and the request or
the eviction that waited goes on. None where the port has no tag for it. `x`: the sector that answered last. -/
def snoopOver (n : Snoop) (x : Nat) (s : State) : Option State :=
  match n.who with
  | .host => some (s.emit (.snpAnswer n.line n.data))
  | .evict => (match n.data with
      | some d => writeBackLine n.line x d s
      | none => some s).map (setSf n.line none)
  | .sector y tag own =>
    let back := match n.data with
      | some d => writeBackLine n.line x d s
      | none => some s
    back.bind (fun s =>
      match findReq s (.sector (Fin.ofNat 128 y)) tag [if own then 4 else 3] with
      | some r => sendD2h r 0 s
      | none => some s)

/-- Snoops that every sector has answered and whose end waited for a tag go on (R157, R314). -/
def settleSnoops (s : State) : State :=
  (s.host.snoops.filter (·.waiting.isEmpty)).foldl (fun s n =>
    ((snoopOver n n.last s).map (fun s => s.onHost (fun h => { h with snoops := h.snoops.erase n }))).getD s) s

/-- A sector has answered a snoop, or has failed to. The hub takes every answer (R157): where the end of the snoop has to wait for a tag,
the snoop stands, answered. -/
def answerSnoop (n : Snoop) (x : Nat) (data : Option (Nat × Bool)) (s : State) : State :=
  let m := { n with waiting := n.waiting.erase x, data := n.data.or data, last := x }
  settleSnoops ((snooped n.line n.kind x s).onHost (fun h => { h with snoops := h.snoops.replace n m }))

/-- The answer of a sector to the oldest snoop of a line that waits for it. -/
def sectorAnswers (sec line opc : Nat) (data : Option (Nat × Bool)) (s : State) : State :=
  match s.host.snoops.find? (fun n => n.line == line && n.waiting.contains sec) with
  | none => s
  | some n =>
    let flits := if data.isSome then 3 else 1
    let m := sectorMsg sec false opc flits none ((data.map (·.1)).getD line)
    answerSnoop n sec data (seeMessage { m with psn := data.any (·.2) } s)

/-- SNP_RSP (R314). -/
def execSnpRsp (sec : Sec) (line : BitVec 46) (s : State) : Res := .next (sectorAnswers sec line.toNat 0x0D none s.begin)

/-- SNP_RSP_DATA (R314). -/
def execSnpRspData (sec : Sec) (line : BitVec 46) (data : LineData) (s : State) : Res :=
  .next (sectorAnswers sec line.toNat 0x0E (some (data.bits.toNat, data.psn)) s.begin)

/-- SNP_TIMEOUT (R315): the host is answered as if the line were invalid there; the sector leaves the entry, and what it writes
back later is discarded. -/
def execSnpTimeout (sec : Sec) (line : BitVec 46) (s : State) : Res :=
  let s := s.begin
  let l := line.toNat
  match s.host.snoops.find? (fun n => n.line == l && n.waiting.contains sec.val) with
  | none => .next s
  | some n =>
    let s := answerSnoop n sec none (dropCopy l sec s)
    .next (raiseHp (HP_CAUSE_SNP_TO 0) (s.onHost (fun h => { h with dropped := h.dropped ++ [lostKey l sec] })))

end Sys2Proof.Machine
end

