-- ==== Sys2Proof/Machine/DebugPort.lean ====
section
/-! DEFINITION. Accesses of the debug domain (spec/16): the DBG_ block over the Coxswain port, and the two access sets (R370,
R374, R377, R378, R391). -/

namespace Sys2Proof.Machine

/-- A location that the debug policy keeps from writes while MEM is 0: ENG_DBG_PC and ENG_DBG_INSTR of a hub engine (R391). -/
def policyRefuses (s : State) (off : Nat) (write : Bool) : Bool :=
  write && !s.on SEC_DBG_POLICY_MEM && 0x8000 ≤ off && off < 0xC000 && (off % 0x1000 == 0x808 || off % 0x1000 == 0x814)

/-- DBG_REG_UPDATE (R374, R391): status 1 while the debug clock is lost, 2 where the policy refuses, else 0. The low two bits of
the offset are ignored. -/
def execDbgRegUpdate (write : Bool) (off : BitVec 16) (data : Word) (s : State) : Res :=
  let s := s.begin
  let o := off.toNat / 4 * 4
  let a := 0x0300000B0000 + o
  let ends (status : Nat) (s : State) : State := s.onDebug (fun d => { d with regStat := status })
  if s.dbg.ir ≠ 0x10 then .next s
  else if !runs s 184 then .next (ends 1 s)
  else if policyRefuses s o write then .next (ends 2 s)
  else if !tableRight s .debug a write then
    .next (ends 0 (if write then s else s.onDebug (fun d => { d with regData := 0 })))
  else if write then .next (ends 0 (writeSpecial .debug a data.toNat s))
  else
    let (v, s) := readSpecial .debug a false s
    .next (ends 0 (s.onDebug (fun d => { d with regData := BitVec.ofNat 32 v })))

/-- A write of an access set's control word with GO set. -/
def startAccess (req : Requester) (set : Fin 2) (inc : Bool) (size : Fin 4) (kind : Nat) (s : State) : Res :=
  .next (guardedWrite s.begin req (0x0300000B0110 + set.val * 0x20) 4
    (writeAccess set (1 + kind * 2 + size.val * 2 ^ 4 + inc.toNat * 2 ^ 8)))

/-- DBG_ACCESS_READ (R377, R378). -/
def execDbgAccessRead (req : Requester) (set : Fin 2) (inc : Bool) (size : Fin 4) (s : State) : Res :=
  startAccess req set inc size 0 s

/-- DBG_ACCESS_CONSUME_READ (R377, R378). -/
def execDbgAccessConsumeRead (req : Requester) (set : Fin 2) (inc : Bool) (size : Fin 4) (s : State) : Res :=
  startAccess req set inc size 1 s

/-- DBG_ACCESS_WRITE (R377). -/
def execDbgAccessWrite (req : Requester) (set : Fin 2) (inc : Bool) (size : Fin 4) (s : State) : Res :=
  startAccess req set inc size 2 s

/-- An access of set `a` as its target sees it. -/
def accessAsk (a : Nat) (x : DbgAccess) : Ask :=
  { req := .debug, tag := a, addr := x.addr, len := x.size, opc := if x.kind = 2 then 1 else 0, data := x.data % 2 ^ (8 * x.size)
    be := 2 ^ x.size - 1, quiet := x.kind == 0 }

/-- The same access as a request of the network. -/
def accessReq (a : Ask) : NocReq := { reqOf a 136 none none with accepted := false }

/-- RESULT and data of an answer. -/
def accessResult : NocRsp → Nat × Nat
  | .data v psn => (if psn then 3 else 0, v)
  | .ack => (0, 0)
  | .errDecode => (1, 0)
  | .errBus => (2, 0)

/-- The unit of a location takes debug accesses during an integrity halt: the blocks of R53, and the DBG_ block (R370). -/
def haltTakes (addr : Nat) (write : Bool) : Bool :=
  match locate addr with
  | .hub off => haltReachable off write || off / 0x10000 == 0xB
  | _ => false

/-- A unit whose clock is lost is unavailable (R370). -/
def unitFrozen (s : State) (addr : Nat) : Bool :=
  match locate addr with
  | .hub _ | .chan _ _ => unitStop s addr == some .busError
  | _ => false

/-- The end of an access that has reached a fabric target: the answer that DBG_RSP brought, or ERR_BUS where the network gave it up; none
while its target has it. -/
def messageEnd (set : Nat) (x : DbgAccess) (s : State) : Option (Nat × Nat) × State :=
  match x.answer, debugReq s set with
  | some (v, err), _ => (some (if err then 2 else 0, v), s)
  | none, some r => if r.rsp.isSome then (some (2, 0), s.onNoc (fun n => { n with reqs := n.reqs.erase r })) else (none, s)
  | none, none => (none, s)

/-- How the access of a set ends: RESULT and data, or none while it goes on. -/
def accessEnd (a : Ask) (x : DbgAccess) (status : PortStatus) (data : Nat) (s : State) : Option (Nat × Nat) × State :=
  if a.addr % a.len ≠ 0 then (some (6, 0), s)
  else if !s.on SEC_DBG_POLICY_MEM then (some (0, 0), s)
  else if s.power.moored then (some (4, 0), s)
  else if s.clocks.halted && !haltTakes a.addr (a.opc != 0) then (some (5, 0), s)
  else if unitFrozen s a.addr then (some (4, 0), s)
  else if x.answer.isSome || (debugReq s a.tag).isSome then messageEnd a.tag x s
  else if status != .ok then (some (accessResult (rspOf a.opc 0 status)), s)
  else match serve a s with
    | (.done r, s) => (some (accessResult r), s)
    | (.wait, s) => (none, s)
    | (.outside, s) =>
      match locate a.addr with
      | .window _ _ =>
        match finishWindow (accessReq a) a.data a.be s with
        | (.done r, s) => (some (accessResult r), s)
        | (.wait, s) => (none, s)
      | _ => (some (0, data), s)

/-- It is the other set's turn: both are busy, and this one was served last (R377). -/
def otherTurn (s : State) (i : Nat) : Bool := s.dbg.sets.any (·.1 != i) && s.dbg.lastSet == some i

/-- DBG_ACCESS_DONE (R377, R378, R391): an access that was not attempted leaves ADDR. -/
def execDbgAccessDone (set : Fin 2) (status : PortStatus) (data : BitVec 64) (s : State) : Res :=
  let s := s.begin
  let i := set.val
  match s.dbg.sets.find? (·.1 == i) with
  | none => .next s
  | some (_, x) =>
    if otherTurn s i then .next (s.emit .held)
    else match accessEnd (accessAsk i x) x status data.toNat s with
    | (none, s) => .next (s.emit .held)
    | (some (result, v), s) =>
      let s := (s.onDebug (fun d => { d with sets := d.sets.filter (·.1 != i), lastSet := some i })).puts [(DBG_ACC_BUSY i, 0), (DBG_ACC_RESULT i, result)]
      let s := if x.kind = 2 then s else s.put64 (DBG_ACC_DATA_LO i) (DBG_ACC_DATA_HI i) (v % 2 ^ (8 * x.size))
      .next (if s.on (DBG_ACC_INC i) && result != 6 then
          s.put64 (DBG_ACC_ADDR_LO i) (DBG_ACC_ADDR_HI i) (s.get64 (DBG_ACC_ADDR_LO i) (DBG_ACC_ADDR_HI i) + x.size)
        else s)

end Sys2Proof.Machine
end

