-- ==== Sys2Proof/Machine/HostPorts.lean ====
section
/-! DEFINITION. Requests of the hosts (spec/13, R304 to R312, R318; spec/14, R333 to R339): their journal entries, the forwarding
of a request to its destination, the delivery of its completion; configuration requests; completions of requests to the host;
back-invalidation answers; links. -/

namespace Sys2Proof.Machine

/-- Sub-link `k` of a port carries traffic. -/
def subUp (s : State) (port k : Nat) : Bool :=
  runs s 180 && !s.clocks.perst.contains port && (s.get (HP_STATUS_UP port)).testBit k

/-- A full image's start-up has completed (R127). -/
def started (s : State) : Bool := s.config.started

/-- A function of sub-link 0 answers memory requests (R127, R307). -/
def functionHere (s : State) (port pf : Nat) : Bool :=
  pf == 0 || (pf == 1 && started s && s.on (HP_STATUS_CXL port)) || (pf == 2 && started s)

/-! Journal entries. -/

/-- The entry of a host request, before it is written (R335): `dest` is the unit of its destination. -/
def hostEntry (s : State) (port : Port) (pf : Fin 3) (tag opc addr len data be dest : Nat) (posted : Bool) : WakeEntry :=
  let side := opc == 0 && (match locate addr with
    | .chan _ off => pf.val == 0 && off == 0x60004
    | _ => false)
  { port := port, out := false, slot := 0, seq := s.get (WAKE_SEQ_IN port), side := side, replayed := false, state := 0, dest := dest
    req := { port := 136, tag := tag, req := .host port pf, opc := opc, addr := addr, len := len - 1, dst := none, accepted := false, rsp := none }
    posted := posted, data := data, be := be
    lines := if opc = 1 then max 1 ((len + 63) / 64) else 0, ts := s.clocks.ts }

/-- An entry is written, held where a recovery has its destination in scope (R333, R334, R342); none where the port holds 8,192
requests or its pool has no line free (R316, R335). -/
def enterEntry (e : WakeEntry) (s : State) : Option (WakeEntry × State) :=
  match firstFree ((portEntries s e.port false).map (·.slot)) 0 8192 with
  | none => none
  | some k =>
    if poolFree s e.port < e.lines then none
    else
      let held := s.wake.recs.any (fun r => inScope r.kind r.unit e)
      let e := { e with slot := k, state := if held then 1 else 0 }
      some (e, (s.put (WAKE_SEQ_IN e.port) (e.seq + 1)).onWake (fun w => { w with entries := w.entries ++ [e] }))

/-- Sequence numbers are compared modulo 2^32 (R334). -/
def seqAfter (a b : Nat) : Bool := (a + 2 ^ 32 - b % 2 ^ 32) % 2 ^ 32 < 2 ^ 31

/-- The key of an applied mark (R338). -/
def markKey (port dest : Nat) : Nat := port * 65536 + dest

/-- The destination has applied the request of an entry. -/
def marked (s : State) (e : WakeEntry) : Bool :=
  let m := smGet 0 s.wake.marks (markKey e.port e.dest)
  m != 0 && seqAfter (m - 1) e.seq

/-- The mark moves up to an entry. -/
def setMark (e : WakeEntry) (s : State) : State :=
  if marked s e then s else s.onWake (fun w => { w with marks := smSet 0 w.marks (markKey e.port e.dest) (e.seq + 1) })

/-- An entry replaced. -/
def setEntry (e f : WakeEntry) (s : State) : State :=
  s.onWake (fun w => { w with entries := w.entries.map (fun x => if x == e then f else x) })

/-- Older inbound entries of the entry's port. -/
def older (s : State) (e : WakeEntry) : List WakeEntry := (portEntries s e.port false).takeWhile (· != e)

/-- The Wake forwards an entry now: it is not held; no older one for its destination waits (R334); a request other than a posted
write waits for the older posted writes of its function (R27); at most 16 reads with a side effect are out (R338). -/
def mayForward (s : State) (e : WakeEntry) : Bool :=
  e.state == 0
    && !(older s e).any (fun f => f.dest == e.dest && !f.req.accepted)
    && (e.posted || !(older s e).any (fun f => f.posted && f.req.req == e.req.req))
    && (!e.side || (s.wake.sides.filter (fun x => x.1 == e.port)).length < 16)

/-- A posted write of the port function has not completed: its other requests are held at the hub (R27). -/
def postedBefore (s : State) (port : Port) (pf : Nat) : Bool :=
  s.wake.entries.any (fun e => !e.out && e.posted && match e.req.req with
    | .host p f => p == port && f.val == pf
    | _ => false)

/-! PF2's controller registers and doorbells (R306, R318, assumption 50). -/

/-- A stored word of PF2's controller registers. -/
def nvReg (s : State) (port w : Nat) : Nat := smGet 0 s.host.nvRegs (port * 1024 + w)

/-- A word of PF2's BAR0. What CAP holds is not given: free values. -/
def nvRead (port off : Nat) (s : State) : Nat × State :=
  if off < 8 then let (v, s) := s.free; (v.toNat, s)
  else if off = 8 then (0x20000, s)
  else if off = 0x1C then (nvReg s port 5 % 2, s)
  else if off < 0x40 then (nvReg s port (off / 4), s)
  else if 0x3000 ≤ off ∧ off < 0x3400 then (msixWord s (2 + port) ((off - 0x3000) / 4), s)
  else if 0x3800 ≤ off ∧ off < 0x3808 then
    (bitsOf 32 (fun i => s.host.msixPending.contains ((2 + port) * 64 + (off - 0x3800) / 4 * 32 + i)), s)
  else (0, s)

/-- A write of CC: EN newly set makes the admin queue with the sizes of AQA; EN cleared removes every queue. -/
def nvEnable (port v : Nat) (s : State) : State :=
  let was := nvReg s port 5 % 2
  let s := s.onHost (fun h => { h with nvRegs := smSet 0 h.nvRegs (port * 1024 + 5) v })
  let others (h : HostSide) : List (Nat × NvQueue) := h.queues.filter (fun e => e.1 / 64 != port)
  let aqa := nvReg s port 9
  if was = 0 ∧ v % 2 = 1 then
    s.onHost (fun h => { h with queues := smInsert h.queues (port * 64) { nvAdmin with size := slice aqa 0 12 + 1, cqSize := slice aqa 16 12 + 1 } })
  else if was = 1 ∧ v % 2 = 0 then
    s.onHost (fun h => { h with queues := smInsert (others h) (port * 64) nvAdmin, cmds := h.cmds.filter (fun c => c.port != port) })
  else s

/-- A word written into PF2's BAR0. -/
def nvWrite (port off v : Nat) (s : State) : State :=
  if off = 0x14 then nvEnable port v s
  else if 0x0C ≤ off ∧ off < 0x40 ∧ off ≠ 0x1C then s.onHost (fun h => { h with nvRegs := smSet 0 h.nvRegs (port * 1024 + off / 4) v })
  else if 0x1000 ≤ off ∧ off < 0x1200 then
    let q := (off - 0x1000) / 8
    if off % 8 < 4 then ringSq port q (v % 65536) s else ringCq port q (v % 65536) s
  else if 0x3000 ≤ off ∧ off < 0x3400 then writeMsix (2 + port) ((off - 0x3000) / 4) v s
  else s

/-- Words of PF2's BAR0 read from an offset on, the first lowest. -/
def nvReads (port off : Nat) : Nat → State → Nat × State
  | 0, s => (0, s)
  | k + 1, s =>
    let (v, s) := nvRead port off s
    let (w, s) := nvReads port (off + 4) k s
    (v + 2 ^ 32 * w, s)

/-- Words written into PF2's BAR0 from an offset on. -/
def nvWrites (port off v : Nat) : Nat → State → State
  | 0, s => s
  | k + 1, s => nvWrites port (off + 4) (v / 2 ^ 32) k (nvWrite port off (v % 2 ^ 32) s)

/-- An access to PF2's BAR0 of 16 KiB. -/
def serveStorage (port : Nat) (r : NocReq) (data : Nat) (s : State) : NocRsp × State :=
  let len := r.len + 1
  if 0x4000 ≤ r.addr then (.errDecode, s)
  else if r.addr % 4 ≠ 0 ∨ len % 4 ≠ 0 then (silentRsp r.opc, s)
  else if r.opc = 1 then (.ack, nvWrites port r.addr data (len / 4) s)
  else let (v, s) := nvReads port r.addr (len / 4) s; (.data v false, s)

/-- An access to PF1's BAR0 of 64 KiB, the CXL component registers, whose contents are not given: reads are free values
(assumption 63). -/
def serveComponent (r : NocReq) (s : State) : NocRsp × State :=
  if 0x10000 ≤ r.addr then (.errDecode, s)
  else if r.opc = 1 then (.ack, s)
  else let (v, s) := freeDigest s; (.data (v % 2 ^ (8 * (r.len + 1))) false, s)

/-! Host requests to channel DRAM (R308 to R312). -/

/-- The device location of address `h` of HDM range `r` (R308, R309); none where it lies outside the range. -/
def hdmMap (s : State) (r h : Nat) : Option Nat :=
  let g := 256 * 2 ^ min 4 (s.get (HP_HDM_GRAN r))
  let w := 2 ^ min 4 (s.get (HP_HDM_WAYS r))
  let ch := (s.get (HP_HDM_FIRST_CH r) + h / g % w) % 16
  let off := s.get (HP_HDM_BASE r) * 2 ^ 28 + h / (g * w) * g + h % g
  if s.on (HP_HDM_EN r) && h < s.get (HP_HDM_SIZE r) * 2 ^ 28 * w && off < s.get (DRAM_CAP_USABLE ch) * 2 ^ 20
  then some (ch * 2 ^ 36 + off) else none

/-- What PF1 answers: poisoned data for a read that fails, and a normal completion for every write (R288, R309). -/
def memRsp (opc : Nat) (x : NocRsp) (s : State) : NocRsp × State :=
  match x with
  | .data v psn => (.data v psn, s)
  | .ack => (.ack, s)
  | _ => if opc = 1 then (.ack, s) else let (v, s) := freeDigest s; (.data v true, s)

/-- The copy that an entry's request is granted: 0 none, 1 Shared, 2 Exclusive. -/
def grantOf (e : WakeEntry) : Nat := e.be / 2 ^ 64

/-- The directory after a request (R310): a grant makes its line the most recently granted; a write without one gives the
line up. -/
def setDir (e : WakeEntry) (s : State) : State :=
  let line := lineOf e.req.addr
  let rest := s.host.dir.filter (·.1 != line)
  let room := (rest.filter (fun d => d.1 % 262144 == line % 262144)).length < 16
  if grantOf e ≠ 0 then
    if room then s.onHost (fun h => { h with dir := rest ++ [(line, ⟨e.port, grantOf e == 2⟩)] }) else s
  else if e.req.opc = 1 then s.onHost (fun h => { h with dir := h.dir.filter (fun d => !(d.1 == line && d.2.port == e.port)) })
  else s

/-- The snoop that a host request has to wait for (R310): port, line, whether BISnpInv. One in flight to its line; one of the
other port's copy; one that makes a way free. -/
def hostSnoopNeed (s : State) (e : WakeEntry) : Option (Nat × Nat × Bool) :=
  let line := lineOf e.req.addr
  let g := grantOf e
  match s.host.biSnoops.find? (·.line == line) with
  | some b => some (b.port, line, b.inv)
  | none =>
    match s.host.dir.find? (·.1 == line) with
    | some (_, d) =>
      if d.port ≠ e.port ∧ (e.req.opc = 1 ∨ g ≠ 0 ∨ d.excl = true) then some (d.port, line, e.req.opc == 1 || g != 0) else none
    | none =>
      let set := s.host.dir.filter (fun d => d.1 % 262144 == line % 262144)
      if g ≠ 0 ∧ 16 ≤ set.length then set.head?.map (fun d => (d.2.port, d.1, true)) else none

/-- A CXL.mem request as its channel sees it. -/
def hostAsk (e : WakeEntry) : Ask :=
  { req := e.req.req, tag := e.req.tag, addr := e.req.addr, len := 64, opc := e.req.opc, data := e.data, be := e.be % 2 ^ 64
    posted := e.req.opc == 1 }

/-- A CXL.mem request that no snoop holds up at its channel: none where the hub switch (R23) or its channel in Easy (R354) makes it
wait. -/
def takeHostMem (e : WakeEntry) (s : State) : Option NocRsp × State :=
  let p := 4 + e.req.addr / 2 ^ 36
  let ends (x : NocRsp) (s : State) : Option NocRsp × State := let (x, s) := memRsp e.req.opc x s; (some x, s)
  if s.clocks.halted then ends .errBus s
  else match switchStop s (hostAsk e) with
    | some .wait => (none, s)
    | some _ => ends .errBus s
    | none =>
      if easyHolds s p then (none, wakePart p s)
      else
        let (x, s) := serveMemory (hostAsk e) s
        let (x, s) := ends x s
        (x, setDir e s)

/-- A CXL.mem request at its channel: none where it waits. -/
def serveHostMem (e : WakeEntry) (s : State) : Option NocRsp × State :=
  let r := e.req
  match takeFailed (r.req, r.tag) s with
  | some s => takeHostMem e s
  | none => match hostSnoopNeed s e with
    | some (p, line, inv) => (none, biWait p line inv (r.req, r.tag) s)
    | none => takeHostMem e s

/-! Forwarding and completion. -/

/-- The effect of an entry's request at its destination; none where it waits. In an integrity halt the functions but PF0 answer
with Completer Abort (R53), which the completion of a bus error is. -/
def serveHost (e : WakeEntry) (s : State) : Option NocRsp × State :=
  match e.req.req with
  | .host p pf =>
    if s.clocks.halted && (pf.val == 2 || (pf.val == 1 && e.dest == unitId 20 18)) then (some .errBus, s)
    else match pf.val with
    | 1 => if e.dest = unitId 20 18 then (let (x, s) := serveComponent e.req s; (some x, s)) else serveHostMem e s
    | 2 => let (x, s) := serveStorage p e.req e.data s; (some x, s)
    | _ =>
      match serve { req := e.req.req, tag := e.req.tag, addr := e.req.addr, len := e.req.len + 1, opc := e.req.opc, data := e.data
                    be := e.be, posted := e.posted } s with
      | (.done x, s) => (some x, s)
      | (_, s) => (none, s)
  | _ => (none, s)

/-- The value of a read with a side effect is kept with its sequence number (R338). -/
def keepSide (e : WakeEntry) (x : NocRsp) (s : State) : State :=
  match e.side, x with
  | true, .data v _ => s.onWake (fun w => { w with sides := (e.port, e.seq, v) :: w.sides })
  | _, _ => s

/-- An entry is forwarded where it may be, and takes effect (R334, R338). -/
def forward (e : WakeEntry) (s : State) : State :=
  if e.req.accepted || !mayForward s e then s
  else match serveHost e s with
    | (none, s) => s
    | (some x, s) => keepSide e x (setMark e (setEntry e { e with req := { e.req with accepted := true, rsp := some x } } s))

/-- The inbound entry of a port's function with a tag, of some message types. -/
def inboundOf (s : State) (port : Port) (pf : Fin 3) (tag : Nat) (opcs : List Nat) : Option WakeEntry :=
  s.wake.entries.find? (fun e => !e.out && e.req.req == .host port pf && e.req.tag == tag && opcs.contains e.req.opc)

/-- What the host sees of a completion; a posted write has none. -/
def hostOut (e : WakeEntry) (x : NocRsp) (s : State) : State :=
  if e.posted then s
  else match x with
    | .data v psn => s.emit (.hostData e.port e.req.tag v psn)
    | .ack => s.emit (.hostDone e.port e.req.tag)
    | .errDecode => s.emit (.hostUr e.port e.req.tag)
    | .errBus => s.emit (.hostAbort e.port e.req.tag)

/-- A completion is handed to the host, and the entry retires (R333). -/
def completeEntry (e : WakeEntry) (x : NocRsp) (s : State) : State :=
  let s := (hostOut e x s).onWake (fun w => { w with sides := w.sides.filter (fun y => !(y.1 == e.port && y.2.1 == e.seq)) })
  retireEntry e s

/-- A response to a host's request reaches the Wake: a request that had to wait is forwarded first. -/
def hostRespond (port : Port) (pf : Fin 3) (tag : Nat) (opcs : List Nat) (kind : NocRsp) (s : State) : State :=
  match inboundOf s port pf tag opcs with
  | none => s
  | some e =>
    let s := forward e s
    match (inboundOf s port pf tag opcs).bind (fun e => e.req.rsp.map (fun x => (e, x))) with
    | none => s.emit .held
    | some (e, x) => if sameKind x kind then completeEntry e x s else s

/-- A host request enters the journal and is forwarded. -/
def hostRequest (e : WakeEntry) (s : State) : State :=
  match enterEntry e s with
  | none => s.emit .held
  | some (e, s) => forward e s

/-- The code of a granted copy. -/
def grantCode : Option Bool → Nat
  | none => 0
  | some false => 1
  | some true => 2

/-- A CXL.mem request of a range. One outside it never leaves the port (R309). -/
def hostMem (port : Port) (r tag h opc data be : Nat) (grant : Option Bool) (s : State) : State :=
  if r / 4 ≠ port.val || !subUp s port (r % 4) || !started s || !s.on (HP_STATUS_CXL port) || !s.on (HP_STATUS_MEM port) then s
  else match hdmMap s r (h / 64 * 64) with
    | none =>
      let s := raiseHp (HP_CAUSE_HDM_RANGE port) s
      if opc = 1 then s.emit (.hostDone port tag) else let (v, s) := freeDigest s; s.emit (.hostData port tag v true)
    | some a =>
      hostRequest (hostEntry s port 1 tag opc a 64 data (be + grantCode grant * 2 ^ 64) (unitId (4 + a / 2 ^ 36) 68) false) s

/-! The IDE of a port (R296). Which stream protects a request, and whether its integrity check passes, is not given by the
command: while a stream of the port has its key, a free value decides (assumption 70). -/

/-- Some stream of the port has its key. -/
def ideKeyed (s : State) (port : Port) : Bool := (List.range 5).any (fun k => s.security.keyed.contains (port.val * 8 + k))

/-- The stream that protects the request: by the free value one of those with a key, or none. -/
def ideStream (s : State) (port : Port) (v : Word) : Option Nat :=
  let key := port.val * 8 + v.toNat % 8
  if v.toNat % 8 < 5 && s.security.keyed.contains key then some key else none

/-- A request meets its port's IDE: it goes on with `f`, or is dropped, where its stream is in the Insecure state or a failed
check puts it there. -/
def ideTake (port : Port) (f : State → State) (s : State) : State :=
  if !ideKeyed s port then f s
  else
    let (v, s) := s.free
    match ideStream s port v with
    | none => f s
    | some key =>
      if s.security.insecure.contains key then s
      else if v.getLsbD 3 then raiseSec 2 SEC_CAUSE_IDE_FAIL (s.onSec (fun x => { x with insecure := setAdd x.insecure key }))
      else f s

/-- HOST_MEM_READ (R308 to R310). -/
def execHostMemRead (port : Port) (r : Fin 8) (tag : Fin 16384) (h : Nat) (grant : Option Bool) (s : State) : Res :=
  .next (ideTake port (hostMem port r tag h 0 0 0 grant) s.begin)

/-- HOST_MEM_WRITE (R308 to R310). -/
def execHostMemWrite (port : Port) (r : Fin 8) (tag : Fin 16384) (h : Nat) (be : BitVec 64) (data : BitVec 512) (grant : Option Bool)
    (s : State) : Res :=
  .next (ideTake port (hostMem port r tag h 1 data.toNat be.toNat grant) s.begin)

/-- Where a memory request of a function goes: its device address (or its offset in the BAR), and the unit of its destination. -/
def ioTarget (port : Port) (pf : Fin 3) (off : Nat) : Nat × Nat :=
  match pf.val with
  | 0 => (if off < 0x4000000 then 0x030000000000 + off else nowhere, unitId 20 18)
  | 1 => (off, unitId 20 18)
  | _ => (off, unitId 20 (16 + port.val))

/-- A memory request of a function's BAR0 (R306, R307): an absent function answers Unsupported Request. -/
def hostIo (port : Port) (pf : Fin 3) (tag off size opc data : Nat) (s : State) : State :=
  if !subUp s port 0 || size = 0 then s
  else if !functionHere s port pf then
    (if opc = 1 then s else if postedBefore s port pf then s.emit .held else s.emit (.hostUr port tag))
  else
    let (a, dest) := ioTarget port pf off
    hostRequest (hostEntry s port pf tag opc a size data (2 ^ size - 1) dest (opc == 1)) s

/-- HOST_IO_READ (R27, R333). -/
def execHostIoRead (port : Port) (pf : Fin 3) (tag : Fin 1024) (off : Nat) (size : Nat) (s : State) : Res :=
  .next (ideTake port (hostIo port pf tag off size 0 0) s.begin)

/-- HOST_IO_WRITE (R27, R333). -/
def execHostIoWrite (port : Port) (pf : Fin 3) (tag : Fin 1024) (off : Nat) (size : Nat) (data : BitVec 512)
    (s : State) : Res :=
  .next (ideTake port (hostIo port pf tag off size 1 (data.toNat % 2 ^ (8 * size))) s.begin)

/-- HOST_ATOMICOP (R339): every function answers Unsupported Request, after its earlier posted writes (R27); in an integrity
halt Completer Abort (R53). -/
def execHostAtomicop (port : Port) (pf : Fin 3) (tag : Fin 1024) (s : State) : Res :=
  let s := s.begin
  .next (if !subUp s port 0 then s
    else if postedBefore s port pf then s.emit .held
    else if s.clocks.halted then s.emit (.hostAbort port tag)
    else s.emit (.hostUr port tag))

/-! Configuration requests (R127, R306, assumption 64). -/

/-- Device and class codes of a function, and the size of its BAR0. -/
def functionId : Nat → Nat × Nat × Nat
  | 0 => (0x0D09, 0x120000, 2 ^ 26)
  | 1 => (0x0D19, 0x050210, 2 ^ 16)
  | _ => (0x0D29, 0x010802, 2 ^ 14)

/-- A word of a configuration space as the host last wrote it. -/
def cfgWord (s : State) (port fn w : Nat) : Option Nat := (s.host.cfgSpace.find? (·.1 == (port * 8 + fn) * 1024 + w)).map (·.2)

/-- A word of a configuration space: the identity; BAR0, 64-bit; the command word and the control of MSI-X; any other word is
what the host wrote, or is not given and is a free value. -/
def cfgRead (port fn w : Nat) (s : State) : Nat × State :=
  let (dev, cls, size) := functionId fn
  match w with
  | 0 => (dev * 2 ^ 16 + 0x1D5A, s)
  | 2 => let (v, s) := s.free; (cls * 256 + v.toNat % 256, s)
  | 1 => ((cfgWord s port fn 1).getD 0, s)
  | 4 => ((cfgWord s port fn 4).getD 0 / size * size + 4, s)
  | 5 => ((cfgWord s port fn 5).getD 0, s)
  | 0x2C => ((cfgWord s port fn 0x2C).getD 0 / 2 ^ 30 * 2 ^ 30 + 63 * 2 ^ 16 + 0x11, s)
  | _ => match cfgWord s port fn w with
    | some v => (v, s)
    | none => let (v, s) := s.free; (v.toNat, s)

/-- A set's member kept or removed. -/
def keepIf (b : Bool) (k : Nat) (l : List Nat) : List Nat := if b then setDel l k else setAdd l k

/-- A write to a configuration space, with Bus Master Enable and MSI-X Enable of PF0 and PF2. -/
def cfgWrite (port fn w v : Nat) (s : State) : State :=
  let k := if fn = 0 then port else 2 + port
  s.onHost (fun h => { h with
    cfgSpace := smInsert h.cfgSpace ((port * 8 + fn) * 1024 + w) v
    busMasterOff := if w = 1 ∧ fn ≠ 1 then keepIf (v.testBit 2) k h.busMasterOff else h.busMasterOff
    msixOff := if w = 0x2C ∧ fn ≠ 1 then keepIf (v.testBit 31) k h.msixOff else h.msixOff })

/-- A function's state for configuration requests (R127, R307): 0 it answers; 1 Configuration Request Retry Status; 2 absent. -/
def functionState (s : State) (port fn : Nat) : Nat :=
  if 3 ≤ fn then 2
  else if fn = 0 then 0
  else if !started s then (if s.host.absent.contains port then 2 else 1)
  else if fn = 1 ∧ s.on (HP_STATUS_CXL port) = false then 2
  else 0

/-- HOST_CONFIG_REQUEST (R127): after the function's earlier posted writes (R27); in an integrity halt Completer Abort (R53). -/
def execHostConfigRequest (port : Port) (fn : Fin 8) (tag : Fin 1024) (word : Fin 1024) (write : Option Word) (s : State) : Res :=
  let s := s.begin
  if s.clocks.perst.contains port.val then .next s
  else if !runs s 180 then .next (s.emit (.hostCrs port tag))
  else if postedBefore s port fn then .next (s.emit .held)
  else if s.clocks.halted then .next (s.emit (.hostAbort port tag))
  else match functionState s port fn with
    | 1 => .next (s.emit (.hostCrs port tag))
    | 2 => .next (s.emit (.hostUr port tag))
    | _ => match write with
      | some v => .next ((cfgWrite port fn word v.toNat s).emit (.hostDone port tag))
      | none => let (v, s) := cfgRead port fn word s; .next (s.emit (.hostData port tag v false))

/-! Completions of the host, back-invalidation answers. -/

/-- HOST_COMPLETION (R316, R317, R339): the entry's data is stored; Unsupported Request and Completer Abort become a bus error;
a completion for a free tag is discarded, as is one whose requester has given up. -/
def execHostCompletion (port : Port) (tag : Fin 16384) (ok : Bool) (data : BitVec 512) (s : State) : Res :=
  let s := s.begin
  match s.wake.entries.find? (fun e => e.out && e.port == port.val && e.slot == tag.val && e.state == 2) with
  | none => .next s
  | some e =>
    if e.req.accepted && e.req.tag == 16384 then .next (settleSnoops (retireEntry e s))
    else
      .next (setEntry e { e with state := 3, lines := 1, data := data.toNat % 2 ^ (8 * (e.req.len + 1))
                                 req := { e.req with rsp := if ok then none else some .errBus } } s)

/-- BIRSP (R310): written-back data is stored, the directory follows, and what waited may go on. -/
def execBirsp (port : Port) (line : BitVec 46) (data : Option (BitVec 512)) (s : State) : Res :=
  let s := s.begin
  match s.host.biSnoops.find? (fun b => b.port == port.val && b.line == line.toNat) with
  | none => .next s
  | some b =>
    let l := line.toNat
    let s := match data with
      | none => s
      | some d => (patWrite ⟨l / 2 ^ 30, l % 2 ^ 30, 0, (groupOf (.host port 1)).getD 0, false, true⟩ d.toNat s).2
    .next (settleSlots (s.onHost (fun h => { h with
      biSnoops := h.biSnoops.erase b
      dir := if b.inv then h.dir.filter (fun e => !(e.1 == l && e.2.port == port.val))
        else h.dir.map (fun e => if e.1 == l && e.2.port == port.val then (l, { e.2 with excl := false }) else e) })))

/-- BI_TIMEOUT (R312): the waiting internal accesses fail, host requests go on; the directory entry is kept. -/
def execBiTimeout (port : Port) (line : BitVec 46) (s : State) : Res :=
  let s := s.begin
  match s.host.biSnoops.find? (fun b => b.port == port.val && b.line == line.toNat) with
  | none => .next s
  | some b =>
    .next (settleSlots (raiseHp (HP_CAUSE_BI_TO port) (s.onHost (fun h => { h with
      biSnoops := h.biSnoops.erase b, failed := h.failed ++ b.waiting }))))

/-! Links (R303, R305, R306). -/

/-- The sub-links of a port (R305). -/
def subLinks (s : State) (port : Nat) : Nat :=
  match s.get (HP_STATUS_BIF port) with
  | 1 => 2
  | 2 => 4
  | _ => 1

/-- LINK_RETRAIN (R303, R406): the negotiated settings are those of sub-link 0; CXL.cache exists on port A only. A port held for
lane test, or in reset, stays down. -/
def execLinkRetrain (port : Port) (sub : Fin 4) (up : Bool) (rate : Fin 7) (width : Fin 17) (flit cxl cache mem : Bool) (s : State) : Res :=
  let s := s.begin
  let p := port.val
  if subLinks s p ≤ sub.val || s.clocks.perst.contains p || s.bit LANE_HTEST_PORT p || !runs s 180 then .next s
  else
    let was := (s.get (HP_STATUS_UP p)).testBit sub
    let s := s.putBit (HP_STATUS_UP p) sub up
    let s := if sub.val ≠ 0 then s
      else s.puts [(HP_STATUS_RATE p, if up then rate.val else 0), (HP_STATUS_WIDTH p, if up then width.val else 0),
        (HP_STATUS_FLIT p, (up && flit).toNat), (HP_STATUS_CXL p, (up && cxl).toNat),
        (HP_STATUS_CACHE p, (up && cxl && cache && p == 0).toNat), (HP_STATUS_MEM p, (up && cxl && mem).toNat)]
    let s := raiseHp (HP_CAUSE_RETRAIN p) s
    .next (if was && !up then raiseHp (HP_CAUSE_LINK_DOWN p) s else s)

end Sys2Proof.Machine
end

