-- ==== Sys2Proof/Machine/Deliver.lean ====
section
/-! DEFINITION. Response messages (spec/07, R156): to a requester inside the XD9, or through the Wake to a host. -/

namespace Sys2Proof.Machine

/-- RD_DATA (R156, R161). -/
def execRdData (req : Requester) (tag : Fin 16384) (data : BitVec 512) (psn : Bool) (s : State) : Res :=
  let s := s.begin
  match req with
  | .host p pf => .next (hostRespond p pf tag [0] (.data 0 false) s)
  | _ => .next (respondData req tag data.toNat psn s)

/-- WR_ACK (R25, R156). -/
def execWrAck (req : Requester) (tag : Fin 16384) (s : State) : Res :=
  let s := s.begin
  match req with
  | .host p pf => .next (hostRespond p pf tag [1] .ack s)
  | _ => .next (respondAck req tag s)

/-- ERR_DECODE (R20, R156). -/
def execErrDecode (req : Requester) (tag : Fin 16384) (s : State) : Res :=
  let s := s.begin
  match req with
  | .host p pf => .next (hostRespond p pf tag [0, 1] .errDecode s)
  | _ => .next (respondError req tag .errDecode s)

/-- ERR_BUS (R156). -/
def execErrBus (req : Requester) (tag : Fin 16384) (s : State) : Res :=
  let s := s.begin
  match req with
  | .host p pf => .next (hostRespond p pf tag [0, 1] .errBus s)
  | _ => .next (respondError req tag .errBus s)

end Sys2Proof.Machine
end

