-- ==== Sys2Proof/Machine/Readback.lean ====
section
/-! DEFINITION. The frames of a readback at their destination (spec/06, R149, R150). -/

namespace Sys2Proof.Machine

/-- Bits of the frame's stored bytes upset. -/
def upsetFrame (x frame : Nat) (u : List (Fin 512 × BitVec 13)) (s : State) : State :=
  u.foldl (fun s e =>
    let k := frameKey x frame e.1
    { s with onchip := { s.onchip with frames := smSet 0 s.onchip.frames k (smGet 0 s.onchip.frames k ^^^ e.2) } }) s

/-- Sixty-four bytes of a frame as a write of the configuration controller. -/
def frameAsk (addr : Nat) (data : List Byte) : Ask :=
  { req := .config, tag := 0, addr := addr, len := 64, opc := 1, data := fromBytes data, be := 2 ^ 64 - 1, posted := true }

/-- A write to logic of the fabric or to the host behind a window leaves; how its target answers is the command's operand. None where it
has to wait. -/
def leaveFrame (a : Ask) (s : State) : Option NocRsp × State :=
  match locate a.addr with
  | .window p _ => match issueWindow (reqOf a 136 none none) a.data a.be s with
    | (some x, s) => (some x, s)
    | (none, t) => if (t.wake.entries.length == s.wake.entries.length) && windowOpen s p && hasRight s a.req a.addr true then (none, s)
      else (some .ack, t)
  | _ => answerUnit a .ack s

/-- Sixty-four bytes of a frame at their destination: none where they have to wait. -/
def storeBlock (addr : Nat) (data : List Byte) (s : State) : Option NocRsp × State :=
  match serve (frameAsk addr data) s with
  | (.done x, s) => (some x, s)
  | (.wait, s) => (none, s)
  | (.outside, s) => leaveFrame (frameAsk addr data) s

/-- A frame stored from an address on, in blocks of 64 bytes: none where it has to wait. -/
def storeFrame (addr : Nat) (data : List Byte) : Nat → State → Option NocRsp × State
  | 0, s => (some .ack, s)
  | k + 1, s =>
    match storeBlock addr (data.take 64) s with
    | (some .ack, s) => storeFrame (addr + 64) (data.drop 64) k s
    | r => r

/-- A frame at its destination: plain memory, registers, logic of the fabric, or host memory. -/
def putFrame (addr : Nat) (data : List Byte) (s : State) : Option NocRsp × State :=
  if (plainOf addr).isSome then
    match plainTurn (transferAsk .config 0 addr data.length 1) s with
    | (.wait, s) => (none, s)
    | (.fail, s) => (some .errBus, s)
    | (.go, s) =>
      let (_, st, s) := rangeWrite (plainAccess .config) addr data s
      (some (rspOf 1 0 st), s)
  else storeFrame addr data 8 s

/-- READBACK_FRAME_DONE (R149, R150). A frame that has to wait at its destination is read anew when it is presented again. -/
def execReadbackFrameDone (busErr : Bool) (upsets : List (Fin 512 × BitVec 13)) (s : State) : Res :=
  let s := s.begin
  match s.config.rb with
  | none => .next s
  | some r =>
    if r.waits then .next s
    else
      let (data, t) := readbackBytes r (if r.shadow then s else upsetFrame r.sec r.frame upsets s)
      match (if busErr then (some .errBus, t) else putFrame r.dst data t) with
      | (none, _) => .next ((putFrame r.dst data s).2.emit .held)
      | (some .ack, s) =>
        if r.left ≤ 1 ∨ r.abort then .next (endReadback s)
        else .next (s.onConfig (fun c => { c with rb := some { r with frame := r.frame + 1, left := r.left - 1, dst := r.dst + 512 } }))
      | (some _, s) => .next (endReadback (s.flag CFG_RB_STATUS_BUS_ERR true))

end Sys2Proof.Machine
end

