-- ==== Sys2Proof/Machine/Registers.lean ====
section
/-! DEFINITION. Accesses to registers as commands (spec/00, R6 to R10; spec/13, R330). -/

namespace Sys2Proof.Machine

/-- REGISTER_WRITE (R6 to R10): by location, with the actions that the register's own rows give. -/
def execRegisterWrite (req : Requester) (addr : Nat) (size : Nat) (data : Word) (s : State) : Res :=
  .next (guardedWrite s.begin req addr size (writeSpecial req addr data.toNat))

/-- A read of a register with what the read does. -/
def readRow (req : Requester) (addr : Nat) (s : State) : State :=
  match regGate s req addr 4 false with
  | .stop o => s.emit o
  | .wait p => (wakePart p s).emit .held
  | .silent => s.emit (.value 0)
  | .reach =>
    let (v, s) := readSpecial req addr (req == .debug) s
    s.emit (.value v)

/-- RC_READ (R8). -/
def execRcRead (req : Requester) (addr : Nat) (s : State) : Res := .next (readRow req addr s.begin)

/-- LOW_WORD_READ (R6). -/
def execLowWordRead (req : Requester) (addr : Nat) (s : State) : Res := .next (readRow req addr s.begin)

/-- HUB_INT_MASK_WRITE (R330). -/
def execHubIntMaskWrite (req : Requester) (mask : Word) (s : State) : Res :=
  .next (guardedWrite s.begin req 0x030000000104 4 (writeIntMask mask.toNat))

end Sys2Proof.Machine
end

