-- ==== Sys2Proof/Machine/Smbus.lean ====
section
/-! DEFINITION. The commands of the SMBus target (spec/18, R420). -/

namespace Sys2Proof.Machine

/-- A hardware command: a read of one register, whether or not Bamid runs; in Moored it is not acknowledged (R420). -/
def smbusRead (addr : Nat) (s : State) : State :=
  if s.power.moored then s.emit .nack
  else
    let (v, s) := readLatched s .smbus addr
    s.emit (.value v)

/-- SMBUS_READ_HUB_ID. -/
def execSmbusReadHubId (s : State) : Res := .next (smbusRead 0x030000000000 s.begin)
/-- SMBUS_READ_HUB_REV. -/
def execSmbusReadHubRev (s : State) : Res := .next (smbusRead 0x030000000004 s.begin)
/-- SMBUS_READ_RST_CAUSE. -/
def execSmbusReadRstCause (s : State) : Res := .next (smbusRead 0x030000010000 s.begin)
/-- SMBUS_READ_RST_STATUS. -/
def execSmbusReadRstStatus (s : State) : Res := .next (smbusRead 0x030000010004 s.begin)
/-- SMBUS_READ_CFG_STATUS. -/
def execSmbusReadCfgStatus (s : State) : Res := .next (smbusRead (CFG_STATUS_BAMID_FAIL.key / 32) s.begin)
/-- SMBUS_READ_HUB_INT_SUMMARY. -/
def execSmbusReadHubIntSummary (s : State) : Res := .next (smbusRead 0x030000000100 s.begin)
/-- SMBUS_READ_PWR_THERM. -/
def execSmbusReadPwrTherm (s : State) : Res := .next (smbusRead 0x030000030018 s.begin)
/-- SMBUS_READ_PWR_TOTAL. -/
def execSmbusReadPwrTotal (s : State) : Res := .next (smbusRead 0x030000030020 s.begin)
/-- SMBUS_READ_HUB_PART_FAIL. -/
def execSmbusReadHubPartFail (s : State) : Res := .next (smbusRead 0x030000000008 s.begin)
/-- SMBUS_READ_RAS_CAUSE. -/
def execSmbusReadRasCause (s : State) : Res := .next (smbusRead (RAS_CAUSE_CLK_HUB.key / 32) s.begin)
/-- SMBUS_READ_SEC_CAUSE. -/
def execSmbusReadSecCause (s : State) : Res := .next (smbusRead (SEC_CAUSE_DATA_FAIL.key / 32) s.begin)
/-- SMBUS_READ_WAKE_STATUS. -/
def execSmbusReadWakeStatus (s : State) : Res := .next (smbusRead 0x030000070008 s.begin)
/-- SMBUS_READ_PWR_MODE. -/
def execSmbusReadPwrMode (s : State) : Res := .next (smbusRead 0x030000030010 s.begin)
/-- SMBUS_READ_CFG_IMG. -/
def execSmbusReadCfgImg (s : State) : Res := .next (smbusRead 0x030000040008 s.begin)
/-- SMBUS_READ_CLK_TS_LO. -/
def execSmbusReadClkTsLo (s : State) : Res := .next (smbusRead 0x030000020010 s.begin)

/-- SMBUS_READ_CLK_TS_HI: the value that the last command 0x0E latched, which stays latched; without one, the high word. -/
def execSmbusReadClkTsHi (s : State) : Res :=
  let s := s.begin
  if s.power.moored then .next (s.emit .nack)
  else
    let l := s.clocks.latch.find? (fun e => e.1 == .smbus && e.2.1 == 0x030000020014)
    .next (s.emit (.value ((l.map (·.2.2)).getD (readReg s 0x030000020014))))

/-- SMBUS_MESSAGE (R420): to Bamid, with line 21; not acknowledged while Bamid does not run. In Moored a write, with its
data, is a wake source. -/
def execSmbusMessage (cmd : BitVec 8) (data : List Byte) (s : State) : Res :=
  let s := s.begin
  if s.power.moored then .next ((if data.isEmpty then s else mooredSource 2 s).emit .nack)
  else if cmd.toNat < 16 ∨ !bamidRuns s then .next (s.emit .nack)
  else .next (setLines 21 hubEngines (s.emit (.smbusMessage cmd.toNat data)))

end Sys2Proof.Machine
end

