-- ==== Sys2Proof/Machine/WakeCmds.lean ====
section
/-! DEFINITION. Faults and recoveries of the replay journal (spec/14, R336 to R347). -/

namespace Sys2Proof.Machine

/-- HUB_SWITCH_FAULT (R336): KIND 0x3. -/
def execHubSwitchFault (s : State) : Res :=
  let s := s.begin
  .next (if runs s 180 then beginRecovery 3 (unitId 20 18) s else s)

/-- CHANNEL_BRIDGE_FAULT (R336): KIND 0x4, named by the channel's control unit. -/
def execChannelBridgeFault (n : Ch) (s : State) : Res :=
  let s := s.begin
  .next (if chanUp s n (132 + n.val) then beginRecovery 4 (unitId (4 + n.val) 70) s else s)

/-- The recovery of a unit that runs. -/
def recoveryOf (s : State) (unit : Nat) : Option Recovery := s.wake.recs.find? (·.unit == unit)

/-- A recovery replaced. -/
def setRecovery (r t : Recovery) (s : State) : State :=
  showRecovery (s.onWake (fun w => { w with recs := w.recs.map (fun q => if q == r then t else q) }))

/-- The faulted unit serves again: after a crew restart step 4 waits on the channel's DRAM and firmware (R342), after a double
fault of a hub engine on the engine's restart (R341). -/
def unitServes (s : State) (r : Recovery) : Bool :=
  match r.kind with
  | 7 => let n := r.unit / 2048 - 4
    s.get (DRAM_STATUS_STATE n) == 4 && s.get (CH_FW_STATE n) == 2
  | 6 => s.get (ENG_STATUS_STATE (1024 + r.unit % 2048)) != 4
  | _ => true

/-- An entry of a recovery may be sent again: after a crew restart the entries bound for the channel's DRAM once it is ready, the others
once firmware runs (R342); one in the scope of further recoveries once step 4 is reached in each of them (R344). -/
def mayReplay (s : State) (r : Recovery) (e : WakeEntry) : Bool :=
  (r.kind != 7 || (let n := r.unit / 2048 - 4
    if e.dest == unitId (4 + n) 68 then s.get (DRAM_STATUS_STATE n) == 4 else s.get (CH_FW_STATE n) == 2))
    && s.wake.recs.all (fun q => q == r || q.quiet || !inScope q.kind q.unit e)

/-- An inbound entry sent again (R338): a write that its destination has applied gets the completion it had earned; a read with
a side effect is answered from the store; any other read is executed again. Whether it was recognised by its mark is
answered too. -/
def replayEntry (e : WakeEntry) (s : State) : Bool × State :=
  let e' := { e with state := 0, replayed := true }
  let stored := (s.wake.sides.find? (fun x => x.1 == e.port && x.2.1 == e.seq)).map (·.2.2)
  if marked s e && e.req.opc != 0 then (true, setEntry e e' s)
  else match (if e.side then stored else none) with
    | some v => (true, setEntry e { e' with req := { e'.req with rsp := some (.data v false) } } s)
    | none =>
      match serveHost e' s with
      | (none, s) => (false, setEntry e { e' with req := { e'.req with accepted := false, rsp := none } } s)
      | (some x, s) => (false, setMark e (setEntry e { e' with req := { e'.req with accepted := true, rsp := some x } } s))

/-- The held inbound entries that had been forwarded, sent again in sequence order: how many, how many of them recognised. -/
def replayAll : List WakeEntry → State → Nat × Nat × State
  | [], s => (0, 0, s)
  | e :: l, s =>
    let (dup, s) := replayEntry e s
    let (n, d, s) := replayAll l s
    (n + 1, d + dup.toNat, s)

/-- The channel whose NVMe commands a recovery dispatches again, and the engine whose commands these are (R340). -/
def redoScope (r : Recovery) : Option (Nat × Option Nat) :=
  match r.kind with
  | 5 => some (r.unit / 2048 - 4, some ((r.unit / 2048 - 4) * 64 + r.unit % 2048))
  | 7 => some (r.unit / 2048 - 4, none)
  | _ => none

/-- NVMe commands of a recovery's scope are dispatched again (R340): how many. -/
def redoCommands (r : Recovery) (s : State) : Nat × State :=
  match redoScope r with
  | none => (0, s)
  | some (n, g) =>
    let mine (c : NvCmd) : Bool := c.chan == some n && (g.isNone || c.engine == g)
    let k := (s.host.cmds.filter mine).length
    (k, redispatch n (s.onHost (fun h => { h with cmds := h.cmds.map (fun c => if mine c then { c with redo := true } else c) })))

/-- Held entries of a recovery that may be sent again are, in sequence order: how many, how many of them recognised. -/
def replayHeld (r : Recovery) (s : State) : Nat × Nat × State :=
  replayAll (s.wake.entries.filter (fun e =>
    !e.out && e.state == 1 && e.req.accepted && inScope r.kind r.unit e && mayReplay s r e)) s

/-- Step 4 of a recovery (R342), as far as it may go: it is reached once the unit serves again. -/
def quietRecovery (r : Recovery) (s : State) : State :=
  let (n, d, s) := replayHeld r s
  let r' := { r with replayed := r.replayed + n, dups := r.dups + d }
  if !unitServes s r then (if r.kind = 7 then setRecovery r r' s else s)
  else
    let ready := (s.wake.entries.filter (fun e => e.out && e.state == 3 && inScope r.kind r.unit e)).length
    let (k, s) := redoCommands r s
    setRecovery r { r' with quiet := true, replayed := r'.replayed + k, redeliv := r.redeliv + ready } s

/-- WAKE_QUIET (R342): every destination in the scope has reported its ingress empty. -/
def execWakeQuiet (unit : BitVec 16) (s : State) : Res :=
  let s := s.begin
  match recoveryOf s unit.toNat with
  | none => .next s
  | some r => .next (if r.quiet then s else quietRecovery r s)

/-- WAKE_QUIET_TIMEOUT (R342): QUIET_TO after the unit's reset the replay goes ahead. A value below 20 acts as 20. -/
def execWakeQuietTimeout (unit : BitVec 16) (s : State) : Res :=
  let s := s.begin
  match recoveryOf s unit.toNat with
  | none => .next s
  | some r =>
    let late := max 20 (s.get WAKE_CTRL_QUIET_TO) * 1000 ≤ s.clocks.ts - r.start
    .next (if r.quiet || !late then s else quietRecovery r s)

/-- Entries that no running recovery holds any more are released, and forwarded in order (R342, step 5). -/
def releaseEntries (s : State) : State :=
  let free (e : WakeEntry) : Bool := !e.out && e.state == 1 && !s.wake.recs.any (fun r => inScope r.kind r.unit e)
  let s := s.onWake (fun w => { w with entries := w.entries.map (fun e => if free e then { e with state := 0 } else e) })
  s.wake.entries.foldl (fun s e => if e.out || e.req.accepted then s else forward e s) s

/-- WAKE_RECOVERY_DONE (R342, step 5). -/
def execWakeRecoveryDone (unit : BitVec 16) (s : State) : Res :=
  let s := s.begin
  match recoveryOf s unit.toNat with
  | none => .next s
  | some r =>
    if !r.quiet then .next s
    else
      let s := endRecovery r 1 s
      let s := s.onWake (fun w => { w with done := smSet 0 w.done r.unit (s.clocks.ts + 1) })
      .next (raiseWake WAKE_CAUSE_RECOVERED (releaseEntries (s.count WAKE_COUNT_RECOVERIES)))

/-- HOLD_LIM in nanoseconds: 0 acts as 50 ms. -/
def holdLimit (s : State) : Nat := (if s.get WAKE_CTRL_HOLD_LIM = 0 then 50 else s.get WAKE_CTRL_HOLD_LIM) * 1000000

/-- A new request held behind an entry that has completed with an error: no older request for its destination is held any more. -/
def heldBehind (s : State) (e f : WakeEntry) : Bool :=
  !f.out && f.port == e.port && f.dest == e.dest && f.state == 1 && !f.req.accepted
    && !(older s f).any (fun g => g.dest == f.dest && g.state == 1 && g.req.accepted)

/-- The new requests held behind an entry are released, in order (R343). -/
def releaseBehind (e : WakeEntry) (s : State) : State :=
  let free := s.wake.entries.filter (heldBehind s e)
  let s := s.onWake (fun w => { w with entries := w.entries.map (fun f => if free.contains f then { f with state := 0 } else f) })
  free.foldl (fun s f => forward { f with state := 0 } s) s

/-- WAKE_HOLD_LIMIT (R343): an entry held for HOLD_LIM, since its recovery began or since it came, completes with an error; new requests
held behind it are released. -/
def execWakeHoldLimit (port : Port) (seq : Word) (s : State) : Res :=
  let s := s.begin
  let e := s.wake.entries.find? (fun e => !e.out && e.port == port.val && e.seq == seq.toNat && e.state == 1)
  match e.bind (fun e => (s.wake.recs.find? (fun r => inScope r.kind r.unit e)).map (fun r => (e, r))) with
  | none => .next s
  | some (e, r) =>
    if s.clocks.ts < max r.start e.ts + holdLimit s then .next s
    else .next (releaseBehind e (raiseWake WAKE_CAUSE_HOLD_LIM (retireEntry e (errorCompletion e s))))

/-- WAKE_PEEK_SELECT (R347). -/
def execWakePeekSelect (req : Requester) (data : Word) (s : State) : Res :=
  .next (guardedWrite s.begin req 0x030000070100 4 (writePeek data.toNat))

end Sys2Proof.Machine
end

