-- ==== Sys2Proof/Machine/YezarBranch.lean ====
section
/-! DEFINITION. The commands of the Yezar branch format (R218, R219) (spec/09): engine `g` issues the instruction. -/

namespace Sys2Proof.Machine

/-- B. -/
def execYB (g : Eng) (c : Cond) (off : BitVec 22) (s : State) : Res :=
  .next (runYezar g (some (.b c off)) s.begin)

/-- BL. -/
def execYBl (g : Eng) (off : BitVec 26) (s : State) : Res :=
  .next (runYezar g (some (.bl off)) s.begin)

/-- JR. -/
def execYJr (g : Eng) (c : Cond) (rb : GReg) (s : State) : Res :=
  .next (runYezar g (some (.jr c rb)) s.begin)

/-- JLR. -/
def execYJlr (g : Eng) (c : Cond) (rb : GReg) (s : State) : Res :=
  .next (runYezar g (some (.jlr c rb)) s.begin)

/-- REPEAT. -/
def execYRepeat (g : Eng) (count : BitVec 12 ⊕ GReg) (s : State) : Res :=
  .next (runYezar g (some (.repeat count)) s.begin)

/-- LOOP. -/
def execYLoop (g : Eng) (e : BitVec 9) (count : BitVec 16 ⊕ GReg) (s : State) : Res :=
  .next (runYezar g (some (.loop e count)) s.begin)

end Sys2Proof.Machine
end

