-- ==== Sys2Proof/Machine/YezarControl.lean ====
section
/-! DEFINITION. The commands of the Yezar control format (R212 to R214) (spec/09): engine `g` issues the instruction. -/

namespace Sys2Proof.Machine

/-- ADD. -/
def execYAdd (g : Eng) (rd rs rt : UReg) (f : Bool) (s : State) : Res :=
  .next (runYezar g (some (.alu .add rd rs rt f)) s.begin)

/-- ADC. -/
def execYAdc (g : Eng) (rd rs rt : UReg) (f : Bool) (s : State) : Res :=
  .next (runYezar g (some (.alu .adc rd rs rt f)) s.begin)

/-- SUB. -/
def execYSub (g : Eng) (rd rs rt : UReg) (f : Bool) (s : State) : Res :=
  .next (runYezar g (some (.alu .sub rd rs rt f)) s.begin)

/-- SBC. -/
def execYSbc (g : Eng) (rd rs rt : UReg) (f : Bool) (s : State) : Res :=
  .next (runYezar g (some (.alu .sbc rd rs rt f)) s.begin)

/-- AND. -/
def execYAnd (g : Eng) (rd rs rt : UReg) (f : Bool) (s : State) : Res :=
  .next (runYezar g (some (.alu .and rd rs rt f)) s.begin)

/-- OR. -/
def execYOr (g : Eng) (rd rs rt : UReg) (f : Bool) (s : State) : Res :=
  .next (runYezar g (some (.alu .or rd rs rt f)) s.begin)

/-- XOR. -/
def execYXor (g : Eng) (rd rs rt : UReg) (f : Bool) (s : State) : Res :=
  .next (runYezar g (some (.alu .xor rd rs rt f)) s.begin)

/-- ANDN. -/
def execYAndn (g : Eng) (rd rs rt : UReg) (f : Bool) (s : State) : Res :=
  .next (runYezar g (some (.alu .andn rd rs rt f)) s.begin)

/-- SHL. -/
def execYShl (g : Eng) (rd rs rt : UReg) (f : Bool) (s : State) : Res :=
  .next (runYezar g (some (.alu .shl rd rs rt f)) s.begin)

/-- SHR. -/
def execYShr (g : Eng) (rd rs rt : UReg) (f : Bool) (s : State) : Res :=
  .next (runYezar g (some (.alu .shr rd rs rt f)) s.begin)

/-- SRA. -/
def execYSra (g : Eng) (rd rs rt : UReg) (f : Bool) (s : State) : Res :=
  .next (runYezar g (some (.alu .sra rd rs rt f)) s.begin)

/-- ROR. -/
def execYRor (g : Eng) (rd rs rt : UReg) (f : Bool) (s : State) : Res :=
  .next (runYezar g (some (.alu .ror rd rs rt f)) s.begin)

/-- MUL. -/
def execYMul (g : Eng) (rd rs rt : UReg) (f : Bool) (s : State) : Res :=
  .next (runYezar g (some (.alu .mul rd rs rt f)) s.begin)

/-- MULHS. -/
def execYMulhs (g : Eng) (rd rs rt : UReg) (f : Bool) (s : State) : Res :=
  .next (runYezar g (some (.alu .mulhs rd rs rt f)) s.begin)

/-- MULHU. -/
def execYMulhu (g : Eng) (rd rs rt : UReg) (f : Bool) (s : State) : Res :=
  .next (runYezar g (some (.alu .mulhu rd rs rt f)) s.begin)

/-- MIN. -/
def execYMin (g : Eng) (rd rs rt : UReg) (f : Bool) (s : State) : Res :=
  .next (runYezar g (some (.alu .min rd rs rt f)) s.begin)

/-- MAX. -/
def execYMax (g : Eng) (rd rs rt : UReg) (f : Bool) (s : State) : Res :=
  .next (runYezar g (some (.alu .max rd rs rt f)) s.begin)

/-- MINU. -/
def execYMinu (g : Eng) (rd rs rt : UReg) (f : Bool) (s : State) : Res :=
  .next (runYezar g (some (.alu .minu rd rs rt f)) s.begin)

/-- MAXU. -/
def execYMaxu (g : Eng) (rd rs rt : UReg) (f : Bool) (s : State) : Res :=
  .next (runYezar g (some (.alu .maxu rd rs rt f)) s.begin)

/-- CLZ. -/
def execYClz (g : Eng) (rd rs : UReg) (f : Bool) (s : State) : Res :=
  .next (runYezar g (some (.alu .clz rd rs 0 f)) s.begin)

/-- POPC. -/
def execYPopc (g : Eng) (rd rs : UReg) (f : Bool) (s : State) : Res :=
  .next (runYezar g (some (.alu .popc rd rs 0 f)) s.begin)

/-- SEXTB. -/
def execYSextb (g : Eng) (rd rs : UReg) (f : Bool) (s : State) : Res :=
  .next (runYezar g (some (.alu .sextb rd rs 0 f)) s.begin)

/-- SEXTH. -/
def execYSexth (g : Eng) (rd rs : UReg) (f : Bool) (s : State) : Res :=
  .next (runYezar g (some (.alu .sexth rd rs 0 f)) s.begin)

/-- MOV. -/
def execYMov (g : Eng) (rd rs : UReg) (f : Bool) (s : State) : Res :=
  .next (runYezar g (some (.alu .mov rd rs 0 f)) s.begin)

/-- CMP. -/
def execYCmp (g : Eng) (rs rt : UReg) (f : Bool) (s : State) : Res :=
  .next (runYezar g (some (.alu .cmp 0 rs rt f)) s.begin)

/-- TST. -/
def execYTst (g : Eng) (rs rt : UReg) (f : Bool) (s : State) : Res :=
  .next (runYezar g (some (.alu .tst 0 rs rt f)) s.begin)

/-- SHLI. -/
def execYShli (g : Eng) (rd rs : UReg) (sh : Fin 32) (f : Bool) (s : State) : Res :=
  .next (runYezar g (some (.shift .shl rd rs sh f)) s.begin)

/-- SHRI. -/
def execYShri (g : Eng) (rd rs : UReg) (sh : Fin 32) (f : Bool) (s : State) : Res :=
  .next (runYezar g (some (.shift .shr rd rs sh f)) s.begin)

/-- SRAI. -/
def execYSrai (g : Eng) (rd rs : UReg) (sh : Fin 32) (f : Bool) (s : State) : Res :=
  .next (runYezar g (some (.shift .sra rd rs sh f)) s.begin)

/-- RORI. -/
def execYRori (g : Eng) (rd rs : UReg) (sh : Fin 32) (f : Bool) (s : State) : Res :=
  .next (runYezar g (some (.shift .ror rd rs sh f)) s.begin)

/-- DIVINIT. -/
def execYDivinit (g : Eng) (rd rs rt : UReg) (f : Bool) (s : State) : Res :=
  .next (runYezar g (some (.divinit rd rs rt f)) s.begin)

/-- DIVS. -/
def execYDivs (g : Eng) (rd : UReg) (f : Bool) (s : State) : Res :=
  .next (runYezar g (some (.divs rd f)) s.begin)

/-- CSEL. -/
def execYCsel (g : Eng) (c : Cond) (rd rs rt : UReg) (s : State) : Res :=
  .next (runYezar g (some (.csel c rd rs rt)) s.begin)

end Sys2Proof.Machine
end

