-- ==== Sys2Proof/Machine/YezarDsp.lean ====
section
/-! DEFINITION. The commands of the Yezar DSP format (R220 to R222) (spec/09): engine `g` issues the instruction. -/

namespace Sys2Proof.Machine

/-- MPY. -/
def execYMpy (g : Eng) (a xi yi : Fin 4) (xu yu : Bool) (lm : BitVec 4) (s : State) : Res :=
  .next (runYezar g (some (.dsp .mpy a xi yi xu yu lm)) s.begin)

/-- MAC. -/
def execYMac (g : Eng) (a xi yi : Fin 4) (xu yu : Bool) (lm : BitVec 4) (s : State) : Res :=
  .next (runYezar g (some (.dsp .mac a xi yi xu yu lm)) s.begin)

/-- MSU. -/
def execYMsu (g : Eng) (a xi yi : Fin 4) (xu yu : Bool) (lm : BitVec 4) (s : State) : Res :=
  .next (runYezar g (some (.dsp .msu a xi yi xu yu lm)) s.begin)

/-- SQA. -/
def execYSqa (g : Eng) (a xi yi : Fin 4) (xu yu : Bool) (lm : BitVec 4) (s : State) : Res :=
  .next (runYezar g (some (.dsp .sqa a xi yi xu yu lm)) s.begin)

/-- ACCX. -/
def execYAccx (g : Eng) (a xi yi : Fin 4) (xu yu : Bool) (lm : BitVec 4) (s : State) : Res :=
  .next (runYezar g (some (.dsp .accx a xi yi xu yu lm)) s.begin)

/-- SUBX. -/
def execYSubx (g : Eng) (a xi yi : Fin 4) (xu yu : Bool) (lm : BitVec 4) (s : State) : Res :=
  .next (runYezar g (some (.dsp .subx a xi yi xu yu lm)) s.begin)

/-- GMPY. -/
def execYGmpy (g : Eng) (a xi yi : Fin 4) (xu yu : Bool) (lm : BitVec 4) (s : State) : Res :=
  .next (runYezar g (some (.dsp .gmpy a xi yi xu yu lm)) s.begin)

/-- GMAC. -/
def execYGmac (g : Eng) (a xi yi : Fin 4) (xu yu : Bool) (lm : BitVec 4) (s : State) : Res :=
  .next (runYezar g (some (.dsp .gmac a xi yi xu yu lm)) s.begin)

/-- EXT. -/
def execYExt (g : Eng) (rd : GReg) (a k : Fin 4) (sat : Bool) (s : State) : Res :=
  .next (runYezar g (some (.ext rd a k sat)) s.begin)

/-- EXSTX. -/
def execYExstx (g : Eng) (a : Fin 4) (sat : Bool) (pi : Fin 4) (u : Bool) (s : State) : Res :=
  .next (runYezar g (some (.exst false a sat pi u)) s.begin)

/-- EXSTY. -/
def execYExsty (g : Eng) (a : Fin 4) (sat : Bool) (pi : Fin 4) (u : Bool) (s : State) : Res :=
  .next (runYezar g (some (.exst true a sat pi u)) s.begin)

/-- GSTX. -/
def execYGstx (g : Eng) (a : Fin 4) (h : Bool) (pi : Fin 4) (u : Bool) (s : State) : Res :=
  .next (runYezar g (some (.gst false a h pi u)) s.begin)

/-- GSTY. -/
def execYGsty (g : Eng) (a : Fin 4) (h : Bool) (pi : Fin 4) (u : Bool) (s : State) : Res :=
  .next (runYezar g (some (.gst true a h pi u)) s.begin)

/-- MFA. -/
def execYMfa (g : Eng) (rd : GReg) (a k : Fin 4) (s : State) : Res :=
  .next (runYezar g (some (.mfa rd a k)) s.begin)

/-- MFAH. -/
def execYMfah (g : Eng) (rd : GReg) (a : Fin 4) (s : State) : Res :=
  .next (runYezar g (some (.mfah rd a)) s.begin)

/-- MTA. -/
def execYMta (g : Eng) (a k : Fin 4) (rs : GReg) (s : State) : Res :=
  .next (runYezar g (some (.mta a k rs)) s.begin)

/-- MTAH. -/
def execYMtah (g : Eng) (a : Fin 4) (rs : GReg) (s : State) : Res :=
  .next (runYezar g (some (.mtah a rs)) s.begin)

/-- CLRA. -/
def execYClra (g : Eng) (a : Fin 4) (s : State) : Res :=
  .next (runYezar g (some (.clra a)) s.begin)

/-- SHA. -/
def execYSha (g : Eng) (a : Fin 4) (n : BitVec 6) (s : State) : Res :=
  .next (runYezar g (some (.sha a n)) s.begin)

end Sys2Proof.Machine
end

