-- ==== Sys2Proof/Machine/YezarImmediate.lean ====
section
/-! DEFINITION. The commands of the Yezar immediate format (R215) (spec/09): engine `g` issues the instruction. -/

namespace Sys2Proof.Machine

/-- MOVI. -/
def execYMovi (g : Eng) (rd : UReg) (imm : BitVec 16) (s : State) : Res :=
  .next (runYezar g (some (.movi rd imm)) s.begin)

/-- MOVHI. -/
def execYMovhi (g : Eng) (rd : UReg) (imm : BitVec 16) (s : State) : Res :=
  .next (runYezar g (some (.movhi rd imm)) s.begin)

/-- ADDI. -/
def execYAddi (g : Eng) (rd rs : UReg) (imm : BitVec 14) (s : State) : Res :=
  .next (runYezar g (some (.imm .addi rd rs imm)) s.begin)

/-- ANDI. -/
def execYAndi (g : Eng) (rd rs : UReg) (imm : BitVec 14) (s : State) : Res :=
  .next (runYezar g (some (.imm .andi rd rs imm)) s.begin)

/-- ORI. -/
def execYOri (g : Eng) (rd rs : UReg) (imm : BitVec 14) (s : State) : Res :=
  .next (runYezar g (some (.imm .ori rd rs imm)) s.begin)

/-- XORI. -/
def execYXori (g : Eng) (rd rs : UReg) (imm : BitVec 14) (s : State) : Res :=
  .next (runYezar g (some (.imm .xori rd rs imm)) s.begin)

/-- CMPI. -/
def execYCmpi (g : Eng) (rs : UReg) (imm : BitVec 14) (s : State) : Res :=
  .next (runYezar g (some (.imm .cmpi 0 rs imm)) s.begin)

/-- CMPUI. -/
def execYCmpui (g : Eng) (rs : UReg) (imm : BitVec 14) (s : State) : Res :=
  .next (runYezar g (some (.imm .cmpui 0 rs imm)) s.begin)

/-- TSTI. -/
def execYTsti (g : Eng) (rs : UReg) (imm : BitVec 14) (s : State) : Res :=
  .next (runYezar g (some (.imm .tsti 0 rs imm)) s.begin)

end Sys2Proof.Machine
end

