-- ==== Sys2Proof/Machine/YezarMemory.lean ====
section
/-! DEFINITION. The commands of the Yezar memory format (R216, R217) (spec/09): engine `g` issues the instruction. -/

namespace Sys2Proof.Machine

/-- LDB. -/
def execYLdb (g : Eng) (rd : UReg) (rb : GReg) (off : BitVec 16) (s : State) : Res :=
  .next (runYezar g (some (.load .ldb rd rb off)) s.begin)

/-- LDBU. -/
def execYLdbu (g : Eng) (rd : UReg) (rb : GReg) (off : BitVec 16) (s : State) : Res :=
  .next (runYezar g (some (.load .ldbu rd rb off)) s.begin)

/-- LDH. -/
def execYLdh (g : Eng) (rd : UReg) (rb : GReg) (off : BitVec 16) (s : State) : Res :=
  .next (runYezar g (some (.load .ldh rd rb off)) s.begin)

/-- LDHU. -/
def execYLdhu (g : Eng) (rd : UReg) (rb : GReg) (off : BitVec 16) (s : State) : Res :=
  .next (runYezar g (some (.load .ldhu rd rb off)) s.begin)

/-- LD. -/
def execYLd (g : Eng) (rd : UReg) (rb : GReg) (off : BitVec 16) (s : State) : Res :=
  .next (runYezar g (some (.load .ld rd rb off)) s.begin)

/-- LDD. -/
def execYLdd (g : Eng) (rd : UReg) (rb : GReg) (off : BitVec 16) (s : State) : Res :=
  .next (runYezar g (some (.load .ldd rd rb off)) s.begin)

/-- STB. -/
def execYStb (g : Eng) (rd : UReg) (rb : GReg) (off : BitVec 16) (s : State) : Res :=
  .next (runYezar g (some (.store .stb rd rb off)) s.begin)

/-- STH. -/
def execYSth (g : Eng) (rd : UReg) (rb : GReg) (off : BitVec 16) (s : State) : Res :=
  .next (runYezar g (some (.store .sth rd rb off)) s.begin)

/-- ST. -/
def execYSt (g : Eng) (rd : UReg) (rb : GReg) (off : BitVec 16) (s : State) : Res :=
  .next (runYezar g (some (.store .st rd rb off)) s.begin)

/-- STD. -/
def execYStd (g : Eng) (rd : UReg) (rb : GReg) (off : BitVec 16) (s : State) : Res :=
  .next (runYezar g (some (.store .std rd rb off)) s.begin)

/-- LDX. -/
def execYLdx (g : Eng) (rd : UReg) (rb : GReg) (wide : Bool) (s : State) : Res :=
  .next (runYezar g (some (.ldx rd rb wide)) s.begin)

/-- STX. -/
def execYStx (g : Eng) (rd : UReg) (gs rb : GReg) (wide : Bool) (s : State) : Res :=
  .next (runYezar g (some (.stx rd gs rb wide)) s.begin)

end Sys2Proof.Machine
end

