-- ==== Sys2Proof/Machine/YezarSystem.lean ====
section
/-! DEFINITION. The commands of the Yezar system format (R223) (spec/09): engine `g` issues the instruction. -/

namespace Sys2Proof.Machine

/-- NOP. -/
def execYNop (g : Eng) (s : State) : Res :=
  .next (runYezar g (some .nop) s.begin)

/-- FENCE. -/
def execYFence (g : Eng) (s : State) : Res :=
  .next (runYezar g (some .fence) s.begin)

/-- WAIT. -/
def execYWait (g : Eng) (s : State) : Res :=
  .next (runYezar g (some .wait) s.begin)

/-- CLREX. -/
def execYClrex (g : Eng) (s : State) : Res :=
  .next (runYezar g (some .clrex) s.begin)

/-- RETI. -/
def execYReti (g : Eng) (s : State) : Res :=
  .next (runYezar g (some .reti) s.begin)

/-- SVC. -/
def execYSvc (g : Eng) (num : BitVec 16) (s : State) : Res :=
  .next (runYezar g (some (.svc num)) s.begin)

/-- MFC. -/
def execYMfc (g : Eng) (rd : UReg) (cn : Fin 16) (s : State) : Res :=
  .next (runYezar g (some (.mfc rd cn)) s.begin)

/-- MTC. -/
def execYMtc (g : Eng) (cn : Fin 16) (rs : UReg) (s : State) : Res :=
  .next (runYezar g (some (.mtc cn rs)) s.begin)

end Sys2Proof.Machine
end

