-- ==== Sys2Proof/Machine/Dispatch.lean ====
section
/-! DEFINITION. The dispatch: one arm for each command, in the order of the opcode table. -/

namespace Sys2Proof.Machine

/-- The effect of a command on everything but the queue of waiting commands. -/
def exec (i : Instr) (s : State) : Host.Outcome State Fault Refusal :=
  match i with
  | .registerWrite req addr size data => Sys2Proof.Machine.execRegisterWrite req addr size data s
  | .rcRead req addr => Sys2Proof.Machine.execRcRead req addr s
  | .lowWordRead req addr => Sys2Proof.Machine.execLowWordRead req addr s
  | .por => Sys2Proof.Machine.execPor s
  | .brownout ns => Sys2Proof.Machine.execBrownout ns s
  | .resetNLow ns => Sys2Proof.Machine.execResetNLow ns s
  | .resetNRise => Sys2Proof.Machine.execResetNRise s
  | .strapSample bootSel clkMode pullLo pullHi => Sys2Proof.Machine.execStrapSample bootSel clkMode pullLo pullHi s
  | .perstAssert port => Sys2Proof.Machine.execPerstAssert port s
  | .linkHot port => Sys2Proof.Machine.execLinkHot port s
  | .hubWdtExpiry => Sys2Proof.Machine.execHubWdtExpiry s
  | .thermalShutdown => Sys2Proof.Machine.execThermalShutdown s
  | .rstCtrlWarm req key => Sys2Proof.Machine.execRstCtrlWarm req key s
  | .rstCtrlPartition req key part => Sys2Proof.Machine.execRstCtrlPartition req key part s
  | .rstCtrlHostLink req key port => Sys2Proof.Machine.execRstCtrlHostLink req key port s
  | .domainResetRelease d => Sys2Proof.Machine.execDomainResetRelease d s
  | .resetClockWaitTimeout p => Sys2Proof.Machine.execResetClockWaitTimeout p s
  | .checkerSelfTestDone p pass => Sys2Proof.Machine.execCheckerSelfTestDone p pass s
  | .memoryFillDone p => Sys2Proof.Machine.execMemoryFillDone p s
  | .partitionResetEnd p => Sys2Proof.Machine.execPartitionResetEnd p s
  | .clockStable d => Sys2Proof.Machine.execClockStable d s
  | .clockLost d => Sys2Proof.Machine.execClockLost d s
  | .aonXtalStable => Sys2Proof.Machine.execAonXtalStable s
  | .aonXtalTimeout => Sys2Proof.Machine.execAonXtalTimeout s
  | .aonXtalDrift => Sys2Proof.Machine.execAonXtalDrift s
  | .timesyncFrameSend => Sys2Proof.Machine.execTimesyncFrameSend s
  | .timesyncFrameReceive value => Sys2Proof.Machine.execTimesyncFrameReceive value s
  | .timesyncLost => Sys2Proof.Machine.execTimesyncLost s
  | .freqWrite req sec freq => Sys2Proof.Machine.execFreqWrite req sec freq s
  | .islandFreqStep sec => Sys2Proof.Machine.execIslandFreqStep sec s
  | .streamBundleAccept b value => Sys2Proof.Machine.execStreamBundleAccept b value s
  | .bundleValueArrive b => Sys2Proof.Machine.execBundleValueArrive b s
  | .islandGate sec req => Sys2Proof.Machine.execIslandGate sec req s
  | .islandWake sec => Sys2Proof.Machine.execIslandWake sec s
  | .fabricFence sec ports => Sys2Proof.Machine.execFabricFence sec ports s
  | .fabricFenceDone sec => Sys2Proof.Machine.execFabricFenceDone sec s
  | .userIrq sec lines => Sys2Proof.Machine.execUserIrq sec lines s
  | .bankVccioMismatch bank det => Sys2Proof.Machine.execBankVccioMismatch bank det s
  | .bankVccioRestore bank => Sys2Proof.Machine.execBankVccioRestore bank s
  | .onchipMemoryRead p unit inst addr upset rom cfgWrite userWrite => Sys2Proof.Machine.execOnchipMemoryRead p unit inst addr upset rom cfgWrite userWrite s
  | .memoryWriteBack p unit inst addr userWrite => Sys2Proof.Machine.execMemoryWriteBack p unit inst addr userWrite s
  | .slagEntryFree req p mask => Sys2Proof.Machine.execSlagEntryFree req p mask s
  | .fluxStep p upsets roms => Sys2Proof.Machine.execFluxStep p upsets roms s
  | .fluxLate p => Sys2Proof.Machine.execFluxLate p s
  | .cfgScrubFrame sec upsets => Sys2Proof.Machine.execCfgScrubFrame sec upsets s
  | .checkerTestGo req part => Sys2Proof.Machine.execCheckerTestGo req part s
  | .checkerTestDone fail => Sys2Proof.Machine.execCheckerTestDone fail s
  | .storeErase he bad => Sys2Proof.Machine.execStoreErase he bad s
  | .storeWrite he data bad => Sys2Proof.Machine.execStoreWrite he data bad s
  | .storeCommit he => Sys2Proof.Machine.execStoreCommit he s
  | .nvPageScrub corrections uncorrectable => Sys2Proof.Machine.execNvPageScrub corrections uncorrectable s
  | .loadHeaderCheck hdr srcErr => Sys2Proof.Machine.execLoadHeaderCheck hdr srcErr s
  | .loadSignaturesDone sig => Sys2Proof.Machine.execLoadSignaturesDone sig s
  | .framesRecord word0 addr count word3 data srcErr => Sys2Proof.Machine.execFramesRecord word0 addr count word3 data srcErr s
  | .settingRecord word0 off value word3 => Sys2Proof.Machine.execSettingRecord word0 off value word3 s
  | .endRecord word0 total word2 word3 => Sys2Proof.Machine.execEndRecord word0 total word2 word3 s
  | .memRecord word0 rec srcErr => Sys2Proof.Machine.execMemRecord word0 rec srcErr s
  | .loadFinalChecks tag sha shake decl => Sys2Proof.Machine.execLoadFinalChecks tag sha shake decl s
  | .loadRestartAfterReset => Sys2Proof.Machine.execLoadRestartAfterReset s
  | .bamidLoad first second => Sys2Proof.Machine.execBamidLoad first second s
  | .lockStepDone who => Sys2Proof.Machine.execLockStepDone who s
  | .lockStepTimeout who => Sys2Proof.Machine.execLockStepTimeout who s
  | .cfgDoneHigh => Sys2Proof.Machine.execCfgDoneHigh s
  | .releaseToken who => Sys2Proof.Machine.execReleaseToken who s
  | .releaseReport who sec => Sys2Proof.Machine.execReleaseReport who sec s
  | .hostLoadWrite req off len => Sys2Proof.Machine.execHostLoadWrite req off len s
  | .hostLoadTimeout => Sys2Proof.Machine.execHostLoadTimeout s
  | .cfgHloadAbort req => Sys2Proof.Machine.execCfgHloadAbort req s
  | .coxLoadTimeout => Sys2Proof.Machine.execCoxLoadTimeout s
  | .pfAbsentTimeout port => Sys2Proof.Machine.execPfAbsentTimeout port s
  | .prGo req srcStore => Sys2Proof.Machine.execPrGo req srcStore s
  | .prAbort req => Sys2Proof.Machine.execPrAbort req s
  | .prFinalChecks tag sha shake decl => Sys2Proof.Machine.execPrFinalChecks tag sha shake decl s
  | .prFramesWritten ue => Sys2Proof.Machine.execPrFramesWritten ue s
  | .captureGo req trigEn => Sys2Proof.Machine.execCaptureGo req trigEn s
  | .captureSnapshot sec init => Sys2Proof.Machine.execCaptureSnapshot sec init s
  | .captureNoEdge sec init => Sys2Proof.Machine.execCaptureNoEdge sec init s
  | .readbackGo req shadow => Sys2Proof.Machine.execReadbackGo req shadow s
  | .readbackAbort req => Sys2Proof.Machine.execReadbackAbort req s
  | .readbackFrameDone busErr upsets => Sys2Proof.Machine.execReadbackFrameDone busErr upsets s
  | .rd req tag addr len => Sys2Proof.Machine.execRd req tag addr len s
  | .wr req tag addr len be data psn => Sys2Proof.Machine.execWr req tag addr len be data psn s
  | .atom req tag addr wide op operand compare => Sys2Proof.Machine.execAtom req tag addr wide op operand compare s
  | .rdSh sec tag addr => Sys2Proof.Machine.execRdSh sec tag addr s
  | .rdOwn sec tag addr => Sys2Proof.Machine.execRdOwn sec tag addr s
  | .cleanEvict sec tag addr => Sys2Proof.Machine.execCleanEvict sec tag addr s
  | .dirtyEvict sec tag addr data => Sys2Proof.Machine.execDirtyEvict sec tag addr data s
  | .rdData req tag data psn => Sys2Proof.Machine.execRdData req tag data psn s
  | .wrAck req tag => Sys2Proof.Machine.execWrAck req tag s
  | .atomData req tag data => Sys2Proof.Machine.execAtomData req tag data s
  | .errDecode req tag => Sys2Proof.Machine.execErrDecode req tag s
  | .errBus req tag => Sys2Proof.Machine.execErrBus req tag s
  | .snpRsp sec line => Sys2Proof.Machine.execSnpRsp sec line s
  | .snpRspData sec line data => Sys2Proof.Machine.execSnpRspData sec line data s
  | .cdataS sec tag data => Sys2Proof.Machine.execCdataS sec tag data s
  | .cdataE sec tag data => Sys2Proof.Machine.execCdataE sec tag data s
  | .evictAck sec tag => Sys2Proof.Machine.execEvictAck sec tag s
  | .snpInv sec line => Sys2Proof.Machine.execSnpInv sec line s
  | .snpData sec line => Sys2Proof.Machine.execSnpData sec line s
  | .snpCur sec line => Sys2Proof.Machine.execSnpCur sec line s
  | .binv sec line => Sys2Proof.Machine.execBinv sec line s
  | .mgtWr sec addr data => Sys2Proof.Machine.execMgtWr sec addr data s
  | .mgtRd sec addr => Sys2Proof.Machine.execMgtRd sec addr s
  | .mgtRsp sec => Sys2Proof.Machine.execMgtRsp sec s
  | .dbgRd set addr size => Sys2Proof.Machine.execDbgRd set addr size s
  | .dbgRdc set addr size => Sys2Proof.Machine.execDbgRdc set addr size s
  | .dbgWr set addr size data => Sys2Proof.Machine.execDbgWr set addr size data s
  | .dbgRsp set data err => Sys2Proof.Machine.execDbgRsp set data err s
  | .trace probe => Sys2Proof.Machine.execTrace probe s
  | .routerFault unit kind port tag => Sys2Proof.Machine.execRouterFault unit kind port tag s
  | .nocRequestTimeout req tag => Sys2Proof.Machine.execNocRequestTimeout req tag s
  | .nocStall unit port => Sys2Proof.Machine.execNocStall unit port s
  | .yAdd g rd rs rt f => Sys2Proof.Machine.execYAdd g rd rs rt f s
  | .yAdc g rd rs rt f => Sys2Proof.Machine.execYAdc g rd rs rt f s
  | .ySub g rd rs rt f => Sys2Proof.Machine.execYSub g rd rs rt f s
  | .ySbc g rd rs rt f => Sys2Proof.Machine.execYSbc g rd rs rt f s
  | .yAnd g rd rs rt f => Sys2Proof.Machine.execYAnd g rd rs rt f s
  | .yOr g rd rs rt f => Sys2Proof.Machine.execYOr g rd rs rt f s
  | .yXor g rd rs rt f => Sys2Proof.Machine.execYXor g rd rs rt f s
  | .yAndn g rd rs rt f => Sys2Proof.Machine.execYAndn g rd rs rt f s
  | .yShl g rd rs rt f => Sys2Proof.Machine.execYShl g rd rs rt f s
  | .yShr g rd rs rt f => Sys2Proof.Machine.execYShr g rd rs rt f s
  | .ySra g rd rs rt f => Sys2Proof.Machine.execYSra g rd rs rt f s
  | .yRor g rd rs rt f => Sys2Proof.Machine.execYRor g rd rs rt f s
  | .yMul g rd rs rt f => Sys2Proof.Machine.execYMul g rd rs rt f s
  | .yMulhs g rd rs rt f => Sys2Proof.Machine.execYMulhs g rd rs rt f s
  | .yMulhu g rd rs rt f => Sys2Proof.Machine.execYMulhu g rd rs rt f s
  | .yMin g rd rs rt f => Sys2Proof.Machine.execYMin g rd rs rt f s
  | .yMax g rd rs rt f => Sys2Proof.Machine.execYMax g rd rs rt f s
  | .yMinu g rd rs rt f => Sys2Proof.Machine.execYMinu g rd rs rt f s
  | .yMaxu g rd rs rt f => Sys2Proof.Machine.execYMaxu g rd rs rt f s
  | .yClz g rd rs f => Sys2Proof.Machine.execYClz g rd rs f s
  | .yPopc g rd rs f => Sys2Proof.Machine.execYPopc g rd rs f s
  | .ySextb g rd rs f => Sys2Proof.Machine.execYSextb g rd rs f s
  | .ySexth g rd rs f => Sys2Proof.Machine.execYSexth g rd rs f s
  | .yMov g rd rs f => Sys2Proof.Machine.execYMov g rd rs f s
  | .yCmp g rs rt f => Sys2Proof.Machine.execYCmp g rs rt f s
  | .yTst g rs rt f => Sys2Proof.Machine.execYTst g rs rt f s
  | .yShli g rd rs sh f => Sys2Proof.Machine.execYShli g rd rs sh f s
  | .yShri g rd rs sh f => Sys2Proof.Machine.execYShri g rd rs sh f s
  | .ySrai g rd rs sh f => Sys2Proof.Machine.execYSrai g rd rs sh f s
  | .yRori g rd rs sh f => Sys2Proof.Machine.execYRori g rd rs sh f s
  | .yDivinit g rd rs rt f => Sys2Proof.Machine.execYDivinit g rd rs rt f s
  | .yDivs g rd f => Sys2Proof.Machine.execYDivs g rd f s
  | .yCsel g c rd rs rt => Sys2Proof.Machine.execYCsel g c rd rs rt s
  | .yMovi g rd imm => Sys2Proof.Machine.execYMovi g rd imm s
  | .yMovhi g rd imm => Sys2Proof.Machine.execYMovhi g rd imm s
  | .yAddi g rd rs imm => Sys2Proof.Machine.execYAddi g rd rs imm s
  | .yAndi g rd rs imm => Sys2Proof.Machine.execYAndi g rd rs imm s
  | .yOri g rd rs imm => Sys2Proof.Machine.execYOri g rd rs imm s
  | .yXori g rd rs imm => Sys2Proof.Machine.execYXori g rd rs imm s
  | .yCmpi g rs imm => Sys2Proof.Machine.execYCmpi g rs imm s
  | .yCmpui g rs imm => Sys2Proof.Machine.execYCmpui g rs imm s
  | .yTsti g rs imm => Sys2Proof.Machine.execYTsti g rs imm s
  | .yLdb g rd rb off => Sys2Proof.Machine.execYLdb g rd rb off s
  | .yLdbu g rd rb off => Sys2Proof.Machine.execYLdbu g rd rb off s
  | .yLdh g rd rb off => Sys2Proof.Machine.execYLdh g rd rb off s
  | .yLdhu g rd rb off => Sys2Proof.Machine.execYLdhu g rd rb off s
  | .yLd g rd rb off => Sys2Proof.Machine.execYLd g rd rb off s
  | .yLdd g rd rb off => Sys2Proof.Machine.execYLdd g rd rb off s
  | .yStb g rd rb off => Sys2Proof.Machine.execYStb g rd rb off s
  | .ySth g rd rb off => Sys2Proof.Machine.execYSth g rd rb off s
  | .ySt g rd rb off => Sys2Proof.Machine.execYSt g rd rb off s
  | .yStd g rd rb off => Sys2Proof.Machine.execYStd g rd rb off s
  | .yLdx g rd rb wide => Sys2Proof.Machine.execYLdx g rd rb wide s
  | .yStx g rd gs rb wide => Sys2Proof.Machine.execYStx g rd gs rb wide s
  | .yB g c off => Sys2Proof.Machine.execYB g c off s
  | .yBl g off => Sys2Proof.Machine.execYBl g off s
  | .yJr g c rb => Sys2Proof.Machine.execYJr g c rb s
  | .yJlr g c rb => Sys2Proof.Machine.execYJlr g c rb s
  | .yRepeat g count => Sys2Proof.Machine.execYRepeat g count s
  | .yLoop g e count => Sys2Proof.Machine.execYLoop g e count s
  | .yMpy g a xi yi xu yu lm => Sys2Proof.Machine.execYMpy g a xi yi xu yu lm s
  | .yMac g a xi yi xu yu lm => Sys2Proof.Machine.execYMac g a xi yi xu yu lm s
  | .yMsu g a xi yi xu yu lm => Sys2Proof.Machine.execYMsu g a xi yi xu yu lm s
  | .ySqa g a xi yi xu yu lm => Sys2Proof.Machine.execYSqa g a xi yi xu yu lm s
  | .yAccx g a xi yi xu yu lm => Sys2Proof.Machine.execYAccx g a xi yi xu yu lm s
  | .ySubx g a xi yi xu yu lm => Sys2Proof.Machine.execYSubx g a xi yi xu yu lm s
  | .yGmpy g a xi yi xu yu lm => Sys2Proof.Machine.execYGmpy g a xi yi xu yu lm s
  | .yGmac g a xi yi xu yu lm => Sys2Proof.Machine.execYGmac g a xi yi xu yu lm s
  | .yExt g rd a k sat => Sys2Proof.Machine.execYExt g rd a k sat s
  | .yExstx g a sat pi u => Sys2Proof.Machine.execYExstx g a sat pi u s
  | .yExsty g a sat pi u => Sys2Proof.Machine.execYExsty g a sat pi u s
  | .yGstx g a h pi u => Sys2Proof.Machine.execYGstx g a h pi u s
  | .yGsty g a h pi u => Sys2Proof.Machine.execYGsty g a h pi u s
  | .yMfa g rd a k => Sys2Proof.Machine.execYMfa g rd a k s
  | .yMfah g rd a => Sys2Proof.Machine.execYMfah g rd a s
  | .yMta g a k rs => Sys2Proof.Machine.execYMta g a k rs s
  | .yMtah g a rs => Sys2Proof.Machine.execYMtah g a rs s
  | .yClra g a => Sys2Proof.Machine.execYClra g a s
  | .ySha g a n => Sys2Proof.Machine.execYSha g a n s
  | .yNop g => Sys2Proof.Machine.execYNop g s
  | .yFence g => Sys2Proof.Machine.execYFence g s
  | .yWait g => Sys2Proof.Machine.execYWait g s
  | .yClrex g => Sys2Proof.Machine.execYClrex g s
  | .yReti g => Sys2Proof.Machine.execYReti g s
  | .ySvc g num => Sys2Proof.Machine.execYSvc g num s
  | .yMfc g rd cn => Sys2Proof.Machine.execYMfc g rd cn s
  | .yMtc g cn rs => Sys2Proof.Machine.execYMtc g cn rs s
  | .interruptEntry g next => Sys2Proof.Machine.execInterruptEntry g next s
  | .featherWake g => Sys2Proof.Machine.execFeatherWake g s
  | .crewPortResponse g store status data => Sys2Proof.Machine.execCrewPortResponse g store status data s
  | .crewPortTimeout g store => Sys2Proof.Machine.execCrewPortTimeout g store s
  | .engineMemoryOutsideAccess req g inst off write => Sys2Proof.Machine.execEngineMemoryOutsideAccess req g inst off write s
  | .engineWatchdogBite g restartFails => Sys2Proof.Machine.execEngineWatchdogBite g restartFails s
  | .engWdtLoad req g data => Sys2Proof.Machine.execEngWdtLoad req g data s
  | .engWdtKick req g key => Sys2Proof.Machine.execEngWdtKick req g key s
  | .engCtrlRun req g run => Sys2Proof.Machine.execEngCtrlRun req g run s
  | .engCtrlRestart req g run => Sys2Proof.Machine.execEngCtrlRestart req g run s
  | .engIrqSet req g lines => Sys2Proof.Machine.execEngIrqSet req g lines s
  | .engTmrArm req g hi => Sys2Proof.Machine.execEngTmrArm req g hi s
  | .engineTimer g => Sys2Proof.Machine.execEngineTimer g s
  | .nandDescriptorPush req n data => Sys2Proof.Machine.execNandDescriptorPush req n data s
  | .nandBusGrant n => Sys2Proof.Machine.execNandBusGrant n s
  | .nandEnd n => Sys2Proof.Machine.execNandEnd n s
  | .nandCmd n => Sys2Proof.Machine.execNandCmd n s
  | .nandAddr n => Sys2Proof.Machine.execNandAddr n s
  | .nandDout n => Sys2Proof.Machine.execNandDout n s
  | .nandDin n => Sys2Proof.Machine.execNandDin n s
  | .nandDataPhaseDone n rx corrected failed bufErr => Sys2Proof.Machine.execNandDataPhaseDone n rx corrected failed bufErr s
  | .nandWaitT n => Sys2Proof.Machine.execNandWaitT n s
  | .nandWaitTExpiry n => Sys2Proof.Machine.execNandWaitTExpiry n s
  | .nandWaitRb n => Sys2Proof.Machine.execNandWaitRb n s
  | .nandLunReady n lun => Sys2Proof.Machine.execNandLunReady n lun s
  | .nandWaitRbTimeout n lun => Sys2Proof.Machine.execNandWaitRbTimeout n lun s
  | .nandStatus n byte => Sys2Proof.Machine.execNandStatus n byte s
  | .nandCtrlEn req n en wpRel => Sys2Proof.Machine.execNandCtrlEn req n en wpRel s
  | .nandCtrlWpRel req n wpRel => Sys2Proof.Machine.execNandCtrlWpRel req n wpRel s
  | .nandCfgWrite req n data => Sys2Proof.Machine.execNandCfgWrite req n data s
  | .nandResume req n luns => Sys2Proof.Machine.execNandResume req n luns s
  | .nandCqRptrWrite req n index => Sys2Proof.Machine.execNandCqRptrWrite req n index s
  | .ldpcEncode n => Sys2Proof.Machine.execLdpcEncode n s
  | .ldpcHardDecode n => Sys2Proof.Machine.execLdpcHardDecode n s
  | .ldpcSoftDecode2bit n => Sys2Proof.Machine.execLdpcSoftDecode2bit n s
  | .ldpcSoftDecode3bit n => Sys2Proof.Machine.execLdpcSoftDecode3bit n s
  | .ldpcJobComplete n flips written iterations failed bufErr => Sys2Proof.Machine.execLdpcJobComplete n flips written iterations failed bufErr s
  | .crcCtxInit req n c poly => Sys2Proof.Machine.execCrcCtxInit req n c poly s
  | .crcScanGo req n bsize blk ctx => Sys2Proof.Machine.execCrcScanGo req n bsize blk ctx s
  | .crcScanDone n bytes fail => Sys2Proof.Machine.execCrcScanDone n bytes fail s
  | .crewTqPush req n data => Sys2Proof.Machine.execCrewTqPush req n data s
  | .crewTqPop req n => Sys2Proof.Machine.execCrewTqPop req n s
  | .chSwdtKick req n key => Sys2Proof.Machine.execChSwdtKick req n key s
  | .chSwdtLoad req n data => Sys2Proof.Machine.execChSwdtLoad req n data s
  | .chWdt n => Sys2Proof.Machine.execChWdt n s
  | .dramCtrlStart req n => Sys2Proof.Machine.execDramCtrlStart req n s
  | .dramAutoStart n => Sys2Proof.Machine.execDramAutoStart n s
  | .dramInitComplete n trainA trainB => Sys2Proof.Machine.execDramInitComplete n trainA trainB s
  | .dramTrainingFailure n step sub => Sys2Proof.Machine.execDramTrainingFailure n step sub s
  | .dramCtrlRefAll req n => Sys2Proof.Machine.execDramCtrlRefAll req n s
  | .dramRequest n write line => Sys2Proof.Machine.execDramRequest n write line s
  | .dramBurstComplete n write line => Sys2Proof.Machine.execDramBurstComplete n write line s
  | .dramRefreshTick n issued => Sys2Proof.Machine.execDramRefreshTick n issued s
  | .dramMr4Poll n rate hot rfm => Sys2Proof.Machine.execDramMr4Poll n rate hot rfm s
  | .dramRowIdleClose n bank => Sys2Proof.Machine.execDramRowIdleClose n bank s
  | .dramRdWindow n => Sys2Proof.Machine.execDramRdWindow n s
  | .dramSelfRefreshEntry n => Sys2Proof.Machine.execDramSelfRefreshEntry n s
  | .dramStateError n training => Sys2Proof.Machine.execDramStateError n training s
  | .dramUnitResetDone n => Sys2Proof.Machine.execDramUnitResetDone n s
  | .patinaLineRead n req key off bytes control check => Sys2Proof.Machine.execPatinaLineRead n req key off bytes control check s
  | .patinaLineWrite n req key off data posted => Sys2Proof.Machine.execPatinaLineWrite n req key off data posted s
  | .patinaPartialWrite n req key off be data posted check => Sys2Proof.Machine.execPatinaPartialWrite n req key off be data posted check s
  | .pageReencryptDone n page failed => Sys2Proof.Machine.execPageReencryptDone n page failed s
  | .cipherBlockFillDone n block => Sys2Proof.Machine.execCipherBlockFillDone n block s
  | .patCtrlClear req n entry => Sys2Proof.Machine.execPatCtrlClear req n entry s
  | .patCtrlRelease req n => Sys2Proof.Machine.execPatCtrlRelease req n s
  | .patinaStateError n => Sys2Proof.Machine.execPatinaStateError n s
  | .patinaUnitResetDone n => Sys2Proof.Machine.execPatinaUnitResetDone n s
  | .trngHealthFail => Sys2Proof.Machine.execTrngHealthFail s
  | .ksLoadTrng req k => Sys2Proof.Machine.execKsLoadTrng req k s
  | .ksLoadData req k => Sys2Proof.Machine.execKsLoadData req k s
  | .ksClose req k => Sys2Proof.Machine.execKsClose req k s
  | .secLockKeys req => Sys2Proof.Machine.execSecLockKeys req s
  | .secLockRights req => Sys2Proof.Machine.execSecLockRights req s
  | .secLockDbg req => Sys2Proof.Machine.execSecLockDbg req s
  | .secLockDump req => Sys2Proof.Machine.execSecLockDump req s
  | .otpProgram req => Sys2Proof.Machine.execOtpProgram req s
  | .otpRevoke req => Sys2Proof.Machine.execOtpRevoke req s
  | .otpRequestDone ed mldsa written => Sys2Proof.Machine.execOtpRequestDone ed mldsa written s
  | .secGlitch => Sys2Proof.Machine.execSecGlitch s
  | .getVersion => Sys2Proof.Machine.execGetVersion s
  | .getCapabilities => Sys2Proof.Machine.execGetCapabilities s
  | .negotiateAlgorithms => Sys2Proof.Machine.execNegotiateAlgorithms s
  | .getDigests => Sys2Proof.Machine.execGetDigests s
  | .getCertificate slot => Sys2Proof.Machine.execGetCertificate slot s
  | .challenge slot => Sys2Proof.Machine.execChallenge slot s
  | .getMeasurements index sign => Sys2Proof.Machine.execGetMeasurements index sign s
  | .keyExchange slot => Sys2Proof.Machine.execKeyExchange slot s
  | .finish session good => Sys2Proof.Machine.execFinish session good s
  | .endSession session => Sys2Proof.Machine.execEndSession session s
  | .uzPqsig => Sys2Proof.Machine.execUzPqsig s
  | .hostMemRead port r tag h grant => Sys2Proof.Machine.execHostMemRead port r tag h grant s
  | .hostMemWrite port r tag h be data grant => Sys2Proof.Machine.execHostMemWrite port r tag h be data grant s
  | .hostIoRead port pf tag off size => Sys2Proof.Machine.execHostIoRead port pf tag off size s
  | .hostIoWrite port pf tag off size data => Sys2Proof.Machine.execHostIoWrite port pf tag off size data s
  | .hostConfigRequest port fn tag word write => Sys2Proof.Machine.execHostConfigRequest port fn tag word write s
  | .hostAtomicop port pf tag => Sys2Proof.Machine.execHostAtomicop port pf tag s
  | .snpinv line => Sys2Proof.Machine.execSnpinv line s
  | .snpdata line => Sys2Proof.Machine.execSnpdata line s
  | .snpcur line => Sys2Proof.Machine.execSnpcur line s
  | .birsp port line data => Sys2Proof.Machine.execBirsp port line data s
  | .hostCompletion port tag ok data => Sys2Proof.Machine.execHostCompletion port tag ok data s
  | .biTimeout port line => Sys2Proof.Machine.execBiTimeout port line s
  | .snpTimeout sec line => Sys2Proof.Machine.execSnpTimeout sec line s
  | .linkRetrain port sub up rate width flit cxl cache mem => Sys2Proof.Machine.execLinkRetrain port sub up rate width flit cxl cache mem s
  | .nvmeSqDoorbell port q tail => Sys2Proof.Machine.execNvmeSqDoorbell port q tail s
  | .nvmeCommandDispatch port q cmd => Sys2Proof.Machine.execNvmeCommandDispatch port q cmd s
  | .nvmeOutWpWrite req n wp => Sys2Proof.Machine.execNvmeOutWpWrite req n wp s
  | .slotDoorbell req slot tag => Sys2Proof.Machine.execSlotDoorbell req slot tag s
  | .slotProgramStart slot he prog fetchErr => Sys2Proof.Machine.execSlotProgramStart slot he prog fetchErr s
  | .slotAbort req slot => Sys2Proof.Machine.execSlotAbort req slot s
  | .slotWatchdogExpiry slot => Sys2Proof.Machine.execSlotWatchdogExpiry slot s
  | .cmdCapLock req => Sys2Proof.Machine.execCmdCapLock req s
  | .exit he recordErr => Sys2Proof.Machine.execExit he recordErr s
  | .map he => Sys2Proof.Machine.execMap he s
  | .time he => Sys2Proof.Machine.execTime he s
  | .measure he => Sys2Proof.Machine.execMeasure he s
  | .loadFull he => Sys2Proof.Machine.execLoadFull he s
  | .loadPartial he => Sys2Proof.Machine.execLoadPartial he s
  | .captureReadback he => Sys2Proof.Machine.execCaptureReadback he s
  | .chFirmware he owner cause records => Sys2Proof.Machine.execChFirmware he owner cause records s
  | .chReset he => Sys2Proof.Machine.execChReset he s
  | .dramStart he => Sys2Proof.Machine.execDramStart he s
  | .powerState he drained sysclk => Sys2Proof.Machine.execPowerState he drained sysclk s
  | .opSet he => Sys2Proof.Machine.execOpSet he s
  | .resetCall he => Sys2Proof.Machine.execResetCall he s
  | .crcRun he bytes => Sys2Proof.Machine.execCrcRun he bytes s
  | .hdmSet he => Sys2Proof.Machine.execHdmSet he s
  | .nsMap he => Sys2Proof.Machine.execNsMap he s
  | .keySlot he => Sys2Proof.Machine.execKeySlot he s
  | .ownerReq he => Sys2Proof.Machine.execOwnerReq he s
  | .hubIntMaskWrite req mask => Sys2Proof.Machine.execHubIntMaskWrite req mask s
  | .smbusReadHubId => Sys2Proof.Machine.execSmbusReadHubId s
  | .smbusReadHubRev => Sys2Proof.Machine.execSmbusReadHubRev s
  | .smbusReadRstCause => Sys2Proof.Machine.execSmbusReadRstCause s
  | .smbusReadRstStatus => Sys2Proof.Machine.execSmbusReadRstStatus s
  | .smbusReadCfgStatus => Sys2Proof.Machine.execSmbusReadCfgStatus s
  | .smbusReadHubIntSummary => Sys2Proof.Machine.execSmbusReadHubIntSummary s
  | .smbusReadPwrTherm => Sys2Proof.Machine.execSmbusReadPwrTherm s
  | .smbusReadPwrTotal => Sys2Proof.Machine.execSmbusReadPwrTotal s
  | .smbusReadHubPartFail => Sys2Proof.Machine.execSmbusReadHubPartFail s
  | .smbusReadRasCause => Sys2Proof.Machine.execSmbusReadRasCause s
  | .smbusReadSecCause => Sys2Proof.Machine.execSmbusReadSecCause s
  | .smbusReadWakeStatus => Sys2Proof.Machine.execSmbusReadWakeStatus s
  | .smbusReadPwrMode => Sys2Proof.Machine.execSmbusReadPwrMode s
  | .smbusReadCfgImg => Sys2Proof.Machine.execSmbusReadCfgImg s
  | .smbusReadClkTsLo => Sys2Proof.Machine.execSmbusReadClkTsLo s
  | .smbusReadClkTsHi => Sys2Proof.Machine.execSmbusReadClkTsHi s
  | .smbusMessage cmd data => Sys2Proof.Machine.execSmbusMessage cmd data s
  | .hubSwitchFault => Sys2Proof.Machine.execHubSwitchFault s
  | .channelBridgeFault n => Sys2Proof.Machine.execChannelBridgeFault n s
  | .wakeQuiet unit => Sys2Proof.Machine.execWakeQuiet unit s
  | .wakeQuietTimeout unit => Sys2Proof.Machine.execWakeQuietTimeout unit s
  | .wakeRecoveryDone unit => Sys2Proof.Machine.execWakeRecoveryDone unit s
  | .wakeHoldLimit port seq => Sys2Proof.Machine.execWakeHoldLimit port seq s
  | .wakePeekSelect req data => Sys2Proof.Machine.execWakePeekSelect req data s
  | .easyRequest req p data => Sys2Proof.Machine.execEasyRequest req p data s
  | .governorIdleEntry p => Sys2Proof.Machine.execGovernorIdleEntry p s
  | .easyQuiescent p => Sys2Proof.Machine.execEasyQuiescent p s
  | .easyEntryTimeout p => Sys2Proof.Machine.execEasyEntryTimeout p s
  | .easyEntryComplete p => Sys2Proof.Machine.execEasyEntryComplete p s
  | .easyWake p => Sys2Proof.Machine.execEasyWake p s
  | .easyWakeComplete p ue => Sys2Proof.Machine.execEasyWakeComplete p ue s
  | .mooredRequest req data drained sysclk => Sys2Proof.Machine.execMooredRequest req data drained sysclk s
  | .mooredEntryComplete => Sys2Proof.Machine.execMooredEntryComplete s
  | .mooredWake src => Sys2Proof.Machine.execMooredWake src s
  | .aonTimerExpiry => Sys2Proof.Machine.execAonTimerExpiry s
  | .opTargetWrite req p data => Sys2Proof.Machine.execOpTargetWrite req p data s
  | .avsAck rail => Sys2Proof.Machine.execAvsAck rail s
  | .avsAckTimeout rail => Sys2Proof.Machine.execAvsAckTimeout rail s
  | .governorTick power temps hubTemp => Sys2Proof.Machine.execGovernorTick power temps hubTemp s
  | .budgetOver => Sys2Proof.Machine.execBudgetOver s
  | .pmbusRead rail mw => Sys2Proof.Machine.execPmbusRead rail mw s
  | .pmbusAlert => Sys2Proof.Machine.execPmbusAlert s
  | .telemetryLost => Sys2Proof.Machine.execTelemetryLost s
  | .telemetryRestored => Sys2Proof.Machine.execTelemetryRestored s
  | .sprintWindowClose => Sys2Proof.Machine.execSprintWindowClose s
  | .sprintCooldownEnd => Sys2Proof.Machine.execSprintCooldownEnd s
  | .trstN => Sys2Proof.Machine.execTrstN s
  | .extest coxEn => Sys2Proof.Machine.execExtest coxEn s
  | .samplePreload coxEn cells => Sys2Proof.Machine.execSamplePreload coxEn cells s
  | .idcode coxEn => Sys2Proof.Machine.execIdcode coxEn s
  | .clamp coxEn => Sys2Proof.Machine.execClamp coxEn s
  | .highz coxEn => Sys2Proof.Machine.execHighz coxEn s
  | .bypass coxEn => Sys2Proof.Machine.execBypass coxEn s
  | .dbgReg coxEn => Sys2Proof.Machine.execDbgReg coxEn s
  | .dbgRegUpdate write off data => Sys2Proof.Machine.execDbgRegUpdate write off data s
  | .dbgImg coxEn => Sys2Proof.Machine.execDbgImg coxEn s
  | .dbgImgUpdate data full => Sys2Proof.Machine.execDbgImgUpdate data full s
  | .rstOvr coxEn => Sys2Proof.Machine.execRstOvr coxEn s
  | .rstOvrUpdate key index => Sys2Proof.Machine.execRstOvrUpdate key index s
  | .dbgRstWarm req key => Sys2Proof.Machine.execDbgRstWarm req key s
  | .dbgRstPartition req key part => Sys2Proof.Machine.execDbgRstPartition req key part s
  | .dbgAccessRead req set inc size => Sys2Proof.Machine.execDbgAccessRead req set inc size s
  | .dbgAccessConsumeRead req set inc size => Sys2Proof.Machine.execDbgAccessConsumeRead req set inc size s
  | .dbgAccessWrite req set inc size => Sys2Proof.Machine.execDbgAccessWrite req set inc size s
  | .dbgAccessDone set status data => Sys2Proof.Machine.execDbgAccessDone set status data s
  | .engDbgHalt req g => Sys2Proof.Machine.execEngDbgHalt req g s
  | .engineHaltTaken g next => Sys2Proof.Machine.execEngineHaltTaken g next s
  | .haltForceTimeout g => Sys2Proof.Machine.execHaltForceTimeout g s
  | .engDbgForce req g => Sys2Proof.Machine.execEngDbgForce req g s
  | .engDbgResume req g => Sys2Proof.Machine.execEngDbgResume req g s
  | .engDbgStep req g ie => Sys2Proof.Machine.execEngDbgStep req g ie s
  | .instructionFeed req g word => Sys2Proof.Machine.execInstructionFeed req g word s
  | .engDbgPcWrite req g data => Sys2Proof.Machine.execEngDbgPcWrite req g data s
  | .dbgCrewHalt req data => Sys2Proof.Machine.execDbgCrewHalt req data s
  | .dbgCrewResume req data => Sys2Proof.Machine.execDbgCrewResume req data s
  | .dbgIslHalt req die data => Sys2Proof.Machine.execDbgIslHalt req die data s
  | .dbgIslStep req data => Sys2Proof.Machine.execDbgIslStep req data s
  | .trigIn => Sys2Proof.Machine.execTrigIn s
  | .dbgXtPulse req data => Sys2Proof.Machine.execDbgXtPulse req data s
  | .quadApply req q data fref => Sys2Proof.Machine.execQuadApply req q data fref s
  | .txeqApply req l data => Sys2Proof.Machine.execTxeqApply req l data s
  | .adapt req l data => Sys2Proof.Machine.execAdapt req l data s
  | .adaptComplete l converged ctle ffe dfe => Sys2Proof.Machine.execAdaptComplete l converged ctle ffe dfe s
  | .los l => Sys2Proof.Machine.execLos l s
  | .cdrLock l => Sys2Proof.Machine.execCdrLock l s
  | .laneReset req l data => Sys2Proof.Machine.execLaneReset req l data s
  | .loopbackSelect req l data => Sys2Proof.Machine.execLoopbackSelect req l data s
  | .codewordReceive l corrected gained => Sys2Proof.Machine.execCodewordReceive l corrected gained s
  | .prbsClr req l => Sys2Proof.Machine.execPrbsClr req l s
  | .prbsLockLost l bits errs => Sys2Proof.Machine.execPrbsLockLost l bits errs s
  | .eyeGo req l data => Sys2Proof.Machine.execEyeGo req l data s
  | .eyeDwellDone l count => Sys2Proof.Machine.execEyeDwellDone l count s
  | .laneHtest req data => Sys2Proof.Machine.execLaneHtest req data s
  | .islandCycle sec blocks macs mems banks lanes => Sys2Proof.Machine.execIslandCycle sec blocks macs mems banks lanes s
  | .undefinedInstruction g word => Sys2Proof.Machine.execUndefinedInstruction g word s
  | .perstRelease port => Sys2Proof.Machine.execPerstRelease port s
  | .railsInRange => Sys2Proof.Machine.execRailsInRange s
  | .powerLoss => Sys2Proof.Machine.execPowerLoss s
  | .ideKmMessage port stream session => Sys2Proof.Machine.execIdeKmMessage port stream session s
  | .crewClockStep n => Sys2Proof.Machine.execCrewClockStep n s
  | .testLogicReset => Sys2Proof.Machine.execTestLogicReset s
  | .signalReturn l => Sys2Proof.Machine.execSignalReturn l s
  | .cdrUnlock l => Sys2Proof.Machine.execCdrUnlock l s
  | .blockLock l gained => Sys2Proof.Machine.execBlockLock l gained s
  | .prbsLock l => Sys2Proof.Machine.execPrbsLock l s
  | .taskPromoted n => Sys2Proof.Machine.execTaskPromoted n s
  | .wakeNTimeout => Sys2Proof.Machine.execWakeNTimeout s

end Sys2Proof.Machine
end

