-- ==== Sys2Proof/Machine/Ops.lean ====
section
/-! DEFINITION. What time does while no command waits: the timestamp counts (R42, R43). -/

namespace Sys2Proof.Machine

/-- One nanosecond of the timestamp generator (R42, R43): the count goes up by 1; by 2 while a follower catches up; by 1 in two
nanoseconds while it falls back, which `slew` counts in half nanoseconds. -/
def tickTime (c : Clocks) : Clocks :=
  if 0 < c.slew then { c with ts := (c.ts + 2) % 2 ^ 64, slew := c.slew - 1 }
  else if c.slew < 0 then { c with ts := if c.slew % 2 = 0 then c.ts else (c.ts + 1) % 2 ^ 64, slew := c.slew + 1 }
  else { c with ts := (c.ts + 1) % 2 ^ 64 }

/-- The nanoseconds that `k` cycles of the always-on clock carry the count forward in Moored (R42): 30,517.578125 each, rounded
to whole nanoseconds. -/
def mooredNanos (k : Nat) : Nat := (k * 1953125 + 32) / 64

/-- One cycle of the always-on clock in Moored (R42). -/
def tickMoored (s : State) : State :=
  let k := s.power.cycles
  { s with
    clocks := { s.clocks with ts := (s.clocks.ts + (mooredNanos (k + 1) - mooredNanos k)) % 2 ^ 64 }
    power := { s.power with cycles := k + 1 } }

/-- With no command waiting the block idles: one nanosecond of the timestamp passes, in Moored one
cycle of the always-on clock (assumption 8); a DRAM controller comes to its training (R261); the crew ports may accept stores (R187, assumption 92); a clear of configuration memory that was in progress ends (assumption 85); a slot whose status record waited goes on (assumption 105). -/
def idle (s : State) : State :=
  if s.power.moored then tickMoored s.begin else settleSlots (settleSnoops (portsTake (dramTimes (clearDone { s.begin with clocks := tickTime s.clocks }))))

end Sys2Proof.Machine
end

