-- ==== Sys2Proof/Safety.lean ====
section
/-! DEFINITION. The terms in which claims about the block are stated: how a command ends, which parts of the state a command
leaves as they are, and the canonical form of the state. -/

namespace Sys2Proof.Machine

/-- Command `c` ends in a next state of which `P` holds. -/
def Ends (c : Instr) (s : State) (P : State → Prop) : Prop := ∃ t, exec c s = .next t ∧ P t

/-- The parts of the state that a frame can name. -/
inductive Comp where
  | imageVals | clocks | fabric | onchip | config | noc | engines | dram | channels | drams | patinas | security | host | slots
  | wake | power | debug | lanes | freeCtr
  deriving DecidableEq, Repr

/-- The frame of a command: no part of the state but `cs`, no register field but `fs` and nothing in the queue differs between
`s` and `t`. The outputs are the command's own. -/
structure Frame (cs : List Comp) (fs : List Fld) (s t : State) : Prop where
  regs : ∀ k, k ∉ fs.map Fld.key → smGet 0 t.regs k = smGet 0 s.regs k
  imageVals : .imageVals ∉ cs → t.imageVals = s.imageVals
  clocks : .clocks ∉ cs → t.clocks = s.clocks
  fabric : .fabric ∉ cs → t.fabric = s.fabric
  onchip : .onchip ∉ cs → t.onchip = s.onchip
  config : .config ∉ cs → t.config = s.config
  noc : .noc ∉ cs → t.noc = s.noc
  engines : .engines ∉ cs → t.engines = s.engines
  dram : .dram ∉ cs → t.dram = s.dram
  channels : .channels ∉ cs → t.channels = s.channels
  drams : .drams ∉ cs → t.drams = s.drams
  patinas : .patinas ∉ cs → t.patinas = s.patinas
  security : .security ∉ cs → t.security = s.security
  host : .host ∉ cs → t.host = s.host
  slots : .slots ∉ cs → t.slots = s.slots
  wake : .wake ∉ cs → t.wake = s.wake
  power : .power ∉ cs → t.power = s.power
  dbg : .debug ∉ cs → t.dbg = s.dbg
  lanes : .lanes ∉ cs → t.lanes = s.lanes
  freeCtr : .freeCtr ∉ cs → t.freeCtr = s.freeCtr
  pending : t.pending = s.pending

/-- What an alert may touch besides the cause that is raised: the lines of the hub engines (R331); pending MSI-X vectors are in
`Comp.host` (R330). -/
def alertFlds : List Fld := hubEngines.map ENG_IRQ_PEND_PEND

/-- The same in a channel, whose crew's lines it may set too (R257). -/
def crewFlds (n : Nat) : List Fld := (crewOf n).map ENG_IRQ_PEND_PEND ++ alertFlds

/-- Of the host side only pending MSI-X vectors differ: what an alert may add there (R330). -/
def Alerted (s t : State) : Prop := t.host = { s.host with msixPending := t.host.msixPending }

/-- Registers without actions of their own in the hub control space: fields and nothing else answer a write of them. -/
def ordinary (a : Nat) : Bool :=
  let o := a % 0x10000
  0x030000000000 ≤ a && a < 0x030000100000 && match (a - 0x030000000000) / 0x10000 with
    | 1 => o != 0x8
    | 6 => !(0x100 ≤ o && o < 0x110)
    | 7 => o != 0x100
    | 0xA => o < 0x8000
    | 0xD => o != 0x10 && !(0x400 ≤ o && o < 0x454)
    | _ => false

/-- No engine but `g` differs. -/
def OnlyEngine (g : Nat) (s t : State) : Prop := ∀ h, h ≠ g → t.eng h = s.eng h

/-- No channel but `n` differs. -/
def OnlyChannel (n : Nat) (s t : State) : Prop := ∀ m, m ≠ n → t.chan m = s.chan m

/-- Fields that a rule names, but those of some keys, are at their cold value in `t`. -/
def AtCold (of : RegRow → List Nat → FieldRow → Bool) (but : List Nat) (t : State) : Prop :=
  ∀ k r ix f, fieldAt k = some (r, ix, f) → of r ix f = true → k ∉ but → t.get (f.ref (k / 32) ix) = f.cold.at ix

/-- Fields that only POR, or nothing, resets stand, but those of some keys. -/
def KeepsPor (but : List Nat) (s t : State) : Prop :=
  ∀ k r ix f, fieldAt k = some (r, ix, f) → f.kind = .por ∨ f.kind = .fixed → k ∉ but → t.get (f.ref (k / 32) ix) = s.get (f.ref (k / 32) ix)

/-- What a reset of the whole device leaves anew, whether it is cold or warm (R58). -/
def DeviceAnew (s t : State) : Prop :=
  t.clocks.bundles = [] ∧ t.fabric = {} ∧ t.noc = {} ∧ t.host = {} ∧ t.slots = {} ∧ t.lanes = {} ∧ t.engines = [] ∧
  (∀ n < 16, t.chan n = {} ∧ smGet {} t.drams n = {}) ∧ t.config.load = none ∧ t.config.startups = [] ∧
  t.config.bamidDue = true ∧ t.config.store = s.config.store ∧ t.wake.entries = [] ∧ t.imageVals = [] ∧
  t.security.meas = [] ∧ t.security.keyDue = true ∧ t.pending = s.pending

/-- What a cold reset leaves (R11, R51, R58); of the clock bits those of the always-on and the debug domain are left aside
(R13). -/
def ColdReset (s t : State) : Prop :=
  AtCold (fun r ix f => (f.kind == .normal || f.kind == .image) && devBits r ix f == ones 0 f.w) [] t ∧ DeviceAnew s t ∧ t.clocks.ts = 0 ∧ t.dram = [] ∧
  t.patinas = [] ∧ t.security.keys = [] ∧ t.wake = {}

/-- The fields by which a warm reset shows what it kept: channels in self-refresh, and a retained crash dump. -/
def dumpFlds : List Fld :=
  [SEC_DUMP_CH, SEC_STATUS_DUMP_HELD, SEC_CAUSE_DUMP, SEC_KS_CTRL_STATE 1]
    ++ (List.range 16).flatMap (fun n => [PAT_STATUS_STATE n, DRAM_STATUS_SR_KEPT n])

/-- What a warm reset with a cause leaves (R11, R51, R54, R58, R59, R291): where no crash dump is retained, every key is gone and
DRAM reads as zero; where one is, the key that was the normal one stays as key identifier 1. -/
def WarmReset (cause : Fld) (s t : State) : Prop :=
  AtCold (fun r ix f => (f.kind == .normal || f.kind == .image) && !f.kept.testBit 0 && devBits r ix f == ones 0 f.w)
    (dumpFlds.map Fld.key) t ∧
  KeepsPor [cause.key] s t ∧ t.get cause = 1 ∧ DeviceAnew s t ∧ t.clocks.ts = s.clocks.ts ∧
  (∀ d, t.clocks.released.contains d = true → d ∉ allDomains) ∧ (∀ p < 21, t.clocks.busy.contains p = true) ∧
  (retainsDump s (cause == RST_CAUSE_SEC_ALARM) = false → t.dram = [] ∧ t.patinas = [] ∧ t.security.keys = []) ∧
  (retainsDump s (cause == RST_CAUSE_SEC_ALARM) = true → smGet 0 t.security.keys 1 = smGet 0 s.security.keys (if dumpStands s then 1 else 0) ∧
    smGet 0 t.security.keys 0 = 0 ∧ t.on SEC_STATUS_DUMP_HELD = true)

/-- What a reset of partition `p` with a cause leaves (R11, R50, R58, R422): the fields that hold its state alone, as far as
their Kept column omits P and the image gives them no value, and what else is its own; channel DRAM and the timestamp stand. -/
def PartReset (cause : Fld) (p : Nat) (s t : State) : Prop :=
  AtCold (fun r ix f => f.kind == .normal && resetMask s (.part p) r ix f == ones 0 f.w)
    (s.imageVals.map Prod.fst ++ (List.range 16).map (fun n => (DRAM_STATUS_SR_KEPT n).key)) t ∧
  KeepsPor [cause.key] s t ∧ t.get cause = 1 ∧ t.dram = s.dram ∧ t.clocks.ts = s.clocks.ts ∧ t.security.keys = s.security.keys ∧
  t.pending = s.pending ∧ t.clocks.busy.contains p = true ∧
  (∀ d, t.clocks.released.contains d = true ↔ s.clocks.released.contains d = true ∧ d ∉ resetDomains p) ∧
  (p < 4 → (∀ x, x / 32 = p → x ∉ t.fabric.running) ∧ t.engines = s.engines) ∧
  (4 ≤ p → p < 20 → t.chan (p - 4) = {} ∧ smGet {} t.drams (p - 4) = {} ∧ ∀ g < 1024, g / 64 = p - 4 → t.eng g = {}) ∧
  (p = 20 → t.host = {} ∧ t.slots = {} ∧ t.wake.entries = [] ∧ ∀ g < 1024, t.eng g = s.eng g)

/-- No cross-trigger channel selects a source (R388). -/
def NoTrigger (src : Nat) (s : State) : Prop := ∀ c < 8, s.bit (DBG_XT_IN_SRC c) src = false

/-- What a host-link reset of port scope with a cause leaves (R50, R58): the port's fields, as far as their Kept column omits H,
its journal entries and its outstanding commands; the cause LINK_DOWN is raised. -/
def LinkReset (cause : Fld) (port : Nat) (s t : State) : Prop :=
  AtCold (fun r ix f => f.kind == .normal && resetMask s (.link port) r ix f == ones 0 f.w) [(HP_CAUSE_LINK_DOWN port).key] t ∧
  KeepsPor [cause.key] s t ∧ t.get cause = 1 ∧ t.on (HP_CAUSE_LINK_DOWN port) = true ∧
  (∀ e ∈ t.wake.entries, e.port ≠ port) ∧ (∀ c ∈ t.host.cmds, c.port ≠ port) ∧ (∀ e ∈ t.host.dir, e.2.port ≠ port) ∧
  t.engines = s.engines ∧ t.dram = s.dram ∧ t.channels = s.channels ∧ t.config = s.config ∧ t.fabric = s.fabric ∧
  t.pending = s.pending

/-- What a host-link reset leaves: at its locked scope, a warm device reset or the port's own (R61). -/
def HostLinkReset (cause : Fld) (port : Nat) (s t : State) : Prop :=
  if deviceScope s port then WarmReset cause s t else LinkReset cause port s t

/-- No clear of a load is in progress: the next command of a load is not its end (R121, R141). -/
def NoClear (s : State) : Prop := s.config.next = none ∧ s.get CFG_STATUS_STATE ≠ 6 ∧ s.get CFG_PR_STATUS_PHASE ≠ 3

/-- The stream has `n` bytes for a full load that comes over one. -/
def Come (l : Load) (n : Nat) (s : State) : Prop := l.src = 3 ∨ l.src = 4 → n ≤ s.config.stream.len

/-- `n` bytes from byte `o` of a full load's image can be read: the stream has brought them, or no bad page of the store holds them. -/
def Readable (l : Load) (o n : Nat) (s : State) : Prop :=
  (l.src = 3 ∨ l.src = 4 → l.inStore = false) ∧ Come l n s ∧
  (l.inStore = true → ∀ p ∈ s.config.badPages, ¬ ((l.addr + o) / 4096 ≤ p ∧ p ≤ (l.addr + o + n - 1) / 4096))

/-- A full load's attempt has failed with a cause (step F of R121): the cause is recorded and raised; before the fabric was held the
loader has gone on to the source after the load's in the boot order, else it clears first. -/
def LoadFailed (l : Load) (cause : Nat) (s t : State) : Prop :=
  t.get CFG_STATUS_CAUSE = cause ∧ t.on CFG_CAUSE_FAIL = true ∧ t.config.loading = false ∧
  (l.src = 1 → t.get CFG_FAIL_A = cause) ∧ (l.src = 2 → t.get CFG_FAIL_B = cause) ∧ (l.src = 3 → t.get CFG_FAIL_HOST = cause) ∧
  (l.src = 4 → t.get CFG_FAIL_DBG = cause) ∧
  (s.config.loading = true → t.config.load = none ∧ t.config.next = some (sourceAfter (bootOrder s) l.src) ∧ t.get CFG_STATUS_STATE = 6 ∧
    ∀ k, k / 512 / 12288 < 128 → smGet 0 t.onchip.frames k = 0) ∧
  (s.config.loading = false → t.get CFG_STATUS_SOURCE = sourceAfter (bootOrder s) l.src % 8 ∧
    (sourceAfter (bootOrder s) l.src = 3 ∨ sourceAfter (bootOrder s) l.src = 4 → t.config.load = none ∧
      t.config.waitSrc = some (sourceAfter (bootOrder s) l.src)) ∧
    (sourceAfter (bootOrder s) l.src < 3 → t.get CFG_STATUS_STATE = 2 ∧
      t.config.load = some { src := sourceAfter (bootOrder s) l.src, isPart := false, inStore := true,
                             addr := (sourceAfter (bootOrder s) l.src - 1) * storeSlotSize }))

/-- The loader waits on the host bus or the Coxswain port, where the source is one of them, or reads the slot. -/
def Attempts (src : Nat) (t : State) : Prop :=
  t.get CFG_STATUS_SOURCE = src ∧
  (src = 3 ∨ src = 4 → t.config.waitSrc = some src ∧ t.get CFG_STATUS_STATE = (if src = 3 then 0xB else 0xC)) ∧
  (src < 3 → t.get CFG_STATUS_STATE = 2 ∧
    t.config.load = some { src := src, isPart := false, addr := (src - 1) * storeSlotSize, inStore := true })

/-- RD, WR and ATOM as their target sees them (R159). -/
def rdAsk (req : Requester) (tag : Fin 1024) (addr : BitVec 52) (len : Fin 64) : Ask :=
  { req := req, tag := tag, addr := addr.toNat, len := len.val + 1, opc := 0 }

def wrAsk (req : Requester) (tag : Fin 1024) (addr : BitVec 52) (len : Fin 64) (be : BitVec 64) (data : BitVec 512) (psn : Bool) : Ask :=
  { req := req, tag := tag, addr := addr.toNat, len := len.val + 1, opc := 1, psn := psn
    data := data.toNat / 2 ^ (8 * (addr.toNat % 64)) % 2 ^ (8 * (len.val + 1)), be := be.toNat / 2 ^ (addr.toNat % 64) % 2 ^ (len.val + 1)
    flitBe := some be.toNat }

def atomAsk (req : Requester) (tag : Fin 1024) (addr : BitVec 52) (wide : Bool) (op : AtomOp) (operand compare : BitVec 64) : Ask :=
  { req := req, tag := tag, addr := addr.toNat, len := if wide then 8 else 4, opc := 2, op := op, data := operand.toNat, cmp := compare.toNat }

/-- The port of a request takes it: it issues, the tag is free (R163), and the port does not answer it itself: the shape is one that
goes on (R159), an entry of the target map claims an address of the fabric (R162), the way from the port to the hub has
lost no clock (R170); and the hub switch, where the request passes it, is in service (R23, R46). -/
def Takes (s : State) (a : Ask) : Prop :=
  issues s a.req = true ∧ tagBusy s a.req (entryPort a.req (requestDst s a.req a.addr)) a.tag = false ∧
  portAnswers a (entryPort a.req (requestDst s a.req a.addr)) (requestDst s a.req a.addr) s = none ∧ switchStop s a = none

/-- A request recorded as outstanding with the answer on its way, after the probes have seen it. -/
def withAnswer (a : Ask) (dst : Option Nat) (x : NocRsp) (t : State) : State :=
  let r := reqOf a (entryPort a.req dst) dst (some x)
  recordReq r (seeRequest r (blockBe a) t)

/-- An answer delivered: the probes have seen it; the request is over, for the fences too, and the requester sees the answer. -/
def delivered (excl : Bool) (r : NocReq) (x : NocRsp) (t : State) : State :=
  let u := seeAnswer r excl x t
  { u with
    noc := { u.noc with reqs := u.noc.reqs.erase r }
    fabric := { u.fabric with fences := u.fabric.fences.map (fun e => (e.1,
      if e.2.waiting.contains (r.port, r.tag) then
        { e.2 with waiting := e.2.waiting.erase (r.port, r.tag), err := e.2.err || (x == .errDecode || x == .errBus) }
      else e.2)) }
    out := u.out ++ [answerOut x] }

/-- A host's entry retired with what the host sees. -/
def retired (e : WakeEntry) (seen : List Out) (s : State) : State :=
  { s with
    wake := { s.wake with
      entries := s.wake.entries.filter (fun f => !(f.port == e.port && f.out == e.out && f.slot == e.slot))
      sides := s.wake.sides.filter (fun y => !(y.1 == e.port && y.2.1 == e.seq)) }
    out := seen }

/-- The journal takes a request of a host through a port at once: none of the port stands in it, and no recovery runs (R316, R333
to R335, R342). -/
structure JournalFree (s : State) (port : Nat) : Prop where
  noEntry : ∀ e ∈ s.wake.entries, e.port ≠ port
  noRecovery : s.wake.recs = []

/-- The request has entered the journal, has been forwarded and has its answer. -/
def Answered (port : Nat) (req : Requester) (tag : Nat) (x : NocRsp) (s t : State) : Prop :=
  ∃ e, t.wake.entries = s.wake.entries ++ [e] ∧ e.port = port ∧ e.out = false ∧ e.req.req = req ∧ e.req.tag = tag ∧
    e.seq = s.get (WAKE_SEQ_IN port) ∧ e.req.accepted = true ∧ e.req.rsp = some x

/-- The program of slot `k`, which no stop awaits, waits on hub engine `he` in Bamid's handler for service call `num` (R327). -/
structure InCall (s : State) (he : Fin 4) (num k : Nat) : Prop where
  waits : callOf s he num = some k
  goesOn : stopCode s k = none

/-- The service call has returned to its program: the status in g1, then other registers, and RETI (R327). -/
def Returned (he : Fin 4) (status : Nat) (regs : List (Nat × Nat)) (s t : State) : Prop :=
  t.eng (1024 + he) = (regs.foldl (fun e r => e.setAlu r.1 (BitVec.ofNat 32 r.2))
    ((s.eng (1024 + he)).setAlu 1 (BitVec.ofNat 32 status))).follow .reti ∧
  t.slots = { s.slots with waits := s.slots.waits.filter (·.1 != he) }

/-- The service call waits in its phase `ph`: its program has not gone on. -/
def Blocked (he : Fin 4) (num ph : Nat) (s t : State) : Prop :=
  t.eng (1024 + he) = s.eng (1024 + he) ∧ waitsIn t he num ph = true

/-! Yezar instructions. -/

/-- The engine as instruction `i` acts: an atomic sequence has counted it (R191). -/
def starts (s : State) (g : Nat) (i : Yz) : Engine := ({ s.eng g with resumed := false } : Engine).countAtomic i

/-- `n` bytes of an on-chip memory from an address on are validly coded (R95). -/
def goodBytes (s : State) (p unit inst addr n : Nat) : Prop := ∀ k < n, syndrome (storedWord s p unit inst (addr + k)) = 0

/-- Their value, the first byte lowest. -/
def bytesValue (s : State) (p unit inst addr : Nat) : Nat → Nat
  | 0 => 0
  | n + 1 => (dataOf (storedWord s p unit inst addr)).toNat + 256 * bytesValue s p unit inst (addr + 1) n

/-- `n` bytes of an on-chip memory hold a value, and no other byte of any on-chip memory differs; of crew SRAM the banks' turns may (R185). -/
def Stored (s t : State) (p unit inst addr n v : Nat) : Prop :=
  (∀ k < n, storedWord t p unit inst (addr + k) = encodeByte (BitVec.ofNat 8 (v / 256 ^ k))) ∧
  (∀ key, (∀ k < n, key ≠ byteKey p unit inst (addr + k)) → smGet 0 t.onchip.bytes key = smGet 0 s.onchip.bytes key) ∧
  t.onchip = { s.onchip with bytes := t.onchip.bytes, banks := t.onchip.banks } ∧ (unit ≠ 69 → t.onchip.banks = s.onchip.banks)

/-- Engine `g` fetches its next word: it executes (R176, R185), the word can be fetched and is good (R193, R194), and no debugger,
command slot or comparator takes part. -/
structure Fetches (s : State) (g : Nat) : Prop where
  ready : engReady s g = true
  noHalt : (s.eng g).haltReq = none
  noStep : (s.eng g).stepping = false
  noWatch : ∀ k < 8, (s.get (ENG_DBG_CTRL g k)).testBit 31 = false
  noSlotStop : s.slots.stopped = []
  inMemory : fetchable s g = true
  goodWord : goodBytes s (engPart g) (engUnit g) 0 (s.eng g).pc.toNat 4

/-- Engine `g` issues instruction `i`: it fetches it from IMEM or still holds it (R188), and the instruction is defined and may stand where
it stands (R184, R189 to R192, R227). -/
structure Issues (s : State) (g : Nat) (i : Yz) : Prop extends Fetches s g where
  inWord : (s.eng g).mayRun (bytesValue s (engPart g) (engUnit g) 0 (s.eng g).pc.toNat 4) (some i) = true
  sound : (starts s g i).earlyFault i = none

/-- No command program runs on the engine. -/
def noProgram (s : State) (g : Nat) : Prop := g < 1024 ∨ slotOfEngine s (g - 1024) = none

/-- Engine `g` has completed an instruction after which it stood as `e`: it goes on as `flow` says, and nothing else differs. -/
def Completed (g : Nat) (e : Engine) (flow : Flow) (s t : State) : Prop :=
  t.eng g = (e.follow flow).tick ∧ OnlyEngine g s t ∧ Frame [.engines] [] s t

/-- divs repeated (R214). -/
def divSteps : Nat → Word × Word → Word × Word
  | 0, x => x
  | k + 1, x => divSteps k ((divStep x.1 x.2).1, (divStep x.1 x.2).2.1)

/-- The engine has completed an instruction that also touched its memories. -/
def CompletedStore (g : Nat) (e : Engine) (s t : State) : Prop :=
  t.eng g = (e.follow .next).tick ∧ OnlyEngine g s t ∧ Frame [.engines, .onchip] [] s t

/-- The engine has entered its handler with a code (R195): the status is saved with the slot, what was open is dropped, context 0 runs
at the vector with EXL set and IE clear. -/
def Entered (g : Nat) (e : Engine) (code info offset : Nat) (addr : Option Nat) (s t : State) : Prop :=
  let h := t.eng g
  h.epc = (match e.rep with | some r => r.addr | none => e.pc) ∧
  h.ecause.toNat = (match e.rep with | some r => code + 2 ^ 8 + r.done % 2 ^ 16 * 2 ^ 16 | none => code + info * 2 ^ 16) ∧
  h.est = stSet e.st 11 e.slot.isSome ∧ (∀ x b, e.slot = some (x, b) → h.etgt = x) ∧ h.ectx = e.ctxid ∧
  (∀ a, addr = some a → h.eaddr = BitVec.ofNat 32 a) ∧ h.ctxid = 0 ∧ h.pc = e.vbase + BitVec.ofNat 32 offset ∧
  h.st.getLsbD 9 = true ∧ h.st.getLsbD 8 = false ∧ h.st.getLsbD 10 = false ∧ h.slot = none ∧ h.rep = none ∧ h.atom = none ∧
  h.wait = none ∧ h.u = e.u ∧ h.acc = e.acc ∧ OnlyEngine g s t

/-! Storage channels. -/

/-- The sequencer of channel `n` is at a micro-op word: the program of a LUN holds the bus and is ready for it (R236, R237). -/
structure AtUop (s : State) (n l : Nat) (prio : Bool) (r : NandRun) (w : Nat) : Prop where
  runs : nandRuns s n = true
  holds : (s.chan n).bus = some (l, prio)
  started : (s.lun n l).slot prio = some r
  ready : r.phase = .ready
  word : s.get (NAND_UOP_WORD n (r.pc % 4096)) = w

/-- A program of a channel stands as `r`; no other channel, LUN or descriptor differs. -/
def RunIs (n l : Nat) (prio : Bool) (r : NandRun) (s t : State) : Prop :=
  (t.lun n l).slot prio = some r ∧ (t.lun n l).slot (!prio) = (s.lun n l).slot (!prio) ∧ (t.lun n l).queue = (s.lun n l).queue ∧
  (∀ k, k ≠ l → t.lun n k = s.lun n k) ∧ OnlyChannel n s t

/-- The completion ring of channel `n` has room and lies in crew SRAM at `o` of instance `i`, which takes the write (R238). -/
structure RingTakes (s : State) (n size wptr rptr base i o : Nat) : Prop where
  room : (wptr + 1) % ringSize size ≠ rptr % ringSize size
  place : plainOf (bufAddress n base / 16 * 16 + wptr % ringSize size * 16) = some (.chip (4 + n) 69 i o)
  answers : chipStop s (4 + n) = none
  right : hasRight s (moverOf n) (bufAddress n base / 16 * 16 + wptr % ringSize size * 16) true = true
  noneDue : s.onchip.due = []

/-- A completion of the NAND sequencer has been posted (R238): the entry in the ring, the pointer, line 19 in the crew, and the
descriptor is over. -/
def NandCompleted (n l : Nat) (prio : Bool) (r : NandRun) (status i o : Nat) (s t : State) : Prop :=
  Stored s t (4 + n) 69 i o 16 (nandEntry l r status) ∧ (t.lun n l).slot prio = none ∧ (t.chan n).bus = none ∧
  t.get (NAND_CQ_WPTR_INDEX n) = (s.get (NAND_CQ_WPTR_INDEX n) + 1) % ringSize (s.get (NAND_CQ_SIZE_LOG2 n)) ∧
  ∀ g ∈ crewOf n, t.bit (ENG_IRQ_PEND_PEND g) 19 = true

/-! The debug domain. -/

/-- An access of debug access set `i` has completed after its target left the state as `u` (R377): result and data stand, and ADDR has
advanced where INC says so and the access was attempted. -/
def AccessEnds (i : Nat) (x : DbgAccess) (result v : Nat) (u t : State) : Prop :=
  t.dbg = { u.dbg with sets := u.dbg.sets.filter (·.1 != i), lastSet := some i } ∧ t.on (DBG_ACC_BUSY i) = false ∧
  t.get (DBG_ACC_RESULT i) = result ∧
  (x.kind ≠ 2 → t.get64 (DBG_ACC_DATA_LO i) (DBG_ACC_DATA_HI i) = v % 2 ^ (8 * x.size) % 2 ^ 64) ∧
  (u.on (DBG_ACC_INC i) = true → result ≠ 6 → t.get64 (DBG_ACC_ADDR_LO i) (DBG_ACC_ADDR_HI i) =
    (u.get64 (DBG_ACC_ADDR_LO i) (DBG_ACC_ADDR_HI i) + x.size) % 2 ^ 52) ∧
  Frame [.debug] ([DBG_ACC_BUSY i, DBG_ACC_RESULT i] ++ (if x.kind = 2 then [] else [DBG_ACC_DATA_LO i, DBG_ACC_DATA_HI i]) ++
    if u.on (DBG_ACC_INC i) && result != 6 then [DBG_ACC_ADDR_LO i, DBG_ACC_ADDR_HI i] else []) u t

/-- The canonical form of what the state holds sparsely: register fields, image values, the bytes of the on-chip memories and of
configuration memory, channel DRAM, the image store, engines, channels, DRAM controllers and Patina instances are strictly rising in
their keys, and no entry holds what an unlisted key reads as. -/
def State.wf (s : State) : Bool :=
  smWf 0 s.regs && smWf 0 s.imageVals && smWf 0 s.onchip.bytes && smWf 0 s.onchip.frames && smWf 0 s.dram && smWf 0 s.config.store
    && smWf {} s.engines && smWf {} s.channels && smWf {} s.drams && smWf {} s.patinas

end Sys2Proof.Machine
end

