-- ==== Sys2Proof/Certificates/Slice0/Obligations.lean ====
section
/-! DEFINITION. The statements for the provers. -/

open Sys2Proof Sys2Proof.Machine

/-! ## Steps, the queue and reset -/

/-- One step takes the command at the front of the queue and is what that command does to the state with the rest of the
queue. -/
def Obligations.StepRunsTheFrontCommand : Prop :=
  ∀ (s : State) (c : Instr) (rest : List Instr),
    step { s with pending := c :: rest } = exec c { s with pending := rest }

/-- With no command waiting one nanosecond passes, in Moored one cycle of the always-on clock, and nothing else happens but what
time brings: the end of a clear of configuration memory (assumption 85), a DRAM controller's training, stores that a crew port
accepts (assumption 92), snoops whose end waited for a tag, slots whose status record waited (assumption 105). That an idle step is so long is the model's choice (assumption 8);
by how much the count moves in it is R42 and, for a follower that slews, R43. -/
def Obligations.EmptyQueueIdlesOneNanosecond : Prop :=
  ∀ s : State, s.pending = [] → ∃ t, step s = .next t ∧
    (s.power.moored = true ∨ NoClear s ∧ (∀ e ∈ s.drams, s.get (DRAM_STATUS_STATE e.1) ≠ 1) ∧
      (∀ e ∈ s.engines, ∀ p ∈ e.2.posted, p.taken = true) ∧ (∀ n ∈ s.host.snoops, n.waiting ≠ []) ∧ s.slots.ending = [] → t.out = [] ∧
    (s.power.moored = false → Frame [.clocks] [] s t ∧ t.clocks = { s.clocks with ts := t.clocks.ts, slew := t.clocks.slew } ∧
      (s.clocks.slew = 0 → t.clocks.ts = (s.clocks.ts + 1) % 2 ^ 64 ∧ t.clocks.slew = 0) ∧
      (0 < s.clocks.slew → t.clocks.ts = (s.clocks.ts + 2) % 2 ^ 64 ∧ t.clocks.slew = s.clocks.slew - 1) ∧
      (s.clocks.slew < 0 → t.clocks.slew = s.clocks.slew + 1 ∧
        (t.clocks.ts = s.clocks.ts ∨ t.clocks.ts = (s.clocks.ts + 1) % 2 ^ 64))) ∧
    (s.power.moored = true → Frame [.clocks, .power] [] s t ∧ t.clocks = { s.clocks with ts := t.clocks.ts } ∧
      t.power = { s.power with cycles := s.power.cycles + 1 } ∧
      (t.clocks.ts = (s.clocks.ts + 30517) % 2 ^ 64 ∨ t.clocks.ts = (s.clocks.ts + 30518) % 2 ^ 64))) ∧
    (s.power.moored = false → s.config.next = none → s.get CFG_STATUS_STATE = 6 → (∀ e ∈ s.engines, e.2.posted = []) → s.drams = [] →
      s.host.snoops = [] → s.slots.ending = [] → t.get CFG_STATUS_STATE = 4 ∧ Frame [.clocks] [CFG_STATUS_STATE, CFG_PR_STATUS_PHASE] s t)

/-- What a power-on reset leaves: every field of every register of the tables at its cold value; the count at zero; no domain
but the always-on and the debug domain released and every partition with its reset in progress; no bundle, engine, DRAM
content, key or command; and the sparse stores in canonical form. Where the spec gives a field no reset value, the cold value
is the model's choice (assumption 4); the levels of pins are assumption 5. -/
def Obligations.ResetHoldsTheColdValues : Prop :=
  (∀ k r ix f, fieldAt k = some (r, ix, f) → State.reset.get (f.ref (k / 32) ix) = f.cold.at ix) ∧
  State.reset.clocks.ts = 0 ∧ State.reset.clocks.released = [184, 185] ∧ State.reset.clocks.busy = List.range 21 ∧
  State.reset.clocks.bundles = [] ∧ State.reset.engines = [] ∧ State.reset.dram = [] ∧ State.reset.security.keys = [] ∧
  State.reset.pending = [] ∧ State.reset.wf = true

/-! ## Registers -/

/-- A write of a register without actions of its own acts on each field by its access code: RW takes the value, RWL the
value unless its lock is set, W1C clears and W1S sets the bits written as 1 (a W1S field that no reset keeps only starts an
action), RO, WO and RC fields stand. No other field changes but lines of hub engines, by an alert. -/
def Obligations.RegisterWriteActsByAccessCode : Prop :=
  ∀ (s : State) (req : Requester) (a : Nat) (data : Word) (r : RegRow) (ix : List Nat),
    ordinary a = true → rowOf a = some (r, ix) → regGate s req a 4 true = .reach →
    Ends (.registerWrite req a 4 data) s fun t =>
      (∀ f ∈ r.fields, t.get (f.ref a ix) =
        match f.acc with
        | .rw => slice data.toNat f.lo f.w
        | .rwl => if lockedAt s r ix then s.get (f.ref a ix) else slice data.toNat f.lo f.w
        | .w1c => clearBits (s.get (f.ref a ix)) (slice data.toNat f.lo f.w) % 2 ^ f.w
        | .w1s => if f.kept = 0 then s.get (f.ref a ix) else (s.get (f.ref a ix) ||| slice data.toNat f.lo f.w) % 2 ^ f.w
        | .ro | .wo | .rc => s.get (f.ref a ix)) ∧
      Frame [.host] (r.fields.map (·.ref a ix) ++ alertFlds) s t ∧ Alerted s t ∧ t.out.getLast? = some .done

/-- An access of a register that does not reach it. Without the right to it, or where it is not of four aligned bytes, a write
completes and changes nothing and a read returns zero. Where the unit is held, frozen or failed, either ends with that error and
changes nothing. -/
def Obligations.AccessThatDoesNotReachChangesNothing : Prop :=
  ∀ (s : State) (req : Requester) (a size : Nat) (data : Word),
    (regGate s req a size true = .silent → exec (.registerWrite req a size data) s = .next { s with out := [.done] }) ∧
    (regGate s req a 4 false = .silent → exec (.rcRead req a) s = .next { s with out := [.value 0] } ∧
      exec (.lowWordRead req a) s = .next { s with out := [.value 0] }) ∧
    (∀ o, regGate s req a size true = .stop o → exec (.registerWrite req a size data) s = .next { s with out := [o] }) ∧
    (∀ o, regGate s req a 4 false = .stop o → exec (.rcRead req a) s = .next { s with out := [o] } ∧
      exec (.lowWordRead req a) s = .next { s with out := [o] }) ∧
    (∀ write off, locate a = .hub off → unitStop s a = none → s.clocks.halted = false →
      hasRight s req a write = false ∨ size ≠ 4 ∨ a % 4 ≠ 0 → regGate s req a size write = .silent) ∧
    (∀ write n off, locate a = .chan n off → unitStop s a = none → s.clocks.halted = false → easyHolds s (4 + n) = false →
      hasRight s req a write = false ∨ size ≠ 4 ∨ a % 4 ≠ 0 → regGate s req a size write = .silent) ∧
    (∀ write off o, locate a = .hub off → s.clocks.halted = false → unitStop s a = some o → regGate s req a size write = .stop o)

/-- A read of the low word of a 64-bit register returns it and latches the high word for its requester; the requester's next
read of the high word returns what was latched, whatever the register holds by then, and takes the latch away. A read of CREW_TQ_POP by anyone but the debug domain is a pop, as CREW_TQ_POP gives it; a write of HUB_INT_MASK takes the
mask and sends the vector of every summary bit that is 1 and whose mask bit it clears, and changes nothing else. -/
def Obligations.ReadsWithEffectsAndTheInterruptMask : Prop :=
  (∀ (s : State) (req : Requester) (a : Nat), a < 2 ^ 48 → (∃ off, locate a = .hub off) → isLowWord a = true →
    regGate s req a 4 false = .reach →
    Ends (.lowWordRead req a) s fun t =>
      t.out = [.value (readReg s a)] ∧ Frame [.clocks] [] s t ∧ t.clocks = { s.clocks with latch := t.clocks.latch } ∧
      ∀ u : State, u.clocks.latch = t.clocks.latch → isLowWord (a + 4) = false → (∃ off, locate (a + 4) = .hub off) →
        regGate u req (a + 4) 4 false = .reach → a + 4 < 2 ^ 48 →
        Ends (.lowWordRead req (a + 4)) u fun v => v.out = [.value (readReg s (a + 4))] ∧ Frame [.clocks] [] u v ∧
          v.clocks.latch.find? (fun e => e.1 == req && e.2.1 == a + 4) = none) ∧
  ((∀ (s : State) (req : Requester) (n : Ch), exec (.rcRead req (0x020000060004 + n.val * 0x10000000)) s = exec (.crewTqPop req n) s) ∧
  (∀ (s : State) (req : Requester) (n : Ch) (k : Nat) (x : Task), regGate s req (0x020000060004 + n.val * 0x10000000) 4 false = .reach →
    req ≠ .debug → nextTask s n = some (k, x) → Ends (.rcRead req (0x020000060004 + n.val * 0x10000000)) s fun t => t.out = [.value x.off] ∧
      (t.chan n).tasks.length + 1 = (s.chan n).tasks.length ∧ OnlyChannel n s t) ∧
  (∀ (s : State) (req : Requester) (mask : Word), regGate s req 0x030000000104 4 true = .reach →
    Ends (.hubIntMaskWrite req mask) s fun t =>
      t.get HUB_INT_MASK_MASK = mask.toNat % 2 ^ HUB_INT_MASK_MASK.w ∧ Frame [.host] [HUB_INT_MASK_MASK] s t ∧ Alerted s t ∧
      t.out.getLast? = some .done ∧
      ∀ b < 29, s.bit HUB_INT_MASK_MASK b = true → mask.getLsbD b = false → summaryBit s b = true →
        ∀ port < 2, (s.get (INT_VEC_PORT b)).testBit port = true → msixOn s port = true →
          msixWord s port (s.get (INT_VEC_VEC b) * 4 + 3) % 2 = 0 → .msix port (s.get (INT_VEC_VEC b)) ∈ t.out))

/-! ## Resets -/

/-- Cold resets. POR and the loss of power return every register field to its cold value; brownout of more than 1 µs, and the
return of the rails after a thermal shutdown or a brownout, every one but those that only POR clears. Thermal shutdown holds
every domain but two, asserts THERMTRIP_N and asks for rail shutdown. Each records its cause. -/
def Obligations.ColdResetsReturnEverythingToColdValues : Prop :=
  ∀ s : State, s.wf = true →
    Ends .por s (fun t => ColdReset s t ∧ AtCold (fun _ _ f => f.kind != .fixed) [] t ∧ t.clocks = {}) ∧
    Ends .powerLoss s (fun t => ColdReset s t ∧ AtCold (fun _ _ f => f.kind != .fixed) [] t ∧ t.clocks = { released := [] }) ∧
    (∀ ns, 1000 < ns → Ends (.brownout ns) s fun t => ColdReset s t ∧ KeepsPor [RST_CAUSE_BROWNOUT.key] s t ∧
      t.get RST_CAUSE_BROWNOUT = 1 ∧ t.clocks.rails = false ∧ t.clocks.railWait = true) ∧
    (∀ ns, ns ≤ 1000 → exec (.brownout ns) s = .next { s with out := [] }) ∧
    Ends .thermalShutdown s (fun t => t.get RST_CAUSE_THERM = 1 ∧ t.clocks.released = [184, 185] ∧ t.clocks.thermtrip = true ∧
      t.clocks.railWait = true ∧ t.clocks.rails = false ∧ Frame [.clocks] [RST_CAUSE_THERM] s t ∧ t.out = [.railShutdown]) ∧
    Ends .railsInRange s (fun t => t.clocks.rails = true ∧ t.clocks.railWait = false ∧
      (s.clocks.railWait = true → ColdReset s t ∧ KeepsPor [] s t) ∧ (s.clocks.railWait = false → Frame [.clocks] [] s t))

/-- Warm device resets: of RESET_N low for at least 1 µs, which is then held, of the hub's supervisory watchdog where it runs, of
RST_CTRL and of DBG_RST with their key. Without the key nothing happens. While a cold reset is in progress each of them is a cold
reset that starts over. -/
def Obligations.WarmResetsKeepWhatTheTablesKeep : Prop :=
  ∀ s : State, s.wf = true → s.clocks.wide ≠ 2 →
    (∀ ns, 1000 ≤ ns → Ends (.resetNLow ns) s fun t => WarmReset RST_CAUSE_PIN s t ∧ t.clocks.pinHeld = true) ∧
    (∀ ns, ns < 100 → exec (.resetNLow ns) s = .next { s with out := [] }) ∧
    (hubWatchdogRuns s = true → Ends .hubWdtExpiry s fun t => WarmReset RST_CAUSE_HUB_WDT s t) ∧
    (∀ req, regGate s req 0x030000010008 4 true = .reach →
      Ends (.rstCtrlWarm req 0xA5) s (fun t => WarmReset RST_CAUSE_SOFT s t ∧ t.out.getLast? = some .done) ∧
      ∀ key : BitVec 8, key ≠ 0xA5 → exec (.rstCtrlWarm req key) s = .next { s with out := [.done] }) ∧
    (∀ req, regGate s req 0x0300000B0004 4 true = .reach →
      Ends (.dbgRstWarm req 0xA5) s (fun t => WarmReset RST_CAUSE_DEBUG s t ∧ t.out.getLast? = some .done) ∧
      ∀ key : BitVec 8, key ≠ 0xA5 → exec (.dbgRstWarm req key) s = .next { s with out := [.done] })

/-- Partition resets by RST_CTRL and DBG_RST with their key, and by a channel's supervisory watchdog: outside an integrity halt
and a reset of the whole device, of a partition that exists. A cross-trigger on a replayed fault, source 7, is left aside, since
it acts on engines by a rule of its own. -/
def Obligations.PartitionResetsReachTheirPartitionOnly : Prop :=
  ∀ s : State, s.wf = true → s.clocks.halted = false → s.clocks.wide = 0 → NoTrigger 7 s →
    (∀ req (part : BitVec 5), part.toNat ≤ 20 → regGate s req 0x030000010008 4 true = .reach →
      Ends (.rstCtrlPartition req 0xA5 part) s fun t => PartReset RST_CAUSE_SOFT part.toNat s t) ∧
    (∀ req (part : BitVec 5), part.toNat ≤ 20 → regGate s req 0x0300000B0004 4 true = .reach →
      Ends (.dbgRstPartition req 0xA5 part) s fun t => PartReset RST_CAUSE_DEBUG part.toNat s t) ∧
    (∀ req (part : BitVec 5), 20 < part.toNat → regGate s req 0x030000010008 4 true = .reach →
      exec (.rstCtrlPartition req 0xA5 part) s = .next { s with out := [.done] }) ∧
    (∀ n : Ch, swdtRuns s n = true → Ends (.chWdt n) s fun t =>
      PartReset RST_CAUSE_CH_WDT (4 + n) ((s.put (CH_SWDT_COUNT_COUNT n) 0).putBit RST_CH_WDT_CH n true) t ∧
      t.bit RST_CH_WDT_CH n = true)

/-- Host-link resets, at the scope that the image locked: of PERST, of the link itself, of RST_CTRL with its key, while no reset
of the whole device is in progress. The release of PERST gives up WAKE_N and ends the assertion. -/
def Obligations.HostLinkResetsFollowTheLockedScope : Prop :=
  ∀ (s : State) (port : Port), s.wf = true → s.clocks.wide = 0 →
    (s.clocks.perst.contains port.val = false → Ends (.perstAssert port) s fun t =>
      HostLinkReset (if port = 0 then RST_CAUSE_PERST_A else RST_CAUSE_PERST_B) port s t ∧ t.clocks.perst.contains port.val = true) ∧
    Ends (.linkHot port) s (fun t => HostLinkReset RST_CAUSE_LINK_HOT port s t) ∧
    (∀ req, regGate s req 0x030000010008 4 true = .reach →
      Ends (.rstCtrlHostLink req 0xA5 port) s fun t => HostLinkReset RST_CAUSE_SOFT port s t ∧ t.out.getLast? = some .done) ∧
    (s.clocks.perst.contains port.val = true → s.bit PWR_MOORED_WAKE_EN (3 + port) = false →
      Ends (.perstRelease port) s fun t => t.clocks.perst.contains port.val = false ∧ t.power.wakeN = false ∧
        Frame [.clocks, .power] [] s t ∧ t.clocks = { s.clocks with perst := t.clocks.perst } ∧
        t.power = { s.power with wakeN := false })

/-- The order of the power-on timeline. RESET_N rising makes the straps due; they are sampled once, CLK_MODE 3 read as 0 with
CLK_RSVD. A domain is released only with a stable clock, good rails, RESET_N high and its partition not failed; then the checkers
pass, the memories are filled with zeros, and the reset ends. -/
def Obligations.ResetSequenceStepsInOrder : Prop :=
  ∀ s : State,
    (s.clocks.pinHeld = true → Ends .resetNRise s fun t => t.clocks = { s.clocks with pinHeld := false, strapDue := true } ∧ Frame [.clocks] [] s t) ∧
    (s.clocks.strapDue = true → ∀ (boot mode : Fin 4) (lo hi : Bool), Ends (.strapSample boot mode lo hi) s fun t =>
      t.get RST_STRAP_BOOT_SEL = boot.val ∧ t.get RST_STRAP_CLK_MODE = mode.val % 3 ∧ t.get CLK_REF_MODE = mode.val % 3 ∧
      t.get RST_STRAP_CLK_RSVD = (mode.val == 3).toNat ∧ t.get RST_STRAP_PULL_LO = lo.toNat ∧ t.get RST_STRAP_PULL_HI = hi.toNat ∧
      t.clocks = { s.clocks with strapDue := false } ∧
      Frame [.clocks] [RST_STRAP_CLK_RSVD, RST_STRAP_PULL_HI, RST_STRAP_PULL_LO, RST_STRAP_CLK_MODE, RST_STRAP_BOOT_SEL, CLK_REF_MODE] s t) ∧
    (∀ d : Fin 308, mayRelease s d = true → Ends (.domainResetRelease d) s fun t => t.clocks.released.contains d.val = true ∧
      (∀ e, e ≠ d.val → t.clocks.released.contains e = s.clocks.released.contains e) ∧ Frame [.clocks] [] s t) ∧
    (∀ d : Fin 308, clkStable s d = false ∨ s.clocks.rails = false ∨ s.clocks.pinHeld = true ∨ (∃ p, domainPart d = some p ∧ 4 ≤ p ∧ partFailed s p = true) →
      exec (.domainResetRelease d) s = .next { s with out := [] }) ∧
    (∀ p : Part, s.clocks.tested.contains p.val = false → someReleased s p = true → p.val < 20 →
      Ends (.checkerSelfTestDone p true) s (fun t => t.clocks.tested.contains p.val = true ∧ partFailed t p = false) ∧
      Ends (.checkerSelfTestDone p false) s (fun t => partFailed t p = true ∧ ∀ d ∈ resetDomains p, t.clocks.released.contains d = false)) ∧
    (someReleased s 20 = true → s.clocks.tested.contains 20 = false →
      Ends (.checkerSelfTestDone 20 true) s (fun t => t.clocks.tested.contains 20 = true ∧ t.clocks.alarm = s.clocks.halted ∧
        (s.security.keyDue = true → smGet 0 t.security.keys 0 = s.security.drawn + 1)) ∧
      Ends (.checkerSelfTestDone 20 false) s (fun t => t.clocks.stopped = true ∧ t.clocks.alarm = true ∧ Frame [.clocks] [] s t)) ∧
    (∀ p : Part, s.clocks.tested.contains p.val = true → s.clocks.filled.contains p.val = false → Ends (.memoryFillDone p) s fun t =>
      t.clocks.filled.contains p.val = true ∧ (4 ≤ p.val → Frame [.clocks, .onchip] [] s t ∧
        ∀ unit inst addr, unit < 2048 → inst < 128 → addr < 2 ^ 20 → 
          storedWord t p unit inst addr = (if unit = aonUnit ∨ (p.val < 20 ∧ unit = treeUnit) then storedWord s p unit inst addr else 0))) ∧
    (∀ p : Part, s.clocks.busy.contains p.val = true → s.clocks.filled.contains p.val = true ∨ incomplete s p = true →
      Ends (.partitionResetEnd p) s fun t => t.clocks.busy.contains p.val = false ∧ Frame [.clocks] [CFG_STATUS_STATE, CFG_STATUS_SOURCE] s t) ∧
    (∀ p : Part, Ends (.resetClockWaitTimeout p) s fun t =>
      (∀ d ∈ resetDomains p, d < 128 → s.clocks.released.contains d = false → clkStable s d = false →
        t.on (FAB_SEC_CAUSE_CLK_ALARM (d / 32) (d % 32)) = true) ∧ t.clocks = s.clocks)

/-! ## Clocks, the timestamp, islands and bundles -/

/-- The clock monitors. A clock found stable sets its bit of CLK_STABLE, and of a lane's recovered clock ends
the loss that held the lane in electrical idle. The loss of a stable clock clears the
bit, sets the bit of CLK_LOST, and freezes the domain: of an island with its clock alarm, of the hub with ALARM_N; of a lane's or
a quad's clock it raises the lanes' cause. The always-on crystal counts as good or falls back with its cause. -/
def Obligations.ClockMonitorsFreezeWhatLosesItsClock : Prop :=
  ∀ s : State,
    (∀ d : Fin 308, Ends (.clockStable d) s fun t => clkStable t d = true ∧ Frame [.lanes] [CLK_STABLE_STABLE (d / 32)] s t ∧
      t.lanes = { s.lanes with lost := s.lanes.lost.filter (fun l => clockLane d != some l) } ∧
      ∀ e : Fin 308, e ≠ d → clkStable t e = clkStable s e) ∧
    (∀ d : Fin 308, clkStable s d = true → d.val ≠ 185 → Ends (.clockLost d) s fun t =>
      clkStable t d = false ∧ t.bit (CLK_LOST_LOST (d / 32)) (d % 32) = true ∧
      (d.val < 188 → t.clocks.frozen.contains d.val = true) ∧
      (d.val < 128 → t.on (FAB_SEC_CAUSE_CLK_ALARM (d / 32) (d % 32)) = true) ∧
      (132 ≤ d.val → d.val < 180 → t.on (CH_CAUSE_CLK_ALARM ((d - 132) % 16)) = true) ∧
      (180 ≤ d.val → d.val < 188 → d.val ≠ 184 → t.clocks.alarm = true) ∧
      (188 ≤ d.val → (∀ l ∈ clockLanes d, t.bit (LANE_CAUSE l) 6 = true) ∧ t.clocks = s.clocks ∧
        ∀ l, l ∈ t.lanes.lost ↔ l ∈ s.lanes.lost ∨ clockLane d = some l)) ∧
    Ends .aonXtalStable s (fun t => t.on CLK_AON_XTAL_OK = true ∧ t.on CLK_AON_FALLBACK = false ∧ Frame [] [CLK_AON_XTAL_OK, CLK_AON_FALLBACK] s t) ∧
    (s.on CLK_AON_XTAL_OK = false → Ends .aonXtalTimeout s fun t => t.on CLK_AON_FALLBACK = true ∧ t.on CLK_AON_XTAL_FAIL = true ∧
      t.on RAS_CAUSE_AON_XTAL = true ∧ Alerted s t ∧
      Frame [.host] ([CLK_AON_XTAL_OK, CLK_AON_FALLBACK, CLK_AON_XTAL_FAIL, RAS_CAUSE_AON_XTAL] ++ alertFlds) s t) ∧
    (s.on CLK_AON_XTAL_OK = true → Ends .aonXtalDrift s fun t => t.on CLK_AON_XTAL_OK = false ∧ t.on CLK_AON_FALLBACK = true ∧
      t.on CLK_AON_XTAL_FAIL = true ∧ t.on RAS_CAUSE_AON_XTAL = true ∧ Alerted s t ∧
      Frame [.host] ([CLK_AON_XTAL_OK, CLK_AON_FALLBACK, CLK_AON_XTAL_FAIL, RAS_CAUSE_AON_XTAL] ++ alertFlds) s t)

/-- The timestamp across devices. A leader or follower sends its count when its low 20 bits are zero. A follower steps forward at
its first frame if it is behind, and otherwise slews by the difference, LOCKED while that is within the link's bound
(assumption 30). The fourth frame missed in a row is the loss of TIMESYNC. -/
def Obligations.TimesyncStepsOnceThenSlews : Prop :=
  ∀ s : State,
    (s.get CLK_TS_CTRL_MODE = 1 ∨ s.get CLK_TS_CTRL_MODE = 2 → s.clocks.ts % 2 ^ 20 = 0 →
      exec .timesyncFrameSend s = .next { s with out := [.timesync s.clocks.ts] }) ∧
    (s.get CLK_TS_CTRL_MODE = 2 → ∀ v : BitVec 64, Ends (.timesyncFrameReceive v) s fun t =>
      let diff : Int := (v.toNat + s.get CLK_TS_CTRL_DELAY : Nat) - (s.clocks.ts : Int)
      t.clocks.firstFrame = true ∧ t.clocks.missed = 0 ∧ Frame [.clocks] [CLK_TS_CTRL_LOCKED] s t ∧
      (s.clocks.firstFrame = false → 0 < diff → (t.clocks.ts : Int) = (s.clocks.ts + diff) % 2 ^ 64 ∧ t.clocks.slew = 0 ∧
        t.on CLK_TS_CTRL_LOCKED = true) ∧
      (s.clocks.firstFrame = true ∨ diff ≤ 0 → t.clocks.ts = s.clocks.ts ∧ (0 ≤ diff → t.clocks.slew = diff) ∧
        (diff < 0 → t.clocks.slew = 2 * diff) ∧ (t.on CLK_TS_CTRL_LOCKED = true ↔ (diff.natAbs : Int) ≤ syncBound s))) ∧
    (s.get CLK_TS_CTRL_MODE = 2 → s.clocks.missed < 3 → Ends .timesyncLost s fun t =>
      t.clocks = { s.clocks with missed := s.clocks.missed + 1 } ∧ Frame [.clocks] [] s t) ∧
    (s.get CLK_TS_CTRL_MODE = 2 → 3 ≤ s.clocks.missed → Ends .timesyncLost s fun t =>
      t.on CLK_TS_CTRL_LOCKED = false ∧ t.on CLK_TS_CTRL_LOST = true ∧ t.on RAS_CAUSE_TS_LOST = true ∧ Alerted s t ∧
      Frame [.clocks, .host] ([CLK_TS_CTRL_LOCKED, CLK_TS_CTRL_LOST, RAS_CAUSE_TS_LOST] ++ alertFlds) s t)

/-- Island frequencies. A write of CLK_ISL.FREQ of a leader takes the value, and PENDING where a higher voltage is needed, while the
generator runs on; it then moves in steps of 10 MHz towards its target and stands there. A sector that leads no island takes no
write. Gating, fences, user interrupts and bank voltages. island_gate gates its island while gating is armed and an edge reaches it; a
wake event ungates it. fabric_fence waits for the requests outstanding at its ports and then gives done. A user_irq line sets its
leaf on a rise, and nothing while its island gets no edge or is held. A bank in use whose
measured code is not the declared one enters mismatch, and leaves it when the voltage has been right again; while it is in mismatch a
new measurement raises nothing. -/
def Obligations.IslandFrequencyAndControls : Prop :=
  (∀ (s : State) (sec : Sec),
    (∀ req (f : BitVec 8), regGate s req (0x030000021000 + sec.val * 4) 4 true = .reach →
      (leaderOf s sec = sec.val → Ends (.freqWrite req sec f) s fun t =>
        t.get (CLK_ISL_FREQ sec) = f.toNat ∧ islandRuns t sec = islandRuns s sec ∧
        (t.on (CLK_ISL_PENDING sec) = needsVoltage s sec (max 5 f.toNat)) ∧ t.out = [.done] ∧
        Frame [.clocks, .power] [CLK_ISL_FREQ sec, CLK_ISL_PENDING sec] s t) ∧
      (leaderOf s sec ≠ sec.val → exec (.freqWrite req sec f) s = .next { s with out := [.done] })) ∧
    Ends (.islandFreqStep sec) s (fun t => Frame [.clocks] [] s t ∧ (∀ x, x ≠ sec.val → islandRuns t x = islandRuns s x) ∧
      (islandRuns s sec < islandTarget s sec → islandRuns t sec = islandRuns s sec + 1) ∧
      (islandTarget s sec < islandRuns s sec → islandRuns t sec = islandRuns s sec - 1) ∧
      (islandRuns s sec = islandTarget s sec → islandRuns t sec = islandRuns s sec))) ∧
  (∀ (s : State) (sec : Sec),
    (edgeReaches s sec = true → sectorHeld s (leaderOf s sec) = false →
      (s.fabric.unarmed.contains (leaderOf s sec) = false → Ends (.islandGate sec true) s fun t =>
        (∀ x ∈ membersOf s (leaderOf s sec), t.on (FAB_SEC_STATUS_GATED_USER (x / 32) (x % 32)) = true) ∧
        t.fabric.unarmed.contains (leaderOf s sec) = true ∧
        Frame [.fabric] ((membersOf s (leaderOf s sec)).map (fun x => FAB_SEC_STATUS_GATED_USER (x / 32) (x % 32))) s t) ∧
      (s.fabric.unarmed.contains (leaderOf s sec) = true → exec (.islandGate sec true) s = .next { s with out := [] }) ∧
      Ends (.islandGate sec false) s (fun t => t.fabric.unarmed.contains (leaderOf s sec) = false ∧ Frame [.fabric] [] s t) ∧
      (∀ ports : List Sec, (∀ e ∈ s.fabric.fences, e.1 ≠ sec.val) → Ends (.fabricFence sec ports) s fun t => Frame [.fabric] [] s t ∧
        ∃ f, t.fabric.fences.find? (·.1 == sec.val) = some (sec.val, f) ∧ f.err = false ∧
          f.waiting = outstandingAt s f.ports ∧ ∀ x, x ∈ f.ports ↔ (∃ p ∈ ports, p.val = x) ∧ leaderOf s x = leaderOf s sec)) ∧
    (∀ f, s.fabric.fences.find? (·.1 == sec.val) = some (sec.val, f) → edgeReaches s sec = true → f.waiting = [] →
      Ends (.fabricFenceDone sec) s fun t => t.out = [.fenceDone sec f.err] ∧ Frame [.fabric] [] s t ∧
        ∀ e ∈ t.fabric.fences, e.1 ≠ sec.val) ∧
    Ends (.islandWake sec) s (fun t =>
      (∀ x ∈ membersOf s (leaderOf s sec), t.on (FAB_SEC_STATUS_GATED_USER (x / 32) (x % 32)) = false) ∧
      (s.get (PWR_PART_STATE (sec / 32)) = 2 → t.get (PWR_PART_STATE (sec / 32)) = 3) ∧
      Frame [.power] (PWR_PART_STATE (sec / 32) :: (membersOf s (leaderOf s sec)).map (fun x => FAB_SEC_STATUS_GATED_USER (x / 32) (x % 32))) s t) ∧
    (edgeReaches s sec = false ∨ sectorHeld s sec = true → ∀ lines, exec (.userIrq sec lines) s = .next s.begin) ∧
    (edgeReaches s sec = true → sectorHeld s sec = false → ∀ lines : BitVec 4, Ends (.userIrq sec lines) s fun t =>
      (∀ i < 4, t.bit (FAB_SEC_CAUSE_USER (sec / 32) (sec % 32)) i =
        (s.bit (FAB_SEC_CAUSE_USER (sec / 32) (sec % 32)) i || (lines.getLsbD i && !(smGet 0 s.fabric.irqPrev sec).testBit i))) ∧
      smGet 0 t.fabric.irqPrev sec = lines.toNat ∧ Alerted s t ∧
      Frame [.fabric, .host] (FAB_SEC_CAUSE_USER (sec / 32) (sec % 32) :: alertFlds) s t) ∧
    (∀ (k : Fin 12) (det : BitVec 3), s.get (FAB_BANK_STATUS_VCCIO_IMG (k / 3) (k % 3)) ≠ 0 →
      s.get (FAB_BANK_STATUS_VCCIO_IMG (k / 3) (k % 3)) ≠ det.toNat →
      (s.on (FAB_BANK_STATUS_MISMATCH (k / 3) (k % 3)) = true → Ends (.bankVccioMismatch k det) s fun t =>
        t.get (FAB_BANK_STATUS_VCCIO_DET (k / 3) (k % 3)) = det.toNat ∧ t.out = [] ∧ Frame [] [FAB_BANK_STATUS_VCCIO_DET (k / 3) (k % 3)] s t) ∧
      (s.on (FAB_BANK_STATUS_MISMATCH (k / 3) (k % 3)) = false → Ends (.bankVccioMismatch k det) s fun t =>
      t.on (FAB_BANK_STATUS_MISMATCH (k / 3) (k % 3)) = true ∧ t.get (FAB_BANK_STATUS_VCCIO_DET (k / 3) (k % 3)) = det.toNat ∧
      t.on (FAB_SEC_CAUSE_BANK (k / 3) (bankOwner k % 32)) = true ∧ Alerted s t ∧
      Frame [.host] ([FAB_BANK_STATUS_MISMATCH (k / 3) (k % 3), FAB_BANK_STATUS_VCCIO_DET (k / 3) (k % 3),
        FAB_SEC_CAUSE_BANK (k / 3) (bankOwner k % 32)] ++ alertFlds) s t)) ∧
    (∀ k : Fin 12, s.get (FAB_BANK_STATUS_VCCIO_IMG (k / 3) (k % 3)) ≠ 0 → Ends (.bankVccioRestore k) s fun t => t.on (FAB_BANK_STATUS_MISMATCH (k / 3) (k % 3)) = false ∧
      Frame [] [FAB_BANK_STATUS_MISMATCH (k / 3) (k % 3), FAB_BANK_STATUS_VCCIO_DET (k / 3) (k % 3)] s t))

/-- Bundles. A streaming bundle accepts a value, cut to its width, while fewer than four are in transit and refuses it at four; a
state bundle takes every value (assumption 32). The oldest value in transit arrives at an edge of the destination, where a state
bundle keeps it as its level; while the clock there does not run, the value of a state bundle waits for it. A value sent towards a destination that is not up is lost, and accepted where that is
in reset, failed, frozen or being reconfigured; towards one that waits in HELD it is not accepted. A bundle that no image declares is a fault of the model. -/
def Obligations.BundlesCarryValuesInOrder : Prop :=
  ∀ (s : State) (b : Nat),
    (s.clocks.bundles.find? (·.1 == b) = none →
      (∀ v, exec (.streamBundleAccept b v) s = .fault .noSuchUnit) ∧ exec (.bundleValueArrive b) s = .fault .noSuchUnit) ∧
    (∀ x, s.clocks.bundles.find? (·.1 == b) = some (b, x) →
      (∀ v, sectorUp s x.src = true → edgeReaches s x.src = true → sectorUp s x.dst = true →
        (x.transit.length < 4 ∨ x.stream = false → Ends (.streamBundleAccept b v) s fun t =>
          t.clocks.bundles.find? (·.1 == b) = some (b, { x with transit := x.transit ++ [cutTo x.width v] }) ∧ Frame [.clocks] [] s t ∧
          t.out = if x.stream then [.accepted true] else []) ∧
        (4 ≤ x.transit.length → x.stream = true → exec (.streamBundleAccept b v) s = .next { s with out := [.accepted false] })) ∧
      (∀ v, sectorUp s x.src = true → edgeReaches s x.src = true → sectorUp s x.dst = false →
        exec (.streamBundleAccept b v) s = .next { s with out := if x.stream then [.accepted (readyUnheard s x.dst)] else [] }) ∧
      (∀ v rest, x.transit = v :: rest → sectorUp s x.dst = true → edgeReaches s x.dst = true → Ends (.bundleValueArrive b) s fun t =>
        t.clocks.bundles.find? (·.1 == b) = some (b, { x with transit := rest, level := if x.stream then x.level else v, arrived := none }) ∧
        t.out = [.present b v.toNat] ∧ Frame [.clocks] [] s t) ∧
      (∀ v rest, x.transit = v :: rest → x.stream = false → sectorUp s x.dst = true → edgeReaches s x.dst = false → Ends (.bundleValueArrive b) s fun t =>
        t.clocks.bundles.find? (·.1 == b) = some (b, { x with transit := rest, arrived := some v }) ∧ t.out = [] ∧
        (wakesOnRise s b (x.arrived.getD x.level) v = true → t.on (FAB_SEC_STATUS_GATED_USER (x.dst / 32) (x.dst % 32)) = false) ∧
        Frame [.clocks] ((membersOf s (leaderOf s x.dst)).map (fun x => FAB_SEC_STATUS_GATED_USER (x / 32) (x % 32))) s t) ∧
      (∀ v rest, x.transit = v :: rest → sectorUp s x.dst = false → Ends (.bundleValueArrive b) s fun t =>
        t.clocks.bundles.find? (·.1 == b) = some (b, { x with transit := rest }) ∧ t.out = [] ∧ Frame [.clocks] [] s t))

/-- A delivered edge of an island. Nothing happens where no edge reaches it. Else every block of the island computes from its 48
inputs, of which local feedback carries the block's own outputs once the levels have settled, and presents its s outputs and its
registered outputs, whose registers the mode rules of R69 and R70 update, or GSR holds at their initial values; every MAC block that
is not held in GSR accumulates as R75 says; a byte written through port A of a memory is stored with its check bits; a write-back
due in the island is made on its next edge. Blocks and MAC
blocks of other islands do not see the edge. -/
def Obligations.IslandCycleUpdatesItsElements : Prop :=
  ∀ (s : State) (sec : Sec),
    (∀ bl ma me ba la, edgeReaches s sec = false → exec (.islandCycle sec bl ma me ba la) s = .next { s with out := [] }) ∧
    (edgeReaches s sec = true → ∀ (b : BlockEdge) (routes : List Route), leaderOf s b.sec = leaderOf s sec → b.col.val % 7 ≠ 6 →
      b.cells.length ≤ 24 → s.onchip.due = [] → Ends (.islandCycle sec ⟨[b], routes, []⟩ [] [] [] []) s fun t =>
        let n := network (edgeBegins s sec) ⟨[b], routes, []⟩ [] []
        (∀ m c, b.cells[m]? = some c → ∀ o, (blockOuts n b)[m]? = some o →
          cellQ t b c m = cellNext b (blockInputs n b) c (gsrAsserted s b.sec) o.s (cellQ s b c m)) ∧
        (n.tab ≠ [] → ∀ i < 48, ∀ m reg, b.ins[i]? = some (.own m reg) →
          (blockInputs n b).getLsbD i = (blockValue n b).testBit (if reg then 25 + m.val else m.val)) ∧
        t.onchip.bytes = s.onchip.bytes ∧ Frame [.clocks, .fabric, .onchip, .debug, .freeCtr] [] s t) ∧
    (edgeReaches s sec = true → ∀ (e : MacEdge), leaderOf s e.sec = leaderOf s sec → s.onchip.due = [] →
      Ends (.islandCycle sec ⟨[], [], []⟩ [e] [] [] []) s fun t =>
        (gsrAsserted s e.sec = true → smGet {} t.fabric.macs (e.sec.val * 48 + e.idx.val) = {}) ∧
        (gsrAsserted s e.sec = false → e.ce = true → e.regIn = false → e.regProd = false → e.regOut = true →
          (e.inp.clr = true → (smGet {} t.fabric.macs (e.sec.val * 48 + e.idx.val)).p = 0) ∧
          (e.inp.clr = false → e.inp.load = true → (smGet {} t.fabric.macs (e.sec.val * 48 + e.idx.val)).p = e.inp.c) ∧
          (e.inp.clr = false → e.inp.load = false → e.inp.sub = false → e.inp.addend = .acc → e.aSigned = true → e.bSigned = true →
            ((smGet {} t.fabric.macs (e.sec.val * 48 + e.idx.val)).p).toInt =
              ((smGet {} s.fabric.macs (e.sec.val * 48 + e.idx.val)).p.toInt + e.inp.a.toInt * e.inp.b.toInt).bmod (2 ^ 64))) ∧
        Frame [.fabric, .debug] [] s t) ∧
    (edgeReaches s sec = true → ∀ (e : MemEdge), leaderOf s e.sec = leaderOf s sec → e.mode = .single → e.width = 0 →
      s.fabric.wrReleased.contains e.sec.val = true → e.a.read = false → e.a.be.getLsbD 0 = true →
      Ends (.islandCycle sec ⟨[], [], []⟩ [] [e] [] []) s fun t =>
        storedWord t (e.sec / 32) (e.sec % 32) e.inst (e.a.addr % memDepth e) = encodeByte (e.a.data.setWidth 8)) ∧
    (edgeReaches s sec = true → ∀ (b : BlockEdge) (e : MacEdge), leaderOf s b.sec ≠ leaderOf s sec → leaderOf s e.sec ≠ leaderOf s sec →
      Ends (.islandCycle sec ⟨[b], [], []⟩ [e] [] [] []) s fun t => t.fabric.cells = s.fabric.cells ∧ t.fabric.macs = s.fabric.macs ∧
        (∀ x c r v q, Out.block x c r v q ∉ t.out) ∧ ∀ x i v o, Out.mac x i v o ∉ t.out)

/-! ## On-chip memories -/

/-- A read of a byte whose stored word is validly coded. With no bit upset it returns the byte. With one of its 13 bits upset it
still returns the byte, unpoisoned, and where a write-back may be made one becomes due with the corrected word. With two upset
it returns a poisoned byte and logs it. Of Patina's tree memory the data are a free value and the rest holds too, since where its
contents stand in it is not stated (assumption 11). A write-back stores the corrected word at its edge, unless a user writes the byte there, whose word then stands, or a rule of
R97 forbids it or has come up since the read; either way it is no longer due and the correction is counted. -/
def Obligations.MemoryReadsCorrectPoisonAndWriteBack : Prop :=
  ((∀ (s : State) (p : Part) (unit : Fin 2048) (inst : Fin 128) (addr : Fin 1048576) (d : Byte) (rom cfg : Bool),
    addr.val < memSize p unit inst → unit.val ≠ treeUnit → storedWord s p unit inst addr = encodeByte d →
    Ends (.onchipMemoryRead p unit inst addr 0 rom cfg none) s (fun t => t.out = [.memByte d.toNat false] ∧
      storedWord t p unit inst addr = encodeByte d ∧ Frame [.onchip] [] s t ∧ t.onchip.due = s.onchip.due) ∧
    (∀ i < 13, Ends (.onchipMemoryRead p unit inst addr (BitVec.ofNat 13 (2 ^ i)) rom cfg none) s fun t =>
      t.out.getLast? = some (.memByte d.toNat false) ∧
      (noWriteBack s p unit rom cfg false = none → s.onchip.due.any (·.isAt p unit inst addr) = false →
        ∃ b ∈ t.onchip.due, b.isAt p unit inst addr = true ∧ b.word = encodeByte d ∧ Frame [.onchip] [] s t) ∧
      (∀ case, noWriteBack s p unit rom cfg false = some case → t.onchip.due = s.onchip.due ∧
        (s.get (RAS_CE_COUNT_COUNT p) + 1 < 2 ^ (RAS_CE_COUNT_COUNT p).w → t.get (RAS_CE_COUNT_COUNT p) = s.get (RAS_CE_COUNT_COUNT p) + 1))) ∧
    (∀ i < 13, ∀ j < i, Ends (.onchipMemoryRead p unit inst addr (BitVec.ofNat 13 (2 ^ i + 2 ^ j)) rom cfg none) s fun t =>
      (∃ v, t.out.getLast? = some (.memByte v true)) ∧ t.get (RAS_UE_LOG_ADDR p) = addr.val ∧
      t.onchip.due = s.onchip.due)) ∧
  (∀ (s : State) (p : Part) (inst : Fin 128) (addr : Fin 1048576) (d : Byte) (rom cfg : Bool),
    4 ≤ p.val → addr.val < memSize p treeUnit inst → storedWord s p treeUnit inst addr = encodeByte d →
    Ends (.onchipMemoryRead p 68 inst addr 0 rom cfg none) s (fun t =>
      t.out = [.memByte ((Config.freeWord s.freeCtr).toNat % 256) false] ∧
      storedWord t p treeUnit inst addr = encodeByte d ∧ Frame [.onchip, .freeCtr] [] s t ∧ t.onchip.due = s.onchip.due) ∧
    (∀ i < 13, Ends (.onchipMemoryRead p 68 inst addr (BitVec.ofNat 13 (2 ^ i)) rom cfg none) s fun t =>
      (∃ v, t.out.getLast? = some (.memByte v false)) ∧
      (noWriteBack s p treeUnit rom cfg false = none → s.onchip.due.any (·.isAt p treeUnit inst addr) = false →
        ∃ b ∈ t.onchip.due, b.isAt p treeUnit inst addr = true ∧ b.word = encodeByte d)) ∧
    (∀ i < 13, ∀ j < i, Ends (.onchipMemoryRead p 68 inst addr (BitVec.ofNat 13 (2 ^ i + 2 ^ j)) rom cfg none) s fun t =>
      (∃ v, t.out.getLast? = some (.memByte v true)) ∧ t.get (RAS_UE_LOG_ADDR p) = addr.val ∧
      t.on (CH_CAUSE_MEM_UE (p - 4)) = true))) ∧
  (∀ (s : State) (p : Part) (unit : Fin 2048) (inst : Fin 128) (addr : Fin 1048576) (b : WriteBack),
    memoryEdge s p unit = true → addr.val < memSize p unit inst → s.onchip.due.find? (·.isAt p unit inst addr) = some b →
    Ends (.memoryWriteBack p unit inst addr none) s (fun t =>
      (b.case = 0 → noWriteBack s p unit false false false = none → storedWord t p unit inst addr = b.word) ∧
      (b.case ≠ 0 ∨ noWriteBack s p unit false false false ≠ none → storedWord t p unit inst addr = storedWord s p unit inst addr) ∧
      t.onchip.due.any (·.isAt p unit inst addr) = false ∧
      (s.get (RAS_CE_COUNT_COUNT p) + 1 < 2 ^ (RAS_CE_COUNT_COUNT p).w → t.get (RAS_CE_COUNT_COUNT p) = s.get (RAS_CE_COUNT_COUNT p) + 1)) ∧
    (∀ d : Byte, Ends (.memoryWriteBack p unit inst addr (some d)) s fun t =>
      storedWord t p unit inst addr = encodeByte d ∧ t.onchip.due.any (·.isAt p unit inst addr) = false))

/-- The watchers of the memories. A write to RAS_SLAG_VALID frees the entries it names. A step of Flux over validly coded bytes
changes none and moves every position on, counting a pass at its end. The configuration scrubber repairs a byte of its frame
with one bit upset, counts it and moves on. Lateness is a cause. A checker test runs from GO to its end. -/
def Obligations.MemoryWatchersRepairAndCount : Prop :=
  ∀ s : State,
    (∀ req (p : Part) (mask : Word), regGate s req (0x0300000D0400 + p.val * 4) 4 true = .reach →
      Ends (.slagEntryFree req p mask) s fun t => t.out = [.done] ∧
        (∀ e < 32, t.bit (RAS_SLAG_VALID_VALID p) e = (s.bit (RAS_SLAG_VALID_VALID p) e && !mask.getLsbD e)) ∧
        (∀ e < 32, mask.getLsbD e = true → t.get (RAS_SLAG_COUNT p e) = 0 ∧ t.get (RAS_SLAG_ADDR p e) = 0) ∧
        Frame [] (RAS_SLAG_VALID_VALID p :: (List.range 32).flatMap (fun e => [RAS_SLAG_UNIT p e, RAS_SLAG_INSTANCE p e, RAS_SLAG_AON p e,
          RAS_SLAG_CASE p e, RAS_SLAG_ADDR p e, RAS_SLAG_COUNT p e, RAS_SLAG_SYN p e, RAS_SLAG_TS_LO p e, RAS_SLAG_TS_HI p e])) s t) ∧
    (∀ p : Part, fluxActive s p = true → (∀ e ∈ s.onchip.bytes, ∃ d, e.2 = encodeByte d) → (s.onchip.bytes.map Prod.fst).Nodup → s.onchip.wild = [] →
      Ends (.fluxStep p [] []) s fun t => t.onchip.bytes = s.onchip.bytes ∧ t.onchip.due = s.onchip.due ∧
        smGet 0 t.onchip.fluxTotal p = smGet 0 s.onchip.fluxTotal p + 1 ∧
        (smGet 0 s.onchip.fluxSteps p + 1 = passSteps p →
          t.get (RAS_FLUX_STATUS_PASSES p) = (s.get (RAS_FLUX_STATUS_PASSES p) + 1) % 2 ^ (RAS_FLUX_STATUS_PASSES p).w ∧
          smGet 0 t.onchip.fluxSteps p = 0) ∧
        Frame [.onchip] [RAS_FLUX_STATUS_PASSES p] s t) ∧
    (∀ p : Part, Ends (.fluxLate p) s fun t => t.on (RAS_FLUX_STATUS_LATE p) = true ∧ t.on RAS_CAUSE_FLUX_LATE = true ∧ Alerted s t ∧
      Frame [.host] ([RAS_FLUX_STATUS_LATE p, RAS_CAUSE_FLUX_LATE] ++ alertFlds) s t) ∧
    (∀ (sec : Sec) (byte : Fin 512) (i : Nat), scrubs s sec = true → i < 13 → (∀ k, ∃ d, smGet 0 s.onchip.frames k = encodeByte d) →
      s.get RAS_CFG_CE_COUNT + 1 < 2 ^ RAS_CFG_CE_COUNT.w →
      Ends (.cfgScrubFrame sec [(byte, BitVec.ofNat 13 (2 ^ i))]) s fun t => (∀ k, smGet 0 t.onchip.frames k = smGet 0 s.onchip.frames k) ∧
        t.get RAS_CFG_CE_COUNT = s.get RAS_CFG_CE_COUNT + 1 ∧
        smGet 0 t.onchip.scrubPos sec = (smGet 0 s.onchip.scrubPos sec + 1) % 10496 ∧ Frame [.onchip] [RAS_CFG_CE_COUNT] s t) ∧
    (∀ req (part : BitVec 5), regGate s req 0x0300000D0010 4 true = .reach → s.on RAS_CHK_TEST_BUSY = false →
      Ends (.checkerTestGo req part) s fun t => t.get RAS_CHK_TEST_PART = part.toNat ∧
        (t.on RAS_CHK_TEST_BUSY = true ↔ part.toNat ≤ 20) ∧
        (part.toNat ≤ 20 → ∀ u ∈ fluxUnits part.toNat, u ≠ aonUnit → inShadow t part.toNat u = isTestable s part.toNat u) ∧ Frame [.onchip] [RAS_CHK_TEST_PART, RAS_CHK_TEST_BUSY] s t) ∧
    (∀ fail, s.on RAS_CHK_TEST_BUSY = true → Ends (.checkerTestDone fail) s fun t => t.on RAS_CHK_TEST_BUSY = false ∧
      (fail = true → t.on RAS_CHK_TEST_FAIL = true ∧ t.on RAS_CAUSE_CHK_FAIL = true) ∧
      (s.onchip.chkSkipped = true → t.on RAS_CHK_TEST_SKIPPED = true) ∧ Alerted s t ∧ (∀ p unit, inShadow t p unit = false) ∧
      t.onchip = { s.onchip with chkLeft := [] } ∧
      Frame [.host, .onchip] ([RAS_CHK_TEST_BUSY, RAS_CHK_TEST_FAIL, RAS_CHK_TEST_SKIPPED, RAS_CAUSE_CHK_FAIL] ++ alertFlds) s t) ∧
    (∀ page k ue, runs s 180 = true → s.power.moored = false → ue = true ∨ 40 < k → Ends (.nvPageScrub (page, k) ue) s fun t => t.on CFG_CAUSE_NV_UE = true ∧ Alerted s t ∧
      (s.get CFG_NV_STATUS_UE_PAGES + 1 < 2 ^ CFG_NV_STATUS_UE_PAGES.w → t.get CFG_NV_STATUS_UE_PAGES = s.get CFG_NV_STATUS_UE_PAGES + 1) ∧
      t.config = { s.config with badPages := setAdd s.config.badPages page } ∧
      Frame [.host, .config] ([CFG_NV_STATUS_UE_PAGES, CFG_CAUSE_NV_UE] ++ alertFlds) s t)

/-! ## Configuration -/

/-- The steps of a full load. A slot whose LEN is 0 fails with 0x06, a page that cannot be read with 0x13; the header waits for the
stream to bring it. The header check passes to step 2 or fails with the cause of the first check of step 1 that does not hold: a
wrong magic 0x01, a wrong version 0x02. The signature check holds the fabric and clears it, or fails with 0x07 for an owner slot that
is not programmed or is revoked, 0x08 for other keys than its digest names, 0x09 and 0x0A for a bad signature, 0x0B for wrong digests
of the header. A good FRAMES record writes its frames with check bits, a SETTING record of an image field is kept, an END record
ends the payload; a bad one, a MEM record and any record behind END fail with 0x0D. The final checks fail with 0x0E to 0x12 or 0x16, or
the image takes effect and start-up begins. -/
def Obligations.FullLoadStepsThroughItsChecks : Prop :=
  ∀ (s : State) (l : Load), s.config.load = some l → l.isPart = false → NoClear s →
    (∀ head err, l.phase = 2 →
      (slotEmpty s l = true → Ends (.loadHeaderCheck head err) s fun t => LoadFailed l 0x06 s t) ∧
      (slotEmpty s l = false → l.inStore = true →
        (Readable l 0 0x2000 s → (headerCause s l (parseHeader (storeNum s l.addr 0x2000)) = none → Ends (.loadHeaderCheck head .good) s fun t =>
            t.get CFG_STATUS_STATE = 3 ∧ t.config.load = some { l.withHeader s (storeNum s l.addr 0x2000) with phase := 3 } ∧
            Frame [.config] [CFG_STATUS_STATE, CFG_STATUS_DEGRADED] s t) ∧
          (∀ c, headerCause s l (parseHeader (storeNum s l.addr 0x2000)) = some c → Ends (.loadHeaderCheck head .good) s fun t => LoadFailed l c s t)) ∧
        (∀ p, Ends (.loadHeaderCheck head (.badPage p)) s fun t => LoadFailed l 0x13 s t ∧ t.on CFG_CAUSE_NV_UE = true ∧
          t.config.badPages.contains p.val = true)) ∧
      (l.inStore = false → l.src = 3 ∨ l.src = 4 → s.config.stream.len < 0x2000 →
        Ends (.loadHeaderCheck head .good) s fun t => Frame [] [] s t) ∧
      (l.inStore = false → l.src = 3 ∨ l.src = 4 → 0x2000 ≤ s.config.stream.len →
        (headerCause s l (parseHeader (s.config.stream.bits % 2 ^ 65536)) = none → Ends (.loadHeaderCheck head .good) s fun t =>
          t.get CFG_STATUS_STATE = 3 ∧ t.config.load = some { l.withHeader s (s.config.stream.bits % 2 ^ 65536) with phase := 3 } ∧
          t.config.stream = ⟨s.config.stream.len - 0x2000, s.config.stream.bits / 2 ^ 65536⟩ ∧
          Frame [.config] [CFG_STATUS_STATE, CFG_STATUS_DEGRADED] s t))) ∧
    (∀ h : ImgHeader, (h.magic ≠ 0x474D493944585A55#64 → headerCause s l h = some 0x01) ∧
      (h.magic = 0x474D493944585A55#64 → h.verMajor ≠ 1#16 → headerCause s l h = some 0x02)) ∧
    (∀ sig, l.phase = 3 → l.signed = false →
      (signatureCause s l.head sig = none → l.kind = 1 → Ends (.loadSignaturesDone sig) s fun t =>
        t.get CFG_STATUS_STATE = (if s.onchip.frames.isEmpty then 4 else 6) ∧
        t.config.loading = true ∧ t.config.startups = [] ∧ t.config.doneLow = true ∧ (∀ x < 128, sectorHeld t x = true) ∧
        (∀ k, k / 512 / 12288 < 128 → smGet 0 t.onchip.frames k = 0) ∧ t.get CFG_IMG_DIES = 0 ∧ t.clocks.bundles = [] ∧
        t.config.load = some { l with signed := true, phase := 4 }) ∧
      (∀ c, signatureCause s l.head sig = some c → Ends (.loadSignaturesDone sig) s fun t => LoadFailed l c s t)) ∧
    (∀ head sig, let o := headField head 0x300 1
      (s.on (SEC_OWNER_PROGRAMMED o) = false ∨ s.on (SEC_OWNER_REVOKED o) = true → signatureCause s head sig = some 0x07) ∧
      (o < 4 → s.on (SEC_OWNER_PROGRAMMED o) = true → s.on (SEC_OWNER_REVOKED o) = false →
        (keyDigest head ≠ smGet 0 s.security.digests o → signatureCause s head sig = some 0x08) ∧
        (keyDigest head = smGet 0 s.security.digests o → (sig.ed = false → signatureCause s head sig = some 0x09) ∧
          (sig.ed = true → sig.mldsa = false → signatureCause s head sig = some 0x0A) ∧
          (sig.ed = true → sig.mldsa = true → headerDigestsGood head = false → signatureCause s head sig = some 0x0B)))) ∧
    (l.phase = 4 → l.total = none → l.kind = 1 →
      (∀ (a n : Word) (data : List Byte), badFrames 1 a.toNat n.toNat 0 l.dies = false → data.length = n.toNat * 512 →
        Readable l (0x2000 + l.pos) (16 + n.toNat * 512) s →
        partFailed s (addrSector a.toNat / 32) = false → Ends (.framesRecord 1 a n 0 data .good) s fun t =>
          (∀ i b, data[i]? = some b → smGet 0 t.onchip.frames (frameKey (addrSector a.toNat) (slice a.toNat 11 14) 0 + i) = encodeByte b) ∧
          t.config.load = some { l.took (n.toNat * 512) with written := l.written + n.toNat } ∧ Frame [.config, .onchip] [] s t) ∧
      (∀ (w0 a n w3 : Word) (data : List Byte), badFrames w0.toNat a.toNat n.toNat w3.toNat l.dies = true →
        Readable l (0x2000 + l.pos) (16 + n.toNat * 512) s → Ends (.framesRecord w0 a n w3 data .good) s fun t => LoadFailed l 0x0D s t) ∧
      (Readable l (0x2000 + l.pos) 16 s → (∀ off v : Word, l.settings.length < 64 → off.toNat < 0x4000000 → imageFields (0x030000000000 + off.toNat) 0 ≠ [] →
          Ends (.settingRecord 2 off v 0) s fun t => t.config.load = some { l.took 0 with settings := l.settings ++ [(off.toNat, v.toNat)] } ∧
            Frame [.config] [] s t) ∧
        (∀ n : Word, (l.pos + 32 = l.payloadLen → Ends (.endRecord 0x0F n 0 0) s fun t =>
            t.config.load = some { l.took 0 with total := some n.toNat, phase := 5 } ∧ t.get CFG_STATUS_STATE = 5 ∧ Frame [.config] [CFG_STATUS_STATE] s t) ∧
          (l.pos + 32 ≠ l.payloadLen → Ends (.endRecord 0x0F n 0 0) s fun t => LoadFailed l 0x0D s t))) ∧
      (∀ w0 r, Readable l (0x2000 + l.pos) (16 + r.word2.toNat) s → Ends (.memRecord w0 r .good) s fun t => LoadFailed l 0x0D s t)) ∧
    (l.phase = 4 → l.total = none → l.kind = 3 → ∀ r, bamidRecordGood r = true → r.word1.toNat / 2 ^ 28 = 0 →
      Readable l (0x2000 + l.pos) (16 + r.word2.toNat) s → r.data.length = r.word2.toNat → Ends (.memRecord 4 r .good) s fun t =>
        (∀ i b, r.data[i]? = some b → storedWord t 20 (r.word3.toNat % 64) 0 (r.word1.toNat % 2 ^ 28 + i) = encodeByte b) ∧
        t.config.load = some (l.took r.word2.toNat) ∧ Frame [.config, .onchip] [] s t) ∧
    (l.phase = 5 → l.total.isSome = true → ∀ w0 a b c : Word, Readable l (0x2000 + l.pos) 16 s →
      Ends (.settingRecord w0 a b c) s fun t => LoadFailed l 0x0D s t) ∧
    (l.phase = 5 → Come l 16 s → ∀ tag sha shake d,
      (finalCause l tag sha shake d = none → l.kind = 1 → Ends (.loadFinalChecks tag sha shake d) s fun t =>
        t.get CFG_STATUS_STATE = 7 ∧ t.config.loading = false ∧ t.config.load = none ∧ t.get CFG_IMG_DIES = l.dies % 2 ^ CFG_IMG_DIES.w ∧
        (∀ x ∈ loadSectors s l, t.on (FAB_SEC_STATUS_CONFIGURED (x / 32) (x % 32)) = true) ∧
        (∃ u, t.startup 0 = some u ∧ u.step = 0 ∧ u.locked = false ∧ u.go = false ∧ u.due = []) ∧
        (∀ w < 16, t.get (CFG_MEAS_MEAS w) = slice (measureOf l.head) (32 * w) 32) ∧
        t.clocks.bundles = d.bundles.foldl addBundle [] ∧ t.config.imgBundles = d.bundles.foldl addBundle []) ∧
      (∀ c, finalCause l tag sha shake d = some c → Ends (.loadFinalChecks tag sha shake d) s fun t => LoadFailed l c s t) ∧
      (l.kind = 1 → l.total = some l.written → l.frameCount = l.written →
        finalCause l false sha shake d = some 0x10 ∧ (sha.toNat ≠ payloadSha l.head → finalCause l true sha shake d = some 0x11) ∧
        (sha.toNat = payloadSha l.head → shake.toNat ≠ payloadShake l.head → finalCause l true sha shake d = some 0x12) ∧
        (sha.toNat = payloadSha l.head → shake.toNat = payloadShake l.head → fullAgrees d = false → finalCause l true sha shake d = some 0x16)))

/-- Where loads begin and how their sources end them. After a reset that abandoned a load the boot order starts again. Bamid's first
good copy is written, measured, and its engines run; with both bad BAMID_FAIL is set. A write of the host to the aperture starts the stream
and its bytes are counted and kept, a misshapen one fails it with 0x0D, and one that finds the ring full is held; the stream fails
with 0x0F when it stops though the ring has room, and with 0x14 when it is aborted; the debug port's fails with 0x0F. A port whose
image is late answers as absent in its other functions, unless a start-up has been completed. -/
def Obligations.LoadSourcesBeginAndTimeOut : Prop :=
  ∀ s : State,
    (s.config.restart = true → s.clocks.busy = [] → s.config.bamidDue = false → s.config.reload = false → Ends .loadRestartAfterReset s fun t =>
      t.config.restart = false ∧ Attempts ((bootOrder s).headD 3) t) ∧
    (s.config.bamidDue = true → s.clocks.busy.contains 20 = false → runs s 186 = true → runs s 183 = true → ∀ a b,
      Ends (.bamidLoad a b) s fun t => t.config.bamidDue = false ∧
        (∀ s1, s1 = (s.begin.onConfig (fun c => { c with bamidDue := false })).puts [(CFG_STATUS_STATE, 1), (CFG_STATUS_SOURCE, 6)] →
          (tryBamid 0 a s1).1 = none → t.on CFG_STATUS_BAMID_FAIL = false ∧
            (∀ g ∈ hubEngines, t.get (ENG_STATUS_STATE g) = 1 ∧ t.on (ENG_CTRL_RUN g) = true)) ∧
        (a.checks.read = .failed → b.checks.read = .failed → t.on CFG_STATUS_BAMID_FAIL = true ∧ t.on CFG_CAUSE_FAIL = true ∧
          t.get CFG_STATUS_CAUSE = 0x13)) ∧
    (∀ (off : Nat) (data : List Byte), regGate s (.host 0 0) 0x030000048000 4 true = .reach →
      (s.config.waitSrc = some 3 → s.config.load = none → hostLoading s = false → off % 4 = 0 → data.length % 4 = 0 → data ≠ [] →
        data.length ≤ streamRoom → Ends (.hostLoadWrite (.host 0 0) off data) s fun t => hostLoading t = true ∧ t.out = [.done] ∧
          t.config.load = some { src := 3, isPart := false } ∧ t.config.stream = ⟨data.length, fromBytes data⟩ ∧ t.config.waitSrc = none ∧
          t.get CFG_HLOAD_COUNT_BYTES = data.length ∧ t.get CFG_STATUS_STATE = 2 ∧
          Frame [.config] [CFG_STATUS_SOURCE, CFG_HLOAD_CTRL_WAITING, CFG_HLOAD_CTRL_ACTIVE, CFG_HLOAD_COUNT_BYTES, CFG_STATUS_STATE] s t) ∧
      (s.config.waitSrc = none → hostLoading s = true →
        (ringFull s data.length = true → Ends (.hostLoadWrite (.host 0 0) off data) s fun t => t.out = [.held] ∧ Frame [] [] s t) ∧
        (ringFull s data.length = false → off % 4 = 0 → data.length % 4 = 0 → data ≠ [] →
          Ends (.hostLoadWrite (.host 0 0) off data) s fun t => t.out = [.done] ∧
            t.config.stream = ⟨s.config.stream.len + data.length, s.config.stream.bits + fromBytes data * 2 ^ (8 * s.config.stream.len)⟩ ∧
            t.get CFG_HLOAD_COUNT_BYTES = (s.get CFG_HLOAD_COUNT_BYTES + data.length) % 2 ^ CFG_HLOAD_COUNT_BYTES.w ∧
            Frame [.config] [CFG_HLOAD_COUNT_BYTES] s t) ∧
        (ringFull s data.length = false → off % 4 ≠ 0 → ∀ l, s.config.load = some l → l.isPart = false →
          Ends (.hostLoadWrite (.host 0 0) off data) s fun t => LoadFailed l 0x0D s t))) ∧
    (∀ req off data, regGate s req 0x030000048000 4 true = .reach → req ≠ .host 0 0 → Ends (.hostLoadWrite req off data) s fun t =>
      t.on CFG_HLOAD_CTRL_DISCARD = true ∧ Frame [] [CFG_HLOAD_CTRL_DISCARD] s t) ∧
    (hostLoading s = true → ringFull s 4 = true → Ends .hostLoadTimeout s fun t => Frame [] [] s t) ∧
    (∀ l, s.config.load = some l → l.isPart = false →
      (hostLoading s = true → (ringFull s 4 = false → Ends .hostLoadTimeout s fun t => LoadFailed l 0x0F s t) ∧
        ∀ req, regGate s req 0x030000040020 4 true = .reach → Ends (.cfgHloadAbort req) s fun t => LoadFailed l 0x14 s t) ∧
      (l.src = 4 → Ends .coxLoadTimeout s fun t => LoadFailed l 0x0F s t)) ∧
    (∀ port : Port, s.clocks.perst.contains port.val = false → s.config.started = false → Ends (.pfAbsentTimeout port) s fun t =>
      t.host.absent.contains port.val = true ∧ Frame [.host] [] s t)

/-- Start-up. The lock step is over when every island's clock is stable, or at its time limit, which leaves the others held with
SU_PARTIAL; the full load's then lets go of CFG_DONE and waits for it to be high. Each token is the next release step of ORDER for every
island of the start-up, which applies it at an edge, at the latest before its report; with the third step's reports the islands
leave HELD, and after the last one the full load's state is running. -/
def Obligations.StartUpReleasesInOrder : Prop :=
  ∀ (s : State) (who : Fin 6) (u : Startup), s.startup who = some u →
    (u.locked = false → u.islands.all (clkStable s) = true → Ends (.lockStepDone who) s fun t =>
      t.startup who = some { u with locked := true, go := who.val ≠ 0 } ∧
      (who = 0 → t.on CFG_STATUS_DONE_WAIT = true ∧ t.config.doneLow = false ∧
        (s.config.load = none → s.config.waitSrc = none → s.config.next = none → t.get CFG_STATUS_STATE = 8)) ∧
      (who = 1 → t.get CFG_PR_STATUS_PHASE = 6) ∧
      Frame [.config] [CFG_STATUS_STATE, CFG_STATUS_DONE_WAIT, CFG_PR_STATUS_PHASE] s t) ∧
    (u.locked = false → (∃ l ∈ u.islands, clkStable s l = false) → Ends (.lockStepTimeout who) s fun t =>
      t.startup who = some { u with locked := true, go := who.val ≠ 0, islands := u.islands.filter (clkStable s) } ∧
      t.on CFG_STATUS_SU_PARTIAL = true ∧ t.on CFG_CAUSE_SU_PARTIAL = true ∧
      ∀ l ∈ u.islands, l < 128 → clkStable s l = false → t.on (FAB_SEC_CAUSE_CLK_ALARM (l / 32) (l % 32)) = true) ∧
    (s.config.doneLow = true → Ends .cfgDoneHigh s fun t => Frame [] [] s t) ∧
    (who = 0 → s.config.doneLow = false → u.locked = true → u.go = false → s.config.load = none → s.config.waitSrc = none →
      s.config.next = none → Ends .cfgDoneHigh s fun t => t.startup 0 = some { u with go := true } ∧
      t.config.donePin = true ∧ t.on CFG_STATUS_DONE_WAIT = false ∧ t.get CFG_STATUS_STATE = 9 ∧
      Frame [.config] [CFG_STATUS_DONE_WAIT, CFG_STATUS_STATE] s t) ∧
    (u.go = true → u.due = [] → u.step < 3 → u.islands ≠ [] → (∀ l ∈ u.islands, islandFrozen s l = false) → Ends (.releaseToken who) s fun t =>
      t.startup who = some { u with step := u.step + 1, due := u.islands, unapplied := u.islands } ∧ Frame [.config] [] s t) ∧
    (∀ sec : Sec, u.due.contains (leaderOf s sec) = true → Ends (.releaseReport who sec) s fun t =>
      (u.unapplied.contains (leaderOf s sec) = true → ∀ x ∈ membersOf s (leaderOf s sec),
        (releaseAction u.order u.step = 0 → ∀ b ∈ banksOf x, t.fabric.outReleased.contains b = true) ∧
        (releaseAction u.order u.step = 1 → t.fabric.wrReleased.contains x = true) ∧
        (releaseAction u.order u.step = 2 → t.fabric.gsrReleased.contains x = true)) ∧
      (u.step = 3 → ∀ x ∈ membersOf s (leaderOf s sec), t.fabric.running.contains x = true) ∧
      (u.due.filter (· ≠ leaderOf s sec) ≠ [] → t.startup who = some { u with
          due := u.due.filter (· ≠ leaderOf s sec), unapplied := u.unapplied.filter (· ≠ leaderOf s sec) } ∧
        Frame [.config, .fabric] [] s t) ∧
      (u.step = 3 → u.due.filter (· ≠ leaderOf s sec) = [] → t.startup who = none ∧
        (who = 0 → t.on CFG_CAUSE_DONE = true ∧ t.config.started = true ∧
          (s.config.load = none → s.config.waitSrc = none → s.config.next = none → t.get CFG_STATUS_STATE = 0xA))))

/-- Partial reconfiguration. GO begins one where the device runs and none is in progress; ABORT ends it before the region is held.
The final checks hold the region, mark it busy and clear it, and its bundles take their idle values; a wrong tag fails it with
0x10 and leaves the old region running. With its frames written the region is configured and starts up, or is lost where the
staging memory could not be read. -/
def Obligations.PartialLoadHoldsItsRegionOnly : Prop :=
  ∀ s : State,
    (∀ req store, regGate s req 0x030000040200 4 true = .reach → s.on CFG_PR_STATUS_BUSY = false → s.get CFG_STATUS_STATE = 0xA →
      s.config.load = none → Ends (.prGo req store) s fun t => t.on CFG_PR_STATUS_BUSY = true ∧ t.get CFG_PR_STATUS_PHASE = 1 ∧
        t.config.load = some { src := 0, isPart := true, size := some (s.get CFG_PR_LEN_LEN), inStore := store
                               addr := if store then areaC + s.get CFG_PR_SRC_LO_ADDR else s.get64 CFG_PR_SRC_LO_ADDR CFG_PR_SRC_HI_ADDR } ∧
        t.out = [.done] ∧ Frame [.config] [CFG_PR_CTRL_SRC_STORE, CFG_PR_STATUS_BUSY, CFG_PR_STATUS_PHASE] s t) ∧
    (∀ req, regGate s req 0x030000040200 4 true = .reach → s.on CFG_PR_STATUS_BUSY = true → s.get CFG_PR_STATUS_PHASE ≤ 2 →
      Ends (.prAbort req) s fun t => t.on CFG_PR_STATUS_BUSY = false ∧ t.get CFG_PR_STATUS_CAUSE = 0x14 ∧ t.config.load = none ∧
        t.on CFG_CAUSE_FAIL = true ∧ t.fabric = s.fabric ∧ t.onchip = s.onchip) ∧
    (∀ l tag sha shake d, s.config.load = some l → l.isPart = true → l.signed = true → l.decl = none →
      (prCause l tag sha shake d = none → Ends (.prFinalChecks tag sha shake d) s fun t => t.get CFG_PR_STATUS_PHASE = 3 ∧
        (∀ x ∈ l.region, x < 128 → regionBusy t x = true ∧ sectorHeld t x = true) ∧
        (∀ x, x ∉ l.region → t.fabric.running.contains x = s.fabric.running.contains x) ∧
        (∀ k, l.region.contains (k / 512 / 12288) = true → smGet 0 t.onchip.frames k = 0) ∧
        (∀ k, l.region.contains (k / 512 / 12288) = false → smGet 0 t.onchip.frames k = smGet 0 s.onchip.frames k)) ∧
      (∀ c, prCause l tag sha shake d = some c → Ends (.prFinalChecks tag sha shake d) s fun t => t.on CFG_PR_STATUS_BUSY = false ∧
        t.get CFG_PR_STATUS_CAUSE = c ∧ t.on CFG_CAUSE_FAIL = true ∧ t.fabric = s.fabric ∧ t.onchip = s.onchip ∧ t.config.load = none) ∧
      (partAgrees l.region d = false → prCause l tag sha shake d = some 0x16) ∧
      (partAgrees l.region d = true → l.total = some l.written → l.frameCount = l.written → prCause l false sha shake d = some 0x10)) ∧
    (∀ l d, s.config.load = some l → l.isPart = true → l.decl = some d → s.get CFG_PR_STATUS_PHASE = 4 → s.config.next = none →
      s.get CFG_STATUS_STATE ≠ 6 →
      Ends (.prFramesWritten false) s (fun t => t.get CFG_PR_STATUS_PHASE = 5 ∧ (t.startup 1).isSome = true ∧
        (∀ x ∈ l.region, x < 128 → t.on (FAB_SEC_STATUS_CONFIGURED (x / 32) (x % 32)) = true) ∧ t.fabric = s.fabric) ∧
      Ends (.prFramesWritten true) s (fun t => t.on CFG_PR_STATUS_REGION_LOST = true ∧ t.get CFG_PR_STATUS_CAUSE = 0x23 ∧
        t.on CFG_PR_STATUS_BUSY = false ∧ t.config.load = none ∧ t.on CFG_CAUSE_FAIL = true ∧ t.fabric = s.fabric))

/-- A command that takes an island's snapshot: the island is due no more. With the last one the capture is over and valid, and its end is
source 5 of the cross-triggers (R388). `P`: what holds before the triggers act. -/
def EndsCapture (c : Instr) (l : Nat) (s : State) (P : State → Prop) : Prop :=
  ∃ u, exec c s = .next (if s.config.capDue.filter (· ≠ l) = [] then xtSource 5 u else u) ∧
    u.config.capDue = s.config.capDue.filter (· ≠ l) ∧ P u ∧
    (s.config.capDue.filter (· ≠ l) = [] → u.on CFG_CAP_STATUS_BUSY = false ∧ u.on CFG_CAP_STATUS_VALID = true)

/-- Capture and readback. GO of a capture begins one unless one runs. An island due takes its snapshot at an edge, or without one is
marked so; with the last the capture is valid, and its end is source 5 of the cross-triggers. GO of a readback begins one, and is refused with bit REFUSED while one runs, in a
full load, for no frames, for frames past the last, or to an address that is no multiple of 64. Each frame done moves it on, and the last one, an
ABORT or a bus error ends it. -/
def Obligations.CaptureAndReadbackRunToTheirEnd : Prop :=
  ∀ s : State,
    (∀ req en, regGate s req 0x030000040240 4 true = .reach → s.on CFG_CAP_STATUS_BUSY = false → s.on CFG_RB_STATUS_BUSY = false →
      Ends (.captureGo req en) s fun t => t.on CFG_CAP_STATUS_BUSY = true ∧ t.on CFG_CAP_CTRL_TRIG_EN = en ∧ t.out = [.done] ∧
        t.get64 CFG_CAP_TS_LO_TS CFG_CAP_TS_HI_TS = s.clocks.ts % 2 ^ 64 ∧ t.fabric = s.fabric ∧ t.onchip = s.onchip ∧ t.engines = s.engines) ∧
    (∀ (sec : Sec) init, s.config.capDue.contains (leaderOf s sec) = true → (s.config.capEdge.map (·.1)).contains (leaderOf s sec) = false →
      (edgeReaches s sec = true → EndsCapture (.captureSnapshot sec init) (leaderOf s sec) s fun t =>
        Frame [.config] [CFG_CAP_STATUS_BUSY, CFG_CAP_STATUS_VALID] s t ∧
        ∀ x ∈ captured s (leaderOf s sec), ∀ c, c < 4096 → (smGet 0 t.config.shadow (x * 14)).testBit c =
          xor (s.fabric.cells.contains (cellNumber x c)) (init.contains (cellNumber x c))) ∧
      (s.on CFG_CAP_STATUS_BUSY = true → EndsCapture (.captureNoEdge sec init) (leaderOf s sec) s fun t => t.fabric = s.fabric ∧
        ∀ x ∈ captured s (leaderOf s sec), x < 128 → t.bit (CFG_CAP_NOEDGE_SEC (x / 32)) (x % 32) = true)) ∧
    (∀ (sec : Sec) init, s.config.capDue.contains (leaderOf s sec) = true → (s.config.capEdge.map (·.1)).contains (leaderOf s sec) = true →
      EndsCapture (.captureSnapshot sec init) (leaderOf s sec) s fun t =>
        Frame [.config] [CFG_CAP_STATUS_BUSY, CFG_CAP_STATUS_VALID] s t) ∧
    (∀ req shadow, regGate s req 0x030000040280 4 true = .reach →
      (s.on CFG_RB_STATUS_BUSY = true ∨ fullLoading s = true ∨ s.get CFG_RB_COUNT_COUNT = 0 ∨
          (if shadow then 14 else 12288) < s.get CFG_RB_FRAME_FRAME + s.get CFG_RB_COUNT_COUNT ∨ s.get CFG_RB_DST_LO_ADDR % 64 ≠ 0 →
        Ends (.readbackGo req shadow) s fun t => t.on CFG_RB_STATUS_REFUSED = true ∧ t.on CFG_RB_STATUS_BUSY = s.on CFG_RB_STATUS_BUSY ∧
          t.out = [.done] ∧ Frame [] [CFG_RB_CTRL_SHADOW, CFG_RB_STATUS_REFUSED] s t) ∧
      (s.on CFG_RB_STATUS_BUSY = false → fullLoading s = false → 0 < s.get CFG_RB_COUNT_COUNT →
        s.get CFG_RB_FRAME_FRAME + s.get CFG_RB_COUNT_COUNT ≤ (if shadow then 14 else 12288) →
        s.get CFG_RB_DST_LO_ADDR % 64 = 0 → Ends (.readbackGo req shadow) s fun t => t.on CFG_RB_STATUS_BUSY = true ∧
          t.config.rb.map (·.left) = some (s.get CFG_RB_COUNT_COUNT) ∧
          Frame [.config] [CFG_RB_CTRL_SHADOW, CFG_RB_STATUS_BUSY, CFG_RB_STATUS_UE] s t) ∧
      Ends (.readbackAbort req) s (fun t => Frame [.config] [] s t ∧ t.out = [.done] ∧
        t.config.rb = s.config.rb.map (fun r => { r with abort := true }))) ∧
    (∀ r, s.config.rb = some r → r.waits = false → r.shadow = true →
      (r.left ≤ 1 ∨ r.abort = true → (∀ d, (putFrame r.dst d s.begin).1 = some .ack) →
        Ends (.readbackFrameDone false []) s fun t => t.config.rb = none ∧ t.on CFG_RB_STATUS_BUSY = false) ∧
      (1 < r.left → r.abort = false → locate r.dst = .unmapped → Ends (.readbackFrameDone false []) s fun t => t.config.rb = none ∧
        t.on CFG_RB_STATUS_BUSY = false ∧ t.on CFG_RB_STATUS_BUS_ERR = true) ∧
      (1 < r.left → r.abort = false → ∀ u, putFrame r.dst (toBytes (smGet 0 s.config.shadow (r.sec * 14 + r.frame)) 512) s.begin = (some .ack, u) →
        u.config = s.config → Ends (.readbackFrameDone false []) s fun t =>
        t.config.rb = some { r with frame := r.frame + 1, left := r.left - 1, dst := r.dst + 512 } ∧ Frame [.config] [] u t)) ∧
    (∀ r, s.config.rb = some r → r.waits = false → Ends (.readbackFrameDone true []) s fun t => t.config.rb = none ∧
      t.on CFG_RB_STATUS_BUSY = false ∧ t.on CFG_RB_STATUS_BUS_ERR = true ∧ t.dram = s.dram ∧
      (r.shadow = true → Frame [.config] [CFG_RB_STATUS_BUSY, CFG_RB_STATUS_BUS_ERR] s t))

/-! ## Network on chip -/

/-- Requests at their target. A request that its port takes is recorded with the answer its target gives: of on-chip memory a read
gives the bytes, corrected or poisoned, a write changes the bytes enabled, and an atomic gives the old value and leaves its
operation's; of channel DRAM a read gives what Patina gives; of a register of 32 bits a read gives its word, a write writes it; an
address that nothing owns answers ERR_DECODE; a hub switch in reset holds what passes it, a frozen one answers ERR_BUS; a request across 64 bytes, or an atomic off its alignment, answers ERR_BUS. A sector's
target port takes requests that its logic will answer. A held sector, or a tag that is outstanding, issues nothing. -/
def Obligations.RequestsActAtTheirTarget : Prop :=
  ∀ (s : State) (req : Requester) (tag : Fin 1024) (addr : BitVec 52) (len : Fin 64) (be : BitVec 64) (data : BitVec 512) (psn : Bool),
    (Takes s (rdAsk req tag addr len) → s.clocks.halted = false → waitsForChannel s (rdAsk req tag addr len) = none →
      (∀ p u i o, plainOf addr.toNat = some (.chip p u i o) → chipStop s p = none →
        exec (.rd req tag addr len) s = .next (
          let a := rdAsk req tag addr len
          let (v, _, ue, t) := readBytes (bankServes (bankUser (p - 4) req) p u i s.begin) p u i o (len.val + 1)
          if hasRight s req addr.toNat false then withAnswer a none (.data v ue) t
          else withAnswer a none (.data 0 false) s.begin)) ∧
      (∀ n o k, plainOf addr.toNat = some (.dram n o k) → hasRight s req addr.toNat false = true → s.host.failed.contains (req, tag.val) = false →
        biNeeds s (rdAsk req tag addr len) = none →
        exec (.rd req tag addr len) s = .next (
          let r := patRead ⟨n, o / 64, k, (groupOf req).getD 0, false, false⟩ .ok s.begin
          withAnswer (rdAsk req tag addr len) none (rspOf 0 (slice r.v (8 * (o % 64)) (8 * (len.val + 1))) r.st) r.s)) ∧
      (locate addr.toNat = .unmapped → exec (.rd req tag addr len) s = .next (withAnswer (rdAsk req tag addr len) none .errDecode s.begin)) ∧
      (∀ off, locate addr.toNat = .hub off → regGate s req addr.toNat 4 false = .reach → len = 3 →
        exec (.rd req tag addr len) s = .next (withAnswer (rdAsk req tag addr len) none (.data (readSpecial req addr.toNat false s.begin).1 false)
          (readSpecial req addr.toNat false s.begin).2)) ∧
      (∀ d off x, locate addr.toNat = .fabric d off → fabricTarget s req (d * 2 ^ 38 + off) = some x → hasRight s req addr.toNat false = true →
        routeFrozen s (entryPort req (some x)) (some x) = false → sectorUp s x = true → easyHolds s (x / 32) = false → gated s x = false →
        acceptedAt s x < 1024 →
        exec (.rd req tag addr len) s = .next (recordReq (reqOf (rdAsk req tag addr len) (entryPort req (some x)) (some x) none)
          ((seeRequest (reqOf (rdAsk req tag addr len) (entryPort req (some x)) (some x) none) 0 s.begin).emit
            (.fabricRequest x 0 addr.toNat (len.val + 1) 0 0 .other 0 false))))) ∧
    (Takes s (wrAsk req tag addr len be data psn) → s.clocks.halted = false → waitsForChannel s (wrAsk req tag addr len be data psn) = none →
      (∀ p u i o, plainOf addr.toNat = some (.chip p u i o) → chipStop s p = none → hasRight s req addr.toNat true = true → psn = false →
        exec (.wr req tag addr len be data psn) s = .next (withAnswer (wrAsk req tag addr len be data psn) none .ack
          (breakAt (engineOf req) (.chip p u i o) (writeBytes (bankServes (bankUser (p - 4) req) p u i s.begin) p u i o (data.toNat / 2 ^ (8 * (addr.toNat % 64)) % 2 ^ (8 * (len.val + 1)))
            (be.toNat / 2 ^ (addr.toNat % 64) % 2 ^ (len.val + 1)) (len.val + 1))))) ∧
      (∀ p u i o, plainOf addr.toNat = some (.chip p u i o) → chipStop s p = none → hasRight s req addr.toNat true = true → psn = true →
        exec (.wr req tag addr len be data psn) s = .next (withAnswer (wrAsk req tag addr len be data psn) none .errBus s.begin)) ∧
      (hasRight s req addr.toNat true = false → plainOf addr.toNat ≠ none →
        s.host.failed.contains (req, tag.val) = false ∨ (∃ p u i o, plainOf addr.toNat = some (.chip p u i o)) →
        exec (.wr req tag addr len be data psn) s = .next (withAnswer (wrAsk req tag addr len be data psn) none .ack s.begin))) ∧
    (∀ (wide : Bool) (op : AtomOp) (operand compare : BitVec 64), Takes s (atomAsk req tag addr wide op operand compare) →
      s.clocks.halted = false → waitsForChannel s (atomAsk req tag addr wide op operand compare) = none →
      ∀ p u i o v c t x, plainOf addr.toNat = some (.chip p u i o) → chipStop s p = none → hasRight s req addr.toNat false = true →
        hasRight s req addr.toNat true = true → readBytes (bankServes (bankUser (p - 4) req) p u i s.begin) p u i o (if wide then 8 else 4) = (v, c, false, t) →
        atomResult op (if wide then 64 else 32) v operand.toNat compare.toNat = some x →
        chipStop t p = none → hasRight t req addr.toNat true = true →
        exec (.atom req tag addr wide op operand compare) s = .next (withAnswer (atomAsk req tag addr wide op operand compare) none (.data v false)
          (breakAt (engineOf req) (.chip p u i o) (writeBytes (bankServes (bankUser (p - 4) req) p u i t) p u i o x (2 ^ (if wide then 8 else 4) - 1) (if wide then 8 else 4))))) ∧
    (∀ (wide : Bool) (op : AtomOp) (operand compare : BitVec 64), issues s req = true →
      tagBusy s req (entryPort req (requestDst s req addr.toNat)) tag = false → addr.toNat % (if wide then 8 else 4) ≠ 0 →
      exec (.atom req tag addr wide op operand compare) s = .next (recordReq (reqOf (atomAsk req tag addr wide op operand compare)
        (entryPort req (requestDst s req addr.toNat)) none (some .errBus)) s.begin)) ∧
    (∀ a : Ask, a = rdAsk req tag addr len ∨ a = wrAsk req tag addr len be data psn → issues s req = true →
      tagBusy s req (entryPort req (requestDst s req addr.toNat)) tag = false → 64 < addr.toNat % 64 + len.val + 1 →
      (if a.opc = 0 then exec (.rd req tag addr len) s else exec (.wr req tag addr len be data psn) s) =
        .next (recordReq (reqOf a (entryPort req (requestDst s req addr.toNat)) none (some .errBus)) s.begin)) ∧
    (issues s req = true → tagBusy s req (entryPort req (requestDst s req addr.toNat)) tag = false →
      portAnswers (rdAsk req tag addr len) (entryPort req (requestDst s req addr.toNat)) (requestDst s req addr.toNat) s = none →
      passesSwitch s (rdAsk req tag addr len) = true →
      (s.clocks.released.contains 181 = false → exec (.rd req tag addr len) s = .next { s with out := [.held] }) ∧
      (s.clocks.released.contains 181 = true → isFrozen s 181 = true →
        exec (.rd req tag addr len) s = .next (withAnswer (rdAsk req tag addr len) (requestDst s req addr.toNat) .errBus s.begin))) ∧
    (issues s req = false ∨ tagBusy s req (entryPort req (requestDst s req addr.toNat)) tag = true →
      exec (.rd req tag addr len) s = .next s.begin ∧ exec (.wr req tag addr len be data psn) s = .next s.begin ∧
      ∀ wide op operand compare, exec (.atom req tag addr wide op operand compare) s = .next s.begin)

/-- Answers at their requester. The response of an answer's kind delivers it and frees the tag, and fences that waited for it wait
no more; a response that no request waits for changes nothing. To a host the Wake hands the answer of a forwarded request, by its
port and tag, and the journal entry retires; an error is Completer Abort, or Unsupported Request for a decode error. A request
without a response in time completes at its port with an error, and the log and the cause TIMEOUT say so. -/
def Obligations.AnswersReachTheirRequester : Prop :=
  ∀ (s : State) (req : Requester), (∀ p pf, req ≠ .host p pf) → ∀ (tag : Fin 16384) (data : BitVec 512) (psn : Bool),
    (∀ r v q, findReq s req tag [0] = some r → r.rsp = some (.data v q) →
      exec (.rdData req tag data psn) s = .next (delivered false r (.data v q) s.begin)) ∧
    (∀ r x, findReq s req tag [0] = some r → r.rsp = none → r.lost = false → r.dst = some x → (∃ d off, locate r.addr = .fabric d off) →
      exec (.rdData req tag data psn) s = .next (delivered false r (.data (data.toNat / 2 ^ (8 * (r.addr % 64)) % 2 ^ (8 * (r.len + 1))) psn) s.begin)) ∧
    (∀ r, findReq s req tag [1] = some r → r.rsp = some .ack → exec (.wrAck req tag) s = .next (delivered false r .ack s.begin)) ∧
    (∀ r, findReq s req tag [0, 1, 2, 3, 4, 5, 6] = some r →
      (r.rsp = some .errDecode → exec (.errDecode req tag) s = .next (delivered false r .errDecode s.begin)) ∧
      (r.rsp = some .errBus → exec (.errBus req tag) s = .next (delivered false r .errBus s.begin))) ∧
    (∀ r, outstanding s req tag = some r → outboundOf s r.req r.tag r.opc = none → Ends (.nocRequestTimeout req tag) s fun t =>
        (r.unit = false → t.noc = { s.noc with reqs := s.noc.reqs.erase r } ∧ .busError ∈ t.out) ∧
        (r.unit = true → t.noc = { s.noc with reqs := s.noc.reqs.map (fun q =>
          if q == r then { q with rsp := some .errBus, lost := true, hubTag := 1024 } else q) } ∧ t.fabric = s.fabric) ∧
        t.on NOC_CAUSE_TIMEOUT = true ∧ t.get NOC_ERR_LOG_KIND = 5 ∧ t.get NOC_ERR_LOG_TAG = flitTag r % 2 ^ NOC_ERR_LOG_TAG.w ∧ Alerted s t ∧
        Frame [.noc, .fabric, .host] ([NOC_CAUSE_TIMEOUT, NOC_ERR_LOG_UNIT, NOC_ERR_LOG_KIND, NOC_ERR_LOG_PORT, NOC_ERR_LOG_TAG,
          NOC_ERR_LOG_TS_LO, NOC_ERR_LOG_TS_HI, NOC_ERR_LOG_COUNT] ++ alertFlds) s t) ∧
    (∀ (tag : Fin 1024) (data : Datum) r v q, findReq s req tag [2] = some r → r.rsp = some (.data v q) →
      exec (.atomData req tag data) s = .next (delivered false r (.data v q) s.begin)) ∧
    (s.noc.reqs.all (fun r => r.req != req || r.tag != tag.val) = true → exec (.rdData req tag data psn) s = .next s.begin ∧
      exec (.wrAck req tag) s = .next s.begin ∧ exec (.errDecode req tag) s = .next s.begin ∧ exec (.errBus req tag) s = .next s.begin) ∧
    (∀ (p : Port) (pf : Fin 3) e, inboundOf s p pf tag [0, 1] = some e → e.req.accepted = true →
      (∀ v q, e.req.opc = 0 → e.req.rsp = some (.data v q) → exec (.rdData (.host p pf) tag data psn) s = .next (retired e
        (if e.posted then [] else [.hostData e.port e.req.tag v q]) s)) ∧
      (e.req.opc = 1 → e.req.rsp = some .ack → exec (.wrAck (.host p pf) tag) s = .next (retired e
        (if e.posted then [] else [.hostDone e.port e.req.tag]) s)) ∧
      (e.req.rsp = some .errDecode → exec (.errDecode (.host p pf) tag) s = .next (retired e
        (if e.posted then [] else [.hostUr e.port e.req.tag]) s)) ∧
      (e.req.rsp = some .errBus → exec (.errBus (.host p pf) tag) s = .next (retired e
        (if e.posted then [] else [.hostAbort e.port e.req.tag]) s)))

/-- Faults and probes. A stall is logged as kind 6 with the cause STALL, unless its limit is 0. A fault of a router is logged by its
kind: data beyond correction sets LINK_POISON, kinds 1, 3 and 4 set ROUTER_FAULT. A message that matches one enabled probe adds
its flits (MODE 0) or 1 (MODE 1) to the count, which stops at its largest value. The oldest queued record of a probe is
stored at the writer's place, which moves on by 32 bytes; at the end of the buffer it wraps, or the writer stops with TRACE_FULL;
while it has stopped the record is lost and counted. Management and debug messages. MGT_WR loads a router's setting, an entry of the target map's copy at the sector's port, or an idle
value of a receive port that a state bundle reaches from a region being reconfigured; MGT_RD reads what was loaded; each waits for
its MGT_RSP, which answers the oldest request of the sector, with ERR_BUS where the mesh is frozen. A debug access of a set reaches
the fabric target it is on its way to, and DBG_RSP brings back its data or error. What the addresses of MGT_WR name is the model's
choice (assumption 62). -/
def Obligations.NetworkFaultsProbesAndMessages : Prop :=
  (∀ s : State,
    (∀ (unit : BitVec 16) (port : BitVec 8),
      (s.get NOC_CTRL_STALL_LIM ≠ 0 → unitExists unit.toNat = true → Ends (.nocStall unit port) s fun t => t.on NOC_CAUSE_STALL = true ∧ t.get NOC_ERR_LOG_UNIT = unit.toNat ∧
        t.get NOC_ERR_LOG_KIND = 6 ∧ t.get NOC_ERR_LOG_PORT = port.toNat ∧ Alerted s t ∧
        Frame [.host] ([NOC_CAUSE_STALL, NOC_ERR_LOG_UNIT, NOC_ERR_LOG_KIND, NOC_ERR_LOG_PORT, NOC_ERR_LOG_TAG, NOC_ERR_LOG_TS_LO,
          NOC_ERR_LOG_TS_HI, NOC_ERR_LOG_COUNT] ++ alertFlds) s t) ∧
      (s.get NOC_CTRL_STALL_LIM = 0 → exec (.nocStall unit port) s = .next s.begin)) ∧
    (∀ (unit : BitVec 16) (kind port : BitVec 8) (tag : Fin 1024), isRouter unit.toNat = true → runs s (128 + unit.toNat / 2048) = true →
      (kind = 2 → Ends (.routerFault unit kind port tag) s fun t => t.on NOC_CAUSE_LINK_POISON = true ∧ t.get NOC_ERR_LOG_KIND = 2 ∧
        t.get NOC_ERR_LOG_TAG = tag.val ∧ t.get NOC_ERR_LOG_UNIT = unit.toNat ∧ t.wake = s.wake ∧ t.noc = { s.noc with reqs := t.noc.reqs } ∧
        (∀ r, s.noc.reqs.find? (fun r => onRoute unit.toNat r && flitTag r == tag.val && r.rsp.any (sameKind (.data 0 false))) = some r →
          ∃ v p, r.rsp = some (.data v p) ∧ { r with rsp := some (.data v true) } ∈ t.noc.reqs) ∧
        ((∀ r ∈ s.noc.reqs, onRoute unit.toNat r = false ∨ flitTag r ≠ tag.val) → t.noc = s.noc)) ∧
      (kind = 0 → Ends (.routerFault unit kind port tag) s fun t =>
        t.get NOC_LINK_CE_COUNT = min (s.get NOC_LINK_CE_COUNT + 1) (2 ^ NOC_LINK_CE_COUNT.w - 1) ∧ Frame [] [NOC_LINK_CE_COUNT] s t) ∧
      (kind = 1 ∨ kind = 3 ∨ kind = 4 → Ends (.routerFault unit kind port tag) s fun t => t.on NOC_CAUSE_ROUTER_FAULT = true ∧
        t.get NOC_ERR_LOG_KIND = kind.toNat ∧ t.get NOC_ERR_LOG_UNIT = unit.toNat ∧ t.noc.reqs.length = s.noc.reqs.length ∧
        (∀ (i : Nat) r, s.noc.reqs[i]? = some r → t.noc.reqs[i]? = some r ∨
          onRoute unit.toNat r = true ∧ wakeRecords r = false ∧ t.noc.reqs[i]? = some { r with rsp := none, lost := true }) ∧
        (∀ e ∈ t.noc.routerRegs, e ∈ s.noc.routerRegs ∧ e.1 / 2 ^ 32 ≠ 32 * (unit.toNat / 2048) + unit.toNat % 2048 - 32) ∧
        (s.wake.recs = [] → smGet 0 s.wake.done unit.toNat = 0 → t.wake.recs = [⟨1, unit.toNat, s.clocks.ts, false, false, 0, 0, 0⟩] ∧
          t.on WAKE_STATUS_ACTIVE = true ∧ ∀ e ∈ s.wake.entries, e.out = false → e.state = 0 → inScope 1 unit.toNat e = true →
            { e with state := 1 } ∈ t.wake.entries))) ∧
    (∀ (n : Nat) (m : Msg), n < 32 → probeMatches s n m = true → (∀ k < 32, k ≠ n → s.on (PROBE_EN k) = false) →
      s.bit DBG_XT_PROBE_PROBE n = false → s.on (PROBE_TRACE n) = false → s.get (PROBE_MODE n) < 2 →
        (seeMessage m s).get64 (PROBE_CNT_LO n) (PROBE_CNT_HI n) =
          min (s.get64 (PROBE_CNT_LO n) (PROBE_CNT_HI n) + if s.get (PROBE_MODE n) = 0 then m.flits else 1) (2 ^ 48 - 1)) ∧
    (∀ (n : Fin 32) x, probeSector s n = some x → routeFrozen s x none = true → exec (.trace n) s = .next s.begin) ∧
    (∀ (n : Fin 32) r q u, smGet [] s.noc.probeQ n = r :: q → (∀ x, probeSector s n = some x → routeFrozen s x none = false) →
      traceTurn n s.begin = (.wait, u) → exec (.trace n) s = .next (u.emit .held)) ∧
    (∀ (n : Fin 32) r q, smGet [] s.noc.probeQ n = r :: q → s.on NOC_TRACE_CTRL_EN = true →
      (probeSector s n = none ∨ ∃ x, probeSector s n = some x ∧ routeFrozen s x none = false ∧ ∀ k < 32, s.on (PROBE_EN k) = false) →
      (s.noc.stopped = false → s.on NOC_TRACE_CTRL_DEST = false → Ends (.trace n) s fun t =>
        smGet 0 t.noc.traceBuf (s.get NOC_TRACE_WPTR_OFFSET / 32) = (if s.noc.gaps.contains n.val then r + 2 ^ 117 else r) ∧
        smGet [] t.noc.probeQ n = q ∧ t.noc.gaps.contains n.val = false ∧
        (s.get NOC_TRACE_WPTR_OFFSET + 32 < 2 ^ 20 → t.get NOC_TRACE_WPTR_OFFSET = s.get NOC_TRACE_WPTR_OFFSET + 32 ∧ t.noc.stopped = false ∧
          Frame [.noc] [NOC_TRACE_WPTR_OFFSET] s t) ∧
        (2 ^ 20 ≤ s.get NOC_TRACE_WPTR_OFFSET + 32 →
          (s.on NOC_TRACE_CTRL_WRAP = true → t.get NOC_TRACE_WPTR_OFFSET = 0 ∧ t.on NOC_TRACE_WPTR_WRAPPED = true ∧ t.noc.stopped = false) ∧
          (s.on NOC_TRACE_CTRL_WRAP = false → t.noc.stopped = true ∧ t.on NOC_CAUSE_TRACE_FULL = true))) ∧
      (s.noc.stopped = true → Ends (.trace n) s fun t => t.noc.gaps.contains n.val = true ∧ t.noc.traceBuf = s.noc.traceBuf ∧
        smGet [] t.noc.probeQ n = q ∧ t.on NOC_CAUSE_TRACE_LOST = true ∧
        t.get (PROBE_LOST n) = min (s.get (PROBE_LOST n) + 1) (2 ^ (PROBE_LOST n).w - 1)))) ∧
  (∀ (s : State) (sec : Sec), (∀ k < 32, s.on (PROBE_EN k) = false) → tagsFull s (128 + (meshPos sec).2) = false →
    (∀ (addr : BitVec 32) (data : BitVec 64), routerAnswers s sec = true →
      (32 ≤ addr.toNat → addr.toNat < 256 ∨ 512 ≤ addr.toNat →
        Ends (.mgtWr sec addr data) s fun t => smGet 0 t.noc.routerRegs (sec.val * 2 ^ 32 + addr.toNat) = data.toNat + 1 ∧
        t.noc.mgtDue = s.noc.mgtDue ++ [(sec.val, 0)] ∧ Frame [.noc] [] s t ∧
        (s.clocks.bundles.all (fun e => e.2.dst != sec.val || e.2.rxPort != addr.toNat) = true → tagsFull t (128 + (meshPos sec).2) = false →
          Ends (.mgtRd sec addr) t fun u => u.noc.mgtDue = t.noc.mgtDue ++ [(sec.val, data.toNat + 1)] ∧ Frame [.noc] [] t u)) ∧
      (256 ≤ addr.toNat → addr.toNat < 512 → Ends (.mgtWr sec addr data) s fun t => Frame [.noc] [] s t ∧
        mapWords t (.sector sec) (addr.toNat - 256) = (data.toNat % 2 ^ 32, data.toNat / 2 ^ 32) ∧
        ∀ req e, req ≠ .sector sec ∨ e ≠ addr.toNat - 256 → e < 256 → mapWords t req e = mapWords s req e) ∧
      (addr.toNat < 32 → Ends (.mgtWr sec addr data) s fun t => t.noc.mgtDue = s.noc.mgtDue ++ [(sec.val, 0)] ∧
        Frame [.noc, .clocks] [] s t ∧ t.clocks = { s.clocks with bundles := t.clocks.bundles } ∧
        ∀ n b, (n, b) ∈ t.clocks.bundles ↔ ∃ b₀, (n, b₀) ∈ s.clocks.bundles ∧
          b = if b₀.dst = sec.val ∧ b₀.rxPort = addr.toNat ∧ b₀.stream = false ∧ regionBusy s b₀.src = true
            then { b₀ with idle := cutTo b₀.width data } else b₀) ∧
      (∀ n b, s.clocks.bundles.find? (fun e => e.2.dst == sec.val && e.2.rxPort == addr.toNat) = some (n, b) →
        Ends (.mgtRd sec addr) s fun t => t.noc.mgtDue = s.noc.mgtDue ++ [(sec.val, b.idle.toNat + 1)] ∧ Frame [.noc] [] s t)) ∧
    (routerAnswers s sec = false → ∀ addr data, Ends (.mgtWr sec addr data) s fun t => Frame [.noc] [] s t ∧
      t.noc.mgtDue = s.noc.mgtDue ++ [(sec.val, 0)] ∧ ∃ r, t.noc.reqs = s.noc.reqs ++ [r] ∧ r.rsp = some .errBus ∧ r.dst = some sec.val) ∧
    (∀ e r, s.noc.mgtDue.find? (·.1 == sec.val) = some e → mgtReq s sec = some r →
      (r.rsp = none → r.lost = false → Ends (.mgtRsp sec) s fun t => t.noc.mgtDue = s.noc.mgtDue.erase e ∧ t.noc.reqs = s.noc.reqs.erase r ∧
        t.out = [if e.2 = 0 then .done else .value (e.2 - 1)] ∧ Frame [.noc] [] s t) ∧
      (r.rsp = some .errBus → Ends (.mgtRsp sec) s fun t => t.noc.mgtDue = s.noc.mgtDue.erase e ∧ t.noc.reqs = s.noc.reqs.erase r ∧
        t.out = [.busError] ∧ Frame [.noc] [] s t)) ∧
    (∀ (set : Fin 2) (addr : BitVec 52) (size : Fin 4) x d off y, s.dbg.sets.find? (·.1 == set.val) = some (set.val, x) → x.addr = addr.toNat →
      x.size = 2 ^ size.val → x.answer = none → locate addr.toNat = .fabric d off → fabricTarget s .debug (d * 2 ^ 38 + off) = some y →
      routerAnswers s y = true → sectorUp s y = true → tagsFull s (128 + (meshPos y).2) = false → debugReq s set = none →
      (∀ c opc v, (c = Instr.dbgRd set addr size ∧ opc = 0x1B ∧ v = 0 ∧ x.kind = 0) ∨ (c = Instr.dbgRdc set addr size ∧ opc = 0x1C ∧ v = 0 ∧ x.kind = 1) ∨
          (∃ data : BitVec 64, c = Instr.dbgWr set addr size data ∧ opc = 0x1D ∧ v = data.toNat % 2 ^ (8 * 2 ^ size.val) ∧ x.kind = 2) →
        Ends c s fun t => t.out = [.message opc y addr.toNat v] ∧ Frame [.noc] [] s t ∧
          ∃ r, t.noc.reqs = s.noc.reqs ++ [r] ∧ r.dst = some y ∧ r.opc = opc ∧ r.rsp = none ∧ debugReq t set = some r)) ∧
    (∀ (set : Fin 2) (data : BitVec 64) (err : Bool) x r, s.dbg.sets.find? (·.1 == set.val) = some (set.val, x) → debugReq s set = some r →
      r.rsp = none → r.lost = false → Ends (.dbgRsp set data err) s fun t => Frame [.debug, .noc] [] s t ∧
        t.noc.reqs = s.noc.reqs.erase r ∧ t.dbg = { s.dbg with sets := t.dbg.sets } ∧
        t.dbg.sets.find? (·.1 == set.val) = some (set.val, { x with answer := some (data.toNat, err) })))

/-- Coherent requests of caching sectors. One that the agent takes is sent to the host and recorded; RD_SH and RD_OWN of a line that
another sector owns snoop that sector first; the write-back of a line that the sector was removed from is acknowledged and
discarded. One that the agent does not take ends with ERR_BUS. The host's data reaches the sector with the copy that it is granted:
CDATA_S as a sharer, CDATA_E as the owner; EVICT_ACK takes the sector out of the entry. -/
def Obligations.CoherentRequestsKeepTheFilter : Prop :=
  ∀ (s : State) (sec : Sec) (tag : Fin 1024) (addr : BitVec 52) (data : LineData),
    (issues s (.sector sec) = true → tagBusy s (.sector sec) sec tag = false → routeFrozen s sec none = false → agentTakes s sec addr.toNat = true →
      (∀ c opc, (c = Instr.rdSh sec tag addr ∧ opc = 3 ∨ c = Instr.rdOwn sec tag addr ∧ opc = 4) →
        hasRight s (.sector sec) (addr.toNat / 64 * 64) (opcWrites opc) = true →
        (∀ u, (sfEntry s (addr.toNat % 2 ^ 48 / 64) = none ∧ waysUsed s (addr.toNat % 2 ^ 48 / 64) < 16 ∨
            ∃ e, sfEntry s (addr.toNat % 2 ^ 48 / 64) = some e ∧ (e.owner = none ∨ e.owner = some sec.val)) →
          sendD2h (coherentReq sec tag addr.toNat opc none) 0 s.begin = some u →
          exec c s = .next (recordReq (coherentReq sec tag addr.toNat opc none) (seeRequest (coherentReq sec tag addr.toNat opc none) 0 u))) ∧
        (∀ e o, sfEntry s (addr.toNat % 2 ^ 48 / 64) = some e → e.owner = some o → o ≠ sec.val → Ends c s fun t =>
          t.host.snoops = s.host.snoops ++
            [⟨addr.toNat % 2 ^ 48 / 64, if opc = 4 then 0x14 else 0x15, [o], none, .sector sec tag (opc == 4), 0⟩] ∧
          t.noc.reqs = s.noc.reqs ++ [coherentReq sec tag addr.toNat opc none] ∧ t.wake.entries = s.wake.entries)) ∧
      (hasRight s (.sector sec) (addr.toNat / 64 * 64) true = true →
        (∀ u, sendD2h (coherentReq sec tag addr.toNat 5 none) 0 s.begin = some u → exec (.cleanEvict sec tag addr) s =
          .next (recordReq (coherentReq sec tag addr.toNat 5 none) (seeRequest (coherentReq sec tag addr.toNat 5 none) 0 u))) ∧
        (∀ u, s.host.dropped.contains (lostKey (addr.toNat % 2 ^ 48 / 64) sec) = false →
          sendD2h { coherentReq sec tag addr.toNat 6 none with psn := data.psn } data.bits.toNat s.begin = some u →
          exec (.dirtyEvict sec tag addr data) s = .next (recordReq { coherentReq sec tag addr.toNat 6 none with psn := data.psn }
            (seeRequest { coherentReq sec tag addr.toNat 6 none with psn := data.psn } 0 u))) ∧
        (s.host.dropped.contains (lostKey (addr.toNat % 2 ^ 48 / 64) sec) = true → Ends (.dirtyEvict sec tag addr data) s fun t =>
          t.noc.reqs = s.noc.reqs ++ [coherentReq sec tag addr.toNat 6 (some .ack)] ∧ t.wake.entries = s.wake.entries ∧
          t.host.dropped = s.host.dropped.erase (lostKey (addr.toNat % 2 ^ 48 / 64) sec)))) ∧
    (issues s (.sector sec) = true → tagBusy s (.sector sec) sec tag = false → agentTakes s sec addr.toNat = false →
      exec (.rdSh sec tag addr) s = .next (recordReq (coherentReq sec tag addr.toNat 3 (some .errBus)) s.begin) ∧
      exec (.rdOwn sec tag addr) s = .next (recordReq (coherentReq sec tag addr.toNat 4 (some .errBus)) s.begin) ∧
      exec (.cleanEvict sec tag addr) s = .next (recordReq (coherentReq sec tag addr.toNat 5 (some .errBus)) s.begin) ∧
      exec (.dirtyEvict sec tag addr data) s = .next (recordReq (coherentReq sec tag addr.toNat 6 (some .errBus)) s.begin)) ∧
    (∀ r v q, r.rsp = some (.data v q) →
      (findReq s (.sector sec) tag [3] = some r → ∃ u, exec (.cdataS sec tag data) s = .next (delivered false r (.data v q) u) ∧
        u.noc = s.noc ∧ u.wake = s.wake ∧ u.out = [] ∧ ∃ e, sfEntry u (lineOf r.addr) = some e ∧ sec.val ∈ e.present ∧ e.owner ≠ some sec.val) ∧
      (findReq s (.sector sec) tag [3, 4] = some r → ∃ u, exec (.cdataE sec tag data) s = .next (delivered true r (.data v q) u) ∧
        u.noc = s.noc ∧ u.wake = s.wake ∧ u.out = [] ∧ ∃ e, sfEntry u (lineOf r.addr) = some e ∧ sec.val ∈ e.present ∧ e.owner = some sec.val)) ∧
    (∀ r, findReq s (.sector sec) tag [5, 6] = some r → r.rsp = some .ack → ∃ u, exec (.evictAck sec tag) s = .next (delivered false r .ack u) ∧
      u.noc = s.noc ∧ u.wake = s.wake ∧ u.out = [] ∧
      ∀ x ∈ u.host.sf, x.1 = lineOf r.addr → x.2.owner ≠ some sec.val ∧ x.2.present ≠ [] ∧
        ∃ y ∈ s.host.sf, y.1 = x.1 ∧ x.2.present = y.2.present.erase sec.val)

/-- Snoops. A snoop of the host goes to every sector that the filter lists for the line, or is answered at once where it lists none.
A snoop message reaches a sector that has still to answer. An answer takes the sector out of the snoop, and out of the entry but for
SNP_DATA, which leaves a sharer, and SNP_CUR, which changes nothing; the last one answers the host, with the data that a
sector gave; every answer is taken (R157). A sector that does not answer in time leaves the entry; the cause SNP_TO says so. -/
def Obligations.SnoopsAskEverySharer : Prop :=
  ∀ (s : State) (line : BitVec 46),
    (∀ c kind, (c = Instr.snpinv line ∧ kind = 0x14 ∨ c = Instr.snpdata line ∧ kind = 0x15 ∨ c = Instr.snpcur line ∧ kind = 0x16) → cacheOn s = true →
      (sfEntry s line.toNat = none → exec c s = .next { s with out := [.snpAnswer line.toNat none] }) ∧
      (∀ e, sfEntry s line.toNat = some e → exec c s = .next { s with
        out := []
        host := { s.host with snoops := s.host.snoops ++ [⟨line.toNat, kind, e.present, none, .host, 0⟩] } })) ∧
    (∀ (sec : Sec) c kind, (c = Instr.snpInv sec line ∧ kind = 0x14 ∨ c = Instr.snpData sec line ∧ kind = 0x15 ∨
        c = Instr.snpCur sec line ∧ kind = 0x16 ∨ c = Instr.binv sec line ∧ kind = 0x17) →
      (∃ n ∈ s.host.snoops, n.line = line.toNat ∧ n.kind = kind ∧ sec.val ∈ n.waiting) → routerAnswers s sec = true → sectorUp s sec = true →
      ∃ u, u = seeMessage (sectorMsg sec true kind 1 (some (line.toNat * 64)) (commandWord (line.toNat * 64) 63 0)) s.begin ∧ exec c s = .next { u with out := u.out ++ [.message kind sec line.toNat 0] }) ∧
    (∀ (sec : Sec) n, s.host.snoops.find? (fun x => x.line == line.toNat && x.waiting.contains sec.val) = some n → (∀ q ∈ s.host.snoops, q.waiting ≠ []) →
      (∀ c d, (c = Instr.snpRsp sec line ∧ d = none ∨ ∃ data : LineData, c = Instr.snpRspData sec line data ∧ d = some (data.bits.toNat, data.psn)) →
        (n.waiting.erase sec.val ≠ [] → Ends c s fun t =>
          t.host.snoops = s.host.snoops.replace n { n with waiting := n.waiting.erase sec.val, data := n.data.or d, last := sec } ∧
          t.wake.entries = s.wake.entries ∧ t.noc.reqs = s.noc.reqs ∧
          (n.kind = 0x16 → t.host.sf = s.host.sf) ∧
          (n.kind = 0x15 → ∀ x ∈ t.host.sf, x.1 = line.toNat → x.2.owner ≠ some sec.val) ∧
          (n.kind ≠ 0x15 → n.kind ≠ 0x16 → ∀ x ∈ t.host.sf, x.1 = line.toNat → x.2.owner ≠ some sec.val ∧
            ∃ y ∈ s.host.sf, y.1 = x.1 ∧ x.2.present = y.2.present.erase sec.val)) ∧
        (n.waiting.erase sec.val = [] → n.who = .host → Ends c s fun t => t.host.snoops = s.host.snoops.erase n ∧
          t.out.getLast? = some (.snpAnswer line.toNat (n.data.or d)) ∧ t.wake.entries = s.wake.entries ∧ t.noc.reqs = s.noc.reqs) ∧
        (n.waiting.erase sec.val = [] → Ends c s fun t => ∀ q ∈ t.host.snoops, q.waiting.contains sec.val = true → q ∈ s.host.snoops)) ∧
      (n.waiting.erase sec.val ≠ [] ∨ n.who = .host → Ends (.snpTimeout sec line) s fun t => t.on (HP_CAUSE_SNP_TO 0) = true ∧
        t.host.dropped = s.host.dropped ++ [lostKey line.toNat sec] ∧ (n.who = .host → n.waiting.erase sec.val = [] →
          .snpAnswer line.toNat n.data ∈ t.out) ∧ t.noc = s.noc ∧ t.wake = s.wake ∧ t.engines = s.engines))

/-! ## Yezar instructions -/

/-- Operations on two sources, on one, and shifts by an immediate: the result goes to RD; with F set Z and N are those of the
result, and C and V what the operation gives; cmp and tst write flags alone. C of a shift by other than 0 is the last bit
shifted out. No other register changes. -/
def Obligations.ArithmeticWritesResultAndFlags : Prop :=
  ∀ (s : State) (g : Eng) (rd rs rt : UReg) (f : Bool) (sh : Fin 32),
    let e := s.eng g
    let a := e.alu rs
    let b := e.alu rt
    let k := (e.st.getLsbD 2).toNat
    let n := b.toNat % 64
    let ofs (r : Word) : Option Bool := some (a.msb == b.msb && r.msb != a.msb)
    let dfs (r : Word) : Option Bool := some (a.msb != b.msb && r.msb != a.msb)
    let shl (n : Nat) : Word × Option Bool := (BitVec.ofNat 32 (a.toNat * 2 ^ n), if n = 0 then none else some (a.toNat * 2 ^ n / 2 ^ 32 % 2 == 1))
    let shr (n : Nat) : Word × Option Bool := (BitVec.ofNat 32 (a.toNat / 2 ^ n), if n = 0 then none else some (a.toNat * 2 / 2 ^ n % 2 == 1))
    let sra (n : Nat) : Word × Option Bool := (BitVec.ofInt 32 (a.toInt / 2 ^ n), if n = 0 then none else some (a.toInt * 2 / 2 ^ n % 2 == 1))
    let ror (n : Nat) : Word × Option Bool := (a.rotateRight (n % 32), if n % 32 = 0 then none else some (a.rotateRight (n % 32)).msb)
    (∀ c i r cf vf, (c, i, r, cf, vf) ∈ ([
        (.yAdd g rd rs rt f, .alu .add rd rs rt f, a + b, some (decide (2 ^ 32 ≤ a.toNat + b.toNat)), ofs (a + b)),
        (.yAdc g rd rs rt f, .alu .adc rd rs rt f, a + b + BitVec.ofNat 32 k, some (decide (2 ^ 32 ≤ a.toNat + b.toNat + k)), ofs (a + b + BitVec.ofNat 32 k)),
        (.ySub g rd rs rt f, .alu .sub rd rs rt f, a - b, some (decide (b.toNat ≤ a.toNat)), dfs (a - b)),
        (.ySbc g rd rs rt f, .alu .sbc rd rs rt f, a - b - BitVec.ofNat 32 (1 - k), some (decide (b.toNat + (1 - k) ≤ a.toNat)), dfs (a - b - BitVec.ofNat 32 (1 - k))),
        (.yAnd g rd rs rt f, .alu .and rd rs rt f, a &&& b, none, none), (.yOr g rd rs rt f, .alu .or rd rs rt f, a ||| b, none, none),
        (.yXor g rd rs rt f, .alu .xor rd rs rt f, a ^^^ b, none, none), (.yAndn g rd rs rt f, .alu .andn rd rs rt f, a &&& ~~~b, none, none),
        (.yShl g rd rs rt f, .alu .shl rd rs rt f, (shl n).1, (shl n).2, none), (.yShr g rd rs rt f, .alu .shr rd rs rt f, (shr n).1, (shr n).2, none),
        (.ySra g rd rs rt f, .alu .sra rd rs rt f, (sra n).1, (sra n).2, none), (.yRor g rd rs rt f, .alu .ror rd rs rt f, (ror n).1, (ror n).2, none),
        (.yShli g rd rs sh f, .shift .shl rd rs sh f, (shl sh).1, (shl sh).2, none), (.yShri g rd rs sh f, .shift .shr rd rs sh f, (shr sh).1, (shr sh).2, none),
        (.ySrai g rd rs sh f, .shift .sra rd rs sh f, (sra sh).1, (sra sh).2, none), (.yRori g rd rs sh f, .shift .ror rd rs sh f, (ror sh).1, (ror sh).2, none),
        (.yMul g rd rs rt f, .alu .mul rd rs rt f, BitVec.ofInt 32 (a.toInt * b.toInt), none, none),
        (.yMulhs g rd rs rt f, .alu .mulhs rd rs rt f, BitVec.ofInt 32 (a.toInt * b.toInt / 2 ^ 32), none, none),
        (.yMulhu g rd rs rt f, .alu .mulhu rd rs rt f, BitVec.ofNat 32 (a.toNat * b.toNat / 2 ^ 32), none, none),
        (.yMin g rd rs rt f, .alu .min rd rs rt f, if a.slt b then a else b, none, none), (.yMax g rd rs rt f, .alu .max rd rs rt f, if a.slt b then b else a, none, none),
        (.yMinu g rd rs rt f, .alu .minu rd rs rt f, if a.ult b then a else b, none, none), (.yMaxu g rd rs rt f, .alu .maxu rd rs rt f, if a.ult b then b else a, none, none),
        (.yClz g rd rs f, .alu .clz rd rs 0 f, if a = 0 then 32 else BitVec.ofNat 32 (31 - a.toNat.log2), none, none),
        (.yPopc g rd rs f, .alu .popc rd rs 0 f, BitVec.ofNat 32 ((List.range 32).map (fun j => a.toNat / 2 ^ j % 2)).sum, none, none),
        (.ySextb g rd rs f, .alu .sextb rd rs 0 f, BitVec.ofInt 32 (BitVec.ofNat 8 a.toNat).toInt, none, none),
        (.ySexth g rd rs f, .alu .sexth rd rs 0 f, BitVec.ofInt 32 (BitVec.ofNat 16 a.toNat).toInt, none, none),
        (.yMov g rd rs f, .alu .mov rd rs 0 f, a, none, none)] : List (Instr × Yz × Word × Option Bool × Option Bool)) →
      Issues s g i → Ends c s fun t => (t.eng g).cur rd = r ∧ (∀ q : Nat, q ≠ rd → (t.eng g).cur q = e.cur q) ∧
        Completed g { (starts s g i).setAlu rd r with
          st := if f then Flags.apply ⟨some (r == 0), some r.msb, cf, vf⟩ e.st else e.st } .next s t) ∧
    (∀ c i r cf vf, (c, i, r, cf, vf) ∈ ([
        (.yCmp g rs rt f, .alu .cmp 0 rs rt f, a - b, some (decide (b.toNat ≤ a.toNat)), dfs (a - b)),
        (.yTst g rs rt f, .alu .tst 0 rs rt f, a &&& b, none, none)] : List (Instr × Yz × Word × Option Bool × Option Bool)) →
      Issues s g i → Ends c s fun t => (∀ q, (t.eng g).cur q = e.cur q) ∧
        Completed g { starts s g i with st := Flags.apply ⟨some (r == 0), some r.msb, cf, vf⟩ e.st } .next s t)

/-- Immediates and selection. addi sign-extends its immediate, andi, ori and xori zero-extend it, and none of them touches a
flag; cmpi, cmpui and tsti write flags alone. movi takes a sign-extended value, movhi replaces the high half. csel takes RS
where the condition holds, else RT. Division. divinit takes the magnitudes of a 32-bit dividend and a 16-bit divisor, or keeps the dividend and sets V and BAD where the
divisor is 0 or the quotient cannot fit; the pair's second register holds the divisor, the steps done, both signs and BAD. Sixteen divs leave the quotient truncated toward zero, modulo 2^16, in the low half and
the remainder, with the dividend's sign, in the high half; the last one sets Z and N by the quotient and V where it does not
fit, or V alone after BAD; no step before it touches a flag; a step after it does nothing, and after BAD the first register stands. -/
def Obligations.ImmediatesSelectionAndDivision : Prop :=
  (∀ (s : State) (g : Eng) (rd rs rt : UReg) (w : BitVec 16) (m : BitVec 14) (cond : Cond),
    let e := s.eng g
    let a := e.alu rs
    (∀ c i r, (c, i, r) ∈ ([
        (.yAddi g rd rs m, .imm .addi rd rs m, a + m.signExtend 32), (.yAndi g rd rs m, .imm .andi rd rs m, a &&& m.setWidth 32),
        (.yOri g rd rs m, .imm .ori rd rs m, a ||| m.setWidth 32), (.yXori g rd rs m, .imm .xori rd rs m, a ^^^ m.setWidth 32),
        (.yMovi g rd w, .movi rd w, w.signExtend 32), (.yMovhi g rd w, .movhi rd w, w ++ (e.alu rd).setWidth 16),
        (.yCsel g cond rd rs rt, .csel cond rd rs rt, if cond.holds e.st then a else e.alu rt)] : List (Instr × Yz × Word)) →
      Issues s g i → Ends c s fun t => (t.eng g).cur rd = r ∧ (∀ q : Nat, q ≠ rd → (t.eng g).cur q = e.cur q) ∧
        Completed g ((starts s g i).setAlu rd r) .next s t) ∧
    (∀ c i b, (c, i, b) ∈ ([(.yCmpi g rs m, .imm .cmpi 0 rs m, m.signExtend 32), (.yCmpui g rs m, .imm .cmpui 0 rs m, m.setWidth 32)]
        : List (Instr × Yz × Word)) → Issues s g i → Ends c s fun t => (∀ q, (t.eng g).cur q = e.cur q) ∧
      Completed g { starts s g i with st := Flags.apply ⟨some (a == b), some (a - b).msb, some (decide (b.toNat ≤ a.toNat)),
        some (a.msb != b.msb && (a - b).msb != a.msb)⟩ e.st } .next s t) ∧
    (Issues s g (.imm .tsti 0 rs m) → Ends (.yTsti g rs m) s fun t => (∀ q, (t.eng g).cur q = e.cur q) ∧
      Completed g { starts s g (.imm .tsti 0 rs m) with
        st := Flags.apply ⟨some (a &&& m.setWidth 32 == 0), some (a &&& m.setWidth 32).msb, none, none⟩ e.st } .next s t)) ∧
  ((∀ (s : State) (g : Eng) (rd rs rt : UReg) (f : Bool),
    let e := s.eng g
    (Issues s g (.divinit rd rs rt f) → Ends (.yDivinit g rd rs rt f) s fun t =>
      let r := divInit (e.alu rs) (e.alu rt)
      (t.eng g).cur rd = r.1 ∧ (t.eng g).cur (rd.val + 1) = r.2.1 ∧
      Completed g { ((starts s g (.divinit rd rs rt f)).setAlu rd r.1).setAlu (rd.val + 1) r.2.1 with st := stSet e.st 3 r.2.2 } .next s t) ∧
    (Issues s g (.divs rd f) → Ends (.yDivs g rd f) s fun t =>
      let st := e.alu (rd.val + 1)
      let r := divStep (e.alu rd) st
      let done : Bool := slice st.toNat 16 5 == 16
      (t.eng g).cur rd = (if done || st.getLsbD 24 then e.cur rd else r.1) ∧ (t.eng g).cur (rd.val + 1) = (if done then e.cur (rd.val + 1) else r.2.1) ∧
      Completed g ((starts s g (.divs rd f)).divs rd) .next s t)) ∧
  ∀ n b : Word,
    let d := (b.setWidth 16).toInt
    let first := (divInit n b).2
    let after : Nat → Word × Word := fun k => divSteps k ((divInit n b).1, first.1)
    let last := divStep (after 15).1 (after 15).2
    (first.2 = true ↔ d = 0 ∨ d.natAbs ≤ n.toInt.natAbs / 2 ^ 16) ∧
    (divInit n b).1.toNat = (if first.2 then n.toNat else n.toInt.natAbs) ∧
    first.1.toNat = d.natAbs + 2 ^ 21 * n.msb.toNat + 2 ^ 22 * (decide (d < 0)).toNat + 2 ^ 24 * first.2.toNat ∧
    (∀ k ≤ 16, (after k).2.toNat = first.1.toNat + 2 ^ 16 * k) ∧
    (∀ k < 15, (divStep (after k).1 (after k).2).2.2 = {}) ∧ divStep (after 16).1 (after 16).2 = ((after 16).1, (after 16).2, {}) ∧
    (first.2 = false →
      ((last.1.toNat % 2 ^ 16 : Nat) : Int) = n.toInt.tdiv d % 2 ^ 16 ∧
      (BitVec.ofNat 16 (last.1.toNat / 2 ^ 16)).toInt = n.toInt.tmod d ∧
      last.2.2 = { z := some (decide (n.toInt.tdiv d % 2 ^ 16 = 0)), n := some (decide (2 ^ 15 ≤ n.toInt.tdiv d % 2 ^ 16)),
                   v := some (decide (n.toInt.tdiv d < -(2 ^ 15) ∨ 2 ^ 15 ≤ n.toInt.tdiv d)) }) ∧
    (first.2 = true → (after 16).1 = n ∧ last.2.2 = { v := some true }))

/-- Loads and stores. A load from the engine's own memories takes the bytes at RB + OFF16, sign-extended by ldb and ldh; where its
regions forbid it, zero. A store changes those bytes alone, or nothing where its regions forbid it. Through the crew port a load
stalls the engine, behind every store in the buffer; a store enters the buffer of eight entries, or stalls while it is full; the word of
IMEM that a store changes may still run in the three instructions that follow. An address that is not aligned raises 0x04, a load of an address that nothing owns 0x05. -/
def Obligations.LoadsAndStoresReachTheLocalMap : Prop :=
  ∀ (s : State) (g : Eng) (rd : UReg) (rb : GReg) (off : BitVec 16),
    let e := s.eng g
    let a := (e.alu rb + off.signExtend 32).toNat
    let p := engPart g
    let u := engUnit g
    (∀ c op (r : Nat → Word), (c, op, r) ∈ ([
        (.yLdb g rd rb off, .ldb, fun v => (BitVec.ofNat 8 v).signExtend 32), (.yLdbu g rd rb off, .ldbu, BitVec.ofNat 32),
        (.yLdh g rd rb off, .ldh, fun v => (BitVec.ofNat 16 v).signExtend 32), (.yLdhu g rd rb off, .ldhu, BitVec.ofNat 32),
        (.yLd g rd rb off, .ld, BitVec.ofNat 32), (.yLdd g rd rb off, .ldd, BitVec.ofNat 32)] : List (Instr × LoadOp × (Nat → Word))) →
      Issues s g (.load op rd rb off) →
        (a % op.bytes = 0 → allowed s g .read a = true →
          (∀ inst o, localOf s g a = .mem inst o → goodBytes s p u inst o op.bytes → Ends c s fun t =>
            let v := bytesValue s p u inst o op.bytes
            (t.eng g).cur rd = r v ∧ (op = .ldd → (t.eng g).cur (rd.val + 1) = BitVec.ofNat 32 (v / 2 ^ 32)) ∧
            Completed g ((starts s g (.load op rd rb off)).loaded op rd v) .next s t) ∧
          (∀ d, localOf s g a = .port d → Ends c s fun t =>
            (t.eng g).wait = some { op := .load op rd, loc := a, dev := d } ∧
            (t.eng g).posted = e.posted.map (fun p => { p with taken := true }) ∧ (t.eng g).pc = e.pc ∧ (t.eng g).u = e.u ∧
            (e.buffered = 0 → (∀ q o, locate d ≠ .fabric q o) → t.eng g = { starts s g (.load op rd rb off) with
                wait := some { op := .load op rd, loc := a, dev := d }
                posted := e.posted.map (fun p => { p with taken := true }) } ∧ OnlyEngine g s t ∧
              Frame [.engines, .wake] [WAKE_SEQ_OUT 0, WAKE_SEQ_OUT 1] s t ∧ ((∀ q o, locate d ≠ .window q o) → Frame [.engines] [] s t))) ∧
          (∀ o, localOf s g a = .eng o → op.bytes ≠ 4 ∨ 0x800 ≤ o ∧ e.feeding = false → Ends c s fun t => (t.eng g).cur rd = 0 ∧
            Completed g ((starts s g (.load op rd rb off)).loaded op rd 0) .next s t) ∧
          (∀ o, localOf s g a = .eng o → op = .ld → o < 0x800 → Ends c s fun t =>
            (t.eng g).cur rd = BitVec.ofNat 32 (readLatched (s.begin.setEng g (starts s g (.load op rd rb off))) (.engine g) (engBase g + o)).1 ∧ OnlyEngine g s t ∧ Frame [.engines, .clocks] [] s t) ∧
          (localOf s g a = .unmapped → e.st.getLsbD 9 = false → noProgram s g → Ends c s fun t => Entered g (starts s g (.load op rd rb off)) 0x05 0 0 (some a) s t ∧
            Frame [.engines] [] s t)) ∧
        (a % op.bytes = 0 → allowed s g .read a = false → Ends c s fun t => (t.eng g).cur rd = 0 ∧
          Completed g ((starts s g (.load op rd rb off)).loaded op rd 0) .next s t) ∧
        (a % op.bytes ≠ 0 → e.st.getLsbD 9 = false → noProgram s g → Ends c s fun t =>
          Entered g (starts s g (.load op rd rb off)) 0x04 0 0 (some a) s t ∧ Frame [.engines] [] s t)) ∧
    (∀ c op v, (c, op, v) ∈ ([
        (.yStb g rd rb off, .stb, (e.alu rd).toNat % 2 ^ 8), (.ySth g rd rb off, .sth, (e.alu rd).toNat % 2 ^ 16),
        (.ySt g rd rb off, .st, (e.alu rd).toNat), (.yStd g rd rb off, .std, (e.alu rd).toNat + (e.alu (rd.val + 1)).toNat * 2 ^ 32)]
          : List (Instr × StoreOp × Nat)) →
      Issues s g (.store op rd rb off) →
        (a % op.bytes = 0 → allowed s g .write a = true →
          (∀ inst o, localOf s g a = .mem inst o → (∀ b ∈ s.onchip.due, ∀ k < op.bytes, b.isAt p u inst (o + k) = false) → Ends c s fun t =>
            Stored s t p u inst o op.bytes v ∧ CompletedStore g { starts s g (.store op rd rb off) with
              oldWords := if inst = 0 then e.oldWords ++ (List.range ((op.bytes + 3) / 4)).map (fun k =>
                (o / 4 + k, BitVec.ofNat 32 (readLocal s g 0 (4 * (o / 4 + k)) 4).1, 4)) else e.oldWords } s t) ∧
          (∀ d, localOf s g a = .port d →
            (e.buffered < 8 → Ends c s fun t => Completed g { starts s g (.store op rd rb off) with
              posted := e.posted ++ [{ loc := a, dev := d, bytes := op.bytes, data := v }] } .next s t) ∧
            (8 ≤ e.buffered → Ends c s fun t => t.eng g = { starts s g (.store op rd rb off) with
                blocked := some { loc := a, dev := d, bytes := op.bytes, data := v } } ∧ OnlyEngine g s t ∧ Frame [.engines] [] s t)) ∧
          (∀ o, localOf s g a = .eng o → op.bytes ≠ 4 ∨ 0x800 ≤ o ∧ e.feeding = false → Ends c s fun t =>
            Completed g (starts s g (.store op rd rb off)) .next s t) ∧
          (localOf s g a = .eng 0x014 → op = .st → Ends c s fun t =>
            t.get (ENG_IRQ_PEND_PEND g) = (s.get (ENG_IRQ_PEND_PEND g) ||| v % 2 ^ 16) % 2 ^ (ENG_IRQ_PEND_PEND g).w ∧ OnlyEngine g s t ∧
            Frame [.engines] [ENG_IRQ_PEND_PEND g] s t) ∧
          (localOf s g a = .unmapped → Ends c s fun t => t.bit (ENG_IRQ_PEND_PEND g) 17 = true ∧ t.get (ENG_ERR_ADDR g) = a ∧
            t.get (ENG_ERR_KIND g) = 1 ∧ t.eng g = ((starts s g (.store op rd rb off)).follow .next).tick ∧ OnlyEngine g s t ∧
            Frame [.engines] [ENG_IRQ_PEND_PEND g, ENG_ERR_ADDR g, ENG_ERR_KIND g, ENG_ERR_COUNT g] s t)) ∧
        (a % op.bytes = 0 → allowed s g .write a = false → Ends c s fun t => Completed g (starts s g (.store op rd rb off)) .next s t) ∧
        (a % op.bytes ≠ 0 → e.st.getLsbD 9 = false → noProgram s g → Ends c s fun t =>
          Entered g (starts s g (.store op rd rb off)) 0x04 0 0 (some a) s t ∧ Frame [.engines] [] s t))

/-- Exclusives and waiting. LDX and STX of crew SRAM (hub SRAM for a hub engine) stall until the crew port answers, behind every store
in the buffer; where a region forbids it, an LDX reads zero and an STX writes 1 and drops the reservation; elsewhere they raise 0x09,
off their alignment 0x04. clrex drops the reservation and the atomic sequence. nop does nothing; wait enters Feather unless an enabled line is pending; a
fence completes at once where no posted store is left, and else stalls. Branches and loops. A branch has one delay slot, the instruction after it; then execution goes on at the target, or behind the
slot where the condition does not hold. bl and jlr link to the address behind the slot. A taken branch out of the loop's body ends
the loop. repeat makes the next instruction run count times; loop runs its body count times, or skips it for 0. -/
def Obligations.ExclusivesFenceWaitBranchesAndLoops : Prop :=
  (∀ (s : State) (g : Eng) (rd : UReg) (gs rb : GReg) (wide : Bool),
    let e := s.eng g
    let a := (e.alu rb.val).toNat
    let n := if wide then 8 else 4
    let all : List Posted := e.posted.map (fun p => { p with taken := true })
    (Issues s g (.ldx rd rb wide) →
      (∀ d, a % n = 0 → exclusiveRange g a = true → allowed s g .read a = true → localOf s g a = .port d → Ends (.yLdx g rd rb wide) s fun t =>
        (t.eng g).wait = some { op := .ldx rd wide, loc := a, dev := d } ∧ (t.eng g).posted = all ∧ (t.eng g).pc = e.pc ∧ (t.eng g).u = e.u ∧
        (e.buffered = 0 → t.eng g = { starts s g (.ldx rd rb wide) with
            wait := some { op := .ldx rd wide, loc := a, dev := d }
            posted := all } ∧ OnlyEngine g s t ∧ Frame [.engines] [] s t)) ∧
      (a % n = 0 → exclusiveRange g a = true → allowed s g .read a = false → Ends (.yLdx g rd rb wide) s fun t => (t.eng g).cur rd = 0 ∧
        Completed g ((starts s g (.ldx rd rb wide)).loaded (if wide then .ldd else .ld) rd 0) .next s t) ∧
      (a % n ≠ 0 → e.st.getLsbD 9 = false → noProgram s g → Ends (.yLdx g rd rb wide) s fun t =>
        Entered g (starts s g (.ldx rd rb wide)) 0x04 0 0 (some a) s t ∧ Frame [.engines] [] s t) ∧
      (a % n = 0 → exclusiveRange g a = false → e.st.getLsbD 9 = false → noProgram s g → Ends (.yLdx g rd rb wide) s fun t =>
        Entered g (starts s g (.ldx rd rb wide)) 0x09 0 0 (some a) s t ∧ Frame [.engines] [] s t)) ∧
    (Issues s g (.stx rd gs rb wide) →
      (∀ d, a % n = 0 → exclusiveRange g a = true → allowed s g .write a = true → localOf s g a = .port d → Ends (.yStx g rd gs rb wide) s fun t =>
        let w : PortReq := { op := .stx rd wide (BitVec.ofNat 64 ((e.alu gs.val).toNat + if wide then (e.alu (gs.val + 1)).toNat * 2 ^ 32 else 0))
                             loc := a, dev := d }
        (t.eng g).wait = some w ∧ (t.eng g).posted = all ∧ (t.eng g).pc = e.pc ∧ (t.eng g).u = e.u ∧
        (e.buffered = 0 → t.eng g = { starts s g (.stx rd gs rb wide) with
            wait := some w
            posted := all } ∧ OnlyEngine g s t ∧ Frame [.engines] [] s t)) ∧
      (a % n = 0 → exclusiveRange g a = true → allowed s g .write a = false → Ends (.yStx g rd gs rb wide) s fun t =>
        (t.eng g).cur rd = 1 ∧ (t.eng g).rsv = none ∧ (t.eng g).atom = none ∧
        Completed g ({ starts s g (.stx rd gs rb wide) with rsv := none, atom := none }.setStatus rd 1) .next s t) ∧
      (a % n ≠ 0 → e.st.getLsbD 9 = false → noProgram s g → Ends (.yStx g rd gs rb wide) s fun t =>
        Entered g (starts s g (.stx rd gs rb wide)) 0x04 0 0 (some a) s t ∧ Frame [.engines] [] s t) ∧
      (a % n = 0 → exclusiveRange g a = false → e.st.getLsbD 9 = false → noProgram s g → Ends (.yStx g rd gs rb wide) s fun t =>
        Entered g (starts s g (.stx rd gs rb wide)) 0x09 0 0 (some a) s t ∧ Frame [.engines] [] s t)) ∧
    (Issues s g .clrex → Ends (.yClrex g) s fun t => (t.eng g).rsv = none ∧ (t.eng g).atom = none ∧
      Completed g { starts s g .clrex with rsv := none, atom := none } .next s t) ∧
    (Issues s g .nop → Ends (.yNop g) s fun t => Completed g (starts s g .nop) .next s t) ∧
    (Issues s g .fence → (e.posted = [] → Ends (.yFence g) s fun t => Completed g { starts s g .fence with oldWords := [] } .next s t) ∧
      (e.posted ≠ [] → Ends (.yFence g) s fun t => (t.eng g).fencing = true ∧ (t.eng g).posted = all ∧ (t.eng g).pc = e.pc ∧
        (e.buffered = 0 → t.eng g = { starts s g .fence with
            fencing := true
            posted := all } ∧ OnlyEngine g s t ∧ Frame [.engines] [] s t))) ∧
    (Issues s g .wait →
      (s.get (ENG_IRQ_PEND_PEND g) &&& e.ien.toNat = 0 → Ends (.yWait g) s fun t => t.get (ENG_STATUS_STATE g) = 2 ∧
        t.eng g = ((starts s g .wait).follow .next).tick ∧ OnlyEngine g s t ∧ Frame [.engines] [ENG_STATUS_STATE g] s t) ∧
      (s.get (ENG_IRQ_PEND_PEND g) &&& e.ien.toNat ≠ 0 → Ends (.yWait g) s fun t => Completed g (starts s g .wait) .next s t))) ∧
  (∀ (s : State) (g : Eng) (cond : Cond) (rb : GReg) (o22 : BitVec 22) (o26 : BitVec 26),
    let e := s.eng g
    let out (x : Word) : Bool := e.testLs.toNat ≤ x.toNat && x.toNat ≤ e.testLe.toNat
    (∀ c i taken link target, (c, i, taken, link, target) ∈ ([
        (.yB g cond o22, .b cond o22, cond.holds e.st, false, e.pc + BitVec.ofInt 32 (4 * o22.toInt)),
        (.yBl g o26, .bl o26, true, true, e.pc + BitVec.ofInt 32 (4 * o26.toInt)),
        (.yJr g cond rb, .jr cond rb, cond.holds e.st, false, e.alu rb.val &&& 0xFFFFFFFC#32),
        (.yJlr g cond rb, .jlr cond rb, cond.holds e.st, true, e.alu rb.val &&& 0xFFFFFFFC#32)]
          : List (Instr × Yz × Bool × Bool × Word)) →
      Issues s g i → Ends c s fun t => OnlyEngine g s t ∧ Frame [.engines] [] s t ∧ (t.eng g).pc = e.pc + 4#32 ∧
        (t.eng g).slot = some (if taken then target else e.pc + 8#32, taken) ∧
        (t.eng g).cur 15 = (if taken && link then e.pc + 8#32 else e.cur 15) ∧ (∀ q, q ≠ 15 → (t.eng g).cur q = e.cur q) ∧
        (t.eng g).st = (if taken && e.st.getLsbD 10 && !out target then stSet e.st 10 false else e.st) ∧ (t.eng g).acc = e.acc) ∧
    (∀ x b, Issues s g .nop → e.rep = none → e.slot = some (x, b) → Ends (.yNop g) s fun t => (t.eng g).pc = x ∧ (t.eng g).slot = none) ∧
    (∀ r, Issues s g .nop → e.rep = some r → Ends (.yNop g) s fun t =>
      (r.done + 1 < r.count → (t.eng g).pc = e.pc ∧ (t.eng g).rep = some { r with done := r.done + 1 }) ∧
      (r.count ≤ r.done + 1 → (t.eng g).rep = none ∧ (e.atLe = false → (t.eng g).pc = e.pc + 4#32))) ∧
    (Issues s g .nop → e.rep = none → e.slot = none → e.atLe = true → Ends (.yNop g) s fun t =>
      (1 < e.testLc.toNat → (t.eng g).pc = e.testLs ∧ (t.eng g).lc = e.testLc - 1#32) ∧
      (e.testLc = 1#32 → (t.eng g).pc = e.pc + 4#32 ∧ (t.eng g).lc = 0 ∧ (t.eng g).st.getLsbD 10 = false)) ∧
    (∀ count : BitVec 12 ⊕ GReg, Issues s g (.repeat count) → Ends (.yRepeat g count) s fun t =>
      (t.eng g).pc = e.pc + 4#32 ∧ (t.eng g).rep = some ⟨e.pc, match count with
        | .inl n => n.toNat + 1
        | .inr r => (e.alu r.val).toNat, 0⟩ ∧ OnlyEngine g s t ∧ Frame [.engines] [] s t) ∧
    (∀ (len : BitVec 9) (count : BitVec 16 ⊕ GReg), Issues s g (.loop len count) → Ends (.yLoop g len count) s fun t =>
      let n := match count with
        | .inl c => c.toNat
        | .inr r => (e.alu r.val).toNat % 2 ^ 16
      let last := e.pc + BitVec.ofNat 32 (4 * len.toNat)
      (t.eng g).lc = BitVec.ofNat 32 n ∧ (t.eng g).ls = e.pc + 4#32 ∧ (t.eng g).le = last ∧ (t.eng g).lateLoop = [] ∧
      (t.eng g).st = stSet e.st 10 (n != 0) ∧ (t.eng g).pc = (if n = 0 then last + 4#32 else e.pc + 4#32) ∧
      OnlyEngine g s t ∧ Frame [.engines] [] s t))

/-- D-arith. Both words are read at X and Y pointers; each lane whose mask bit is set takes its operation's value, the others
stand; pointers whose U bit is set are post-updated, by STEP, within a circular buffer of LEN bytes, or bit-reversed, unless a control,
immediate or load write of the pointer is not visible yet. Moves between accumulators, registers and memory. An extraction takes bits [31:16] of a lane plus 2^15, limited with SAT set
where it saturates; mfa takes a lane's low word, mfah its guard bytes, mta writes a lane sign-extended, mtah the guard bytes,
clra zero, sha shifts each lane by a signed amount. exst and gst store four half-words at an X or a Y pointer. -/
def Obligations.LanesAndAccumulators : Prop :=
  (∀ (s : State) (g : Eng) (a xi yi : Fin 4) (xu yu : Bool) (lm : BitVec 4),
    let e := s.eng g
    let p := engPart g
    let u := engUnit g
    let ox := pointerOffset (e.addr (16 + xi.val))
    let oy := pointerOffset (e.addr (20 + yi.val))
    let x := bytesValue s p u 1 ox 8
    let y := bytesValue s p u 2 oy 8
    let sx (k : Nat) : Int := (BitVec.ofNat 16 (x / 2 ^ (16 * k))).toInt
    let sy (k : Nat) : Int := (BitVec.ofNat 16 (y / 2 ^ (16 * k))).toInt
    let lost (r : Nat) : Bool := e.late.any (fun l => l.reg == r && l.addr != 0 && l.stands)
    let shown (r : Nat) (on : Bool) (l : List Late) : List Late := if on && !lost r then l.filter (fun x => x.reg != r) else l
    let gf (k : Nat) : Nat := gf4 (x / 2 ^ (16 * k) % 2 ^ 16) (y / 2 ^ (16 * k) % 2 ^ 16)
    (∀ c op (lane : Nat → Lane → Lane), (c, op, lane) ∈ ([
        (.yMpy g a xi yi xu yu lm, .mpy, fun k _ => BitVec.ofInt 40 (sx k * sy k)),
        (.yMac g a xi yi xu yu lm, .mac, fun k o => BitVec.ofInt 40 (o.toInt + sx k * sy k)),
        (.yMsu g a xi yi xu yu lm, .msu, fun k o => BitVec.ofInt 40 (o.toInt - sx k * sy k)),
        (.ySqa g a xi yi xu yu lm, .sqa, fun k o => BitVec.ofInt 40 (o.toInt + sx k * sx k)),
        (.yAccx g a xi yi xu yu lm, .accx, fun k o => BitVec.ofInt 40 (o.toInt + sx k * 2 ^ 16)),
        (.ySubx g a xi yi xu yu lm, .subx, fun k o => BitVec.ofInt 40 (o.toInt - sx k * 2 ^ 16)),
        (.yGmpy g a xi yi xu yu lm, .gmpy, fun k _ => BitVec.ofNat 40 (gf k)),
        (.yGmac g a xi yi xu yu lm, .gmac, fun k o => BitVec.ofNat 40 (o.toNat % 2 ^ 32 ^^^ gf k))] : List (Instr × DspOp × (Nat → Lane → Lane))) →
      Issues s g (.dsp op a xi yi xu yu lm) → allowed s g .read (0x10000 + ox) = true → allowed s g .read (0x20000 + oy) = true →
        (goodBytes s p u 1 ox 8 → goodBytes s p u 2 oy 8 →
          Ends c s fun t => OnlyEngine g s t ∧ Frame [.engines, .freeCtr] [] s t ∧
            (∀ k < 4, smGet 0 (t.eng g).acc (4 * a.val + k) =
              if lm.getLsbD k then lane k (smGet 0 e.acc (4 * a.val + k)) else smGet 0 e.acc (4 * a.val + k)) ∧
            (∀ j, j < 4 * a.val ∨ 4 * a.val + 4 ≤ j → smGet 0 (t.eng g).acc j = smGet 0 e.acc j) ∧
            (xu = true → lost (16 + xi.val) = false → ∀ v,
              pointerNext (e.addr (16 + xi.val)) (e.addr (24 + xi.val)) (e.addr (32 + xi.val)) = some v → (t.eng g).cur (16 + xi.val) = v) ∧
            (yu = true → lost (20 + yi.val) = false → ∀ v,
              pointerNext (e.addr (20 + yi.val)) (e.addr (28 + yi.val)) (e.addr (36 + yi.val)) = some v → (t.eng g).cur (20 + yi.val) = v) ∧
            (∀ q, (q = 16 + xi.val → xu = false ∨ lost q = true) → (q = 20 + yi.val → yu = false ∨ lost q = true) → (t.eng g).cur q = e.cur q) ∧
            t.eng g = (Engine.follow { starts s g (.dsp op a xi yi xu yu lm) with
              u := (t.eng g).u
              acc := (t.eng g).acc
              late := shown (20 + yi.val) yu (shown (16 + xi.val) xu e.late)
              lateAcc := e.lateAcc ++ if lm = 0 then [] else [⟨a.val, e.lanes a.val, 2⟩] } .next).tick)) ∧
    (∀ pt st len : Word,
      (len.getLsbD 31 = false → len.toNat % 2 ^ 15 = 0 → pointerNext pt st len = some (pt + st)) ∧
      (∀ b l, len.getLsbD 31 = false → len.toNat % 2 ^ 15 = l → 0 < l → b = pt.toNat / powAtLeast l * powAtLeast l → pt.toNat < b + l →
        (st.toInt.natAbs ≤ l → ∃ v : Word, pointerNext pt st len = some v ∧ b ≤ v.toNat ∧ v.toNat < b + l ∧
          ((v.toNat : Int) - pt.toNat - st.toInt) % l = 0)))) ∧
  (∀ (s : State) (g : Eng) (rd rs : GReg) (a k pi : Fin 4) (sat h u : Bool) (n : BitVec 6),
    let e := s.eng g
    let seen (k : Nat) : Lane := (e.seenLanes a.val).getD k 0
    let lane (k : Nat) : Lane := smGet 0 e.acc (4 * a.val + k)
    let limit (l : Lane) : Int := let v := (l.toInt + 2 ^ 15) / 2 ^ 16; if sat then max (-(2 ^ 15)) (min (2 ^ 15 - 1) v) else v
    let clips (l : Lane) : Bool := sat && (2 ^ 31 ≤ l.toInt + 2 ^ 15 || l.toInt + 2 ^ 15 < -(2 ^ 31))
    (Issues s g (.ext rd a k sat) → Ends (.yExt g rd a k sat) s fun t =>
      (t.eng g).cur rd.val = (BitVec.ofInt 16 (limit (seen k.val))).signExtend 32 ∧ (∀ q : Nat, q ≠ rd.val → (t.eng g).cur q = e.cur q) ∧
      Completed g { (starts s g (.ext rd a k sat)).setMove rd.val ((BitVec.ofInt 16 (limit (seen k.val))).signExtend 32) with
        st := if clips (seen k.val) then stSet e.st 4 true else e.st } .next s t) ∧
    (Issues s g (.mfa rd a k) → Ends (.yMfa g rd a k) s fun t => (t.eng g).cur rd.val = BitVec.ofNat 32 (seen k.val).toNat ∧
      Completed g ((starts s g (.mfa rd a k)).setMove rd.val (BitVec.ofNat 32 (seen k.val).toNat)) .next s t) ∧
    (Issues s g (.mfah rd a) → Ends (.yMfah g rd a) s fun t =>
      (∀ j < 4, (t.eng g).cur rd.val / BitVec.ofNat 32 (256 ^ j) % 256 = BitVec.ofNat 32 ((seen j).toNat / 2 ^ 32)) ∧
      ∃ r, Completed g ((starts s g (.mfah rd a)).setMove rd.val r) .next s t) ∧
    (∀ c i (f : Nat → Lane), (c, i, f) ∈ ([
        (.yMta g a k rs, .mta a k rs, fun j => if j = k.val then (e.alu rs.val).signExtend 40 else lane j),
        (.yMtah g a rs, .mtah a rs, fun j => BitVec.ofNat 40 ((lane j).toNat % 2 ^ 32 + (e.alu rs.val).toNat / 256 ^ j % 256 * 2 ^ 32)),
        (.yClra g a, .clra a, fun _ => 0),
        (.ySha g a n, .sha a n, fun j => if 0 ≤ n.toInt then lane j <<< n.toInt.toNat else BitVec.ofInt 40 ((lane j).toInt / 2 ^ n.toInt.natAbs))]
          : List (Instr × Yz × (Nat → Lane))) →
      Issues s g i → Ends c s fun t => (∀ j < 4, smGet 0 (t.eng g).acc (4 * a.val + j) = f j) ∧
        (∀ j, j < 4 * a.val ∨ 4 * a.val + 4 ≤ j → smGet 0 (t.eng g).acc j = smGet 0 e.acc j) ∧ (∀ q, (t.eng g).cur q = e.cur q) ∧
        Completed g ((starts s g i).setLanes a.val ((List.range 4).map f)) .next s t) ∧
    (∀ c i y v (o : Bool), (c, i, y, v, o) ∈ ([
        (.yExstx g a sat pi u, .exst false a sat pi u, false, fun j => (BitVec.ofInt 16 (limit (seen j))).toNat, (List.range 4).any (fun j => clips (seen j))),
        (.yExsty g a sat pi u, .exst true a sat pi u, true, fun j => (BitVec.ofInt 16 (limit (seen j))).toNat, (List.range 4).any (fun j => clips (seen j))),
        (.yGstx g a h pi u, .gst false a h pi u, false, fun j => (seen j).toNat / 2 ^ (16 * h.toNat) % 2 ^ 16, false),
        (.yGsty g a h pi u, .gst true a h pi u, true, fun j => (seen j).toNat / 2 ^ (16 * h.toNat) % 2 ^ 16, false)]
          : List (Instr × Yz × Bool × (Nat → Nat) × Bool)) →
      let ptr := (if y then 20 else 16) + pi.val
      let inst := if y then 2 else 1
      let o₀ := pointerOffset (e.addr ptr)
      let next := pointerNext (e.addr ptr) (e.addr (ptr + 8)) (e.addr (ptr + 16))
      Issues s g i → (∀ b ∈ s.onchip.due, ∀ j < 8, b.isAt (engPart g) (engUnit g) inst (o₀ + j) = false) → (e.seenLanes a.val).length = 4 →
        Ends c s fun t => OnlyEngine g s t ∧ Frame [.engines, .onchip, .freeCtr] [] s t ∧
          (allowed s g .write (inst * 0x10000 + o₀) = true →
            Stored s t (engPart g) (engUnit g) inst o₀ 8 (v 0 + 2 ^ 16 * v 1 + 2 ^ 32 * v 2 + 2 ^ 48 * v 3)) ∧
          (allowed s g .write (inst * 0x10000 + o₀) = false → t.onchip = s.onchip) ∧
          (u = true → e.late.any (fun l => l.reg == ptr && l.addr != 0 && l.stands) = false → ∀ x, next = some x → (t.eng g).cur ptr = x) ∧
          (∀ q, (q = ptr → u = false) → (t.eng g).cur q = e.cur q) ∧ (t.eng g).acc = e.acc ∧
          (e.atLe = false → (t.eng g).st = if o then stSet e.st 4 true else e.st)))

/-- Control registers and handlers. mfc reads a control register, c14 and c15 the timestamp's words; mtc writes the bits that each
takes. svc enters the handler with code 0x0A from the address behind it; reti goes back to EPC, or into the slot that EST.DS and
ETGT name, with the saved status and context. A word that is no instruction raises 0x01, and a double fault while EXL is set. Interrupts and Feather. At a clean boundary with IE set and EXL clear the lowest line that is pending and enabled is taken with
code 0x20, its number in INFO, at the vector 0x80; while none is, or IE is clear, nothing happens. An engine in Feather runs again when a line it
enables is pending. -/
def Obligations.ControlRegistersHandlersInterruptsAndFeather : Prop :=
  (∀ (s : State) (g : Eng) (rd : UReg) (cn : Fin 16),
    let e := s.eng g
    let v := e.alu rd
    let ts := s.clocks.ts
    (Issues s g (.mfc rd cn) → Ends (.yMfc g rd cn) s fun t =>
      some ((t.eng g).cur rd) = [e.pc, e.st, e.epc, e.est, e.ecause, e.ectx, e.etgt, e.ctxid, e.ien, e.vbase, e.eaddr, e.lc, e.ls, e.le,
        BitVec.ofNat 32 ts, BitVec.ofNat 32 (e.tsh.getD (ts / 2 ^ 32))][cn.val]? ∧
      (∀ q : Nat, q ≠ rd → (t.eng g).cur q = e.cur q) ∧
      Completed g ({ starts s g (.mfc rd cn) with tsh := if cn = 14 then some (ts / 2 ^ 32) else if cn = 15 then none else e.tsh }.setMove rd
        ((t.eng g).cur rd)) .next s t) ∧
    (Issues s g (.mtc cn rd) → e.feeding = false → Ends (.yMtc g cn rd) s fun t => ∃ d, Completed g d .next s t ∧ (∀ q, d.cur q = e.cur q) ∧
      d.acc = e.acc ∧ d.pc = e.pc ∧ d.slot = e.slot ∧ d.rep = e.rep ∧ d.ctxid = e.ctxid ∧
      d.st = (if cn = 1 then (if e.ctxid.toNat % 256 = 0 then e.st &&& 0xFFFFF8E0#32 ||| v &&& 0x71F#32 else e.st &&& 0xFFFFFFE0#32 ||| v &&& 0x1F#32) else e.st) ∧
      d.epc = (if cn = 2 then v else e.epc) ∧ d.est = (if cn = 3 then v &&& 0xF1F#32 else e.est) ∧
      d.ecause = (if cn = 4 then v &&& 0xFFFF01FF#32 else e.ecause) ∧ d.ectx = (if cn = 5 then v &&& 0xFF#32 else e.ectx) ∧
      d.etgt = (if cn = 6 then v else e.etgt) ∧ d.ien = (if cn = 8 then v else e.ien) ∧ d.vbase = (if cn = 9 then v &&& 0xFFFFFF00#32 else e.vbase) ∧
      d.eaddr = (if cn = 10 then v else e.eaddr) ∧ d.lc = (if cn = 11 then v else e.lc) ∧ d.ls = (if cn = 12 then v else e.ls) ∧
      d.le = (if cn = 13 then v else e.le)) ∧
    (∀ num : BitVec 16, Issues s g (.svc num) → e.st.getLsbD 9 = false → Ends (.ySvc g num) s fun t =>
      Entered g ((starts s g (.svc num)).follow (.svc num.toNat)).tick 0x0A num.toNat 0x40 none s t ∧ Frame [.engines] [] s t ∧
      (e.atLe = false → (t.eng g).epc = e.pc + 4#32)) ∧
    (Issues s g .reti → Ends (.yReti g) s fun t => (t.eng g).pc = e.epc ∧ (t.eng g).st = stSet e.est 11 false ∧ (t.eng g).ctxid = e.ectx ∧
      (t.eng g).slot = (if e.est.getLsbD 11 then some (e.etgt, true) else none) ∧ (t.eng g).u = e.u ∧ (t.eng g).acc = e.acc ∧
      OnlyEngine g s t ∧ Frame [.engines] [] s t) ∧
    (∀ word : Word, (∀ i, decodeYezar word = some i → i.isDefined = false) → Fetches s g →
      bytesValue s (engPart g) (engUnit g) 0 e.pc.toNat 4 = word.toNat →
      (e.st.getLsbD 9 = false → noProgram s g → Ends (.undefinedInstruction g word) s fun t =>
        Entered g { e with resumed := false } 0x01 0 0 none s t ∧ Frame [.engines] [] s t) ∧
      (e.st.getLsbD 9 = true → g.val < 1024 → Ends (.undefinedInstruction g word) s fun t => t.get (ENG_STATUS_STATE g) = 4 ∧ OnlyEngine g s t ∧
        (t.bit (if g.val % 64 < 32 then CH_ENG_CAUSE_LO_ENG (g.val / 64) else CH_ENG_CAUSE_HI_ENG (g.val / 64)) (g.val % 32) = true)))) ∧
  (∀ (s : State) (g : Eng) (next : Option Yz),
    let e := s.eng g
    let ready (l : Nat) : Bool := (s.get (ENG_IRQ_PEND_PEND g)).testBit l && e.ien.getLsbD l
    (∀ l, l < 32 → ready l = true → (∀ k < l, ready k = false) → engReady s g = true → e.haltReq = none → e.stepping = false →
      e.st.getLsbD 8 = true → e.st.getLsbD 9 = false → e.clean next = true → Ends (.interruptEntry g next) s fun t =>
        Entered g e 0x20 l 0x80 none s t ∧ Frame [.engines] [] s t) ∧
    (e.st.getLsbD 8 = false ∨ e.st.getLsbD 9 = true ∨ (∀ l < 32, ready l = false) ∨ e.clean next = false →
      exec (.interruptEntry g next) s = .next s.begin) ∧
    (s.get (ENG_STATUS_STATE g) = 2 → runs s (engDomain g) = true → inEasy s (engPart g) = false → s.clocks.halted = false →
      s.get (ENG_IRQ_PEND_PEND g) &&& e.ien.toNat ≠ 0 → Ends (.featherWake g) s fun t => t.get (ENG_STATUS_STATE g) = 1 ∧
        Frame [] [ENG_STATUS_STATE g] s t))

/-- The crew port, for crew SRAM, whose bank's round has come to the engine. The response of a stalled load, LDX or STX ends its stall: the load takes the bytes; the LDX also reserves the
line; the STX stores and writes 0 while its reservation stands, else writes 1 and stores nothing. Poison raises 0x08, any other
error 0x05. The oldest posted store is stored by its response. A timeout raises 0x05, or for a store sets ENG_ERR and line 17, and
the response that comes later is discarded. -/
def Obligations.CrewPortAnswersEndTheStall : Prop :=
  ∀ (s : State) (g : Eng) (data : BitVec 64) (loc dev p i o : Nat),
    let e := s.eng g
    let served (t : State) : Prop := t.onchip = { s.onchip with banks := t.onchip.banks }
    e.feeding = false → e.stepping = false → s.slots.stopped = [] → (∀ k < 8, (s.get (ENG_DBG_CTRL g k)).testBit 31 = false) →
    plainOf dev = some (.chip p 69 i o) → chipStop s p = none → s.clocks.halted = false → easyHolds s p = false →
    outboundOf s (.engine g) 0 0 = none → outboundOf s (.engine g) 1 1 = none → (∀ r ∈ s.noc.reqs, r.unit = true → r.req ≠ .engine g) →
    runs s 181 = true → outOfTurn s g dev .ok = false →
    hasRight s (.engine g) dev false = true → hasRight s (.engine g) dev true = true →
    (∀ op rd, e.wait = some { op := .load op rd, loc := loc, dev := dev } → e.posted.all (fun q => portDest s q.loc q.dev != portDest s loc dev) = true →
      (goodBytes s p 69 i o op.bytes → Ends (.crewPortResponse g false .ok data) s fun t => served t ∧
        CompletedStore g ({ e with wait := none }.loaded op rd (bytesValue s p 69 i o op.bytes)) s t) ∧
      (∀ st, st ≠ PortStatus.ok → e.st.getLsbD 9 = false → noProgram s g → Ends (.crewPortResponse g false st data) s fun t =>
        Entered g e (if st = .poison then 0x08 else 0x05) 0 0 (some loc) s t ∧ Frame [.engines] [] s t) ∧
      (e.st.getLsbD 9 = false → noProgram s g → Ends (.crewPortTimeout g false) s fun t =>
        Entered g e 0x05 0 0 (some loc) s t ∧ (t.eng g).stale = e.stale + 1 ∧ Frame [.engines] [] s t)) ∧
    (∀ rd wide, e.wait = some { op := .ldx rd wide, loc := loc, dev := dev } → e.posted = [] → goodBytes s p 69 i o (if wide then 8 else 4) →
      Ends (.crewPortResponse g false .ok data) s fun t => served t ∧
        CompletedStore g ({ e with
          wait := none
          rsv := some (loc / 64, wide)
          atom := some 0 }.loaded (if wide then .ldd else .ld) rd (bytesValue s p 69 i o (if wide then 8 else 4))) s t) ∧
    (∀ rd wide v, e.wait = some { op := .stx rd wide v, loc := loc, dev := dev } → e.posted = [] →
      (e.rsv = some (loc / 64, wide) → s.onchip.due = [] → Ends (.crewPortResponse g false .ok data) s fun t =>
        Stored s t p 69 i o (if wide then 8 else 4) v.toNat ∧ (t.eng g).rsv = none ∧ (t.eng g).atom = none ∧ (rd < 40 → (t.eng g).cur rd = 0) ∧
        (t.eng g).wait = none) ∧
      (e.rsv ≠ some (loc / 64, wide) → Ends (.crewPortResponse g false .ok data) s fun t =>
        Completed g ({ e with
          wait := none
          rsv := none
          atom := none }.setStatus rd 1) .next s t)) ∧
    (∀ q rest, e.posted = q :: rest → q.loc = loc → q.dev = dev → q.mute = false → q.dead = false → e.fencing = false → e.blocked = none →
      (s.onchip.due = [] → Ends (.crewPortResponse g true .ok data) s fun t => Stored s t p 69 i o q.bytes q.data ∧ (t.eng g).posted = rest) ∧
      (∀ c, c = Instr.crewPortTimeout g true ∨ c = Instr.crewPortResponse g true .busError data → loc < 2 ^ 32 → Ends c s fun t =>
        (t.eng g).posted = rest ∧ t.bit (ENG_IRQ_PEND_PEND g) 17 = true ∧ t.get (ENG_ERR_ADDR g) = loc ∧ t.get (ENG_ERR_KIND g) = 2 ∧
        Frame [.engines] [ENG_IRQ_PEND_PEND g, ENG_ERR_ADDR g, ENG_ERR_KIND g, ENG_ERR_COUNT g] s t)) ∧
    (e.wait = none → ∀ st, Ends (.crewPortResponse g false st data) s fun t => t.eng g = { e with stale := e.stale - 1 } ∧ OnlyEngine g s t ∧
      Frame [.engines] [] s t)

/-- Engine registers and events. A kick with 0x5A loads the watchdog's count, any other key does nothing; a write of the load sets load and
count. RUN newly set, or RESTART with RUN, starts the core at ENG_BOOT with its registers zero; RUN cleared holds it in reset. The
bite counts, starts the core with code 0x10, discards the stores in the buffer and the responses of the others, and sets its crew's cause. A write of ENG_IRQ_SET adds lines; an armed timer sets line 16 once.
Accesses from outside to an engine's memory take effect with the requester's rights. -/
def Obligations.EngineRegistersAndEvents : Prop :=
  ∀ (s : State) (req : Requester) (g : Eng),
    let e := s.eng g
    let fresh (code : Nat) : Engine := { e.coreReset with
      pc := BitVec.ofNat 32 (s.get (ENG_BOOT_PC g) * 4)
      ecause := BitVec.ofNat 32 code }
    (regGate s req (engBase g + 0x20) 4 true = .reach → ∀ data : Word, Ends (.engWdtLoad req g data) s fun t =>
      t.get (ENG_WDT_LOAD_LOAD g) = data.toNat % 2 ^ (ENG_WDT_LOAD_LOAD g).w ∧ t.get (ENG_WDT_COUNT_COUNT g) = data.toNat % 2 ^ (ENG_WDT_COUNT_COUNT g).w ∧
      t.out = [.done] ∧ Frame [] [ENG_WDT_LOAD_LOAD g, ENG_WDT_COUNT_COUNT g] s t) ∧
    (regGate s req (engBase g + 0x28) 4 true = .reach → ∀ key : BitVec 8, Ends (.engWdtKick req g key) s fun t => t.out = [.done] ∧
      (key = 0x5A#8 → t.get (ENG_WDT_COUNT_COUNT g) = s.get (ENG_WDT_LOAD_LOAD g) % 2 ^ (ENG_WDT_COUNT_COUNT g).w) ∧
      Frame [] (if key = 0x5A#8 then [ENG_WDT_COUNT_COUNT g] else []) s t) ∧
    (regGate s req (engBase g) 4 true = .reach → s.on (ENG_DBG_HOR g) = false →
      (∀ c, c = Instr.engCtrlRun req g true ∧ s.on (ENG_CTRL_RUN g) = false ∨ c = Instr.engCtrlRestart req g true → Ends c s fun t =>
        t.eng g = fresh 0 ∧ t.get (ENG_STATUS_STATE g) = 1 ∧ t.on (ENG_CTRL_RUN g) = true ∧ t.on (ENG_DBG_HALTED g) = false ∧ OnlyEngine g s t ∧
        Frame [.engines] [ENG_CTRL_RUN g, ENG_STATUS_STATE g, ENG_DBG_HALTED g] s t) ∧
      (∀ c, c = Instr.engCtrlRun req g false ∨ c = Instr.engCtrlRestart req g false → s.on (ENG_CTRL_RUN g) = true → Ends c s fun t =>
        t.eng g = e.coreReset ∧ t.get (ENG_STATUS_STATE g) = 0 ∧ t.on (ENG_CTRL_RUN g) = false ∧ OnlyEngine g s t ∧
        Frame [.engines] [ENG_CTRL_RUN g, ENG_STATUS_STATE g, ENG_DBG_HALTED g] s t)) ∧
    (regGate s req (engBase g + 0x14) 4 true = .reach → ∀ lines : BitVec 16, Ends (.engIrqSet req g lines) s fun t =>
      t.get (ENG_IRQ_PEND_PEND g) = (s.get (ENG_IRQ_PEND_PEND g) ||| lines.toNat) % 2 ^ (ENG_IRQ_PEND_PEND g).w ∧ Frame [] [ENG_IRQ_PEND_PEND g] s t) ∧
    (regGate s req (engBase g + 0x34) 4 true = .reach → ∀ hi : Word, Ends (.engTmrArm req g hi) s fun t => t.eng g = { e with tmrArmed := true } ∧
      t.get (ENG_TMR_HI_TS g) = hi.toNat ∧ OnlyEngine g s t ∧ Frame [.engines] [ENG_TMR_HI_TS g] s t) ∧
    (e.tmrArmed = true → s.get64 (ENG_TMR_LO_TS g) (ENG_TMR_HI_TS g) ≤ s.clocks.ts → Ends (.engineTimer g) s fun t =>
      t.bit (ENG_IRQ_PEND_PEND g) 16 = true ∧ t.eng g = { e with tmrArmed := false } ∧ OnlyEngine g s t ∧
      Frame [.engines, .power] [ENG_IRQ_PEND_PEND g, PWR_PART_STATE (engPart g)] s t) ∧
    (e.tmrArmed = false ∨ s.clocks.ts < s.get64 (ENG_TMR_LO_TS g) (ENG_TMR_HI_TS g) → exec (.engineTimer g) s = .next s.begin) ∧
    (watchdogRuns s g = true → g.val < 1024 → s.on (ENG_DBG_HOR g) = false → s.get (ENG_STATUS_BITES g) < 2 ^ (ENG_STATUS_BITES g).w - 1 →
      (∀ r ∈ s.wake.recs, r.unit ≠ unitOfEngine g) → smGet 0 s.wake.done (unitOfEngine g) = 0 → NoTrigger 7 s →
      Ends (.engineWatchdogBite g false) s fun t =>
        t.eng g = { fresh 0x10 with posted := (e.posted.filter (·.taken)).map (fun p => { p with mute := true }) } ∧ t.get (ENG_STATUS_STATE g) = 1 ∧ OnlyEngine g s t ∧
        t.get (ENG_STATUS_BITES g) = s.get (ENG_STATUS_BITES g) + 1 ∧
        t.get (ENG_WDT_COUNT_COUNT g) = s.get (ENG_WDT_LOAD_LOAD g) % 2 ^ (ENG_WDT_COUNT_COUNT g).w ∧
        t.bit (if g.val % 64 < 32 then CH_ENG_CAUSE_LO_ENG (g.val / 64) else CH_ENG_CAUSE_HI_ENG (g.val / 64)) (g.val % 32) = true) ∧
    (∀ (n : Fin 1024) (inst : Fin 3) (off : Fin 32768), s.clocks.halted = false → easyHolds s (engPart n) = false → chipStop s (engPart n) = none →
      off.val % 4 = 0 → runs s 181 = true → s.host.failed = [] →
      (hasRight s req (engMemAddress n inst off) false = true → goodBytes s (engPart n) (engUnit n) inst off 4 →
        exec (.engineMemoryOutsideAccess req n inst off none) s =
          .next { s with out := [.value (bytesValue s (engPart n) (engUnit n) inst off 4)] }) ∧
      (hasRight s req (engMemAddress n inst off) true = true → s.onchip.due = [] → ∀ v : Word,
        Ends (.engineMemoryOutsideAccess req n inst off (some v)) s fun t => Stored s t (engPart n) (engUnit n) inst off 4 v.toNat ∧
          t.out = [.done] ∧ Frame [.onchip] [] s t))

/-- The words of the instruction set. Every instruction whose row's unused fields are zero is read back from its word, with every
operand at every value; and a word that is read as an instruction is that instruction's word, so that no bit of it goes
unread. -/
def Obligations.YezarWordsRoundTrip : Prop :=
  (∀ i : Yz, i.isPlain = true → decodeYezar (encodeYezar i) = some i) ∧
  (∀ (v : Word) (i : Yz), decodeYezar v = some i → encodeYezar i = v ∧ i.isPlain = true)

/-! ## Storage channels -/

/-- Micro-ops of the NAND sequencer. CMD and ADDR put their cycles on the bus; DOUT and DIN begin a data phase, or end the descriptor with
0x8 for NCW = 0 and 0x5 for LEN = 0; WAIT_T waits on the bus; WAIT_RB gives it up; STATUS sends 78h and
the row and goes on where the byte under its mask is as expected, else it ends the descriptor with 0x3; END completes it with 0x2 where a codeword failed, 0x1 where one was corrected, else 0;
an undefined word ends it with 0x5. -/
def Obligations.NandMicroOpsAct : Prop :=
  ∀ (s : State) (n : Ch) (l : Nat) (prio : Bool) (r : NandRun),
    let begun (crc w : Nat) : NandRun := { r with
      phase := .data
      crcBusy := r.crcBusy || (crc == 1 && scanUses s n r.ctx)
      fed := crc == 1 && !scanUses s n r.ctx
      uop := w }
    (∀ b, b < 256 → AtUop s n l prio r (0x10000000 + b) → Ends (.nandCmd n) s fun t =>
      RunIs n l prio { r with pc := r.pc + 1 } s t ∧ t.out = [.nand n l 0 [BitVec.ofNat 8 b]] ∧ Frame [.channels] [] s t) ∧
    (∀ sel imm, sel < 4 → imm < 256 → AtUop s n l prio r (0x20000000 + imm * 256 + sel) → Ends (.nandAddr n) s fun t =>
      let col := [BitVec.ofNat 8 (r.word 2), BitVec.ofNat 8 (r.word 2 / 256)]
      let row := [BitVec.ofNat 8 r.row, BitVec.ofNat 8 (r.row / 256), BitVec.ofNat 8 (r.row / 65536)]
      RunIs n l prio { r with pc := r.pc + 1 } s t ∧ Frame [.channels] [] s t ∧
      t.out = [.nand n l 1 (if sel = 0 then col ++ row else if sel = 1 then row else if sel = 2 then col else [BitVec.ofNat 8 imm])]) ∧
    (∀ src crc, src < 4 → crc < 2 → AtUop s n l prio r (0x30000000 + crc * 16 + src) → (src = 0 → r.ncw ≠ 0) → (src = 1 → r.len ≠ 0) →
      Ends (.nandDout n) s fun t => RunIs n l prio (begun crc (0x30000000 + crc * 16 + src)) s t ∧ Frame [.channels] [] s t) ∧
    (∀ dst crc cnt, dst < 4 → crc < 2 → cnt < 2 → AtUop s n l prio r (0x40000000 + cnt * 32 + crc * 16 + dst) → (dst = 0 ∨ dst = 2 → r.ncw ≠ 0) →
      (dst = 1 ∨ dst = 3 → r.len ≠ 0) → Ends (.nandDin n) s fun t =>
        RunIs n l prio (begun crc (0x40000000 + cnt * 32 + crc * 16 + dst)) s t ∧ Frame [.channels] [] s t) ∧
    (∀ ns, ns < 2 ^ 20 → AtUop s n l prio r (0x50000000 + ns) → Ends (.nandWaitT n) s fun t =>
      RunIs n l prio (if ns = 0 then { r with pc := r.pc + 1 } else { r with phase := .waitT }) s t ∧ (t.chan n).bus = some (l, prio) ∧
      Frame [.channels] [] s t) ∧
    (∀ poll, poll < 2 → AtUop s n l prio r (0x60000000 + poll) → (s.chan n).cfgPend = none → Ends (.nandWaitRb n) s fun t =>
      RunIs n l prio { r with
        phase := .waitRb s.clocks.ts
        uop := 0x60000000 + poll } s t ∧ (t.chan n).bus = none ∧ Frame [.channels] [] s t) ∧
    (∀ (mask exp : Nat) (byte : Byte), mask < 256 → exp < 256 → AtUop s n l prio r (0x70000000 + exp * 256 + mask) →
      byte.toNat &&& mask = exp → Ends (.nandStatus n byte) s fun t =>
        RunIs n l prio { r with
          pc := r.pc + 1
          lastStatus := byte.toNat } s t ∧ Frame [.channels] [] s t ∧
        t.out = [.nand n l 0 [0x78], .nand n l 1 [BitVec.ofNat 8 r.row, BitVec.ofNat 8 (r.row / 256), BitVec.ofNat 8 (r.row / 65536)]]) ∧
    (∀ i o, RingTakes s n (s.get (NAND_CQ_SIZE_LOG2 n)) (s.get (NAND_CQ_WPTR_INDEX n)) (s.get (NAND_CQ_RPTR_INDEX n)) (s.get (NAND_CQ_BASE_BUF n)) i o →
      (s.chan n).cfgPend = none →
      (AtUop s n l prio r 0 → Ends (.nandEnd n) s fun t =>
        NandCompleted n l prio r (if r.failMask ≠ 0 then 2 else if r.maxCorr ≠ 0 then 1 else 0) i o s t) ∧
      (∀ w c, (c = Instr.nandEnd n ∨ c = Instr.nandCmd n ∨ c = Instr.nandAddr n ∨ c = Instr.nandDout n ∨ c = Instr.nandDin n ∨
          c = Instr.nandWaitT n ∨ c = Instr.nandWaitRb n) → 0x80000000 ≤ w → w < 2 ^ 32 → AtUop s n l prio r w →
        Ends c s fun t => NandCompleted n l prio r 5 i o s t) ∧
      (AtUop s n l prio r 0x30000000 → r.ncw = 0 → Ends (.nandDout n) s fun t => NandCompleted n l prio r 8 i o s t) ∧
      (AtUop s n l prio r 0x40000001 → r.len = 0 → Ends (.nandDin n) s fun t => NandCompleted n l prio r 5 i o s t) ∧
      (∀ (mask exp : Nat) (byte : Byte), mask < 256 → exp < 256 → AtUop s n l prio r (0x70000000 + exp * 256 + mask) →
        byte.toNat &&& mask ≠ exp → Ends (.nandStatus n byte) s fun t =>
          NandCompleted n l prio { r with lastStatus := byte.toNat } 3 i o s t))

/-- The sequencer around its micro-ops. A push queues the descriptor, at the head with PRIO, or sets NAND_QOVF where 32 wait; a grant of the
free bus starts the head of a queue, or resumes a program whose LUN is ready; a data phase stores what it receives; WAIT_T's end
goes on; a LUN that is ready resumes, seen with POLL by a 78h; a WAIT_RB that times out halts the LUN and ends with 0x4; NAND_RESUME clears halts. A write of NAND_CFG takes effect on a
free bus with the rate inside its mode's range; clearing EN ends the program on the bus with 0x7. -/
def Obligations.NandSequencerRunsPrograms : Prop :=
  ∀ (s : State) (n : Ch) (req : Requester),
    let at_ (off : Nat) : Nat := 0x020000010000 + n.val * 0x10000000 + off
    let onlyTurn (t : State) : Prop := t.onchip = { s.onchip with banks := t.onchip.banks }
    (∀ (data : Word) (off l : Nat), regGate s req (at_ 0x10) 4 true = .reach → off = data.toNat / 32 % 2 ^ 19 * 32 →
      goodBytes s (4 + n.val) 69 (off / 2 ^ 20) (off % 2 ^ 20) 4 → l = bytesValue s (4 + n.val) 69 (off / 2 ^ 20) (off % 2 ^ 20) 4 / 4096 % 16 →
      ((s.lun n l).queue.length < 32 → Ends (.nandDescriptorPush req n data) s fun t => (t.lun n l).run = (s.lun n l).run ∧
        (t.lun n l).prio = (s.lun n l).prio ∧ (∀ k, k ≠ l → t.lun n k = s.lun n k) ∧ OnlyChannel n s t ∧ Frame [.channels, .onchip] [] s t ∧
        onlyTurn t ∧ (t.lun n l).queue = if data.msb then (off, true) :: (s.lun n l).queue else (s.lun n l).queue ++ [(off, false)]) ∧
      (32 ≤ (s.lun n l).queue.length → Ends (.nandDescriptorPush req n data) s fun t => t.on (CH_CAUSE_NAND_QOVF n) = true ∧
        onlyTurn t ∧ Frame [.host, .onchip] (CH_CAUSE_NAND_QOVF n :: crewFlds n) s t)) ∧
    (nandRuns s n = true → (s.chan n).bus = none → ∀ l prio,
      nextProgram s n = some (l, prio) →
      (∀ r, (s.lun n l).slot prio = some r → Ends (.nandBusGrant n) s fun t => (t.chan n).bus = some (l, prio) ∧ (t.chan n).last = (l + 1) % 16 ∧
        RunIs n l prio { r with
          phase := .ready
          pc := if r.phase = .resumable then r.pc + 1 else r.pc } s t ∧ Frame [.channels] [] s t) ∧
      (∀ off q, (s.lun n l).slot prio = none → (s.lun n l).queue = (off, prio) :: q → off < 2 ^ 24 → off % 2 ^ 20 + 32 ≤ 2 ^ 20 →
        goodBytes s (4 + n.val) 69 (off / 2 ^ 20) (off % 2 ^ 20) 32 →
        l / 4 ≤ s.get (NAND_CFG_CES n) → l % 4 ≤ s.get (NAND_CFG_LUNS n) →
        (∀ w : Nat → Nat, (∀ i, w i = bytesValue s (4 + n.val) 69 (off / 2 ^ 20) (off % 2 ^ 20 + 4 * i) 4) → w 0 / 2 ^ 22 % 4 = 0 → w 1 < 2 ^ 24 → w 2 < 2 ^ 16 →
          w 6 < 2 ^ 18 → w 7 = 0 → w 0 / 2 ^ 16 % 16 ≤ 8 → Ends (.nandBusGrant n) s fun t => ∃ r, (t.lun n l).slot prio = some r ∧
            r.words.map (·.toNat) = (List.range 8).map w ∧ r.pc = w 0 % 4096 ∧ r.row = w 1 ∧ r.phase = .ready ∧ r.remapped = false ∧
            (t.lun n l).queue = q ∧ (t.chan n).bus = some (l, prio) ∧ (t.chan n).last = (l + 1) % 16 ∧ OnlyChannel n s t ∧ onlyTurn t ∧
            Frame [.channels, .onchip] [] s t))) ∧
    (∀ l prio r, nandRuns s n = true → (s.chan n).bus = some (l, prio) → (s.lun n l).slot prio = some r →
      (r.phase = .waitT → Ends (.nandWaitTExpiry n) s fun t => RunIs n l prio { r with
        pc := r.pc + 1
        phase := .ready } s t ∧ Frame [.channels] [] s t) ∧
      (∀ i o (rx : List Byte), r.phase = .data → r.uop = 0x40000001 → r.fed = false → rx.length = r.len → 0 < r.len →
        r.len ≤ 64 - r.word 4 % 64 → plainOf (bufAddress n (r.word 4)) = some (.chip (4 + n.val) 69 i o) → chipStop s (4 + n.val) = none →
        hasRight s (moverOf n) (bufAddress n (r.word 4)) true = true → s.onchip.due = [] → o % 64 = r.word 4 % 64 →
        Ends (.nandDataPhaseDone n rx [] 0 none) s fun t => Stored s t (4 + n.val) 69 i o r.len (fromBytes rx) ∧
          (t.lun n l).slot prio = some { r with
            pc := r.pc + 1
            phase := .ready }) ∧
      (r.phase = .data → r.uop = 0x30000002 → Ends (.nandDataPhaseDone n [] [] 0 none) s fun t =>
        t.out = [.nand n l 2 [BitVec.ofNat 8 (r.word 3), BitVec.ofNat 8 (r.word 3 / 256), BitVec.ofNat 8 (r.word 3 / 65536),
          BitVec.ofNat 8 (r.word 3 / 16777216)]] ∧ (t.lun n l).slot prio = some { r with
            pc := r.pc + 1
            phase := .ready })) ∧
    (∀ (l : Fin 16) prio r since, (prio = true ∨ (s.lun n l).prio = none) → (s.lun n l).slot prio = some r → r.phase = .waitRb since →
      (nandRuns s n = true → Ends (.nandLunReady n l) s (fun t => RunIs n l prio { r with
        phase := .resumable
        busy := r.busy + (s.clocks.ts - since) } s t ∧ Frame [.channels] [] s t ∧ (r.uop = 0x60000000 → t.out = []) ∧
        (r.uop = 0x60000001 → t.out = [.nand n l 0 [0x78],
          .nand n l 1 [BitVec.ofNat 8 r.row, BitVec.ofNat 8 (r.row / 256), BitVec.ofNat 8 (r.row / 65536)]]))) ∧
      (∀ i o, RingTakes s n (s.get (NAND_CQ_SIZE_LOG2 n)) (s.get (NAND_CQ_WPTR_INDEX n)) (s.get (NAND_CQ_RPTR_INDEX n)) (s.get (NAND_CQ_BASE_BUF n)) i o →
        (s.chan n).bus = none → Ends (.nandWaitRbTimeout n l) s fun t => t.bit (NAND_STATUS_HALT n) l = true ∧ t.on (CH_CAUSE_NAND_TMO n) = true ∧
          NandCompleted n l prio { r with busy := r.busy + (s.clocks.ts - since) } 4 i o s t)) ∧
    (regGate s req (at_ 0xC) 4 true = .reach → ∀ luns : BitVec 16, Ends (.nandResume req n luns) s fun t =>
      t.get (NAND_STATUS_HALT n) = clearBits (s.get (NAND_STATUS_HALT n)) luns.toNat % 2 ^ (NAND_STATUS_HALT n).w ∧ Frame [] [NAND_STATUS_HALT n] s t) ∧
    (regGate s req (at_ 0x2C) 4 true = .reach → (s.chan n).ended = [] → ∀ index : BitVec 12, Ends (.nandCqRptrWrite req n index) s fun t =>
      t.get (NAND_CQ_RPTR_INDEX n) = index.toNat ∧ Frame [] [NAND_CQ_RPTR_INDEX n] s t) ∧
    (regGate s req (at_ 0) 4 true = .reach → ∀ data : Word,
      let rate := data.toNat / 2 ^ 16 % 256
      ((s.chan n).bus = none → Ends (.nandCfgWrite req n data) s fun t => t.get (NAND_CFG_MODE n) = data.toNat % 4 ∧
        t.get (NAND_CFG_RATE n) = (if data.toNat % 4 = 1 then max 8 (min 64 rate) else if data.toNat % 4 = 2 then max 32 (min 144 rate) else rate) ∧
        (t.get (NAND_CFG_RATE n) ≠ rate → t.on (NAND_FLAGS_CLAMP n) = true) ∧ t.channels = s.channels) ∧
      ((s.chan n).bus.isSome = true → Ends (.nandCfgWrite req n data) s fun t => (t.chan n).cfgPend = some data ∧
        t.get (NAND_CFG_RATE n) = s.get (NAND_CFG_RATE n) ∧ t.get (NAND_CFG_MODE n) = s.get (NAND_CFG_MODE n))) ∧
    (regGate s req (at_ 4) 4 true = .reach → ∀ (en wp : Bool),
      (s.on (NAND_CTRL_EN n) = false ∨ en = true ∨ (s.chan n).bus = none → Ends (.nandCtrlEn req n en wp) s fun t =>
        t.on (NAND_CTRL_EN n) = en ∧ t.on (NAND_CTRL_WP_REL n) = wp ∧ Frame [] [NAND_CTRL_EN n, NAND_CTRL_WP_REL n] s t) ∧
      (∀ l prio r i o, s.on (NAND_CTRL_EN n) = true → (s.chan n).bus = some (l, prio) → (s.lun n l).slot prio = some r → (s.chan n).cfgPend = none →
        RingTakes s n (s.get (NAND_CQ_SIZE_LOG2 n)) (s.get (NAND_CQ_WPTR_INDEX n)) (s.get (NAND_CQ_RPTR_INDEX n)) (s.get (NAND_CQ_BASE_BUF n)) i o →
        Ends (.nandCtrlEn req n false wp) s fun t => t.on (NAND_CTRL_EN n) = false ∧ NandCompleted n l prio r 7 i o s t) ∧
      Ends (.nandCtrlWpRel req n wp) s (fun t => t.get (NAND_CTRL_EN n) % 2 = s.get (NAND_CTRL_EN n) % 2 ∧ t.on (NAND_CTRL_WP_REL n) = wp ∧
        Frame [] [NAND_CTRL_EN n, NAND_CTRL_WP_REL n] s t))

/-- LDPC jobs and CRC. A job starts where the oldest record in the queue names its operation; its end stores the data with
their parity, or the codeword's data as corrected, or as received where decoding failed, completes the job and sets line 20: status 0x3
where an access failed, 0x2 where decoding failed (the decoder did not converge within the limit, or the codeword was written with another
rate), 0x1 where bits were corrected, else 0. A CRC context takes
its polynomial's initial value; a scan that runs over bytes feeds its context, bit by bit, and sets line 21; a context that
is being fed takes no write. CRC-32C and the CRC-32 of IEEE 802.3 give their check values. -/
def Obligations.LdpcJobsAndCrcScans : Prop :=
  (∀ (s : State) (n : Ch) (req : Requester),
    (∀ c op off rest, (c = Instr.ldpcEncode n ∧ op = 0 ∨ c = Instr.ldpcHardDecode n ∧ op = 1 ∨ c = Instr.ldpcSoftDecode2bit n ∧ op = 2 ∨
        c = Instr.ldpcSoftDecode3bit n ∧ op = 3) → runs s (132 + n.val) = true → (s.chan n).job = none → (s.chan n).jobs = off :: rest →
      goodBytes s (4 + n.val) 69 (off / 2 ^ 20 % 16) (off % 2 ^ 20) 32 →
      let word (i : Nat) : Nat := bytesValue s (4 + n.val) 69 (off / 2 ^ 20 % 16) (off % 2 ^ 20 + 4 * i) 4
      (word 0 % 4 = op → Ends c s fun t => (t.chan n).jobs = rest ∧
        ((t.chan n).job.map (fun w => w.map (·.toNat))) = some ((List.range 8).map word) ∧ OnlyChannel n s t ∧ Frame [.channels, .onchip] [] s t ∧
        t.onchip = { s.onchip with banks := t.onchip.banks }) ∧
      (word 0 % 4 ≠ op → exec c s = .next s.begin)) ∧
    (∀ (w0 w1 w2 : Word) (w : List Word) (flips : List Nat) (written : Fin 4) (iterations : Nat) (failed bufErr : Bool) d st u,
      (s.chan n).job = some (w0 :: w1 :: w2 :: w) → ldpcRingFull s n = false →
      rangeRead (plainAccess (moverOf n)) (bufAddress n w1.toNat) (jobInput (w0.toNat % 4) (w0.toNat / 2 ^ 4 % 4)) s.begin = (d, st, u) →
      let op := w0.toNat % 4
      let rate := w0.toNat / 2 ^ 4 % 4
      let decodes : Bool := written.val == rate && iterations ≤ iterLimit u n op (w0.toNat / 2 ^ 16 % 2 ^ 8) && !failed
      let hard := if op = 1 then d else hardWord op rate d
      let posted (v : State) (status : Nat) : Prop := ∀ i o, RingTakes v n (v.get (LDPC_CQ_SIZE_LOG2 n)) (v.get (LDPC_CQ_WPTR_INDEX n))
          (v.get (LDPC_CQ_RPTR_INDEX n)) (v.get (LDPC_CQ_BASE_BUF n)) i o →
        Ends (.ldpcJobComplete n flips written iterations failed bufErr) s fun t => (t.chan n).job = none ∧ (t.chan n).jobs = (v.chan n).jobs ∧
          t.get (LDPC_CQ_WPTR_INDEX n) = (v.get (LDPC_CQ_WPTR_INDEX n) + 1) % ringSize (v.get (LDPC_CQ_SIZE_LOG2 n)) ∧
          (∀ g ∈ crewOf n, t.bit (ENG_IRQ_PEND_PEND g) 20 = true) ∧
          Stored v t (4 + n) 69 i o 16 (w0.toNat / 2 ^ 8 % 2 ^ 8 * 256 + status +
            2 ^ 32 * if status = 3 ∨ op = 0 then 0
              else min iterations (iterLimit u n op (w0.toNat / 2 ^ 16 % 2 ^ 8)) % 256 * 2 ^ 16 + if decodes then flips.length % 4096 else 0)
      (st ≠ .ok ∨ bufErr = true → posted u 3) ∧
      (st = .ok → bufErr = false → ∀ k st' v, rangeWrite (plainAccess (moverOf n)) (bufAddress n w2.toNat)
          (if op = 0 then d ++ parityOf rate d else (if decodes then flipBits flips hard else hard).take 4096) u = (k, st', v) →
        posted v (if st' ≠ .ok then 3 else if op = 0 then 0 else if decodes = false then 2 else if flips ≠ [] then 1 else 0))) ∧
    (∀ w flips written iterations failed bufErr, (s.chan n).job = some w → ldpcRingFull s n = true →
      exec (.ldpcJobComplete n flips written iterations failed bufErr) s = .next s.begin) ∧
    (∀ c poly : Fin 4, regGate s req (0x020000030000 + n.val * 0x10000000 + c.val * 0x10) 4 true = .reach →
      (ctxFed s n c = false → Ends (.crcCtxInit req n c poly) s fun t => t.get (CRC_CTX_POLY n c) = poly.val ∧
        ctxVal t n c = (if poly.val < 2 then 0xFFFFFFFF else 0) ∧
        Frame [] [CRC_CTX_POLY n c, CRC_CTX_VAL_LO n c, CRC_CTX_VAL_HI n c] s t) ∧
      (ctxFed s n c = true → Ends (.crcCtxInit req n c poly) s fun t => t.on (CRC_SCAN_WR_BUSY n) = true ∧ Frame [] [CRC_SCAN_WR_BUSY n] s t)) ∧
    (∀ (bsize blk : Bool) (ctx : Fin 4), regGate s req (0x020000030100 + n.val * 0x10000000) 4 true = .reach → s.on (CRC_SCAN_BUSY n) = false →
      Ends (.crcScanGo req n bsize blk ctx) s fun t => t.on (CRC_SCAN_BUSY n) = true ∧ t.get (CRC_SCAN_CTX n) = ctx.val ∧ t.on (CRC_SCAN_BLK n) = blk ∧
        t.on (CRC_SCAN_BSIZE n) = bsize ∧ (t.chan n).scanWaits = inlineFeeds s n ctx ∧ OnlyChannel n s t ∧
        Frame [.channels] [CRC_SCAN_BSIZE n, CRC_SCAN_BLK n, CRC_SCAN_CTX n, CRC_SCAN_BUSY n] s t) ∧
    (∀ bytes : List Byte, s.on (CRC_SCAN_BUSY n) = true → (s.chan n).scanWaits = false → s.on (CRC_SCAN_BLK n) = false →
      plainOf (s.get64 (CRC_SCAN_SRC_LO n) (CRC_SCAN_SRC_HI n)) = none → 0 < s.get (CRC_SCAN_LEN n) → s.get (CRC_SCAN_LEN n) < 2 ^ 32 →
      bytes.length = s.get (CRC_SCAN_LEN n) → s.get (CRC_CTX_POLY n (s.get (CRC_SCAN_CTX n))) < 4 →
      ctxVal s n (s.get (CRC_SCAN_CTX n)) < 2 ^ crcWidth (s.get (CRC_CTX_POLY n (s.get (CRC_SCAN_CTX n)))) → Ends (.crcScanDone n bytes none) s fun t =>
        ctxVal t n (s.get (CRC_SCAN_CTX n)) = crcFeed (s.get (CRC_CTX_POLY n (s.get (CRC_SCAN_CTX n)))) (ctxVal s n (s.get (CRC_SCAN_CTX n))) bytes ∧
        t.on (CRC_SCAN_BUSY n) = false ∧ t.on (CRC_SCAN_DONE n) = true ∧ t.get (CRC_SCAN_COUNT n) = bytes.length ∧
        (∀ g ∈ crewOf n, t.bit (ENG_IRQ_PEND_PEND g) 21 = true) ∧ t.channels = s.channels)) ∧
  (∀ msg : List Byte, msg = [0x31, 0x32, 0x33, 0x34, 0x35, 0x36, 0x37, 0x38, 0x39] →
    crcFeed 0 (crcInit 0) msg ^^^ crcXorOut 0 = 0xE3069283 ∧ crcFeed 1 (crcInit 1) msg ^^^ crcXorOut 1 = 0xCBF43926 ∧
    crcFeed 2 (crcInit 2) msg ^^^ crcXorOut 2 = 0x6C40DF5F0B497347 ∧ crcFeed 3 (crcInit 3) msg ^^^ crcXorOut 3 = 0xD0DB)

/-- The crew's task queue and watchdog. A push appends a task from its record, or sets TQ_OVF where the queue holds 1,024 tasks or the offset
is not aligned. A pop takes the oldest eligible task of the most urgent effective class, charges its cost unless it is of class 0,
and passes over the older ones of its class that do not fit; with none it returns all ones. The watchdog's
load reloads the count; the kick does with key 0x5A. -/
def Obligations.TaskQueueAndChannelWatchdog : Prop :=
  ∀ (s : State) (n : Ch) (req : Requester),
    let at_ (off : Nat) : Nat := 0x020000000000 + n.val * 0x10000000 + off
    (∀ data : Word, regGate s req (at_ 0x60000) 4 true = .reach →
      (data.toNat % 16 = 0 → (s.chan n).tasks.length < 1024 →
        let inst := data.toNat / 2 ^ 20 % 16
        goodBytes s (4 + n.val) 69 inst (data.toNat % 2 ^ 20 + 8) 8 → Ends (.crewTqPush req n data) s fun t =>
          let w := bytesValue s (4 + n.val) 69 inst (data.toNat % 2 ^ 20 + 8) 4
          (t.chan n).tasks = (s.chan n).tasks ++ [⟨data.toNat % 2 ^ 24, w % 4, w / 16 % 16,
            if w / 256 % 2 = 1 then some (bytesValue s (4 + n.val) 69 inst (data.toNat % 2 ^ 20 + 12) 4) else none, 0⟩] ∧
          OnlyChannel n s t ∧ Frame [.channels] ((crewOf n).map ENG_IRQ_PEND_PEND) s t ∧
          ((nextTask t n).isSome = true → (s.chan n).elig = false → ∀ g ∈ crewOf n, t.bit (ENG_IRQ_PEND_PEND g) 18 = true)) ∧
      (data.toNat % 16 ≠ 0 ∨ 1024 ≤ (s.chan n).tasks.length → Ends (.crewTqPush req n data) s fun t => t.on (CH_CAUSE_TQ_OVF n) = true ∧
        t.channels = s.channels)) ∧
    (regGate s req (at_ 0x60004) 4 false = .reach → req ≠ .debug →
      (nextTask s n = none → Ends (.crewTqPop req n) s fun t => t.out = [.value 0xFFFFFFFF] ∧ t.channels = s.channels ∧ t.regs = s.regs) ∧
      (∀ k x, nextTask s n = some (k, x) → Ends (.crewTqPop req n) s fun t => t.out = [.value x.off] ∧
        (t.chan n).tasks.length + 1 = (s.chan n).tasks.length ∧ OnlyChannel n s t ∧
        (k ≠ 0 → s.get (CREW_TQ_CREDIT_CREDIT n) < 2 ^ (CREW_TQ_CREDIT_CREDIT n).w →
          t.get (CREW_TQ_CREDIT_CREDIT n) = s.get (CREW_TQ_CREDIT_CREDIT n) - x.cost) ∧
        (k = 0 → t.get (CREW_TQ_CREDIT_CREDIT n) = s.get (CREW_TQ_CREDIT_CREDIT n)) ∧
        ∀ y ∈ (t.chan n).tasks, ∃ z ∈ (s.chan n).tasks, y = z ∨ y = { z with passed := z.passed + 1 } ∧ taskClass s n z = k ∧ taskFits s n z = false)) ∧
    (regGate s .debug (at_ 0x60004) 4 false = .reach → exec (.crewTqPop .debug n) s =
      .next { s with out := [.value (((nextTask s n).map (·.2.off)).getD 0xFFFFFFFF)] }) ∧
    Ends (.taskPromoted n) s (fun t => (t.chan n).elig = (nextTask s n).isSome ∧ (t.chan n).tasks = (s.chan n).tasks ∧ OnlyChannel n s t ∧
      ((nextTask s n).isSome = true → (s.chan n).elig = false → ∀ g ∈ crewOf n, t.bit (ENG_IRQ_PEND_PEND g) 18 = true) ∧
      Frame [.channels] ((crewOf n).map ENG_IRQ_PEND_PEND) s t) ∧
    (regGate s req (at_ 0x20) 4 true = .reach → ∀ data : Word, Ends (.chSwdtLoad req n data) s fun t =>
      t.get (CH_SWDT_LOAD_LOAD n) = data.toNat % 2 ^ (CH_SWDT_LOAD_LOAD n).w ∧ t.get (CH_SWDT_COUNT_COUNT n) = data.toNat % 2 ^ (CH_SWDT_COUNT_COUNT n).w ∧
      Frame [] [CH_SWDT_LOAD_LOAD n, CH_SWDT_COUNT_COUNT n] s t) ∧
    (regGate s req (at_ 0x28) 4 true = .reach → ∀ key : BitVec 8, Ends (.chSwdtKick req n key) s fun t =>
      (key = 0x5A#8 → t.get (CH_SWDT_COUNT_COUNT n) = s.get (CH_SWDT_LOAD_LOAD n) % 2 ^ (CH_SWDT_COUNT_COUNT n).w) ∧
      Frame [] (if key = 0x5A#8 then [CH_SWDT_COUNT_COUNT n] else []) s t)

/-! ## Channel DRAM -/

/-- The commands that bring a controller up and down. START with a listed configuration begins the cold path, which loses the
contents, or with SR_KEPT the warm path, which keeps them; a bad configuration sets CFG_BAD; in any other state it is ignored. The
path's end makes the channel ready with its capacity. A training step that failed twice falls back to the next rate or fails the
controller. Self-refresh entry drains the queues and keeps the contents. An internal state error makes the controller return its
requests to Patina and reset itself; a second within 1 ms fails it. -/
def Obligations.DramControllerStartsTrainsAndRecovers : Prop :=
  ∀ (s : State) (n : Ch) (req : Requester),
    (regGate s req (0x020000040004 + n.val * 0x10000000) 4 true = .reach →
      (s.get (DRAM_STATUS_STATE n) = 0 ∨ s.get (DRAM_STATUS_STATE n) = 8 → dramCfgGood s n = true → Ends (.dramCtrlStart req n) s fun t =>
        t.out = [.done] ∧ t.on (DRAM_STATUS_CFG_BAD n) = false ∧ t.on (PAT_CFG_LOCK n) = true ∧ t.get (DRAM_STATUS_RATE_EFF n) = s.get (DRAM_CFG_RATE n) ∧
        (s.on (DRAM_STATUS_SR_KEPT n) = false → t.get (DRAM_STATUS_STATE n) = 1 ∧ (∀ k, k / 2 ^ 36 = n → smGet 0 t.dram k = 0) ∧
          ∀ k, k / 2 ^ 36 ≠ n → smGet 0 t.dram k = smGet 0 s.dram k) ∧
        (s.on (DRAM_STATUS_SR_KEPT n) = true → t.get (DRAM_STATUS_STATE n) = 2 ∧ t.dram = s.dram) ∧
        Frame [.drams, .dram] [DRAM_STATUS_CFG_BAD n, PAT_CFG_LOCK n, DRAM_STATUS_STATE n, DRAM_STATUS_RATE_EFF n] s t) ∧
      (s.get (DRAM_STATUS_STATE n) = 0 ∨ s.get (DRAM_STATUS_STATE n) = 8 → dramCfgGood s n = false → Ends (.dramCtrlStart req n) s fun t =>
        t.on (DRAM_STATUS_CFG_BAD n) = true ∧ Frame [] [DRAM_STATUS_CFG_BAD n] s t) ∧
      (s.get (DRAM_STATUS_STATE n) ≠ 0 → s.get (DRAM_STATUS_STATE n) ≠ 8 → exec (.dramCtrlStart req n) s = .next { s with out := [.done] }) ∧
      (s.get (DRAM_STATUS_STATE n) = 4 → Ends (.dramCtrlRefAll req n) s fun t => (t.dramc n).refAll = true ∧ t.regs = s.regs ∧
        Frame [.drams] [] s t) ∧
      (s.get (DRAM_STATUS_STATE n) ≠ 4 → exec (.dramCtrlRefAll req n) s = .next { s with out := [.done] })) ∧
    (s.get (DRAM_STATUS_STATE n) = 0 → s.on (DRAM_STATUS_SR_KEPT n) = true → s.get (DRAM_CAP_INSTALLED n) ≠ 0 → runs s (164 + n.val) = true →
      Ends (.dramAutoStart n) s fun t => t.get (DRAM_STATUS_STATE n) = 2 ∧ Frame [.drams] [DRAM_STATUS_STATE n, DRAM_STATUS_RATE_EFF n] s t) ∧
    (s.on (DRAM_STATUS_SR_KEPT n) = false → exec (.dramAutoStart n) s = .next s.begin) ∧
    (dramTrains s n = true → ∀ (a b : Word) (c : Nat), dramMib s n = some c → c ≤ 8192 → Ends (.dramInitComplete n a b) s fun t =>
      t.get (DRAM_STATUS_STATE n) = 4 ∧ t.on (DRAM_STATUS_SR_KEPT n) = false ∧ t.get (DRAM_CAP_INSTALLED n) = c ∧
      t.get (DRAM_CAP_USABLE n) = (if cipherOnly s n then c * 8 / 9 else c * 255 / 320) / 2 * 2 ∧
      t.get (DRAM_TRAIN_RD_MARGIN n 0) = a.toNat / 2 ^ 24 ∧ t.get (DRAM_TRAIN_VREF n 1) = b.toNat % 2 ^ 8 ∧ t.dram = s.dram) ∧
    (dramTrains s n = true → ∀ (step : Fin 6) (sub : Fin 2), step.val ≠ 0 →
      (step.val = 1 ∨ s.get (DRAM_STATUS_RATE_EFF n) = 0 ∨ s.on (DRAM_CFG_FALLBACK n) = false → Ends (.dramTrainingFailure n step sub) s fun t =>
        t.get (DRAM_STATUS_STATE n) = 8 ∧ t.on (DRAM_STATUS_SR_KEPT n) = false ∧ t.get (DRAM_CAP_USABLE n) = 0 ∧
        t.on (DRAM_CAUSE_TRAIN_FAIL n) = true ∧ t.get (DRAM_STATUS_STEP n) = step.val ∧ t.get (DRAM_STATUS_FAIL_SUB n) = sub.val ∧
        ∀ k, k / 2 ^ 36 = n → smGet 0 t.dram k = 0) ∧
      (step.val ≠ 1 → 0 < s.get (DRAM_STATUS_RATE_EFF n) → s.get (DRAM_STATUS_RATE_EFF n) < 8 → s.on (DRAM_CFG_FALLBACK n) = true →
        Ends (.dramTrainingFailure n step sub) s fun t => t.get (DRAM_STATUS_RATE_EFF n) = s.get (DRAM_STATUS_RATE_EFF n) - 1 ∧
          t.get (DRAM_STATUS_STATE n) = 3 ∧ t.on (DRAM_CAUSE_TRAIN_FAIL n) = true ∧ t.on (DRAM_CAUSE_FALLBACK n) = true ∧ t.dram = s.dram)) ∧
    (s.get (DRAM_STATUS_STATE n) = 5 → Ends (.dramSelfRefreshEntry n) s fun t => t.get (DRAM_STATUS_STATE n) = 6 ∧
      t.on (DRAM_STATUS_SR_KEPT n) = true ∧ t.get (DRAM_PASR_EFF n) = pasrEff s n ∧ t.get (DRAM_REF_POSTPONED n) = 0 ∧
      (t.dramc n).reads = [] ∧ (t.dramc n).writes = [] ∧ (t.dramc n).held = (s.dramc n).held ∧
      Frame [.drams] [DRAM_STATUS_STATE n, DRAM_STATUS_SR_KEPT n, DRAM_PASR_EFF n, DRAM_REF_POSTPONED n] s t) ∧
    (∀ training, s.get (DRAM_STATUS_STATE n) = 4 ∨ s.get (DRAM_STATUS_STATE n) = 5 ∨ s.get (DRAM_STATUS_STATE n) = 7 →
      ((s.dramc n).lastErr = 0 ∨ (s.dramc n).lastErr + 999999 ≤ s.clocks.ts →
        Ends (.dramStateError n training) s fun t => t.get (DRAM_STATUS_STATE n) = 7 ∧ t.on (DRAM_CAUSE_STATE_ERR n) = true ∧
          (t.dramc n).reads = [] ∧ (t.dramc n).writes = [] ∧ t.dram = s.dram ∧
          (s.get WAKE_COUNT_RECOVERIES + 1 < 2 ^ WAKE_COUNT_RECOVERIES.w → t.get WAKE_COUNT_RECOVERIES = s.get WAKE_COUNT_RECOVERIES + 1) ∧
          ((((s.dramc n).reads ++ (s.dramc n).writes).map (·.seq)).Nodup →
            (∀ r ∈ (s.dramc n).reads, (false, r.off) ∈ (t.dramc n).held) ∧ ∀ r ∈ (s.dramc n).writes, (true, r.off) ∈ (t.dramc n).held)) ∧
      (0 < (s.dramc n).lastErr → s.clocks.ts < (s.dramc n).lastErr + 999999 → Ends (.dramStateError n training) s fun t =>
        t.get (DRAM_STATUS_STATE n) = 8 ∧ t.on (DRAM_CAUSE_STATE_ERR n) = true ∧ t.on (DRAM_STATUS_SR_KEPT n) = false)) ∧
    (s.get (DRAM_STATUS_STATE n) = 7 → Ends (.dramUnitResetDone n) s fun t =>
      t.get (DRAM_STATUS_STATE n) = (if (s.dramc n).sr.isSome then 5 else 4) ∧ Frame [.drams] [DRAM_STATUS_STATE n] s t ∧
      (t.dramc n).reads.length + (t.dramc n).writes.length + (t.dramc n).held.length =
        (s.dramc n).reads.length + (s.dramc n).writes.length + (s.dramc n).held.length)

/-- Queues, refresh and the row-disturbance defence of a controller that is ready. A request enters its queue or is held while that
is full; a read with an older write to its row queued puts the bank into strict order. A burst takes the oldest request for its line out, in
strict order only the oldest of its bank, and leaves the row open unless its activate reached the threshold and the neighbours' refresh
closed it. A refresh that is not issued is counted as postponed, and the
ninth raises REF_LATE. A poll of MR4 shows the rate and raises TEMP. A row with no request queued closes. A window's end restarts
the activate counts and raises RD_STORM past the alarm level. -/
def Obligations.DramQueuesRefreshAndDefence : Prop :=
  ∀ (s : State) (n : Ch), s.get (DRAM_STATUS_STATE n) = 4 →
    (∀ write line, line / 64 * 64 < s.get (DRAM_CAP_INSTALLED n) * 2 ^ 20 →
      ((s.dramc n).hasRoom write = true → (s.dramc n).held = [] → Ends (.dramRequest n write line) s fun t =>
        (t.dramc n).writes = (s.dramc n).writes ++ (if write then [⟨line / 64 * 64, (s.dramc n).seq⟩] else []) ∧
        (t.dramc n).reads = (s.dramc n).reads ++ (if write then [] else [⟨line / 64 * 64, (s.dramc n).seq⟩]) ∧
        (t.dramc n).held = [] ∧ Frame [.drams] [] s t ∧
        (write = false → ∀ w ∈ (s.dramc n).writes, (placeOf s n w.off).key = (placeOf s n (line / 64 * 64)).key →
          (placeOf s n w.off).row = (placeOf s n (line / 64 * 64)).row → w.seq < smGet 0 (t.dramc n).strict (placeOf s n w.off).key)) ∧
      ((s.dramc n).hasRoom write = false → Ends (.dramRequest n write line) s fun t =>
        t.dramc n = { s.dramc n with held := (s.dramc n).held ++ [(write, line / 64 * 64)] } ∧ Frame [.drams] [] s t)) ∧
    (∀ write line, (s.dramc n).held = [] →
      let closed (p : DramPlace) : Bool := smGet 0 (s.dramc n).rows p.key ≠ p.row + 1 &&
        (noteActivate p.row (smGet [] (s.dramc n).acts p.key)).any (fun e => e.1 == p.row && rdThreshold s n ≤ e.2)
      (∀ r, oldestFor (line / 64 * 64) (if write then (s.dramc n).writes else (s.dramc n).reads) = some r →
        ((s.dramc n).inOrder (placeOf s n) r = true → Ends (.dramBurstComplete n write line) s fun t =>
          (t.dramc n).writes = (if write then (s.dramc n).writes.filter (·.seq ≠ r.seq) else (s.dramc n).writes) ∧
          (t.dramc n).reads = (if write then (s.dramc n).reads else (s.dramc n).reads.filter (·.seq ≠ r.seq)) ∧
          smGet 0 (t.dramc n).rows (placeOf s n (line / 64 * 64)).key = (if closed (placeOf s n (line / 64 * 64)) then 0
            else (placeOf s n (line / 64 * 64)).row + 1) ∧
          Frame [.drams] [DRAM_RD_STAT_MITIG n] s t) ∧
        ((s.dramc n).inOrder (placeOf s n) r = false → exec (.dramBurstComplete n write line) s = .next s.begin)) ∧
      (oldestFor (line / 64 * 64) (if write then (s.dramc n).writes else (s.dramc n).reads) = none →
        exec (.dramBurstComplete n write line) s = .next s.begin)) ∧
    Ends (.dramRefreshTick n true) s (fun t => t.get (DRAM_REF_POSTPONED n) = 0 ∧ (t.dramc n).refAll = false ∧
      Frame [.drams] [DRAM_REF_POSTPONED n] s t) ∧
    ((s.dramc n).postponed < 8 → Ends (.dramRefreshTick n false) s fun t => t.get (DRAM_REF_POSTPONED n) = (s.dramc n).postponed + 1 ∧
      Frame [.drams] [DRAM_REF_POSTPONED n] s t) ∧
    (8 ≤ (s.dramc n).postponed → Ends (.dramRefreshTick n false) s fun t => t.on (DRAM_CAUSE_REF_LATE n) = true ∧ Alerted s t ∧
      Frame [.drams, .host] (DRAM_REF_POSTPONED n :: DRAM_CAUSE_REF_LATE n :: crewFlds n) s t) ∧
    (∀ rate hot rfm, Ends (.dramMr4Poll n rate hot rfm) s fun t => t.get (DRAM_REF_MR4_RATE n) = rate.toNat ∧ t.on (DRAM_RD_CFG_RFM n) = rfm ∧
      (hot = true → t.on (DRAM_CAUSE_TEMP n) = true) ∧ (hot = false → t.get (DRAM_CAUSE_TEMP n) = s.get (DRAM_CAUSE_TEMP n)) ∧ Alerted s t ∧
      Frame [.host] (DRAM_REF_MR4_RATE n :: DRAM_RD_CFG_RFM n :: DRAM_CAUSE_TEMP n :: crewFlds n) s t) ∧
    (∀ bank : Fin 64,
      ((∀ q ∈ (s.dramc n).reads ++ (s.dramc n).writes, (placeOf s n q.off).key = bank →
          (placeOf s n q.off).row + 1 ≠ smGet 0 (s.dramc n).rows bank) → Ends (.dramRowIdleClose n bank) s fun t =>
        smGet 0 (t.dramc n).rows bank = 0 ∧ (∀ b, b ≠ bank.val → smGet 0 (t.dramc n).rows b = smGet 0 (s.dramc n).rows b) ∧ Frame [.drams] [] s t) ∧
      (∀ q ∈ (s.dramc n).reads ++ (s.dramc n).writes, (placeOf s n q.off).key = bank →
        (placeOf s n q.off).row + 1 = smGet 0 (s.dramc n).rows bank → exec (.dramRowIdleClose n bank) s = .next s.begin)) ∧
    Ends (.dramRdWindow n) s (fun t => (∀ e ∈ (t.dramc n).acts, ∀ r ∈ e.2, r.2 = 0) ∧ (t.dramc n).mitig0 = s.get (DRAM_RD_STAT_MITIG n) ∧
      (s.get (DRAM_RD_CFG_ALARM n) ≠ 0 → s.get (DRAM_RD_CFG_ALARM n) * 64 + (s.dramc n).mitig0 < s.get (DRAM_RD_STAT_MITIG n) →
        t.on (DRAM_CAUSE_RD_STORM n) = true) ∧
      (s.get (DRAM_RD_CFG_ALARM n) = 0 ∨ s.get (DRAM_RD_STAT_MITIG n) ≤ s.get (DRAM_RD_CFG_ALARM n) * 64 + (s.dramc n).mitig0 →
        Frame [.drams] [] s t) ∧
      Frame [.drams, .host] (DRAM_CAUSE_RD_STORM n :: crewFlds n) s t)

/-! ## Patina -/

/-- Lines of channel DRAM. Without the right a read gives zero and a write does nothing; a channel that takes no access answers with an
error. A line nothing has written reads as zero; a good line gives its bytes; a write gives it its data, a fresh counter and the
access's key, and clears a mark; a partial write merges its bytes. A poisoned line, a code failure, a failing tag and a failing
tree line each have their answer, log, cause and mark; of the control class they halt the device. -/
def Obligations.PatinaLinesReadWriteAndFail : Prop :=
  ∀ (s : State) (n : Ch) (req : Requester) (key : Fin 16) (off : Nat),
    (hasRight s req (lineAddress n key off) false = false → ∀ bytes control check,
      exec (.patinaLineRead n req key off bytes control check) s = .next { s with out := [.data 0 false] }) ∧
    (hasRight s req (lineAddress n key off) true = false → ∀ data posted,
      exec (.patinaLineWrite n req key off data posted) s = .next { s with out := [.done] } ∧
      ∀ be check, exec (.patinaPartialWrite n req key off be data posted check) s = .next { s with out := [.done] }) ∧
    (hasRight s req (lineAddress n key off) false = true → ∀ (bytes : Fin 65) (control : Bool),
      (∀ check st, channelStop s n (off / 64) key false = some st → st ≠ .poison →
        exec (.patinaLineRead n req key off bytes control check) s = .next { s with out := [statusOut 0 st] }) ∧
      (∀ check, channelStop s n (off / 64) key false = some .poison → Ends (.patinaLineRead n req key off bytes control check) s fun t =>
        (∃ v, t.out = [.data v true]) ∧ Frame [.freeCtr] [] s t) ∧
      (channelStop s n (off / 64) key false = none →
        (lineInDram s n (off / 64) = false → ∀ check, exec (.patinaLineRead n req key off bytes control check) s = .next { s with out := [.data 0 false] }) ∧
        (lineInDram s n (off / 64) = true → off / 64 ∉ (s.patina n).marks → smGet 0 (s.patina n).lineKey (off / 64) = accessKey s n key →
          exec (.patinaLineRead n req key off bytes control .ok) s = .next { s with
            out := [.data (slice (lineValue s n (off / 64)) (8 * (off % 64)) (8 * min bytes.val (64 - off % 64))) false] } ∧
          (∀ k, s.get (PAT_COUNT_CE n) + 1 < 2 ^ 32 → Ends (.patinaLineRead n req key off bytes control (.corrected k)) s fun t =>
            t.out = [.data (slice (lineValue s n (off / 64)) (8 * (off % 64)) (8 * min bytes.val (64 - off % 64))) false] ∧
            t.get (PAT_COUNT_CE n) = s.get (PAT_COUNT_CE n) + 1 ∧ Frame [] [PAT_COUNT_CE n] s t)) ∧
        (lineInDram s n (off / 64) = true → off / 64 ∈ (s.patina n).marks → ∀ check, Ends (.patinaLineRead n req key off bytes false check) s fun t =>
          (∃ v, t.out.getLast? = some (.data v true)) ∧ t.on (PAT_CAUSE_POISON_RD n) = true ∧ t.get (PAT_ERR_LOG_KIND n) = 3) ∧
        (lineInDram s n (off / 64) = true → off / 64 ∉ (s.patina n).marks →
          Ends (.patinaLineRead n req key off bytes false .eccFail) s (fun t => (∃ v, t.out.getLast? = some (.data v true)) ∧
            t.on (PAT_CAUSE_UE n) = true ∧ off / 64 ∈ (t.patina n).marks ∧ t.get (PAT_ERR_LOG_KIND n) = 2) ∧
          (cipherOnly s n = false → s.bit SEC_ESCALATE_ESC 0 = false → s.bit SEC_ESCALATE_ESC 1 = false →
            Ends (.patinaLineRead n req key off bytes false .tagFail) s (fun t => t.out.getLast? = some .busError ∧
              t.on (PAT_CAUSE_INTEG n) = true ∧ t.on SEC_CAUSE_DATA_FAIL = true ∧ t.get (PAT_ERR_LOG_KIND n) = 1 ∧ t.dram = s.dram) ∧
            (∀ level index, level < 16 → index < 2 ^ 27 → s.on (PAT_SUBTREE_VALID n 0) = false →
              Ends (.patinaLineRead n req key off bytes false (.treeTag level index)) s fun t => (∃ v, t.out.getLast? = some (.data v true)) ∧
                t.on (PAT_SUBTREE_VALID n 0) = true ∧ t.get (PAT_SUBTREE_LEVEL n 0) = level ∧ t.get (PAT_SUBTREE_INDEX n 0) = index ∧
                t.on (PAT_CAUSE_SUBTREE n) = true ∧ t.on SEC_CAUSE_SUBTREE = true)) ∧
          (cipherOnly s n = false → s.clocks.halted = false → Ends (.patinaLineRead n req key off bytes true .tagFail) s fun t =>
            t.clocks.halted = true ∧ t.clocks.alarm = true ∧ t.on RST_CAUSE_INTEGRITY_HALT = true ∧ t.get SEC_HALT_LOG_CH = n ∧
            t.get SEC_HALT_LOG_KIND = 1)))) ∧
    (hasRight s req (lineAddress n key off) true = true → ∀ (data : BitVec 512) (posted : Bool),
      (∀ st, channelStop s n (off / 64) key true = some st → exec (.patinaLineWrite n req key off data posted) s = .next { s with out := [statusOut 0 st] }) ∧
      (channelStop s n (off / 64) key true = none →
        Ends (.patinaLineWrite n req key off data posted) s (fun t => t.out = [.done] ∧ lineValue t n (off / 64) = data.toNat ∧
          lineWritten t n (off / 64) = true ∧ off / 64 ∉ (t.patina n).marks ∧ smGet 0 (t.patina n).lineKey (off / 64) = accessKey s n key ∧
          (cipherOnly s n = true ∧ off / 64 / 32768 ∉ (s.patina n).touched → ∀ b, b ≠ off / 64 → b / 32768 = off / 64 / 32768 → lineValue t n b = 0) ∧
          (cipherOnly s n = false ∨ off / 64 / 32768 ∈ (s.patina n).touched → ∀ k, k < dramKey n (off / 64 * 64) ∨ dramKey n (off / 64 * 64) + 64 ≤ k →
            smGet 0 t.dram k = smGet 0 s.dram k) ∧
          (cipherOnly s n = false → smGet 0 (s.patina n).major (off / 4096) ≠ 0 → smGet 0 (s.patina n).minor (off / 64) ≠ 255 →
            strictPage s n (off / 4096) = false → smGet 0 (t.patina n).minor (off / 64) = smGet 0 (s.patina n).minor (off / 64) + 1 ∧
              (t.patina n).major = (s.patina n).major) ∧
          (cipherOnly s n = false → smGet 0 (s.patina n).major (off / 4096) = 0 ∨ smGet 0 (s.patina n).minor (off / 64) = 255 ∨
            strictPage s n (off / 4096) = true → smGet 0 (t.patina n).major (off / 4096) = (s.patina n).g0 + 1 ∧
              (t.patina n).g0 = (s.patina n).g0 + 1 ∧ off / 4096 ∈ (t.patina n).reenc) ∧
          Frame [.dram, .patinas] [PAT_COUNT_REENC n] s t) ∧
        ∀ be : BitVec 64,
          (off / 64 ∉ (s.patina n).marks → smGet 0 (s.patina n).lineKey (off / 64) = accessKey s n key →
            Ends (.patinaPartialWrite n req key off be data posted .ok) s fun t => t.out = [.done] ∧ Frame [.dram, .patinas] [PAT_COUNT_REENC n] s t ∧
              lineValue t n (off / 64) = mergeBytes (if lineWritten s n (off / 64) then lineValue s n (off / 64) else 0) data.toNat be.toNat 64) ∧
          (lineInDram s n (off / 64) = true → s.bit SEC_ESCALATE_ESC 0 = false → Ends (.patinaPartialWrite n req key off be data posted .eccFail) s fun t =>
            t.out.getLast? = some (if posted then .done else .busError) ∧ off / 64 ∈ (t.patina n).marks ∧ t.dram = s.dram ∧
            t.on (PAT_CAUSE_INTEG n) = true ∧ t.get (PAT_ERR_LOG_KIND n) = 7)))

/-- The instance's other commands. A page re-encrypted, or a block filled, is pending no more; lines that failed are marked with
an alarm. CLEAR of a listed subtree makes every line under it read as zero and frees the entry. RELEASE ends the dump state of the
channel, whose lines then read as zero, and with the last channel zeroises KS1. A state error stops the instance until its reset is done; a
second within 1 ms poisons the channel. -/
def Obligations.PatinaInstancesClearReleaseAndReset : Prop :=
  ∀ (s : State) (n : Ch) (req : Requester),
    (∀ page, page ∈ (s.patina n).reenc →
      Ends (.pageReencryptDone n page []) s (fun t => page ∉ (t.patina n).reenc ∧ (t.patina n).major = (s.patina n).major ∧
        (t.patina n).marks = (s.patina n).marks ∧ Frame [.patinas] [] s t) ∧
      ∀ failed, (∀ a ∈ failed, a / 64 = page ∧ lineWritten s n a = true) → failed ≠ [] → s.bit SEC_ESCALATE_ESC 0 = false →
        Ends (.pageReencryptDone n page failed) s fun t => page ∉ (t.patina n).reenc ∧ (∀ a ∈ failed, a ∈ (t.patina n).marks) ∧
          t.on (PAT_CAUSE_INTEG n) = true ∧ t.on SEC_CAUSE_DATA_FAIL = true ∧ t.get (PAT_ERR_LOG_KIND n) = 8) ∧
    (∀ block, Ends (.cipherBlockFillDone n block) s fun t => block ∉ (t.patina n).fill ∧ (t.patina n).touched = (s.patina n).touched ∧
      Frame [.patinas] [] s t) ∧
    (regGate s req (0x020000050008 + n.val * 0x10000000) 4 true = .reach →
      (∀ entry : Fin 16, s.on (PAT_SUBTREE_VALID n entry) = true → Ends (.patCtrlClear req n entry) s fun t => t.out = [.done] ∧
        t.on (PAT_SUBTREE_VALID n entry) = false ∧
        (∀ a, underTree (a / 64) (s.get (PAT_SUBTREE_LEVEL n entry)) (s.get (PAT_SUBTREE_INDEX n entry)) = true →
          smGet 0 (t.patina n).major (a / 64) = 0 ∧ a ∉ (t.patina n).marks) ∧
        (∀ p, underTree p (s.get (PAT_SUBTREE_LEVEL n entry)) (s.get (PAT_SUBTREE_INDEX n entry)) = false →
          smGet 0 (t.patina n).major p = smGet 0 (s.patina n).major p) ∧
        Frame [.patinas, .dram] [PAT_CTRL_ENTRY n, PAT_SUBTREE_VALID n entry, PAT_SUBTREE_LEVEL n entry, PAT_SUBTREE_INDEX n entry] s t) ∧
      (∀ entry : Fin 16, s.on (PAT_SUBTREE_VALID n entry) = false → Ends (.patCtrlClear req n entry) s fun t => Frame [] [PAT_CTRL_ENTRY n] s t) ∧
      (s.get (PAT_STATUS_STATE n) = 2 → Ends (.patCtrlRelease req n) s fun t => t.get (PAT_STATUS_STATE n) = 1 ∧ t.bit SEC_DUMP_CH n = false ∧
        (∀ k, k / 2 ^ 36 = n → smGet 0 t.dram k = 0) ∧ (t.patina n).major = [] ∧ (t.patina n).touched = [] ∧
        (s.get SEC_DUMP_CH = 2 ^ n.val → smGet 0 t.security.keys 1 = 0 ∧ t.on SEC_STATUS_DUMP_HELD = false)) ∧
      (s.get (PAT_STATUS_STATE n) ≠ 2 → exec (.patCtrlRelease req n) s = .next { s with out := [.done] })) ∧
    (runs s (164 + n.val) = true → s.get (PAT_STATUS_STATE n) ≠ 0 →
      ((s.patina n).lastErr = 0 ∨ (s.patina n).lastErr + 999999 ≤ s.clocks.ts → Ends (.patinaStateError n) s fun t =>
        t.get (PAT_STATUS_STATE n) = 3 ∧ (t.patina n).before = s.get (PAT_STATUS_STATE n) ∧ t.on (PAT_CAUSE_STATE_ERR n) = true ∧ t.dram = s.dram) ∧
      (0 < (s.patina n).lastErr → s.clocks.ts < (s.patina n).lastErr + 999999 → Ends (.patinaStateError n) s fun t =>
        t.get (PAT_STATUS_STATE n) = 4 ∧ t.on (PAT_CAUSE_STATE_ERR n) = true ∧ t.dram = s.dram)) ∧
    (s.get (PAT_STATUS_STATE n) = 3 → (s.patina n).before < 16 → Ends (.patinaUnitResetDone n) s fun t =>
      t.get (PAT_STATUS_STATE n) = (s.patina n).before ∧ Frame [] [PAT_STATUS_STATE n] s t)

/-! ## Security -/

/-- Keys, locks, owner slots and alarms. LOAD_TRNG and LOAD_DATA fill a slot and CLOSE empties it, each only where R292 lets it; a lock
bit once set stays, and KEYS zeroises KS2 to KS15. An owner request runs from GO to its result, which is 0 and takes effect, or a
refusal that changes no slot. A failing health test at the draw of the normal key leaves Patina without a key. A glitch is a
cause, and where it escalates a warm device reset. -/
def Obligations.KeysLocksAndOwnerSlots : Prop :=
  ∀ (s : State) (req : Requester),
    (∀ k : Fin 16, regGate s req (0x030000050200 + k.val * 4) 4 true = .reach →
      (2 ≤ k.val → s.on SEC_LOCK_KEYS = false →
        Ends (.ksLoadTrng req k) s (fun t => t.get (SEC_KS_CTRL_STATE k) = 1 ∧ smGet 0 t.security.keys k = s.security.drawn + 1 ∧
          t.security.drawn = s.security.drawn + 1 ∧ (∀ j, j ≠ k.val → smGet 0 t.security.keys j = smGet 0 s.security.keys j) ∧
          Frame [.security] [SEC_KS_CTRL_STATE k] s t) ∧
        Ends (.ksLoadData req k) s (fun t => t.get (SEC_KS_CTRL_STATE k) = 2 ∧ smGet 0 t.security.keys k = 2 ^ 512 + ksDataValue s ∧
          t.security.ksData = [] ∧ (∀ j, j ≠ k.val → smGet 0 t.security.keys j = smGet 0 s.security.keys j) ∧
          Frame [.security] [SEC_KS_CTRL_STATE k] s t)) ∧
      (k.val = 0 → s.get (SEC_KS_CTRL_STATE 0) = 0 → Ends (.ksLoadTrng req k) s fun t => t.get (SEC_KS_CTRL_STATE 0) = 3 ∧
        t.on SEC_STATUS_TRNG_OK = true ∧ smGet 0 t.security.keys 0 = s.security.drawn + 1 ∧
        (∀ n < 16, t.get (PAT_STATUS_STATE n) = if s.get (PAT_STATUS_STATE n) = 0 then 1 else s.get (PAT_STATUS_STATE n))) ∧
      (k.val = 1 ∨ k.val = 0 ∧ s.get (SEC_KS_CTRL_STATE 0) ≠ 0 ∨ 2 ≤ k.val ∧ s.on SEC_LOCK_KEYS = true →
        exec (.ksLoadTrng req k) s = .next { s with out := [.done] }) ∧
      (k.val < 2 ∨ s.on SEC_LOCK_KEYS = true → exec (.ksLoadData req k) s = .next { s with out := [.done] }) ∧
      (2 ≤ k.val → Ends (.ksClose req k) s fun t => t.get (SEC_KS_CTRL_STATE k) = 0 ∧ smGet 0 t.security.keys k = 0 ∧
        (∀ j, j ≠ k.val → smGet 0 t.security.keys j = smGet 0 s.security.keys j) ∧ Frame [.security] [SEC_KS_CTRL_STATE k] s t) ∧
      (k.val < 2 → exec (.ksClose req k) s = .next { s with out := [.done] })) ∧
    (regGate s req 0x030000050010 4 true = .reach →
      Ends (.secLockRights req) s (fun t => t.on SEC_LOCK_RIGHTS = true ∧ Frame [] [SEC_LOCK_RIGHTS] s t) ∧
      Ends (.secLockDbg req) s (fun t => t.on SEC_LOCK_DBG = true ∧ Frame [] [SEC_LOCK_DBG] s t) ∧
      Ends (.secLockDump req) s (fun t => t.on SEC_LOCK_DUMP = true ∧ Frame [] [SEC_LOCK_DUMP] s t) ∧
      (s.on SEC_LOCK_KEYS = false → Ends (.secLockKeys req) s fun t => t.on SEC_LOCK_KEYS = true ∧ t.on SEC_STATUS_SERVICE = true ∧
        (∀ k, 2 ≤ k → k < 16 → smGet 0 t.security.keys k = 0 ∧ t.get (SEC_KS_CTRL_STATE k) = 0) ∧
        (∀ k < 2, smGet 0 t.security.keys k = smGet 0 s.security.keys k) ∧
        Frame [.security] ([SEC_LOCK_KEYS, SEC_STATUS_SERVICE] ++ (List.range 14).map (fun i => SEC_KS_CTRL_STATE (i + 2))) s t) ∧
      (s.on SEC_LOCK_KEYS = true → exec (.secLockKeys req) s = .next { s with out := [.done] })) ∧
    (regGate s req 0x030000050110 4 true = .reach →
      Ends (.otpProgram req) s (fun t => t.on SEC_OTP_STATUS_BUSY = true ∧ t.out = [.done] ∧ Frame [] [SEC_OTP_STATUS_BUSY] s t) ∧
      Ends (.otpRevoke req) s (fun t => t.on SEC_OTP_STATUS_BUSY = true ∧ t.out = [.done] ∧ Frame [] [SEC_OTP_STATUS_BUSY] s t)) ∧
    (s.on SEC_OTP_STATUS_BUSY = true → s.bit SEC_ESCALATE_ESC 5 = false → ∀ ed mldsa written,
      let r := otpResult s (ed && mldsa) (otpKeyDigest s) written
      Ends (.otpRequestDone ed mldsa written) s fun t => t.on SEC_OTP_STATUS_BUSY = false ∧ t.get SEC_OTP_STATUS_RESULT = r ∧
        t.on SEC_CAUSE_OTP = true ∧ t.security.otpBuf = [] ∧
        (otpShape s = false → r = 1) ∧ (otpShape s = true → otpBytes s 0 1 = 1 → s.on SEC_LOCK_KEYS = true → r = 6) ∧
        (r = 0 → otpBytes s 0 1 = 1 → t.on (SEC_OWNER_PROGRAMMED (otpBytes s 1 1)) = true ∧
          smGet 0 t.security.digests (otpBytes s 1 1) = otpBytes s 0x10 64 ∧ smGet 0 t.security.ownerKeys (otpBytes s 1 1) = otpBytes s 0x50 32) ∧
        (r = 0 → otpBytes s 0 1 ≠ 1 → t.on (SEC_OWNER_REVOKED (otpBytes s 1 1)) = true ∧ t.security.digests = s.security.digests) ∧
        (r ≠ 0 → t.security = { s.security with otpBuf := [] } ∧ ∀ k < 4, t.on (SEC_OWNER_PROGRAMMED k) = s.on (SEC_OWNER_PROGRAMMED k) ∧
          t.on (SEC_OWNER_REVOKED k) = s.on (SEC_OWNER_REVOKED k))) ∧
    (s.bit SEC_ESCALATE_ESC 4 = false → Ends .trngHealthFail s fun t => t.on SEC_CAUSE_TRNG = true ∧ t.on SEC_STATUS_TRNG_OK = false ∧
      (s.security.keyDue = true → t.security.keyDue = false ∧ smGet 0 t.security.keys 0 = 0 ∧ ∀ n < 16, t.get (PAT_STATUS_STATE n) = 0) ∧
      (s.security.keyDue = false → t.security = s.security)) ∧
    (s.bit SEC_ESCALATE_ESC 3 = false → Ends .secGlitch s fun t => t.on SEC_CAUSE_GLITCH = true ∧ Alerted s t ∧
      Frame [.host] (SEC_CAUSE_GLITCH :: alertFlds) s t) ∧
    (s.bit SEC_ESCALATE_ESC 3 = true → s.on SEC_CAUSE_GLITCH = false → s.clocks.halted = false → s.clocks.wide ≠ 2 → s.wf = true → Ends .secGlitch s fun t =>
      WarmReset RST_CAUSE_SEC_ALARM s t)

/-- SPDM, as Bamid answers it while it runs. GET_VERSION starts the exchange anew; each request after it is answered where
the exchange has come so far, else with an error. Signed answers let UZ_PQSIG follow; FINISH with right verification data opens a
session and END_SESSION ends it; IDE_KM in a session keys a stream. What certificates and signatures hold is free. The request codes, and the order
of requests, are those of SPDM 1.3 (assumption 41). -/
def Obligations.SpdmExchangesAndSessions : Prop :=
  ∀ s : State,
    (bamidRuns s = false → ∀ c, (c = Instr.getVersion ∨ c = Instr.getCapabilities ∨ c = Instr.negotiateAlgorithms ∨ c = Instr.getDigests ∨
      (∃ k, c = Instr.getCertificate k ∨ c = Instr.challenge k ∨ c = Instr.keyExchange k) ∨ c = Instr.uzPqsig) → exec c s = .next s.begin) ∧
    (bamidRuns s = true →
      exec .getVersion s = .next { s with security := { s.security with spdm := .version }, out := [.spdm 0x84 0x13] } ∧
      exec .getCapabilities s = .next (if s.security.spdm = .version then
        { s with security := { s.security with spdm := .capabilities }, out := [.spdm 0xE1 0] } else { s with out := [.spdmError 0xE1] }) ∧
      exec .negotiateAlgorithms s = .next (if s.security.spdm = .capabilities then
        { s with security := { s.security with spdm := .algorithms }, out := [.spdm 0xE3 0] } else { s with out := [.spdmError 0xE3] }) ∧
      (s.security.spdm = .algorithms →
        Ends .getDigests s (fun t => (∃ v, t.out = [.spdm 0x81 v]) ∧ Frame [.freeCtr] [] s t) ∧
        (∀ slot : Fin 8, slot.val < 2 →
          Ends (.getCertificate slot) s (fun t => (∃ v, t.out = [.spdm 0x82 v]) ∧ Frame [.freeCtr] [] s t) ∧
          Ends (.challenge slot) s (fun t => (∃ v, t.out = [.spdm 0x83 v]) ∧ t.security = { s.security with signed := true } ∧
            Frame [.freeCtr, .security] [] s t) ∧
          Ends (.keyExchange slot) s (fun t => (∃ v, t.out = [.spdm 0xE4 v]) ∧
            t.security = { s.security with signed := true, exchange := true } ∧ Frame [.freeCtr, .security] [] s t)) ∧
        (∀ slot : Fin 8, 2 ≤ slot.val → exec (.getCertificate slot) s = .next { s with out := [.spdmError 0x82] }) ∧
        ∀ (index : BitVec 8) sign,
          (1 ≤ index.toNat → index.toNat < 20 → index ≠ 2#8 → exec (.getMeasurements index sign) s = .next { s with
            security := { s.security with signed := s.security.signed || sign }, out := [.spdm 0xE0 (smGet 0 s.security.meas index.toNat)] }) ∧
          (index = 2#8 → exec (.getMeasurements index sign) s = .next { s with
            security := { s.security with signed := s.security.signed || sign }, out := [.spdm 0xE0 (cfgMeas s)] }) ∧
          (index.toNat = 20 ∨ index.toNat = 21 → Ends (.getMeasurements index sign) s fun t => (∃ v, t.out = [.spdm 0xE0 v]) ∧
            Frame [.freeCtr, .security] [] s t) ∧
          (index.toNat = 0 ∨ 21 < index.toNat → exec (.getMeasurements index sign) s = .next { s with out := [.spdmError 0xE0] })) ∧
      (s.security.spdm ≠ .algorithms → exec .getDigests s = .next { s with out := [.spdmError 0x81] } ∧
        ∀ slot : Fin 8, exec (.getCertificate slot) s = .next { s with out := [.spdmError 0x82] } ∧
          exec (.challenge slot) s = .next { s with out := [.spdmError 0x83] } ∧
          exec (.keyExchange slot) s = .next { s with out := [.spdmError 0xE4] } ∧
          ∀ index sign, exec (.getMeasurements index sign) s = .next { s with out := [.spdmError 0xE0] }) ∧
      (∀ session,
        (s.security.exchange = true → Ends (.finish session true) s fun t => t.out = [.spdm 0xE5 session] ∧ session ∈ t.security.sessions ∧
          t.security.exchange = false ∧ Frame [.security] [] s t) ∧
        exec (.finish session false) s = .next { s with out := [.spdmError 0xE5] } ∧
        (session ∈ s.security.sessions → Ends (.endSession session) s fun t => t.out = [.spdm 0xEC session] ∧ session ∉ t.security.sessions ∧
          Frame [.security] [] s t) ∧
        (∀ (port : Port) (stream : Fin 5), session ∈ s.security.sessions → Ends (.ideKmMessage port stream session) s fun t =>
          port.val * 8 + stream.val ∈ t.security.keyed ∧ (stream.val ≠ 0 → port.val * 8 + stream.val ∉ t.security.insecure) ∧
          (stream.val = 0 → t.security.insecure = s.security.insecure) ∧ Frame [.security] [] s t) ∧
        (∀ (port : Port) (stream : Fin 5), session ∉ s.security.sessions →
          exec (.ideKmMessage port stream session) s = .next { s with out := [.spdmError 0x100] })) ∧
      (s.security.signed = true → Ends .uzPqsig s fun t => (∃ v, t.out = [.spdm 0xFE v]) ∧ Frame [.freeCtr] [] s t) ∧
      (s.security.signed = false → exec .uzPqsig s = .next { s with out := [.spdmError 0xFE] }))

/-! ## Hosts -/

/-- Requests of the hosts. A memory request inside an HDM range, or of a function's BAR0, enters the journal, is forwarded and gets
its answer: a line of channel DRAM reads and writes as Patina gives it and a granted copy is recorded; a register reads and is
written. Outside every range a read gives poisoned data; an absent function and every AtomicOp answer Unsupported Request. A
write to a line of which the other port holds a copy sends BISnpInv and waits. A request of an IDE stream in the Insecure state is
dropped, and a failed check of a stream puts it there, with SEC_CAUSE.IDE_FAIL; which stream protects a request and whether its
check passes is a free value (assumption 70). Configuration requests are answered by
the functions that are there. A request that is not posted waits behind its function's posted writes; in an integrity halt PF1, PF2,
AtomicOps and configuration requests are answered with Completer Abort. The layout of configuration space is the model's (assumption 64). -/
def Obligations.HostRequestsAreJournaledAndServed : Prop :=
  ∀ (s : State) (port : Port),
    (∀ (r : Fin 8) (tag : Fin 16384) (h : Nat) (be : BitVec 64) (data : BitVec 512) (grant : Option Bool),
      ideKeyed s port = false → r.val / 4 = port.val → subUp s port (r.val % 4) = true → started s = true → s.on (HP_STATUS_CXL port) = true → s.on (HP_STATUS_MEM port) = true →
      (hdmMap s r (h / 64 * 64) = none →
        Ends (.hostMemRead port r tag h grant) s (fun t => t.on (HP_CAUSE_HDM_RANGE port) = true ∧ (∃ v, t.out.getLast? = some (.hostData port tag v true)) ∧
          Alerted s t ∧ Frame [.host, .freeCtr] (HP_CAUSE_HDM_RANGE port :: alertFlds) s t) ∧
        Ends (.hostMemWrite port r tag h be data grant) s (fun t => t.on (HP_CAUSE_HDM_RANGE port) = true ∧
          t.out.getLast? = some (.hostDone port tag) ∧ t.dram = s.dram)) ∧
      (∀ a n off, hdmMap s r (h / 64 * 64) = some a → plainOf a = some (.dram n off 0) → JournalFree s port → s.clocks.halted = false →
        easyHolds s (4 + a / 2 ^ 36) = false → runs s 181 = true → s.host.failed = [] → s.host.biSnoops = [] →
        (s.host.dir = [] →
          (hasRight s (.host port 1) a false = true → channelStop s n (off / 64) 0 false = none →
            off / 64 ∉ (s.patina n).marks → smGet 0 (s.patina n).lineKey (off / 64) = accessKey s n 0 → off % 64 = 0 →
            Ends (.hostMemRead port r tag h grant) s fun t =>
              Answered port (.host port 1) tag (.data (if lineInDram s n (off / 64) then lineValue s n (off / 64) else 0) false) s t ∧
              t.get (WAKE_SEQ_IN port) = (s.get (WAKE_SEQ_IN port) + 1) % 2 ^ 32 ∧ t.dram = s.dram ∧
              (∀ excl, grant = some excl → t.host.dir = [(lineOf a, ⟨port, excl⟩)]) ∧ (grant = none → t.host.dir = [])) ∧
          (hasRight s (.host port 1) a true = true → channelStop s n (off / 64) 0 true = none →
            off / 64 ∉ (s.patina n).marks → smGet 0 (s.patina n).lineKey (off / 64) = accessKey s n 0 → off % 64 = 0 →
            Ends (.hostMemWrite port r tag h be data grant) s fun t => Answered port (.host port 1) tag .ack s t ∧
              lineValue t n (off / 64) = mergeBytes (if lineWritten s n (off / 64) then lineValue s n (off / 64) else 0) data.toNat be.toNat 64)) ∧
        (∀ d, s.host.dir.find? (·.1 == lineOf a) = some (lineOf a, d) → d.port ≠ port.val → Ends (.hostMemWrite port r tag h be data grant) s fun t =>
          t.host.biSnoops = [⟨d.port, lineOf a, true, [(.host port 1, tag.val)]⟩] ∧ .biSnp d.port (lineOf a) 1 ∈ t.out ∧ t.dram = s.dram ∧
          ∃ e, t.wake.entries = s.wake.entries ++ [e] ∧ e.req.tag = tag.val ∧ e.req.accepted = false))) ∧
    (subUp s port 0 = true → ∀ (pf : Fin 3) (tag : Fin 1024) (off : Nat) (data : BitVec 512),
      exec (.hostAtomicop port pf tag) s = .next (s.begin.emit
        (if postedBefore s port pf then .held else if s.clocks.halted then .hostAbort port tag else .hostUr port tag)) ∧
      (ideKeyed s port = false → functionHere s port pf = false → ∀ size, 0 < size →
        exec (.hostIoRead port pf tag off size) s = .next (s.begin.emit (if postedBefore s port pf then .held else .hostUr port tag)) ∧
        exec (.hostIoWrite port pf tag off size data) s = .next s.begin) ∧
      (ideKeyed s port = false → JournalFree s port → pf = 0 → off < 0x4000000 → off / 0x10000 ≠ 7 → ordinary (0x030000000000 + off) = true →
        ∀ row ix, rowOf (0x030000000000 + off) = some (row, ix) →
        (regGate s (.host port 0) (0x030000000000 + off) 4 false = .reach → s.clocks.latch = [] → isLowWord (0x030000000000 + off) = false →
          Ends (.hostIoRead port pf tag off 4) s fun t => Answered port (.host port 0) tag (.data (readReg s (0x030000000000 + off)) false) s t) ∧
        (regGate s (.host port 0) (0x030000000000 + off) 4 true = .reach →
          Ends (.hostIoWrite port pf tag off 4 data) s fun t => Answered port (.host port 0) tag .ack s t ∧
            ∀ f ∈ row.fields, f.acc = .rw → t.get (f.ref (0x030000000000 + off) ix) = slice data.toNat f.lo f.w)) ∧
      (ideKeyed s port = false → JournalFree s port → functionHere s port pf = true → pf = 2 →
        (s.clocks.halted = true → ∀ size, 0 < size → Ends (.hostIoRead port pf tag off size) s fun t => Answered port (.host port 2) tag .errBus s t) ∧
        (s.clocks.halted = false → Ends (.hostIoRead port pf tag 8 4) s fun t => Answered port (.host port 2) tag (.data 0x20000 false) s t))) ∧
    (∀ (r : Fin 8) (tag : Fin 16384) (pf : Fin 3) (iotag : Fin 1024) (h size : Nat) (be : BitVec 64) (data : BitVec 512) (grant : Option Bool)
      (c : Instr) (f : State → State),
      (c, f) ∈ [(Instr.hostMemRead port r tag h grant, hostMem port r tag h 0 0 0 grant),
        (.hostMemWrite port r tag h be data grant, hostMem port r tag h 1 data.toNat be.toNat grant),
        (.hostIoRead port pf iotag h size, hostIo port pf iotag h size 0 0),
        (.hostIoWrite port pf iotag h size data, hostIo port pf iotag h size 1 (data.toNat % 2 ^ (8 * size)))] →
      ideKeyed s port = true → ∀ v, s.free.1 = v →
      (ideStream s port v = none → exec c s = .next (f s.begin.free.2)) ∧
      (∀ key, ideStream s port v = some key →
        (s.security.insecure.contains key = true → exec c s = .next s.begin.free.2) ∧
        (s.security.insecure.contains key = false → v.getLsbD 3 = false → exec c s = .next (f s.begin.free.2)) ∧
        (s.security.insecure.contains key = false → v.getLsbD 3 = true → s.bit SEC_ESCALATE_ESC 2 = false → Ends c s fun t =>
          t.on SEC_CAUSE_IDE_FAIL = true ∧ Alerted s t ∧ t.security = { s.security with insecure := setAdd s.security.insecure key } ∧
          Frame [.security, .host, .freeCtr] (SEC_CAUSE_IDE_FAIL :: alertFlds) s t))) ∧
    (s.clocks.perst.contains port.val = false → ∀ (fn : Fin 8) (tag : Fin 1024) (word : Fin 1024) (write : Option Word),
      (runs s 180 = false → exec (.hostConfigRequest port fn tag word write) s = .next { s with out := [.hostCrs port tag] }) ∧
      (runs s 180 = true → postedBefore s port fn = true → exec (.hostConfigRequest port fn tag word write) s = .next { s with out := [.held] }) ∧
      (runs s 180 = true → postedBefore s port fn = false →
        (s.clocks.halted = true → exec (.hostConfigRequest port fn tag word write) s = .next { s with out := [.hostAbort port tag] }) ∧
        (s.clocks.halted = false →
        (functionState s port fn = 1 → exec (.hostConfigRequest port fn tag word write) s = .next { s with out := [.hostCrs port tag] }) ∧
        (functionState s port fn = 2 → exec (.hostConfigRequest port fn tag word write) s = .next { s with out := [.hostUr port tag] }) ∧
        (3 ≤ fn.val → functionState s port fn = 2) ∧
        (fn.val < 3 → functionState s port fn = 0 → ∀ v : Word, exec (.hostConfigRequest port fn tag 1 (some v)) s =
          .next ((cfgWrite port fn 1 v.toNat s.begin).emit (.hostDone port tag))) ∧
        (fn = 0 → exec (.hostConfigRequest port fn tag 0 none) s = .next { s with out := [.hostData port tag 0x0D091D5A false] }) ∧
        (fn = 0 → ∀ v : Word, Ends (.hostConfigRequest port fn tag 1 (some v)) s fun t => t.out = [.hostDone port tag] ∧
          cfgWord t port 0 1 = some v.toNat ∧ (t.host.busMasterOff.contains port.val = !v.getLsbD 2) ∧ Frame [.host] [] s t))))

/-- Answers of the hosts, and links. A completion is stored with its entry, and one for a tag that is free is discarded. BIRSP gives the
copy up, and its data is written back; a snoop without an answer fails what waits for it, keeps the directory and raises BI_TO. A retrained sub-link shows
whether it is up, sub-link 0 with its settings; RETRAIN is raised, and LINK_DOWN where it went down. -/
def Obligations.HostAnswersAndLinks : Prop :=
  ∀ (s : State) (port : Port),
    (∀ (tag : Fin 16384) (ok : Bool) (data : BitVec 512),
      (∀ e, s.wake.entries.find? (fun e => e.out && e.port == port.val && e.slot == tag.val && e.state == 2) = some e →
        (e.req.accepted = false → Ends (.hostCompletion port tag ok data) s fun t => (∃ f ∈ t.wake.entries, f.out = true ∧ f.port = port ∧
            f.slot = tag ∧ f.state = 3 ∧ f.data = data.toNat % 2 ^ (8 * (e.req.len + 1)) ∧ f.req.rsp = if ok then none else some .errBus) ∧
          t.wake.entries.length = s.wake.entries.length ∧ Frame [.wake] [] s t) ∧
        (e.req.accepted = true → e.req.tag = 16384 → (∀ q ∈ s.host.snoops, q.waiting ≠ []) → Ends (.hostCompletion port tag ok data) s fun t =>
          (∀ f ∈ t.wake.entries, f.out = true → f.port = port → f.slot ≠ tag) ∧ Frame [.wake] [] s t)) ∧
      (s.wake.entries.find? (fun e => e.out && e.port == port.val && e.slot == tag.val && e.state == 2) = none →
        exec (.hostCompletion port tag ok data) s = .next s.begin)) ∧
    (∀ (line : BitVec 46) b, s.host.biSnoops.find? (fun b => b.port == port.val && b.line == line.toNat) = some b → s.slots.ending = [] →
      (Ends (.birsp port line none) s fun t => t.host.biSnoops = s.host.biSnoops.erase b ∧ Frame [.host] [] s t ∧
        (b.inv = true → ∀ e ∈ t.host.dir, e.1 = line.toNat → e.2.port ≠ port.val) ∧
        (b.inv = false → ∀ e ∈ t.host.dir, e.1 = line.toNat → e.2.port = port.val → e.2.excl = false)) ∧
      (∀ d : BitVec 512, channelStop s (line.toNat / 2 ^ 30) (line.toNat % 2 ^ 30) 0 true = none → Ends (.birsp port line (some d)) s fun t =>
        lineValue t (line.toNat / 2 ^ 30) (line.toNat % 2 ^ 30) = d.toNat ∧ t.host.biSnoops = s.host.biSnoops.erase b) ∧
      Ends (.biTimeout port line) s fun t => t.host.biSnoops = s.host.biSnoops.erase b ∧ t.host.failed = s.host.failed ++ b.waiting ∧
        t.host.dir = s.host.dir ∧ t.on (HP_CAUSE_BI_TO port) = true ∧ Frame [.host] (HP_CAUSE_BI_TO port :: alertFlds) s t) ∧
    (∀ line : BitVec 46, s.host.biSnoops.find? (fun b => b.port == port.val && b.line == line.toNat) = none →
      (∀ d, exec (.birsp port line d) s = .next s.begin) ∧ exec (.biTimeout port line) s = .next s.begin) ∧
    (∀ (sub : Fin 4) (up : Bool) (rate : Fin 7) (width : Fin 17) (flit cxl cache mem : Bool), s.clocks.perst.contains port.val = false →
      s.bit LANE_HTEST_PORT port = false → runs s 180 = true →
      (sub.val < subLinks s port → Ends (.linkRetrain port sub up rate width flit cxl cache mem) s fun t => t.bit (HP_STATUS_UP port) sub = up ∧
        t.on (HP_CAUSE_RETRAIN port) = true ∧ (s.bit (HP_STATUS_UP port) sub = true → up = false → t.on (HP_CAUSE_LINK_DOWN port) = true) ∧
        (sub = 0 → up = true → t.get (HP_STATUS_RATE port) = rate.val ∧ t.get (HP_STATUS_WIDTH port) = width.val ∧ t.on (HP_STATUS_FLIT port) = flit ∧
          t.on (HP_STATUS_CXL port) = cxl ∧ t.on (HP_STATUS_MEM port) = (cxl && mem) ∧ t.on (HP_STATUS_CACHE port) = (cxl && cache && port == 0)) ∧
        (sub ≠ 0 → t.get (HP_STATUS_RATE port) = s.get (HP_STATUS_RATE port) ∧ t.on (HP_STATUS_CXL port) = s.on (HP_STATUS_CXL port)) ∧ Alerted s t ∧
        Frame [.host] ([HP_STATUS_UP port, HP_STATUS_RATE port, HP_STATUS_WIDTH port, HP_STATUS_FLIT port, HP_STATUS_CXL port, HP_STATUS_CACHE port,
          HP_STATUS_MEM port, HP_CAUSE_RETRAIN port, HP_CAUSE_LINK_DOWN port] ++ alertFlds) s t) ∧
      (subLinks s port ≤ sub.val → exec (.linkRetrain port sub up rate width flit cxl cache mem) s = .next s.begin))

/-- Recoveries of the journal. A covered fault begins a recovery, and entries in its scope are held; its quiet point replays what was
accepted; its end counts it, raises RECOVERED and releases what no other recovery holds. Before the quiet point it does not
end, and before QUIET_TO the time limit does nothing. An entry held past HOLD_LIM completes with an error. WAKE_PEEK shows the entry selected. -/
def Obligations.RecoveriesHoldReplayAndEnd : Prop :=
  ∀ s : State,
    (∀ (unit : Nat) (n : Ch) (c : Instr) (kind : Nat), (c = .hubSwitchFault ∧ kind = 3 ∧ unit = 20 * 2048 + 18 ∧ runs s 180 = true ∨
        c = .channelBridgeFault n ∧ kind = 4 ∧ unit = (4 + n.val) * 2048 + 70 ∧ chanUp s n (132 + n.val) = true) →
      s.wake.recs = [] → smGet 0 s.wake.done unit = 0 → NoTrigger 7 s → Ends c s fun t =>
        t.wake.recs = [⟨kind, unit, s.clocks.ts, false, false, 0, 0, 0⟩] ∧ t.on WAKE_STATUS_ACTIVE = true ∧ t.get WAKE_STATUS_KIND = kind ∧
        t.get WAKE_STATUS_UNIT = unit ∧ t.wake.entries = s.wake.entries.map (fun e =>
          if e.out = false ∧ e.state = 0 ∧ inScope kind unit e = true then { e with state := 1 } else e) ∧
        Frame [.wake] [WAKE_STATUS_ACTIVE, WAKE_STATUS_QUIET, WAKE_STATUS_KIND, WAKE_STATUS_UNIT, WAKE_LOG_TS_LO, WAKE_LOG_TS_HI] s t) ∧
    (runs s 180 = false → exec .hubSwitchFault s = .next s.begin) ∧
    (∀ (unit : BitVec 16) r, s.wake.recs = [r] → r.unit = unit.toNat → s.wake.entries = [] → r.kind ≠ 5 → r.kind ≠ 6 → r.kind ≠ 7 →
      (r.quiet = false →
        Ends (.wakeQuiet unit) s (fun t => t.wake.recs = [{ r with quiet := true }] ∧ t.on WAKE_STATUS_QUIET = true) ∧
        exec (.wakeRecoveryDone unit) s = .next s.begin ∧
        (max 20 (s.get WAKE_CTRL_QUIET_TO) * 1000 ≤ s.clocks.ts - r.start → Ends (.wakeQuietTimeout unit) s fun t =>
          t.wake.recs = [{ r with quiet := true }] ∧ t.on WAKE_STATUS_QUIET = true) ∧
        (s.clocks.ts - r.start < max 20 (s.get WAKE_CTRL_QUIET_TO) * 1000 → exec (.wakeQuietTimeout unit) s = .next s.begin)) ∧
      (r.quiet = true → Ends (.wakeRecoveryDone unit) s fun t => t.wake.recs = [] ∧ t.on WAKE_CAUSE_RECOVERED = true ∧
        t.get WAKE_LOG_END = 1 ∧ t.on WAKE_STATUS_ACTIVE = false ∧
        (s.get WAKE_COUNT_RECOVERIES + 1 < 2 ^ WAKE_COUNT_RECOVERIES.w → t.get WAKE_COUNT_RECOVERIES = s.get WAKE_COUNT_RECOVERIES + 1) ∧
        smGet 0 t.wake.done unit.toNat = s.clocks.ts + 1)) ∧
    (∀ unit : BitVec 16, s.wake.recs = [] → exec (.wakeQuiet unit) s = .next s.begin ∧ exec (.wakeRecoveryDone unit) s = .next s.begin) ∧
    (∀ (port : Port) (seq : Word) e r, s.wake.entries = [e] → e.out = false → e.port = port → e.seq = seq.toNat → e.state = 1 → s.wake.recs = [r] →
      inScope r.kind r.unit e = true →
      (max r.start e.ts + (if s.get WAKE_CTRL_HOLD_LIM = 0 then 50 else s.get WAKE_CTRL_HOLD_LIM) * 1000000 ≤ s.clocks.ts → Ends (.wakeHoldLimit port seq) s fun t =>
        t.wake.entries = [] ∧ t.on WAKE_CAUSE_HOLD_LIM = true ∧ (e.posted = false → e.req.req = .host port 0 → .hostAbort port e.req.tag ∈ t.out)) ∧
      (s.clocks.ts < max r.start e.ts + (if s.get WAKE_CTRL_HOLD_LIM = 0 then 50 else s.get WAKE_CTRL_HOLD_LIM) * 1000000 →
        exec (.wakeHoldLimit port seq) s = .next s.begin)) ∧
    (∀ req data, regGate s req 0x030000070100 4 true = .reach → Ends (.wakePeekSelect req data) s fun t => t.out = [.done] ∧
      t.wake = { s.wake with peek := t.wake.peek } ∧
      (∀ e, (portEntries s (t.get WAKE_PEEK_SEL_PORT) (t.on WAKE_PEEK_SEL_OUT)).find? (fun e => e.slot == t.get WAKE_PEEK_SEL_INDEX) = some e →
        smGet 0 t.wake.peek 0 = e.seq) ∧
      Frame [.wake, .freeCtr] [WAKE_PEEK_SEL_PORT, WAKE_PEEK_SEL_OUT, WAKE_PEEK_SEL_INDEX] s t)

/-- The NVMe queues and the command slots. A doorbell sets a tail; a fetched command of a good namespace goes to its channel's ring and
task queue, of a bad one completes with an error; an admin command makes and deletes queues; an outbound entry is consumed into its
queue's completion. A doorbell queues a slot, or sets OVERRUN; its program starts, or the slot fails with code 0x03 or 0x02; where
its bytes have to wait the slot is loading. An abort and the watchdog end it with 0x06 and 0x05; where a host holds the line of its
status record the slot waits for the snoop. The formats of NVMe entries are those of the standard (assumption 50). -/
def Obligations.QueuesAndSlotsRunCommands : Prop :=
  ∀ s : State,
    (∀ (port : Port) (q : Fin 64) (tail : Fin 4096), portServes s port = true →
      (tail.val < (nvQueue s port q).size → Ends (.nvmeSqDoorbell port q tail) s fun t =>
        nvQueue t port q = { nvQueue s port q with tail := tail } ∧ Frame [.host] [] s t) ∧
      ((nvQueue s port q).size ≤ tail.val → exec (.nvmeSqDoorbell port q tail) s = .next s.begin)) ∧
    (∀ (port : Port) (q : Fin 64) (cmd : BitVec 512), portServes s port = true → (s.host.cmds.filter (fun c => c.port == port.val)).length < 4096 →
      ((nvQueue s port q).size = 0 ∨ (nvQueue s port q).head = (nvQueue s port q).tail → exec (.nvmeCommandDispatch port q cmd) s = .next s.begin) ∧
      ((nvQueue s port q).size ≠ 0 → (nvQueue s port q).head ≠ (nvQueue s port q).tail → q.val ≠ 0 → ∀ ns, ns = slice cmd.toNat 32 32 →
        (0 < ns → ns ≤ 64 → s.on (HP_NS_VALID (ns - 1)) = true → ∀ n, n = s.get (HP_NS_CH (ns - 1)) → n < 16 →
          easyHolds s (4 + n) = false → takesInbound s n = true → (∀ c ∈ s.host.cmds, c.redo = false ∧ c.seq ≠ s.get (WAKE_SEQ_OUT port)) →
          inboundOffset s n (s.get (HP_NVCH_IN_WP n)) % 64 = 0 → inboundOffset s n (s.get (HP_NVCH_IN_WP n)) + 96 ≤ 2 ^ 20 →
          Ends (.nvmeCommandDispatch port q cmd) s fun t =>
            (nvQueue t port q).head = ((nvQueue s port q).head + 1) % (nvQueue s port q).size ∧
            (∃ c, t.host.cmds = s.host.cmds ++ [c] ∧ c.cmd = cmd.toNat ∧ c.port = port.val ∧ c.q = q.val ∧ c.chan = some n ∧ c.ts = s.clocks.ts) ∧
            t.get (HP_NVCH_IN_WP n) = (s.get (HP_NVCH_IN_WP n) + 1) % nvRing (s.get (HP_NVCH_IN_LOG2 n)) ∧
            t.get (WAKE_SEQ_OUT port) = (s.get (WAKE_SEQ_OUT port) + 1) % 2 ^ 32 ∧ (t.chan n).tasks.length = (s.chan n).tasks.length + 1) ∧
        (ns = 0 ∨ 64 < ns ∨ s.on (HP_NS_VALID (ns - 1)) = false → (nvQueue s port q).hasRoom = true →
          (nvQueue s port q).size ≤ 4096 → Ends (.nvmeCommandDispatch port q cmd) s fun t =>
          (∃ entry, .nvmeCompletion port q entry (nvQueue s port q).vec ∈ t.out ∧ slice entry 113 15 = 0x0B) ∧ t.host.cmds = s.host.cmds ∧
          (nvQueue t port q).head = ((nvQueue s port q).head + 1) % (nvQueue s port q).size)) ∧
      (q = 0 → (nvQueue s port 0).size ≠ 0 → (nvQueue s port 0).head ≠ (nvQueue s port 0).tail → bamidRuns s = true → (nvQueue s port 0).hasRoom = true →
        (nvQueue s port 0).size ≤ 4096 → cmd.toNat % 256 = 0x05 → ∀ k, k = slice cmd.toNat 320 16 → 0 < k → k < 64 → (nvQueue s port k).cqSize = 0 →
        1 ≤ slice cmd.toNat 336 16 → slice cmd.toNat 336 16 < 4096 → slice cmd.toNat 353 1 = 0 → Ends (.nvmeCommandDispatch port q cmd) s fun t =>
          nvQueue t port k = { nvAbsent with cqSize := slice cmd.toNat 336 16 + 1 } ∧
          ∃ entry, .nvmeCompletion port 0 entry (nvQueue s port 0).vec ∈ t.out ∧ slice entry 113 15 = 0)) ∧
    (∀ (req : Requester) (n : Ch) (rp : Nat) (wp : BitVec 10) (e : Nat), regGate s req (0x030000080818 + n.val * 0x40) 4 true = .reach →
      rp = s.get (HP_NVCH_OUT_RP n) → wp.toNat = (rp + 1) % nvRing (s.get (HP_NVCH_OUT_LOG2 n)) → (∀ c ∈ s.host.cmds, c.redo = false) →
      s.get (HP_NVCH_OUT_BASE n) * 32 + rp * 32 + 32 ≤ 2 ^ 20 → goodBytes s (4 + n.val) 69 0 (s.get (HP_NVCH_OUT_BASE n) * 32 + rp * 32) 32 →
      e = bytesValue s (4 + n.val) 69 0 (s.get (HP_NVCH_OUT_BASE n) * 32 + rp * 32) 32 →
      slice e 128 2 < 2 → slice e 80 16 < 64 → (nvQueue s (slice e 128 2) (slice e 80 16)).size ≠ 0 →
      (nvQueue s (slice e 128 2) (slice e 80 16)).hasRoom = true → Ends (.nvmeOutWpWrite req n wp) s fun t =>
        t.get (HP_NVCH_OUT_RP n) = wp.toNat ∧ t.get (HP_NVCH_OUT_WP n) = wp.toNat ∧
        (∃ entry, .nvmeCompletion (slice e 128 2) (slice e 80 16) entry (nvQueue s (slice e 128 2) (slice e 80 16)).vec ∈ t.out ∧
          entry % 2 ^ 64 = e % 2 ^ 64) ∧
        t.host.cmds = s.host.cmds.filter (fun c => !(c.port == slice e 128 2 && c.q == slice e 80 16 && slice c.cmd 16 16 == slice e 96 16 && c.chan == some n.val))) ∧
    (∀ (req : Requester) (k : Fin 64) (tag : BitVec 16), regGate s req (slotAt k 0x1C) 4 true = .reach →
      (s.get (SLOT_STATE k) ∈ [1, 2, 3] → Ends (.slotDoorbell req k tag) s fun t => t.on (SLOT_OVERRUN k) = true ∧ Frame [] [SLOT_OVERRUN k] s t) ∧
      (s.get (SLOT_STATE k) ∉ [1, 2, 3] → s.on CFG_STATUS_BAMID_FAIL = false → Ends (.slotDoorbell req k tag) s fun t =>
        t.get (SLOT_STATE k) = 1 ∧ t.get (SLOT_TAG k) = tag.toNat ∧ t.slots.queue = s.slots.queue ++ [k.val] ∧
        (∀ g ∈ hubEngines, t.bit (ENG_IRQ_PEND_PEND g) 18 = true) ∧ Frame [.slots] ([SLOT_STATE k, SLOT_TAG k] ++ alertFlds) s t) ∧
      (s.get (SLOT_STATE k) ∉ [1, 2, 3] → s.on CFG_STATUS_BAMID_FAIL = true → Ends (.slotDoorbell req k tag) s fun t =>
        t.get (SLOT_STATE k) = 5 ∧ t.get (SLOT_CODE k) = 9 ∧ t.slots = s.slots)) ∧
    (∀ (k : Fin 64) (he : Fin 4) (prog : List Byte) (err : Bool), nextSlot s = some k.val → s.slots.running.any (·.1 == he.val) = false →
      (∀ e ∈ s.slots.running, e.2 ≠ k.val) → stopCode s k = none → (∀ e ∈ s.slots.ending, e.1 ≠ k.val) →
      bamidRuns s = true → s.on (ENG_CTRL_RUN (1024 + he)) = true → s.get (ENG_STATUS_STATE (1024 + he)) = 1 ∨ s.get (ENG_STATUS_STATE (1024 + he)) = 2 →
      (programFits s k = true → plainOf (s.get64 (SLOT_PROG_LO k) (SLOT_PROG_HI k)) = none →
        (err = false → Ends (.slotProgramStart k he prog err) s fun t => t.get (SLOT_STATE k) = 3 ∧ t.get (ENG_STATUS_STATE (1024 + he)) = 1 ∧
          (t.eng (1024 + he)).pc = 0x4000 ∧ (t.eng (1024 + he)).ctxid = BitVec.ofNat 32 (0x40 + k.val) ∧
          t.slots.running = s.slots.running ++ [(he.val, k.val)] ∧ k.val ∉ t.slots.queue ∧
          ((∀ i < s.get (SLOT_LEN k), syndrome (storedWord t 20 he 0 (0x4000 + i)) = 0 ∧
            (dataOf (storedWord t 20 he 0 (0x4000 + i))) = prog.getD i 0))) ∧
        (err = true → s.get64 (SLOT_SADDR_LO k) (SLOT_SADDR_HI k) < 16 → Ends (.slotProgramStart k he prog err) s fun t =>
          t.get (SLOT_STATE k) = 5 ∧ t.get (SLOT_CODE k) = 2 ∧ t.bit (CMD_DONE_DONE (k.val / 32)) (k.val % 32) = true ∧ k.val ∉ t.slots.queue)) ∧
      (programFits s k = true → ∀ u, programTurn k s.begin = (.wait, u) → u.slots = s.slots → Ends (.slotProgramStart k he prog err) s fun t =>
        t.get (SLOT_STATE k) = 2 ∧ t.slots.running = s.slots.running ++ [(he.val, k.val)] ∧ k.val ∉ t.slots.queue ∧ t.engines = u.engines ∧
        mayStart t he k = true) ∧
      (programFits s k = false → s.get64 (SLOT_SADDR_LO k) (SLOT_SADDR_HI k) < 16 → Ends (.slotProgramStart k he prog err) s fun t =>
        t.get (SLOT_STATE k) = 5 ∧ t.get (SLOT_CODE k) = 3 ∧ t.bit (CMD_DONE_DONE (k.val / 32)) (k.val % 32) = true)) ∧
    (∀ (req : Requester) (k : Fin 64) a p d, regGate s req (slotAt k 0x2C) 4 true = .reach → s.get (SLOT_STATE k) = 1 →
      recordAddress s k = a → a < 2 ^ 48 → a ≠ 0 → (plainOf a).isSome = true → locate a = .dram (a / 2 ^ 36) (a % 2 ^ 36) →
      s.host.dir.find? (·.1 == lineOf a) = some (lineOf a, ⟨p, d⟩) → runs s 181 = true → s.host.failed = [] → s.host.biSnoops = [] →
      easyHolds s (4 + a / 2 ^ 36) = false → hasRight s .hubMover a true = true → (∀ e ∈ s.slots.ending, e.1 ≠ k.val) →
      Ends (.slotAbort req k) s fun t => t.get (SLOT_STATE k) = 1 ∧ t.get (SLOT_CODE k) = 6 ∧ k.val ∉ t.slots.queue ∧
        t.slots.ending = s.slots.ending ++ [(k.val, 6, false)] ∧ .biSnp p (lineOf a) 1 ∈ t.out) ∧
    (∀ (req : Requester) (k : Fin 64), regGate s req (slotAt k 0x2C) 4 true = .reach → s.get64 (SLOT_SADDR_LO k) (SLOT_SADDR_HI k) < 16 →
      (∀ e ∈ s.slots.ending, e.1 ≠ k.val) →
      (s.get (SLOT_STATE k) = 1 → Ends (.slotAbort req k) s fun t => t.get (SLOT_STATE k) = 5 ∧ t.get (SLOT_CODE k) = 6 ∧ k.val ∉ t.slots.queue) ∧
      (s.get (SLOT_STATE k) ∉ [1, 2, 3] → exec (.slotAbort req k) s = .next { s with out := [.done] }) ∧
      (s.get (SLOT_STATE k) = 3 → ∀ he, engineOfSlot s k = some he → he < 4 → slotOfEngine s he = some k.val → stopCode s k = none →
        ((s.eng (1024 + he)).ctxid.toNat % 256 ≠ 0x40 + k.val → Ends (.slotAbort req k) s fun t => stopCode t k = some 6 ∧ Frame [.slots] [] s t) ∧
        ((s.eng (1024 + he)).ctxid.toNat % 256 = 0x40 + k.val → (s.eng (1024 + he)).surelyClean = true → Ends (.slotAbort req k) s fun t =>
          t.get (SLOT_STATE k) = 5 ∧ t.get (SLOT_CODE k) = 6 ∧ (∀ e ∈ t.slots.running, e.2 ≠ k.val) ∧ (t.eng (1024 + he)).ctxid = 0))) ∧
    (∀ k : Fin 64, slotWatchdogRuns s k = true → (∀ e ∈ s.slots.ending, e.1 ≠ k.val) → s.get64 (SLOT_SADDR_LO k) (SLOT_SADDR_HI k) < 16 → ∀ he, engineOfSlot s k = some he → he < 4 → slotOfEngine s he = some k.val → stopCode s k = none →
      (s.eng (1024 + he)).ctxid.toNat % 256 = 0x40 + k.val → (s.eng (1024 + he)).surelyClean = true → Ends (.slotWatchdogExpiry k) s fun t =>
        t.get (SLOT_STATE k) = 5 ∧ t.get (SLOT_CODE k) = 5 ∧ ∀ g ∈ hubEngines, t.bit (ENG_IRQ_PEND_PEND g) 19 = true) ∧
    (∀ req : Requester, regGate s req 0x030000090000 4 true = .reach → Ends (.cmdCapLock req) s fun t =>
      t.on CMD_CTRL_CAP_LOCK = true ∧ t.out = [.done] ∧ Frame [] [CMD_CTRL_CAP_LOCK] s t)

/-- Bamid's service calls return a status in g1, and results in further registers. A call whose capability the slot does not hold returns
0xFFFFFFFF and does nothing else; otherwise each has its effect: EXIT ends the slot, TIME gives the count, MAP moves the device
window, the image store is erased, written and committed, loads, captures, resets, channels, power, host ranges, namespaces, keys and
owner requests are what their chapters give, and a call that has to wait keeps its program. The numbering of STORE_ERASE and
the codes of POWER_STATE are the model's (assumptions 54, 55). -/
def Obligations.ServiceCallsServeTheirProgram : Prop :=
  ∀ (s : State) (he : Fin 4) (k : Nat),
    let arg (i : Nat) : Nat := argOf s he i
    (∀ checks c num bit, (c, num, bit) ∈ ([(.loadFull he, 0x10, 4), (.loadPartial he, 0x11, 4), (.captureReadback he, 0x12, 4), (.storeErase he [], 0x20, 5),
        (.storeWrite he [] [], 0x21, 5), (.storeCommit he, 0x22, 5), (.chFirmware he 0 checks [], 0x30, 6), (.chReset he, 0x31, 6),
        (.dramStart he, 0x32, 6), (.powerState he true true, 0x40, 7), (.opSet he, 0x41, 7), (.resetCall he, 0x50, 8), (.crcRun he [], 0x60, 9),
        (.hdmSet he, 0x70, 10), (.nsMap he, 0x71, 10), (.keySlot he, 0x80, 11), (.ownerReq he, 0x90, 12)] : List (Instr × Nat × Nat)) →
      (callOf s he num = none → exec c s = .next s.begin) ∧
      (InCall s he num k → s.bit (SLOT_CAP k) bit = false → Ends c s fun t => Returned he 0xFFFFFFFF [] s t ∧ Frame [.engines, .slots] [] s t)) ∧
    (callOf s he 0 = some k → (∀ e ∈ s.slots.ending, e.1 ≠ k) → s.get64 (SLOT_SADDR_LO k) (SLOT_SADDR_HI k) < 16 → k < 64 → stopCode s k = none → Ends (.exit he false) s fun t =>
      t.get (SLOT_STATE k) = (if arg 2 = 0 then 4 else 5) ∧ t.get (SLOT_CODE k) = (if arg 2 = 0 then 0 else 1) ∧ t.get (SLOT_RESULT k) = arg 1 ∧
      t.bit (CMD_DONE_DONE (k / 32)) (k % 32) = true ∧ (∀ e ∈ t.slots.running, e.2 ≠ k) ∧ (t.eng (1024 + he)).ctxid = 0) ∧
    (InCall s he 1 k → ∀ a c, a = arg 1 + arg 2 % 2 ^ 20 * 2 ^ 32 → mapCap a = some c → s.bit (SLOT_CAP k) c = true → c ≠ 0 ∨ a < 2 ^ 48 →
      Ends (.map he) s fun t => Returned he 0 [(2, 0x80000000 + a % 2 ^ 21)] s t ∧ t.get (ENG_WIN_DEV_LO_ADDR (1024 + he)) = a / 2 ^ 21 % 2 ^ 11 ∧
        t.get (ENG_WIN_DEV_HI_ADDR (1024 + he)) = a / 2 ^ 32 ∧
        Frame [.engines, .slots] [ENG_WIN_DEV_LO_ADDR (1024 + he), ENG_WIN_DEV_HI_ADDR (1024 + he)] s t) ∧
    (InCall s he 2 k → Ends (.time he) s fun t => Returned he 0 [(2, s.clocks.ts % 2 ^ 32), (3, s.clocks.ts / 2 ^ 32)] s t ∧
      Frame [.engines, .slots] [] s t) ∧
    (InCall s he 3 k → 0 < arg 1 → arg 1 < 20 → ∀ inst off, localOf s (1024 + he) (arg 2) = .mem inst off → off + 64 ≤ 0x8000 → s.onchip.due = [] →
      Ends (.measure he) s fun t => Returned he 0 [] s t ∧
        Stored s t 20 he inst off 64 (if arg 1 = 2 then cfgMeas s else smGet 0 s.security.meas (arg 1))) ∧
    (InCall s he 0x10 k → s.bit (SLOT_CAP k) 4 = true → arg 1 < 2 → loadBusy s = false → Ends (.loadFull he) s fun t => Returned he 0 [] s t ∧
      Attempts (arg 1 + 1) t) ∧
    (InCall s he 0x10 k → s.bit (SLOT_CAP k) 4 = true → arg 1 = 2 → loadBusy s = false → Ends (.loadFull he) s fun t => Returned he 0 [] s t ∧
      t.get CFG_STATUS_SOURCE = 5 ∧ t.get CFG_STATUS_STATE = 2 ∧
      t.config.load = some { src := 5, isPart := false, addr := arg 2 + arg 3 % 2 ^ 20 * 2 ^ 32, size := some (arg 4) }) ∧
    (InCall s he 0x10 k → s.bit (SLOT_CAP k) 4 = true → arg 1 < 3 → loadBusy s = true → Ends (.loadFull he) s fun t =>
      Returned he 0xFFFFFFFD [] s t ∧ t.config = s.config) ∧
    (InCall s he 0x11 k → s.bit (SLOT_CAP k) 4 = true → waitsIn s he 0x11 0 = false → loadBusy s = false → s.config.load = none →
      s.get CFG_STATUS_STATE = 0xA → Ends (.loadPartial he) s fun t => Blocked he 0x11 0 s t ∧ t.on CFG_PR_STATUS_BUSY = true ∧
        t.get CFG_PR_STATUS_PHASE = 1 ∧ t.config.load = some { src := 0, isPart := true, size := some (arg 3), inStore := arg 4 % 2 == 1,
                                                                addr := if arg 4 % 2 = 1 then areaC + arg 1 else arg 1 + arg 2 % 2 ^ 20 * 2 ^ 32 }) ∧
    (InCall s he 0x11 k → s.bit (SLOT_CAP k) 4 = true → waitsIn s he 0x11 0 = true → s.on CFG_PR_STATUS_BUSY = false →
      Ends (.loadPartial he) s fun t => Returned he 0 [(2, prStatus s)] s t) ∧
    (InCall s he 0x12 k → s.bit (SLOT_CAP k) 4 = true → s.on CFG_CAP_STATUS_BUSY = false → s.on CFG_RB_STATUS_BUSY = false →
      waitsIn s he 0x12 1 = false → waitsIn s he 0x12 2 = false → ∀ inst off, localOf s (1024 + he) (arg 1) = .mem inst off → off + 0x58 ≤ 0x8000 →
      goodBytes s 20 he inst off 0x58 →
      (bytesValue s 20 he inst off 4 % 2 = 0 → bytesValue s 20 he inst (off + 0x40) 4 % 2 = 0 → Ends (.captureReadback he) s fun t => Returned he 0 [] s t) ∧
      (bytesValue s 20 he inst off 4 % 2 = 1 → Ends (.captureReadback he) s fun t => Blocked he 0x12 1 s t ∧ t.on CFG_CAP_STATUS_BUSY = true)) ∧
    (InCall s he 0x12 k → s.bit (SLOT_CAP k) 4 = true → waitsIn s he 0x12 2 = true → s.on CFG_RB_STATUS_BUSY = false →
      Ends (.captureReadback he) s fun t => Returned he 0 [] s t) ∧
    (InCall s he 0x20 k → s.bit (SLOT_CAP k) 5 = true →
      (arg 1 < 2 → slotRead s (arg 1) = false → Ends (.storeErase he []) s fun t => Returned he 0 [] s t ∧ t.get (CFG_NV_LEN_LEN (arg 1)) = 0 ∧
        t.on (CFG_NV_SLOT_BUSY (arg 1)) = true ∧ (arg 1, 0) ∈ t.config.nextPage ∧
        (s.get (CFG_NV_SLOT_WRITES (arg 1)) + 1 < 2 ^ 16 → t.get (CFG_NV_SLOT_WRITES (arg 1)) = s.get (CFG_NV_SLOT_WRITES (arg 1)) + 1) ∧
        ∀ a, smGet 0 t.config.store a = if arg 1 * 0x34000000 ≤ a ∧ a < (arg 1 + 1) * 0x34000000 then 0 else smGet 0 s.config.store a) ∧
      (arg 1 < 2 → slotRead s (arg 1) = true → ∀ bad, Ends (.storeErase he bad) s fun t => Returned he 0xFFFFFFFD [] s t ∧ t.config = s.config) ∧
      (2 ≤ arg 1 → arg 1 < 1538 → Ends (.storeErase he []) s fun t => Returned he 0 [] s t ∧ ∀ a, smGet 0 t.config.store a =
        if 0x68000000 + (arg 1 - 2) * 2 ^ 18 ≤ a ∧ a < 0x68000000 + (arg 1 - 1) * 2 ^ 18 then 0 else smGet 0 s.config.store a) ∧
      (2 ≤ arg 1 → arg 1 < 1538 → 0 < s.get CFG_NV_STATUS_SPARES → Ends (.storeErase he [0]) s fun t => Returned he 0 [] s t ∧
        t.get CFG_NV_STATUS_SPARES = s.get CFG_NV_STATUS_SPARES - 1) ∧
      (arg 1 < 1538 → (arg 1 < 2 → slotRead s (arg 1) = false) → s.get CFG_NV_STATUS_SPARES = 0 → Ends (.storeErase he [0]) s fun t =>
        Returned he 0xFFFFFFFE [] s t ∧ t.on CFG_CAUSE_NV_SPARES = true)) ∧
    (InCall s he 0x21 k → s.bit (SLOT_CAP k) 5 = true →
      (writeFits s (arg 1) (arg 3) = true → ∀ inst off data, localOf s (1024 + he) (arg 2) = .mem inst off →
        off + arg 3 ≤ 0x8000 → goodBytes s 20 he inst off (arg 3) → Ends (.storeWrite he data []) s fun t => Returned he 0 [] s t ∧
          (∀ i < arg 3, smGet 0 t.config.store (arg 1 + i) = dataOf (storedWord s 20 he inst (off + i))) ∧
          (∀ a, a < arg 1 ∨ arg 1 + arg 3 ≤ a → smGet 0 t.config.store a = smGet 0 s.config.store a) ∧
          t.config = { s.config with store := t.config.store, nextPage := t.config.nextPage } ∧ Frame [.engines, .slots, .config] [] s t) ∧
      (writeFits s (arg 1) (arg 3) = false → ∀ data bad, Ends (.storeWrite he data bad) s fun t => Returned he 0xFFFFFFFE [] s t ∧
        Frame [.engines, .slots] [] s t)) ∧
    (InCall s he 0x22 k → s.bit (SLOT_CAP k) 5 = true → arg 1 < 2 → arg 2 ≤ 0x34000000 → Ends (.storeCommit he) s fun t => Returned he 0 [] s t ∧
      t.get (CFG_NV_LEN_LEN (arg 1)) = arg 2 ∧ t.on (CFG_NV_SLOT_BUSY (arg 1)) = false ∧ (∀ p ∈ t.config.nextPage, p.1 ≠ arg 1) ∧
      t.config = { s.config with nextPage := t.config.nextPage } ∧
      Frame [.engines, .slots, .config] [CFG_NV_LEN_LEN (arg 1), CFG_NV_SLOT_BUSY (arg 1)] s t) ∧
    (InCall s he 0x30 k → s.bit (SLOT_CAP k) 6 = true → arg 1 < 16 → easyHolds s (4 + arg 1) = false → chanUp s (arg 1) (132 + arg 1) = true →
      ∀ head (checks : ImgChecks) records,
      (dramStarting s (arg 1) = true → exec (.chFirmware he head checks records) s = .next s.begin) ∧
      (dramStarting s (arg 1) = false → waitsIn s he 0x30 0 = false → Ends (.chFirmware he head checks records) s fun t =>
        Blocked he 0x30 0 s t ∧ t.get (CH_FW_STATE (arg 1)) = 1 ∧ Frame [.slots] [CH_FW_STATE (arg 1)] s t) ∧
      (dramStarting s (arg 1) = false → waitsIn s he 0x30 0 = true → ∀ a, a = arg 2 + arg 3 % 2 ^ 20 * 2 ^ 32 → a < 384 * 2 ^ 20 →
        s.config.badPages = [] → checks.read = .good → ∀ l h owner, l = firmwareSource a → h = storeNum s (areaC + a) 0x2000 → owner = headField h 0x300 1 →
        (∀ c, (headerCause s l (parseHeader h)).or (signatureCause s h checks.sig) = some c → Ends (.chFirmware he head checks records) s fun t =>
          Returned he 0xFFFFFFFE [] s t ∧ t.get (CH_FW_STATE (arg 1)) = 3 ∧ t.get (CH_FW_CAUSE (arg 1)) = c % 2 ^ 8 ∧
          t.on (CH_CAUSE_FW_FAIL (arg 1)) = true) ∧
        ((headerCause s l (parseHeader h)).or (signatureCause s h checks.sig) = none →
          (∀ rs c u, memChecks l h firmwareRecordGood checks records s.begin = (rs, some c, u) → Ends (.chFirmware he head checks records) s fun t =>
            Returned he 0xFFFFFFFE [] s t ∧ t.get (CH_FW_STATE (arg 1)) = 3 ∧ t.get (CH_FW_CAUSE (arg 1)) = c % 2 ^ 8 ∧
            t.get (CH_FW_OWNER (arg 1)) = owner % 4 ∧ t.on (CH_CAUSE_FW_FAIL (arg 1)) = true) ∧
          (∀ rs u, memChecks l h firmwareRecordGood checks records s.begin = (rs, none, u) → (∀ c ∈ s.host.cmds, c.redo = false) →
            Ends (.chFirmware he head checks records) s fun t => Returned he 0 [] s t ∧ t.get (CH_FW_STATE (arg 1)) = 2 ∧
              t.get (CH_FW_OWNER (arg 1)) = owner % 4 ∧ t.get (CH_FW_CAUSE (arg 1)) = 0 ∧ smGet 0 t.security.meas (4 + arg 1) = measureOf h)))) ∧
    (InCall s he 0x31 k → s.bit (SLOT_CAP k) 6 = true → arg 1 < 16 → s.clocks.wide = 0 → NoTrigger 7 s → s.wf = true → Ends (.chReset he) s fun t =>
      PartReset RST_CAUSE_SOFT (4 + arg 1) s t ∧ Returned he 0 [] s t) ∧
    (InCall s he 0x32 k → s.bit (SLOT_CAP k) 6 = true → arg 1 < 16 → arg 3 < 2 → easyHolds s (4 + arg 1) = false → chanUp s (arg 1) (164 + arg 1) = true →
      s.get (DRAM_STATUS_STATE (arg 1)) = 0 ∨ s.get (DRAM_STATUS_STATE (arg 1)) = 8 → arg 2 % 8 ≤ 5 → slice (arg 2) 4 3 < 3 →
      Ends (.dramStart he) s fun t => Returned he 0 [] s t ∧ t.get (DRAM_STATUS_STATE (arg 1)) = (if s.on (DRAM_STATUS_SR_KEPT (arg 1)) then 2 else 1) ∧
        t.get (DRAM_CFG_RATE (arg 1)) = arg 2 % 8 ∧ (s.on (PAT_CFG_LOCK (arg 1)) = false → t.get (PAT_CFG_MODE (arg 1)) = arg 3) ∧
        t.on (PAT_CFG_LOCK (arg 1)) = true) ∧
    (InCall s he 0x40 k → s.bit (SLOT_CAP k) 7 = true → ∀ p < 20, arg 1 = 2 ^ p → ∀ drained sysclk,
      (arg 2 = 1 → inRun s p = true → Ends (.powerState he drained sysclk) s fun t => Returned he 0 [] s t ∧ t.on (PWR_PART_REQ p) = true ∧
        t.get (PWR_PART_STATE p) = 1) ∧
      (arg 2 = 0 → s.get (PWR_PART_STATE p) = 2 → Ends (.powerState he drained sysclk) s fun t => Returned he 0 [] s t ∧ t.on (PWR_PART_REQ p) = false ∧
        t.get (PWR_PART_STATE p) = 3)) ∧
    (InCall s he 0x41 k → s.bit (SLOT_CAP k) 7 = true → arg 1 < 20 → arg 2 < 8 → Ends (.opSet he) s fun t => Returned he 0 [] s t ∧
      t.get (PWR_PART_OP_TGT (arg 1)) = arg 2) ∧
    (InCall s he 0x50 k → s.bit (SLOT_CAP k) 8 = true → arg 1 = 0xA5000001 → s.clocks.wide ≠ 2 → s.wf = true → Ends (.resetCall he) s fun t => WarmReset RST_CAUSE_SOFT s t) ∧
    (InCall s he 0x50 k → s.bit (SLOT_CAP k) 8 = true → arg 1 % 8 = 2 → Ends (.resetCall he) s fun t => Returned he 0xFFFFFFFE [] s t) ∧
    (InCall s he 0x60 k → s.bit (SLOT_CAP k) 9 = true → arg 1 < 4 → arg 2 < 4 → ∀ bytes, plainOf (s.get64 (SLOT_ARG_LO k) (SLOT_ARG_HI k)) = none →
      plainOf (arg 3 + arg 4 % 2 ^ 20 * 2 ^ 32) = none → Ends (.crcRun he bytes) s fun t =>
        let v := crcFeed (arg 2) (crcInit (arg 2)) bytes ^^^ crcXorOut (arg 2)
        Returned he 0 [(2, v % 2 ^ 32), (3, v / 2 ^ 32)] s t ∧ Frame [.engines, .slots] [] s t) ∧
    (InCall s he 0x70 k → s.bit (SLOT_CAP k) 10 = true → arg 1 < 8 → s.on (HP_HDM_EN (arg 1)) = false → Ends (.hdmSet he) s fun t => Returned he 0 [] s t ∧
      t.get (HP_HDM_BASE (arg 1)) = arg 2 % 2 ^ 8 ∧ t.on (HP_HDM_EN (arg 1)) = (arg 2).testBit 31 ∧ t.get (HP_HDM_SIZE (arg 1)) = arg 3 % 2 ^ 9 ∧
      Frame [.engines, .slots] [HP_HDM_EN (arg 1), HP_HDM_WAYS (arg 1), HP_HDM_GRAN (arg 1), HP_HDM_FIRST_CH (arg 1), HP_HDM_BASE (arg 1), HP_HDM_SIZE (arg 1)] s t) ∧
    (InCall s he 0x71 k → s.bit (SLOT_CAP k) 10 = true → 0 < arg 1 → arg 1 ≤ 64 →
      (arg 2 < 16 → Ends (.nsMap he) s fun t => Returned he 0 [] s t ∧ t.on (HP_NS_VALID (arg 1 - 1)) = true ∧ t.get (HP_NS_CH (arg 1 - 1)) = arg 2 ∧
        Frame [.engines, .slots] [HP_NS_VALID (arg 1 - 1), HP_NS_CH (arg 1 - 1)] s t) ∧
      (arg 2 = 0xFF → Ends (.nsMap he) s fun t => Returned he 0 [] s t ∧ t.on (HP_NS_VALID (arg 1 - 1)) = false)) ∧
    (InCall s he 0x80 k → s.bit (SLOT_CAP k) 11 = true → 2 ≤ arg 1 → arg 1 < 16 → s.on SEC_LOCK_KEYS = false →
      (arg 2 = 0 → Ends (.keySlot he) s fun t => Returned he 0 [] s t ∧ t.get (SEC_KS_CTRL_STATE (arg 1)) = 1 ∧
        smGet 0 t.security.keys (arg 1) = s.security.drawn + 1) ∧
      (arg 2 = 2 → Ends (.keySlot he) s fun t => Returned he 0 [] s t ∧ t.get (SEC_KS_CTRL_STATE (arg 1)) = 0 ∧ smGet 0 t.security.keys (arg 1) = 0)) ∧
    (InCall s he 0x90 k → s.bit (SLOT_CAP k) 12 = true →
      (waitsIn s he 0x90 0 = false → s.on SEC_OTP_STATUS_BUSY = false → ∀ inst off, localOf s (1024 + he) (arg 1) = .mem inst off →
        off + 0x156D ≤ 0x8000 → goodBytes s 20 he inst off 0x156D → Ends (.ownerReq he) s fun t => Blocked he 0x90 0 s t ∧
          t.on SEC_OTP_STATUS_BUSY = true ∧ ∀ i < 0x156D, smGet 0 t.security.otpBuf i = (dataOf (storedWord s 20 he inst (off + i))).toNat) ∧
      (waitsIn s he 0x90 0 = true → s.on SEC_OTP_STATUS_BUSY = false → Ends (.ownerReq he) s fun t =>
        Returned he (if s.get SEC_OTP_STATUS_RESULT = 0 then 0 else 0xFFFFFFFE) [] s t))

/-! ## Power -/

/-- Easy and Moored. A request, or the governor once IDLE allows it, begins the entry of a partition that runs; at quiescence its save
record is allocated, or without room a channel becomes Feather-only with NO_SAVE; the entry ends in Easy, or its time limit
abandons it with EASY_TO where software asked. A wake source begins the wake, which ends in Run when the clocks are stable; a bad
record makes it a partition reset with WAKE_FAIL. A refused Moored request keeps its code and raises MOORED_REF; otherwise entry
stops engines and waits for the NAND queues to drain, and its end turns everything off but two domains, until an enabled source wakes the device. -/
def Obligations.EasyAndMooredEnterAndWake : Prop :=
  ∀ s : State,
    (∀ (req : Requester) (p : Fin 20) (data : Word), regGate s req (0x030000030200 + p.val * 0x10) 4 true = .reach → inRun s p = true →
      Ends (.easyRequest req p data) s fun t => t.get (PWR_PART_STATE p) = 1 ∧ t.on (PWR_PART_REQ p) = true ∧
        t.get (PWR_PART_IDLE p) = data.toNat / 2 ^ 24 ∧ p.val ∉ t.power.byGov ∧ t.out = [.done]) ∧
    (∀ p : Fin 20,
      (s.get (PWR_PART_IDLE p) ≠ 0 → inRun s p = true → quiescent s p = true → Ends (.governorIdleEntry p) s fun t =>
        t.get (PWR_PART_STATE p) = 1 ∧ p.val ∈ t.power.byGov ∧ Frame [.power] [PWR_PART_STATE p] s t) ∧
      (s.get (PWR_PART_IDLE p) = 0 ∨ inRun s p = false ∨ quiescent s p = false → exec (.governorIdleEntry p) s = .next s.begin) ∧
      (s.get (PWR_PART_STATE p) = 1 → p.val ∉ s.power.quiet →
        (quiescent s p = true → p.val < 4 ∨ poolUsed s + recordSize s p ≤ 257024 → Ends (.easyQuiescent p) s fun t => p.val ∈ t.power.quiet ∧
          smGet 0 t.power.records p = recordSize s p ∧ t.get (PWR_PART_STATE p) = 1 ∧
          (4 ≤ p.val → s.get (DRAM_STATUS_STATE (p - 4)) = 4 → t.get (DRAM_STATUS_STATE (p - 4)) = 5)) ∧
        (quiescent s p = true → 4 ≤ p.val → 257024 < poolUsed s + recordSize s p → p.val ∉ s.power.wakeDue → Ends (.easyQuiescent p) s fun t =>
          t.get (PWR_PART_STATE p) = 4 ∧ t.on PWR_CAUSE_NO_SAVE = true) ∧
        (quiescent s p = false → exec (.easyQuiescent p) s = .next s.begin) ∧
        (p.val ∈ s.power.byGov → Ends (.easyEntryTimeout p) s fun t => t.get (PWR_PART_STATE p) = 0 ∧ Frame [.power] [PWR_PART_STATE p] s t) ∧
        (p.val ∉ s.power.byGov → Ends (.easyEntryTimeout p) s fun t => t.get (PWR_PART_STATE p) = 0 ∧ t.on (PWR_PART_REQ p) = false ∧
          t.on PWR_CAUSE_EASY_TO = true ∧ Alerted s t ∧
          Frame [.power, .host] ([PWR_PART_STATE p, PWR_PART_REQ p, PWR_CAUSE_EASY_TO] ++ alertFlds) s t)) ∧
      (s.get (PWR_PART_STATE p) = 1 → p.val ∈ s.power.quiet →
        (p.val < 4 → dieObserved s p = true → exec (.easyEntryComplete p) s = .next s.begin) ∧
        ((p.val < 4 → dieObserved s p = false) → (4 ≤ p.val → s.get (DRAM_STATUS_STATE (p - 4)) ≠ 5 ∧ s.get (DRAM_STATUS_STATE (p - 4)) ≠ 7) →
          Ends (.easyEntryComplete p) s fun t =>
          t.get (PWR_PART_STATE p) = (if s.power.wakeDue.contains p.val then 3 else 2) ∧
          AtCold (fun r ix f => easyMask s p r ix f == ones 0 f.w) [(PWR_PART_STATE p).key] t ∧ t.dram = s.dram ∧ t.clocks = s.clocks ∧
          (∀ g, 1024 ≤ g ∨ 4 + g / 64 ≠ p.val → s.wf = true → t.eng g = s.eng g) ∧
          (∀ g < 1024, 4 + g / 64 = p.val → s.wf = true → t.eng g = (s.eng g).easy)) ∧
        exec (.easyEntryTimeout p) s = .next s.begin) ∧
      (s.get (PWR_PART_STATE p) = 1 → Ends (.easyWake p) s fun t => p.val ∈ t.power.wakeDue ∧ Frame [.power] [] s t) ∧
      (s.get (PWR_PART_STATE p) = 2 ∨ s.get (PWR_PART_STATE p) = 4 → Ends (.easyWake p) s fun t => t.get (PWR_PART_STATE p) = 3 ∧
        Frame [] [PWR_PART_STATE p] s t) ∧
      (s.get (PWR_PART_STATE p) = 0 → exec (.easyWake p) s = .next s.begin) ∧
      (s.get (PWR_PART_STATE p) = 3 →
        ((∀ d ∈ resetDomains p, d < 188 → clkStable s d = true) → Ends (.easyWakeComplete p false) s fun t => t.get (PWR_PART_STATE p) = 0 ∧
          (4 ≤ p.val → s.get (DRAM_STATUS_STATE (p - 4)) = 6 → (s.dramc (p - 4)).retrain = false → t.get (DRAM_STATUS_STATE (p - 4)) = 4 ∧ t.on (DRAM_STATUS_SR_KEPT (p - 4)) = false) ∧
          (∀ e ∈ t.power.records, e.1 ≠ p.val)) ∧
        ((∃ d ∈ resetDomains p, d < 188 ∧ clkStable s d = false) → exec (.easyWakeComplete p false) s = .next s.begin) ∧
        (s.power.records.any (·.1 == p.val) = true → NoTrigger 7 s → s.wf = true → Ends (.easyWakeComplete p true) s fun t =>
          t.on PWR_CAUSE_WAKE_FAIL = true ∧ t.clocks.busy.contains p.val = true ∧ t.dram = s.dram))) ∧
    (∀ (req : Requester) (data : Word) drained sysclk, regGate s req 0x030000030100 4 true = .reach →
      (groupOf req ≠ some 4 → exec (.mooredRequest req data drained sysclk) s = .next { s with out := [.done] }) ∧
      (groupOf req = some 4 → s.power.mooring = false →
        (mooredRefusal s drained sysclk = 0 → Ends (.mooredRequest req data drained sysclk) s fun t => t.power.mooring = true ∧ t.power.records = [] ∧
          (∀ x < 128, sectorHeld t x = true) ∧ t.power.draining = !nandDrained s ∧
          ∀ n < 16, s.get (DRAM_STATUS_STATE n) = 4 → t.get (DRAM_STATUS_STATE n) = if nandDrained s then 5 else 4) ∧
        (mooredRefusal s drained sysclk ≠ 0 → Ends (.mooredRequest req data drained sysclk) s fun t =>
          t.get PWR_MOORED_REFUSE = mooredRefusal s drained sysclk ∧ t.on PWR_CAUSE_MOORED_REF = true ∧ t.power = s.power))) ∧
    (s.power.mooring = true → s.power.draining = true →
      (nandDrained s = true → Ends .mooredEntryComplete s fun t => t.power.draining = false ∧ t.power.mooring = true ∧
        ∀ n < 16, s.get (DRAM_STATUS_STATE n) = 4 → t.get (DRAM_STATUS_STATE n) = 5) ∧
      (nandDrained s = false → exec .mooredEntryComplete s = .next s.begin)) ∧
    (s.power.mooring = true → s.power.draining = false → (∀ n < 16, s.get (DRAM_STATUS_STATE n) ≠ 5 ∧ s.get (DRAM_STATUS_STATE n) ≠ 7) →
      (s.power.mooredWake = none → Ends .mooredEntryComplete s fun t => t.power.moored = true ∧ t.clocks.released = [184, 185] ∧
        AtCold (fun r ix f => mooredMask r ix f == ones 0 f.w) [(CLK_STABLE_STABLE 5).key] t ∧ t.fabric = {} ∧ t.wake = {} ∧ t.lanes = {} ∧
        t.config.store = s.config.store ∧ (∀ n < 16, ∀ line < 2 ^ 30, segmentKept s n (line * 64) = false → lineValue t n line = 0)) ∧
      (∀ src < 5, s.power.mooredWake = some src → Ends .mooredEntryComplete s fun t => t.power.moored = false ∧ t.get PWR_MOORED_SRC = 2 ^ src)) ∧
    (s.power.moored = true →
      (∀ src : Fin 5, s.bit PWR_MOORED_WAKE_EN src = true → src.val = 1 → s.get64 PWR_AON_TMR_LO_TS PWR_AON_TMR_HI_TS ≤ s.clocks.ts →
        Ends .aonTimerExpiry s fun t => t.power.moored = false ∧ t.get PWR_MOORED_SRC = 2 ∧ t.power.mooredWake = some 1) ∧
      (∀ src : Fin 5, s.bit PWR_MOORED_WAKE_EN src = true → src.val ≠ 1 ∨ s.get64 PWR_AON_TMR_LO_TS PWR_AON_TMR_HI_TS ≤ s.clocks.ts →
        Ends (.mooredWake src) s fun t => t.power.moored = false ∧ t.get PWR_MOORED_SRC = 2 ^ src.val ∧ t.power.mooredWake = some src.val) ∧
      (∀ src : Fin 5, s.bit PWR_MOORED_WAKE_EN src = false → src.val < 3 → exec (.mooredWake src) s = .next s.begin)) ∧
    (s.clocks.ts < s.get64 PWR_AON_TMR_LO_TS PWR_AON_TMR_HI_TS → exec .aonTimerExpiry s = .next s.begin ∧ exec (.mooredWake 1) s = .next s.begin) ∧
    Ends .wakeNTimeout s (fun t => t.power = { s.power with wakeN := false } ∧ Frame [.power] [] s t)

/-- Operating points, regulators, telemetry and the governor. A write of OP_TGT begins a change, or waits for one in progress; an
acknowledge makes the target the present point, a missing one raises AVS_FAIL and keeps the point. The crew clock moves by at most
50 MHz a step. Readings, losses and alerts are kept and raised. A tick shows the hottest sensor, the budget and the total, counts energy, sets each ceiling
and keeps each rate between its floor and its ceiling, or, without telemetry, as it is. Sprint windows close and cool down. -/
def Obligations.OperatingPointsTelemetryAndGovernor : Prop :=
  ∀ s : State,
    (∀ (req : Requester) (p : Fin 20) (data : Word), regGate s req (0x030000030200 + p.val * 0x10) 4 true = .reach →
      (s.on (PWR_PART_PENDING p) = true ∨ inEasy s p = true → Ends (.opTargetWrite req p data) s fun t => t.get (PWR_PART_OP_TGT p) = data.toNat % 8 ∧
        p.val ∈ t.power.later ∧ t.get (PWR_PART_OP_CUR p) = s.get (PWR_PART_OP_CUR p) ∧ t.get (PWR_PART_REQ p) = s.get (PWR_PART_REQ p) % 2) ∧
      (p.val < 4 → s.on (PWR_PART_PENDING p) = false → inEasy s p = false → Ends (.opTargetWrite req p data) s fun t =>
        t.get (PWR_PART_OP_TGT p) = data.toNat % 8 ∧ t.get (PWR_PART_OP_CUR p) % 8 = s.get (PWR_PART_OP_CUR p) % 8 ∧
        (s.get (PWR_PART_OP_CUR p) = min 5 (data.toNat % 8) → t.on (PWR_PART_PENDING p) = false) ∧
        (s.get (PWR_PART_OP_CUR p) ≠ min 5 (data.toNat % 8) → t.on (PWR_PART_PENDING p) = true ∧
          (p.val, (⟨min 5 (data.toNat % 8), decide (s.get (PWR_PART_OP_CUR p) < min 5 (data.toNat % 8))⟩ : OpChange)) ∈ t.power.changes))) ∧
    (∀ rail : Fin 6,
      (s.power.railDue.contains rail.val = true →
        Ends (.avsAck rail) s (fun t => rail.val ∉ t.power.railDue ∧ Frame [.power] [] s t) ∧
        Ends (.avsAckTimeout rail) s (fun t => t.on PWR_CAUSE_AVS_FAIL = true ∧ t.power = s.power ∧ Alerted s t ∧
          Frame [.host] (PWR_CAUSE_AVS_FAIL :: alertFlds) s t)) ∧
      (s.power.railDue.contains rail.val = false → ∀ (p c : Nat) (up : Bool), p < 20 → c < 8 → railOf p = some rail.val → s.power.changes = [(p, ⟨c, up⟩)] →
        s.on (PWR_PART_PENDING p) = true → s.power.later = [] →
        Ends (.avsAck rail) s (fun t => t.get (PWR_PART_OP_CUR p) = c ∧ t.on (PWR_PART_PENDING p) = false ∧ t.power.changes = []) ∧
        Ends (.avsAckTimeout rail) s (fun t => t.get (PWR_PART_OP_CUR p) = s.get (PWR_PART_OP_CUR p) ∧ t.on (PWR_PART_FAIL p) = true ∧
          t.on (PWR_PART_PENDING p) = false ∧ t.on PWR_CAUSE_AVS_FAIL = true)) ∧
      (s.power.railDue.contains rail.val = false → changingOn s rail = [] → exec (.avsAck rail) s = .next s.begin ∧
        exec (.avsAckTimeout rail) s = .next s.begin)) ∧
    (∀ n : Ch, Ends (.crewClockStep n) s fun t => Frame [.power] [] s t ∧ ∀ now, now = smGet (engineMhz s) s.power.crewMhz n →
      smGet (engineMhz s) t.power.crewMhz n = if now < crewLimit s n then min (crewLimit s n) (now + 50) else max (crewLimit s n) (now - 50)) ∧
    (∀ (rail : Fin 21) mw, (s.on (PWR_PMB_VALID rail) = true → Ends (.pmbusRead rail mw) s fun t => smGet 0 t.power.rails rail = mw ∧
        t.power.alert = false ∧ Frame [.power] [] s t) ∧
      (s.on (PWR_PMB_VALID rail) = false → exec (.pmbusRead rail mw) s = .next s.begin)) ∧
    Ends .pmbusAlert s (fun t => t.on PWR_CAUSE_PMB_ALERT = true ∧ t.power = { s.power with alert := true } ∧ Alerted s t ∧
      Frame [.power, .host] (PWR_CAUSE_PMB_ALERT :: alertFlds) s t) ∧
    Ends .telemetryLost s (fun t => t.on PWR_CAUSE_TELEM = true ∧ t.power = { s.power with blind := true } ∧ Alerted s t ∧
      Frame [.power, .host] (PWR_CAUSE_TELEM :: alertFlds) s t) ∧
    Ends .telemetryRestored s (fun t => t.power = { s.power with blind := false } ∧ Frame [.power] [] s t) ∧
    (∀ power temps hub, runs s 180 = true → s.power.moored = false → s.clocks.halted = false → Ends (.governorTick power temps hub) s fun t =>
      t.get PWR_THERM_TJ_MAX = twos 8 (temps.foldl (fun m e => match e.2 with | some x => max m x | none => m) hub) ∧
      t.get PWR_MODE_BUDGET = budgetOf t ∧ t.get PWR_TOTAL_MW = ((power.map (·.2)).sum + hubPower s) % 2 ^ 32 ∧
      t.power.overTicks = (if t.get PWR_MODE_BUDGET * 1000 < t.get PWR_TOTAL_MW then s.power.overTicks + 1 else 0) ∧
      (∀ p < 20, t.get (PWR_PART_ENERGY p) = (s.get (PWR_PART_ENERGY p) + (smGet 0 s.power.energy p + powerOf power p) / 100000) % 2 ^ 32) ∧
      (∀ e ∈ temps, temps.filter (·.1 == e.1) = [e] → s.get (PWR_PART_FLOOR e.1) < 256 → t.get (PWR_PART_CEIL e.1) = ceilingOf s e.1 e.2) ∧
      (s.power.blind = true → ∀ p < 20, t.get (PWR_PART_RATE p) = s.get (PWR_PART_RATE p) ∧ t.get (PWR_PART_BUCKET p) = s.get (PWR_PART_BUCKET p)) ∧
      (s.power.blind = false → ∀ p < 20, inRun s p = true → s.get (PWR_PART_FLOOR p) < 256 → t.get (PWR_PART_CEIL p) < 256 →
        s.get (PWR_PART_FLOOR p) ≤ t.get (PWR_PART_RATE p) ∧ t.get (PWR_PART_RATE p) ≤ max (s.get (PWR_PART_FLOOR p)) (t.get (PWR_PART_CEIL p)))) ∧
    (∀ power temps hub, runs s 180 = false ∨ s.power.moored = true ∨ s.clocks.halted = true → exec (.governorTick power temps hub) s = .next s.begin) ∧
    (100 ≤ s.power.overTicks → Ends .budgetOver s fun t => t.on PWR_CAUSE_OVER = true ∧ Alerted s t ∧
      Frame [.host] (PWR_CAUSE_OVER :: alertFlds) s t) ∧
    (s.power.overTicks < 100 → exec .budgetOver s = .next s.begin) ∧
    (s.on PWR_MODE_WINDOW = true → s.power.opened - 1 + 50000000 ≤ s.clocks.ts → Ends .sprintWindowClose s fun t => t.on PWR_MODE_WINDOW = false ∧ t.on PWR_MODE_COOLING = true ∧
      (3 ≤ s.get PWR_MODE_MODE → t.get PWR_MODE_BUDGET = 420) ∧ t.power.opened = 0 ∧
      Frame [.power] [PWR_MODE_WINDOW, PWR_MODE_COOLING, PWR_MODE_BUDGET] s t) ∧
    (s.on PWR_MODE_WINDOW = false ∨ s.clocks.ts < s.power.opened - 1 + 50000000 → exec .sprintWindowClose s = .next s.begin) ∧
    (s.power.closed + 4 * s.power.window ≤ s.clocks.ts → Ends .sprintCooldownEnd s fun t => t.on PWR_MODE_COOLING = false ∧
      Frame [] [PWR_MODE_COOLING] s t) ∧
    (s.clocks.ts < s.power.closed + 4 * s.power.window → exec .sprintCooldownEnd s = .next s.begin)

/-! ## Debug, the SMBus target and the lanes -/

/-- The debug ports and the SMBus target. A pulse on TRST_N brings the debug settings to their cold values and nothing else. A TAP
instruction is taken, or with COX_EN low is BYPASS unless it is IDCODE, which reads the device's code. DBG_REG accesses end with status 1 while
the clock is lost, 2 where the policy refuses, else 0. DBG_IMG words enter the load's stream where a load takes them and the ring has room. RST_OVR releases the held domains
named. An access set runs one access: not attempted 6, Moored or frozen 4, integrity halt 5, else its target's answer; two busy sets are served in turn. An SMBus read gives its
register, the high word of the timestamp the one latched; a message goes to Bamid with line 21; in Moored neither is acknowledged. -/
def Obligations.DebugPortsAndSmbusActAsCommanded : Prop :=
  ∀ s : State,
    (s.wf = true → Ends .trstN s fun t => AtCold (fun r ix f => debugMask r ix f == ones 0 f.w) [] t ∧ t.dbg = { coxEn := s.dbg.coxEn } ∧
      184 ∉ t.clocks.frozen ∧ (∀ k, (∀ r ix f, fieldAt k = some (r, ix, f) → debugMask r ix f = 0) → smGet 0 t.regs k = smGet 0 s.regs k) ∧
      t.engines = s.engines ∧ t.fabric = s.fabric ∧ t.pending = s.pending) ∧
    exec .testLogicReset s = .next { s with out := [], dbg := { s.dbg with ir := 2 } } ∧
    (∀ (cox : Bool) (c : Instr) (code : Nat), (c, code) ∈ [(Instr.extest cox, 0x00), (.clamp cox, 0x03), (.highz cox, 0x04), (.dbgReg cox, 0x10),
      (.dbgImg cox, 0x11), (.rstOvr cox, 0x12), (.bypass cox, 0xFF)] → Ends c s fun t =>
        t.dbg = { s.dbg with ir := if cox then code else 0xFF, coxEn := cox } ∧ Frame [.debug] [] s t) ∧
    (∀ (cox : Bool) cells, Ends (.samplePreload cox cells) s fun t => t.dbg.ir = (if cox then 0x01 else 0xFF) ∧
      (∀ c, t.dbg.cells.contains c = true ↔ (if cox then ∃ d ∈ cells, d.val = c else s.dbg.cells.contains c = true)) ∧ Frame [.debug] [] s t) ∧
    (∀ cox : Bool, Ends (.idcode cox) s fun t => t.dbg = { s.dbg with ir := 2, coxEn := cox } ∧ Frame [.debug] [] s t ∧
      (s.get HUB_REV_STEP_LETTER = 1 → t.out = [.value 0x10D09D6B])) ∧
    (∀ (write : Bool) (off : BitVec 16) (data : Word), let a := 0x0300000B0000 + off.toNat / 4 * 4
      let ends (x : Nat) (v : Word) : Prop := Ends (.dbgRegUpdate write off data) s fun t =>
        t.dbg = { s.dbg with regStat := x, regData := v } ∧ Frame [.debug] [] s t
      (s.dbg.ir ≠ 0x10 → exec (.dbgRegUpdate write off data) s = .next s.begin) ∧
      (s.dbg.ir = 0x10 →
        (runs s 184 = false → ends 1 s.dbg.regData) ∧
        (runs s 184 = true → policyRefuses s (off.toNat / 4 * 4) write = true → ends 2 s.dbg.regData) ∧
        (runs s 184 = true → policyRefuses s (off.toNat / 4 * 4) write = false →
          (tableRight s .debug a write = false → ends 0 (if write then s.dbg.regData else 0)) ∧
          (tableRight s .debug a write = true → write = false → isLowWord a = false → (∀ e ∈ s.clocks.latch, e.1 ≠ .debug) →
            ends 0 (BitVec.ofNat 32 (readReg s a))) ∧
          (∀ c < 8, off.toNat = 0x204 + 8 * c → tableRight s .debug a write = true → write = true → Ends (.dbgRegUpdate write off data) s fun t =>
            t.get (DBG_XT_OUT_ACT c) = data.toNat % 64 ∧ t.dbg = { s.dbg with regStat := 0 } ∧ Frame [.debug] [DBG_XT_OUT_ACT c] s t)))) ∧
    (∀ (data : Word) (full : Bool),
      (s.dbg.ir ≠ 0x11 → exec (.dbgImgUpdate data full) s = .next s.begin) ∧
      (s.dbg.ir = 0x11 → full = true ∨ coxLoading s = false ∨ ringFull s 4 = true → Ends (.dbgImgUpdate data full) s fun t =>
        t.dbg = { s.dbg with imgOk := false } ∧ Frame [.debug] [] s t) ∧
      (s.dbg.ir = 0x11 → full = false → coxLoading s = true → ringFull s 4 = false → Ends (.dbgImgUpdate data full) s fun t =>
        t.dbg.imgOk = true ∧
        (s.config.load = none → t.dbg.imgBytes = 4 ∧ t.config.load = some { src := 4, isPart := false } ∧ t.get CFG_STATUS_STATE = 2 ∧
          t.get CFG_STATUS_SOURCE = 4 ∧ t.config.stream = ⟨4, data.toNat⟩ ∧
          Frame [.debug, .config] [CFG_STATUS_STATE, CFG_STATUS_SOURCE, CFG_HLOAD_CTRL_ACTIVE, CFG_HLOAD_CTRL_WAITING] s t) ∧
        (s.config.load.isSome = true → t.dbg.imgBytes = (s.dbg.imgBytes + 4) % 2 ^ 32 ∧ t.config = { s.config with
            stream := ⟨s.config.stream.len + 4, s.config.stream.bits + data.toNat * 2 ^ (8 * s.config.stream.len)⟩ } ∧
          Frame [.debug, .config] [] s t))) ∧
    (∀ (key : BitVec 8) (index : BitVec 9), let c := Instr.rstOvrUpdate key index
      (s.dbg.ir ≠ 0x12 ∨ key ≠ 0xA5#8 ∨ s.on SEC_DBG_POLICY_FORCE = false ∨ heldNamed s index.toNat = [] → exec c s = .next s.begin) ∧
      (s.dbg.ir = 0x12 → key = 0xA5#8 → s.on SEC_DBG_POLICY_FORCE = true → heldNamed s index.toNat ≠ [] → Ends c s fun t =>
        (∀ d, t.clocks.released.contains d = true ↔ s.clocks.released.contains d = true ∨ d < 308 ∧ (index.toNat = 0x1FF ∨ d = index.toNat)) ∧
        t.on RST_STATUS_FORCED = true ∧ t.dram = s.dram ∧ t.dbg = s.dbg ∧
        (∀ x < 128, s.clocks.released.contains x = true ∨ (index.toNat ≠ 0x1FF ∧ index.toNat ≠ x) →
          (∀ k, k / sectorCells = x → t.fabric.cells.contains k = s.fabric.cells.contains k) ∧
          (∀ k, k / 48 = x → smGet {} t.fabric.macs k = smGet {} s.fabric.macs k)))) ∧
    (∀ (req : Requester) (i : Fin 2) (inc : Bool) (size : Fin 4) (c : Instr) (kind : Nat), (c, kind) ∈ [(Instr.dbgAccessRead req i inc size, 0),
      (.dbgAccessConsumeRead req i inc size, 1), (.dbgAccessWrite req i inc size, 2)] → regGate s req (0x0300000B0110 + i.val * 0x20) 4 true = .reach →
      (s.on (DBG_ACC_BUSY i) = true → Ends c s fun t => t.dbg = s.dbg ∧ t.out = [.done]) ∧
      (s.on (DBG_ACC_BUSY i) = false → Ends c s fun t => t.on (DBG_ACC_BUSY i) = true ∧ t.on (DBG_ACC_INC i) = inc ∧
        t.dbg = { s.dbg with sets := s.dbg.sets.filter (·.1 != i.val) ++
          [(i.val, ⟨s.get64 (DBG_ACC_ADDR_LO i) (DBG_ACC_ADDR_HI i), 2 ^ size.val, kind, s.get64 (DBG_ACC_DATA_LO i) (DBG_ACC_DATA_HI i), none⟩)] } ∧
        t.out = [.done] ∧ Frame [.debug] [DBG_ACC_BUSY i, DBG_ACC_INC i, DBG_ACC_SIZE i, DBG_ACC_KIND i] s t)) ∧
    (∀ (i : Fin 2) (st : PortStatus) (data : BitVec 64), let c := Instr.dbgAccessDone i st data
      ((∀ e ∈ s.dbg.sets, e.1 ≠ i.val) → exec c s = .next s.begin) ∧
      (∀ x, s.dbg.sets.find? (·.1 == i.val) = some (i.val, x) → otherTurn s i = true → exec c s = .next (s.begin.emit .held)) ∧
      (∀ x, s.dbg.sets.find? (·.1 == i.val) = some (i.val, x) → otherTurn s i = false →
        (x.addr % x.size ≠ 0 → Ends c s (AccessEnds i x 6 0 s)) ∧
        (x.addr % x.size = 0 → s.on SEC_DBG_POLICY_MEM = false → Ends c s (AccessEnds i x 0 0 s)) ∧
        (x.addr % x.size = 0 → s.on SEC_DBG_POLICY_MEM = true →
          (s.power.moored = true → Ends c s (AccessEnds i x 4 0 s)) ∧
          (s.power.moored = false → s.clocks.halted = true → haltTakes x.addr (x.kind == 2) = false → Ends c s (AccessEnds i x 5 0 s)) ∧
          (s.power.moored = false → s.clocks.halted = false → unitFrozen s x.addr = true → Ends c s (AccessEnds i x 4 0 s)) ∧
          (s.power.moored = false → s.clocks.halted = false → unitFrozen s x.addr = false → ∀ v err, x.answer = some (v, err) →
            Ends c s (AccessEnds i x (if err then 2 else 0) v s)) ∧
          (s.power.moored = false → s.clocks.halted = false → unitFrozen s x.addr = false → x.answer = none → debugReq s i = none → st = .ok →
            (∀ r u, serve (accessAsk i x) s.begin = (.done r, u) → Ends c s (AccessEnds i x (accessResult r).1 (accessResult r).2 u)) ∧
            (∀ u, serve (accessAsk i x) s.begin = (.wait, u) → exec c s = .next (u.emit .held)))))) ∧
    (∀ c a, (c, a) ∈ [(Instr.smbusReadHubId, 0x030000000000), (.smbusReadHubRev, 0x030000000004), (.smbusReadRstCause, 0x030000010000),
      (.smbusReadRstStatus, 0x030000010004), (.smbusReadCfgStatus, 0x030000040000), (.smbusReadHubIntSummary, 0x030000000100),
      (.smbusReadPwrTherm, 0x030000030018), (.smbusReadPwrTotal, 0x030000030020), (.smbusReadHubPartFail, 0x030000000008),
      (.smbusReadRasCause, 0x0300000D0000), (.smbusReadSecCause, 0x030000050004), (.smbusReadWakeStatus, 0x030000070008),
      (.smbusReadPwrMode, 0x030000030010), (.smbusReadCfgImg, 0x030000040008)] →
      (s.power.moored = true → exec c s = .next { s with out := [.nack] }) ∧
      (s.power.moored = false → (∀ e ∈ s.clocks.latch, ¬(e.1 = .smbus ∧ e.2.1 = a)) → exec c s = .next { s with out := [.value (readReg s a)] })) ∧
    (s.power.moored = false →
      Ends .smbusReadClkTsLo s (fun t => t.out = [.value (s.clocks.ts % 2 ^ 32)] ∧ Frame [.clocks] [] s t ∧ t.clocks = { s.clocks with latch := t.clocks.latch } ∧
        exec .smbusReadClkTsHi t = .next { t with out := [.value (s.clocks.ts / 2 ^ 32 % 2 ^ 32)] }) ∧
      ((∀ e ∈ s.clocks.latch, e.1 ≠ .smbus) → exec .smbusReadClkTsHi s = .next { s with out := [.value (s.clocks.ts / 2 ^ 32 % 2 ^ 32)] })) ∧
    (s.power.moored = true → exec .smbusReadClkTsLo s = .next { s with out := [.nack] } ∧ exec .smbusReadClkTsHi s = .next { s with out := [.nack] }) ∧
    (∀ (cmd : BitVec 8) (data : List Byte),
      (s.power.moored = false → 16 ≤ cmd.toNat → bamidRuns s = true → Ends (.smbusMessage cmd data) s fun t =>
        t.out = [.smbusMessage cmd.toNat data] ∧ (∀ g ∈ hubEngines, t.bit (ENG_IRQ_PEND_PEND g) 21 = true) ∧ Frame [] alertFlds s t) ∧
      (s.power.moored = false → cmd.toNat < 16 ∨ bamidRuns s = false → exec (.smbusMessage cmd data) s = .next { s with out := [.nack] }) ∧
      (s.power.moored = true → data = [] ∨ s.bit PWR_MOORED_WAKE_EN 2 = false → exec (.smbusMessage cmd data) s = .next { s with out := [.nack] }) ∧
      (s.power.moored = true → data ≠ [] → s.bit PWR_MOORED_WAKE_EN 2 = true → Ends (.smbusMessage cmd data) s fun t =>
        t.power.moored = false ∧ t.get PWR_MOORED_SRC = 4 ∧ t.out = [.nack]))

/-- Halts, stepping, feeding and triggers. A request waits on its engine and wakes the partition; at a clean boundary, or forced, the engine
halts and the debug registers show where. RESUME and STEP let a halted engine go on; ENG_DBG_PC moves it and drops slot and REPEAT. A fed word
executes once: 0x01 undefined, 0x02 not fed, an exception's code, or busy while it stalls. A crew command acts on every engine it names.
Halted islands take edges only from a step. A cross-trigger channel fires unless it fired within 80 ns, and its actions follow. -/
def Obligations.HaltsStepsFeedsAndTriggersAct : Prop :=
  ∀ s : State,
    (∀ (req : Requester) (g : Eng), regGate s req (engBase g + 0x800) 4 true = .reach → let e := s.eng g
      let kept (t : State) : Prop := t.on (ENG_DBG_HOR g) = s.on (ENG_DBG_HOR g) ∧ t.out = [.done] ∧ OnlyEngine g s t
      let resumed (step : Bool) (t : State) : Prop := kept t ∧ t.on (ENG_DBG_HALTED g) = false ∧ t.get (ENG_STATUS_STATE g) = 1 ∧
        t.eng g = { e with
          resumed := true
          stepping := step
          stepBegun := false } ∧
        (s.on DBG_WDT_POLICY_ENG_RUN = false → s.get (ENG_WDT_LOAD_LOAD g) ≠ 0 →
          t.get (ENG_WDT_COUNT_COUNT g) = max 4096 (s.get (ENG_WDT_COUNT_COUNT g)) % 2 ^ (ENG_WDT_COUNT_COUNT g).w) ∧
        Frame [.engines] [ENG_DBG_HOR g, ENG_DBG_STEP_IE g, ENG_DBG_HALTED g, ENG_STATUS_STATE g, ENG_WDT_COUNT_COUNT g,
          CH_SWDT_COUNT_COUNT (g / 64)] s t
      (s.on SEC_DBG_POLICY_HALT = true → s.on (ENG_DBG_HALTED g) = false → e.haltReq = none → Ends (.engDbgHalt req g) s fun t => kept t ∧
        t.eng g = { e with haltReq := some (1, 0) } ∧ t.on (ENG_DBG_PENDING g) = true ∧ t.on (ENG_DBG_DEFERRED g) = (e.rep.isSome || e.atom.isSome) ∧
        Frame [.engines, .power] [ENG_DBG_HOR g, ENG_DBG_STEP_IE g, ENG_DBG_PENDING g, ENG_DBG_DEFERRED g, PWR_PART_STATE (engPart g)] s t) ∧
      (s.on SEC_DBG_POLICY_HALT = false → Ends (.engDbgHalt req g) s fun t => t.eng g = e ∧ Frame [] [ENG_DBG_HOR g, ENG_DBG_STEP_IE g] s t) ∧
      Ends (.engDbgForce req g) s (fun t => kept t ∧ t.eng g = { e with haltForce := e.haltForce || e.haltReq.isSome } ∧
        Frame [.engines] [ENG_DBG_HOR g, ENG_DBG_STEP_IE g] s t) ∧
      (s.on (ENG_DBG_HALTED g) = true → e.feeding = false → Ends (.engDbgResume req g) s (resumed false) ∧
        ∀ ie : Bool, s.on SEC_DBG_POLICY_HALT = true → Ends (.engDbgStep req g ie) s fun t => resumed true t ∧ t.on (ENG_DBG_STEP_IE g) = ie) ∧
      (∀ c, c = Instr.engDbgResume req g ∨ (∃ ie, c = Instr.engDbgStep req g ie) → s.on (ENG_DBG_HALTED g) = false → Ends c s fun t =>
        t.eng g = e ∧ Frame [] [ENG_DBG_HOR g, ENG_DBG_STEP_IE g] s t)) ∧
    (∀ (g : Eng) (next : Option Yz), let e := s.eng g
      let forced := e.rep.isSome || e.atom.isSome
      (∀ cause hit, e.haltReq = some (cause, hit) → canHalt s g = true → haltWaits s g next = true → NoTrigger 1 s → NoTrigger 2 s →
        Ends (.engineHaltTaken g next) s fun t => t.get (ENG_STATUS_STATE g) = 3 ∧ t.on (ENG_DBG_HALTED g) = true ∧
          t.get (ENG_DBG_CAUSE g) = cause % 8 ∧ t.get (ENG_DBG_HIT g) = hit % 16 ∧ t.on (ENG_DBG_PENDING g) = false ∧
          t.get (ENG_DBG_PC g) = e.pc.toNat / 4 ∧ t.on (ENG_DBG_IN_SLOT g) = e.slot.isSome ∧ t.on (ENG_DBG_FORCED g) = forced ∧
          t.on (ENG_DBG_RSV_BROKEN g) = e.atom.isSome ∧ (∀ r, e.rep = some r → t.get (ENG_DBG_LEFT g) = (r.count - r.done) % 2 ^ 13) ∧
          t.eng g = { e.complete with
            haltReq := none
            haltForce := false
            stepping := false
            stepBegun := false
            rsv := if e.atom.isSome then none else e.rsv } ∧ OnlyEngine g s t ∧
          Frame [.engines] [ENG_STATUS_STATE g, ENG_DBG_HALTED g, ENG_DBG_CAUSE g, ENG_DBG_HIT g, ENG_DBG_FEED_BUSY g, ENG_DBG_IN_SLOT g,
            ENG_DBG_RSV_BROKEN g, ENG_DBG_FORCED g, ENG_DBG_PENDING g, ENG_DBG_PC g, ENG_DBG_TGT g, ENG_DBG_LEFT g] s t) ∧
      (e.haltReq = none ∨ canHalt s g = false ∨ haltWaits s g next = false → exec (.engineHaltTaken g next) s = .next s.begin) ∧
      (e.haltReq.isSome = true → Ends (.haltForceTimeout g) s fun t => t.eng g = { e with haltForce := true } ∧ OnlyEngine g s t ∧
        Frame [.engines] [] s t) ∧
      (e.haltReq = none → exec (.haltForceTimeout g) s = .next s.begin)) ∧
    (∀ (req : Requester) (g : Eng) (data : Word), regGate s req (engBase g + 0x808) 4 true = .reach →
      (s.on (ENG_DBG_HALTED g) = true → s.on SEC_DBG_POLICY_MEM = true → Ends (.engDbgPcWrite req g data) s fun t =>
        t.eng g = { s.eng g with
          pc := data &&& 0xFFFFFFFC#32
          slot := none
          rep := none } ∧
        t.get (ENG_DBG_PC g) = data.toNat / 4 ∧ t.on (ENG_DBG_IN_SLOT g) = false ∧ t.get (ENG_DBG_LEFT g) = 0 ∧ OnlyEngine g s t ∧
        Frame [.engines] [ENG_DBG_PC g, ENG_DBG_IN_SLOT g, ENG_DBG_LEFT g] s t) ∧
      (s.on (ENG_DBG_HALTED g) = false ∨ s.on SEC_DBG_POLICY_MEM = false → exec (.engDbgPcWrite req g data) s = .next { s with out := [.done] })) ∧
    (∀ (req : Requester) (g : Eng) (word : Word), regGate s req (engBase g + 0x814) 4 true = .reach → let e := s.eng g
      (s.on (ENG_DBG_HALTED g) = false ∨ e.feeding = true ∨ s.on SEC_DBG_POLICY_MEM = false →
        exec (.instructionFeed req g word) s = .next { s with out := [.done] }) ∧
      (s.on (ENG_DBG_HALTED g) = true → e.feeding = false → s.on SEC_DBG_POLICY_MEM = true →
        ((∀ i, decodeYezar word = some i → i.isDefined = false) → Ends (.instructionFeed req g word) s fun t => t.get (ENG_DBG_FEED_ERR g) = 1 ∧
          Frame [] [ENG_DBG_FEED_ERR g] s t) ∧
        (∀ i, decodeYezar word = some i → i.isDefined = true →
          (notFed i = true → Ends (.instructionFeed req g word) s fun t => t.get (ENG_DBG_FEED_ERR g) = 2 ∧ Frame [] [ENG_DBG_FEED_ERR g] s t) ∧
          (notFed i = false →
            (∀ flow acc u, perform g i (s.begin.setEng g { e with feeding := true }) = .done flow acc u → Ends (.instructionFeed req g word) s fun t =>
              t.eng g = { (u.eng g).complete with feeding := false } ∧ t.on (ENG_DBG_FEED_BUSY g) = false ∧ Frame [.engines] [ENG_DBG_FEED_BUSY g] u t) ∧
            (∀ x u, perform g i (s.begin.setEng g { e with feeding := true }) = .trap x u → Ends (.instructionFeed req g word) s fun t =>
              t.eng g = { (u.eng g).complete with feeding := false } ∧ t.get (ENG_DBG_FEED_ERR g) = x.code % 256 ∧
              Frame [.engines] [ENG_DBG_FEED_BUSY g, ENG_DBG_FEED_ERR g] u t) ∧
            (∀ u, perform g i (s.begin.setEng g { e with feeding := true }) = .stall u → Ends (.instructionFeed req g word) s fun t =>
              t.eng g = u.eng g ∧ t.on (ENG_DBG_FEED_BUSY g) = true ∧ Frame [] [ENG_DBG_FEED_BUSY g] u t))))) ∧
    (∀ (req : Requester) (data : Word),
      (regGate s req 0x0300000B0010 4 true = .reach →
        (s.on SEC_DBG_POLICY_HALT = true → Ends (.dbgCrewHalt req data) s fun t => t.out = [.done] ∧
          (∀ g ∈ namedEngines data.toNat, s.on (ENG_DBG_HALTED g) = false → (s.eng g).haltReq = none →
            t.eng g = { s.eng g with haltReq := some (2, 0) } ∧ t.on (ENG_DBG_PENDING g) = true) ∧
          (∀ g, g ∉ namedEngines data.toNat → t.eng g = s.eng g)) ∧
        (s.on SEC_DBG_POLICY_HALT = false → exec (.dbgCrewHalt req data) s = .next { s with out := [.done] })) ∧
      (regGate s req 0x0300000B0014 4 true = .reach → Ends (.dbgCrewResume req data) s fun t => t.out = [.done] ∧
        (∀ g ∈ namedEngines data.toNat, (t.eng g).haltReq = none ∧ (s.on (ENG_DBG_HALTED g) = true → (s.eng g).feeding = false →
          t.on (ENG_DBG_HALTED g) = false ∧ t.get (ENG_STATUS_STATE g) = 1 ∧ (t.eng g).resumed = true)) ∧
        (∀ g, g ∉ namedEngines data.toNat → t.eng g = s.eng g)) ∧
      (∀ die : Fin 4, regGate s req (0x0300000B0020 + die.val * 4) 4 true = .reach → Ends (.dbgIslHalt req die data) s fun t =>
        t.get (DBG_ISL_HALT_SEC die) = (if s.on SEC_DBG_POLICY_HALT then data.toNat else data.toNat &&& s.get (DBG_ISL_HALT_SEC die)) ∧
        t.dbg = { s.dbg with isl := s.dbg.isl.filter (fun e => islHalted t e.1) } ∧ t.out = [.done] ∧
        Frame [.debug, .power] [DBG_ISL_HALT_SEC die, PWR_PART_STATE die] s t) ∧
      (regGate s req 0x0300000B0030 4 true = .reach → let x := 32 * (data.toNat / 2 ^ 30) + data.toNat / 2 ^ 25 % 32
        (islHalted s x = true → s.on SEC_DBG_POLICY_HALT = true → data.toNat % 256 ≠ 0 → Ends (.dbgIslStep req data) s fun t =>
          smGet 0 t.dbg.isl (leaderOf s x) = data.toNat % 256 ∧ t.dbg = { s.dbg with isl := t.dbg.isl } ∧
          (∀ y, y ≠ leaderOf s x → smGet 0 t.dbg.isl y = smGet 0 s.dbg.isl y) ∧ t.out = [.done] ∧ Frame [.debug] [] s t) ∧
        (islHalted s x = false ∨ s.on SEC_DBG_POLICY_HALT = false ∨ data.toNat % 256 = 0 →
          exec (.dbgIslStep req data) s = .next { s with out := [.done] }))) ∧
    (runs s 184 = false ∨ NoTrigger 0 s → exec .trigIn s = .next s.begin) ∧
    (∀ (c : Fin 8) (cmd : Instr) (seen : List Out), let act := s.get (DBG_XT_OUT_ACT c)
      let last := smGet 0 s.dbg.xtLast c
      (cmd = .trigIn ∧ seen = [] ∧ runs s 184 = true ∧ (∀ d < 8, s.bit (DBG_XT_IN_SRC d) 0 = decide (d = c.val)) ∨
        ∃ req data, cmd = .dbgXtPulse req data ∧ seen = [.done] ∧ regGate s req 0x0300000B0248 4 true = .reach ∧
          data.toNat = 2 ^ c.val ∧ s.bit (DBG_XT_IN_SRC c) 6 = true) →
      (last ≠ 0 → s.clocks.ts + 1 < last + 80 → exec cmd s = .next { s with out := seen }) ∧
      (last = 0 ∨ last + 80 ≤ s.clocks.ts + 1 →
        (act = 1 → Ends cmd s fun t => t.out = .trigOut :: seen ∧ smGet 0 t.dbg.xtLast c = s.clocks.ts + 1 ∧
          t.dbg = { s.dbg with xtLast := t.dbg.xtLast } ∧ Frame [.debug] [] s t) ∧
        (∀ l, act = 2 ∧ l = crewsOf (s.get DBG_XT_CREW_CREW) ∨ act = 4 ∧ l = hubEngines → s.on SEC_DBG_POLICY_HALT = true → Ends cmd s fun t =>
          (∀ g ∈ l, s.on (ENG_DBG_HALTED g) = false → (s.eng g).haltReq = none → t.eng g = { s.eng g with haltReq := some (2, 0) }) ∧
          (∀ g, g ∉ l → t.eng g = s.eng g) ∧ t.out = seen) ∧
        (act = 16 → Ends cmd s fun t => t.on NOC_TRACE_CTRL_EN = false ∧ t.out = seen ∧ Frame [.debug] [NOC_TRACE_CTRL_EN] s t) ∧
        (act = 32 → s.on SEC_DBG_POLICY_HALT = true → Ends cmd s fun t =>
          ∀ d < 4, ∀ i < 32, t.bit (DBG_ISL_HALT_SEC d) i = (s.bit (DBG_ISL_HALT_SEC d) i || s.bit (DBG_XT_ISL_SEC d) i))))

/-- The serial lanes. APPLY takes a quad's or a transmitter's setting whole, or sets the error and keeps the old one. ADAPT clears the result and
starts; its end keeps frozen taps and a fixed code and shows what it found. Signal, lock, codeword and checker events set and clear their
status and raise causes 0, 1, 3, 4 and 5; lost locks, codewords and symbols are counted up to the largest count. RST makes PMA and PCS lock
anew. A dwell shows its count and whether the lock was lost during it. LANE_HTEST brings a port's link down. Host lanes take settings
only in lane test. -/
def Obligations.LanesTakeSettingsAndReportEvents : Prop :=
  ∀ s : State,
    (∀ (req : Requester) (q : Fin 24) (data : Word) (fref : Nat), regGate s req (0x0300000C0100 + q.val * 0x20) 4 true = .reach →
      let nint := data.toNat % 2 ^ 10
      let div := data.toNat / 2 ^ 16 % 8
      let nfrac := s.get (QUAD_NFRAC q)
      (q.val < 8 → exec (.quadApply req q data fref) s = .next { s with out := [.done] }) ∧
      (8 ≤ q.val → (quadFits s q nint nfrac div fref = true → Ends (.quadApply req q data fref) s fun t => t.get (QUAD_NINT q) = nint ∧
          t.get (QUAD_DIV q) = div ∧ (q.val, nint, nfrac, div) ∈ t.lanes.pll ∧ (∀ x, x ∈ t.lanes.pll → x.1 = q.val → x = (q.val, nint, nfrac, div)) ∧
          (∀ k < 4, t.on (LANE_ADC (4 * q + k)) = adcPath nint nfrac div fref) ∧
          Frame [.lanes] ([QUAD_NINT q, QUAD_DIV q] ++ (List.range 4).map (fun k => LANE_ADC (4 * q + k))) s t) ∧
        (quadFits s q nint nfrac div fref = false → Ends (.quadApply req q data fref) s fun t => t.on (QUAD_CFG_ERR q) = true ∧ t.lanes = s.lanes ∧
          Frame [] [QUAD_NINT q, QUAD_DIV q, QUAD_CFG_ERR q] s t))) ∧
    (∀ (req : Requester) (l : Fin 96) (data : Word), let at_ (off : Nat) : Prop := regGate s req (0x0300000C1000 + l.val * 0x100 + off) 4 true = .reach
      (at_ 0x14 → laneOpen s l = true → let main := data.toNat % 256
        (txeqFits (s.get (LANE_TXEQ l)) main = true → Ends (.txeqApply req l data) s fun t =>
          (∀ x, x ∈ t.lanes.txSet ∧ x.1 = l.val ↔ x = (l.val, s.get (LANE_TXEQ l), main, min 32 (data.toNat / 2 ^ 8 % 64))) ∧
          t.lanes = { s.lanes with txSet := t.lanes.txSet } ∧ Frame [.lanes] [LANE_AMP l, LANE_MAIN l, LANE_TXEQ_ERR l] s t) ∧
        (txeqFits (s.get (LANE_TXEQ l)) main = false → Ends (.txeqApply req l data) s fun t => t.on (LANE_TXEQ_ERR l) = true ∧ t.lanes = s.lanes ∧
          Frame [] [LANE_AMP l, LANE_MAIN l, LANE_TXEQ_ERR l] s t)) ∧
      (at_ 0x18 → laneOpen s l = true → Ends (.adapt req l data) s fun t => t.lanes.adapting.contains l.val = true ∧
        t.on (LANE_ADAPT_DONE l) = false ∧ t.on (LANE_ADAPT_FAIL l) = false ∧ t.lanes = { s.lanes with adapting := t.lanes.adapting } ∧
        Frame [.lanes] [LANE_ADAPT_DONE l, LANE_ADAPT_FAIL l, LANE_BW l, LANE_CTLE_FIX l, LANE_DFE_FRZ l, LANE_FFE_FRZ l, LANE_CTLE l] s t) ∧
      (at_ 0 → laneOpen s l = true →
        Ends (.laneReset req l data) s (fun t => t.on (LANE_CDR_LOCK l) = false ∧ t.on (LANE_BLOCK_LOCK l) = false ∧ t.on (LANE_FEC_LOCK l) = false ∧
          t.on (LANE_PLOCK l) = false ∧ t.on (LANE_ADAPT_DONE l) = false ∧ t.lanes.adapting.contains l.val = false ∧
          smGet [] t.lanes.rx l = [] ∧ smGet [] t.lanes.tx l = [] ∧ smGet 0 t.lanes.badCw l = 0 ∧ t.lanes.pll = s.lanes.pll ∧
          t.lanes.txSet = s.lanes.txSet ∧ t.get (LANE_LOOP l) = data.toNat / 2 ^ 8 % 4) ∧
        (data.getLsbD 0 = false → Ends (.loopbackSelect req l data) s fun t => t.get (LANE_LOOP l) = data.toNat / 2 ^ 8 % 4 ∧
          t.get (LANE_EN l) = data.toNat / 2 ^ 15 % 2 ∧ Frame [] [LANE_EN l, LANE_PAM4 l, LANE_PCS l, LANE_LOOP l, LANE_POL_RX l, LANE_POL_TX l,
            LANE_TXIDLE l] s t)) ∧
      (∀ c off, (c, off) ∈ [(Instr.txeqApply req l data, 0x14), (.adapt req l data, 0x18), (.laneReset req l data, 0), (.loopbackSelect req l data, 0)] →
        at_ off → laneOpen s l = false → exec c s = .next { s with out := [.done] }) ∧
      (at_ 0x44 → Ends (.prbsClr req l) s fun t => t.get64 (LANE_ERR_LO l) (LANE_ERR_HI l) = 0 ∧ t.get64 (LANE_BITS_LO l) (LANE_BITS_HI l) = 0 ∧
        t.out = [.done] ∧ Frame [] [LANE_ERR_LO l, LANE_ERR_HI l, LANE_BITS_LO l, LANE_BITS_HI l] s t) ∧
      (at_ 0x60 →
        let shown (t : State) : Prop := t.get (LANE_EYESEL l) = data.toNat / 2 ^ 26 % 4 ∧ t.get (LANE_DWELL l) = data.toNat / 2 ^ 16 % 64 ∧
          t.get (LANE_VOFF l) = data.toNat / 2 ^ 8 % 256 ∧ t.get (LANE_PHASE l) = data.toNat % 64 ∧
          Frame [.lanes] [LANE_EYESEL l, LANE_DWELL l, LANE_VOFF l, LANE_PHASE l, LANE_BUSY l, LANE_INVALID l] s t
        (s.on (LANE_BUSY l) = false → Ends (.eyeGo req l data) s fun t => shown t ∧ t.on (LANE_BUSY l) = true ∧ t.on (LANE_INVALID l) = false ∧
          t.lanes.eyeLost.contains l.val = !s.on (LANE_CDR_LOCK l)) ∧
        (s.on (LANE_BUSY l) = true → Ends (.eyeGo req l data) s fun t => shown t ∧ t.lanes = s.lanes ∧ t.on (LANE_BUSY l) = true ∧
          t.get (LANE_INVALID l) = s.get (LANE_INVALID l)))) ∧
    (∀ l : Fin 96,
      let raised (bit : Nat) (fs : List Fld) (t : State) : Prop :=
        t.bit (LANE_CAUSE l) bit = true ∧ Alerted s t ∧ Frame [.host, .lanes] (LANE_CAUSE l :: fs ++ alertFlds) s t
      let coded := 32 ≤ l.val ∧ s.get (LANE_PCS l) = 2 ∧ s.on (LANE_EN l) = true
      (∀ conv ctle ffe dfe, (s.lanes.adapting.contains l.val = false → exec (.adaptComplete l conv ctle ffe dfe) s = .next s.begin) ∧
        (s.lanes.adapting.contains l.val = true → Ends (.adaptComplete l conv ctle ffe dfe) s fun t => t.on (LANE_ADAPT_DONE l) = true ∧
          t.on (LANE_ADAPT_FAIL l) = !conv ∧ t.lanes.adapting.contains l.val = false ∧
          t.get (LANE_CTLE l) = (if s.on (LANE_CTLE_FIX l) then s.get (LANE_CTLE l) else ctle.val) ∧
          t.get (LANE_FFE0 l) = (if s.on (LANE_FFE_FRZ l) then s.get (LANE_FFE0 l) else ffe.toNat % 2 ^ 32) ∧
          t.get (LANE_FFE5 l) = (if s.on (LANE_FFE_FRZ l) then s.get (LANE_FFE5 l) else ffe.toNat / 2 ^ 160) ∧
          t.get (LANE_DFE l) = (if s.on (LANE_DFE_FRZ l) then s.get (LANE_DFE l) else dfe.toNat))) ∧
      Ends (.los l) s (fun t => t.on (LANE_LOS l) = true ∧ raised 0 [LANE_LOS l] t) ∧
      Ends (.signalReturn l) s (fun t => t.on (LANE_LOS l) = false ∧ Frame [] [LANE_LOS l] s t) ∧
      Ends (.cdrLock l) s (fun t => t.on (LANE_CDR_LOCK l) = true ∧ Frame [] [LANE_CDR_LOCK l] s t) ∧
      (s.on (LANE_CDR_LOCK l) = true → Ends (.cdrUnlock l) s fun t => t.on (LANE_CDR_LOCK l) = false ∧ raised 1 [LANE_CDR_LOCK l] t ∧
        t.lanes.eyeLost.contains l.val = (s.on (LANE_BUSY l) || s.lanes.eyeLost.contains l.val)) ∧
      (s.on (LANE_CDR_LOCK l) = false → exec (.cdrUnlock l) s = .next s.begin) ∧
      (l.val < 32 ∨ s.get (LANE_PCS l) = 0 ∨ s.get (LANE_PCS l) = 3 → ∀ b, exec (.blockLock l b) s = .next s.begin) ∧
      (32 ≤ l.val → s.get (LANE_PCS l) = 1 ∨ s.get (LANE_PCS l) = 2 →
        Ends (.blockLock l true) s (fun t => t.on (LANE_BLOCK_LOCK l) = true ∧ Frame [] [LANE_BLOCK_LOCK l] s t) ∧
        (s.on (LANE_BLOCK_LOCK l) = true → Ends (.blockLock l false) s fun t => t.on (LANE_BLOCK_LOCK l) = false ∧ raised 3 [LANE_BLOCK_LOCK l] t)) ∧
      (¬coded → ∀ n b, exec (.codewordReceive l n b) s = .next s.begin) ∧
      (coded → s.on (LANE_FEC_LOCK l) = false → ∀ n, Ends (.codewordReceive l n true) s fun t => t.on (LANE_FEC_LOCK l) = true ∧
        Frame [] [LANE_FEC_LOCK l] s t) ∧
      (coded → s.on (LANE_FEC_LOCK l) = true → ∀ b,
        (∀ n : Fin 16, Ends (.codewordReceive l (some n) b) s fun t => smGet 0 t.lanes.badCw l = 0 ∧
          (n.val ≠ 0 → t.get (LANE_CORR_CW l) = min (2 ^ 32 - 1) (s.get (LANE_CORR_CW l) + 1) ∧
            t.get (LANE_CORR_SYM l) = min (2 ^ 32 - 1) (s.get (LANE_CORR_SYM l) + n.val)) ∧
          Frame [.lanes] (if n.val = 0 then [] else [LANE_CORR_CW l, LANE_CORR_SYM l]) s t) ∧
        (Ends (.codewordReceive l none b) s fun t => t.get (LANE_UNCORR_CW l) = min (2 ^ 32 - 1) (s.get (LANE_UNCORR_CW l) + 1) ∧
          (smGet 0 s.lanes.badCw l = 2 → t.on (LANE_FEC_LOCK l) = false ∧ smGet 0 t.lanes.badCw l = 0) ∧
          (smGet 0 s.lanes.badCw l ≠ 2 → t.on (LANE_FEC_LOCK l) = true ∧ smGet 0 t.lanes.badCw l = smGet 0 s.lanes.badCw l + 1) ∧
          raised 4 [LANE_UNCORR_CW l, LANE_FEC_LOCK l] t)) ∧
      (pattern (s.get (LANE_CHK l)) ≠ 0 → Ends (.prbsLock l) s fun t => t.on (LANE_PLOCK l) = true ∧ Frame [] [LANE_PLOCK l] s t) ∧
      (pattern (s.get (LANE_CHK l)) = 0 → exec (.prbsLock l) s = .next s.begin) ∧
      (∀ bits errs, (s.on (LANE_PLOCK l) = false → exec (.prbsLockLost l bits errs) s = .next s.begin) ∧
        (s.on (LANE_PLOCK l) = true → s.get (LANE_RESYNC l) < 2 ^ 16 → Ends (.prbsLockLost l bits errs) s fun t => t.on (LANE_PLOCK l) = false ∧
          t.get64 (LANE_BITS_LO l) (LANE_BITS_HI l) = min (2 ^ 48 - 1) (s.get64 (LANE_BITS_LO l) (LANE_BITS_HI l) + bits) ∧
          t.get64 (LANE_ERR_LO l) (LANE_ERR_HI l) = min (2 ^ 48 - 1) (s.get64 (LANE_ERR_LO l) (LANE_ERR_HI l) + errs) ∧
          t.get (LANE_RESYNC l) = min (2 ^ 16 - 1) (s.get (LANE_RESYNC l) + 1) ∧
          raised 5 [LANE_PLOCK l, LANE_RESYNC l, LANE_BITS_LO l, LANE_BITS_HI l, LANE_ERR_LO l, LANE_ERR_HI l] t)) ∧
      (∀ count, (s.on (LANE_BUSY l) = false → exec (.eyeDwellDone l count) s = .next s.begin) ∧
        (s.on (LANE_BUSY l) = true → Ends (.eyeDwellDone l count) s fun t => t.on (LANE_BUSY l) = false ∧
          t.get64 (LANE_EYE_ERR_LO l) (LANE_EYE_ERR_HI l) = count.toNat ∧ t.on (LANE_INVALID l) = s.lanes.eyeLost.contains l.val ∧
          Frame [.lanes] [LANE_BUSY l, LANE_INVALID l, LANE_EYE_ERR_LO l, LANE_EYE_ERR_HI l] s t))) ∧
    (∀ (req : Requester) (data : BitVec 2), regGate s req 0x0300000C0010 4 true = .reach →
      ((∀ p < 2, data.getLsbD p = true → s.bit LANE_HTEST_PORT p = true) → Ends (.laneHtest req data) s fun t =>
        t.get LANE_HTEST_PORT = data.toNat ∧ t.out = [.done] ∧ Frame [] [LANE_HTEST_PORT] s t) ∧
      (s.wf = true → s.clocks.wide = 0 → ∀ p : Port, data.toNat = 2 ^ p.val → s.bit LANE_HTEST_PORT p = false → Ends (.laneHtest req data) s fun t =>
        HostLinkReset RST_CAUSE_LINK_HOT p s t ∧ (deviceScope s p = false → t.get LANE_HTEST_PORT = data.toNat)))

/-- Every command keeps the canonical form of what the state holds sparsely, and so does every step: register fields, image values,
the bytes of every memory, the image store, engines, channels, controllers and Patina instances stay strictly rising in their keys, with no entry that holds what an unlisted key reads as. -/
def Obligations.StepKeepsCanonicalForm : Prop :=
  (∀ (c : Instr) (s t : State), s.wf = true → exec c s = .next t → t.wf = true) ∧
  (∀ s t : State, s.wf = true → step s = .next t → t.wf = true)

/-! ## Completion -/

/-- Every command ends in a next state, whatever its operands and the state: none is refused and none faults, but for the two commands
that move a value of a bundle, which end so where the bundle is one that is declared. -/
def Obligations.EveryCommandCompletes : Prop :=
  ∀ (c : Instr) (s : State), let declared (b : Nat) : Bool := s.clocks.bundles.any (fun e => e.1 == b)
    (∀ b v, c = .streamBundleAccept b v → declared b = true) → (∀ b, c = .bundleValueArrive b → declared b = true) →
      ∃ t, exec c s = .next t

/-- Where resets, partial loads and halts run, each does what it is for. A reset sets its cause and makes its partitions busy, outside
an integrity halt that ignores it. GO begins a partial load and ABORT ends it with 0x14; its final checks hold the region or name their
cause, and with its frames written it starts up, or is lost. A halt request waits on its engine, which then halts, goes on with
RESUME or STEP, and acts on a fed word once; a trigger's action follows. -/
def Obligations.ResetsPartialLoadsAndHaltsTakeEffect : Prop :=
  ∀ s : State, s.wf = true →
    let begun (cause : Fld) (ps : List Nat) (t : State) : Prop := t.get cause = 1 ∧ ∀ p ∈ ps, t.clocks.busy.contains p = true
    (∀ ns, 1000 ≤ ns → Ends (.resetNLow ns) s fun t => begun RST_CAUSE_PIN (List.range 21) t ∧ t.clocks.pinHeld = true) ∧
    (hubWatchdogRuns s = true → Ends .hubWdtExpiry s (begun RST_CAUSE_HUB_WDT (List.range 21))) ∧
    (∀ req, (regGate s req 0x030000010008 4 true = .reach → Ends (.rstCtrlWarm req 0xA5) s (begun RST_CAUSE_SOFT (List.range 21))) ∧
      (regGate s req 0x0300000B0004 4 true = .reach → Ends (.dbgRstWarm req 0xA5) s (begun RST_CAUSE_DEBUG (List.range 21)))) ∧
    (s.clocks.halted = false → NoTrigger 7 s →
      (∀ req (part : BitVec 5), part.toNat ≤ 20 →
        (regGate s req 0x030000010008 4 true = .reach → Ends (.rstCtrlPartition req 0xA5 part) s (begun RST_CAUSE_SOFT [part.toNat])) ∧
        (regGate s req 0x0300000B0004 4 true = .reach → Ends (.dbgRstPartition req 0xA5 part) s (begun RST_CAUSE_DEBUG [part.toNat]))) ∧
      ∀ n : Ch, swdtRuns s n = true → Ends (.chWdt n) s (begun RST_CAUSE_CH_WDT [4 + n.val])) ∧
    (∀ req, regGate s req 0x030000040200 4 true = .reach →
      (∀ store, s.on CFG_PR_STATUS_BUSY = false → s.get CFG_STATUS_STATE = 0xA → s.config.load = none →
        Ends (.prGo req store) s fun t => t.on CFG_PR_STATUS_BUSY = true ∧ t.get CFG_PR_STATUS_PHASE = 1) ∧
      (s.on CFG_PR_STATUS_BUSY = true → s.get CFG_PR_STATUS_PHASE ≤ 2 → Ends (.prAbort req) s fun t =>
        t.on CFG_PR_STATUS_BUSY = false ∧ t.get CFG_PR_STATUS_CAUSE = 0x14)) ∧
    (∀ l, s.config.load = some l → l.isPart = true →
      (∀ tag sha shake d, l.signed = true → l.decl = none →
        (prCause l tag sha shake d = none → Ends (.prFinalChecks tag sha shake d) s fun t => t.get CFG_PR_STATUS_PHASE = 3) ∧
        ∀ c, prCause l tag sha shake d = some c → Ends (.prFinalChecks tag sha shake d) s fun t => t.get CFG_PR_STATUS_CAUSE = c) ∧
      (l.decl.isSome = true → s.get CFG_PR_STATUS_PHASE = 4 → NoClear s →
        Ends (.prFramesWritten false) s (fun t => t.get CFG_PR_STATUS_PHASE = 5) ∧
        Ends (.prFramesWritten true) s (fun t => t.on CFG_PR_STATUS_REGION_LOST = true))) ∧
    (∀ (req : Requester) (g : Eng), let e := s.eng g
      (regGate s req (engBase g + 0x800) 4 true = .reach →
        (s.on SEC_DBG_POLICY_HALT = true → s.on (ENG_DBG_HALTED g) = false → e.haltReq = none →
          Ends (.engDbgHalt req g) s fun t => (t.eng g).haltReq = some (1, 0)) ∧
        (e.haltReq.isSome = true → Ends (.engDbgForce req g) s fun t => (t.eng g).haltForce = true) ∧
        (s.on (ENG_DBG_HALTED g) = true → e.feeding = false →
          Ends (.engDbgResume req g) s (fun t => t.on (ENG_DBG_HALTED g) = false ∧ (t.eng g).stepping = false) ∧
          (s.on SEC_DBG_POLICY_HALT = true → ∀ ie, Ends (.engDbgStep req g ie) s fun t =>
            t.on (ENG_DBG_HALTED g) = false ∧ (t.eng g).stepping = true))) ∧
      (s.on (ENG_DBG_HALTED g) = true → s.on SEC_DBG_POLICY_MEM = true →
        (regGate s req (engBase g + 0x808) 4 true = .reach → ∀ data, Ends (.engDbgPcWrite req g data) s fun t =>
          (t.eng g).pc = data &&& 0xFFFFFFFC#32) ∧
        (regGate s req (engBase g + 0x814) 4 true = .reach → e.feeding = false → ∀ word i, decodeYezar word = some i → i.isDefined = true →
          notFed i = false → ∀ flow acc u, perform g i (s.begin.setEng g { e with feeding := true }) = .done flow acc u →
            Ends (.instructionFeed req g word) s fun t => t.eng g = { (u.eng g).complete with feeding := false })) ∧
      (e.haltReq.isSome = true → Ends (.haltForceTimeout g) s (fun t => (t.eng g).haltForce = true) ∧
        ∀ next, canHalt s g = true → haltWaits s g next = true → NoTrigger 1 s → NoTrigger 2 s →
          Ends (.engineHaltTaken g next) s fun t => t.on (ENG_DBG_HALTED g) = true ∧ t.get (ENG_STATUS_STATE g) = 3)) ∧
    (∀ (req : Requester) (data : Word),
      (regGate s req 0x0300000B0010 4 true = .reach → s.on SEC_DBG_POLICY_HALT = true → Ends (.dbgCrewHalt req data) s fun t =>
        ∀ g ∈ namedEngines data.toNat, s.on (ENG_DBG_HALTED g) = false → (s.eng g).haltReq = none → (t.eng g).haltReq = some (2, 0)) ∧
      (regGate s req 0x0300000B0014 4 true = .reach → Ends (.dbgCrewResume req data) s fun t =>
        ∀ g ∈ namedEngines data.toNat, s.on (ENG_DBG_HALTED g) = true → (s.eng g).feeding = false → t.on (ENG_DBG_HALTED g) = false) ∧
      (∀ die : Fin 4, regGate s req (0x0300000B0020 + die.val * 4) 4 true = .reach → s.on SEC_DBG_POLICY_HALT = true →
        Ends (.dbgIslHalt req die data) s fun t => t.get (DBG_ISL_HALT_SEC die) = data.toNat) ∧
      (regGate s req 0x0300000B0030 4 true = .reach → s.on SEC_DBG_POLICY_HALT = true → data.toNat % 256 ≠ 0 →
        let x := 32 * (data.toNat / 2 ^ 30) + data.toNat / 2 ^ 25 % 32
        islHalted s x = true → Ends (.dbgIslStep req data) s fun t => smGet 0 t.dbg.isl (leaderOf s x) = data.toNat % 256)) ∧
    (∀ c : Fin 8, s.get (DBG_XT_OUT_ACT c) = 1 → smGet 0 s.dbg.xtLast c = 0 →
      (runs s 184 = true → (∀ d < 8, s.bit (DBG_XT_IN_SRC d) 0 = decide (d = c.val)) → Ends .trigIn s fun t => Out.trigOut ∈ t.out) ∧
      ∀ (req : Requester) (data : BitVec 8), regGate s req 0x0300000B0248 4 true = .reach → data.toNat = 2 ^ c.val →
        s.bit (DBG_XT_IN_SRC c) 6 = true → Ends (.dbgXtPulse req data) s fun t => Out.trigOut ∈ t.out)
end

