-- ==== Sys2Proof/Laws/State.lean ====
section
/-! SUPPORT. The fields of the state after each of its updates, so that no proof unfolds an update. -/

namespace Sys2Proof.Machine
@[simp] theorem State.begin_regs (s : State) : (s.begin).regs = s.regs := rfl
@[simp] theorem State.begin_imageVals (s : State) : (s.begin).imageVals = s.imageVals := rfl
@[simp] theorem State.begin_clocks (s : State) : (s.begin).clocks = s.clocks := rfl
@[simp] theorem State.begin_fabric (s : State) : (s.begin).fabric = s.fabric := rfl
@[simp] theorem State.begin_onchip (s : State) : (s.begin).onchip = s.onchip := rfl
@[simp] theorem State.begin_config (s : State) : (s.begin).config = s.config := rfl
@[simp] theorem State.begin_noc (s : State) : (s.begin).noc = s.noc := rfl
@[simp] theorem State.begin_engines (s : State) : (s.begin).engines = s.engines := rfl
@[simp] theorem State.begin_dram (s : State) : (s.begin).dram = s.dram := rfl
@[simp] theorem State.begin_channels (s : State) : (s.begin).channels = s.channels := rfl
@[simp] theorem State.begin_drams (s : State) : (s.begin).drams = s.drams := rfl
@[simp] theorem State.begin_patinas (s : State) : (s.begin).patinas = s.patinas := rfl
@[simp] theorem State.begin_security (s : State) : (s.begin).security = s.security := rfl
@[simp] theorem State.begin_host (s : State) : (s.begin).host = s.host := rfl
@[simp] theorem State.begin_slots (s : State) : (s.begin).slots = s.slots := rfl
@[simp] theorem State.begin_wake (s : State) : (s.begin).wake = s.wake := rfl
@[simp] theorem State.begin_power (s : State) : (s.begin).power = s.power := rfl
@[simp] theorem State.begin_debug (s : State) : (s.begin).dbg = s.dbg := rfl
@[simp] theorem State.begin_lanes (s : State) : (s.begin).lanes = s.lanes := rfl
@[simp] theorem State.begin_freeCtr (s : State) : (s.begin).freeCtr = s.freeCtr := rfl
@[simp] theorem State.begin_out (s : State) : (s.begin).out = [] := rfl
@[simp] theorem State.begin_pending (s : State) : (s.begin).pending = s.pending := rfl
@[simp] theorem State.emit_regs (s : State) (o : Out) : (s.emit o).regs = s.regs := rfl
@[simp] theorem State.emit_imageVals (s : State) (o : Out) : (s.emit o).imageVals = s.imageVals := rfl
@[simp] theorem State.emit_clocks (s : State) (o : Out) : (s.emit o).clocks = s.clocks := rfl
@[simp] theorem State.emit_fabric (s : State) (o : Out) : (s.emit o).fabric = s.fabric := rfl
@[simp] theorem State.emit_onchip (s : State) (o : Out) : (s.emit o).onchip = s.onchip := rfl
@[simp] theorem State.emit_config (s : State) (o : Out) : (s.emit o).config = s.config := rfl
@[simp] theorem State.emit_noc (s : State) (o : Out) : (s.emit o).noc = s.noc := rfl
@[simp] theorem State.emit_engines (s : State) (o : Out) : (s.emit o).engines = s.engines := rfl
@[simp] theorem State.emit_dram (s : State) (o : Out) : (s.emit o).dram = s.dram := rfl
@[simp] theorem State.emit_channels (s : State) (o : Out) : (s.emit o).channels = s.channels := rfl
@[simp] theorem State.emit_drams (s : State) (o : Out) : (s.emit o).drams = s.drams := rfl
@[simp] theorem State.emit_patinas (s : State) (o : Out) : (s.emit o).patinas = s.patinas := rfl
@[simp] theorem State.emit_security (s : State) (o : Out) : (s.emit o).security = s.security := rfl
@[simp] theorem State.emit_host (s : State) (o : Out) : (s.emit o).host = s.host := rfl
@[simp] theorem State.emit_slots (s : State) (o : Out) : (s.emit o).slots = s.slots := rfl
@[simp] theorem State.emit_wake (s : State) (o : Out) : (s.emit o).wake = s.wake := rfl
@[simp] theorem State.emit_power (s : State) (o : Out) : (s.emit o).power = s.power := rfl
@[simp] theorem State.emit_debug (s : State) (o : Out) : (s.emit o).dbg = s.dbg := rfl
@[simp] theorem State.emit_lanes (s : State) (o : Out) : (s.emit o).lanes = s.lanes := rfl
@[simp] theorem State.emit_freeCtr (s : State) (o : Out) : (s.emit o).freeCtr = s.freeCtr := rfl
@[simp] theorem State.emit_out (s : State) (o : Out) : (s.emit o).out = s.out ++ [o] := rfl
@[simp] theorem State.emit_pending (s : State) (o : Out) : (s.emit o).pending = s.pending := rfl
@[simp] theorem State.put_regs (s : State) (f : Fld) (v : Nat) : (s.put f v).regs = smSet 0 s.regs f.key ((v % 2 ^ f.w) ^^^ f.cold) := rfl
@[simp] theorem State.put_imageVals (s : State) (f : Fld) (v : Nat) : (s.put f v).imageVals = s.imageVals := rfl
@[simp] theorem State.put_clocks (s : State) (f : Fld) (v : Nat) : (s.put f v).clocks = s.clocks := rfl
@[simp] theorem State.put_fabric (s : State) (f : Fld) (v : Nat) : (s.put f v).fabric = s.fabric := rfl
@[simp] theorem State.put_onchip (s : State) (f : Fld) (v : Nat) : (s.put f v).onchip = s.onchip := rfl
@[simp] theorem State.put_config (s : State) (f : Fld) (v : Nat) : (s.put f v).config = s.config := rfl
@[simp] theorem State.put_noc (s : State) (f : Fld) (v : Nat) : (s.put f v).noc = s.noc := rfl
@[simp] theorem State.put_engines (s : State) (f : Fld) (v : Nat) : (s.put f v).engines = s.engines := rfl
@[simp] theorem State.put_dram (s : State) (f : Fld) (v : Nat) : (s.put f v).dram = s.dram := rfl
@[simp] theorem State.put_channels (s : State) (f : Fld) (v : Nat) : (s.put f v).channels = s.channels := rfl
@[simp] theorem State.put_drams (s : State) (f : Fld) (v : Nat) : (s.put f v).drams = s.drams := rfl
@[simp] theorem State.put_patinas (s : State) (f : Fld) (v : Nat) : (s.put f v).patinas = s.patinas := rfl
@[simp] theorem State.put_security (s : State) (f : Fld) (v : Nat) : (s.put f v).security = s.security := rfl
@[simp] theorem State.put_host (s : State) (f : Fld) (v : Nat) : (s.put f v).host = s.host := rfl
@[simp] theorem State.put_slots (s : State) (f : Fld) (v : Nat) : (s.put f v).slots = s.slots := rfl
@[simp] theorem State.put_wake (s : State) (f : Fld) (v : Nat) : (s.put f v).wake = s.wake := rfl
@[simp] theorem State.put_power (s : State) (f : Fld) (v : Nat) : (s.put f v).power = s.power := rfl
@[simp] theorem State.put_debug (s : State) (f : Fld) (v : Nat) : (s.put f v).dbg = s.dbg := rfl
@[simp] theorem State.put_lanes (s : State) (f : Fld) (v : Nat) : (s.put f v).lanes = s.lanes := rfl
@[simp] theorem State.put_freeCtr (s : State) (f : Fld) (v : Nat) : (s.put f v).freeCtr = s.freeCtr := rfl
@[simp] theorem State.put_out (s : State) (f : Fld) (v : Nat) : (s.put f v).out = s.out := rfl
@[simp] theorem State.put_pending (s : State) (f : Fld) (v : Nat) : (s.put f v).pending = s.pending := rfl
@[simp] theorem State.onClocks_regs (s : State) (f : Clocks → Clocks) : (s.onClocks f).regs = s.regs := rfl
@[simp] theorem State.onClocks_imageVals (s : State) (f : Clocks → Clocks) : (s.onClocks f).imageVals = s.imageVals := rfl
@[simp] theorem State.onClocks_clocks (s : State) (f : Clocks → Clocks) : (s.onClocks f).clocks = f s.clocks := rfl
@[simp] theorem State.onClocks_fabric (s : State) (f : Clocks → Clocks) : (s.onClocks f).fabric = s.fabric := rfl
@[simp] theorem State.onClocks_onchip (s : State) (f : Clocks → Clocks) : (s.onClocks f).onchip = s.onchip := rfl
@[simp] theorem State.onClocks_config (s : State) (f : Clocks → Clocks) : (s.onClocks f).config = s.config := rfl
@[simp] theorem State.onClocks_noc (s : State) (f : Clocks → Clocks) : (s.onClocks f).noc = s.noc := rfl
@[simp] theorem State.onClocks_engines (s : State) (f : Clocks → Clocks) : (s.onClocks f).engines = s.engines := rfl
@[simp] theorem State.onClocks_dram (s : State) (f : Clocks → Clocks) : (s.onClocks f).dram = s.dram := rfl
@[simp] theorem State.onClocks_channels (s : State) (f : Clocks → Clocks) : (s.onClocks f).channels = s.channels := rfl
@[simp] theorem State.onClocks_drams (s : State) (f : Clocks → Clocks) : (s.onClocks f).drams = s.drams := rfl
@[simp] theorem State.onClocks_patinas (s : State) (f : Clocks → Clocks) : (s.onClocks f).patinas = s.patinas := rfl
@[simp] theorem State.onClocks_security (s : State) (f : Clocks → Clocks) : (s.onClocks f).security = s.security := rfl
@[simp] theorem State.onClocks_host (s : State) (f : Clocks → Clocks) : (s.onClocks f).host = s.host := rfl
@[simp] theorem State.onClocks_slots (s : State) (f : Clocks → Clocks) : (s.onClocks f).slots = s.slots := rfl
@[simp] theorem State.onClocks_wake (s : State) (f : Clocks → Clocks) : (s.onClocks f).wake = s.wake := rfl
@[simp] theorem State.onClocks_power (s : State) (f : Clocks → Clocks) : (s.onClocks f).power = s.power := rfl
@[simp] theorem State.onClocks_debug (s : State) (f : Clocks → Clocks) : (s.onClocks f).dbg = s.dbg := rfl
@[simp] theorem State.onClocks_lanes (s : State) (f : Clocks → Clocks) : (s.onClocks f).lanes = s.lanes := rfl
@[simp] theorem State.onClocks_freeCtr (s : State) (f : Clocks → Clocks) : (s.onClocks f).freeCtr = s.freeCtr := rfl
@[simp] theorem State.onClocks_out (s : State) (f : Clocks → Clocks) : (s.onClocks f).out = s.out := rfl
@[simp] theorem State.onClocks_pending (s : State) (f : Clocks → Clocks) : (s.onClocks f).pending = s.pending := rfl
@[simp] theorem State.onConfig_regs (s : State) (f : Config → Config) : (s.onConfig f).regs = s.regs := rfl
@[simp] theorem State.onConfig_imageVals (s : State) (f : Config → Config) : (s.onConfig f).imageVals = s.imageVals := rfl
@[simp] theorem State.onConfig_clocks (s : State) (f : Config → Config) : (s.onConfig f).clocks = s.clocks := rfl
@[simp] theorem State.onConfig_fabric (s : State) (f : Config → Config) : (s.onConfig f).fabric = s.fabric := rfl
@[simp] theorem State.onConfig_onchip (s : State) (f : Config → Config) : (s.onConfig f).onchip = s.onchip := rfl
@[simp] theorem State.onConfig_config (s : State) (f : Config → Config) : (s.onConfig f).config = f s.config := rfl
@[simp] theorem State.onConfig_noc (s : State) (f : Config → Config) : (s.onConfig f).noc = s.noc := rfl
@[simp] theorem State.onConfig_engines (s : State) (f : Config → Config) : (s.onConfig f).engines = s.engines := rfl
@[simp] theorem State.onConfig_dram (s : State) (f : Config → Config) : (s.onConfig f).dram = s.dram := rfl
@[simp] theorem State.onConfig_channels (s : State) (f : Config → Config) : (s.onConfig f).channels = s.channels := rfl
@[simp] theorem State.onConfig_drams (s : State) (f : Config → Config) : (s.onConfig f).drams = s.drams := rfl
@[simp] theorem State.onConfig_patinas (s : State) (f : Config → Config) : (s.onConfig f).patinas = s.patinas := rfl
@[simp] theorem State.onConfig_security (s : State) (f : Config → Config) : (s.onConfig f).security = s.security := rfl
@[simp] theorem State.onConfig_host (s : State) (f : Config → Config) : (s.onConfig f).host = s.host := rfl
@[simp] theorem State.onConfig_slots (s : State) (f : Config → Config) : (s.onConfig f).slots = s.slots := rfl
@[simp] theorem State.onConfig_wake (s : State) (f : Config → Config) : (s.onConfig f).wake = s.wake := rfl
@[simp] theorem State.onConfig_power (s : State) (f : Config → Config) : (s.onConfig f).power = s.power := rfl
@[simp] theorem State.onConfig_debug (s : State) (f : Config → Config) : (s.onConfig f).dbg = s.dbg := rfl
@[simp] theorem State.onConfig_lanes (s : State) (f : Config → Config) : (s.onConfig f).lanes = s.lanes := rfl
@[simp] theorem State.onConfig_freeCtr (s : State) (f : Config → Config) : (s.onConfig f).freeCtr = s.freeCtr := rfl
@[simp] theorem State.onConfig_out (s : State) (f : Config → Config) : (s.onConfig f).out = s.out := rfl
@[simp] theorem State.onConfig_pending (s : State) (f : Config → Config) : (s.onConfig f).pending = s.pending := rfl
@[simp] theorem State.onNoc_regs (s : State) (f : Noc → Noc) : (s.onNoc f).regs = s.regs := rfl
@[simp] theorem State.onNoc_imageVals (s : State) (f : Noc → Noc) : (s.onNoc f).imageVals = s.imageVals := rfl
@[simp] theorem State.onNoc_clocks (s : State) (f : Noc → Noc) : (s.onNoc f).clocks = s.clocks := rfl
@[simp] theorem State.onNoc_fabric (s : State) (f : Noc → Noc) : (s.onNoc f).fabric = s.fabric := rfl
@[simp] theorem State.onNoc_onchip (s : State) (f : Noc → Noc) : (s.onNoc f).onchip = s.onchip := rfl
@[simp] theorem State.onNoc_config (s : State) (f : Noc → Noc) : (s.onNoc f).config = s.config := rfl
@[simp] theorem State.onNoc_noc (s : State) (f : Noc → Noc) : (s.onNoc f).noc = f s.noc := rfl
@[simp] theorem State.onNoc_engines (s : State) (f : Noc → Noc) : (s.onNoc f).engines = s.engines := rfl
@[simp] theorem State.onNoc_dram (s : State) (f : Noc → Noc) : (s.onNoc f).dram = s.dram := rfl
@[simp] theorem State.onNoc_channels (s : State) (f : Noc → Noc) : (s.onNoc f).channels = s.channels := rfl
@[simp] theorem State.onNoc_drams (s : State) (f : Noc → Noc) : (s.onNoc f).drams = s.drams := rfl
@[simp] theorem State.onNoc_patinas (s : State) (f : Noc → Noc) : (s.onNoc f).patinas = s.patinas := rfl
@[simp] theorem State.onNoc_security (s : State) (f : Noc → Noc) : (s.onNoc f).security = s.security := rfl
@[simp] theorem State.onNoc_host (s : State) (f : Noc → Noc) : (s.onNoc f).host = s.host := rfl
@[simp] theorem State.onNoc_slots (s : State) (f : Noc → Noc) : (s.onNoc f).slots = s.slots := rfl
@[simp] theorem State.onNoc_wake (s : State) (f : Noc → Noc) : (s.onNoc f).wake = s.wake := rfl
@[simp] theorem State.onNoc_power (s : State) (f : Noc → Noc) : (s.onNoc f).power = s.power := rfl
@[simp] theorem State.onNoc_debug (s : State) (f : Noc → Noc) : (s.onNoc f).dbg = s.dbg := rfl
@[simp] theorem State.onNoc_lanes (s : State) (f : Noc → Noc) : (s.onNoc f).lanes = s.lanes := rfl
@[simp] theorem State.onNoc_freeCtr (s : State) (f : Noc → Noc) : (s.onNoc f).freeCtr = s.freeCtr := rfl
@[simp] theorem State.onNoc_out (s : State) (f : Noc → Noc) : (s.onNoc f).out = s.out := rfl
@[simp] theorem State.onNoc_pending (s : State) (f : Noc → Noc) : (s.onNoc f).pending = s.pending := rfl
@[simp] theorem State.onSec_regs (s : State) (f : Security → Security) : (s.onSec f).regs = s.regs := rfl
@[simp] theorem State.onSec_imageVals (s : State) (f : Security → Security) : (s.onSec f).imageVals = s.imageVals := rfl
@[simp] theorem State.onSec_clocks (s : State) (f : Security → Security) : (s.onSec f).clocks = s.clocks := rfl
@[simp] theorem State.onSec_fabric (s : State) (f : Security → Security) : (s.onSec f).fabric = s.fabric := rfl
@[simp] theorem State.onSec_onchip (s : State) (f : Security → Security) : (s.onSec f).onchip = s.onchip := rfl
@[simp] theorem State.onSec_config (s : State) (f : Security → Security) : (s.onSec f).config = s.config := rfl
@[simp] theorem State.onSec_noc (s : State) (f : Security → Security) : (s.onSec f).noc = s.noc := rfl
@[simp] theorem State.onSec_engines (s : State) (f : Security → Security) : (s.onSec f).engines = s.engines := rfl
@[simp] theorem State.onSec_dram (s : State) (f : Security → Security) : (s.onSec f).dram = s.dram := rfl
@[simp] theorem State.onSec_channels (s : State) (f : Security → Security) : (s.onSec f).channels = s.channels := rfl
@[simp] theorem State.onSec_drams (s : State) (f : Security → Security) : (s.onSec f).drams = s.drams := rfl
@[simp] theorem State.onSec_patinas (s : State) (f : Security → Security) : (s.onSec f).patinas = s.patinas := rfl
@[simp] theorem State.onSec_security (s : State) (f : Security → Security) : (s.onSec f).security = f s.security := rfl
@[simp] theorem State.onSec_host (s : State) (f : Security → Security) : (s.onSec f).host = s.host := rfl
@[simp] theorem State.onSec_slots (s : State) (f : Security → Security) : (s.onSec f).slots = s.slots := rfl
@[simp] theorem State.onSec_wake (s : State) (f : Security → Security) : (s.onSec f).wake = s.wake := rfl
@[simp] theorem State.onSec_power (s : State) (f : Security → Security) : (s.onSec f).power = s.power := rfl
@[simp] theorem State.onSec_debug (s : State) (f : Security → Security) : (s.onSec f).dbg = s.dbg := rfl
@[simp] theorem State.onSec_lanes (s : State) (f : Security → Security) : (s.onSec f).lanes = s.lanes := rfl
@[simp] theorem State.onSec_freeCtr (s : State) (f : Security → Security) : (s.onSec f).freeCtr = s.freeCtr := rfl
@[simp] theorem State.onSec_out (s : State) (f : Security → Security) : (s.onSec f).out = s.out := rfl
@[simp] theorem State.onSec_pending (s : State) (f : Security → Security) : (s.onSec f).pending = s.pending := rfl
@[simp] theorem State.onHost_regs (s : State) (f : HostSide → HostSide) : (s.onHost f).regs = s.regs := rfl
@[simp] theorem State.onHost_imageVals (s : State) (f : HostSide → HostSide) : (s.onHost f).imageVals = s.imageVals := rfl
@[simp] theorem State.onHost_clocks (s : State) (f : HostSide → HostSide) : (s.onHost f).clocks = s.clocks := rfl
@[simp] theorem State.onHost_fabric (s : State) (f : HostSide → HostSide) : (s.onHost f).fabric = s.fabric := rfl
@[simp] theorem State.onHost_onchip (s : State) (f : HostSide → HostSide) : (s.onHost f).onchip = s.onchip := rfl
@[simp] theorem State.onHost_config (s : State) (f : HostSide → HostSide) : (s.onHost f).config = s.config := rfl
@[simp] theorem State.onHost_noc (s : State) (f : HostSide → HostSide) : (s.onHost f).noc = s.noc := rfl
@[simp] theorem State.onHost_engines (s : State) (f : HostSide → HostSide) : (s.onHost f).engines = s.engines := rfl
@[simp] theorem State.onHost_dram (s : State) (f : HostSide → HostSide) : (s.onHost f).dram = s.dram := rfl
@[simp] theorem State.onHost_channels (s : State) (f : HostSide → HostSide) : (s.onHost f).channels = s.channels := rfl
@[simp] theorem State.onHost_drams (s : State) (f : HostSide → HostSide) : (s.onHost f).drams = s.drams := rfl
@[simp] theorem State.onHost_patinas (s : State) (f : HostSide → HostSide) : (s.onHost f).patinas = s.patinas := rfl
@[simp] theorem State.onHost_security (s : State) (f : HostSide → HostSide) : (s.onHost f).security = s.security := rfl
@[simp] theorem State.onHost_host (s : State) (f : HostSide → HostSide) : (s.onHost f).host = f s.host := rfl
@[simp] theorem State.onHost_slots (s : State) (f : HostSide → HostSide) : (s.onHost f).slots = s.slots := rfl
@[simp] theorem State.onHost_wake (s : State) (f : HostSide → HostSide) : (s.onHost f).wake = s.wake := rfl
@[simp] theorem State.onHost_power (s : State) (f : HostSide → HostSide) : (s.onHost f).power = s.power := rfl
@[simp] theorem State.onHost_debug (s : State) (f : HostSide → HostSide) : (s.onHost f).dbg = s.dbg := rfl
@[simp] theorem State.onHost_lanes (s : State) (f : HostSide → HostSide) : (s.onHost f).lanes = s.lanes := rfl
@[simp] theorem State.onHost_freeCtr (s : State) (f : HostSide → HostSide) : (s.onHost f).freeCtr = s.freeCtr := rfl
@[simp] theorem State.onHost_out (s : State) (f : HostSide → HostSide) : (s.onHost f).out = s.out := rfl
@[simp] theorem State.onHost_pending (s : State) (f : HostSide → HostSide) : (s.onHost f).pending = s.pending := rfl
@[simp] theorem State.onSlots_regs (s : State) (f : Slots → Slots) : (s.onSlots f).regs = s.regs := rfl
@[simp] theorem State.onSlots_imageVals (s : State) (f : Slots → Slots) : (s.onSlots f).imageVals = s.imageVals := rfl
@[simp] theorem State.onSlots_clocks (s : State) (f : Slots → Slots) : (s.onSlots f).clocks = s.clocks := rfl
@[simp] theorem State.onSlots_fabric (s : State) (f : Slots → Slots) : (s.onSlots f).fabric = s.fabric := rfl
@[simp] theorem State.onSlots_onchip (s : State) (f : Slots → Slots) : (s.onSlots f).onchip = s.onchip := rfl
@[simp] theorem State.onSlots_config (s : State) (f : Slots → Slots) : (s.onSlots f).config = s.config := rfl
@[simp] theorem State.onSlots_noc (s : State) (f : Slots → Slots) : (s.onSlots f).noc = s.noc := rfl
@[simp] theorem State.onSlots_engines (s : State) (f : Slots → Slots) : (s.onSlots f).engines = s.engines := rfl
@[simp] theorem State.onSlots_dram (s : State) (f : Slots → Slots) : (s.onSlots f).dram = s.dram := rfl
@[simp] theorem State.onSlots_channels (s : State) (f : Slots → Slots) : (s.onSlots f).channels = s.channels := rfl
@[simp] theorem State.onSlots_drams (s : State) (f : Slots → Slots) : (s.onSlots f).drams = s.drams := rfl
@[simp] theorem State.onSlots_patinas (s : State) (f : Slots → Slots) : (s.onSlots f).patinas = s.patinas := rfl
@[simp] theorem State.onSlots_security (s : State) (f : Slots → Slots) : (s.onSlots f).security = s.security := rfl
@[simp] theorem State.onSlots_host (s : State) (f : Slots → Slots) : (s.onSlots f).host = s.host := rfl
@[simp] theorem State.onSlots_slots (s : State) (f : Slots → Slots) : (s.onSlots f).slots = f s.slots := rfl
@[simp] theorem State.onSlots_wake (s : State) (f : Slots → Slots) : (s.onSlots f).wake = s.wake := rfl
@[simp] theorem State.onSlots_power (s : State) (f : Slots → Slots) : (s.onSlots f).power = s.power := rfl
@[simp] theorem State.onSlots_debug (s : State) (f : Slots → Slots) : (s.onSlots f).dbg = s.dbg := rfl
@[simp] theorem State.onSlots_lanes (s : State) (f : Slots → Slots) : (s.onSlots f).lanes = s.lanes := rfl
@[simp] theorem State.onSlots_freeCtr (s : State) (f : Slots → Slots) : (s.onSlots f).freeCtr = s.freeCtr := rfl
@[simp] theorem State.onSlots_out (s : State) (f : Slots → Slots) : (s.onSlots f).out = s.out := rfl
@[simp] theorem State.onSlots_pending (s : State) (f : Slots → Slots) : (s.onSlots f).pending = s.pending := rfl
@[simp] theorem State.onWake_regs (s : State) (f : Wake → Wake) : (s.onWake f).regs = s.regs := rfl
@[simp] theorem State.onWake_imageVals (s : State) (f : Wake → Wake) : (s.onWake f).imageVals = s.imageVals := rfl
@[simp] theorem State.onWake_clocks (s : State) (f : Wake → Wake) : (s.onWake f).clocks = s.clocks := rfl
@[simp] theorem State.onWake_fabric (s : State) (f : Wake → Wake) : (s.onWake f).fabric = s.fabric := rfl
@[simp] theorem State.onWake_onchip (s : State) (f : Wake → Wake) : (s.onWake f).onchip = s.onchip := rfl
@[simp] theorem State.onWake_config (s : State) (f : Wake → Wake) : (s.onWake f).config = s.config := rfl
@[simp] theorem State.onWake_noc (s : State) (f : Wake → Wake) : (s.onWake f).noc = s.noc := rfl
@[simp] theorem State.onWake_engines (s : State) (f : Wake → Wake) : (s.onWake f).engines = s.engines := rfl
@[simp] theorem State.onWake_dram (s : State) (f : Wake → Wake) : (s.onWake f).dram = s.dram := rfl
@[simp] theorem State.onWake_channels (s : State) (f : Wake → Wake) : (s.onWake f).channels = s.channels := rfl
@[simp] theorem State.onWake_drams (s : State) (f : Wake → Wake) : (s.onWake f).drams = s.drams := rfl
@[simp] theorem State.onWake_patinas (s : State) (f : Wake → Wake) : (s.onWake f).patinas = s.patinas := rfl
@[simp] theorem State.onWake_security (s : State) (f : Wake → Wake) : (s.onWake f).security = s.security := rfl
@[simp] theorem State.onWake_host (s : State) (f : Wake → Wake) : (s.onWake f).host = s.host := rfl
@[simp] theorem State.onWake_slots (s : State) (f : Wake → Wake) : (s.onWake f).slots = s.slots := rfl
@[simp] theorem State.onWake_wake (s : State) (f : Wake → Wake) : (s.onWake f).wake = f s.wake := rfl
@[simp] theorem State.onWake_power (s : State) (f : Wake → Wake) : (s.onWake f).power = s.power := rfl
@[simp] theorem State.onWake_debug (s : State) (f : Wake → Wake) : (s.onWake f).dbg = s.dbg := rfl
@[simp] theorem State.onWake_lanes (s : State) (f : Wake → Wake) : (s.onWake f).lanes = s.lanes := rfl
@[simp] theorem State.onWake_freeCtr (s : State) (f : Wake → Wake) : (s.onWake f).freeCtr = s.freeCtr := rfl
@[simp] theorem State.onWake_out (s : State) (f : Wake → Wake) : (s.onWake f).out = s.out := rfl
@[simp] theorem State.onWake_pending (s : State) (f : Wake → Wake) : (s.onWake f).pending = s.pending := rfl
@[simp] theorem State.onPower_regs (s : State) (f : Power → Power) : (s.onPower f).regs = s.regs := rfl
@[simp] theorem State.onPower_imageVals (s : State) (f : Power → Power) : (s.onPower f).imageVals = s.imageVals := rfl
@[simp] theorem State.onPower_clocks (s : State) (f : Power → Power) : (s.onPower f).clocks = s.clocks := rfl
@[simp] theorem State.onPower_fabric (s : State) (f : Power → Power) : (s.onPower f).fabric = s.fabric := rfl
@[simp] theorem State.onPower_onchip (s : State) (f : Power → Power) : (s.onPower f).onchip = s.onchip := rfl
@[simp] theorem State.onPower_config (s : State) (f : Power → Power) : (s.onPower f).config = s.config := rfl
@[simp] theorem State.onPower_noc (s : State) (f : Power → Power) : (s.onPower f).noc = s.noc := rfl
@[simp] theorem State.onPower_engines (s : State) (f : Power → Power) : (s.onPower f).engines = s.engines := rfl
@[simp] theorem State.onPower_dram (s : State) (f : Power → Power) : (s.onPower f).dram = s.dram := rfl
@[simp] theorem State.onPower_channels (s : State) (f : Power → Power) : (s.onPower f).channels = s.channels := rfl
@[simp] theorem State.onPower_drams (s : State) (f : Power → Power) : (s.onPower f).drams = s.drams := rfl
@[simp] theorem State.onPower_patinas (s : State) (f : Power → Power) : (s.onPower f).patinas = s.patinas := rfl
@[simp] theorem State.onPower_security (s : State) (f : Power → Power) : (s.onPower f).security = s.security := rfl
@[simp] theorem State.onPower_host (s : State) (f : Power → Power) : (s.onPower f).host = s.host := rfl
@[simp] theorem State.onPower_slots (s : State) (f : Power → Power) : (s.onPower f).slots = s.slots := rfl
@[simp] theorem State.onPower_wake (s : State) (f : Power → Power) : (s.onPower f).wake = s.wake := rfl
@[simp] theorem State.onPower_power (s : State) (f : Power → Power) : (s.onPower f).power = f s.power := rfl
@[simp] theorem State.onPower_debug (s : State) (f : Power → Power) : (s.onPower f).dbg = s.dbg := rfl
@[simp] theorem State.onPower_lanes (s : State) (f : Power → Power) : (s.onPower f).lanes = s.lanes := rfl
@[simp] theorem State.onPower_freeCtr (s : State) (f : Power → Power) : (s.onPower f).freeCtr = s.freeCtr := rfl
@[simp] theorem State.onPower_out (s : State) (f : Power → Power) : (s.onPower f).out = s.out := rfl
@[simp] theorem State.onPower_pending (s : State) (f : Power → Power) : (s.onPower f).pending = s.pending := rfl
@[simp] theorem State.onDebug_regs (s : State) (f : Debug → Debug) : (s.onDebug f).regs = s.regs := rfl
@[simp] theorem State.onDebug_imageVals (s : State) (f : Debug → Debug) : (s.onDebug f).imageVals = s.imageVals := rfl
@[simp] theorem State.onDebug_clocks (s : State) (f : Debug → Debug) : (s.onDebug f).clocks = s.clocks := rfl
@[simp] theorem State.onDebug_fabric (s : State) (f : Debug → Debug) : (s.onDebug f).fabric = s.fabric := rfl
@[simp] theorem State.onDebug_onchip (s : State) (f : Debug → Debug) : (s.onDebug f).onchip = s.onchip := rfl
@[simp] theorem State.onDebug_config (s : State) (f : Debug → Debug) : (s.onDebug f).config = s.config := rfl
@[simp] theorem State.onDebug_noc (s : State) (f : Debug → Debug) : (s.onDebug f).noc = s.noc := rfl
@[simp] theorem State.onDebug_engines (s : State) (f : Debug → Debug) : (s.onDebug f).engines = s.engines := rfl
@[simp] theorem State.onDebug_dram (s : State) (f : Debug → Debug) : (s.onDebug f).dram = s.dram := rfl
@[simp] theorem State.onDebug_channels (s : State) (f : Debug → Debug) : (s.onDebug f).channels = s.channels := rfl
@[simp] theorem State.onDebug_drams (s : State) (f : Debug → Debug) : (s.onDebug f).drams = s.drams := rfl
@[simp] theorem State.onDebug_patinas (s : State) (f : Debug → Debug) : (s.onDebug f).patinas = s.patinas := rfl
@[simp] theorem State.onDebug_security (s : State) (f : Debug → Debug) : (s.onDebug f).security = s.security := rfl
@[simp] theorem State.onDebug_host (s : State) (f : Debug → Debug) : (s.onDebug f).host = s.host := rfl
@[simp] theorem State.onDebug_slots (s : State) (f : Debug → Debug) : (s.onDebug f).slots = s.slots := rfl
@[simp] theorem State.onDebug_wake (s : State) (f : Debug → Debug) : (s.onDebug f).wake = s.wake := rfl
@[simp] theorem State.onDebug_power (s : State) (f : Debug → Debug) : (s.onDebug f).power = s.power := rfl
@[simp] theorem State.onDebug_debug (s : State) (f : Debug → Debug) : (s.onDebug f).dbg = f s.dbg := rfl
@[simp] theorem State.onDebug_lanes (s : State) (f : Debug → Debug) : (s.onDebug f).lanes = s.lanes := rfl
@[simp] theorem State.onDebug_freeCtr (s : State) (f : Debug → Debug) : (s.onDebug f).freeCtr = s.freeCtr := rfl
@[simp] theorem State.onDebug_out (s : State) (f : Debug → Debug) : (s.onDebug f).out = s.out := rfl
@[simp] theorem State.onDebug_pending (s : State) (f : Debug → Debug) : (s.onDebug f).pending = s.pending := rfl
@[simp] theorem State.onLanes_regs (s : State) (f : Lanes → Lanes) : (s.onLanes f).regs = s.regs := rfl
@[simp] theorem State.onLanes_imageVals (s : State) (f : Lanes → Lanes) : (s.onLanes f).imageVals = s.imageVals := rfl
@[simp] theorem State.onLanes_clocks (s : State) (f : Lanes → Lanes) : (s.onLanes f).clocks = s.clocks := rfl
@[simp] theorem State.onLanes_fabric (s : State) (f : Lanes → Lanes) : (s.onLanes f).fabric = s.fabric := rfl
@[simp] theorem State.onLanes_onchip (s : State) (f : Lanes → Lanes) : (s.onLanes f).onchip = s.onchip := rfl
@[simp] theorem State.onLanes_config (s : State) (f : Lanes → Lanes) : (s.onLanes f).config = s.config := rfl
@[simp] theorem State.onLanes_noc (s : State) (f : Lanes → Lanes) : (s.onLanes f).noc = s.noc := rfl
@[simp] theorem State.onLanes_engines (s : State) (f : Lanes → Lanes) : (s.onLanes f).engines = s.engines := rfl
@[simp] theorem State.onLanes_dram (s : State) (f : Lanes → Lanes) : (s.onLanes f).dram = s.dram := rfl
@[simp] theorem State.onLanes_channels (s : State) (f : Lanes → Lanes) : (s.onLanes f).channels = s.channels := rfl
@[simp] theorem State.onLanes_drams (s : State) (f : Lanes → Lanes) : (s.onLanes f).drams = s.drams := rfl
@[simp] theorem State.onLanes_patinas (s : State) (f : Lanes → Lanes) : (s.onLanes f).patinas = s.patinas := rfl
@[simp] theorem State.onLanes_security (s : State) (f : Lanes → Lanes) : (s.onLanes f).security = s.security := rfl
@[simp] theorem State.onLanes_host (s : State) (f : Lanes → Lanes) : (s.onLanes f).host = s.host := rfl
@[simp] theorem State.onLanes_slots (s : State) (f : Lanes → Lanes) : (s.onLanes f).slots = s.slots := rfl
@[simp] theorem State.onLanes_wake (s : State) (f : Lanes → Lanes) : (s.onLanes f).wake = s.wake := rfl
@[simp] theorem State.onLanes_power (s : State) (f : Lanes → Lanes) : (s.onLanes f).power = s.power := rfl
@[simp] theorem State.onLanes_debug (s : State) (f : Lanes → Lanes) : (s.onLanes f).dbg = s.dbg := rfl
@[simp] theorem State.onLanes_lanes (s : State) (f : Lanes → Lanes) : (s.onLanes f).lanes = f s.lanes := rfl
@[simp] theorem State.onLanes_freeCtr (s : State) (f : Lanes → Lanes) : (s.onLanes f).freeCtr = s.freeCtr := rfl
@[simp] theorem State.onLanes_out (s : State) (f : Lanes → Lanes) : (s.onLanes f).out = s.out := rfl
@[simp] theorem State.onLanes_pending (s : State) (f : Lanes → Lanes) : (s.onLanes f).pending = s.pending := rfl
@[simp] theorem State.setEng_regs (s : State) (g : Nat) (e : Engine) : (s.setEng g e).regs = s.regs := rfl
@[simp] theorem State.setEng_imageVals (s : State) (g : Nat) (e : Engine) : (s.setEng g e).imageVals = s.imageVals := rfl
@[simp] theorem State.setEng_clocks (s : State) (g : Nat) (e : Engine) : (s.setEng g e).clocks = s.clocks := rfl
@[simp] theorem State.setEng_fabric (s : State) (g : Nat) (e : Engine) : (s.setEng g e).fabric = s.fabric := rfl
@[simp] theorem State.setEng_onchip (s : State) (g : Nat) (e : Engine) : (s.setEng g e).onchip = s.onchip := rfl
@[simp] theorem State.setEng_config (s : State) (g : Nat) (e : Engine) : (s.setEng g e).config = s.config := rfl
@[simp] theorem State.setEng_noc (s : State) (g : Nat) (e : Engine) : (s.setEng g e).noc = s.noc := rfl
@[simp] theorem State.setEng_engines (s : State) (g : Nat) (e : Engine) : (s.setEng g e).engines = smSet {} s.engines g e := rfl
@[simp] theorem State.setEng_dram (s : State) (g : Nat) (e : Engine) : (s.setEng g e).dram = s.dram := rfl
@[simp] theorem State.setEng_channels (s : State) (g : Nat) (e : Engine) : (s.setEng g e).channels = s.channels := rfl
@[simp] theorem State.setEng_drams (s : State) (g : Nat) (e : Engine) : (s.setEng g e).drams = s.drams := rfl
@[simp] theorem State.setEng_patinas (s : State) (g : Nat) (e : Engine) : (s.setEng g e).patinas = s.patinas := rfl
@[simp] theorem State.setEng_security (s : State) (g : Nat) (e : Engine) : (s.setEng g e).security = s.security := rfl
@[simp] theorem State.setEng_host (s : State) (g : Nat) (e : Engine) : (s.setEng g e).host = s.host := rfl
@[simp] theorem State.setEng_slots (s : State) (g : Nat) (e : Engine) : (s.setEng g e).slots = s.slots := rfl
@[simp] theorem State.setEng_wake (s : State) (g : Nat) (e : Engine) : (s.setEng g e).wake = s.wake := rfl
@[simp] theorem State.setEng_power (s : State) (g : Nat) (e : Engine) : (s.setEng g e).power = s.power := rfl
@[simp] theorem State.setEng_debug (s : State) (g : Nat) (e : Engine) : (s.setEng g e).dbg = s.dbg := rfl
@[simp] theorem State.setEng_lanes (s : State) (g : Nat) (e : Engine) : (s.setEng g e).lanes = s.lanes := rfl
@[simp] theorem State.setEng_freeCtr (s : State) (g : Nat) (e : Engine) : (s.setEng g e).freeCtr = s.freeCtr := rfl
@[simp] theorem State.setEng_out (s : State) (g : Nat) (e : Engine) : (s.setEng g e).out = s.out := rfl
@[simp] theorem State.setEng_pending (s : State) (g : Nat) (e : Engine) : (s.setEng g e).pending = s.pending := rfl
@[simp] theorem State.setChan_regs (s : State) (n : Nat) (c : Channel) : (s.setChan n c).regs = s.regs := rfl
@[simp] theorem State.setChan_imageVals (s : State) (n : Nat) (c : Channel) : (s.setChan n c).imageVals = s.imageVals := rfl
@[simp] theorem State.setChan_clocks (s : State) (n : Nat) (c : Channel) : (s.setChan n c).clocks = s.clocks := rfl
@[simp] theorem State.setChan_fabric (s : State) (n : Nat) (c : Channel) : (s.setChan n c).fabric = s.fabric := rfl
@[simp] theorem State.setChan_onchip (s : State) (n : Nat) (c : Channel) : (s.setChan n c).onchip = s.onchip := rfl
@[simp] theorem State.setChan_config (s : State) (n : Nat) (c : Channel) : (s.setChan n c).config = s.config := rfl
@[simp] theorem State.setChan_noc (s : State) (n : Nat) (c : Channel) : (s.setChan n c).noc = s.noc := rfl
@[simp] theorem State.setChan_engines (s : State) (n : Nat) (c : Channel) : (s.setChan n c).engines = s.engines := rfl
@[simp] theorem State.setChan_dram (s : State) (n : Nat) (c : Channel) : (s.setChan n c).dram = s.dram := rfl
@[simp] theorem State.setChan_channels (s : State) (n : Nat) (c : Channel) : (s.setChan n c).channels = smSet {} s.channels n c := rfl
@[simp] theorem State.setChan_drams (s : State) (n : Nat) (c : Channel) : (s.setChan n c).drams = s.drams := rfl
@[simp] theorem State.setChan_patinas (s : State) (n : Nat) (c : Channel) : (s.setChan n c).patinas = s.patinas := rfl
@[simp] theorem State.setChan_security (s : State) (n : Nat) (c : Channel) : (s.setChan n c).security = s.security := rfl
@[simp] theorem State.setChan_host (s : State) (n : Nat) (c : Channel) : (s.setChan n c).host = s.host := rfl
@[simp] theorem State.setChan_slots (s : State) (n : Nat) (c : Channel) : (s.setChan n c).slots = s.slots := rfl
@[simp] theorem State.setChan_wake (s : State) (n : Nat) (c : Channel) : (s.setChan n c).wake = s.wake := rfl
@[simp] theorem State.setChan_power (s : State) (n : Nat) (c : Channel) : (s.setChan n c).power = s.power := rfl
@[simp] theorem State.setChan_debug (s : State) (n : Nat) (c : Channel) : (s.setChan n c).dbg = s.dbg := rfl
@[simp] theorem State.setChan_lanes (s : State) (n : Nat) (c : Channel) : (s.setChan n c).lanes = s.lanes := rfl
@[simp] theorem State.setChan_freeCtr (s : State) (n : Nat) (c : Channel) : (s.setChan n c).freeCtr = s.freeCtr := rfl
@[simp] theorem State.setChan_out (s : State) (n : Nat) (c : Channel) : (s.setChan n c).out = s.out := rfl
@[simp] theorem State.setChan_pending (s : State) (n : Nat) (c : Channel) : (s.setChan n c).pending = s.pending := rfl
@[simp] theorem State.setDramc_regs (s : State) (n : Nat) (d : DramCtrl) : (s.setDramc n d).regs = s.regs := rfl
@[simp] theorem State.setDramc_imageVals (s : State) (n : Nat) (d : DramCtrl) : (s.setDramc n d).imageVals = s.imageVals := rfl
@[simp] theorem State.setDramc_clocks (s : State) (n : Nat) (d : DramCtrl) : (s.setDramc n d).clocks = s.clocks := rfl
@[simp] theorem State.setDramc_fabric (s : State) (n : Nat) (d : DramCtrl) : (s.setDramc n d).fabric = s.fabric := rfl
@[simp] theorem State.setDramc_onchip (s : State) (n : Nat) (d : DramCtrl) : (s.setDramc n d).onchip = s.onchip := rfl
@[simp] theorem State.setDramc_config (s : State) (n : Nat) (d : DramCtrl) : (s.setDramc n d).config = s.config := rfl
@[simp] theorem State.setDramc_noc (s : State) (n : Nat) (d : DramCtrl) : (s.setDramc n d).noc = s.noc := rfl
@[simp] theorem State.setDramc_engines (s : State) (n : Nat) (d : DramCtrl) : (s.setDramc n d).engines = s.engines := rfl
@[simp] theorem State.setDramc_dram (s : State) (n : Nat) (d : DramCtrl) : (s.setDramc n d).dram = s.dram := rfl
@[simp] theorem State.setDramc_channels (s : State) (n : Nat) (d : DramCtrl) : (s.setDramc n d).channels = s.channels := rfl
@[simp] theorem State.setDramc_drams (s : State) (n : Nat) (d : DramCtrl) : (s.setDramc n d).drams = smSet {} s.drams n d := rfl
@[simp] theorem State.setDramc_patinas (s : State) (n : Nat) (d : DramCtrl) : (s.setDramc n d).patinas = s.patinas := rfl
@[simp] theorem State.setDramc_security (s : State) (n : Nat) (d : DramCtrl) : (s.setDramc n d).security = s.security := rfl
@[simp] theorem State.setDramc_host (s : State) (n : Nat) (d : DramCtrl) : (s.setDramc n d).host = s.host := rfl
@[simp] theorem State.setDramc_slots (s : State) (n : Nat) (d : DramCtrl) : (s.setDramc n d).slots = s.slots := rfl
@[simp] theorem State.setDramc_wake (s : State) (n : Nat) (d : DramCtrl) : (s.setDramc n d).wake = s.wake := rfl
@[simp] theorem State.setDramc_power (s : State) (n : Nat) (d : DramCtrl) : (s.setDramc n d).power = s.power := rfl
@[simp] theorem State.setDramc_debug (s : State) (n : Nat) (d : DramCtrl) : (s.setDramc n d).dbg = s.dbg := rfl
@[simp] theorem State.setDramc_lanes (s : State) (n : Nat) (d : DramCtrl) : (s.setDramc n d).lanes = s.lanes := rfl
@[simp] theorem State.setDramc_freeCtr (s : State) (n : Nat) (d : DramCtrl) : (s.setDramc n d).freeCtr = s.freeCtr := rfl
@[simp] theorem State.setDramc_out (s : State) (n : Nat) (d : DramCtrl) : (s.setDramc n d).out = s.out := rfl
@[simp] theorem State.setDramc_pending (s : State) (n : Nat) (d : DramCtrl) : (s.setDramc n d).pending = s.pending := rfl
@[simp] theorem State.setPatina_regs (s : State) (n : Nat) (p : Patina) : (s.setPatina n p).regs = s.regs := rfl
@[simp] theorem State.setPatina_imageVals (s : State) (n : Nat) (p : Patina) : (s.setPatina n p).imageVals = s.imageVals := rfl
@[simp] theorem State.setPatina_clocks (s : State) (n : Nat) (p : Patina) : (s.setPatina n p).clocks = s.clocks := rfl
@[simp] theorem State.setPatina_fabric (s : State) (n : Nat) (p : Patina) : (s.setPatina n p).fabric = s.fabric := rfl
@[simp] theorem State.setPatina_onchip (s : State) (n : Nat) (p : Patina) : (s.setPatina n p).onchip = s.onchip := rfl
@[simp] theorem State.setPatina_config (s : State) (n : Nat) (p : Patina) : (s.setPatina n p).config = s.config := rfl
@[simp] theorem State.setPatina_noc (s : State) (n : Nat) (p : Patina) : (s.setPatina n p).noc = s.noc := rfl
@[simp] theorem State.setPatina_engines (s : State) (n : Nat) (p : Patina) : (s.setPatina n p).engines = s.engines := rfl
@[simp] theorem State.setPatina_dram (s : State) (n : Nat) (p : Patina) : (s.setPatina n p).dram = s.dram := rfl
@[simp] theorem State.setPatina_channels (s : State) (n : Nat) (p : Patina) : (s.setPatina n p).channels = s.channels := rfl
@[simp] theorem State.setPatina_drams (s : State) (n : Nat) (p : Patina) : (s.setPatina n p).drams = s.drams := rfl
@[simp] theorem State.setPatina_patinas (s : State) (n : Nat) (p : Patina) : (s.setPatina n p).patinas = smSet {} s.patinas n p := rfl
@[simp] theorem State.setPatina_security (s : State) (n : Nat) (p : Patina) : (s.setPatina n p).security = s.security := rfl
@[simp] theorem State.setPatina_host (s : State) (n : Nat) (p : Patina) : (s.setPatina n p).host = s.host := rfl
@[simp] theorem State.setPatina_slots (s : State) (n : Nat) (p : Patina) : (s.setPatina n p).slots = s.slots := rfl
@[simp] theorem State.setPatina_wake (s : State) (n : Nat) (p : Patina) : (s.setPatina n p).wake = s.wake := rfl
@[simp] theorem State.setPatina_power (s : State) (n : Nat) (p : Patina) : (s.setPatina n p).power = s.power := rfl
@[simp] theorem State.setPatina_debug (s : State) (n : Nat) (p : Patina) : (s.setPatina n p).dbg = s.dbg := rfl
@[simp] theorem State.setPatina_lanes (s : State) (n : Nat) (p : Patina) : (s.setPatina n p).lanes = s.lanes := rfl
@[simp] theorem State.setPatina_freeCtr (s : State) (n : Nat) (p : Patina) : (s.setPatina n p).freeCtr = s.freeCtr := rfl
@[simp] theorem State.setPatina_out (s : State) (n : Nat) (p : Patina) : (s.setPatina n p).out = s.out := rfl
@[simp] theorem State.setPatina_pending (s : State) (n : Nat) (p : Patina) : (s.setPatina n p).pending = s.pending := rfl
@[simp] theorem State.free_regs (s : State) : (s.free.2).regs = s.regs := rfl
@[simp] theorem State.free_imageVals (s : State) : (s.free.2).imageVals = s.imageVals := rfl
@[simp] theorem State.free_clocks (s : State) : (s.free.2).clocks = s.clocks := rfl
@[simp] theorem State.free_fabric (s : State) : (s.free.2).fabric = s.fabric := rfl
@[simp] theorem State.free_onchip (s : State) : (s.free.2).onchip = s.onchip := rfl
@[simp] theorem State.free_config (s : State) : (s.free.2).config = s.config := rfl
@[simp] theorem State.free_noc (s : State) : (s.free.2).noc = s.noc := rfl
@[simp] theorem State.free_engines (s : State) : (s.free.2).engines = s.engines := rfl
@[simp] theorem State.free_dram (s : State) : (s.free.2).dram = s.dram := rfl
@[simp] theorem State.free_channels (s : State) : (s.free.2).channels = s.channels := rfl
@[simp] theorem State.free_drams (s : State) : (s.free.2).drams = s.drams := rfl
@[simp] theorem State.free_patinas (s : State) : (s.free.2).patinas = s.patinas := rfl
@[simp] theorem State.free_security (s : State) : (s.free.2).security = s.security := rfl
@[simp] theorem State.free_host (s : State) : (s.free.2).host = s.host := rfl
@[simp] theorem State.free_slots (s : State) : (s.free.2).slots = s.slots := rfl
@[simp] theorem State.free_wake (s : State) : (s.free.2).wake = s.wake := rfl
@[simp] theorem State.free_power (s : State) : (s.free.2).power = s.power := rfl
@[simp] theorem State.free_debug (s : State) : (s.free.2).dbg = s.dbg := rfl
@[simp] theorem State.free_lanes (s : State) : (s.free.2).lanes = s.lanes := rfl
@[simp] theorem State.free_freeCtr (s : State) : (s.free.2).freeCtr = s.freeCtr + 1 := rfl
@[simp] theorem State.free_out (s : State) : (s.free.2).out = s.out := rfl
@[simp] theorem State.free_pending (s : State) : (s.free.2).pending = s.pending := rfl
@[simp] theorem State.free_value (s : State) : s.free.1 = Config.freeWord s.freeCtr := rfl

theorem State.puts_nil (s : State) : s.puts [] = s := rfl
theorem State.puts_cons (s : State) (f : Fld) (v : Nat) (l : List (Fld × Nat)) : s.puts ((f, v) :: l) = (s.put f v).puts l := rfl

/-- Writing fields changes the register file alone. -/
theorem State.puts_eq (s : State) (l : List (Fld × Nat)) : s.puts l = { s with regs := (s.puts l).regs } := by
  induction l generalizing s with
  | nil => rfl
  | cons p l ih => rw [State.puts_cons, ih]; rfl

/-- A step with a command waiting runs that command on the rest of the queue. -/
theorem step_cons (c : Instr) (rest : List Instr) (s : State) (h : s.pending = c :: rest) :
    step s = exec c { s with pending := rest } := by
  simp [step, h]

/-- A step on an empty queue idles. -/
theorem step_nil (s : State) (h : s.pending = []) : step s = .next (idle s) := by
  simp [step, h]

end Sys2Proof.Machine
end

