-- ==== Sys2Proof/Laws/Sparse.lean ====
section
/-! SUPPORT. The laws of sparse maps: a read after a write, and the canonical form that every operation keeps. -/

namespace Sys2Proof.Machine

variable {α : Type}

theorem smGet_smErase_same (d : α) (m : List (Nat × α)) (k : Nat) : smGet d (smErase m k) k = d := by
  induction m with
  | nil => rfl
  | cons p m ih =>
    obtain ⟨j, v⟩ := p
    by_cases h : j = k <;> simp [smErase, smGet, h, ih]

theorem smGet_smErase_other (d : α) (m : List (Nat × α)) (k l : Nat) (h : l ≠ k) : smGet d (smErase m k) l = smGet d m l := by
  induction m with
  | nil => rfl
  | cons p m ih =>
    obtain ⟨j, v⟩ := p
    by_cases hj : j = k
    · subst hj; simp [smErase, smGet, ih, Ne.symm h]
    · simp [smErase, smGet, hj, ih]

theorem smGet_smInsert_same (d : α) (m : List (Nat × α)) (k : Nat) (v : α) : smGet d (smInsert m k v) k = v := by
  induction m with
  | nil => simp [smInsert, smGet]
  | cons p m ih =>
    obtain ⟨j, w⟩ := p
    by_cases h1 : k < j
    · simp [smInsert, smGet, h1]
    · by_cases h2 : j = k <;> simp [smInsert, smGet, h1, h2, ih]

theorem smGet_smInsert_other (d : α) (m : List (Nat × α)) (k l : Nat) (v : α) (h : l ≠ k) :
    smGet d (smInsert m k v) l = smGet d m l := by
  induction m with
  | nil => simp [smInsert, smGet, Ne.symm h]
  | cons p m ih =>
    obtain ⟨j, w⟩ := p
    by_cases h1 : k < j
    · simp [smInsert, smGet, h1, Ne.symm h]
    · by_cases h2 : j = k
      · subst h2; simp [smInsert, smGet, Ne.symm h]
      · simp [smInsert, smGet, h1, h2, ih]

/-- A read of the key just written gives the value written. -/
@[simp] theorem smGet_smSet_same [DecidableEq α] (d : α) (m : List (Nat × α)) (k : Nat) (v : α) :
    smGet d (smSet d m k v) k = v := by
  unfold smSet
  split
  · next h => rw [smGet_smErase_same, h]
  · exact smGet_smInsert_same d m k v

/-- A write leaves every other key as it was. -/
theorem smGet_smSet_other [DecidableEq α] (d : α) (m : List (Nat × α)) (k l : Nat) (v : α) (h : l ≠ k) :
    smGet d (smSet d m k v) l = smGet d m l := by
  unfold smSet
  split
  · exact smGet_smErase_other d m k l h
  · exact smGet_smInsert_other d m k l v h

/-- The canonical form in two parts: keys rise strictly, and no entry holds the default. -/
theorem smWf_iff [DecidableEq α] (d : α) (m : List (Nat × α)) :
    smWf d m = true ↔ (m.map Prod.fst).Pairwise (· < ·) ∧ ∀ e ∈ m, e.2 ≠ d := by
  induction m with
  | nil => simp [smWf]
  | cons p m ih =>
    obtain ⟨j, v⟩ := p
    cases m with
    | nil => simp [smWf]
    | cons q m =>
      obtain ⟨k, w⟩ := q
      simp only [smWf, Bool.and_eq_true, decide_eq_true_eq, ih]
      simp only [List.map_cons, List.pairwise_cons, List.mem_cons, forall_eq_or_imp]
      constructor
      · rintro ⟨⟨hv, hjk⟩, ⟨hk, hp⟩, hw, hd⟩
        exact ⟨⟨⟨hjk, fun x hx => lt_trans hjk (hk x hx)⟩, hk, hp⟩, hv, hw, hd⟩
      · rintro ⟨⟨⟨hjk, _⟩, hk, hp⟩, hv, hw, hd⟩
        exact ⟨⟨hv, hjk⟩, ⟨hk, hp⟩, hw, hd⟩

theorem smErase_sublist (m : List (Nat × α)) (k : Nat) : (smErase m k).Sublist m := by
  induction m with
  | nil => exact List.Sublist.refl _
  | cons p m ih =>
    obtain ⟨j, v⟩ := p
    by_cases h : j = k
    · simp only [smErase, h, if_true]; exact ih.cons _
    · simp only [smErase, h, if_false]; exact ih.cons_cons _

/-- Entries left out keep the canonical form. -/
theorem smWf_sublist [DecidableEq α] (d : α) {m n : List (Nat × α)} (hs : n.Sublist m) (h : smWf d m = true) : smWf d n = true := by
  rw [smWf_iff] at h ⊢
  exact ⟨h.1.sublist (hs.map _), fun e he => h.2 e (hs.subset he)⟩

/-- A filter keeps the canonical form. -/
theorem smWf_filter [DecidableEq α] (d : α) (m : List (Nat × α)) (p : Nat × α → Bool) (h : smWf d m = true) :
    smWf d (m.filter p) = true := smWf_sublist d List.filter_sublist h

theorem mem_smInsert (m : List (Nat × α)) (k : Nat) (v : α) (e : Nat × α) (he : e ∈ smInsert m k v) : e = (k, v) ∨ e ∈ m := by
  induction m with
  | nil => simpa [smInsert] using he
  | cons p m ih =>
    obtain ⟨j, w⟩ := p
    simp only [smInsert] at he
    split at he
    · simpa using he
    · split at he
      · rcases List.mem_cons.1 he with h | h
        · exact .inl h
        · exact .inr (List.mem_cons_of_mem _ h)
      · rcases List.mem_cons.1 he with h | h
        · exact .inr (h ▸ List.mem_cons_self)
        · rcases ih h with h | h
          · exact .inl h
          · exact .inr (List.mem_cons_of_mem _ h)

theorem smInsert_pairwise (m : List (Nat × α)) (k : Nat) (v : α) (h : (m.map Prod.fst).Pairwise (· < ·)) :
    ((smInsert m k v).map Prod.fst).Pairwise (· < ·) := by
  induction m with
  | nil => simp [smInsert]
  | cons p m ih =>
    obtain ⟨j, w⟩ := p
    rw [List.map_cons, List.pairwise_cons] at h
    simp only [smInsert]
    split
    · next hk =>
      simp only [List.map_cons, List.pairwise_cons, List.mem_cons, forall_eq_or_imp]
      exact ⟨⟨hk, fun x hx => lt_trans hk (h.1 x hx)⟩, h.1, h.2⟩
    · next hk =>
      split
      · next hj => subst hj; simp only [List.map_cons, List.pairwise_cons]; exact ⟨h.1, h.2⟩
      · next hj =>
        simp only [List.map_cons, List.pairwise_cons]
        refine ⟨fun x hx => ?_, ih h.2⟩
        obtain ⟨e, he, rfl⟩ := List.mem_map.1 hx
        rcases mem_smInsert m k v e he with rfl | hm
        · show j < k; omega
        · exact h.1 _ (List.mem_map.2 ⟨e, hm, rfl⟩)

/-- A write keeps the canonical form. -/
theorem smWf_smSet [DecidableEq α] (d : α) (m : List (Nat × α)) (k : Nat) (v : α) (h : smWf d m = true) :
    smWf d (smSet d m k v) = true := by
  unfold smSet
  split
  · exact smWf_sublist d (smErase_sublist m k) h
  · next hv =>
    rw [smWf_iff] at h ⊢
    refine ⟨smInsert_pairwise m k v h.1, fun e he => ?_⟩
    rcases mem_smInsert m k v e he with rfl | hm
    · exact hv
    · exact h.2 e hm

end Sys2Proof.Machine
end

