-- ==== Sys2Proof/Laws/Registers.lean ====
section
/-! SUPPORT. The laws of register fields: a read after a write of the same field, of another field, and of several. -/

namespace Sys2Proof.Machine

@[simp] theorem State.begin_get (s : State) (f : Fld) : s.begin.get f = s.get f := rfl
@[simp] theorem State.emit_get (s : State) (o : Out) (f : Fld) : (s.emit o).get f = s.get f := rfl
@[simp] theorem State.begin_begin (s : State) : s.begin.begin = s.begin := rfl

/-- A field reads as what was written, cut to its width. -/
@[simp] theorem get_put_same (s : State) (f : Fld) (v : Nat) : (s.put f v).get f = v % 2 ^ f.w := by
  simp only [State.get, State.put, smGet_smSet_same, Nat.xor_assoc, Nat.xor_self, Nat.xor_zero]

/-- A write leaves every other field as it was. -/
theorem get_put_other (s : State) (f g : Fld) (v : Nat) (h : g.key ≠ f.key) : (s.put f v).get g = s.get g := by
  simp only [State.get, State.put, smGet_smSet_other _ _ _ _ _ h]

/-- A one-bit field reads as it was set. -/
@[simp] theorem on_flag_same (s : State) (f : Fld) (b : Bool) (h : f.w = 1) : (s.flag f b).on f = b := by
  cases b <;> simp [State.on, State.flag, h]

theorem on_flag_other (s : State) (f g : Fld) (b : Bool) (h : g.key ≠ f.key) : (s.flag f b).on g = s.on g := by
  simp only [State.on, State.flag, get_put_other _ _ _ _ h]

/-- Several writes leave a field that none of them names. -/
theorem get_puts_other (g : Fld) : ∀ (l : List (Fld × Nat)) (s : State), (∀ e ∈ l, g.key ≠ e.1.key) → (s.puts l).get g = s.get g
  | [], _, _ => rfl
  | (f, v) :: l, s, h => by
    rw [State.puts, get_puts_other g l _ (fun e he => h e (List.mem_cons_of_mem _ he)), get_put_other _ _ _ _ (h _ List.mem_cons_self)]

/-- Of several writes the last one that names a field gives its value. -/
theorem get_puts_last (f : Fld) (v : Nat) (l : List (Fld × Nat)) (s : State) (h : ∀ e ∈ l, f.key ≠ e.1.key) :
    (s.puts ((f, v) :: l)).get f = v % 2 ^ f.w := by
  rw [State.puts, get_puts_other f l _ h, get_put_same]

/-- The lowest bit of a conjunction. -/
theorem and_mod_two (x m : Nat) : (x &&& m) % 2 = if x % 2 = 1 ∧ m % 2 = 1 then 1 else 0 := by
  have h := @Nat.and_mod_two_pow x m 1
  rw [pow_one] at h
  rw [h]
  rcases Nat.mod_two_eq_zero_or_one x with h | h <;> rcases Nat.mod_two_eq_zero_or_one m with h' | h' <;> simp [h, h']
/-- Bits cleared: those of `m` are gone, the others stand. -/
theorem testBit_sub_and (x m i : Nat) : (x - (x &&& m)).testBit i = (x.testBit i && !m.testBit i) := by
  induction i generalizing x m with
  | zero =>
    have h1 := @Nat.and_le_left x m
    have h2 := and_mod_two x m
    simp only [Nat.testBit_zero]
    rcases Nat.mod_two_eq_zero_or_one x with h | h <;> rcases Nat.mod_two_eq_zero_or_one m with h' | h' <;>
      simp only [h, h', and_true, and_false, if_true, if_false, zero_ne_one] at h2 <;>
      (first
        | have h3 : (x - (x &&& m)) % 2 = 0 := by omega
          simp [h, h', h3]
        | have h3 : (x - (x &&& m)) % 2 = 1 := by omega
          simp [h, h', h3])
  | succ i ih =>
    rw [Nat.testBit_succ, Nat.testBit_succ, Nat.testBit_succ, ← ih]
    congr 1
    have h1 : (x &&& m) / 2 = x / 2 &&& m / 2 := Nat.and_div_two ..
    have h2 := @Nat.and_le_left x m
    have h3 := and_mod_two x m
    split at h3 <;> omega

@[simp] theorem testBit_clearBits (x m i : Nat) : (clearBits x m).testBit i = (x.testBit i && !m.testBit i) := testBit_sub_and x m i

@[simp] theorem testBit_withBit_same (x i : Nat) (b : Bool) : (withBit x i b).testBit i = b := by
  cases b <;> simp [withBit, testBit_sub_and, Nat.testBit_or]

theorem testBit_withBit_other (x i j : Nat) (b : Bool) (h : j ≠ i) : (withBit x i b).testBit j = x.testBit j := by
  have h1 : (1 <<< i).testBit j = false := by
    rw [Nat.one_shiftLeft]; exact Nat.testBit_two_pow_of_ne (Ne.symm h)
  cases b <;> simp [withBit, testBit_sub_and, Nat.testBit_or, h1]

/-- A bit of a field set or cleared reads so, within the field. -/
theorem bit_putBit_same (s : State) (f : Fld) (i : Nat) (b : Bool) (h : i < f.w) : (s.putBit f i b).bit f i = b := by
  simp [State.bit, State.putBit, Nat.testBit_mod_two_pow, h]

/-- The other bits of the field stand, within the field. -/
theorem bit_putBit_other (s : State) (f : Fld) (i j : Nat) (b : Bool) (h : j ≠ i) (hj : j < f.w) :
    (s.putBit f i b).bit f j = s.bit f j := by
  simp [State.bit, State.putBit, Nat.testBit_mod_two_pow, hj, testBit_withBit_other _ _ _ _ h]

/-- A write to a low and a high word reads back. -/
theorem get64_put64 (s : State) (lo hi : Fld) (v : Nat) (hk : lo.key ≠ hi.key) (hl : lo.w = 32) (hv : v < 2 ^ 32 * 2 ^ hi.w) :
    (s.put64 lo hi v).get64 lo hi = v := by
  have hq : v / 2 ^ 32 < 2 ^ hi.w := Nat.div_lt_of_lt_mul hv
  simp only [State.get64, State.put64, get_put_same, get_put_other _ _ _ _ hk, hl, Nat.mod_mod, Nat.mod_eq_of_lt hq]
  omega

end Sys2Proof.Machine
end

