-- ==== Sys2Proof/Laws/Canonical.lean ====
section
/-! SUPPORT. The canonical form of what the state holds sparsely, part by part, and the operations over memory and registers
that keep it. -/

namespace Sys2Proof.Machine

/-- The canonical form, part by part. -/
theorem State.wf_iff (s : State) : s.wf = true ↔ smWf 0 s.regs = true ∧ smWf 0 s.imageVals = true ∧ smWf 0 s.onchip.bytes = true ∧
    smWf 0 s.onchip.frames = true ∧ smWf 0 s.dram = true ∧ smWf 0 s.config.store = true ∧ smWf {} s.engines = true ∧
    smWf {} s.channels = true ∧ smWf {} s.drams = true ∧ smWf {} s.patinas = true := by
  simp only [State.wf, Bool.and_eq_true, and_assoc]

theorem wf_reset : State.reset.wf = true := by decide

/-- What stands in the other parts of the state is no part of the canonical form. -/
theorem wf_congr {s t : State} (hr : t.regs = s.regs) (hi : t.imageVals = s.imageVals) (ho : t.onchip = s.onchip) (hd : t.dram = s.dram)
    (hc : t.config.store = s.config.store) (he : t.engines = s.engines) (hn : t.channels = s.channels) (hm : t.drams = s.drams)
    (hp : t.patinas = s.patinas) : t.wf = s.wf := by
  simp only [State.wf, hr, hi, ho, hd, hc, he, hn, hm, hp]

@[simp] theorem begin_wf (s : State) : s.begin.wf = s.wf := rfl
@[simp] theorem emit_wf (s : State) (o : Out) : (s.emit o).wf = s.wf := rfl
@[simp] theorem onClocks_wf (s : State) (f : Clocks → Clocks) : (s.onClocks f).wf = s.wf := rfl
@[simp] theorem onDebug_wf (s : State) (f : Debug → Debug) : (s.onDebug f).wf = s.wf := rfl
@[simp] theorem onLanes_wf (s : State) (f : Lanes → Lanes) : (s.onLanes f).wf = s.wf := rfl

/-- Parts replaced one at a time. -/
theorem wf_regs {s : State} {m : List (Nat × Nat)} (h : s.wf = true) (hm : smWf 0 m = true) : ({ s with regs := m } : State).wf = true := by
  rw [State.wf_iff] at h ⊢; exact ⟨hm, h.2⟩

theorem wf_onchip {s : State} {m : Onchip} (h : s.wf = true) (hb : smWf 0 m.bytes = true) (hf : smWf 0 m.frames = true) :
    ({ s with onchip := m } : State).wf = true := by
  rw [State.wf_iff] at h ⊢; exact ⟨h.1, h.2.1, hb, hf, h.2.2.2.2⟩

theorem wf_dram {s : State} {m : List Host.Cell} (h : s.wf = true) (hm : smWf 0 m = true) : ({ s with dram := m } : State).wf = true := by
  rw [State.wf_iff] at h ⊢; exact ⟨h.1, h.2.1, h.2.2.1, h.2.2.2.1, hm, h.2.2.2.2.2⟩

theorem wf_config {s : State} {c : Config} (h : s.wf = true) (hm : smWf 0 c.store = true) : ({ s with config := c } : State).wf = true := by
  rw [State.wf_iff] at h ⊢; exact ⟨h.1, h.2.1, h.2.2.1, h.2.2.2.1, h.2.2.2.2.1, hm, h.2.2.2.2.2.2⟩

/-! Registers. -/

/-- A write of a field keeps the canonical form. -/
theorem put_wf {s : State} (f : Fld) (v : Nat) (h : s.wf = true) : (s.put f v).wf = true :=
  wf_regs h (smWf_smSet 0 _ _ _ (s.wf_iff.1 h).1)

theorem flag_wf {s : State} (f : Fld) (b : Bool) (h : s.wf = true) : (s.flag f b).wf = true := put_wf f _ h
theorem putBit_wf {s : State} (f : Fld) (i : Nat) (b : Bool) (h : s.wf = true) : (s.putBit f i b).wf = true := put_wf f _ h
theorem put64_wf {s : State} (lo hi : Fld) (v : Nat) (h : s.wf = true) : (s.put64 lo hi v).wf = true := put_wf hi _ (put_wf lo _ h)

theorem count_wf {s : State} (f : Fld) (sat : Bool) (h : s.wf = true) : (s.count f sat).wf = true := by
  unfold State.count; split
  · exact h
  · exact put_wf f _ h

theorem puts_wf : ∀ (l : List (Fld × Nat)) {s : State}, s.wf = true → (s.puts l).wf = true
  | [], _, h => h
  | (f, v) :: l, _, h => puts_wf l (put_wf f v h)

/-- A fold of operations that keep the canonical form keeps it. -/
theorem foldl_wf {β : Type} (f : State → β → State) (hf : ∀ s b, s.wf = true → (f s b).wf = true) :
    ∀ (l : List β) {s : State}, s.wf = true → (l.foldl f s).wf = true
  | [], _, h => h
  | b :: l, _, h => foldl_wf f hf l (hf _ b h)

theorem filterMap_keys_sublist {β : Type} (f : Nat × β → Option (Nat × β)) (hf : ∀ e e', f e = some e' → e'.1 = e.1) :
    ∀ m : List (Nat × β), ((m.filterMap f).map Prod.fst).Sublist (m.map Prod.fst)
  | [] => List.Sublist.refl _
  | e :: m => by
    rw [List.filterMap_cons]
    cases h : f e with
    | none => exact (filterMap_keys_sublist f hf m).cons _
    | some e' => simpa [hf e e' h] using filterMap_keys_sublist f hf m

/-- A register file with fields cleared is canonical, whatever values the image puts back. -/
theorem clearFields_wf (mask : RegRow → List Nat → FieldRow → Nat) (image : List (Nat × Nat)) {s : State} (h : s.wf = true) :
    (clearFields mask image s).wf = true := by
  unfold clearFields
  refine wf_regs h ?_
  have hs := (s.wf_iff.1 h).1
  rw [smWf_iff] at hs
  generalize hk : s.regs.filterMap _ = kept
  have hkept : smWf 0 kept = true := by
    rw [smWf_iff, ← hk]
    refine ⟨hs.1.sublist (filterMap_keys_sublist _ (fun e e' he => ?_) _), fun e he => ?_⟩
    · split at he
      · cases he
      · exact (congrArg Prod.fst (Option.some.inj he)).symm
    · obtain ⟨x, _, hx⟩ := List.mem_filterMap.1 he
      split at hx
      · cases hx
      · next hne => rw [← Option.some.inj hx]; exact hne
  clear hk
  induction image generalizing kept with
  | nil => exact hkept
  | cons e l ih =>
    rw [List.foldl_cons]
    refine ih _ ?_
    split
    · exact hkept
    · exact smWf_smSet 0 _ _ _ hkept

/-! Memories. -/

/-- A stored word of an on-chip memory keeps the canonical form. -/
theorem putWord_wf {s : State} (key : Nat) (w : Coded) (h : s.wf = true) : (putWord s key w).wf = true :=
  wf_onchip h (smWf_smSet 0 _ _ _ (s.wf_iff.1 h).2.2.1) (s.wf_iff.1 h).2.2.2.1

/-- A stored word of an on-chip memory, by its place, keeps the canonical form. -/
theorem storeWord_wf {s : State} (p unit inst addr : Nat) (w : Coded) (h : s.wf = true) : (storeWord s p unit inst addr w).wf = true :=
  putWord_wf _ w h

/-- A stored word leaves due write-backs, wild memories and the banks' turns as they are. -/
@[simp] theorem storeWord_due (s : State) (p unit inst addr : Nat) (w : Coded) : (storeWord s p unit inst addr w).onchip.due = s.onchip.due := rfl
@[simp] theorem storeWord_wild (s : State) (p unit inst addr : Nat) (w : Coded) : (storeWord s p unit inst addr w).onchip.wild = s.onchip.wild := rfl
@[simp] theorem storeWord_banks (s : State) (p unit inst addr : Nat) (w : Coded) : (storeWord s p unit inst addr w).onchip.banks = s.onchip.banks := rfl

/-- A word read back after it is stored. -/
@[simp] theorem storedWord_storeWord_same (s : State) (p unit inst addr : Nat) (w : Coded) :
    storedWord (storeWord s p unit inst addr w) p unit inst addr = w := by
  simp [storedWord, storeWord, wordAt, putWord, wildWord]

/-- Every other byte stands. -/
theorem storeWord_other (s : State) (p unit inst addr k : Nat) (w : Coded) (h : k ≠ byteKey p unit inst addr) :
    smGet 0 (storeWord s p unit inst addr w).onchip.bytes k = smGet 0 s.onchip.bytes k := smGet_smSet_other _ _ _ _ _ h

/-- Bytes written to channel DRAM keep the canonical form. -/
theorem putDram_wf (n : Nat) : ∀ (k off v be : Nat) {s : State}, s.wf = true → (putDram n off v be k s).wf = true
  | 0, _, _, _, _, h => h
  | k + 1, off, v, be, s, h => by
    rw [putDram]
    refine putDram_wf n k _ _ _ ?_
    split
    · exact wf_dram h (smWf_smSet 0 _ _ _ (s.wf_iff.1 h).2.2.2.2.1)
    · exact h

/-- A range of channel DRAM forgotten keeps the canonical form. -/
theorem clearDram_wf (n off len : Nat) {s : State} (h : s.wf = true) : (clearDram n off len s).wf = true :=
  wf_dram h (smWf_filter 0 _ _ (s.wf_iff.1 h).2.2.2.2.1)

/-- A channel's DRAM lost keeps the canonical form. -/
theorem loseDram_wf (n : Nat) {s : State} (h : s.wf = true) : (loseDram n s).wf = true :=
  wf_dram h (smWf_filter 0 _ _ (s.wf_iff.1 h).2.2.2.2.1)

/-- Bytes programmed into the image store keep it canonical. -/
theorem programStore_wf : ∀ (l : List Byte) (off : Nat) (m : List Host.Cell), smWf 0 m = true → smWf 0 (programStore off l m) = true
  | [], _, _, h => h
  | b :: l, off, m, h => by rw [programStore]; exact programStore_wf l _ _ (smWf_smSet 0 _ _ _ h)

/-! Units held by number. -/

theorem setEng_wf {s : State} (g : Nat) (e : Engine) (h : s.wf = true) : (s.setEng g e).wf = true := by
  rw [State.wf_iff] at h ⊢
  exact ⟨h.1, h.2.1, h.2.2.1, h.2.2.2.1, h.2.2.2.2.1, h.2.2.2.2.2.1, smWf_smSet _ _ _ _ h.2.2.2.2.2.2.1, h.2.2.2.2.2.2.2⟩

theorem setChan_wf {s : State} (n : Nat) (c : Channel) (h : s.wf = true) : (s.setChan n c).wf = true := by
  rw [State.wf_iff] at h ⊢
  exact ⟨h.1, h.2.1, h.2.2.1, h.2.2.2.1, h.2.2.2.2.1, h.2.2.2.2.2.1, h.2.2.2.2.2.2.1, smWf_smSet _ _ _ _ h.2.2.2.2.2.2.2.1, h.2.2.2.2.2.2.2.2⟩

theorem setDramc_wf {s : State} (n : Nat) (d : DramCtrl) (h : s.wf = true) : (s.setDramc n d).wf = true := by
  rw [State.wf_iff] at h ⊢
  exact ⟨h.1, h.2.1, h.2.2.1, h.2.2.2.1, h.2.2.2.2.1, h.2.2.2.2.2.1, h.2.2.2.2.2.2.1, h.2.2.2.2.2.2.2.1,
    smWf_smSet _ _ _ _ h.2.2.2.2.2.2.2.2.1, h.2.2.2.2.2.2.2.2.2⟩

theorem setPatina_wf {s : State} (n : Nat) (p : Patina) (h : s.wf = true) : (s.setPatina n p).wf = true := by
  rw [State.wf_iff] at h ⊢
  exact ⟨h.1, h.2.1, h.2.2.1, h.2.2.2.1, h.2.2.2.2.1, h.2.2.2.2.2.1, h.2.2.2.2.2.2.1, h.2.2.2.2.2.2.2.1, h.2.2.2.2.2.2.2.2.1,
    smWf_smSet _ _ _ _ h.2.2.2.2.2.2.2.2.2⟩

/-- A unit read back after it is replaced, and the others. -/
@[simp] theorem eng_setEng_same (s : State) (g : Nat) (e : Engine) : (s.setEng g e).eng g = e := smGet_smSet_same _ _ _ _
theorem eng_setEng_other (s : State) (g h : Nat) (e : Engine) (hg : h ≠ g) : (s.setEng g e).eng h = s.eng h := smGet_smSet_other _ _ _ _ _ hg
@[simp] theorem chan_setChan_same (s : State) (n : Nat) (c : Channel) : (s.setChan n c).chan n = c := smGet_smSet_same _ _ _ _
theorem chan_setChan_other (s : State) (n m : Nat) (c : Channel) (h : m ≠ n) : (s.setChan n c).chan m = s.chan m :=
  smGet_smSet_other _ _ _ _ _ h
@[simp] theorem patina_setPatina_same (s : State) (n : Nat) (p : Patina) : (s.setPatina n p).patina n = p := smGet_smSet_same _ _ _ _
theorem patina_setPatina_other (s : State) (n m : Nat) (p : Patina) (h : m ≠ n) : (s.setPatina n p).patina m = s.patina m :=
  smGet_smSet_other _ _ _ _ _ h

end Sys2Proof.Machine
end

