-- ==== Sys2Proof/Laws/Frames.lean ====
section
/-! SUPPORT. What the shared operations leave as it is: frames composed and widened, writes of fields, units replaced, lines set,
messages sent, causes raised, guarded writes. -/

namespace Sys2Proof.Machine

/-! Frames. -/

theorem Frame.refl (s : State) (cs : List Comp) (fs : List Fld) : Frame cs fs s s := by constructor <;> intros <;> rfl

/-- One frame after another. -/
theorem Frame.trans {cs : List Comp} {fs : List Fld} {s t u : State} (h : Frame cs fs s t) (k : Frame cs fs t u) : Frame cs fs s u where
  regs x hx := (k.regs x hx).trans (h.regs x hx)
  imageVals c := (k.imageVals c).trans (h.imageVals c)
  clocks c := (k.clocks c).trans (h.clocks c)
  fabric c := (k.fabric c).trans (h.fabric c)
  onchip c := (k.onchip c).trans (h.onchip c)
  config c := (k.config c).trans (h.config c)
  noc c := (k.noc c).trans (h.noc c)
  engines c := (k.engines c).trans (h.engines c)
  dram c := (k.dram c).trans (h.dram c)
  channels c := (k.channels c).trans (h.channels c)
  drams c := (k.drams c).trans (h.drams c)
  patinas c := (k.patinas c).trans (h.patinas c)
  security c := (k.security c).trans (h.security c)
  host c := (k.host c).trans (h.host c)
  slots c := (k.slots c).trans (h.slots c)
  wake c := (k.wake c).trans (h.wake c)
  power c := (k.power c).trans (h.power c)
  dbg c := (k.dbg c).trans (h.dbg c)
  lanes c := (k.lanes c).trans (h.lanes c)
  freeCtr c := (k.freeCtr c).trans (h.freeCtr c)
  pending := k.pending.trans h.pending

/-- A frame that names more says less. -/
theorem Frame.mono {cs ds : List Comp} {fs gs : List Fld} {s t : State} (h : Frame cs fs s t) (hc : cs ⊆ ds) (hf : ∀ f ∈ fs, f ∈ gs) :
    Frame ds gs s t where
  regs x hx := h.regs x (fun y => hx (by
    obtain ⟨f, hm, rfl⟩ := List.mem_map.1 y
    exact List.mem_map.2 ⟨f, hf f hm, rfl⟩))
  imageVals c := h.imageVals (fun y => c (hc y))
  clocks c := h.clocks (fun y => c (hc y))
  fabric c := h.fabric (fun y => c (hc y))
  onchip c := h.onchip (fun y => c (hc y))
  config c := h.config (fun y => c (hc y))
  noc c := h.noc (fun y => c (hc y))
  engines c := h.engines (fun y => c (hc y))
  dram c := h.dram (fun y => c (hc y))
  channels c := h.channels (fun y => c (hc y))
  drams c := h.drams (fun y => c (hc y))
  patinas c := h.patinas (fun y => c (hc y))
  security c := h.security (fun y => c (hc y))
  host c := h.host (fun y => c (hc y))
  slots c := h.slots (fun y => c (hc y))
  wake c := h.wake (fun y => c (hc y))
  power c := h.power (fun y => c (hc y))
  dbg c := h.dbg (fun y => c (hc y))
  lanes c := h.lanes (fun y => c (hc y))
  freeCtr c := h.freeCtr (fun y => c (hc y))
  pending := h.pending

theorem Frame.begin {cs : List Comp} {fs : List Fld} {s t : State} (h : Frame cs fs s.begin t) : Frame cs fs s t :=
  ⟨h.regs, h.imageVals, h.clocks, h.fabric, h.onchip, h.config, h.noc, h.engines, h.dram, h.channels, h.drams, h.patinas, h.security,
    h.host, h.slots, h.wake, h.power, h.dbg, h.lanes, h.freeCtr, h.pending⟩

theorem Frame.emit {cs : List Comp} {fs : List Fld} {s t : State} (o : Out) (h : Frame cs fs s t) : Frame cs fs s (t.emit o) :=
  ⟨h.regs, h.imageVals, h.clocks, h.fabric, h.onchip, h.config, h.noc, h.engines, h.dram, h.channels, h.drams, h.patinas, h.security,
    h.host, h.slots, h.wake, h.power, h.dbg, h.lanes, h.freeCtr, h.pending⟩

/-- A frame says that a field it does not name reads as before. -/
theorem Frame.get {cs : List Comp} {fs : List Fld} {s t : State} (h : Frame cs fs s t) (f : Fld) (hf : f.key ∉ fs.map Fld.key) :
    t.get f = s.get f := by simp only [State.get, h.regs _ hf]

/-- A write of a field. -/
theorem frame_put (s : State) (f : Fld) (v : Nat) : Frame [] [f] s (s.put f v) := by
  constructor
  · intro k hk
    exact smGet_smSet_other 0 _ _ _ _ (by simpa using hk)
  all_goals intros; rfl

theorem frame_flag (s : State) (f : Fld) (b : Bool) : Frame [] [f] s (s.flag f b) := frame_put s f _
theorem frame_putBit (s : State) (f : Fld) (i : Nat) (b : Bool) : Frame [] [f] s (s.putBit f i b) := frame_put s f _

theorem frame_count (s : State) (f : Fld) (sat : Bool) : Frame [] [f] s (s.count f sat) := by
  unfold State.count; split
  · exact Frame.refl _ _ _
  · exact frame_put s f _

/-- Several writes. -/
theorem frame_puts : ∀ (l : List (Fld × Nat)) (s : State), Frame [] (l.map Prod.fst) s (s.puts l)
  | [], s => Frame.refl s _ _
  | (f, v) :: l, s =>
    ((frame_put s f v).mono (List.nil_subset _) (by simp)).trans
      ((frame_puts l (s.put f v)).mono (List.nil_subset _) (by intro g hg; exact List.mem_cons_of_mem _ hg))

theorem frame_put64 (s : State) (lo hi : Fld) (v : Nat) : Frame [] [lo, hi] s (s.put64 lo hi v) :=
  ((frame_put s lo _).mono (List.nil_subset _) (by simp)).trans ((frame_put _ hi _).mono (List.nil_subset _) (by simp))

/-! Units. -/

theorem frame_setEng (s : State) (g : Nat) (e : Engine) : Frame [.engines] [] s (s.setEng g e) := by
  constructor <;> intros <;> first | rfl | simp_all
theorem frame_setChan (s : State) (n : Nat) (c : Channel) : Frame [.channels] [] s (s.setChan n c) := by
  constructor <;> intros <;> first | rfl | simp_all
theorem frame_setPatina (s : State) (n : Nat) (p : Patina) : Frame [.patinas] [] s (s.setPatina n p) := by
  constructor <;> intros <;> first | rfl | simp_all
theorem frame_setDramc (s : State) (n : Nat) (d : DramCtrl) : Frame [.drams] [] s (s.setDramc n d) := by
  constructor <;> intros <;> first | rfl | simp_all
theorem frame_storeWord (s : State) (p unit inst addr : Nat) (w : Coded) : Frame [.onchip] [] s (storeWord s p unit inst addr w) := by
  constructor <;> intros <;> first | rfl | simp_all

/-- Only the engine replaced differs. -/
theorem onlyEngine_setEng (s : State) (g : Nat) (e : Engine) : OnlyEngine g s (s.setEng g e) :=
  fun h hg => eng_setEng_other s g h e hg

/-- A free value draws on the counter, and on nothing else. -/
theorem frame_free (s : State) : Frame [.freeCtr] [] s s.free.2 := by constructor <;> intros <;> first | rfl | simp_all

/-! Lines, messages and causes. -/

/-- Lines become pending in the engines of a list, and nothing else differs. -/
theorem frame_setLines (line : Nat) : ∀ (gs : List Nat) (s : State), Frame [] (gs.map ENG_IRQ_PEND_PEND) s (setLines line gs s)
  | [], s => Frame.refl s _ _
  | g :: gs, s =>
    ((frame_putBit s (ENG_IRQ_PEND_PEND g) line true).mono (List.nil_subset _) (by simp)).trans
      ((frame_setLines line gs (setLine s g line)).mono (List.nil_subset _) (by intro f hf; exact List.mem_cons_of_mem _ hf))

theorem setLines_wf (line : Nat) : ∀ (gs : List Nat) {s : State}, s.wf = true → (setLines line gs s).wf = true
  | [], _, h => h
  | _ :: gs, _, h => setLines_wf line gs (putBit_wf _ _ _ h)

/-- A vector adds a pending one, or sends it. -/
theorem sendMsix_cases (s : State) (port vec : Nat) : sendMsix s port vec = s ∨ sendMsix s port vec = s.emit (.msix port vec) ∨
    sendMsix s port vec = { s with host := { s.host with msixPending := setAdd s.host.msixPending (port * 64 + vec) } } := by
  unfold sendMsix; split
  · exact .inl rfl
  · split
    · exact .inr (.inr rfl)
    · exact .inr (.inl rfl)

theorem frame_sendMsix (s : State) (port vec : Nat) : Frame [.host] [] s (sendMsix s port vec) := by
  rcases sendMsix_cases s port vec with h | h | h <;> rw [h]
  · exact Frame.refl _ _ _
  · exact (Frame.refl s _ _).emit _
  · constructor <;> intros <;> first | rfl | simp_all

theorem sendMsix_wf {s : State} (port vec : Nat) (h : s.wf = true) : (sendMsix s port vec).wf = true := by
  rcases sendMsix_cases s port vec with e | e | e <;> rw [e] <;> exact h

theorem sendMsix_alerted (s : State) (port vec : Nat) : Alerted s (sendMsix s port vec) := by
  rcases sendMsix_cases s port vec with e | e | e <;> rw [e] <;> rfl

theorem Alerted.trans {s t u : State} (h : Alerted s t) (k : Alerted t u) : Alerted s u := by
  unfold Alerted at *; rw [k, h]

theorem frame_sendVector (s : State) (b : Nat) : Frame [.host] [] s (sendVector s b) := by
  unfold sendVector sendToPorts
  split <;> split
  · exact (frame_sendMsix s 0 _).trans (frame_sendMsix _ 1 _)
  · exact frame_sendMsix s 0 _
  · exact frame_sendMsix s 1 _
  · exact Frame.refl _ _ _

theorem sendVector_wf {s : State} (b : Nat) (h : s.wf = true) : (sendVector s b).wf = true := by
  unfold sendVector sendToPorts
  split <;> split
  · exact sendMsix_wf 1 _ (sendMsix_wf 0 _ h)
  · exact sendMsix_wf 0 _ h
  · exact sendMsix_wf 1 _ h
  · exact h

theorem sendVector_alerted (s : State) (b : Nat) : Alerted s (sendVector s b) := by
  unfold sendVector sendToPorts
  split <;> split
  · exact (sendMsix_alerted s 0 _).trans (sendMsix_alerted _ 1 _)
  · exact sendMsix_alerted s 0 _
  · exact sendMsix_alerted s 1 _
  · rfl

theorem setLines_host (line : Nat) : ∀ (gs : List Nat) (s : State), (setLines line gs s).host = s.host
  | [], _ => rfl
  | g :: gs, s => (setLines_host line gs (setLine s g line)).trans rfl

/-- The rise of a summary bit touches lines of the hub engines and pending vectors. -/
theorem frame_settleBit (before : Bool) (b : Nat) (s : State) : Frame [.host] alertFlds s (settleBit before b s) := by
  unfold settleBit
  split
  · have h : Frame [.host] alertFlds s (match summaryLine b with | some l => setLines l hubEngines s | none => s) := by
      split
      · exact (frame_setLines _ hubEngines s).mono (List.nil_subset _) (fun _ h => h)
      · exact Frame.refl _ _ _
    have key : ∀ u, Frame [.host] alertFlds s u → Frame [.host] alertFlds s (if u.bit HUB_INT_MASK_MASK b then u else sendVector u b) := by
      intro u hu
      split
      · exact hu
      · exact hu.trans ((frame_sendVector u b).mono (fun _ h => h) (by simp))
    exact key _ h
  · exact Frame.refl _ _ _

theorem settleBit_alerted (before : Bool) (b : Nat) (s : State) : Alerted s (settleBit before b s) := by
  unfold settleBit
  split
  · have h : Alerted s (match summaryLine b with | some l => setLines l hubEngines s | none => s) := by
      split
      · unfold Alerted; rw [setLines_host]
      · rfl
    have key : ∀ u, Alerted s u → Alerted s (if u.bit HUB_INT_MASK_MASK b then u else sendVector u b) := by
      intro u hu
      split
      · exact hu
      · exact hu.trans (sendVector_alerted u b)
    exact key _ h
  · rfl

theorem settleBit_wf (before : Bool) (b : Nat) {s : State} (h : s.wf = true) : (settleBit before b s).wf = true := by
  unfold settleBit
  split
  · have h' : (match summaryLine b with | some l => setLines l hubEngines s | none => s).wf = true := by
      split
      · exact setLines_wf _ _ h
      · exact h
    have key : ∀ u : State, u.wf = true → (if u.bit HUB_INT_MASK_MASK b then u else sendVector u b).wf = true := by
      intro u hu
      split
      · exact hu
      · exact sendVector_wf b hu
    exact key _ h'
  · exact h

/-- A change with what the rise of its summary bit brings: the change's own frame, and an alert's. -/
theorem frame_settled (b : Nat) (f : State → State) (s : State) {cs : List Comp} {fs : List Fld} (h : Frame cs fs s (f s)) :
    Frame (.host :: cs) (fs ++ alertFlds) s (settled b f s) :=
  (h.mono (List.subset_cons_self _ _) (fun _ x => List.mem_append_left _ x)).trans
    ((frame_settleBit _ b _).mono (by simp) (fun _ x => List.mem_append_right _ x))

theorem settled_wf (b : Nat) (f : State → State) {s : State} (h : (f s).wf = true) : (settled b f s).wf = true := settleBit_wf _ b h

/-- A cause is raised: its field is 1, and only what an alert may touch differs beside it. -/
theorem frame_raiseLeaf (b : Nat) (f : Fld) (s : State) : Frame [.host] (f :: alertFlds) s (raiseLeaf b f s) :=
  frame_settled b (fun s => s.flag f true) s (frame_flag s f true)

theorem raiseLeaf_wf (b : Nat) (f : Fld) {s : State} (h : s.wf = true) : (raiseLeaf b f s).wf = true :=
  settled_wf b _ (flag_wf f true h)

theorem raiseLeaf_alerted (b : Nat) (f : Fld) (s : State) : Alerted s (raiseLeaf b f s) :=
  Alerted.trans (t := s.flag f true) rfl (settleBit_alerted _ b _)

/-- The cause raised reads 1. -/
theorem raiseLeaf_on (b : Nat) (f : Fld) (s : State) (hw : f.w = 1) (hk : f.key ∉ alertFlds.map Fld.key) : (raiseLeaf b f s).on f = true := by
  have h := (frame_settleBit (summaryBit s b) b (s.flag f true)).get f hk
  unfold raiseLeaf settled State.on
  rw [h]
  exact on_flag_same s f true hw

/-! Guarded writes. -/

/-- A write that reaches its registers acts and is completed; one that does not ends without an effect. -/
theorem guardedWrite_reach (s : State) (req : Requester) (addr size : Nat) (f : State → State) (h : regGate s req addr size true = .reach) :
    guardedWrite s req addr size f = (f s).emit .done := by simp only [guardedWrite, h]

theorem guardedWrite_silent (s : State) (req : Requester) (addr size : Nat) (f : State → State) (h : regGate s req addr size true = .silent) :
    guardedWrite s req addr size f = s.emit .done := by simp only [guardedWrite, h]

theorem guardedWrite_stop (s : State) (req : Requester) (addr size : Nat) (f : State → State) (o : Out)
    (h : regGate s req addr size true = .stop o) : guardedWrite s req addr size f = s.emit o := by simp only [guardedWrite, h]

theorem guardedWrite_wait (s : State) (req : Requester) (addr size p : Nat) (f : State → State)
    (h : regGate s req addr size true = .wait p) : guardedWrite s req addr size f = (wakePart p s).emit .held := by
  simp only [guardedWrite, h]

@[simp] theorem regGate_begin (s : State) (req : Requester) (addr size : Nat) (write : Bool) :
    regGate s.begin req addr size write = regGate s req addr size write := rfl

/-- The wake of a partition keeps the canonical form. -/
theorem wakePart_wf {s : State} (p : Nat) (h : s.wf = true) : (wakePart p s).wf = true := by
  unfold wakePart
  split
  · exact h
  · exact put_wf _ _ h
  · exact put_wf _ _ h
  · exact h

/-- A guarded write keeps the canonical form where its change does. -/
theorem guardedWrite_wf {s : State} (req : Requester) (addr size : Nat) (f : State → State) (h : s.wf = true)
    (hf : (f s).wf = true) : (guardedWrite s req addr size f).wf = true := by
  unfold guardedWrite
  split
  · exact h
  · exact wakePart_wf _ h
  · exact h
  · exact hf

/-! Writes of registers. -/

theorem writeField_wf {s : State} (r : RegRow) (a : Nat) (ix : List Nat) (f : FieldRow) (v : Nat) (locked : Bool) (h : s.wf = true) :
    (writeField s r a ix f v locked).wf = true := by
  unfold writeField
  generalize f.ref a ix = g
  split
  · exact h
  · cases f.acc
    · exact put_wf g _ h
    · exact h
    · exact put_wf g _ h
    · show (if f.kept == 0 then s else s.put g _).wf = true
      split
      · exact h
      · exact put_wf g _ h
    · exact h
    · exact h
    · show (if locked then s else s.put g _).wf = true
      split
      · exact h
      · exact put_wf g _ h

theorem writeFields_wf (r : RegRow) (a : Nat) (ix : List Nat) (v : Nat) (locked : Bool) :
    ∀ (l : List FieldRow) {s : State}, s.wf = true → (writeFields r a ix v locked l s).wf = true
  | [], _, h => h
  | f :: l, _, h => writeFields_wf r a ix v locked l (writeField_wf r a ix f _ locked h)

/-- A write of a register keeps the canonical form. -/
theorem writeReg_wf {s : State} (a v : Nat) (h : s.wf = true) : (writeReg s a v).wf = true := by
  unfold writeReg
  split
  · exact writeFields_wf _ _ _ _ _ _ h
  · exact h

/-- A transfer that goes on leaves the state as it was. -/
theorem turnOf_go {a : Ask} {s t : State} (h : turnOf a s = (.go, t)) : t = s := by
  unfold turnOf at h
  split at h
  · cases h
  · cases h
  · cases h
  · split at h <;> cases h
    rfl

/-- The same of a transfer with plain memory. -/
theorem plainTurn_go {a : Ask} {s t : State} (h : plainTurn a s = (.go, t)) : t = s := by
  unfold plainTurn at h
  split at h
  · exact turnOf_go h
  · cases h
    rfl

end Sys2Proof.Machine
end

