-- ==== Sys2Proof/Laws/Memories.lean ====
section
/-! SUPPORT. Reads and writes of on-chip memories (R95 to R99): a read of validly coded bytes gives them and changes nothing; every read
and write keeps the canonical form. -/

namespace Sys2Proof.Machine

theorem slagStamp_wf {s : State} (p e syn case : Nat) (h : s.wf = true) : (slagStamp s p e syn case).wf = true := puts_wf _ h

/-- A correctable error logged keeps the canonical form. -/
theorem slagLog_wf {s : State} (p unit inst addr syn case : Nat) (h : s.wf = true) : (slagLog s p unit inst addr syn case).wf = true := by
  unfold slagLog
  split
  · exact slagStamp_wf _ _ _ _ (count_wf _ _ h)
  · split
    · exact raiseLeaf_wf _ _ (putBit_wf _ _ _ (slagStamp_wf _ _ _ _ (puts_wf _ h)))
    · exact raiseLeaf_wf _ _ (count_wf _ _ h)

theorem countCorrection_wf {s : State} (p unit inst addr syn case : Nat) (h : s.wf = true) :
    (countCorrection s p unit inst addr syn case).wf = true := slagLog_wf _ _ _ _ _ _ (count_wf _ _ h)

/-- A channel cause raised keeps the canonical form. -/
theorem raiseCh_wf {s : State} (n : Nat) (f : Fld) (h : s.wf = true) : (raiseCh n f s).wf = true := by
  unfold raiseCh chSettled
  refine settled_wf _ _ ?_
  have key : ∀ (b : Bool) (t : State), t.wf = true → (if b then setLines 23 (crewOf n) t else t).wf = true := by
    intro b t ht
    split
    · exact setLines_wf _ _ ht
    · exact ht
  exact key _ _ (flag_wf f true h)

theorem raiseMemUe_wf {s : State} (p unit : Nat) (h : s.wf = true) : (raiseMemUe s p unit).wf = true := by
  unfold raiseMemUe
  split
  · exact raiseLeaf_wf _ _ h
  · split
    · exact raiseCh_wf _ _ h
    · exact raiseLeaf_wf _ _ h

theorem logUncorrectable_wf {s : State} (p unit inst addr syn : Nat) (h : s.wf = true) : (logUncorrectable s p unit inst addr syn).wf = true :=
  raiseMemUe_wf _ _ (count_wf _ _ (puts_wf _ h))

/-- The state differs in the write-backs that are due: no part of the canonical form. -/
theorem wf_due {s : State} (l : List WriteBack) (h : s.wf = true) : ({ s with onchip := { s.onchip with due := l } } : State).wf = true :=
  wf_onchip h (s.wf_iff.1 h).2.2.1 (s.wf_iff.1 h).2.2.2.1

/-- A checked read keeps the canonical form. -/
theorem checkedRead_wf {s : State} (p unit inst addr : Nat) (rom cw uw : Bool) (h : s.wf = true) :
    (checkedRead s p unit inst addr rom cw uw).2.wf = true := by
  unfold checkedRead
  dsimp only
  split
  · exact h
  · exact logUncorrectable_wf _ _ _ _ _ h
  · split
    · exact countCorrection_wf _ _ _ _ _ _ h
    · split
      · exact h
      · exact wf_due _ h

theorem verdict_zero : verdict 0 = .clean := by decide

/-- A validly coded byte is read as it stands, and the read changes nothing. -/
theorem checkedRead_good (s : State) (p unit inst addr : Nat) (rom cw uw : Bool) (h : syndrome (storedWord s p unit inst addr) = 0) :
    checkedRead s p unit inst addr rom cw uw = (⟨dataOf (storedWord s p unit inst addr), false, false⟩, s) := by
  unfold checkedRead
  generalize storedWord s p unit inst addr = w at h ⊢
  dsimp only
  have hv : verdict (syndrome w) = .clean := by rw [h]; exact verdict_zero
  rw [hv]

theorem readBytes_wf (p unit inst : Nat) (n addr : Nat) {s : State} (h : s.wf = true) : (readBytes s p unit inst addr n).2.2.2.wf = true := by
  induction n generalizing addr s with
  | zero => exact h
  | succ n ih =>
    rw [readBytes]
    exact ih (addr + 1) (checkedRead_wf p unit inst addr false false false h)

/-- Validly coded bytes are read as they stand, and the read changes nothing. -/
theorem readBytes_good (s : State) (p unit inst : Nat) (n addr : Nat) (h : goodBytes s p unit inst addr n) :
    readBytes s p unit inst addr n = (bytesValue s p unit inst addr n, false, false, s) := by
  induction n generalizing addr with
  | zero => rfl
  | succ n ih =>
    have h0 : syndrome (storedWord s p unit inst addr) = 0 := h 0 (Nat.succ_pos n)
    have hr : goodBytes s p unit inst (addr + 1) n := fun k hk => by
      have := h (k + 1) (Nat.succ_lt_succ hk)
      rwa [show addr + (k + 1) = addr + 1 + k by omega] at this
    rw [readBytes, checkedRead_good s p unit inst addr false false false h0, bytesValue]
    dsimp only
    rw [ih (addr + 1) hr]
    rfl

/-- A byte written keeps the canonical form. -/
theorem userStore_wf {s : State} (p unit inst addr : Nat) (d : Byte) (h : s.wf = true) : (userStore s p unit inst addr d).wf = true := by
  unfold userStore
  have h' := storeWord_wf p unit inst addr (encodeByte d) h
  dsimp only
  split
  · exact h'
  · exact countCorrection_wf _ _ _ _ _ _ (wf_due _ h')

/-- Bytes written keep the canonical form. -/
theorem writeBytes_wf (p unit inst : Nat) : ∀ (n addr v be : Nat) {s : State}, s.wf = true → (writeBytes s p unit inst addr v be n).wf = true
  | 0, _, _, _, _, h => h
  | n + 1, addr, v, be, s, h => by
    rw [writeBytes]
    refine writeBytes_wf p unit inst n _ _ _ ?_
    split
    · exact userStore_wf _ _ _ _ _ h
    · exact h

/-- With no write-back due a byte written is stored as it is coded, and nothing else differs. -/
theorem userStore_clear (s : State) (p unit inst addr : Nat) (d : Byte) (h : s.onchip.due = []) :
    userStore s p unit inst addr d = storeWord s p unit inst addr (encodeByte d) := by
  unfold userStore
  simp [h]

/-- The encoder and the checker of the model pass the self-test of R104. -/
theorem checker_passes : checkerSelfTest encodeByte syndrome = true := by decide +kernel

/-- The self-test applies 104 vectors. -/
theorem checker_vectors : (referenceWords.flatMap checkerVectors).length = 104 := by decide

/-- A partition's memories filled keep the canonical form. -/
theorem fillMemories_wf {s : State} (p : Nat) (h : s.wf = true) : (fillMemories s p).wf = true :=
  wf_onchip h (smWf_filter 0 _ _ (s.wf_iff.1 h).2.2.1) (s.wf_iff.1 h).2.2.2.1

/-- A frame's bytes put into configuration memory keep the canonical form. -/
theorem putFrameBytes_wf : ∀ (l : List Byte) (key : Nat) {s : State}, s.wf = true → (putFrameBytes key l s).wf = true
  | [], _, _, h => h
  | b :: l, key, s, h => by
    rw [putFrameBytes]
    refine putFrameBytes_wf l _ ?_
    split
    · next k _ =>
      have h' := putWord_wf k (if b = 0 then 0 else encodeByte b) h
      exact wf_onchip h' (State.wf_iff _ |>.1 h').2.2.1 (smWf_smSet 0 _ _ _ (State.wf_iff _ |>.1 h').2.2.2.1)
    · exact wf_onchip h (s.wf_iff.1 h).2.2.1 (smWf_smSet 0 _ _ _ (s.wf_iff.1 h).2.2.2.1)

end Sys2Proof.Machine
end

