-- ==== Sys2Proof/WellFormed.lean ====
section
/-! DEFINITION. Which commands are well formed: their operands are of the shapes the spec gives a command, where the operand's
type does not say it already. A command that is not well formed still has its outcome in the machine. -/

namespace Sys2Proof

/-- A device address (R19). -/
def addressOk (a : Nat) : Bool := a < 2 ^ 52

/-- The bytes of one access: a power of two up to a line (R22). -/
def sizeOk (n : Nat) : Bool := [1, 2, 4, 8, 16, 32, 64].contains n

/-- No record of a payload carries more data than its header says (R255). -/
def recordsShort (l : List (Word × MemRecord)) : Bool := l.all (fun r => r.2.data.length ≤ r.2.word2.toNat)

/-- A block stands in a column of product-term blocks (R62), and its personality has 96 product terms, six control terms, 24
macrocells and 48 inputs, or fewer where the last do nothing (R63 to R66). -/
def BlockEdge.isWhole (b : BlockEdge) : Bool :=
  b.col.val % 7 != 6 && b.terms.length ≤ 96 && b.ctl.length ≤ 6 && b.cells.length ≤ 24 && b.ins.length ≤ 48

/-- The operands of a command are of the shapes the spec gives it. A Yezar instruction names registers that exist and that are of
the class its row allows, and its fields that the row does not have are zero. -/
def isWellFormed : Instr → Bool
  | .registerWrite _ addr size _ => addressOk addr && sizeOk size
  | .rcRead _ addr => addressOk addr && addr % 4 == 0
  | .lowWordRead _ addr => addressOk addr && addr % 4 == 0
  | .por => true
  | .brownout _ => true
  | .resetNLow _ => true
  | .resetNRise => true
  | .strapSample _ _ _ _ => true
  | .perstAssert _ => true
  | .linkHot _ => true
  | .hubWdtExpiry => true
  | .thermalShutdown => true
  | .rstCtrlWarm _ _ => true
  | .rstCtrlPartition _ _ _ => true
  | .rstCtrlHostLink _ _ _ => true
  | .domainResetRelease _ => true
  | .resetClockWaitTimeout _ => true
  | .checkerSelfTestDone _ _ => true
  | .memoryFillDone _ => true
  | .partitionResetEnd _ => true
  | .clockStable _ => true
  | .clockLost _ => true
  | .aonXtalStable => true
  | .aonXtalTimeout => true
  | .aonXtalDrift => true
  | .timesyncFrameSend => true
  | .timesyncFrameReceive _ => true
  | .timesyncLost => true
  | .freqWrite _ _ _ => true
  | .islandFreqStep _ => true
  | .streamBundleAccept _ _ => true
  | .bundleValueArrive _ => true
  | .islandGate _ _ => true
  | .islandWake _ => true
  | .fabricFence _ ports => ports.Nodup
  | .fabricFenceDone _ => true
  | .userIrq _ _ => true
  | .bankVccioMismatch _ _ => true
  | .bankVccioRestore _ => true
  | .onchipMemoryRead _ _ _ _ _ _ _ _ => true
  | .memoryWriteBack _ _ _ _ _ => true
  | .slagEntryFree _ _ _ => true
  | .fluxStep _ _ _ => true
  | .fluxLate _ => true
  | .cfgScrubFrame _ upsets => upsets.Nodup
  | .checkerTestGo _ _ => true
  | .checkerTestDone _ => true
  | .storeErase _ _ => true
  | .storeWrite _ data _ => data.length ≤ 2 ^ 24
  | .storeCommit _ => true
  | .nvPageScrub _ _ => true
  | .loadHeaderCheck _ _ => true
  | .loadSignaturesDone _ => true
  | .framesRecord _ _ count _ data _ => data.length ≤ 512 * count.toNat
  | .settingRecord _ _ _ _ => true
  | .endRecord _ _ _ _ => true
  | .memRecord _ rec _ => rec.data.length ≤ rec.word2.toNat
  | .loadFinalChecks _ _ _ _ => true
  | .loadRestartAfterReset => true
  | .bamidLoad first second => recordsShort first.records && recordsShort second.records
  | .lockStepDone _ => true
  | .lockStepTimeout _ => true
  | .cfgDoneHigh => true
  | .releaseToken _ => true
  | .releaseReport _ _ => true
  | .hostLoadWrite _ _ _ => true
  | .hostLoadTimeout => true
  | .cfgHloadAbort _ => true
  | .coxLoadTimeout => true
  | .pfAbsentTimeout _ => true
  | .prGo _ _ => true
  | .prAbort _ => true
  | .prFinalChecks _ _ _ _ => true
  | .prFramesWritten _ => true
  | .captureGo _ _ => true
  | .captureSnapshot _ _ => true
  | .captureNoEdge _ _ => true
  | .readbackGo _ _ => true
  | .readbackAbort _ => true
  | .readbackFrameDone _ upsets => upsets.Nodup
  | .rd _ _ _ _ => true
  | .wr _ _ _ _ _ _ _ => true
  | .atom _ _ _ _ _ _ _ => true
  | .rdSh _ _ _ => true
  | .rdOwn _ _ _ => true
  | .cleanEvict _ _ _ => true
  | .dirtyEvict _ _ _ _ => true
  | .rdData _ _ _ _ => true
  | .wrAck _ _ => true
  | .atomData _ _ _ => true
  | .errDecode _ _ => true
  | .errBus _ _ => true
  | .snpRsp _ _ => true
  | .snpRspData _ _ _ => true
  | .cdataS _ _ _ => true
  | .cdataE _ _ _ => true
  | .evictAck _ _ => true
  | .snpInv _ _ => true
  | .snpData _ _ => true
  | .snpCur _ _ => true
  | .binv _ _ => true
  | .mgtWr _ _ _ => true
  | .mgtRd _ _ => true
  | .mgtRsp _ => true
  | .dbgRd _ _ _ => true
  | .dbgRdc _ _ _ => true
  | .dbgWr _ _ _ _ => true
  | .dbgRsp _ _ _ => true
  | .trace _ => true
  | .routerFault _ _ _ _ => true
  | .nocRequestTimeout _ _ => true
  | .nocStall _ _ => true
  | .yAdd _ rd rs rt f => Yz.isDefined (.alu .add rd rs rt f) && Yz.isPlain (.alu .add rd rs rt f)
  | .yAdc _ rd rs rt f => Yz.isDefined (.alu .adc rd rs rt f) && Yz.isPlain (.alu .adc rd rs rt f)
  | .ySub _ rd rs rt f => Yz.isDefined (.alu .sub rd rs rt f) && Yz.isPlain (.alu .sub rd rs rt f)
  | .ySbc _ rd rs rt f => Yz.isDefined (.alu .sbc rd rs rt f) && Yz.isPlain (.alu .sbc rd rs rt f)
  | .yAnd _ rd rs rt f => Yz.isDefined (.alu .and rd rs rt f) && Yz.isPlain (.alu .and rd rs rt f)
  | .yOr _ rd rs rt f => Yz.isDefined (.alu .or rd rs rt f) && Yz.isPlain (.alu .or rd rs rt f)
  | .yXor _ rd rs rt f => Yz.isDefined (.alu .xor rd rs rt f) && Yz.isPlain (.alu .xor rd rs rt f)
  | .yAndn _ rd rs rt f => Yz.isDefined (.alu .andn rd rs rt f) && Yz.isPlain (.alu .andn rd rs rt f)
  | .yShl _ rd rs rt f => Yz.isDefined (.alu .shl rd rs rt f) && Yz.isPlain (.alu .shl rd rs rt f)
  | .yShr _ rd rs rt f => Yz.isDefined (.alu .shr rd rs rt f) && Yz.isPlain (.alu .shr rd rs rt f)
  | .ySra _ rd rs rt f => Yz.isDefined (.alu .sra rd rs rt f) && Yz.isPlain (.alu .sra rd rs rt f)
  | .yRor _ rd rs rt f => Yz.isDefined (.alu .ror rd rs rt f) && Yz.isPlain (.alu .ror rd rs rt f)
  | .yMul _ rd rs rt f => Yz.isDefined (.alu .mul rd rs rt f) && Yz.isPlain (.alu .mul rd rs rt f)
  | .yMulhs _ rd rs rt f => Yz.isDefined (.alu .mulhs rd rs rt f) && Yz.isPlain (.alu .mulhs rd rs rt f)
  | .yMulhu _ rd rs rt f => Yz.isDefined (.alu .mulhu rd rs rt f) && Yz.isPlain (.alu .mulhu rd rs rt f)
  | .yMin _ rd rs rt f => Yz.isDefined (.alu .min rd rs rt f) && Yz.isPlain (.alu .min rd rs rt f)
  | .yMax _ rd rs rt f => Yz.isDefined (.alu .max rd rs rt f) && Yz.isPlain (.alu .max rd rs rt f)
  | .yMinu _ rd rs rt f => Yz.isDefined (.alu .minu rd rs rt f) && Yz.isPlain (.alu .minu rd rs rt f)
  | .yMaxu _ rd rs rt f => Yz.isDefined (.alu .maxu rd rs rt f) && Yz.isPlain (.alu .maxu rd rs rt f)
  | .yClz _ rd rs f => Yz.isDefined (.alu .clz rd rs 0 f) && Yz.isPlain (.alu .clz rd rs 0 f)
  | .yPopc _ rd rs f => Yz.isDefined (.alu .popc rd rs 0 f) && Yz.isPlain (.alu .popc rd rs 0 f)
  | .ySextb _ rd rs f => Yz.isDefined (.alu .sextb rd rs 0 f) && Yz.isPlain (.alu .sextb rd rs 0 f)
  | .ySexth _ rd rs f => Yz.isDefined (.alu .sexth rd rs 0 f) && Yz.isPlain (.alu .sexth rd rs 0 f)
  | .yMov _ rd rs f => Yz.isDefined (.alu .mov rd rs 0 f) && Yz.isPlain (.alu .mov rd rs 0 f)
  | .yCmp _ rs rt f => Yz.isDefined (.alu .cmp 0 rs rt f) && Yz.isPlain (.alu .cmp 0 rs rt f)
  | .yTst _ rs rt f => Yz.isDefined (.alu .tst 0 rs rt f) && Yz.isPlain (.alu .tst 0 rs rt f)
  | .yShli _ rd rs sh f => Yz.isDefined (.shift .shl rd rs sh f) && Yz.isPlain (.shift .shl rd rs sh f)
  | .yShri _ rd rs sh f => Yz.isDefined (.shift .shr rd rs sh f) && Yz.isPlain (.shift .shr rd rs sh f)
  | .ySrai _ rd rs sh f => Yz.isDefined (.shift .sra rd rs sh f) && Yz.isPlain (.shift .sra rd rs sh f)
  | .yRori _ rd rs sh f => Yz.isDefined (.shift .ror rd rs sh f) && Yz.isPlain (.shift .ror rd rs sh f)
  | .yDivinit _ rd rs rt f => Yz.isDefined (.divinit rd rs rt f) && Yz.isPlain (.divinit rd rs rt f)
  | .yDivs _ rd f => Yz.isDefined (.divs rd f) && Yz.isPlain (.divs rd f)
  | .yCsel _ c rd rs rt => Yz.isDefined (.csel c rd rs rt) && Yz.isPlain (.csel c rd rs rt)
  | .yMovi _ rd imm => Yz.isDefined (.movi rd imm) && Yz.isPlain (.movi rd imm)
  | .yMovhi _ rd imm => Yz.isDefined (.movhi rd imm) && Yz.isPlain (.movhi rd imm)
  | .yAddi _ rd rs imm => Yz.isDefined (.imm .addi rd rs imm) && Yz.isPlain (.imm .addi rd rs imm)
  | .yAndi _ rd rs imm => Yz.isDefined (.imm .andi rd rs imm) && Yz.isPlain (.imm .andi rd rs imm)
  | .yOri _ rd rs imm => Yz.isDefined (.imm .ori rd rs imm) && Yz.isPlain (.imm .ori rd rs imm)
  | .yXori _ rd rs imm => Yz.isDefined (.imm .xori rd rs imm) && Yz.isPlain (.imm .xori rd rs imm)
  | .yCmpi _ rs imm => Yz.isDefined (.imm .cmpi 0 rs imm) && Yz.isPlain (.imm .cmpi 0 rs imm)
  | .yCmpui _ rs imm => Yz.isDefined (.imm .cmpui 0 rs imm) && Yz.isPlain (.imm .cmpui 0 rs imm)
  | .yTsti _ rs imm => Yz.isDefined (.imm .tsti 0 rs imm) && Yz.isPlain (.imm .tsti 0 rs imm)
  | .yLdb _ rd rb off => Yz.isDefined (.load .ldb rd rb off) && Yz.isPlain (.load .ldb rd rb off)
  | .yLdbu _ rd rb off => Yz.isDefined (.load .ldbu rd rb off) && Yz.isPlain (.load .ldbu rd rb off)
  | .yLdh _ rd rb off => Yz.isDefined (.load .ldh rd rb off) && Yz.isPlain (.load .ldh rd rb off)
  | .yLdhu _ rd rb off => Yz.isDefined (.load .ldhu rd rb off) && Yz.isPlain (.load .ldhu rd rb off)
  | .yLd _ rd rb off => Yz.isDefined (.load .ld rd rb off) && Yz.isPlain (.load .ld rd rb off)
  | .yLdd _ rd rb off => Yz.isDefined (.load .ldd rd rb off) && Yz.isPlain (.load .ldd rd rb off)
  | .yStb _ rd rb off => Yz.isDefined (.store .stb rd rb off) && Yz.isPlain (.store .stb rd rb off)
  | .ySth _ rd rb off => Yz.isDefined (.store .sth rd rb off) && Yz.isPlain (.store .sth rd rb off)
  | .ySt _ rd rb off => Yz.isDefined (.store .st rd rb off) && Yz.isPlain (.store .st rd rb off)
  | .yStd _ rd rb off => Yz.isDefined (.store .std rd rb off) && Yz.isPlain (.store .std rd rb off)
  | .yLdx _ rd rb wide => Yz.isDefined (.ldx rd rb wide) && Yz.isPlain (.ldx rd rb wide)
  | .yStx _ rd gs rb wide => Yz.isDefined (.stx rd gs rb wide) && Yz.isPlain (.stx rd gs rb wide)
  | .yB _ c off => Yz.isDefined (.b c off) && Yz.isPlain (.b c off)
  | .yBl _ off => Yz.isDefined (.bl off) && Yz.isPlain (.bl off)
  | .yJr _ c rb => Yz.isDefined (.jr c rb) && Yz.isPlain (.jr c rb)
  | .yJlr _ c rb => Yz.isDefined (.jlr c rb) && Yz.isPlain (.jlr c rb)
  | .yRepeat _ count => Yz.isDefined (.repeat count) && Yz.isPlain (.repeat count)
  | .yLoop _ e count => Yz.isDefined (.loop e count) && Yz.isPlain (.loop e count)
  | .yMpy _ a xi yi xu yu lm => Yz.isDefined (.dsp .mpy a xi yi xu yu lm) && Yz.isPlain (.dsp .mpy a xi yi xu yu lm)
  | .yMac _ a xi yi xu yu lm => Yz.isDefined (.dsp .mac a xi yi xu yu lm) && Yz.isPlain (.dsp .mac a xi yi xu yu lm)
  | .yMsu _ a xi yi xu yu lm => Yz.isDefined (.dsp .msu a xi yi xu yu lm) && Yz.isPlain (.dsp .msu a xi yi xu yu lm)
  | .ySqa _ a xi yi xu yu lm => Yz.isDefined (.dsp .sqa a xi yi xu yu lm) && Yz.isPlain (.dsp .sqa a xi yi xu yu lm)
  | .yAccx _ a xi yi xu yu lm => Yz.isDefined (.dsp .accx a xi yi xu yu lm) && Yz.isPlain (.dsp .accx a xi yi xu yu lm)
  | .ySubx _ a xi yi xu yu lm => Yz.isDefined (.dsp .subx a xi yi xu yu lm) && Yz.isPlain (.dsp .subx a xi yi xu yu lm)
  | .yGmpy _ a xi yi xu yu lm => Yz.isDefined (.dsp .gmpy a xi yi xu yu lm) && Yz.isPlain (.dsp .gmpy a xi yi xu yu lm)
  | .yGmac _ a xi yi xu yu lm => Yz.isDefined (.dsp .gmac a xi yi xu yu lm) && Yz.isPlain (.dsp .gmac a xi yi xu yu lm)
  | .yExt _ rd a k sat => Yz.isDefined (.ext rd a k sat) && Yz.isPlain (.ext rd a k sat)
  | .yExstx _ a sat pi u => Yz.isDefined (.exst false a sat pi u) && Yz.isPlain (.exst false a sat pi u)
  | .yExsty _ a sat pi u => Yz.isDefined (.exst true a sat pi u) && Yz.isPlain (.exst true a sat pi u)
  | .yGstx _ a h pi u => Yz.isDefined (.gst false a h pi u) && Yz.isPlain (.gst false a h pi u)
  | .yGsty _ a h pi u => Yz.isDefined (.gst true a h pi u) && Yz.isPlain (.gst true a h pi u)
  | .yMfa _ rd a k => Yz.isDefined (.mfa rd a k) && Yz.isPlain (.mfa rd a k)
  | .yMfah _ rd a => Yz.isDefined (.mfah rd a) && Yz.isPlain (.mfah rd a)
  | .yMta _ a k rs => Yz.isDefined (.mta a k rs) && Yz.isPlain (.mta a k rs)
  | .yMtah _ a rs => Yz.isDefined (.mtah a rs) && Yz.isPlain (.mtah a rs)
  | .yClra _ a => Yz.isDefined (.clra a) && Yz.isPlain (.clra a)
  | .ySha _ a n => Yz.isDefined (.sha a n) && Yz.isPlain (.sha a n)
  | .yNop _ => Yz.isDefined (.nop) && Yz.isPlain (.nop)
  | .yFence _ => Yz.isDefined (.fence) && Yz.isPlain (.fence)
  | .yWait _ => Yz.isDefined (.wait) && Yz.isPlain (.wait)
  | .yClrex _ => Yz.isDefined (.clrex) && Yz.isPlain (.clrex)
  | .yReti _ => Yz.isDefined (.reti) && Yz.isPlain (.reti)
  | .ySvc _ num => Yz.isDefined (.svc num) && Yz.isPlain (.svc num)
  | .yMfc _ rd cn => Yz.isDefined (.mfc rd cn) && Yz.isPlain (.mfc rd cn)
  | .yMtc _ cn rs => Yz.isDefined (.mtc cn rs) && Yz.isPlain (.mtc cn rs)
  | .interruptEntry _ _ => true
  | .featherWake _ => true
  | .crewPortResponse _ _ _ _ => true
  | .crewPortTimeout _ _ => true
  | .engineMemoryOutsideAccess _ _ _ _ _ => true
  | .engineWatchdogBite _ _ => true
  | .engWdtLoad _ _ _ => true
  | .engWdtKick _ _ _ => true
  | .engCtrlRun _ _ _ => true
  | .engCtrlRestart _ _ _ => true
  | .engIrqSet _ _ _ => true
  | .engTmrArm _ _ _ => true
  | .engineTimer _ => true
  | .nandDescriptorPush _ _ _ => true
  | .nandBusGrant _ => true
  | .nandEnd _ => true
  | .nandCmd _ => true
  | .nandAddr _ => true
  | .nandDout _ => true
  | .nandDin _ => true
  | .nandDataPhaseDone _ _ fixes _ _ => fixes.all (fun x => x.flips.Nodup)
  | .nandWaitT _ => true
  | .nandWaitTExpiry _ => true
  | .nandWaitRb _ => true
  | .nandLunReady _ _ => true
  | .nandWaitRbTimeout _ _ => true
  | .nandStatus _ _ => true
  | .nandCtrlEn _ _ _ _ => true
  | .nandCtrlWpRel _ _ _ => true
  | .nandCfgWrite _ _ _ => true
  | .nandResume _ _ _ => true
  | .nandCqRptrWrite _ _ _ => true
  | .ldpcEncode _ => true
  | .ldpcHardDecode _ => true
  | .ldpcSoftDecode2bit _ => true
  | .ldpcSoftDecode3bit _ => true
  | .ldpcJobComplete _ flips _ _ _ _ => flips.Nodup
  | .crcCtxInit _ _ _ _ => true
  | .crcScanGo _ _ _ _ _ => true
  | .crcScanDone _ _ _ => true
  | .crewTqPush _ _ _ => true
  | .crewTqPop _ _ => true
  | .chSwdtKick _ _ _ => true
  | .chSwdtLoad _ _ _ => true
  | .chWdt _ => true
  | .dramCtrlStart _ _ => true
  | .dramAutoStart _ => true
  | .dramInitComplete _ _ _ => true
  | .dramTrainingFailure _ _ _ => true
  | .dramCtrlRefAll _ _ => true
  | .dramRequest _ _ _ => true
  | .dramBurstComplete _ _ _ => true
  | .dramRefreshTick _ _ => true
  | .dramMr4Poll _ _ _ _ => true
  | .dramRowIdleClose _ _ => true
  | .dramRdWindow _ => true
  | .dramSelfRefreshEntry _ => true
  | .dramStateError _ _ => true
  | .dramUnitResetDone _ => true
  | .patinaLineRead _ _ _ _ _ _ _ => true
  | .patinaLineWrite _ _ _ _ _ _ => true
  | .patinaPartialWrite _ _ _ _ _ _ _ _ => true
  | .pageReencryptDone _ _ _ => true
  | .cipherBlockFillDone _ _ => true
  | .patCtrlClear _ _ _ => true
  | .patCtrlRelease _ _ => true
  | .patinaStateError _ => true
  | .patinaUnitResetDone _ => true
  | .trngHealthFail => true
  | .ksLoadTrng _ _ => true
  | .ksLoadData _ _ => true
  | .ksClose _ _ => true
  | .secLockKeys _ => true
  | .secLockRights _ => true
  | .secLockDbg _ => true
  | .secLockDump _ => true
  | .otpProgram _ => true
  | .otpRevoke _ => true
  | .otpRequestDone _ _ _ => true
  | .secGlitch => true
  | .getVersion => true
  | .getCapabilities => true
  | .negotiateAlgorithms => true
  | .getDigests => true
  | .getCertificate _ => true
  | .challenge _ => true
  | .getMeasurements _ _ => true
  | .keyExchange _ => true
  | .finish _ _ => true
  | .endSession _ => true
  | .uzPqsig => true
  | .hostMemRead _ _ _ h _ => addressOk h
  | .hostMemWrite _ _ _ h _ _ _ => addressOk h
  | .hostIoRead _ _ _ _ size => sizeOk size
  | .hostIoWrite _ _ _ _ size _ => sizeOk size
  | .hostConfigRequest _ _ _ _ _ => true
  | .hostAtomicop _ _ _ => true
  | .snpinv _ => true
  | .snpdata _ => true
  | .snpcur _ => true
  | .birsp _ _ _ => true
  | .hostCompletion _ _ _ _ => true
  | .biTimeout _ _ => true
  | .snpTimeout _ _ => true
  | .linkRetrain _ _ _ _ _ _ _ _ _ => true
  | .nvmeSqDoorbell _ _ _ => true
  | .nvmeCommandDispatch _ _ _ => true
  | .nvmeOutWpWrite _ _ _ => true
  | .slotDoorbell _ _ _ => true
  | .slotProgramStart _ _ prog _ => prog.length ≤ 2 ^ 15
  | .slotAbort _ _ => true
  | .slotWatchdogExpiry _ => true
  | .cmdCapLock _ => true
  | .exit _ _ => true
  | .map _ => true
  | .time _ => true
  | .measure _ => true
  | .loadFull _ => true
  | .loadPartial _ => true
  | .captureReadback _ => true
  | .chFirmware _ _ _ records => recordsShort records
  | .chReset _ => true
  | .dramStart _ => true
  | .powerState _ _ _ => true
  | .opSet _ => true
  | .resetCall _ => true
  | .crcRun _ _ => true
  | .hdmSet _ => true
  | .nsMap _ => true
  | .keySlot _ => true
  | .ownerReq _ => true
  | .hubIntMaskWrite _ _ => true
  | .hubSwitchFault => true
  | .channelBridgeFault _ => true
  | .wakeQuiet _ => true
  | .wakeQuietTimeout _ => true
  | .wakeRecoveryDone _ => true
  | .wakeHoldLimit _ _ => true
  | .wakePeekSelect _ _ => true
  | .easyRequest _ _ _ => true
  | .governorIdleEntry _ => true
  | .easyQuiescent _ => true
  | .easyEntryTimeout _ => true
  | .easyEntryComplete _ => true
  | .easyWake _ => true
  | .easyWakeComplete _ _ => true
  | .mooredRequest _ _ _ _ => true
  | .mooredEntryComplete => true
  | .mooredWake _ => true
  | .aonTimerExpiry => true
  | .opTargetWrite _ _ _ => true
  | .avsAck _ => true
  | .avsAckTimeout _ => true
  | .governorTick _ _ _ => true
  | .budgetOver => true
  | .pmbusRead _ _ => true
  | .pmbusAlert => true
  | .telemetryLost => true
  | .telemetryRestored => true
  | .sprintWindowClose => true
  | .sprintCooldownEnd => true
  | .crewClockStep _ => true
  | .wakeNTimeout => true
  | .trstN => true
  | .extest _ => true
  | .samplePreload _ _ => true
  | .idcode _ => true
  | .clamp _ => true
  | .highz _ => true
  | .bypass _ => true
  | .dbgReg _ => true
  | .dbgRegUpdate _ _ _ => true
  | .dbgImg _ => true
  | .dbgImgUpdate _ _ => true
  | .rstOvr _ => true
  | .rstOvrUpdate _ _ => true
  | .dbgRstWarm _ _ => true
  | .dbgRstPartition _ _ _ => true
  | .dbgAccessRead _ _ _ _ => true
  | .dbgAccessConsumeRead _ _ _ _ => true
  | .dbgAccessWrite _ _ _ _ => true
  | .dbgAccessDone _ _ _ => true
  | .engDbgHalt _ _ => true
  | .engineHaltTaken _ _ => true
  | .haltForceTimeout _ => true
  | .engDbgForce _ _ => true
  | .engDbgResume _ _ => true
  | .engDbgStep _ _ _ => true
  | .instructionFeed _ _ _ => true
  | .engDbgPcWrite _ _ _ => true
  | .dbgCrewHalt _ _ => true
  | .dbgCrewResume _ _ => true
  | .dbgIslHalt _ _ _ => true
  | .dbgIslStep _ _ => true
  | .trigIn => true
  | .dbgXtPulse _ _ => true
  | .testLogicReset => true
  | .quadApply _ _ _ _ => true
  | .txeqApply _ _ _ => true
  | .adapt _ _ _ => true
  | .adaptComplete _ _ _ _ _ => true
  | .los _ => true
  | .signalReturn _ => true
  | .cdrLock _ => true
  | .cdrUnlock _ => true
  | .blockLock _ _ => true
  | .laneReset _ _ _ => true
  | .loopbackSelect _ _ _ => true
  | .codewordReceive _ _ _ => true
  | .prbsClr _ _ => true
  | .prbsLock _ => true
  | .prbsLockLost _ _ _ => true
  | .eyeGo _ _ _ => true
  | .eyeDwellDone _ _ => true
  | .laneHtest _ _ => true
  | .smbusReadHubId => true
  | .smbusReadHubRev => true
  | .smbusReadRstCause => true
  | .smbusReadRstStatus => true
  | .smbusReadCfgStatus => true
  | .smbusReadHubIntSummary => true
  | .smbusReadPwrTherm => true
  | .smbusReadPwrTotal => true
  | .smbusReadHubPartFail => true
  | .smbusReadRasCause => true
  | .smbusReadSecCause => true
  | .smbusReadWakeStatus => true
  | .smbusReadPwrMode => true
  | .smbusReadCfgImg => true
  | .smbusReadClkTsLo => true
  | .smbusReadClkTsHi => true
  | .smbusMessage _ _ => true
  | .perstRelease _ => true
  | .railsInRange => true
  | .powerLoss => true
  | .ideKmMessage _ _ _ => true
  | .taskPromoted _ => true
  | .islandCycle _ blocks _ _ _ _ => blocks.blocks.all BlockEdge.isWhole
  | .undefinedInstruction _ _ => true

end Sys2Proof
end

