-- ==== Sys2Proof/Tests/Slice0.lean ====
section
/-! SUPPORT. The model's own tests: ill-formed commands that WellFormed refuses, and states and operands that meet the hypotheses of
the statements, with the effect that the spec gives where it is one field. -/

open Sys2Proof Sys2Proof.Machine

namespace Sys2Proof.Tests

set_option Elab.async false

/-- A device in service: every domain released with a stable clock, no reset in progress, the rails good, Bamid running, and the
first eight sectors configured and running. -/
def up : State :=
  { (State.reset.puts ((List.range 10).map (fun w => (CLK_STABLE_STABLE w, 2 ^ 32 - 1)) ++ [(CFG_STATUS_STATE, 0xA)]
      ++ (List.range 8).map (fun x => (FAB_SEC_STATUS_CONFIGURED (x / 32) (x % 32), 1)))) with
    clocks := { State.reset.clocks with
      released := List.range 308
      busy := []
      wide := 0
      tested := List.range 21
      filled := List.range 21
      pinHeld := false
      rails := true
      alarm := false
      perst := [] }
    power := { State.reset.power with railDue := [] }
    fabric := { State.reset.fabric with
      running := List.range 8
      wrReleased := List.range 8
      gsrReleased := List.range 8 }
    config := { State.reset.config with bamidDue := false }
    host := { State.reset.host with msixOff := [], busMasterOff := [] } }

/-- The state that a command leaves; the state itself where it does not end in one. -/
def after (c : Instr) (s : State) : State :=
  match exec c s with
  | .next t => t
  | _ => s

theorem witness_wf : up.wf = true := by
  rw [State.wf_iff]
  exact ⟨by decide +kernel, rfl, rfl, rfl, rfl, rfl, rfl, rfl, rfl, rfl⟩

/-! ## Witnesses of the statements' hypotheses, with what the spec gives for them -/

theorem witness_EmptyQueueIdlesOneNanosecond :
    up.pending = [] ∧ up.clocks.slew = 0 ∧ (up.onClocks fun c => { c with slew := 3 }).clocks.slew = 3 ∧
    (up.onClocks fun c => { c with slew := -1 }).clocks.slew < 0 := by decide +kernel

theorem test_step_runs_the_front_command :
    step { up with pending := [.clockStable 3, .testLogicReset] } = exec (.clockStable 3) { up with pending := [.testLogicReset] } := by simp only [step]

theorem witness_RegisterWrite_W1C : ordinary 0x030000010000 = true ∧ (rowOf 0x030000010000).isSome = true ∧
    regGate up (.host 0 0) 0x030000010000 4 true = .reach ∧
    (after (.registerWrite (.host 0 0) 0x030000010000 4 0xFFFFFFFF#32) (up.put RST_CAUSE_SOFT 1)).get RST_CAUSE_SOFT = 0 := by decide +kernel

theorem witness_RegisterWrite_RWL : ordinary 0x030000010010 = true ∧ regGate up (.host 0 0) 0x030000010010 4 true = .reach ∧
    (rowOf 0x030000010010).any (fun r => lockedAt (up.put RST_LINK_SCOPE_LOCK 1) r.1 r.2) = true := by decide +kernel

theorem witness_AccessThatDoesNotReachChangesNothing :
    regGate up (.host 0 0) 0x030000000102 4 true = .silent ∧ regGate up (.host 0 0) 0x030000000104 2 false = .silent ∧
    regGate (up.put (SEC_RIGHTS_RD 0) 0) (.host 0 0) 0x030000000104 4 false = .silent ∧
    regGate State.reset (.host 0 0) 0x030000000104 4 true = .stop .decodeError ∧
    regGate (up.onClocks fun c => { c with frozen := [132] }) (.engine 5) 0x020000060004 4 false = .stop .busError ∧
    locate 0x030000000104 = .hub 0x104 ∧ unitStop up 0x030000000104 = none ∧ up.clocks.halted = false ∧
    locate 0x020000060004 = .chan 0 0x60004 ∧ easyHolds up 4 = false := by decide +kernel

theorem witness_ReadsWithEffects_low : locate 0x030000020010 = .hub 0x20010 ∧ isLowWord 0x030000020010 = true ∧
    regGate up (.host 0 0) 0x030000020010 4 false = .reach ∧ isLowWord 0x030000020014 = false ∧ locate 0x030000020014 = .hub 0x20014 ∧
    (after (.lowWordRead (.host 0 0) 0x030000020014) ((after (.lowWordRead (.host 0 0) 0x030000020010)
      (up.onClocks fun c => { c with ts := 0xFFFFFFFF })).onClocks fun c => { c with ts := 2 ^ 32 })).out = [.value 0] := by decide +kernel

/-- A channel with one task in its queue. -/
def oneTask : State := up.setChan 0 { up.chan 0 with tasks := [⟨0x40, 0, 0, none, 0⟩] }

theorem witness_ReadsWithEffects_pop : regGate oneTask (.engine 3) 0x020000060004 4 false = .reach ∧
    nextTask oneTask 0 = some (0, ⟨0x40, 0, 0, none, 0⟩) ∧ (after (.rcRead (.engine 3) 0x020000060004) oneTask).out = [.value 0x40] := by
  decide +kernel

theorem witness_ReadsWithEffects_mask : regGate up (.host 0 0) 0x030000000104 4 true = .reach ∧
    (up.put HUB_INT_MASK_MASK 0xFFFFFFFF).bit HUB_INT_MASK_MASK 21 = true ∧
    summaryBit (up.puts [(SEC_CAUSE_DATA_FAIL, 1), (SEC_MASK_MASK, 0)]) 21 = true ∧ (up.get (INT_VEC_PORT 21)).testBit 0 = true ∧
    msixOn up 0 = true ∧ msixWord { up with host := { up.host with msixTable := [(87, 1)] } } 0 87 % 2 = 0 := by decide +kernel

theorem witness_no_trigger : NoTrigger 7 up := by unfold NoTrigger; decide +kernel

/-- A device in service with the supervisory watchdog of channel 0 loaded. -/
def watched : State := up.put (CH_SWDT_LOAD_LOAD 0) 100

theorem witness_ColdResetsReturnEverythingToColdValues :
    (after (.brownout 1001) (up.onClocks fun c => { c with ts := 9 })).get RST_CAUSE_BROWNOUT = 1 ∧
    (after (.brownout 1001) (up.onClocks fun c => { c with ts := 9 })).clocks.ts = 0 ∧
    (after .thermalShutdown up).out = [.railShutdown] ∧
    (up.onClocks fun c => { c with railWait := true }).clocks.railWait = true ∧ up.clocks.railWait = false := by decide +kernel

theorem witness_WarmResetsKeepWhatTheTablesKeep : hubWatchdogRuns watched = true ∧
    regGate up (.host 0 0) 0x030000010008 4 true = .reach ∧ regGate up .debug 0x0300000B0004 4 true = .reach ∧
    (after (.resetNLow 1000) up).get RST_CAUSE_PIN = 1 ∧ (after (.rstCtrlWarm (.host 0 0) 0xA5#8) up).get RST_CAUSE_SOFT = 1 ∧
    (after (.dbgRstWarm .debug 0xA5#8) up).get RST_CAUSE_DEBUG = 1 ∧ (after .hubWdtExpiry watched).get RST_CAUSE_HUB_WDT = 1 := by
  decide +kernel

theorem witness_WarmResets_retained_dump : retainsDump (up.puts [(SEC_DUMP_REQ, 1), (SEC_LOCK_DUMP, 1)]) false = true ∧
    retainsDump up false = false := by decide +kernel

theorem witness_PartitionResetsReachTheirPartitionOnly : up.clocks.halted = false ∧
    regGate up (.host 0 0) 0x030000010008 4 true = .reach ∧ regGate up .debug 0x0300000B0004 4 true = .reach ∧ swdtRuns watched 0 = true ∧
    (after (.rstCtrlPartition (.host 0 0) 0xA5#8 4#5) up).clocks.busy = [4] ∧ (after (.dbgRstPartition .debug 0xA5#8 20#5) up).clocks.busy = [20] ∧
    (after (.rstCtrlPartition (.host 0 0) 0xA5#8 21#5) up).clocks.busy = [] ∧ (after (.chWdt 0) watched).bit RST_CH_WDT_CH 0 = true := by
  decide +kernel

theorem witness_HostLinkResetsFollowTheLockedScope : up.clocks.perst.contains 1 = false ∧ deviceScope up 1 = false ∧
    regGate up (.host 0 0) 0x030000010008 4 true = .reach ∧ (after (.perstAssert 1) up).get RST_CAUSE_PERST_B = 1 ∧
    (after (.linkHot 1) up).on (HP_CAUSE_LINK_DOWN 1) = true ∧ (after (.rstCtrlHostLink (.host 0 0) 0xA5#8 0) up).get RST_CAUSE_SOFT = 1 ∧
    (after (.perstAssert 1) up).clocks.perst.contains 1 = true ∧ (up.put PWR_MOORED_WAKE_EN 0).bit PWR_MOORED_WAKE_EN 4 = false := by decide +kernel

theorem witness_HostLinkResets_device_scope : deviceScope (up.puts [(RST_LINK_SCOPE_A_DEVICE, 1), (RST_LINK_SCOPE_LOCK, 1)]) 0 = true := by decide +kernel

/-- The always-on domains run, their clocks and those of channel 0 are stable, the rails are good. -/
def rising : State :=
  { State.reset.puts [(CLK_STABLE_STABLE 4, 0x10), (CLK_STABLE_STABLE 5, 0x03100010)] with
    clocks := { State.reset.clocks with rails := true, pinHeld := false }
    power := { State.reset.power with railDue := [] } }

theorem witness_ResetSequenceStepsInOrder_pins : State.reset.clocks.pinHeld = true ∧
    (after .resetNRise State.reset).clocks.strapDue = true ∧
    (after (.strapSample 2 3 true false) (after .resetNRise State.reset)).get RST_STRAP_CLK_RSVD = 1 := by decide +kernel

theorem witness_ResetSequenceStepsInOrder_release : mayRelease rising 132 = true ∧ clkStable rising 133 = false ∧
    State.reset.clocks.rails = false ∧ domainPart 133 = some 5 ∧
    someReleased (after (.domainResetRelease 132) rising) 4 = true ∧ rising.clocks.tested.contains 4 = false ∧
    partFailed (after (.checkerSelfTestDone 4 false) (after (.domainResetRelease 132) rising)) 4 = true := by decide +kernel

theorem witness_ResetSequenceStepsInOrder_ends :
    (after (.checkerSelfTestDone 4 true) (after (.domainResetRelease 132) rising)).clocks.tested.contains 4 = true ∧
    rising.clocks.filled.contains 4 = false ∧ rising.clocks.busy.contains 4 = true ∧
    (after (.memoryFillDone 4) (rising.onClocks fun c => { c with tested := [4] })).clocks.filled.contains 4 = true ∧
    (after (.partitionResetEnd 4) (rising.onClocks fun c => { c with filled := [4] })).clocks.busy.contains 4 = false ∧
    someReleased up 20 = true ∧ (up.onClocks fun c => { c with tested := [] }).clocks.tested.contains 20 = false ∧
    State.reset.security.keyDue = true ∧ clkStable rising 0 = false ∧ rising.clocks.released.contains 0 = false := by decide +kernel

theorem witness_ClockMonitors : clkStable up 7 = true ∧ clkStable up 184 = true ∧
    (after (.clockLost 7) up).clocks.frozen = [7] ∧ (after (.clockLost 148) up).on (CH_CAUSE_CLK_ALARM 0) = true ∧
    (after (.clockLost 179) up).on (CH_CAUSE_CLK_ALARM 15) = true ∧ (after (.clockLost 187) up).clocks.alarm = true ∧
    (after (.clockLost 188) up).bit (LANE_CAUSE 0) 6 = true ∧ (after (.clockLost 307) up).bit (LANE_CAUSE 95) 6 = true := by decide +kernel

theorem witness_ClockMonitors_crystal : (up.put CLK_AON_XTAL_OK 0).on CLK_AON_XTAL_OK = false ∧ (up.put CLK_AON_XTAL_OK 1).on CLK_AON_XTAL_OK = true ∧
    (after .aonXtalDrift (up.put CLK_AON_XTAL_OK 1)).on RAS_CAUSE_AON_XTAL = true := by decide +kernel

/-- A follower of TIMESYNC whose count is `ts`. -/
def follower (ts : Nat) (seen : Bool) : State :=
  (up.put CLK_TS_CTRL_MODE 2).onClocks fun c => { c with ts := ts, firstFrame := seen, missed := 3 }

theorem witness_Timesync : (follower 0x100000 true).get CLK_TS_CTRL_MODE = 2 ∧ (follower 0x100000 true).clocks.ts % 2 ^ 20 = 0 ∧
    (after .timesyncFrameSend (follower 0x100000 true)).out = [.timesync 0x100000] ∧
    (after (.timesyncFrameReceive 100) (follower 90 false)).clocks.ts = 100 ∧ (after (.timesyncFrameReceive 100) (follower 90 true)).clocks.slew = 10 ∧
    (after (.timesyncFrameReceive 100) (follower 110 false)).clocks.slew = -20 ∧
    (after (.timesyncFrameReceive 100) (follower 88 true)).on CLK_TS_CTRL_LOCKED = true ∧
    (after (.timesyncFrameReceive 100) (follower 87 true)).on CLK_TS_CTRL_LOCKED = false ∧
    (after .timesyncLost (follower 0 true)).on RAS_CAUSE_TS_LOST = true ∧ up.clocks.missed < 3 := by decide +kernel

theorem witness_IslandFrequency : regGate up (.host 0 0) (0x030000021000 + 5 * 4) 4 true = .reach ∧ leaderOf up 5 = 5 ∧
    leaderOf (up.put (CLK_ISL_FUSE 7) 1) 7 = 6 ∧
    islandRuns (after (.islandFreqStep 5) (after (.freqWrite (.host 0 0) 5 20) up)) 5 = 6 ∧
    (after (.freqWrite (.host 0 0) 5 20) up).get (CLK_ISL_FREQ 5) = 20 := by decide +kernel

/-- A streaming bundle 1 and a state bundle 2 between sectors 0 and `dst`, with `n` values in transit. -/
def crossing (dst n : Nat) : State :=
  up.onClocks fun c => { c with bundles := [(1, ⟨0, 0, dst, 0, true, 8, 0, 0, List.replicate n 7, 0, none⟩), (2, ⟨0, 1, dst, 1, false, 8, 0, 0, List.replicate n 7, 0, none⟩)] }

theorem witness_Bundles : (up.clocks.bundles.find? (·.1 == 1)).isNone = true ∧ ((crossing 1 4).clocks.bundles.find? (·.1 == 1)).isSome = true ∧
    sectorUp (crossing 1 4) 0 = true ∧ edgeReaches (crossing 1 4) 0 = true ∧ sectorUp (crossing 1 4) 1 = true ∧ sectorUp (crossing 9 4) 9 = false ∧
    (after (.streamBundleAccept 1 5) (crossing 1 3)).out = [.accepted true] ∧ (after (.streamBundleAccept 1 5) (crossing 1 4)).out = [.accepted false] ∧
    (after (.streamBundleAccept 1 5) (crossing 9 4)).out = [.accepted false] ∧
    (after (.streamBundleAccept 1 5) ((crossing 1 4).onClocks (fun c => { c with released := c.released.filter (· ≠ 1) }))).out = [.accepted true] ∧ (after (.bundleValueArrive 2) (crossing 1 1)).out = [.present 2 7] ∧
    (after (.bundleValueArrive 2) (crossing 9 1)).out = [] := by decide +kernel

/-- The state bundle towards sector 1, which island_gate holds, with bit 2 of it as a wake bit. -/
def gatedCrossing : State :=
  { after (.islandGate 1 true) (crossing 1 1) with fabric := { (after (.islandGate 1 true) (crossing 1 1)).fabric with wakeBits := [(2, 2)] } }

theorem witness_Bundles_wake : sectorUp gatedCrossing 1 = true ∧ edgeReaches gatedCrossing 1 = false ∧ wakesOnRise gatedCrossing 2 0 7 = true ∧
    (after (.bundleValueArrive 2) gatedCrossing).on (FAB_SEC_STATUS_GATED_USER 0 1) = false ∧
    (after (.islandCycle 1 ⟨[], [], []⟩ [] [] [] []) (after (.bundleValueArrive 2) gatedCrossing)).out = [.present 2 7] := by decide +kernel

theorem witness_IslandControls : edgeReaches up 3 = true ∧ sectorHeld up (leaderOf up 3) = false ∧ up.fabric.unarmed.contains (leaderOf up 3) = false ∧
    up.fabric.fences = [] ∧ edgeReaches (after (.islandGate 3 true) up) 3 = false ∧
    (after (.islandWake 3) (after (.islandGate 3 true) up)).fabric.unarmed.contains 3 = true ∧
    (after (.islandGate 3 false) (after (.islandWake 3) (after (.islandGate 3 true) up))).fabric.unarmed.contains 3 = false ∧
    (after (.fabricFenceDone 3) (after (.fabricFence 3 [3]) up)).out = [.fenceDone 3 false] := by decide +kernel

theorem witness_IslandControls_more : sectorHeld up 3 = false ∧ (up.put (PWR_PART_STATE 0) 2).get (PWR_PART_STATE (3 / 32)) = 2 ∧
    (after (.islandWake 3) (up.put (PWR_PART_STATE 0) 2)).get (PWR_PART_STATE 0) = 3 ∧
    (after (.userIrq 3 4) up).get (FAB_SEC_CAUSE_USER 0 3) = 4 ∧
    (up.put (FAB_BANK_STATUS_VCCIO_IMG 3 2) 3).get (FAB_BANK_STATUS_VCCIO_IMG (11 / 3) (11 % 3)) = 3 ∧
    (up.put (FAB_BANK_STATUS_VCCIO_IMG 3 2) 3).on (FAB_BANK_STATUS_MISMATCH 3 2) = false ∧
    (after (.bankVccioRestore 11) (after (.bankVccioMismatch 11 1) (up.put (FAB_BANK_STATUS_VCCIO_IMG 3 2) 3))).get (FAB_BANK_STATUS_VCCIO_DET 3 2) = 3 ∧
    (after (.bankVccioMismatch 11 1) (up.put (FAB_BANK_STATUS_VCCIO_IMG 3 2) 3)).on (FAB_BANK_STATUS_MISMATCH 3 2) = true := by decide +kernel

/-- The first length-4 segment to the east from the north-west tile of sector `x`. -/
def wire (x : Sec) : Seg := ⟨x, 0, 0, .four .east 0⟩

/-- A block of sector `x` with one macrocell in toggle mode, fed by input 0, which takes that segment; its input 1 takes the
macrocell's register back. -/
def toggler (x : Sec) : BlockEdge :=
  { sec := x, col := 0, row := 0, terms := [⟨true, 1, 0, 1⟩], ctl := [], cells := [⟨.t, false, 0, 0, 0, false, false, false⟩], cin := .zero, ins := .seg (wire x) :: List.replicate 47 (.own 0 true) }

/-- The block with a segment at level 1. -/
def toggling (x : Sec) : Logic := ⟨[toggler x], [⟨wire x, .port true⟩], []⟩

/-- A MAC block of sector `x` that accumulates 3 × −4. -/
def mac (x : Sec) (clr load : Bool) : MacEdge :=
  { sec := x, idx := 47, aSigned := true, bSigned := true, regIn := false, regProd := false, regOut := true, ce := true,
    inp := ⟨3, -4, 9, .acc, false, load, clr⟩ }

theorem witness_IslandCycle : edgeReaches up 3 = true ∧ leaderOf up (toggler 3).sec = leaderOf up 3 ∧ (toggler 3).cells.length ≤ 24 ∧ (toggler 3).col.val % 7 ≠ 6 ∧ (network up (toggling 3) [] []).tab.length = 1 ∧
    (blockInputs (network up (toggling 3) [] []) (toggler 3)).getLsbD 0 = true ∧ (blockInputs (network up (toggling 3) [] []) (toggler 3)).getLsbD 1 = false ∧
    gsrAsserted up 3 = false ∧ gsrAsserted State.reset 3 = true ∧ edgeReaches State.reset 3 = false ∧
    leaderOf up (toggler 4).sec ≠ leaderOf up 3 ∧
    (smGet {} (after (.islandCycle 3 ⟨[], [], []⟩ [mac 3 false false] [] [] []) up).fabric.macs (3 * 48 + 47)).p = -12 ∧
    (smGet {} (after (.islandCycle 3 ⟨[], [], []⟩ [mac 3 false true] [] [] []) up).fabric.macs (3 * 48 + 47)).p = 9 ∧
    (after (.islandCycle 3 (toggling 3) [] [] [] []) up).fabric.cells.length = 1 ∧
    (after (.islandCycle 3 (toggling 4) [mac 4 false true] [] [] []) up).fabric.cells = [] := by decide +kernel

theorem witness_IslandCycle_memory : up.fabric.wrReleased.contains 3 = true ∧
    storedWord (after (.islandCycle 3 ⟨[], [], []⟩ [] [⟨3, 103, .single, 0, false, false, ⟨false, 1, 5, 0xA5⟩, ⟨false, 0, 0, 0⟩⟩] [] []) up) 0 3 103 5 = encodeByte 0xA5 := by decide +kernel

/-- Byte 5 of Ingot 7 of sector 3 on die 0 holds `w`. -/
def stored (w : Coded) : State := storeWord up 0 3 7 5 w

theorem witness_MemoryReads : 5 < memSize 0 3 7 ∧ storedWord (stored (encodeByte 0xA5)) 0 3 7 5 = encodeByte 0xA5 ∧
    noWriteBack up 0 3 false false false = none ∧ noWriteBack up 0 3 true false false ≠ none ∧ up.get (RAS_CE_COUNT_COUNT 0) + 1 < 2 ^ 32 ∧
    (after (.onchipMemoryRead 0 3 7 5 0x1000 false false none) (stored (encodeByte 0xA5))).out.getLast? = some (.memByte 0xA5 false) ∧
    (after (.onchipMemoryRead 0 3 7 5 0x1000 false false none) (stored (encodeByte 0xA5))).onchip.due.length = 1 ∧
    (after (.onchipMemoryRead 0 3 7 5 0x1001 false false none) (stored (encodeByte 0xA5))).get (RAS_UE_LOG_ADDR 0) = 5 ∧
    (after (.onchipMemoryRead 0 3 7 5 0x1 true false none) (stored (encodeByte 0xA5))).get (RAS_CE_COUNT_COUNT 0) = 1 := by decide +kernel

theorem witness_WriteBack : memoryEdge up 0 3 = true ∧
    ((after (.onchipMemoryRead 0 3 7 5 0x10 false false none) (stored (encodeByte 0xA5))).onchip.due.find? (·.isAt 0 3 7 5)).isSome = true ∧
    storedWord (after (.memoryWriteBack 0 3 7 5 none) (after (.onchipMemoryRead 0 3 7 5 0x10 false false none) (stored (encodeByte 0xA5)))) 0 3 7 5 =
      encodeByte 0xA5 ∧
    storedWord (after (.memoryWriteBack 0 3 7 5 (some 1)) (after (.onchipMemoryRead 0 3 7 5 0x10 false false none) (stored (encodeByte 0xA5)))) 0 3 7 5 =
      encodeByte 1 ∧ noWriteBack (after (.checkerTestGo (.engine 1024) 0) up) 0 3 false false false = some 4 := by decide +kernel

theorem witness_MemoryWatchers : regGate up (.host 0 0) (0x0300000D0400 + 20 * 4) 4 true = .reach ∧ fluxActive up 0 = true ∧ scrubs up 3 = true ∧
    up.onchip.bytes = [] ∧ up.onchip.frames = [] ∧ up.get RAS_CFG_CE_COUNT + 1 < 2 ^ 32 ∧ regGate up (.host 0 0) 0x0300000D0010 4 true = .reach ∧
    up.on RAS_CHK_TEST_BUSY = false ∧ (up.put RAS_CHK_TEST_BUSY 1).on RAS_CHK_TEST_BUSY = true ∧ runs up 180 = true ∧ up.power.moored = false ∧ up.onchip.wild = [] ∧ isTestable up 20 0 = true ∧ isTestable (up.onClocks (fun c => { c with released := [] })) 20 0 = false ∧
    up.get CFG_NV_STATUS_UE_PAGES + 1 < 2 ^ CFG_NV_STATUS_UE_PAGES.w ∧ encodeByte 0 = 0 := by decide +kernel

theorem test_watchers : (after (.slagEntryFree (.host 0 0) 2 0x80000000) (up.put (RAS_SLAG_VALID_VALID 2) 0xC0000000)).get (RAS_SLAG_VALID_VALID 2) = 0x40000000 ∧
    (after (.fluxStep 0 [] []) { up with onchip := { up.onchip with fluxSteps := [(0, 8191)] } }).get (RAS_FLUX_STATUS_PASSES 0) = 1 ∧
    (after (.cfgScrubFrame 3 [(511, 0x1000)]) { up with onchip := { up.onchip with scrubPos := [(3, 10495)] } }).get RAS_CFG_CE_COUNT = 1 ∧
    (after (.cfgScrubFrame 3 []) { up with onchip := { up.onchip with scrubPos := [(3, 10495)] } }).onchip.scrubPos = [] ∧
    (after (.checkerTestGo (.host 0 0) 20) up).on RAS_CHK_TEST_BUSY = true ∧ (after (.checkerTestGo (.host 0 0) 21) up).on RAS_CHK_TEST_BUSY = false ∧
    (after (.nvPageScrub (7, 41) false) up).on CFG_CAUSE_NV_UE = true ∧ (after (.nvPageScrub (7, 40) false) up).on CFG_CAUSE_NV_UE = false := by decide +kernel

/-- R283, R99: Patina's tree memory of channel 0 is instance 0 of unit 68, 512 KiB; two bits upset in a byte raise the channel's
cause, and the fill that ends a partition reset of the channel leaves the byte as it is. -/
theorem witness_TreeMemoryReads : 524287 < memSize 4 treeUnit 0 ∧ memSize 4 treeUnit 0 ≤ 524288 ∧ storedWord up 4 treeUnit 0 524287 = encodeByte 0 ∧
    noWriteBack up 4 treeUnit false false false = none ∧ up.onchip.due = [] ∧
    (after (.onchipMemoryRead 4 68 0 524287 3 false false none) up).on (CH_CAUSE_MEM_UE 0) = true ∧
    storedWord (fillMemories (after (.onchipMemoryRead 4 68 0 524287 3 false false none) up) 4) 4 treeUnit 0 524287 = 3 ∧
    storedWord (fillTrees (after (.onchipMemoryRead 4 68 0 524287 3 false false none) up)) 4 treeUnit 0 524287 = 0 := by decide +kernel

/-- The first 8 KiB of a full image for die 0 with one frame, whose signature block names owner slot 3 and whose key block asks for no
unwrapping beyond the owner image key: each field at its offset (R114, R115, R118). -/
def headNum : Nat :=
  0x474D493944585A55 + 2 ^ (8 * 0x08) + 2 * 2 ^ (8 * 0x0A) + (up.get HUB_ID_DEVICE * 2 ^ 16 + 0x40) * 2 ^ (8 * 0x0C) + 2 ^ (8 * 0x10)
    + 2 ^ (8 * 0x11) + 0x220 * 2 ^ (8 * 0x14) + 2 ^ (8 * 0x18) + 3 * 2 ^ (8 * 0x300) + 2 ^ (8 * 0x1800)

/-- The header that they hold. -/
def header : ImgHeader :=
  ⟨0x474D493944585A55, 1, 2, BitVec.ofNat 32 (up.get HUB_ID_DEVICE * 2 ^ 16 + 0x40), 1, 1, 0, 0x220, 1, 0, 3, ⟨0, 0, 0, 0, 0, 0, 0, 0, 0, []⟩, false⟩

theorem test_header : parseHeader headNum = header := by decide +kernel

/-- FIPS 180-4's example of SHA-512, of the bytes 61h 62h 63h, and FIPS 202's of SHAKE256 of no bytes, as numbers. -/
theorem test_digests : sha512 3 0x636261 = 0x9fa44ca54fc99a2a0ee83c6423444d45bdebfea3233cba36a8c14f272a9992219ad3554be6ee9e0aa27ea9894efae612314120ae497341ccba7a6193a135afdd ∧
    shake256 0 0 = 0xbec4b7b3ac2e294086b49a47491c82fcf692b5679d0105cb00f2c0d8ddc45dd72f76d56e64270cb5821bb862ea52cd3f24eb3e74eb3f3b23138da80b2bddb946 := by decide +kernel

/-- A full load from the host bus in state `st` whose stream has brought `n` bytes. -/
def loading (st : Nat) (l : Load) (n : Nat := 0x4000) : State :=
  (up.puts [(CFG_STATUS_STATE, st), (SEC_OWNER_PROGRAMMED 3, 1), (HUB_REV_GRADE, 3)]).onConfig fun c =>
    { c with load := some l, stream := ⟨n, headNum⟩ }

/-- The load before and after its header, at step `k`. -/
def fresh : Load := { src := 3, isPart := false }
def full (k : Nat) : Load := { src := 3, isPart := false, phase := k, kind := 1, dies := 1, owner := 3, frameCount := 1, payloadLen := 0x220, head := headNum }

theorem witness_FullLoad_header : headerCause (loading 2 fresh) fresh header = none ∧
    headerCause (loading 2 fresh) fresh { header with kind := 3 } = some 0x05 ∧ { header with verMajor := 2 }.verMajor ≠ 1#16 ∧
    slotEmpty (loading 2 fresh) fresh = false ∧ slotEmpty up { src := 1, isPart := false } = true ∧
    slotEmpty (up.put (CFG_NV_LEN_LEN 0) 0x2220) { src := 1, isPart := false, inStore := true } = false ∧
    (loading 2 fresh).config.next = none ∧ (loading 2 fresh).get CFG_PR_STATUS_PHASE ≠ 3 ∧
    (after (.loadHeaderCheck 0 .good) (loading 2 fresh)).get CFG_STATUS_STATE = 3 ∧
    (after (.loadHeaderCheck 0 .good) (loading 2 fresh 0x1FFF)).get CFG_STATUS_STATE = 2 ∧
    (after (.loadHeaderCheck 0 (.badPage 9)) (loading 2 { src := 1, isPart := false, inStore := true })).get CFG_FAIL_A = 6 := by decide +kernel

/-- The parts of a number in mixed radix. -/
theorem digits {L a b R P Q : Nat} (hL : L < P) (ha : a < Q) (hb : b < Q) :
    (L + P * (a + Q * (b + Q * R))) % P = L ∧ (L + P * (a + Q * (b + Q * R))) / P % Q = a ∧
      (L + P * (a + Q * (b + Q * R))) / (P * Q) % Q = b ∧ (L + P * (a + Q * (b + Q * R))) / (P * Q * Q) = R := by
  have hP : 0 < P := by omega
  have hQ : 0 < Q := by omega
  have h1 : (L + P * (a + Q * (b + Q * R))) / P = a + Q * (b + Q * R) := by
    rw [Nat.add_mul_div_left _ _ hP, Nat.div_eq_of_lt hL, Nat.zero_add]
  have h2 : (a + Q * (b + Q * R)) / Q = b + Q * R := by
    rw [Nat.add_mul_div_left _ _ hQ, Nat.div_eq_of_lt ha, Nat.zero_add]
  have h3 : (b + Q * R) / Q = R := by
    rw [Nat.add_mul_div_left _ _ hQ, Nat.div_eq_of_lt hb, Nat.zero_add]
  refine ⟨?_, ?_, ?_, ?_⟩
  · rw [Nat.add_mul_mod_self_left, Nat.mod_eq_of_lt hL]
  · rw [h1, Nat.add_mul_mod_self_left, Nat.mod_eq_of_lt ha]
  · rw [← Nat.div_div_eq_div_mul, h1, h2, Nat.add_mul_mod_self_left, Nat.mod_eq_of_lt hb]
  · rw [← Nat.div_div_eq_div_mul, ← Nat.div_div_eq_div_mul, h1, h2, h3]

/-- The first 8 KiB of an image with `l` up to the manifest, the two digests of the header area there, and `r` behind them. -/
def image (l r a b : Nat) : Nat := l + 2 ^ (8 * 256) * (a + 2 ^ (8 * 64) * (b + 2 ^ (8 * 64) * r))

/-- What `headNum` holds behind the manifest's first two digests. -/
def rest : Nat := 3 * 2 ^ (8 * 0x180) + 2 ^ (8 * 0x1680)

theorem headNum_eq : headNum = image (headNum % 2 ^ (8 * 256)) rest 0 0 := by decide +kernel

theorem upper {l r a b : Nat} (hl : l < 2 ^ (8 * 256)) (ha : a < 2 ^ (8 * 64)) (hb : b < 2 ^ (8 * 64)) (o n : Nat) :
    headField (image l r a b) (384 + o) n = headField r o n := by
  have e : 2 ^ (8 * (384 + o)) = 2 ^ (8 * 256) * 2 ^ (8 * 64) * 2 ^ (8 * 64) * 2 ^ (8 * o) := by
    rw [← pow_add, ← pow_add, ← pow_add]
    congr 1
    omega
  rw [headField, headField, slice, slice, Nat.shiftRight_eq_div_pow, Nat.shiftRight_eq_div_pow, e, ← Nat.div_div_eq_div_mul]
  rw [show image l r a b / (2 ^ (8 * 256) * 2 ^ (8 * 64) * 2 ^ (8 * 64)) = r from (digits hl ha hb).2.2.2]

theorem lower {l r a b : Nat} (hl : l < 2 ^ (8 * 256)) (ha : a < 2 ^ (8 * 64)) (hb : b < 2 ^ (8 * 64)) :
    headField (image l r a b) 0 256 = l := by
  rw [headField, slice, Nat.shiftRight_eq_div_pow, Nat.mul_zero, Nat.pow_zero, Nat.div_one]
  exact (digits hl ha hb).1

/-- Digests that make the header area's check hold (R117), whatever stands around them. -/
theorem digests_exist (l r : Nat) (hl : l < 2 ^ (8 * 256)) :
    ∃ a < 2 ^ (8 * 64), ∃ b < 2 ^ (8 * 64), headerDigestsGood (image l r a b) = true := by
  have area (a b : Nat) (ha : a < 2 ^ (8 * 64)) (hb : b < 2 ^ (8 * 64)) : headerArea (image l r a b) = headerArea (image l r 0 0) := by
    unfold headerArea
    rw [lower hl ha hb, lower hl (Nat.two_pow_pos _) (Nat.two_pow_pos _), show (0x1800 : Nat) = 384 + 5760 from rfl,
      upper hl ha hb, upper hl (Nat.two_pow_pos _) (Nat.two_pow_pos _)]
  have hs : sha512 2304 (headerArea (image l r 0 0)) < 2 ^ (8 * 64) := by rw [sha512]; exact Nat.mod_lt _ (Nat.two_pow_pos _)
  have hk : shake256 2304 (headerArea (image l r 0 0)) < 2 ^ (8 * 64) := by rw [shake256]; exact Nat.mod_lt _ (Nat.two_pow_pos _)
  refine ⟨_, hs, _, hk, ?_⟩
  obtain ⟨-, h2, h3, -⟩ := digits (R := r) hl hs hk
  have e : 2 ^ (8 * 0x140) = 2 ^ (8 * 256) * 2 ^ (8 * 64) := by rw [← pow_add]
  unfold headerDigestsGood
  rw [area _ _ hs hk, Bool.and_eq_true, beq_iff_eq, beq_iff_eq, headField, headField, slice, slice, Nat.shiftRight_eq_div_pow,
    Nat.shiftRight_eq_div_pow, e]
  exact ⟨h2, h3⟩

/-- The loader at step 2 with an image whose keys' digest owner slot 3 holds, but for `off` (R118). -/
def signed (s : State) (head off : Nat) : State :=
  { s with config := { s.config with load := some { full 3 with head := head } }, security := { s.security with digests := [(3, keyDigest head + off)] } }

theorem signed_on (s : State) (head off : Nat) (f : Fld) : (signed s head off).on f = s.on f := rfl

theorem signed_causes (s : State) (head : Nat) (hp : s.on (SEC_OWNER_PROGRAMMED 3) = true) (hr : s.on (SEC_OWNER_REVOKED 3) = false)
    (ho : headField head 0x300 1 = 3) (hw : headField head 0x1800 1 = 1) (hd : headerDigestsGood head = true) :
    signatureCause (signed s head 0) head ⟨true, true, true⟩ = none ∧ signatureCause (signed s head 1) head ⟨true, true, true⟩ = some 0x08 ∧
      signatureCause (signed s head 0) head ⟨true, false, true⟩ = some 0x0A := by
  have hk (off : Nat) : smGet 0 (signed s head off).security.digests 3 = keyDigest head + off := rfl
  simp [signatureCause, ho, hk, hw, hd, signed_on, hp, hr]

theorem witness_FullLoad_signatures : (∃ head, signatureCause (signed (loading 3 (full 3)) head 0) head ⟨true, true, true⟩ = none ∧
      signatureCause (signed (loading 3 (full 3)) head 1) head ⟨true, true, true⟩ = some 0x08 ∧
      signatureCause (signed (loading 3 (full 3)) head 0) head ⟨true, false, true⟩ = some 0x0A) ∧
    headField headNum 0x300 1 = 3 ∧ (loading 3 (full 3)).on (SEC_OWNER_PROGRAMMED 2) = false ∧
    ((loading 3 (full 3)).put (SEC_OWNER_REVOKED 3) 1).on (SEC_OWNER_REVOKED 3) = true := by
  refine ⟨?_, by decide +kernel⟩
  have hl : headNum % 2 ^ (8 * 256) < 2 ^ (8 * 256) := Nat.mod_lt _ (Nat.two_pow_pos _)
  obtain ⟨a, ha, b, hb, hd⟩ := digests_exist (headNum % 2 ^ (8 * 256)) rest hl
  refine ⟨image (headNum % 2 ^ (8 * 256)) rest a b, signed_causes _ _ (by decide +kernel) (by decide +kernel) ?_ ?_ hd⟩
  · rw [show (0x300 : Nat) = 384 + 384 from rfl, upper hl ha hb]
    decide +kernel
  · rw [show (0x1800 : Nat) = 384 + 5760 from rfl, upper hl ha hb]
    decide +kernel

theorem witness_FullLoad_records : (full 4).total = none ∧ badFrames 1 0x06000800 1 0 1 = false ∧
    badFrames 1 0x06000801 1 0 1 = true ∧ badFrames 1 0x07FFF800 0 0 1 = true ∧ partFailed (loading 4 (full 4)) (addrSector 0x06000800 / 32) = false ∧
    (full 4).settings.length < 64 ∧ imageFields (0x030000000000 + 0x21000) 0 ≠ [] ∧ bamidRecordGood ⟨0, 4, 0x300, [1, 2, 3, 4]⟩ = true ∧
    (loading 4 (full 4)).config.stream.len = 0x4000 ∧ (loading 4 (full 4)).config.badPages = [] ∧ { full 4 with pos := 0x200 }.pos + 32 = (full 4).payloadLen ∧
    (after (.settingRecord 2 0x21000 7 0) (loading 4 (full 4))).config.load = some { full 4 with settings := [(0x21000, 7)], pos := 16 } ∧
    (after (.endRecord 0x0F 1 0 0) (loading 4 { full 4 with pos := 0x200 })).get CFG_STATUS_STATE = 5 ∧
    (after (.endRecord 0x0F 1 0 0) (loading 4 (full 4))).get CFG_FAIL_HOST = 0x0D ∧
    (after (.settingRecord 2 0x21000 7 0) (loading 5 { full 5 with total := some 1 })).get CFG_FAIL_HOST = 0x0D ∧
    storedWord (after (.memRecord 4 ⟨0, 4, 0x300, [1, 2, 3, 4]⟩ .good) (loading 4 { full 4 with kind := 3 })) 20 0 0 3 = encodeByte 4 := by decide +kernel

/-- What the frames of an image with one bundle declare. -/
def declared : Declared := ⟨[], [], [⟨1, 0, 3, 1, 0, true, 8, 0⟩], [], [], [], []⟩

/-- Two fused sectors; the same but for the leader. -/
def pair : Declared := { declared with islands := [(2, 10, 1, true), (3, 10, 1, false)] }

theorem test_declarations : fullAgrees declared = true ∧ fullAgrees pair = true ∧
    fullAgrees { declared with islands := [(2, 10, 1, true), (3, 10, 1, true)] } = false ∧
    fullAgrees { pair with regions := [(0, 0, 2, 1)] } = true ∧ fullAgrees { pair with regions := [(0, 0, 3, 0)] } = false ∧
    fullAgrees { pair with regions := [(0, 0, 2, 1), (0, 0, 0, 2)] } = false := by decide +kernel

/-- The load with every frame written and its END record read. -/
def complete : Load := { full 5 with head := 0, signed := true, written := 1, total := some 1 }

theorem witness_FullLoad_final : finalCause complete true 0 0 declared = none ∧ finalCause complete false 0 0 declared = some 0x10 ∧
    finalCause complete true 1 0 declared = some 0x11 ∧ finalCause complete true 0 1 declared = some 0x12 ∧
    finalCause complete true 0 0 { declared with islands := [(3, 10, 1, true)] } = some 0x16 ∧
    complete.total = some complete.written ∧ complete.frameCount = complete.written ∧
    (after (.loadFinalChecks true 0 0 declared) (loading 5 complete)).config.imgBundles.length = 1 ∧
    ((after (.loadFinalChecks true 0 0 declared) (loading 5 complete)).startup 0).isSome = true ∧
    (after (.loadFinalChecks false 0 0 declared) (loading 5 complete)).get CFG_FAIL_HOST = 0x10 := by decide +kernel

/-- The loader waits on the host bus; a host-bus stream runs, with `n` bytes in its ring. -/
def waiting : State := (up.puts [(CFG_STATUS_STATE, 0xB), (CFG_HLOAD_CTRL_WAITING, 1)]).onConfig fun c => { c with waitSrc := some 3 }
def streaming (n : Nat := 8) : State := (loading 2 fresh n).put CFG_HLOAD_CTRL_ACTIVE 1

/-- A copy of Bamid that cannot be read. -/
def badCopy : BamidCopy := ⟨⟨.failed, ⟨true, true, true⟩, true, 0, 0⟩, []⟩

theorem witness_LoadSources : (up.onConfig fun c => { c with restart := true }).config.restart = true ∧ up.clocks.busy = [] ∧ up.config.bamidDue = false ∧
    up.config.reload = false ∧ runs up 186 = true ∧ runs up 183 = true ∧ waiting.config.waitSrc = some 3 ∧ waiting.config.load = none ∧
    regGate waiting (.host 0 0) 0x030000048000 4 true = .reach ∧ hostLoading waiting = false ∧ ringFull (streaming (streamRoom - 3)) 4 = true ∧
    ringFull (streaming (streamRoom - 4)) 4 = false ∧ (streaming).config.waitSrc = none ∧
    hostLoading (streaming) = true ∧ regGate (streaming) (.host 0 0) 0x030000040020 4 true = .reach ∧ (.engine 3 : Requester) ≠ .host 0 0 ∧
    regGate (streaming) (.engine 1022) 0x030000048000 4 true = .reach ∧ up.clocks.perst.contains 1 = false ∧ up.config.started = false := by
  decide +kernel

theorem test_load_sources : (after (.hostLoadWrite (.host 0 0) 0 [1, 2, 3, 4]) waiting).get CFG_HLOAD_COUNT_BYTES = 4 ∧
    (after (.hostLoadWrite (.host 0 0) 0 [1, 2, 3, 4]) waiting).config.stream = ⟨4, 0x04030201⟩ ∧
    (after (.hostLoadWrite (.host 0 0) 2 [1, 2, 3, 4]) (streaming)).get CFG_FAIL_HOST = 0x0D ∧
    (after (.hostLoadWrite (.host 0 0) 4 [1, 2, 3, 4]) (streaming (streamRoom - 3))).out = [.held] ∧
    (after .hostLoadTimeout (streaming)).get CFG_FAIL_HOST = 0x0F ∧ (after .hostLoadTimeout (streaming streamRoom)).get CFG_FAIL_HOST = 0 ∧
    (after (.cfgHloadAbort (.host 0 0)) (streaming)).get CFG_FAIL_HOST = 0x14 ∧
    (after .coxLoadTimeout (loading 2 { src := 4, isPart := false })).get CFG_FAIL_DBG = 0x0F ∧
    (after (.bamidLoad badCopy badCopy) (up.onConfig fun c => { c with bamidDue := true })).on CFG_STATUS_BAMID_FAIL = true ∧
    (after .loadRestartAfterReset (up.onConfig fun c => { c with restart := true })).get CFG_STATUS_SOURCE = 1 ∧
    (after (.pfAbsentTimeout 1) up).host.absent = [1] := by decide +kernel

/-- Start-up `who` in progress over the islands of sectors 0 and 1. -/
def starting (who : Nat) (u : Startup) : State := ((up.put CFG_STATUS_STATE 7).onConfig (fun c => { c with doneLow := false })).setStartup who (some u)

theorem witness_StartUp : ((starting 0 { islands := [0, 1] }).startup 0) = some { islands := [0, 1] } ∧ [0, 1].all (clkStable up) = true ∧
    clkStable (up.put (CLK_STABLE_STABLE 0) 1) 1 = false ∧ leaderOf up 1 = 1 ∧ islandFrozen up 1 = false ∧
    (after (.lockStepDone 0) (starting 0 { islands := [0, 1] })).on CFG_STATUS_DONE_WAIT = true ∧
    (after (.lockStepTimeout 0) ((starting 0 { islands := [0, 1] }).put (CLK_STABLE_STABLE 0) 1)).on CFG_STATUS_SU_PARTIAL = true ∧
    (after .cfgDoneHigh (starting 0 { islands := [0, 1], locked := true })).get CFG_STATUS_STATE = 9 ∧
    (after (.releaseToken 0) (starting 0 { islands := [0, 1], locked := true, go := true })).startup 0 =
      some { islands := [0, 1], locked := true, go := true, step := 1, due := [0, 1], unapplied := [0, 1] } ∧
    (after (.releaseReport 0 1) (starting 0 { islands := [0, 1], step := 3, due := [1], locked := true, go := true })).get CFG_STATUS_STATE = 0xA ∧
    (after (.releaseReport 1 1) (starting 1 { islands := [0, 1], step := 2, due := [0, 1], locked := true, go := true })).startup 1 =
      some { islands := [0, 1], step := 2, due := [0], locked := true, go := true } := by decide +kernel

/-- A partial load of the region of sectors 2 and 3, its records read. -/
def partial_ : Load := { src := 0, isPart := true, kind := 2, signed := true, region := [2, 3], total := some 0 }

/-- The partial load in a phase, before its final checks and behind them. -/
def reconfiguring (ph : Nat) : State :=
  (up.puts [(CFG_PR_STATUS_BUSY, 1), (CFG_PR_STATUS_PHASE, ph)]).onConfig fun c => { c with load := some { partial_ with decl := if ph < 3 then none else some declared } }

theorem witness_PartialLoad : regGate (up.put CFG_STATUS_STATE 0xA) (.host 0 0) 0x030000040200 4 true = .reach ∧ up.on CFG_PR_STATUS_BUSY = false ∧
    hostLoading up = false ∧ regGate (reconfiguring 2) (.host 0 0) 0x030000040200 4 true = .reach ∧ (reconfiguring 2).get CFG_PR_STATUS_PHASE = 2 ∧
    prCause partial_ true 0 0 declared = none ∧ prCause partial_ true 0 0 { declared with islands := [(3, 10, 1, true)] } = some 0x16 ∧ partAgrees [2, 3] pair = true ∧
    (reconfiguring 4).config.next = none ∧ partial_.total = some partial_.written ∧ partial_.frameCount = partial_.written ∧
    (after (.prGo (.host 0 0) false) (up.put CFG_STATUS_STATE 0xA)).get CFG_PR_STATUS_PHASE = 1 ∧
    (after (.prAbort (.host 0 0)) (reconfiguring 2)).get CFG_PR_STATUS_CAUSE = 0x14 ∧
    (after (.prFinalChecks true 0 0 declared) (reconfiguring 2)).get CFG_PR_STATUS_PHASE = 3 ∧
    sectorHeld (after (.prFinalChecks true 0 0 declared) (reconfiguring 1)) 3 = true ∧
    sectorHeld (after (.prFinalChecks true 0 0 declared) (reconfiguring 1)) 4 = false ∧
    (after (.prFinalChecks false 0 0 declared) (reconfiguring 1)).get CFG_PR_STATUS_CAUSE = 0x10 ∧
    (after (.prFramesWritten false) (reconfiguring 4)).get CFG_PR_STATUS_PHASE = 5 := by decide +kernel

/-- A readback of shadow frames with `n` frames left; a capture with one island due. -/
def reading (n : Nat) (abort : Bool) : State :=
  (up.put CFG_RB_STATUS_BUSY 1).onConfig fun c => { c with rb := some ⟨true, 3, 5, n, 0x020000000040, abort, false⟩ }
def capturing : State := (up.put CFG_CAP_STATUS_BUSY 1).onConfig fun c => { c with capDue := [3] }

theorem witness_Capture : regGate up (.host 0 0) 0x030000040240 4 true = .reach ∧ up.on CFG_CAP_STATUS_BUSY = false ∧ up.on CFG_RB_STATUS_BUSY = false ∧
    capturing.config.capDue.contains (leaderOf capturing 3) = true ∧ edgeReaches capturing 3 = true ∧
    (after (.captureGo (.host 0 0) true) up).on CFG_CAP_STATUS_BUSY = true ∧ (after (.captureSnapshot 3 [] ) capturing).on CFG_CAP_STATUS_VALID = true ∧
    (after (.captureNoEdge 3 []) capturing).bit (CFG_CAP_NOEDGE_SEC 0) 3 = true ∧ capturing.config.capDue.filter (· ≠ leaderOf capturing 3) = [] ∧
    (after (.captureSnapshot 3 []) (capturing.puts [(DBG_XT_IN_SRC 2, 32), (DBG_XT_OUT_ACT 2, 1)])).out = [.trigOut] := by decide +kernel

theorem witness_Readback : regGate up (.host 0 0) 0x030000040280 4 true = .reach ∧ up.config.load = none ∧ up.get CFG_RB_COUNT_COUNT = 0 ∧
    (up.puts [(CFG_RB_COUNT_COUNT, 9), (CFG_RB_FRAME_FRAME, 5)]).get CFG_RB_DST_LO_ADDR % 64 = 0 ∧ plainOf 0x020000000040 = none ∧
    (after (.readbackGo (.host 0 0) true) up).on CFG_RB_STATUS_REFUSED = true ∧
    (after (.readbackGo (.host 0 0) true) (up.puts [(CFG_RB_COUNT_COUNT, 9), (CFG_RB_FRAME_FRAME, 5)])).on CFG_RB_STATUS_BUSY = true ∧
    (after (.readbackGo (.host 0 0) true) (up.puts [(CFG_RB_COUNT_COUNT, 10), (CFG_RB_FRAME_FRAME, 5)])).on CFG_RB_STATUS_REFUSED = true ∧
    (after (.readbackGo (.host 0 0) true) ((loading 2 (full 2)).put CFG_RB_COUNT_COUNT 1)).on CFG_RB_STATUS_REFUSED = true ∧ edgeReaches State.reset 0 = false ∧
    (after (.readbackFrameDone false []) (reading 2 false)).config.rb.map (·.left) = some 1 ∧
    (after (.readbackFrameDone false []) (reading 1 false)).on CFG_RB_STATUS_BUSY = false ∧
    (after (.readbackFrameDone true []) (reading 2 false)).on CFG_RB_STATUS_BUS_ERR = true ∧
    (after (.readbackAbort (.host 0 0)) (reading 2 false)).config.rb.map (·.abort) = some true := by decide +kernel

/-- Address 8 of the Hatcher memory of channel 2; its DRAM's line 5; a fabric address that the target map gives to sector 5. -/
def chipAddr : BitVec 52 := 0x020028000008
def dramAddr : BitVec 52 := 0x002000000140
def fabAddr : BitVec 52 := 0x010000001000

/-- The target map gives 4 KiB of die 0 to sector 5. -/
def mapped : State := up.puts [(TMAP_VALID 0, 1), (TMAP_BASE 0, 1), (TMAP_SIZE 0, 12), (TMAP_DIE 0, 0), (TMAP_SECTOR 0, 5)]

theorem witness_Requests : issues up (.sector 3) = true ∧ tagBusy up (.sector 3) (entryPort (.sector 3) (requestDst up (.sector 3) chipAddr.toNat)) 9 = false ∧
    badShape (rdAsk (.sector 3) 9 chipAddr 55) = false ∧ badShape (rdAsk (.sector 3) 9 chipAddr 56) = true ∧ routeFrozen up 3 none = false ∧
    waitsForChannel up (rdAsk (.sector 3) 9 chipAddr 3) = none ∧ up.clocks.halted = false ∧
    plainOf chipAddr.toNat = some (.chip 6 69 0 8) ∧ chipStop up 6 = none ∧ hasRight up (.sector 3) chipAddr.toNat true = true ∧
    plainOf dramAddr.toNat = some (.dram 2 0x140 0) ∧ hasRight up (.sector 3) dramAddr.toNat false = true ∧ up.host.failed = [] ∧
    biNeeds up (rdAsk (.sector 3) 9 dramAddr 3) = none ∧ locate 0x060000000000 = .unmapped ∧
    locate 0x030000000100 = .hub 0x100 ∧ regGate up (.engine 5) 0x030000000100 4 false = .reach ∧
    fabricTarget mapped (.sector 3) (0 * 2 ^ 38 + 0x1000) = some 5 ∧ locate fabAddr.toNat = .fabric 0 0x1000 ∧ sectorUp mapped 5 = true ∧
    acceptedAt mapped 5 < 1024 ∧ issues State.reset (.sector 3) = false := by decide +kernel

/-- The first four bytes of the memory hold 7. -/
def wrote : State := after (.wrAck (.sector 3) 9) (after (.wr (.sector 3) 9 chipAddr 7 0xFF00 (7 * 2 ^ 64) false) up)

theorem witness_Requests_effects : (after (.rd (.sector 3) 9 chipAddr 3) wrote).noc.reqs.map (·.rsp) = [some (.data 7 false)] ∧
    (after (.rd (.sector 3) 9 0x060000000000 3) up).noc.reqs.map (·.rsp) = [some .errDecode] ∧
    (after (.rd (.sector 3) 9 chipAddr 56) up).noc.reqs.map (·.rsp) = [some .errBus] ∧
    (after (.wr (.sector 3) 9 chipAddr 7 0xFF00 0 true) up).noc.reqs.map (·.rsp) = [some .errBus] ∧
    (after (.rd (.sector 3) 9 fabAddr 3) mapped).noc.reqs.map (fun r => (r.dst, r.rsp)) = [(some 5, none)] ∧
    (readBytes wrote.begin 6 69 0 8 4).1 = 7 ∧ (readBytes wrote.begin 6 69 0 8 4).2.2.1 = false ∧ atomResult .add 32 7 5 0 = some 12 ∧
    (after (.atom (.sector 3) 9 chipAddr false .add 5 0) wrote).noc.reqs.map (·.rsp) = [some (.data 7 false)] ∧
    (after (.atom (.sector 3) 9 (chipAddr + 1) false .add 5 0) wrote).noc.reqs.map (·.rsp) = [some .errBus] ∧
    hasRight (up.put (SEC_RIGHTS_WR 7) 0) (.sector 3) chipAddr.toNat true = false := by decide +kernel

/-- A read, a write and an atomic of sector 3 in flight, with their answers; a read at sector 5. -/
def flying : State := after (.rd (.sector 3) 4 fabAddr 3) (after (.atom (.sector 3) 3 chipAddr false .add 5 0)
  (after (.wr (.sector 3) 2 chipAddr 7 0xFF00 0 false) (after (.rd (.sector 3) 1 chipAddr 3) mapped)))

theorem witness_Answers : ((findReq flying (.sector 3) 1 [0]).map (·.rsp)) = some (some (.data 0 false)) ∧
    ((findReq flying (.sector 3) 4 [0]).map (fun r => (r.rsp, r.dst))) = some (none, some 5) ∧
    ((findReq flying (.sector 3) 2 [1]).map (·.rsp)) = some (some .ack) ∧ ((findReq flying (.sector 3) 3 [2]).map (·.rsp)) = some (some (.data 0 false)) ∧
    (after (.rdData (.sector 3) 1 0 false) flying).out = [.data 0 false] ∧ (after (.rdData (.sector 3) 4 5 false) flying).out = [.data 5 false] ∧
    (after (.wrAck (.sector 3) 2) flying).noc.reqs.length = 3 ∧ (after (.atomData (.sector 3) 3 ⟨0, false⟩) flying).out = [.data 0 false] ∧
    (after (.nocRequestTimeout (.sector 3) 4) flying).get NOC_ERR_LOG_KIND = 5 ∧ outboundOf flying (.sector 3) 4 0 = none ∧
    flying.noc.reqs.all (fun r => r.req != .sector 7 || r.tag != 4) = true ∧
    ((findReq (after (.rd (.sector 3) 1 0x060000000000 3) up) (.sector 3) 1 [0]).map (·.rsp)) = some (some .errDecode) ∧
    (after (.errDecode (.sector 3) 1) (after (.rd (.sector 3) 1 0x060000000000 3) up)).out = [.decodeError] ∧
    (after (.errBus (.sector 3) 1) (after (.rd (.sector 3) 1 chipAddr 56) up)).out = [.busError] := by decide +kernel

/-- A journal entry of a host read that has been accepted, with an answer. -/
def journaled (opc : Nat) (x : NocRsp) : State := { up with wake := { up.wake with
  entries := [⟨0, false, 0, 5, false, false, 2, 0, ⟨136, 7, .host 0 0, opc, 0x020028000008, 3, none, true, some x, false, 0, false, false⟩, false, 0, 0, 0, 0⟩] } }

theorem witness_Answers_host : ((inboundOf (journaled 0 (.data 7 false)) 0 0 7 [0, 1]).map (·.req.accepted)) = some true ∧
    (after (.rdData (.host 0 0) 7 0 false) (journaled 0 (.data 7 false))).out = [.hostData 0 7 7 false] ∧
    (after (.wrAck (.host 0 0) 7) (journaled 1 .ack)).out = [.hostDone 0 7] ∧
    (after (.errDecode (.host 0 0) 7) (journaled 0 .errDecode)).out = [.hostUr 0 7] ∧
    (after (.errBus (.host 0 0) 7) (journaled 0 .errBus)).out = [.hostAbort 0 7] := by decide +kernel

/-- Probe 31 counts every message of VN0 that leaves the router of sector 3 towards the sector. -/
def probing : State := up.puts [(PROBE_EN 31, 1), (PROBE_UNIT 31, routerUnit (meshPos 3).1 (meshPos 3).2), (PROBE_PORT 31, 4), (PROBE_VNMASK 31, 1)]

/-- Two records wait in the queue of probe 31 for the writer. -/
def tracing (w : Nat) (stopped : Bool) : State :=
  { up.puts [(NOC_TRACE_CTRL_EN, 1), (NOC_TRACE_WPTR_OFFSET, w)] with noc := { up.noc with probeQ := [(31, [5, 6])], stopped := stopped } }

/-- They go to channel 0, where the host of port B holds line 0. -/
def tracingHeld : State := ((tracing 0 false).put NOC_TRACE_CTRL_DEST 1).onHost fun h => { h with dir := [(0, ⟨1, true⟩)] }

theorem witness_NetworkFaults : up.get NOC_CTRL_STALL_LIM ≠ 0 ∧ (up.put NOC_CTRL_STALL_LIM 0).get NOC_CTRL_STALL_LIM = 0 ∧ isRouter (unitId 3 63) = true ∧
    runs up (128 + unitId 3 63 / 2048) = true ∧ up.wake.recs = [] ∧ smGet 0 up.wake.done (unitId 3 63) = 0 ∧
    probeMatches probing 31 (sectorMsg 3 true 0 2 none 0) = true ∧ probing.on (PROBE_EN 30) = false ∧ probing.bit DBG_XT_PROBE_PROBE 31 = false ∧
    probing.on (PROBE_TRACE 31) = false ∧ probing.get (PROBE_MODE 31) < 2 ∧
    (seeMessage (sectorMsg 3 true 0 2 none 0) probing).get (PROBE_CNT_LO 31) = 2 ∧
    (tracing 0 false).on NOC_TRACE_CTRL_EN = true ∧ (tracing 0 false).on NOC_TRACE_CTRL_DEST = false ∧
    (after (.trace 31) (tracing 32 false)).noc.traceBuf = [(1, 5)] ∧ (after (.trace 31) (tracing 0xFFFE0 false)).noc.stopped = true ∧
    (after (.trace 31) ((tracing 0xFFFE0 false).put NOC_TRACE_CTRL_WRAP 1)).on NOC_TRACE_WPTR_WRAPPED = true ∧
    (after (.trace 31) (tracing 0 true)).get (PROBE_LOST 31) = 1 ∧
    (traceTurn 31 tracingHeld.begin).1 = .wait ∧ (after (.trace 31) tracingHeld).out = [.biSnp 1 0 1, .held] ∧
    (after (.routerFault (BitVec.ofNat 16 (unitId 3 63)) 3 1 9) up).wake.recs.length = 1 ∧
    (after (.routerFault (BitVec.ofNat 16 (unitId 3 63)) 2 1 9) up).get NOC_ERR_LOG_TAG = 9 ∧ (after (.nocStall 1 2) up).get NOC_ERR_LOG_KIND = 6 := by
  decide +kernel

theorem witness_no_probes : ∀ k < 32, up.on (PROBE_EN k) = false := by decide +kernel

/-- A debug access of set 1 is on its way to sector 5. -/
def debugging (kind : Nat) : State := { mapped with dbg := { mapped.dbg with sets := [(1, ⟨fabAddr.toNat, 8, kind, 0, none⟩)] } }

theorem witness_Management : routerAnswers up 3 = true ∧ regionBusy (reconfiguring 4) 3 = false ∧
    regionBusy (after (.prFinalChecks true 0 0 declared) (reconfiguring 1)) 3 = true ∧
    ((crossing 1 0).clocks.bundles.find? (fun e => e.2.dst == 1 && e.2.rxPort == 1)).isSome = true ∧
    (after (.mgtRsp 3) (after (.mgtRd 3 40) (after (.mgtRsp 3) (after (.mgtWr 3 40 99) up)))).out = [.value 99] ∧
    (after (.mgtRsp 1) (after (.mgtRd 1 1) (crossing 1 0))).out = [.value 0] ∧ requestDst (debugging 0) (.debug) fabAddr.toNat = some 5 ∧
    (after (.dbgRd 1 fabAddr 3) (debugging 0)).out = [.message 0x1B 5 fabAddr.toNat 0] ∧
    (after (.dbgRdc 1 fabAddr 3) (debugging 1)).out = [.message 0x1C 5 fabAddr.toNat 0] ∧
    (after (.dbgWr 1 fabAddr 3 9) (debugging 2)).out = [.message 0x1D 5 fabAddr.toNat 9] ∧
    ((after (.dbgRsp 1 7 false) (after (.dbgRd 1 fabAddr 3) (debugging 0))).dbg.sets.map (·.2.answer)) = [some (7, false)] := by decide +kernel

/-- CXL.cache is on at port A, sectors 3 and 4 cache, and the filter holds line 2, owned by sector 4, and line 3, shared by both. -/
def caching : State :=
  { up.puts [(HP_STATUS_CACHE 0, 1), (HP_STATUS_UP 0, 1), (HP_WIN_EN 0, 1)] with
    config := { up.config with cachers := [3, 4] }
    host := { up.host with sf := [(0x1000000002, ⟨[4], some 4⟩), (0x1000000003, ⟨[3, 4], none⟩)] } }

/-- Lines 1 to 3 of the window. -/
def lineAddr (n : Nat) : BitVec 52 := BitVec.ofNat 52 (0x040000000000 + 64 * n)

theorem witness_Coherent : issues caching (.sector 3) = true ∧ tagBusy caching (.sector 3) 3 9 = false ∧ routeFrozen caching 3 none = false ∧
    agentTakes caching 3 (lineAddr 1).toNat = true ∧ agentTakes caching 7 (lineAddr 1).toNat = false ∧
    hasRight caching (.sector 3) ((lineAddr 1).toNat / 64 * 64) true = true ∧ sfEntry caching ((lineAddr 1).toNat % 2 ^ 48 / 64) = none ∧
    waysUsed caching ((lineAddr 1).toNat % 2 ^ 48 / 64) < 16 ∧ (sendD2h (coherentReq 3 9 (lineAddr 1).toNat 3 none) 0 caching.begin).isSome = true := by
  decide +kernel

/-- Sector 3's requests in flight, completed by the host: RD_SH of line 1 and CLEAN_EVICT of line 3. -/
def granted (opc : Nat) (n : Nat) (x : NocRsp) : State :=
  { caching with noc := { caching.noc with reqs := [coherentReq 3 9 (lineAddr n).toNat opc (some x)] } }

theorem witness_Coherent_effects : sfEntry caching ((lineAddr 2).toNat % 2 ^ 48 / 64) = some ⟨[4], some 4⟩ ∧
    (after (.rdSh 3 9 (lineAddr 1)) caching).wake.entries.length = 1 ∧
    (after (.rdOwn 3 9 (lineAddr 2)) caching).host.snoops = [⟨0x1000000002, 0x14, [4], none, .sector 3 9 true, 0⟩] ∧
    (after (.rdSh 7 9 (lineAddr 1)) caching).noc.reqs.map (·.rsp) = [some .errBus] ∧
    (after (.dirtyEvict 3 9 (lineAddr 3) ⟨1, false⟩) caching).wake.entries.length = 1 ∧ (after (.cleanEvict 3 9 (lineAddr 3)) caching).wake.entries.length = 1 ∧
    (after (.dirtyEvict 3 9 (lineAddr 3) ⟨1, false⟩) (caching.onHost fun h => { h with dropped := [lostKey 0x1000000003 3] })).host.dropped = [] ∧
    ((findReq (granted 3 1 (.data 7 false)) (.sector 3) 9 [3]).map (·.rsp)) = some (some (.data 7 false)) ∧
    sfEntry (after (.cdataS 3 9 ⟨7, false⟩) (granted 3 1 (.data 7 false))) 0x1000000001 = some ⟨[3], none⟩ ∧
    sfEntry (after (.cdataE 3 9 ⟨7, false⟩) (granted 4 1 (.data 7 false))) 0x1000000001 = some ⟨[3], some 3⟩ ∧
    sfEntry (after (.evictAck 3 9) (granted 5 3 .ack)) 0x1000000003 = some ⟨[4], none⟩ := by decide +kernel

/-- A snoop of the host for line 3 is out to the sectors `w`. -/
def snooping (kind : Nat) (w : List Nat) : State := caching.onHost fun h => { h with snoops := [⟨0x1000000003, kind, w, none, .host, 0⟩] }

theorem witness_Snoops : cacheOn caching = true ∧ sfEntry caching 0x1000000001 = none ∧ sfEntry caching 0x1000000003 = some ⟨[3, 4], none⟩ ∧
    (after (.snpinv 0x1000000001) caching).out = [.snpAnswer 0x1000000001 none] ∧
    (after (.snpdata 0x1000000003) caching).host.snoops = [⟨0x1000000003, 0x15, [3, 4], none, .host, 0⟩] ∧ routerAnswers caching 3 = true ∧
    sectorUp caching 3 = true ∧ (after (.snpInv 3 0x1000000003) (snooping 0x14 [3, 4])).out = [.message 0x14 3 0x1000000003 0] ∧
    (after (.snpCur 3 0x1000000003) (snooping 0x16 [3, 4])).out = [.message 0x16 3 0x1000000003 0] ∧
    sfEntry (after (.snpRsp 3 0x1000000003) (snooping 0x14 [3, 4])) 0x1000000003 = some ⟨[4], none⟩ ∧
    sfEntry (after (.snpRsp 3 0x1000000003) (snooping 0x16 [3, 4])) 0x1000000003 = some ⟨[3, 4], none⟩ ∧
    (after (.snpRspData 3 0x1000000003 ⟨7, false⟩) (snooping 0x15 [3])).out = [.snpAnswer 0x1000000003 (some (7, false))] ∧
    (after (.snpTimeout 3 0x1000000003) (snooping 0x14 [3])).on (HP_CAUSE_SNP_TO 0) = true ∧
    (after (.binv 3 0x1000000003) (snooping 0x17 [3])).out.length = 1 := by decide +kernel

/-- Engine `g` runs, with its core as `e`. -/
def running (g : Nat) (e : Engine) : State := (up.puts [(ENG_CTRL_RUN g, 1), (ENG_STATUS_STATE g, 1)]).setEng g e

/-- What Issues asks for, as a Boolean. -/
def issuable (s : State) (g : Nat) (i : Yz) : Bool :=
  engReady s g && (s.eng g).haltReq.isNone && !(s.eng g).stepping && (List.range 8).all (fun k => !(s.get (ENG_DBG_CTRL g k)).testBit 31)
    && s.slots.stopped.isEmpty && fetchable s g
    && (List.range 4).all (fun k => syndrome (storedWord s (engPart g) (engUnit g) 0 ((s.eng g).pc.toNat + k)) == 0)
    && (s.eng g).mayRun (bytesValue s (engPart g) (engUnit g) 0 (s.eng g).pc.toNat 4) (some i) && ((starts s g i).earlyFault i).isNone

theorem issues_of_issuable {s : State} {g : Nat} {i : Yz} (h : issuable s g i = true) : Issues s g i := by
  simp only [issuable, Bool.and_eq_true, Bool.not_eq_true', Option.isNone_iff_eq_none, List.all_eq_true, List.mem_range, beq_iff_eq, List.isEmpty_iff] at h
  obtain ⟨⟨⟨⟨⟨⟨⟨⟨h1, h2⟩, h3⟩, h4⟩, h5⟩, h6⟩, h7⟩, h9⟩, h8⟩ := h
  exact ⟨⟨h1, h2, h3, h4, h5, h6, h7⟩, h9, h8⟩

/-- An engine about to issue the word at 0x100, with r1 = 7, r2 = -2, r3 at the address `a`. -/
def core (a : Word) : Engine := { pc := 0x100, u := [(1, 7), (2, -2), (3, a)] }

theorem witness_Issues : Issues (running 5 (core 0)) 5 (.alu .add 39 1 2 true) ∧ Issues (running 1024 (core 0)) 1024 .nop :=
  ⟨issues_of_issuable (by decide +kernel), issues_of_issuable (by decide +kernel)⟩

/-- The register `r` of engine 5 after a command. -/
def reg (c : Instr) (a : Word) (r : Nat) : Word := ((after c (running 5 (core a))).eng 5).cur r

/-- Its status word. -/
def status (c : Instr) : Word := ((after c (running 5 (core 0))).eng 5).st

theorem witness_Arithmetic : issuable (running 5 (core 0)) 5 (.alu .mulhs 4 1 2 false) = true ∧ issuable (running 5 (core 0)) 5 (.shift .ror 4 1 31 true) = true ∧
    issuable (running 5 (core 0)) 5 (.alu .cmp 0 1 2 true) = true ∧ issuable (running 5 (core 0)) 5 (.alu .popc 4 1 0 false) = true ∧
    reg (.yAdd 5 4 1 2 true) 0 4 = 5 ∧ (status (.yAdd 5 4 1 2 true)).toNat % 16 = 4 ∧ reg (.ySub 5 4 2 1 true) 0 4 = -9 ∧
    reg (.yMulhs 5 4 1 2 false) 0 4 = -1 ∧ reg (.yMulhu 5 4 1 2 false) 0 4 = 6 ∧ reg (.ySra 5 4 2 1 false) 0 4 = -1 ∧ reg (.yShri 5 4 2 31 true) 0 4 = 1 ∧
    reg (.yRor 5 4 1 1 false) 0 4 = 0x0E000000 ∧ reg (.yMin 5 4 1 2 false) 0 4 = -2 ∧ reg (.yMinu 5 4 1 2 false) 0 4 = 7 ∧
    reg (.yClz 5 4 1 false) 0 4 = 29 ∧ reg (.yPopc 5 4 2 false) 0 4 = 31 ∧ reg (.ySextb 5 4 2 false) 0 4 = -2 := by decide +kernel

theorem witness_Immediates : issuable (running 5 (core 0)) 5 (.imm .addi 4 1 0x3FFF) = true ∧ issuable (running 5 (core 0)) 5 (.movhi 1 5) = true ∧
    issuable (running 5 (core 0)) 5 (.csel .eq 4 1 2) = true ∧ issuable (running 5 (core 0)) 5 (.imm .cmpui 0 1 7) = true ∧
    issuable (running 5 (core 0)) 5 (.imm .tsti 0 1 8) = true ∧
    reg (.yAddi 5 4 1 0x3FFF) 0 4 = 6 ∧ reg (.yOri 5 4 1 0x3FF8) 0 4 = 0x3FFF ∧ reg (.yMovhi 5 1 5) 0 1 = 0x50007 ∧ reg (.yMovi 5 4 0xFFFF) 0 4 = -1 ∧
    reg (.yCsel 5 .ne 4 1 2) 0 4 = 7 ∧ (status (.yCmpui 5 1 7)).toNat % 16 = 5 ∧ (status (.yTsti 5 1 8)).toNat % 16 = 1 := by decide +kernel

theorem witness_Division : issuable (running 5 (core 0)) 5 (.divinit 4 2 1 false) = true ∧ issuable (running 5 (core 0)) 5 (.divs 4 false) = true ∧
    (divInit 7 0).2.2 = true ∧ (divInit (-100) 7).2.2 = false ∧ (divInit 0x70000 7).2.2 = true ∧ (divInit 0x6FFFF 7).2.2 = false ∧
    (divSteps 16 ((divInit (-100) 7).1, (divInit (-100) 7).2.1)).1 = 0xFFFEFFF2 ∧ (divSteps 16 ((divInit 7 0).1, (divInit 7 0).2.1)).1 = 7 := by
  decide +kernel

theorem witness_Loads : issuable (running 5 (core 0x10000)) 5 (.load .ldh 4 3 2) = true ∧ allowed (running 5 (core 0x10000)) 5 .read 0x10002 = true ∧
    localOf (running 5 (core 0)) 5 0x17FFF = .mem 1 0x7FFF ∧ localOf (running 5 (core 0)) 5 0x18000 = .unmapped ∧
    localOf (running 5 (core 0)) 5 0x10000000 = .port 0x020008000000 ∧ localOf (running 5 (core 0)) 5 0x100014 = .eng 0x014 ∧
    allowed (running 5 { core 0 with ctxid := 1 }) 5 .read 0x10000 = false ∧ issuable (running 5 { core 0 with ctxid := 0x100 }) 5 (.load .ld 4 3 0) = true ∧
    (running 5 (core 0)).onchip.due = [] ∧ (core 0).st.getLsbD 9 = false ∧ (core 0).feeding = false ∧
    reg (.yLdh 5 4 3 2) 0x10000 4 = 0 ∧ ((after (.yLd 5 4 3 0) (running 5 (core 0x10000000))).eng 5).wait.isSome = true ∧
    ((after (.ySt 5 1 3 0) (running 5 (core 0x10000000))).eng 5).posted = [⟨0x10000000, 0x020008000000, 4, 7, false, false, false⟩] ∧
    (after (.ySt 5 1 3 0) (running 5 (core 0x100014))).get (ENG_IRQ_PEND_PEND 5) = 7 ∧
    (after (.ySt 5 1 3 0) (running 5 (core 0x18000))).bit (ENG_IRQ_PEND_PEND 5) 17 = true ∧
    ((after (.yLd 5 4 3 0) (running 5 (core 0x18000))).eng 5).ecause = 5 ∧ ((after (.yLd 5 4 3 0) (running 5 (core 2))).eng 5).ecause = 4 ∧
    storedWord (after (.ySth 5 1 3 2) (running 5 (core 0x20000))) 4 5 2 2 = encodeByte 7 := by decide +kernel

/-- Engine 5 in a context that its one region lets fetch, and no more. -/
def fenced : State := (running 5 { core 0 with ctxid := 1 }).puts
  [(ENG_PR_EN 5 0, 1), (ENG_PR_X 5 0, 1), (ENG_PR_CMASK 5 0, 0xFF), (ENG_PR_CID 5 0, 1), (ENG_PR_BASE 5 0, 0), (ENG_PR_LIMIT 5 0, 0x20000)]

theorem witness_Loads_forbidden : issuable fenced 5 (.load .ld 4 3 0) = true ∧ issuable fenced 5 (.store .st 4 3 0) = true ∧ issuable fenced 5 (.stx 4 1 3 false) = true ∧
    allowed fenced 5 .read 0 = false ∧ allowed fenced 5 .write 0 = false ∧ allowed fenced 5 .write 0x10000000 = false := by decide +kernel

/-- A full store buffer holds the next store; a word of IMEM that is another instruction's. -/
theorem test_buffer : ((running 5 { core 0 with posted := List.replicate 8 ⟨0, 0, 4, 0, false, false, false⟩ }).eng 5).buffered = 8 ∧
    ((after (.ySt 5 1 3 0) (running 5 { core 0x10000000 with posted := List.replicate 8 ⟨0, 0, 4, 0, false, false, false⟩ })).eng 5).blocked.isSome = true ∧
    ((after (.ySt 5 1 3 0) (running 5 { core 0x10000000 with posted := List.replicate 8 ⟨0, 0, 4, 0, true, false, false⟩ })).eng 5).posted.length = 9 ∧
    ((core 0).mayRun 1 (some .nop) = false) ∧ ({ core 0 with oldWords := [(0x40, encodeYezar .nop, 2)] } : Engine).mayRun 1 (some .nop) = true := by decide +kernel

theorem witness_Exclusives : issuable (running 5 (core 0x10000000)) 5 (.ldx 4 3 true) = true ∧ issuable (running 5 (core 0x10000000)) 5 (.stx 4 2 3 true) = true ∧
    exclusiveRange 5 0x10FFFFF8 = true ∧ exclusiveRange 5 0x11000000 = false ∧ exclusiveRange 1024 0x10800000 = false ∧
    ((after (.yLdx 5 4 3 true) (running 5 (core 0x10000000))).eng 5).wait.isSome = true ∧ ((after (.yLdx 5 4 3 true) (running 5 (core 0x8000))).eng 5).ecause = 9 ∧
    ((after (.yStx 5 4 2 3 true) (running 5 (core 0x10000008))).eng 5).wait.isSome = true ∧ ((after (.yStx 5 4 1 3 false) fenced).eng 5).ecause = 9 ∧
    issuable (running 5 (core 0)) 5 .clrex = true ∧ issuable (running 5 (core 0)) 5 .fence = true ∧ issuable (running 5 (core 0)) 5 .wait = true ∧
    issuable (running 5 { core 0 with posted := [⟨0, 0, 4, 0, false, false, false⟩] }) 5 .fence = true ∧
    ((after (.yFence 5) (running 5 { core 0 with posted := [⟨0, 0, 4, 0, false, false, false⟩] })).eng 5).fencing = true ∧
    (after (.yWait 5) (running 5 (core 0))).get (ENG_STATUS_STATE 5) = 2 ∧
    ((running 5 { core 0 with ien := 4 }).put (ENG_IRQ_PEND_PEND 5) 6).get (ENG_IRQ_PEND_PEND 5) &&& (4 : Word).toNat ≠ 0 := by decide +kernel

theorem witness_Branches : issuable (running 5 (core 0)) 5 (.b .al (-4)) = true ∧ issuable (running 5 (core 0)) 5 (.bl 4) = true ∧
    issuable (running 5 (core 0x200)) 5 (.jlr .ne 3) = true ∧ issuable (running 5 { core 0 with slot := some (0x200, true) }) 5 .nop = true ∧
    issuable (running 5 { core 0 with rep := some ⟨0xFC, 3, 1⟩ }) 5 .nop = true ∧
    issuable (running 5 (core 0)) 5 (.repeat (.inl 4)) = true ∧ issuable (running 5 (core 0)) 5 (.loop 3 (.inr 1)) = true ∧
    issuable (running 5 { core 0 with st := 0x400, le := 0x100, ls := 0xF0, lc := 2 }) 5 .nop = true ∧ ({ core 0 with st := 0x400, le := 0x100 } : Engine).atLe = true ∧
    ((after (.yBl 5 4) (running 5 (core 0))).eng 5).slot = some (0x110, true) ∧ reg (.yBl 5 4) 0 15 = 0x108 ∧
    ((after (.yB 5 .eq 4) (running 5 (core 0))).eng 5).slot = some (0x108, false) ∧ ((after (.yJr 5 .al 3) (running 5 (core 0x203))).eng 5).slot = some (0x200, true) ∧
    ((after (.yNop 5) (running 5 { core 0 with slot := some (0x200, true) })).eng 5).pc = 0x200 ∧
    ((after (.yNop 5) (running 5 { core 0 with rep := some ⟨0xFC, 3, 1⟩ })).eng 5).pc = 0x100 ∧
    ((after (.yNop 5) (running 5 { core 0 with rep := some ⟨0xFC, 3, 2⟩ })).eng 5).pc = 0x104 ∧
    ((after (.yNop 5) (running 5 { core 0 with st := 0x400, le := 0x100, ls := 0xF0, lc := 2 })).eng 5).pc = 0xF0 ∧
    ((after (.yNop 5) (running 5 { core 0 with st := 0x400, le := 0x100, ls := 0xF0, lc := 1 })).eng 5).pc = 0x104 ∧
    ((after (.yRepeat 5 (.inl 4)) (running 5 (core 0))).eng 5).rep = some ⟨0x100, 5, 0⟩ ∧
    ((after (.yLoop 5 3 (.inr 1)) (running 5 (core 0))).eng 5).le = 0x10C ∧ ((after (.yLoop 5 3 (.inl 0)) (running 5 (core 0))).eng 5).pc = 0x110 := by decide +kernel

/-- Engine 5 with x0 = 0x10, y0 = 0x20 and lane values in a1; X and Y memory hold 3 and -4 in their first lanes there. -/
def filter : State :=
  [(1, 0x10, 3), (2, 0x20, 0xFC), (2, 0x21, 0xFF)].foldl (fun s e => storeWord s 4 5 e.1 e.2.1 (encodeByte (BitVec.ofNat 8 e.2.2)))
    (running 5 { core 0 with
      u := [(1, 7), (16, 0x10), (20, 0x20), (24, 8), (28, 8)]
      acc := [(4, 0x7FFFFFFFFF), (5, 0xFFFF8000)] })

theorem witness_Lanes : issuable filter 5 (.dsp .mac 1 0 0 true true 15) = true ∧ pointerOffset ((filter.eng 5).addr 16) = 0x10 ∧
    (List.range 8).all (fun k => syndrome (storedWord filter 4 5 1 (0x10 + k)) == 0 && syndrome (storedWord filter 4 5 2 (0x20 + k)) == 0) = true ∧
    allowed filter 5 .read 0x10010 = true ∧ allowed filter 5 .read 0x20020 = true ∧ hiddenBy 16 Late.addr (filter.eng 5).late = none ∧
    pointerNext 0x10 8 0 = some 0x18 ∧ pointerNext 0x1E 8 16 = some 0x16 ∧ powAtLeast 16 = 16 ∧
    smGet 0 ((after (.yMpy 5 0 0 0 true true 1) filter).eng 5).acc 0 = -12 ∧ smGet 0 ((after (.yMsu 5 1 0 0 false false 1) filter).eng 5).acc 4 = 0x800000000B ∧
    ((after (.yMpy 5 0 0 0 true true 1) filter).eng 5).cur 16 = 0x18 ∧ ((after (.yMpy 5 0 0 0 true false 1) filter).eng 5).cur 20 = 0x20 := by decide +kernel

theorem witness_AccumulatorMoves : issuable filter 5 (.ext 4 1 1 true) = true ∧ issuable filter 5 (.mfah 4 1) = true ∧ issuable filter 5 (.mta 1 2 1) = true ∧
    issuable filter 5 (.sha 1 (-4)) = true ∧ issuable filter 5 (.exst true 1 true 0 true) = true ∧ issuable filter 5 (.gst false 1 true 0 true) = true ∧
    ((filter.eng 5).seenLanes 1).length = 4 ∧ allowed filter 5 .write 0x20020 = true ∧ (filter.eng 5).atLe = false ∧
    ((after (.yExt 5 4 1 0 true) filter).eng 5).cur 4 = 0x7FFF ∧ ((after (.yExt 5 4 1 0 true) filter).eng 5).st = 0x10 ∧
    ((after (.yExt 5 4 1 1 false) filter).eng 5).cur 4 = 0 ∧ ((after (.yMfa 5 4 1 1) filter).eng 5).cur 4 = 0xFFFF8000 ∧
    ((after (.yMfah 5 4 1) filter).eng 5).cur 4 = 0x7F ∧ smGet 0 ((after (.ySha 5 1 (-4)) filter).eng 5).acc 4 = 0x7FFFFFFFF ∧
    smGet 0 ((after (.yMta 5 1 2 1) filter).eng 5).acc 6 = 7 ∧ ((after (.yExsty 5 1 true 0 true) filter).eng 5).cur 20 = 0x28 ∧
    storedWord (after (.yGstx 5 1 true 0 false) filter) 4 5 1 0x10 = encodeByte 0xFF ∧ fenced.eng 5 = { core 0 with ctxid := 1 } ∧
    allowed fenced 5 .write 0x20000 = false := by decide +kernel

theorem witness_ControlRegisters : issuable (running 5 (core 0)) 5 (.mfc 4 14) = true ∧ issuable (running 5 (core 0)) 5 (.mtc 1 2) = true ∧
    issuable (running 5 (core 0)) 5 (.svc 9) = true ∧ issuable (running 5 (core 0)) 5 .reti = true ∧ decodeYezar 0xFFFFFFFF = none ∧
    (core 0).st.getLsbD 9 = false ∧ ({ core 0 with st := 0x200 } : Engine).st.getLsbD 9 = true ∧
    reg (.yMfc 5 4 0) 0 4 = 0x100 ∧ (status (.yMtc 5 1 2)) = 0x71E ∧ ((after (.ySvc 5 9) (running 5 (core 0))).eng 5).ecause = 0x9000A ∧
    ((after (.ySvc 5 9) (running 5 (core 0))).eng 5).epc = 0x104 ∧ ((after (.ySvc 5 9) (running 5 (core 0))).eng 5).pc = 0x40 ∧
    ((after (.yReti 5) (running 5 { core 0 with epc := 0x300, est := 0x800, etgt := 0x400 })).eng 5).slot = some (0x400, true) ∧
    ((after (.yReti 5) (running 5 { core 0 with epc := 0x300, est := 0x800, etgt := 0x400 })).eng 5).pc = 0x300 ∧
    ((after (.undefinedInstruction 5 0xFFFFFFFF) (running 5 (core 0))).eng 5).ecause = 1 ∧
    (after (.undefinedInstruction 5 0xFFFFFFFF) (running 5 { core 0 with st := 0x200 })).get (ENG_STATUS_STATE 5) = 4 ∧
    (after (.undefinedInstruction 5 0xFFFFFFFF) (running 5 { core 0 with st := 0x200 })).bit (CH_ENG_CAUSE_LO_ENG 0) 5 = true := by decide +kernel

/-- Engine 5 with interrupts enabled and lines 3 and 5 pending. -/
def interrupted (ien : Word) : State := (running 5 { core 0 with st := 0x100, ien := ien }).put (ENG_IRQ_PEND_PEND 5) 0x28

theorem witness_Interrupts : engReady (interrupted 0x28) 5 = true ∧ ((interrupted 0x28).eng 5).clean (some .nop) = true ∧
    ((after (.interruptEntry 5 (some .nop)) (interrupted 0x28)).eng 5).ecause = 0x30020 ∧
    ((after (.interruptEntry 5 (some .nop)) (interrupted 0x20)).eng 5).ecause = 0x50020 ∧
    ((after (.interruptEntry 5 (some .nop)) (interrupted 0x28)).eng 5).pc = 0x80 ∧
    ((after (.interruptEntry 5 (some .nop)) (interrupted 0x10)).eng 5).pc = 0x100 ∧
    (core 0).st.getLsbD 8 = false ∧ ({ core 0 with slot := some (0, true) } : Engine).clean (some .nop) = false ∧
    ((interrupted 0x28).put (ENG_STATUS_STATE 5) 2).get (ENG_STATUS_STATE 5) = 2 ∧ runs up (engDomain 5) = true ∧ inEasy up (engPart 5) = false ∧
    (interrupted 0x28).get (ENG_IRQ_PEND_PEND 5) &&& (0x28 : Word).toNat ≠ 0 ∧
    (after (.featherWake 5) ((interrupted 0x28).put (ENG_STATUS_STATE 5) 2)).get (ENG_STATUS_STATE 5) = 1 := by decide +kernel

/-- Engine 5 waits for a request to crew SRAM, whose first word holds 7. -/
def stalled (op : PortOp) (rsv : Option (Nat × Bool)) : State :=
  storeWord (running 5 { core 0 with wait := some ⟨op, 0x10000000, 0x020008000000, false⟩, rsv := rsv }) 4 69 0 0 (encodeByte 7)

theorem witness_CrewPort : plainOf 0x020008000000 = some (.chip 4 69 0 0) ∧ chipStop up 4 = none ∧ easyHolds up 4 = false ∧
    hasRight up (.engine 5) 0x020008000000 false = true ∧ hasRight up (.engine 5) 0x020008000000 true = true ∧
    outboundOf up (.engine 5) 0 0 = none ∧ up.slots.stopped = [] ∧ (∀ k < 8, (up.get (ENG_DBG_CTRL 5 k)).testBit 31 = false) ∧
    (List.range 8).all (fun k => syndrome (storedWord (stalled (.ldx 4 true) none) 4 69 0 k) == 0) = true ∧
    ((after (.crewPortResponse 5 false .ok 0) (stalled (.load .ld 4) none)).eng 5).cur 4 = 7 ∧
    ((after (.crewPortResponse 5 false .poison 0) (stalled (.load .ld 4) none)).eng 5).ecause = 8 ∧
    ((after (.crewPortTimeout 5 false) (stalled (.load .ld 4) none)).eng 5).ecause = 5 ∧
    ((after (.crewPortTimeout 5 false) (stalled (.load .ld 4) none)).eng 5).stale = 1 ∧
    ((after (.crewPortResponse 5 false .ok 0) (stalled (.ldx 4 true) none)).eng 5).rsv = some (0x400000, true) ∧
    ((after (.crewPortResponse 5 false .ok 0) (stalled (.stx 4 false 9) (some (0x400000, false)))).eng 5).cur 4 = 0 ∧
    storedWord (after (.crewPortResponse 5 false .ok 0) (stalled (.stx 4 false 9) (some (0x400000, false)))) 4 69 0 0 = encodeByte 9 ∧
    ((after (.crewPortResponse 5 false .ok 0) (stalled (.stx 4 false 9) none)).eng 5).cur 4 = 1 := by decide +kernel

/-- Engine 5 has posted a store. -/
def storing : State := running 5 { core 0 with posted := [⟨0x10000000, 0x020008000000, 2, 0x1234, false, false, false⟩] }

theorem witness_CrewPort_stores : storedWord (after (.crewPortResponse 5 true .ok 0) storing) 4 69 0 1 = encodeByte 0x12 ∧
    (after (.crewPortTimeout 5 true) storing).get (ENG_ERR_KIND 5) = 2 ∧ (after (.crewPortResponse 5 true .busError 0) storing).get (ENG_ERR_ADDR 5) = 0x10000000 ∧
    ((after (.crewPortResponse 5 false .ok 0) (running 5 { core 0 with stale := 2 })).eng 5).stale = 1 := by decide +kernel

theorem witness_EngineRegisters : regGate up (.engine 5) (engBase 5 + 0x20) 4 true = .reach ∧ regGate up (.engine 5) (engBase 5 + 0x28) 4 true = .reach ∧
    regGate up (.engine 5) (engBase 5) 4 true = .reach ∧ regGate up (.engine 5) (engBase 5 + 0x14) 4 true = .reach ∧
    regGate up (.engine 5) (engBase 5 + 0x34) 4 true = .reach ∧ up.on (ENG_DBG_HOR 5) = false ∧ up.on (ENG_CTRL_RUN 5) = false ∧
    watchdogRuns ((running 5 (core 0)).put (ENG_WDT_LOAD_LOAD 5) 9) 5 = true ∧ up.get (ENG_STATUS_BITES 5) < 2 ^ (ENG_STATUS_BITES 5).w - 1 ∧
    up.wake.recs = [] ∧ smGet 0 up.wake.done (unitOfEngine 5) = 0 ∧ (running 5 { core 0 with tmrArmed := true }).get64 (ENG_TMR_LO_TS 5) (ENG_TMR_HI_TS 5) ≤ 0 ∧
    (up.put (ENG_TMR_LO_TS 5) 1).clocks.ts < (up.put (ENG_TMR_LO_TS 5) 1).get64 (ENG_TMR_LO_TS 5) (ENG_TMR_HI_TS 5) ∧
    hasRight up (.engine 5) (engMemAddress 1023 2 0x7FFC) false = true ∧ hasRight up (.engine 5) (engMemAddress 1023 2 0x7FFC) true = true := by
  decide +kernel

theorem test_engine_registers : (after (.engWdtKick (.engine 5) 5 0x5A) (up.put (ENG_WDT_LOAD_LOAD 5) 9)).get (ENG_WDT_COUNT_COUNT 5) = 9 ∧
    ((after (.engCtrlRun (.engine 5) 5 true) (up.put (ENG_BOOT_PC 5) 0x40)).eng 5).pc = 0x100 ∧
    (after (.engCtrlRestart (.engine 5) 5 false) (running 5 (core 0))).get (ENG_STATUS_STATE 5) = 0 ∧
    ((after (.engineWatchdogBite 5 false) ((running 5 (core 0)).put (ENG_WDT_LOAD_LOAD 5) 9)).eng 5).ecause = 0x10 ∧
    (after (.engineTimer 5) (running 5 { core 0 with tmrArmed := true })).bit (ENG_IRQ_PEND_PEND 5) 16 = true ∧
    (after (.engineMemoryOutsideAccess (.engine 9) 5 2 0x7FFC (some 0x01020304)) up).onchip.bytes.length = 4 ∧
    (after (.engineMemoryOutsideAccess (.engine 9) 5 2 0x7FFC none) (after (.engineMemoryOutsideAccess (.engine 9) 5 2 0x7FFC (some 0x01020304)) up)).out =
      [.value 0x01020304] := by decide +kernel

/-- A descriptor of LUN 3 whose LEN is 2 and BUF 0x40, with `ncw` codewords. -/
def descriptor (ncw : Nat) : List Word := [BitVec.ofNat 32 (0x5000000 + ncw * 0x10000 + 3 * 4096 + 9), 0x123456, 0x789A, 0xDDCCBBAA, 0x40, 0, 2, 0]

/-- A started program at micro-op 9, whose data phase or wait, where it is in one, the word `w` began. -/
def program (ncw : Nat) (ph : NandPhase) (w : Nat := 0) : NandRun := ⟨descriptor ncw, false, 9, 0x123456, false, ph, false, 0, 0, 0, 0, 0, w, false⟩

/-- Channel 0's sequencer runs, and the program of LUN 3 holds the bus at a micro-op. -/
def sequencing (w ncw : Nat) (ph : NandPhase) : State :=
  (up.puts [(NAND_CTRL_EN 0, 1), (NAND_UOP_WORD 0 9, w), (NAND_CQ_BASE_BUF 0, 0x40)]).setChan 0
    { luns := [(3, { run := some (program ncw ph w) })]
      bus := some (3, false) }

/-- What AtUop asks for, as a Boolean. -/
def atUop (s : State) (n l : Nat) (prio : Bool) (r : NandRun) (w : Nat) : Bool :=
  nandRuns s n && (s.chan n).bus == some (l, prio) && (s.lun n l).slot prio == some r && r.phase == .ready && s.get (NAND_UOP_WORD n (r.pc % 4096)) == w

/-- The completion ring of channel 0 takes an entry. -/
def ringTakes (s : State) : Bool := !nandRingFull s 0 && plainOf (bufAddress 0 (s.get (NAND_CQ_BASE_BUF 0)) / 16 * 16) == some (.chip 4 69 0 0x40) &&
  chipStop s 4 == none && hasRight s (moverOf 0) (bufAddress 0 (s.get (NAND_CQ_BASE_BUF 0)) / 16 * 16) true && s.onchip.due.isEmpty

theorem witness_NandMicroOps : atUop (sequencing 0x100000FF 1 .ready) 0 3 false (program 1 .ready 0x100000FF) 0x100000FF = true ∧
    atUop (sequencing 0 0 .ready) 0 3 false (program 0 .ready) 0 = true ∧ ringTakes (sequencing 0 0 .ready) = true ∧
    (after (.nandCmd 0) (sequencing 0x100000FF 1 .ready)).out = [.nand 0 3 0 [0xFF]] ∧
    (after (.nandAddr 0) (sequencing 0x20000000 1 .ready)).out = [.nand 0 3 1 [0x9A, 0x78, 0x56, 0x34, 0x12]] ∧
    (after (.nandAddr 0) (sequencing 0x20005503 1 .ready)).out = [.nand 0 3 1 [0x55]] ∧
    ((after (.nandDout 0) (sequencing 0x30000000 1 .ready)).lun 0 3).run = some (program 1 .data 0x30000000) ∧
    ((after (.nandDin 0) (sequencing 0x40000021 0 .ready)).lun 0 3).run = some (program 0 .data 0x40000021) ∧
    ((after (.nandWaitT 0) (sequencing 0x50000064 0 .ready)).lun 0 3).run = some (program 0 .waitT 0x50000064) ∧
    ((after (.nandWaitRb 0) (sequencing 0x60000001 0 .ready)).chan 0).bus = none ∧
    (after (.nandStatus 0 0xE1) (sequencing 0x70004040 0 .ready)).out = [.nand 0 3 0 [0x78], .nand 0 3 1 [0x56, 0x34, 0x12]] ∧
    (((after (.nandStatus 0 0xE1) (sequencing 0x70004040 0 .ready)).lun 0 3).run.map (·.pc)) = some 10 := by decide +kernel

theorem witness_NandMicroOps_ends : storedWord (after (.nandEnd 0) (sequencing 0 0 .ready)) 4 69 0 0x40 = encodeByte 0 ∧
    storedWord (after (.nandEnd 0) (sequencing 0 0 .ready)) 4 69 0 0x43 = encodeByte 5 ∧
    (after (.nandEnd 0) (sequencing 0 0 .ready)).get (NAND_CQ_WPTR_INDEX 0) = 1 ∧ (after (.nandEnd 0) (sequencing 0 0 .ready)).bit (ENG_IRQ_PEND_PEND 63) 19 = true ∧
    storedWord (after (.nandCmd 0) (sequencing 0xF0000000 0 .ready)) 4 69 0 0x40 = encodeByte 5 ∧
    storedWord (after (.nandDout 0) (sequencing 0x30000000 0 .ready)) 4 69 0 0x40 = encodeByte 8 ∧
    storedWord (after (.nandStatus 0 0xE1) (sequencing 0x70000040 0 .ready)) 4 69 0 0x40 = encodeByte 3 := by decide +kernel

/-- A descriptor of LUN 3 stands at 0x100 of crew SRAM. -/
def described : State :=
  (List.range 32).foldl (fun s i => storeWord s 4 69 0 (0x100 + i) (encodeByte (BitVec.ofNat 8 (((descriptor 0).getD (i / 4) 0).toNat / 256 ^ (i % 4)))))
    (up.puts [(NAND_CTRL_EN 0, 1), (NAND_CFG_CES 0, 3), (NAND_CFG_LUNS 0, 3)])

/-- The same, queued. -/
def queued (k : Nat) : State := described.setChan 0 { luns := [(3, { queue := List.replicate k (0x100, false) })] }

theorem witness_NandSequencer_queue : regGate described (.engine 5) 0x020000010010 4 true = .reach ∧
    ((after (.nandDescriptorPush (.engine 5) 0 0x100) (queued 31)).lun 0 3).queue.length = 32 ∧
    (((after (.nandDescriptorPush (.engine 5) 0 0x80000100) (queued 31)).lun 0 3).queue.head?) = some (0x100, true) ∧
    (after (.nandDescriptorPush (.engine 5) 0 0x100) (queued 32)).on (CH_CAUSE_NAND_QOVF 0) = true ∧
    nandRuns (queued 1) 0 = true ∧ nextProgram (queued 1) 0 = some (3, false) ∧ lunAbsent (queued 1) 0 3 = false ∧
    (List.range 32).all (fun i => syndrome (storedWord described 4 69 0 (0x100 + i)) == 0) = true ∧
    ((after (.nandBusGrant 0) (queued 1)).lun 0 3).run = some (program 0 .ready) ∧
    (((after (.nandBusGrant 0) ((sequencing 0 0 .resumable).setChan 0 { luns := [(3, { run := some (program 0 .resumable) })] })).lun 0 3).run.map (·.pc)) = some 10 := by
  decide +kernel

/-- The bus is free, and the program of LUN 3 waits for its LUN. -/
def awaiting : State := (up.put (NAND_CTRL_EN 0) 1).setChan 0 { luns := [(3, { run := some (program 0 (.waitRb 0) 0x60000001) })] }

theorem witness_NandSequencer_phases : plainOf (bufAddress 0 ((program 0 .data).word 4)) = some (.chip 4 69 0 0x40) ∧
    hasRight up (moverOf 0) (bufAddress 0 0x40) true = true ∧
    (((after (.nandWaitTExpiry 0) (sequencing 0 0 .waitT)).lun 0 3).run.map (·.pc)) = some 10 ∧
    storedWord (after (.nandDataPhaseDone 0 [0xAB, 0xCD] [] 0 none) (sequencing 0x40000001 0 .data)) 4 69 0 0x41 = encodeByte 0xCD ∧
    (after (.nandDataPhaseDone 0 [] [] 0 none) (sequencing 0x30000002 0 .data)).out = [.nand 0 3 2 [0xAA, 0xBB, 0xCC, 0xDD]] ∧
    (((after (.nandLunReady 0 3) (awaiting.onClocks fun c => { c with ts := 7 })).lun 0 3).run.map (·.busy)) = some 7 ∧
    (after (.nandLunReady 0 3) awaiting).out = [.nand 0 3 0 [0x78], .nand 0 3 1 [0x56, 0x34, 0x12]] ∧ nandRuns (awaiting.onClocks fun c => { c with halted := true }) 0 = false ∧
    (after (.nandWaitRbTimeout 0 3) awaiting).bit (NAND_STATUS_HALT 0) 3 = true ∧
    storedWord (after (.nandWaitRbTimeout 0 3) awaiting) 4 69 0 0 = encodeByte 4 := by decide +kernel

theorem witness_NandSequencer_registers : regGate up (.engine 5) 0x02000001000C 4 true = .reach ∧ regGate up (.engine 5) 0x02000001002C 4 true = .reach ∧
    regGate up (.engine 5) 0x020000010000 4 true = .reach ∧ regGate up (.engine 5) 0x020000010004 4 true = .reach ∧ (up.chan 0).ended = [] ∧
    (after (.nandResume (.engine 5) 0 8) (up.put (NAND_STATUS_HALT 0) 0xC)).get (NAND_STATUS_HALT 0) = 4 ∧
    (after (.nandCqRptrWrite (.engine 5) 0 7) up).get (NAND_CQ_RPTR_INDEX 0) = 7 ∧
    (after (.nandCfgWrite (.engine 5) 0 0x00FF0001) up).get (NAND_CFG_RATE 0) = 64 ∧ (after (.nandCfgWrite (.engine 5) 0 0x00FF0001) up).on (NAND_FLAGS_CLAMP 0) = true ∧
    ((after (.nandCfgWrite (.engine 5) 0 0x00FF0001) (sequencing 0 0 .ready)).chan 0).cfgPend.isSome = true ∧
    (after (.nandCtrlEn (.engine 5) 0 true true) up).on (NAND_CTRL_EN 0) = true ∧
    storedWord (after (.nandCtrlEn (.engine 5) 0 false false) (sequencing 0 0 .waitT)) 4 69 0 0x40 = encodeByte 7 ∧
    (after (.nandCtrlWpRel (.engine 5) 0 true) up).on (NAND_CTRL_WP_REL 0) = true := by decide +kernel

/-- Channel 0's memory is ready with 4 GiB, and Patina works in Full mode. -/
def dramUp : State := up.puts [(DRAM_STATUS_STATE 0, 4), (DRAM_CAP_INSTALLED 0, 4096), (DRAM_CAP_USABLE 0, 3264), (PAT_STATUS_STATE 0, 1)]

/-- An LDPC record of an operation stands at 0x100 of crew SRAM and its job is queued. -/
def jobQueued (op : Nat) : State :=
  ((storeWord up 4 69 0 0x100 (encodeByte (BitVec.ofNat 8 op))).put (LDPC_CQ_BASE_BUF 0) 0x40).setChan 0 { jobs := [0x100] }

theorem witness_Ldpc : runs (jobQueued 1) 132 = true ∧ (jobQueued 1).chan 0 = { jobs := [0x100] } ∧
    (List.range 32).all (fun i => syndrome (storedWord (jobQueued 1) 4 69 0 (0x100 + i)) == 0) = true ∧
    ((after (.ldpcHardDecode 0) (jobQueued 1)).chan 0).jobs = [] ∧ ((after (.ldpcEncode 0) (jobQueued 1)).chan 0).jobs = [0x100] ∧
    ((after (.ldpcSoftDecode3bit 0) (jobQueued 3)).chan 0).job.isSome = true ∧ ldpcRingFull (jobQueued 0) 0 = false ∧
    ldpcRingFull (up.put (LDPC_CQ_RPTR_INDEX 0) 1) 0 = true := by decide +kernel

/-- A hard decode with its buffers in channel DRAM runs. -/
def decoding : State := dramUp.setChan 0 { job := some [1, 0x80000000, 0x80001000, 0, 0, 0, 0, 0] }

theorem witness_Ldpc_ends : ringTakes (decoding.put (NAND_CQ_BASE_BUF 0) 0x40) = true ∧ ldpcRingFull decoding 0 = false ∧
    (rangeRead (plainAccess (moverOf 0)) (bufAddress 0 0x80000000) (jobInput 1 0) decoding.begin).2.1 = .ok ∧
    (rangeWrite (plainAccess (moverOf 0)) (bufAddress 0 0x80001000) (padBytes [] 4096)
      (rangeRead (plainAccess (moverOf 0)) (bufAddress 0 0x80000000) (jobInput 1 0) decoding.begin).2.2).2.1 = .ok := by decide +kernel

/-- A scan of five bytes of host memory runs with context 2, which holds a CRC-64. -/
def scanning : State := up.puts [(CRC_SCAN_BUSY 0, 1), (CRC_SCAN_CTX 0, 2), (CRC_SCAN_LEN 0, 5), (CRC_SCAN_SRC_HI 0, 0x400), (CRC_CTX_POLY 0 2, 2)]

theorem witness_Crc : regGate up (.engine 5) (0x020000030000 + 3 * 0x10) 4 true = .reach ∧ regGate up (.engine 5) 0x020000030100 4 true = .reach ∧
    ctxFed up 0 3 = false ∧ ctxFed scanning 0 2 = true ∧ up.on (CRC_SCAN_BUSY 0) = false ∧ plainOf (scanning.get64 (CRC_SCAN_SRC_LO 0) (CRC_SCAN_SRC_HI 0)) = none ∧
    (scanning.chan 0).scanWaits = false ∧ scanning.on (CRC_SCAN_BLK 0) = false ∧ scanning.get (CRC_CTX_POLY 0 2) < 4 ∧ ctxVal scanning 0 2 < 2 ^ crcWidth 2 ∧
    ctxVal (after (.crcCtxInit (.engine 5) 0 3 1) up) 0 3 = 0xFFFFFFFF ∧ (after (.crcCtxInit (.engine 5) 0 2 1) scanning).on (CRC_SCAN_WR_BUSY 0) = true ∧
    (after (.crcScanGo (.engine 5) 0 true false 3) up).on (CRC_SCAN_BUSY 0) = true ∧
    (after (.crcScanDone 0 [1, 2, 3, 4, 5] none) scanning).get (CRC_SCAN_COUNT 0) = 5 := by decide +kernel

/-- Channel 0 has a task of class 1 and cost 3 that its credit does not pay, and one of class 2 that costs nothing. -/
def tasks (credit : Nat) : State := (up.puts [(CREW_TQ_CREDIT_CREDIT 0, credit), (CREW_TQ_PROMOTE_STEP 0, 1)]).setChan 0
  { tasks := [⟨0x40, 1, 3, none, 0⟩, ⟨0x80, 1, 1, none, 0⟩, ⟨0xC0, 2, 0, none, 0⟩] }

theorem witness_TaskQueue : regGate up (.engine 5) 0x020000060000 4 true = .reach ∧ regGate up (.engine 5) 0x020000060004 4 false = .reach ∧
    regGate up .debug 0x020000060004 4 false = .reach ∧ regGate up (.engine 5) 0x020000000020 4 true = .reach ∧ regGate up (.engine 5) 0x020000000028 4 true = .reach ∧
    nextTask up 0 = none ∧ (nextTask (tasks 3) 0).map (·.2.off) = some 0x40 ∧ (nextTask (tasks 2) 0).map (·.2.off) = some 0x80 ∧
    (nextTask (tasks 0) 0).map (·.2.off) = some 0xC0 ∧ ((after (.crewTqPop (.engine 5) 0) (tasks 2)).chan 0).tasks.map (·.passed) = [1, 0] ∧
    (after (.crewTqPop (.engine 5) 0) (tasks 2)).get (CREW_TQ_CREDIT_CREDIT 0) = 1 ∧ (after (.crewTqPop (.engine 5) 0) up).out = [.value 0xFFFFFFFF] ∧
    ((after (.crewTqPush (.engine 5) 0 0x40) up).chan 0).tasks = [⟨0x40, 0, 0, none, 0⟩] ∧
    (after (.crewTqPush (.engine 5) 0 0x40) up).bit (ENG_IRQ_PEND_PEND 63) 18 = true ∧ (after (.crewTqPush (.engine 5) 0 0x48) up).on (CH_CAUSE_TQ_OVF 0) = true ∧
    ((after (.taskPromoted 0) (tasks 3)).chan 0).elig = true ∧ (after (.chSwdtLoad (.engine 5) 0 9) up).get (CH_SWDT_COUNT_COUNT 0) = 9 ∧
    (after (.chSwdtKick (.engine 5) 0 0x5A) (up.put (CH_SWDT_LOAD_LOAD 0) 9)).get (CH_SWDT_COUNT_COUNT 0) = 9 := by decide +kernel

/-- Channel 0's controller is configured for 16 Gbit dies at its second rate. -/
def dramSet (st kept : Nat) : State := up.puts [(DRAM_STATUS_STATE 0, st), (DRAM_CFG_DENSITY 0, 2), (DRAM_CFG_RATE 0, 1), (DRAM_STATUS_SR_KEPT 0, kept),
  (DRAM_CAP_INSTALLED 0, 4096), (DRAM_STATUS_RATE_EFF 0, 1), (DRAM_CFG_FALLBACK 0, 1)]

theorem witness_DramController : regGate up (.engine 5) 0x020000040004 4 true = .reach ∧ dramCfgGood (dramSet 0 0) 0 = true ∧
    dramCfgGood ((dramSet 0 0).put (DRAM_CFG_DENSITY 0) 7) 0 = false ∧ runs up 164 = true ∧ dramTrains (dramSet 3 0) 0 = true ∧ dramMib (dramSet 0 0) 0 = some 4096 ∧
    (after (.dramCtrlStart (.engine 5) 0) (dramSet 8 0)).get (DRAM_STATUS_STATE 0) = 1 ∧ (after (.dramCtrlStart (.engine 5) 0) (dramSet 0 1)).get (DRAM_STATUS_STATE 0) = 2 ∧
    (after (.dramCtrlStart (.engine 5) 0) ((dramSet 0 0).put (DRAM_CFG_DENSITY 0) 7)).on (DRAM_STATUS_CFG_BAD 0) = true ∧
    ((after (.dramCtrlRefAll (.engine 5) 0) (dramSet 4 0)).dramc 0).refAll = true ∧ (after (.dramAutoStart 0) (dramSet 0 1)).get (DRAM_STATUS_STATE 0) = 2 ∧
    (after (.dramInitComplete 0 0x11223344 0x55667788) (dramSet 3 0)).get (DRAM_CAP_USABLE 0) = 3264 ∧
    (after (.dramInitComplete 0 0x11223344 0x55667788) (dramSet 3 0)).get (DRAM_TRAIN_RD_MARGIN 0 0) = 0x11 ∧
    (after (.dramTrainingFailure 0 5 1) (dramSet 3 0)).get (DRAM_STATUS_RATE_EFF 0) = 0 ∧
    (after (.dramTrainingFailure 0 1 1) (dramSet 3 0)).get (DRAM_STATUS_STATE 0) = 8 ∧
    (after (.dramTrainingFailure 0 5 1) ((dramSet 3 0).put (DRAM_STATUS_RATE_EFF 0) 0)).get (DRAM_STATUS_FAIL_SUB 0) = 1 := by decide +kernel

theorem witness_DramController_errors : (dramSet 5 0).get (DRAM_STATUS_STATE 0) = 5 ∧ (up.dramc 0).lastErr = 0 ∧
    up.get WAKE_COUNT_RECOVERIES + 1 < 2 ^ WAKE_COUNT_RECOVERIES.w ∧
    (after (.dramSelfRefreshEntry 0) (dramSet 5 0)).on (DRAM_STATUS_SR_KEPT 0) = true ∧ (after (.dramStateError 0 false) (dramSet 4 0)).get (DRAM_STATUS_STATE 0) = 7 ∧
    (after (.dramStateError 0 false) ((dramSet 4 0).setDramc 0 { lastErr := 1 })).get (DRAM_STATUS_STATE 0) = 8 ∧
    (after (.dramStateError 0 false) (((dramSet 4 0).setDramc 0 { lastErr := 1 }).onClocks fun c => { c with ts := 1000000 })).get (DRAM_STATUS_STATE 0) = 7 ∧
    (after (.dramStateError 0 false) ((dramSet 4 0).setDramc 0 { reads := [⟨64, 1⟩], writes := [⟨128, 0⟩] })).on (DRAM_CAUSE_STATE_ERR 0) = true ∧
    ((after (.dramStateError 0 false) ((dramSet 4 0).setDramc 0 { reads := [⟨64, 1⟩], writes := [⟨128, 0⟩] })).dramc 0).held = [(true, 128), (false, 64)] ∧
    (after (.dramUnitResetDone 0) (dramSet 7 0)).get (DRAM_STATUS_STATE 0) = 4 ∧ (after (.dramUnitResetDone 0) ((dramSet 7 0).setDramc 0 { sr := some .easy })).get (DRAM_STATUS_STATE 0) = 5 := by
  decide +kernel

/-- Two requests for one row wait: a write, then a read of another line. -/
def rowed : State := (dramSet 4 0).setDramc 0 { reads := [⟨0x40, 1⟩], writes := [⟨0x80, 0⟩], rows := [(0, 1), (3, 5)], seq := 2, strict := [(32, 1)] }

theorem witness_DramQueues : (0x3F : Nat) / 64 * 64 < rowed.get (DRAM_CAP_INSTALLED 0) * 2 ^ 20 ∧ (rowed.dramc 0).hasRoom false = true ∧
    ({ reads := List.replicate 64 ⟨0, 0⟩ } : DramCtrl).hasRoom false = false ∧ oldestFor 0x40 (rowed.dramc 0).reads = some ⟨0x40, 1⟩ ∧
    oldestFor 0xC0 (rowed.dramc 0).reads = none ∧ (rowed.dramc 0).inOrder (placeOf rowed 0) ⟨0x80, 0⟩ = true ∧
    ((after (.dramRequest 0 false 0x140) rowed).dramc 0).reads.length = 2 ∧
    ((after (.dramRequest 0 false 0x140) ((dramSet 4 0).setDramc 0 { reads := List.replicate 64 ⟨0, 0⟩ })).dramc 0).held = [(false, 0x140)] ∧
    ((after (.dramBurstComplete 0 true 0x80) rowed).dramc 0).writes = [] ∧ (after (.dramRefreshTick 0 true) rowed).get (DRAM_REF_POSTPONED 0) = 0 ∧
    (after (.dramRefreshTick 0 false) rowed).get (DRAM_REF_POSTPONED 0) = 1 ∧
    (after (.dramRefreshTick 0 false) (rowed.setDramc 0 { postponed := 8 })).on (DRAM_CAUSE_REF_LATE 0) = true ∧ (rowed.dramc 0).postponed < 8 ∧
    (after (.dramMr4Poll 0 3 true true) rowed).on (DRAM_CAUSE_TEMP 0) = true ∧ ((after (.dramRowIdleClose 0 3) rowed).dramc 0).rows = [(0, 1)] ∧
    ((after (.dramRowIdleClose 0 0) rowed).dramc 0).rows = [(0, 1), (3, 5)] ∧ (placeOf rowed 0 0x80).key = 0 ∧
    ({ rowed.dramc 0 with writes := [⟨0xC0, 0⟩] } : DramCtrl).inOrder (placeOf rowed 0) ⟨0x40, 1⟩ = false ∧
    (after (.dramRdWindow 0) (rowed.puts [(DRAM_RD_CFG_ALARM 0, 1), (DRAM_RD_STAT_MITIG 0, 65)])).on (DRAM_CAUSE_RD_STORM 0) = true ∧
    (after (.dramRdWindow 0) (rowed.puts [(DRAM_RD_CFG_ALARM 0, 1), (DRAM_RD_STAT_MITIG 0, 64)])).on (DRAM_CAUSE_RD_STORM 0) = false := by decide +kernel

/-- Line 5 of channel 0 holds 7 and line 6 is poisoned; sub-page data of page 0. -/
def lines : State :=
  { dramUp with
    dram := [(320, 7)]
    patinas := [(0, { g0 := 1, major := [(0, 1)], minor := [(5, 1), (6, 1)], lineKey := [], marks := [6], reenc := [0] })] }

/-- The same in Cipher-only mode, with block 0 touched. -/
def ciphered : State := { dramUp.put (PAT_CFG_MODE 0) 1 with
  dram := [(320, 7)]
  patinas := [(0, { touched := [0], fill := [0] })] }

theorem witness_PatinaLines : hasRight lines (.engine 5) (lineAddress 0 0 320) false = true ∧ hasRight lines (.engine 5) (lineAddress 0 0 320) true = true ∧
    hasRight (lines.put (SEC_RIGHTS_RD 8) 0) (.engine 5) (lineAddress 0 0 320) false = false ∧
    hasRight (lines.put (SEC_RIGHTS_WR 8) 0) (.engine 5) (lineAddress 0 0 320) true = false ∧
    channelStop lines 0 5 0 false = none ∧ channelStop lines 0 5 0 true = none ∧ channelStop up 0 5 0 false = some .decodeError ∧
    channelStop (lines.put (PAT_STATUS_STATE 0) 4) 0 5 0 false = some .poison ∧ lineInDram lines 0 5 = true ∧ lineInDram lines 0 64 = false ∧
    smGet 0 (lines.patina 0).lineKey 5 = accessKey lines 0 0 ∧ lines.get (PAT_COUNT_CE 0) + 1 < 2 ^ 32 ∧ cipherOnly lines 0 = false ∧ cipherOnly ciphered 0 = true ∧
    lines.bit SEC_ESCALATE_ESC 0 = false ∧ lines.bit SEC_ESCALATE_ESC 1 = false ∧ lines.on (PAT_SUBTREE_VALID 0 0) = false ∧ lines.clocks.halted = false ∧
    strictPage lines 0 0 = false := by decide +kernel

theorem witness_PatinaLines_reads : (after (.patinaLineRead 0 (.engine 5) 0 320 4 false .ok) lines).out = [.data 7 false] ∧ (after (.patinaLineRead 0 (.engine 5) 0 4096 4 false .ok) lines).out = [.data 0 false] ∧
    (after (.patinaLineRead 0 (.engine 5) 0 320 4 false (.corrected 1)) lines).get (PAT_COUNT_CE 0) = 1 ∧ (after (.patinaLineRead 0 (.engine 5) 0 384 4 false .ok) lines).get (PAT_ERR_LOG_KIND 0) = 3 ∧
    (after (.patinaLineRead 0 (.engine 5) 0 320 4 false .eccFail) lines).get (PAT_ERR_LOG_KIND 0) = 2 ∧ ((after (.patinaLineRead 0 (.engine 5) 0 320 4 false .eccFail) lines).patina 0).marks.contains 5 = true ∧
    (after (.patinaLineRead 0 (.engine 5) 0 320 4 false .tagFail) lines).out.getLast? = some .busError ∧ (after (.patinaLineRead 0 (.engine 5) 0 320 4 false .tagFail) lines).on SEC_CAUSE_DATA_FAIL = true ∧
    (after (.patinaLineRead 0 (.engine 5) 0 320 4 false (.treeTag 2 0)) lines).get (PAT_SUBTREE_LEVEL 0 0) = 2 ∧ (after (.patinaLineRead 0 (.engine 5) 0 320 4 true .tagFail) lines).get SEC_HALT_LOG_KIND = 1 ∧
    (after (.patinaLineRead 0 (.engine 5) 0 320 4 false .ok) (lines.put (SEC_RIGHTS_RD 8) 0)).out = [.data 0 false] ∧ (after (.patinaLineRead 0 (.engine 5) 0 320 4 false .ok) ciphered).out = [.data 7 false] := by decide +kernel

theorem witness_PatinaLines_writes : lineValue (after (.patinaLineWrite 0 (.engine 5) 0 320 9 false) lines) 0 5 = 9 ∧
    smGet 0 ((after (.patinaLineWrite 0 (.engine 5) 0 320 9 false) lines).patina 0).minor 5 = 2 ∧
    ((after (.patinaLineWrite 0 (.engine 5) 0 384 9 false) lines).patina 0).marks = [] ∧
    smGet 0 ((after (.patinaLineWrite 0 (.engine 5) 0 4096 9 false) lines).patina 0).major 1 = 2 ∧
    lineValue (after (.patinaLineWrite 0 (.engine 5) 0 0x200000 9 false) (ciphered.put (PAT_CFG_MODE 0) 1)) 0 5 = 7 ∧
    lineValue (after (.patinaPartialWrite 0 (.engine 5) 0 320 2 0xAB00 false .ok) lines) 0 5 = 0xAB07 ∧
    (after (.patinaPartialWrite 0 (.engine 5) 0 320 2 0xAB00 false .eccFail) lines).get (PAT_ERR_LOG_KIND 0) = 7 ∧
    (after (.patinaPartialWrite 0 (.engine 5) 0 320 2 0xAB00 true .eccFail) lines).out.getLast? = some .done := by decide +kernel

theorem witness_PatinaInstances : regGate lines (.engine 5) 0x020000050008 4 true = .reach ∧ lineWritten lines 0 5 = true ∧ runs lines 164 = true ∧
    (lines.put (PAT_SUBTREE_VALID 0 15) 1).on (PAT_SUBTREE_VALID 0 15) = true ∧ (lines.patina 0).lastErr = 0 ∧ (lines.patina 0).before < 16 ∧
    ((after (.pageReencryptDone 0 0 []) lines).patina 0).reenc = [] ∧ (after (.pageReencryptDone 0 0 [5]) lines).get (PAT_ERR_LOG_KIND 0) = 8 ∧
    ((after (.cipherBlockFillDone 0 0) ciphered).patina 0).fill = [] ∧
    (after (.patCtrlClear (.engine 5) 0 15) (lines.put (PAT_SUBTREE_VALID 0 15) 1)).on (PAT_SUBTREE_VALID 0 15) = false ∧
    ((after (.patCtrlClear (.engine 5) 0 15) (lines.put (PAT_SUBTREE_VALID 0 15) 1)).patina 0).major = [] ∧
    (after (.patinaStateError 0) lines).get (PAT_STATUS_STATE 0) = 3 ∧
    (after (.patinaStateError 0) (lines.setPatina 0 { lastErr := 1 })).get (PAT_STATUS_STATE 0) = 4 ∧
    (after (.patinaUnitResetDone 0) ((lines.put (PAT_STATUS_STATE 0) 3).setPatina 0 { before := 1 })).get (PAT_STATUS_STATE 0) = 1 := by decide +kernel

/-- Channel 0 alone is in the dump state. -/
def dumping : State := { lines.puts [(PAT_STATUS_STATE 0, 2), (SEC_DUMP_CH, 1), (SEC_STATUS_DUMP_HELD, 1)] with security := { lines.security with keys := [(1, 9)] } }

theorem witness_PatinaInstances_release : dumping.get (PAT_STATUS_STATE 0) = 2 ∧ dumping.get SEC_DUMP_CH = 2 ^ 0 ∧
    (after (.patCtrlRelease (.engine 5) 0) dumping).get (PAT_STATUS_STATE 0) = 1 ∧ smGet 0 (after (.patCtrlRelease (.engine 5) 0) dumping).security.keys 1 = 0 ∧
    (after (.patCtrlRelease (.engine 5) 0) dumping).on SEC_STATUS_DUMP_HELD = false ∧ (after (.patCtrlRelease (.engine 5) 0) dumping).dram = [] := by decide +kernel

theorem witness_Keys : regGate up (.host 0 0) (0x030000050200 + 15 * 4) 4 true = .reach ∧ up.on SEC_LOCK_KEYS = false ∧
    (up.put SEC_LOCK_KEYS 1).on SEC_LOCK_KEYS = true ∧ up.get (SEC_KS_CTRL_STATE 0) = 0 ∧ regGate up (.host 0 0) 0x030000050010 4 true = .reach ∧
    regGate up (.host 0 0) 0x030000050200 4 true = .reach ∧
    smGet 0 (after (.ksLoadTrng (.host 0 0) 15) up).security.keys 15 = up.security.drawn + 1 ∧ (after (.ksLoadTrng (.host 0 0) 15) up).get (SEC_KS_CTRL_STATE 15) = 1 ∧
    (after (.ksLoadTrng (.host 0 0) 0) up).get (PAT_STATUS_STATE 15) = 1 ∧
    smGet 0 (after (.ksLoadData (.host 0 0) 2) { up with security := { up.security with ksData := [(0, 7)] } }).security.keys 2 = 2 ^ 512 + 7 ∧
    (after (.ksClose (.host 0 0) 2) (up.put (SEC_KS_CTRL_STATE 2) 1)).get (SEC_KS_CTRL_STATE 2) = 0 ∧
    (after (.secLockRights (.host 0 0)) up).on SEC_LOCK_RIGHTS = true ∧ (after (.secLockDbg (.host 0 0)) up).on SEC_LOCK_DBG = true ∧
    (after (.secLockDump (.host 0 0)) up).on SEC_LOCK_DUMP = true ∧ (after (.secLockKeys (.host 0 0)) up).on SEC_STATUS_SERVICE = true := by decide +kernel

/-- An owner request to program slot 3, authorised by no slot. -/
def owner (op slot : Nat) : State := { up.puts [(SEC_OTP_STATUS_BUSY, 1), (SEC_UID_UID_LO, 0), (SEC_UID_UID_HI, 0)] with
  security := { up.security with otpBuf := [(0, op), (1, slot), (2, 0xFF), (0x10, 5)] } }

theorem witness_OwnerSlots : regGate up (.host 0 0) 0x030000050110 4 true = .reach ∧ (owner 1 3).on SEC_OTP_STATUS_BUSY = true ∧ up.bit SEC_ESCALATE_ESC 5 = false ∧
    otpShape (owner 1 3) = true ∧ otpShape (owner 1 4) = false ∧ otpBytes (owner 1 3) 0 1 = 1 ∧ otpResult (owner 1 3) true 5 true = 0 ∧
    otpResult ((owner 1 3).put SEC_LOCK_KEYS 1) true 5 true = 6 ∧ (after (.otpProgram (.host 0 0)) up).on SEC_OTP_STATUS_BUSY = true ∧
    (after (.otpRevoke (.host 0 0)) up).on SEC_OTP_STATUS_BUSY = true ∧ (endOtp (otpResult (owner 1 3) true 5 true) (owner 1 3)).on (SEC_OWNER_PROGRAMMED 3) = true ∧
    smGet 0 (endOtp (otpResult (owner 1 3) true 5 true) (owner 1 3)).security.digests 3 = 5 ∧ (endOtp (otpResult (owner 1 4) true 5 true) (owner 1 4)).get SEC_OTP_STATUS_RESULT = 1 := by
  decide +kernel

/-- Slot 2 is to be revoked, with slot 1's authority. -/
def revoking : State := { up.puts [(SEC_OTP_STATUS_BUSY, 1), (SEC_UID_UID_LO, 0), (SEC_UID_UID_HI, 0), (SEC_OWNER_PROGRAMMED 1, 1), (SEC_OWNER_PROGRAMMED 2, 1)] with
  security := { up.security with otpBuf := [(0, 2), (1, 2), (2, 1)], digests := [(1, 5)] } }

theorem witness_OwnerSlots_revoke : otpResult revoking true 5 true = 0 ∧ (endOtp (otpResult revoking true 5 true) revoking).on (SEC_OWNER_REVOKED 2) = true ∧
    otpBytes revoking 0 1 ≠ 1 ∧ up.bit SEC_ESCALATE_ESC 4 = false ∧ up.bit SEC_ESCALATE_ESC 3 = false ∧ (up.put SEC_ESCALATE_ESC 8).bit SEC_ESCALATE_ESC 3 = true ∧
    up.on SEC_CAUSE_GLITCH = false ∧ State.reset.security.keyDue = true ∧ (after .trngHealthFail State.reset).get (PAT_STATUS_STATE 3) = 0 ∧
    (after .trngHealthFail up).on SEC_CAUSE_TRNG = true ∧ (after .secGlitch up).on SEC_CAUSE_GLITCH = true ∧
    (after .secGlitch (up.put SEC_ESCALATE_ESC 8)).get RST_CAUSE_SEC_ALARM = 1 := by decide +kernel

/-- The exchange stands at a state, a session is open and a stream key may be set. -/
def spdm (x : SpdmPhase) : State := { up with security := { up.security with spdm := x, signed := true, exchange := true, sessions := [9], insecure := [12] } }

theorem witness_Spdm : bamidRuns up = true ∧ bamidRuns State.reset = false ∧ up.security.spdm ≠ .algorithms ∧ (spdm .algorithms).security.exchange = true ∧
    (9 : Nat) ∈ (spdm .algorithms).security.sessions ∧ (after .getVersion up).out = [.spdm 0x84 0x13] ∧ (after .getCapabilities (spdm .version)).out = [.spdm 0xE1 0] ∧
    (after .negotiateAlgorithms (spdm .version)).out = [.spdmError 0xE3] ∧ (after .negotiateAlgorithms (spdm .capabilities)).out = [.spdm 0xE3 0] ∧
    (after .getDigests (spdm .version)).out = [.spdmError 0x81] ∧ (after (.getCertificate 2) (spdm .algorithms)).out = [.spdmError 0x82] ∧
    (after (.getMeasurements 22 false) (spdm .algorithms)).out = [.spdmError 0xE0] ∧ (after (.getMeasurements 19 false) (spdm .algorithms)).out = [.spdm 0xE0 0] ∧
    (after (.finish 7 true) (spdm .algorithms)).out = [.spdm 0xE5 7] ∧ (after (.endSession 9) (spdm .algorithms)).security.sessions = [] ∧
    (after (.ideKmMessage 1 4 9) (spdm .algorithms)).security.keyed = [12] ∧ (after (.ideKmMessage 1 4 9) (spdm .algorithms)).security.insecure = [] ∧
    (after (.challenge 1) (spdm .algorithms)).security.signed = true ∧ (after (.keyExchange 1) (spdm .algorithms)).security.exchange = true ∧
    (after (.ideKmMessage 1 4 8) (spdm .algorithms)).out = [.spdmError 0x100] ∧ (after .uzPqsig up).out = [.spdmError 0xFE] := by decide +kernel

/-- Both links are up with CXL, a full image runs, and HDM range `r` maps 256 MiB at 0 of channel 0. -/
def linked : State := (dramUp.puts [(CFG_STATUS_STATE, 0xA), (HP_STATUS_UP 0, 1), (HP_STATUS_UP 1, 1), (HP_STATUS_CXL 0, 1), (HP_STATUS_CXL 1, 1), (HP_STATUS_MEM 0, 1),
  (HP_STATUS_MEM 1, 1), (HP_HDM_EN 0, 1), (HP_HDM_SIZE 0, 1), (HP_HDM_EN 4, 1), (HP_HDM_SIZE 4, 1)]).onConfig fun c => { c with started := true }

/-- The same, with line 1 of channel 0 granted to a port. -/
def shared (port : Nat) : State := linked.onHost fun h => { h with dir := [(1, ⟨port, true⟩)] }

theorem witness_HostRequests : subUp linked 1 (4 % 4) = true ∧ started linked = true ∧ linked.on (HP_STATUS_CXL 1) = true ∧ linked.on (HP_STATUS_MEM 1) = true ∧
    hdmMap linked 4 0x10000000 = none ∧ hdmMap linked 4 64 = some 64 ∧ plainOf 64 = some (.dram 0 64 0) ∧ easyHolds linked 4 = false ∧
    linked.host.failed = [] ∧ linked.host.biSnoops = [] ∧ linked.host.dir = [] ∧ hasRight linked (.host 1 1) 64 true = true ∧ channelStop linked 0 1 0 true = none ∧
    (linked.patina 0).marks = [] ∧ smGet 0 (linked.patina 0).lineKey 1 = accessKey linked 0 0 ∧
    (after (.hostMemRead 1 4 9 0x10000000 none) linked).on (HP_CAUSE_HDM_RANGE 1) = true ∧
    (after (.hostMemRead 1 4 9 64 (some true)) linked).host.dir = [(1, ⟨1, true⟩)] ∧
    (after (.hostMemRead 1 4 9 64 none) linked).wake.entries.map (fun e => (e.req.tag, e.req.rsp)) = [(9, some (.data 0 false))] ∧
    lineValue (after (.hostMemWrite 1 4 9 64 3 0x1234 none) linked) 0 1 = 0x1234 ∧
    (after (.hostMemWrite 1 4 9 64 3 0x1234 none) (shared 0)).out = [.biSnp 0 1 1] := by decide +kernel

theorem witness_HostRequests_io : functionHere up 0 1 = false ∧ functionHere linked 0 2 = true ∧ ordinary (0x030000000000 + 0x60020) = true ∧
    (rowOf (0x030000000000 + 0x60020)).isSome = true ∧ regGate linked (.host 0 0) (0x030000000000 + 0x60020) 4 false = .reach ∧ linked.clocks.latch = [] ∧
    isLowWord (0x030000000000 + 0x60020) = false ∧ regGate linked (.host 0 0) (0x030000000000 + 0x60020) 4 true = .reach ∧
    (after (.hostAtomicop 0 0 9) linked).out = [.hostUr 0 9] ∧ (after (.hostIoRead 0 1 9 0 4) (linked.put (HP_STATUS_CXL 0) 0)).out = [.hostUr 0 9] ∧
    (after (.hostIoWrite 0 0 9 0x60020 4 5) linked).get NOC_CTRL_STALL_LIM = 5 ∧
    (after (.hostIoRead 0 2 9 8 4) linked).wake.entries.map (·.req.rsp) = [some (.data 0x20000 false)] := by decide +kernel

/-- Every stream of port 0 has its key, and stream 0 is Insecure. -/
def streamed : State := linked.onSec fun x => { x with keyed := [0, 1, 2, 3, 4], insecure := [0] }

/-- R296: the four outcomes, each with a word that brings it. -/
theorem witness_HostRequests_ide : ideKeyed linked 1 = false ∧ ideKeyed streamed 0 = true ∧ streamed.bit SEC_ESCALATE_ESC 2 = false ∧
    ideStream streamed 0 5 = none ∧ ideStream streamed 0 0 = some 0 ∧ ideStream streamed 0 4 = some 4 ∧ ideStream streamed 0 12 = some 4 ∧
    (12#32).getLsbD 3 = true ∧ streamed.security.insecure.contains 4 = false ∧ ideStream streamed 1 4 = none := by decide +kernel

/-- A request of PF0 of port A waits for its answer in the journal. -/
def posted (opc : Nat) : State := { up with wake := { up.wake with
  entries := [⟨0, false, 0, 5, false, false, 2, 0, ⟨136, 7, .host 0 0, opc, 0x020028000008, 3, none, true, none, false, 0, false, false⟩, true, 0, 0, 0, 0⟩] } }

theorem witness_HostRequests_config : runs up 180 = true ∧ functionState up 0 1 = 1 ∧ functionState (up.onHost fun h => { h with absent := [0] }) 0 1 = 2 ∧
    (after (.hostConfigRequest 0 1 9 0 none) up).out = [.hostCrs 0 9] ∧ (after (.hostConfigRequest 0 3 9 0 none) up).out = [.hostUr 0 9] ∧
    (after (.hostConfigRequest 0 0 9 0 none) up).out = [.hostData 0 9 0x0D091D5A false] ∧
    (after (.hostConfigRequest 0 0 9 1 (some 0)) up).host.busMasterOff = [0] ∧ up.clocks.perst.contains 0 = false ∧
    postedBefore up 0 0 = false ∧ postedBefore (posted 1) 0 0 = true ∧ (after (.hostConfigRequest 0 0 9 0 none) (posted 1)).out = [.held] ∧
    (after (.hostConfigRequest 0 0 9 0 none) (up.onClocks fun c => { c with halted := true })).out = [.hostAbort 0 9] := by decide +kernel

/-- A request of engine 5 to the window of port A waits for the host's completion of tag 3. -/
def sent (acc : Bool) (tag : Nat) : State := { linked with wake := { linked.wake with
  entries := [⟨0, true, 3, 0, false, false, 2, 0, ⟨136, tag, .engine 5, 0, 0x040000000000, 3, none, acc, none, false, 0, false, false⟩, false, 0, 0, 0, 0⟩] } }

/-- A back-invalidation of line 1 is out to port B. -/
def invalidating (inv : Bool) : State := (shared 1).onHost fun h => { h with biSnoops := [⟨1, 1, inv, [(.host 0 1, 9)]⟩] }

theorem witness_HostAnswers : ((after (.hostCompletion 0 3 true 0x1122334455) (sent false 7)).wake.entries.map (fun e => (e.state, e.data))) = [(3, 0x22334455)] ∧
    (after (.hostCompletion 0 3 true 0) (sent true 16384)).wake.entries = [] ∧ (after (.hostCompletion 0 4 true 0) (sent false 7)).wake = (sent false 7).wake ∧
    ((invalidating true).host.biSnoops.find? (fun b => b.port == 1 && b.line == 1)).isSome = true ∧ channelStop linked (1 / 2 ^ 30) (1 % 2 ^ 30) 0 true = none ∧
    (after (.birsp 1 1 none) (invalidating true)).host.dir = [] ∧ (after (.birsp 1 1 none) (invalidating false)).host.dir = [(1, ⟨1, false⟩)] ∧
    lineValue (after (.birsp 1 1 (some 7)) (invalidating true)) 0 1 = 7 ∧ (after (.biTimeout 1 1) (invalidating true)).on (HP_CAUSE_BI_TO 1) = true ∧
    (after (.biTimeout 1 1) (invalidating true)).host.failed = [(.host 0 1, 9)] ∧ up.bit LANE_HTEST_PORT 1 = false ∧ subLinks up 1 = 1 ∧
    subLinks (up.put (HP_STATUS_BIF 1) 2) 1 = 4 ∧ (after (.linkRetrain 0 0 true 6 16 true true true true) up).on (HP_STATUS_CACHE 0) = true ∧
    (after (.linkRetrain 1 0 true 6 16 true true true true) up).on (HP_STATUS_CACHE 1) = false ∧
    (after (.linkRetrain 1 0 false 6 16 true true true true) linked).on (HP_CAUSE_LINK_DOWN 1) = true := by decide +kernel

/-- A recovery of the hub switch runs, with one entry held. -/
def recovering (quiet : Bool) (held : Bool) : State := { up.puts [(WAKE_STATUS_ACTIVE, 1)] with
  clocks := { up.clocks with ts := 60000000 }
  wake := { up.wake with
    recs := [⟨3, 20 * 2048 + 18, 0, false, quiet, 0, 0, 0⟩]
    entries := if held then [⟨0, false, 0, 5, false, false, 1, 0, ⟨136, 7, .host 0 0, 0, 0x020028000008, 3, none, false, none, false, 0, false, false⟩, false, 0, 0, 0, 0⟩] else [] } }

theorem witness_Recoveries : chanUp up 3 (132 + 3) = true ∧ runs up 180 = true ∧ up.wake.recs = [] ∧ smGet 0 up.wake.done (20 * 2048 + 18) = 0 ∧
    runs State.reset 180 = false ∧ (after .hubSwitchFault up).wake.recs.length = 1 ∧ (after (.channelBridgeFault 3) up).get WAKE_STATUS_UNIT = 7 * 2048 + 70 ∧
    max 20 (up.get WAKE_CTRL_QUIET_TO) * 1000 ≤ 60000000 ∧ (after (.wakeQuiet 0xA012) (recovering false false)).on WAKE_STATUS_QUIET = true ∧
    (after (.wakeQuietTimeout 0xA012) (recovering false false)).on WAKE_STATUS_QUIET = true ∧
    (after (.wakeQuietTimeout 0xA012) ((recovering false false).onClocks fun c => { c with ts := 0 })).on WAKE_STATUS_QUIET = false ∧
    (after (.wakeRecoveryDone 0xA012) (recovering true false)).on WAKE_CAUSE_RECOVERED = true ∧ (after (.wakeRecoveryDone 0xA012) (recovering true false)).wake.recs = [] ∧
    (after (.wakeHoldLimit 0 5) (recovering false true)).out = [.hostAbort 0 7] ∧ (after (.wakeHoldLimit 0 5) (recovering false true)).on WAKE_CAUSE_HOLD_LIM = true ∧
    (after (.wakeHoldLimit 0 5) ((recovering false true).onClocks fun c => { c with ts := 0 })).wake.entries.length = 1 ∧
    regGate up (.host 0 0) 0x030000070100 4 true = .reach ∧ ((portEntries (recovering false true) 0 false).find? (fun e => e.slot == 0)).map (·.seq) = some 5 := by decide +kernel

/-- Port A serves PF2: an I/O queue pair 1 and the admin queue with one command each; namespace 1 stands on channel 2, whose firmware runs. -/
def nvme : State :=
  { linked.puts [(HP_NS_VALID 0, 1), (HP_NS_CH 0, 2), (CH_FW_STATE 2, 2)] with
    host := { linked.host with queues := [(0, ⟨16, 0, 1, 16, 0, 0, true, 0⟩), (1, ⟨16, 0, 1, 16, 0, 0, true, 5⟩)] } }

/-- A read command of a namespace; an admin command that makes completion queue 3 with 16 entries. -/
def nvRead (ns : Nat) : BitVec 512 := BitVec.ofNat 512 (2 + 7 * 2 ^ 16 + ns * 2 ^ 32)
def nvMake : BitVec 512 := BitVec.ofNat 512 (5 + 3 * 2 ^ 320 + 15 * 2 ^ 336)

theorem witness_Nvme : portServes nvme 0 = true ∧ (5 : Nat) < (nvQueue nvme 0 1).size ∧ (nvQueue nvme 0 1).hasRoom = true ∧ nvme.host.cmds = [] ∧
    takesInbound nvme 2 = true ∧ inboundOffset nvme 2 (nvme.get (HP_NVCH_IN_WP 2)) % 64 = 0 ∧ nvme.on (HP_NS_VALID 0) = true ∧ slice (nvRead 1).toNat 32 32 = 1 ∧
    bamidRuns nvme = true ∧ nvMake.toNat % 256 = 5 ∧ slice nvMake.toNat 320 16 = 3 ∧ slice nvMake.toNat 336 16 = 15 ∧ slice nvMake.toNat 353 1 = 0 ∧
    (nvQueue (after (.nvmeSqDoorbell 0 1 5) nvme) 0 1).tail = 5 ∧
    (after (.nvmeCommandDispatch 0 1 (nvRead 1)) nvme).host.cmds.map (fun c => (c.cmd, c.chan)) = [((nvRead 1).toNat, some 2)] ∧
    ((after (.nvmeCommandDispatch 0 1 (nvRead 1)) nvme).chan 2).tasks.length = 1 ∧ (after (.nvmeCommandDispatch 0 1 (nvRead 2)) nvme).out.length = 1 ∧
    (nvQueue (after (.nvmeCommandDispatch 0 0 nvMake) nvme) 0 3).cqSize = 16 := by decide +kernel

/-- Channel 2's firmware has put an outbound entry for queue 1. -/
def outbound : State := storeWord (storeWord (nvme.puts [(HP_NVCH_OUT_BASE 2, 8)]) 6 69 0 (256 + 10) (encodeByte 1)) 6 69 0 (256 + 12) (encodeByte 7)

theorem witness_Nvme_outbound : regGate outbound (.engine 130) (0x030000080818 + 2 * 0x40) 4 true = .reach ∧
    (List.range 32).all (fun i => syndrome (storedWord outbound 6 69 0 (256 + i)) == 0) = true ∧ bytesValue outbound 6 69 0 (256 + 10) 2 = 1 ∧
    (after (.nvmeOutWpWrite (.engine 130) 2 1) outbound).get (HP_NVCH_OUT_RP 2) = 1 ∧ (after (.nvmeOutWpWrite (.engine 130) 2 1) outbound).out.length = 2 := by
  decide +kernel

/-- Slot 3 runs on hub engine 0, in Bamid's handler for a call with its arguments where `num` names one, else in its program. -/
def slot (num : Option Nat) (cap : Nat) (args : List (Nat × Word)) : State :=
  { (up.puts [(SLOT_OWNER 3, 1), (SLOT_STATE 3, 3), (SLOT_CAP 3, cap), (SLOT_WDT 3, 9), (SLOT_LEN 3, 8), (ENG_CTRL_RUN 1024, 1), (ENG_STATUS_STATE 1024, 1), (CFG_STATUS_STATE, 0xA)]).setEng 1024
      (match num with
        | some k => { u := args, ecause := BitVec.ofNat 32 (0x0A + k * 2 ^ 16), ectx := 0x43, st := 0x200, epc := 0x4004 }
        | none => { ctxid := 0x43, pc := 0x4000 }) with
    slots := { running := [(0, 3)] } }

/-- Slot 3 is queued for a free hub engine. -/
def waitingSlot (len : Nat) : State := { (slot none 0 []).puts [(SLOT_STATE 3, 1), (SLOT_LEN 3, len), (SLOT_PROG_HI 3, 0x400)] with
  engines := [], slots := { queue := [3] } }

/-- Slot 3 belongs to the host of port A. -/
def mine : State := up.put (SLOT_OWNER 3) 1

theorem witness_Slots : regGate mine (.host 0 0) (slotAt 3 0x1C) 4 true = .reach ∧ regGate mine (.host 0 0) (slotAt 3 0x2C) 4 true = .reach ∧
    regGate up (.host 0 0) 0x030000090000 4 true = .reach ∧ (slot none 0 []).get (SLOT_STATE 3) = 3 ∧ (slot none 0 []).get64 (SLOT_SADDR_LO 3) (SLOT_SADDR_HI 3) < 16 ∧
    (after (.slotDoorbell (.host 0 0) 3 7) mine).slots.queue = [3] ∧ (after (.slotDoorbell (.host 0 0) 3 7) (slot none 0 [])).on (SLOT_OVERRUN 3) = true ∧
    (after (.slotDoorbell (.host 0 0) 3 7) (mine.put CFG_STATUS_BAMID_FAIL 1)).get (SLOT_CODE 3) = 9 ∧ nextSlot (waitingSlot 8) = some 3 ∧
    programFits (waitingSlot 8) 3 = true ∧ programFits (waitingSlot 6) 3 = false ∧ bamidRuns (waitingSlot 8) = true ∧
    plainOf ((waitingSlot 8).get64 (SLOT_PROG_LO 3) (SLOT_PROG_HI 3)) = none ∧ ((after (.slotProgramStart 3 0 [1, 2] false) (waitingSlot 8)).eng 1024).pc = 0x4000 ∧
    storedWord (after (.slotProgramStart 3 0 [1, 2] false) (waitingSlot 8)) 20 0 0 0x4001 = encodeByte 2 ∧
    (after (.slotProgramStart 3 0 [1, 2] true) (waitingSlot 8)).get (SLOT_CODE 3) = 2 ∧ (after (.slotProgramStart 3 0 [] false) (waitingSlot 6)).get (SLOT_CODE 3) = 3 := by
  decide +kernel

theorem witness_Slots_ends : engineOfSlot (slot none 0 []) 3 = some 0 ∧ slotOfEngine (slot none 0 []) 0 = some 3 ∧ stopCode (slot none 0 []) 3 = none ∧
    ((slot none 0 []).eng 1024).surelyClean = true ∧ slotWatchdogRuns (slot none 0 []) 3 = true ∧ ((slot (some 2) 0 []).eng 1024).ctxid = 0 ∧
    (after (.slotAbort (.host 0 0) 3) (waitingSlot 8)).get (SLOT_CODE 3) = 6 ∧ (after (.slotAbort (.host 0 0) 3) (slot none 0 [])).slots.running = [] ∧
    stopCode (after (.slotAbort (.host 0 0) 3) (slot (some 2) 0 [])) 3 = some 6 ∧ (after (.slotWatchdogExpiry 3) (slot none 0 [])).get (SLOT_CODE 3) = 5 ∧
    (after (.slotWatchdogExpiry 3) (slot none 0 [])).bit (ENG_IRQ_PEND_PEND 1024) 19 = true ∧ (after (.cmdCapLock (.host 0 0)) up).on CMD_CTRL_CAP_LOCK = true := by
  decide +kernel

/-- Slot 3 is queued; the line of its program or of its status record, line 1 of channel 0, is held by the host of port B. -/
def heldLine (f : List (Fld × Nat)) : State := ((waitingSlot 8).puts f).onHost fun h => { h with dir := [(1, ⟨1, true⟩)] }
def heldProgram : State := heldLine [(SLOT_PROG_HI 3, 0), (SLOT_PROG_LO 3, 64)]
def heldRecord : State := heldLine [(SLOT_SADDR_LO 3, 64)]

theorem witness_Slots_wait : (programTurn 3 heldProgram.begin).1 = .wait ∧ (programTurn 3 heldProgram.begin).2.slots = heldProgram.slots ∧
    (after (.slotProgramStart 3 0 [] false) heldProgram).get (SLOT_STATE 3) = 2 ∧ (after (.slotProgramStart 3 0 [] false) heldProgram).slots.running = [(0, 3)] ∧
    (after (.slotProgramStart 3 0 [] false) (after (.biTimeout 1 1) (after (.slotProgramStart 3 0 [] false) heldProgram))).get (SLOT_CODE 3) = 2 ∧
    recordAddress heldRecord 3 = 64 ∧ (plainOf 64).isSome = true ∧ locate 64 = .dram 0 64 ∧ lineOf 64 = 1 ∧ runs heldRecord 181 = true ∧
    hasRight heldRecord .hubMover 64 true = true ∧ (after (.slotAbort (.host 0 0) 3) heldRecord).slots.ending = [(3, 6, false)] ∧
    (after (.slotAbort (.host 0 0) 3) heldRecord).out = [.biSnp 1 1 1, .done] ∧ (after (.slotAbort (.host 0 0) 3) heldRecord).get (SLOT_STATE 3) = 1 ∧
    (after (.birsp 1 1 none) (after (.slotAbort (.host 0 0) 3) heldRecord)).get (SLOT_STATE 3) = 5 := by decide +kernel

/-- A register of hub engine 0 after a call. -/
def ret (c : Instr) (num : Nat) (args : List (Nat × Word)) (r : Nat) : Word := ((after c (slot (some num) 0xFFFFFFFF args)).eng 1024).cur r

theorem witness_ServiceCalls : callOf (slot (some 0x90) 0 []) 0 0x90 = some 3 ∧ callOf up 0 0x90 = none ∧ (slot (some 0x90) 0 []).bit (SLOT_CAP 3) 12 = false ∧
    ((after (.ownerReq 0) (slot (some 0x90) 0 [])).eng 1024).cur 1 = 0xFFFFFFFF ∧ ((after (.ownerReq 0) (slot (some 0x90) 0 [])).eng 1024).pc = 0x4004 ∧
    (after (.exit 0 false) (slot (some 0) 0 [(1, 5), (2, 1)])).get (SLOT_RESULT 3) = 5 ∧ (after (.exit 0 false) (slot (some 0) 0 [(1, 5), (2, 1)])).get (SLOT_STATE 3) = 5 ∧
    mapCap 0x1234567 = some 0 ∧ ret (.map 0) 1 [(1, 0x1234567)] 2 = 0x80034567 ∧ ret (.time 0) 2 [] 1 = 0 ∧
    localOf (slot (some 3) 0 []) 1024 0x10040 = .mem 1 0x40 ∧ (slot (some 3) 0 []).onchip.due = [] ∧ ret (.measure 0) 3 [(1, 5), (2, 0x10040)] 1 = 0 ∧
    loadBusy (slot (some 0x10) 0 []) = false ∧ (after (.loadFull 0) (slot (some 0x10) 0xFFFF [(1, 1)])).get CFG_STATUS_SOURCE = 2 ∧
    waitsIn (after (.loadPartial 0) (slot (some 0x11) 0xFFFF [(3, 64)])) 0 0x11 0 = true ∧
    ret (.captureReadback 0) 0x12 [(1, 0x10000)] 1 = 0 ∧ (slot (some 0x12) 0 []).on CFG_CAP_STATUS_BUSY = false := by decide +kernel

/-- A program waits in a phase of a call. -/
def blocked (num ph : Nat) : State := { slot (some num) 0xFFFF [] with slots := { running := [(0, 3)], waits := [(0, num + ph * 2 ^ 16)] } }

theorem witness_ServiceCalls_waits : waitsIn (blocked 0x11 0) 0 0x11 0 = true ∧ (blocked 0x11 0).on CFG_PR_STATUS_BUSY = false ∧
    ((after (.loadPartial 0) (blocked 0x11 0)).eng 1024).pc = 0x4004 ∧ ((after (.captureReadback 0) (blocked 0x12 2)).eng 1024).pc = 0x4004 ∧
    ((after (.ownerReq 0) (blocked 0x90 0)).eng 1024).cur 1 = 0 ∧
    waitsIn (after (.captureReadback 0) (storeWord (slot (some 0x12) 0xFFFF [(1, 0x10000)]) 20 0 1 0 (encodeByte 1))) 0 0x12 1 = true := by decide +kernel

/-- Slot 1 of the store has been erased and its first page is programmed next; a write of four bytes from local memory. -/
def writing (off : Word) : State := (storeWord (slot (some 0x21) 0xFFFF [(1, off), (2, 0x10040), (3, 4)]) 20 0 1 0x43 (encodeByte 7)).onConfig
  fun c => { c with nextPage := [(1, 0)] }

theorem witness_ServiceCalls_store : ret (.storeErase 0 []) 0x20 [(1, 1)] 1 = 0 ∧ (after (.storeErase 0 []) (slot (some 0x20) 0xFFFF [(1, 1)])).on (CFG_NV_SLOT_BUSY 1) = true ∧
    (after (.storeErase 0 []) { slot (some 0x20) 0xFFFF [(1, 1537)] with config := { up.config with store := [(0x7FFFFFFF, 1)] } }).config.store = [] ∧
    (slot (some 0x20) 0xFFFF []).get (CFG_NV_SLOT_WRITES 1) + 1 < 2 ^ 16 ∧ slotRead (slot (some 0x20) 0xFFFF []) 1 = false ∧
    slotRead ((slot (some 0x20) 0xFFFF []).onConfig fun c => { c with load := some { src := 2, isPart := false } }) 1 = true ∧
    ((after (.storeErase 0 [0]) ((slot (some 0x20) 0xFFFF [(1, 1)]).put CFG_NV_STATUS_SPARES 0)).eng 1024).cur 1 = 0xFFFFFFFE ∧
    (after (.storeErase 0 [0]) ((slot (some 0x20) 0xFFFF [(1, 9)]).put CFG_NV_STATUS_SPARES 3)).get CFG_NV_STATUS_SPARES = 2 ∧
    writeFits (writing 0x7FFFFFFC) 0x7FFFFFFC 4 = true ∧ writeFits (writing 0x34000000) 0x34000000 4 = true ∧ writeFits (writing 0x34001000) 0x34001000 4 = false ∧
    writeFits (writing 0) 0 4 = false ∧ (after (.storeWrite 0 [] []) (writing 0x7FFFFFFC)).config.store = [(0x7FFFFFFF, 7)] ∧
    (after (.storeWrite 0 [] []) (writing 0x34000000)).config.nextPage = [(1, 1)] ∧
    (after (.storeCommit 0) (slot (some 0x22) 0xFFFF [(1, 1), (2, 0x34000000)])).get (CFG_NV_LEN_LEN 1) = 0x34000000 := by decide +kernel

/-- What the checks of an image meet whose source can be read and whose signatures hold. -/
def good : ImgChecks := ⟨.good, ⟨true, true, true⟩, true, 0, 0⟩

theorem witness_ServiceCalls_units : chanUp up 2 (132 + 2) = true ∧ chanUp up 2 (164 + 2) = true ∧ easyHolds up 6 = false ∧ up.host.cmds = [] ∧
    dramStarting (slot (some 0x30) 0xFFFF [(1, 2)]) 2 = false ∧ dramStarting ((slot (some 0x30) 0xFFFF [(1, 2)]).put (DRAM_STATUS_STATE 2) 1) 2 = true ∧
    (after (.chFirmware 0 0 good []) (slot (some 0x30) 0xFFFF [(1, 2)])).get (CH_FW_STATE 2) = 1 ∧ waitsIn (after (.chFirmware 0 0 good []) (slot (some 0x30) 0xFFFF [(1, 2)])) 0 0x30 0 = true ∧
    (after (.chFirmware 0 0 good []) (after (.chFirmware 0 0 good []) (slot (some 0x30) 0xFFFF [(1, 2)]))).get (CH_FW_CAUSE 2) = 1 ∧
    memChecks (firmwareSource 0) 0 firmwareRecordGood good [(0x0F, ⟨0, 0, 0, []⟩)] up.begin = ([], some 0x0D, up.begin) ∧
    (memPayload firmwareRecordGood 32 0 [(0x0F, ⟨0, 0, 0, []⟩)]).2 = none ∧ up.clocks.wide = 0 ∧ (∀ c < 8, up.bit (DBG_XT_IN_SRC c) 7 = false) ∧
    (after (.chReset 0) (slot (some 0x31) 0xFFFF [(1, 2)])).clocks.busy = [6] ∧
    (after (.dramStart 0) (slot (some 0x32) 0xFFFF [(1, 2), (2, 0x21), (3, 1)])).get (DRAM_STATUS_STATE 2) = 1 ∧
    (after (.dramStart 0) (slot (some 0x32) 0xFFFF [(1, 2), (2, 0x21), (3, 1)])).get (PAT_CFG_MODE 2) = 1 ∧ inRun (slot (some 0x40) 0 []) 5 = true ∧
    (after (.powerState 0 true true) (slot (some 0x40) 0xFFFF [(1, 32), (2, 1)])).get (PWR_PART_STATE 5) = 1 ∧
    (after (.powerState 0 true true) ((slot (some 0x40) 0xFFFF [(1, 32)]).put (PWR_PART_STATE 5) 2)).get (PWR_PART_STATE 5) = 3 ∧
    (after (.opSet 0) (slot (some 0x41) 0xFFFF [(1, 5), (2, 7)])).get (PWR_PART_OP_TGT 5) = 7 ∧
    (after (.resetCall 0) (slot (some 0x50) 0xFFFF [(1, 0xA5000001)])).get RST_CAUSE_SOFT = 1 ∧ ret (.resetCall 0) 0x50 [(1, 0xA5000002)] 1 = 0xFFFFFFFE := by decide +kernel

theorem witness_ServiceCalls_rest : plainOf 0x040000000000 = none ∧
    ret (.crcRun 0 [0x31, 0x32, 0x33, 0x34, 0x35, 0x36, 0x37, 0x38, 0x39]) 0x60 [(2, 1), (4, 0x400)] 1 = 0 ∧
    plainOf ((slot (some 0x60) 0xFFFF []).get64 (SLOT_ARG_LO 3) (SLOT_ARG_HI 3)) ≠ none ∧
    (after (.hdmSet 0) (slot (some 0x70) 0xFFFF [(1, 7), (2, 0x80000005), (3, 9)])).get (HP_HDM_BASE 7) = 5 ∧ up.on (HP_HDM_EN 7) = false ∧
    (after (.nsMap 0) (slot (some 0x71) 0xFFFF [(1, 64), (2, 15)])).get (HP_NS_CH 63) = 15 ∧
    (after (.nsMap 0) (slot (some 0x71) 0xFFFF [(1, 64), (2, 0xFF)])).on (HP_NS_VALID 63) = false ∧
    (after (.keySlot 0) (slot (some 0x80) 0xFFFF [(1, 15), (2, 0)])).get (SEC_KS_CTRL_STATE 15) = 1 ∧
    (after (.keySlot 0) ((slot (some 0x80) 0xFFFF [(1, 15), (2, 2)]).put (SEC_KS_CTRL_STATE 15) 1)).get (SEC_KS_CTRL_STATE 15) = 0 := by decide +kernel

/-- The crew of channel 2 is at rest: its partition, 6, runs and no engine of it executes. -/
def idle : State := up.puts [(PWR_PART_IDLE 6, 5), (PWR_PART_IDLE 0, 5)]

/-- Partition `p` enters Easy because software asked, at quiescence already or not. -/
def entering (p : Nat) (quiet : Bool) : State := { idle.put (PWR_PART_STATE p) 1 with
  power := { idle.power with quiet := if quiet then [p] else [] } }

/-- Partition `p` wakes, with a save record of 64 bytes. -/
def wakes (p : Nat) : State := { idle.put (PWR_PART_STATE p) 3 with
  power := { idle.power with records := [(p, 64)] } }

theorem witness_Easy : regGate idle (.engine 1024) (0x030000030200 + 6 * 0x10) 4 true = .reach ∧ inRun idle 6 = true ∧ quiescent idle 6 = true ∧
    idle.get (PWR_PART_IDLE 6) ≠ 0 ∧ quiescent (up.put (PWR_PART_IDLE 0) 5) 0 = false ∧ quiescent (entering 6 false) 6 = true ∧ quiescent (entering 0 false) 0 = false ∧
    poolUsed (entering 6 false) + recordSize (entering 6 false) 6 ≤ 257024 ∧
    (after (.easyRequest (.engine 1024) 6 0x02000001) idle).get (PWR_PART_STATE 6) = 1 ∧ (after (.governorIdleEntry 6) idle).power.byGov = [6] ∧
    (after (.governorIdleEntry 0) idle).get (PWR_PART_STATE 0) = 0 ∧ (after (.easyQuiescent 6) (entering 6 false)).power.quiet = [6] ∧
    (after (.easyEntryTimeout 6) (entering 6 false)).on PWR_CAUSE_EASY_TO = true ∧ (after (.easyEntryComplete 6) (entering 6 true)).get (PWR_PART_STATE 6) = 2 := by
  decide +kernel

/-- Partition 6 enters Easy and the pool is full. -/
def crowded : State := { entering 6 false with
  power := { idle.power with records := [(5, 257024)] } }

theorem witness_Easy_wakes : 257024 < poolUsed crowded + recordSize crowded 6 ∧ quiescent crowded 6 = true ∧
    (after (.easyQuiescent 6) crowded).get (PWR_PART_STATE 6) = 4 ∧ (after (.easyWake 6) (entering 6 false)).power.wakeDue = [6] ∧
    (after (.easyWake 6) (idle.put (PWR_PART_STATE 6) 2)).get (PWR_PART_STATE 6) = 3 ∧ (resetDomains 6).all (fun d => d < 188 && clkStable (wakes 6) d) = true ∧
    (after (.easyWakeComplete 6 false) (wakes 6)).get (PWR_PART_STATE 6) = 0 ∧ (after (.easyWakeComplete 6 false) (wakes 6)).power.records = [] ∧
    (wakes 6).power.records.any (·.1 == 6) = true ∧ (List.range 8).all (fun c => !(wakes 6).bit (DBG_XT_IN_SRC c) 7) = true := by decide +kernel

/-- Moored is being entered, a wake source having come for it or not; the device is in Moored, the timer and the pin enabled. -/
def mooring (src : Option Nat) : State := { up with
  power := { up.power with
    mooring := true
    mooredWake := src } }
def moored : State := { up.put PWR_MOORED_WAKE_EN 6 with
  power := { up.power with moored := true } }

/-- A descriptor waits in a queue of channel 0's NAND sequencer. -/
def nandBusy : State := (up.put (NAND_CTRL_EN 0) 1).setChan 0 { luns := [(3, { queue := [(0x100, false)] })] }

theorem witness_Moored : regGate up (.engine 1024) 0x030000030100 4 true = .reach ∧ groupOf (.engine 1024) = some 4 ∧ groupOf (.host 0 0) ≠ some 4 ∧
    up.power.mooring = false ∧ mooredRefusal up true true = 0 ∧ mooredRefusal up true false = 4 ∧ mooredRefusal up false true = 0 ∧ nandDrained up = true ∧ nandDrained nandBusy = false ∧ mooredRefusal nandBusy false true = 3 ∧ mooredRefusal nandBusy true true = 0 ∧
    (after (.mooredRequest (.engine 1024) 1 true true) nandBusy).power.draining = true ∧ (after .mooredEntryComplete (after (.mooredRequest (.engine 1024) 1 true true) nandBusy)).power.moored = false ∧
    (after (.mooredRequest (.engine 1024) 1 true true) up).power.mooring = true ∧
    (after (.mooredRequest (.engine 1024) 1 true false) up).get PWR_MOORED_REFUSE = 4 ∧
    (List.range 16).all (fun n => up.get (DRAM_STATUS_STATE n) != 5 && up.get (DRAM_STATUS_STATE n) != 7) = true ∧
    (after .mooredEntryComplete (mooring none)).clocks.released = [184, 185] ∧ (after .mooredEntryComplete (mooring (some 1))).get PWR_MOORED_SRC = 2 ∧
    moored.bit PWR_MOORED_WAKE_EN 1 = true ∧ moored.bit PWR_MOORED_WAKE_EN 0 = false ∧ moored.get64 PWR_AON_TMR_LO_TS PWR_AON_TMR_HI_TS ≤ moored.clocks.ts ∧
    (after .aonTimerExpiry moored).get PWR_MOORED_SRC = 2 ∧ (after (.mooredWake 2) moored).get PWR_MOORED_SRC = 4 ∧ (after (.mooredWake 0) moored).power.moored = true ∧
    (up.put PWR_AON_TMR_LO_TS 9).clocks.ts < (up.put PWR_AON_TMR_LO_TS 9).get64 PWR_AON_TMR_LO_TS PWR_AON_TMR_HI_TS := by decide +kernel

/-- Partition `p` changes its operating point to 3, on a rail that has acknowledged. -/
def changing (p : Nat) : State := { up.put (PWR_PART_PENDING p) 1 with
  power := { up.power with changes := [(p, ⟨3, true⟩)] } }

theorem witness_OperatingPoints : regGate up (.engine 1024) (0x030000030200 + 1 * 0x10) 4 true = .reach ∧ (changing 1).on (PWR_PART_PENDING 1) = true ∧
    up.on (PWR_PART_PENDING 1) = false ∧ inEasy up 1 = false ∧ inEasy (up.put (PWR_PART_STATE 6) 2) 6 = true ∧ railOf 1 = some 1 ∧ railOf 6 = some 4 ∧
    (changing 1).power.railDue.contains 1 = false ∧ State.reset.power.railDue.contains 1 = true ∧ (changing 1).power.later = [] ∧ changingOn up 1 = [] ∧
    (after (.opTargetWrite (.engine 1024) 1 0x300) up).get (PWR_PART_OP_CUR 1) = up.get (PWR_PART_OP_CUR 1) ∧
    (after (.opTargetWrite (.engine 1024) 1 3) (changing 1)).power.later = [1] ∧ (after (.avsAck 1) (changing 1)).get (PWR_PART_OP_CUR 1) = 3 ∧
    (after (.avsAck 4) (changing 6)).get (PWR_PART_OP_CUR 6) = 3 ∧ (after (.avsAckTimeout 1) (changing 1)).on (PWR_PART_FAIL 1) = true ∧
    (up.put (PWR_PMB_VALID 3) 1).on (PWR_PMB_VALID 3) = true ∧ (after (.pmbusRead 3 500) (up.put (PWR_PMB_VALID 3) 1)).power.rails = [(3, 500)] ∧
    (after (.crewClockStep 0) { up with power := { up.power with crewMhz := [(0, 500)] } }).power.crewMhz = [(0, 550)] := by decide +kernel

theorem witness_Governor : runs up 180 = true ∧ up.power.moored = false ∧ up.clocks.halted = false ∧ up.power.blind = false ∧ inRun up 0 = true ∧
    up.get (PWR_PART_FLOOR 0) < 256 ∧ (after (.governorTick [(0, 9000)] [(0, some 80), (1, none)] 60) up).get PWR_THERM_TJ_MAX = 80 ∧
    (after (.governorTick [(0, 9000)] [(0, some 80), (1, none)] 60) up).get (PWR_PART_CEIL 0) < 256 ∧
    up.power.overTicks < 100 ∧ (after .budgetOver { up with power := { up.power with overTicks := 100 } }).on PWR_CAUSE_OVER = true ∧
    (after .sprintWindowClose ((up.puts [(PWR_MODE_WINDOW, 1), (PWR_MODE_MODE, 3)]).onClocks (fun c => { c with ts := 50000000 }))).get PWR_MODE_BUDGET = 420 ∧
    up.on PWR_MODE_WINDOW = false ∧ up.power.closed + 4 * up.power.window ≤ up.clocks.ts ∧
    up.clocks.ts < { up.power with closed := up.clocks.ts + 1 }.closed := by decide +kernel

/-- The debug ports: COX_EN is high, the TAP holds the instruction `code`, and the policy allows everything. -/
def tap (code : Nat) : State := { up.puts [(SEC_DBG_POLICY_MEM, 1), (SEC_DBG_POLICY_FORCE, 1), (SEC_DBG_POLICY_HALT, 1), (DBG_ACC_ADDR_LO 1, 0x10), (DBG_ACC_DATA_LO 1, 7)] with
  dbg := { up.dbg with
    ir := code
    coxEn := true } }

/-- A load over the debug port waits for its stream. -/
def coxLoad (n : Nat) : State := ((tap 0x11).put CFG_STATUS_STATE 2).onConfig fun c => { c with load := some { src := 4, isPart := false }, stream := ⟨n, 0⟩ }

/-- The loader waits on the debug port. -/
def coxWait : State := ((tap 0x11).put CFG_STATUS_STATE 0xC).onConfig fun c => { c with waitSrc := some 4 }

theorem witness_Tap : (after .trstN (tap 3)).dbg = { coxEn := true } ∧ (after .testLogicReset (tap 3)).dbg.ir = 2 ∧ (after (.highz false) (tap 3)).dbg.ir = 0xFF ∧
    (after (.samplePreload true [2, 7]) up).dbg.cells = [2, 7] ∧ (after (.idcode false) up).out = [.value 0x10D09D6B] ∧
    runs (tap 0x10) 184 = true ∧ policyRefuses ((tap 0x10).put SEC_DBG_POLICY_MEM 0) 0x8808 true = true ∧ policyRefuses (tap 0x10) 0x204 true = false ∧
    tableRight (tap 0x10) .debug 0x0300000B0204 true = true ∧ tableRight ((tap 0x10).put (SEC_RIGHTS_WR 6) 0) .debug 0x030000010000 true = false ∧ isLowWord 0x0300000B0204 = false ∧
    (tap 0x10).clocks.latch = [] ∧ (after (.dbgRegUpdate true 0x205 0x42) (tap 0x10)).get (DBG_XT_OUT_ACT 0) = 2 ∧
    (after (.dbgRegUpdate false 0x118 0) (tap 0x10)).dbg.regData = 0 ∧ (after (.dbgRegUpdate false 0x120 0) (tap 0x10)).dbg.regData = 0x10 ∧
    (after (.dbgRegUpdate true 0x8808 0) ((tap 0x10).put SEC_DBG_POLICY_MEM 0)).dbg.regStat = 2 := by decide +kernel

theorem witness_Tap_image : coxLoading coxWait = true ∧ coxLoading up = false ∧ (after (.dbgImgUpdate 9 false) coxWait).get CFG_STATUS_STATE = 2 ∧
    (after (.dbgImgUpdate 9 false) (coxLoad 8)).dbg.imgBytes = 4 ∧ (after (.dbgImgUpdate 9 true) (coxLoad 8)).dbg.imgOk = false ∧
    (after (.dbgImgUpdate 9 false) (coxLoad 8)).config.stream = ⟨12, 9 * 2 ^ 64⟩ ∧ (after (.dbgImgUpdate 9 false) (coxLoad (streamRoom - 3))).dbg.imgOk = false ∧
    heldNamed (tap 0x12) 5 = [] ∧ heldNamed (State.reset.puts [(SEC_DBG_POLICY_FORCE, 1)]) 5 = [5] := by decide +kernel

/-- Access set 1 runs an access of `size` bytes to `addr`. -/
def accessing (addr size kind : Nat) : State := (tap 2).onDebug fun d => { d with sets := [(1, ⟨addr, size, kind, 7, none⟩)] }

theorem witness_DebugAccess : regGate (tap 2) (.debug) (0x0300000B0110 + 1 * 0x20) 4 true = .reach ∧ (tap 2).on (DBG_ACC_BUSY 1) = false ∧
    (after (.dbgAccessWrite .debug 1 true 2) (tap 2)).dbg.sets = [(1, ⟨0x10, 4, 2, 7, none⟩)] ∧ (after (.dbgAccessRead .debug 1 true 2) ((tap 2).put (DBG_ACC_BUSY 1) 1)).dbg.sets = [] ∧
    (0x030000000002 % 4 : Nat) ≠ 0 ∧ haltTakes 0x0300000B0000 true = true ∧ haltTakes 0x020000000000 false = false ∧ unitFrozen (tap 2) 0x030000000000 = false ∧
    unitFrozen ({ accessing 0x030000010000 4 0 with clocks := { up.clocks with frozen := [180] } }) 0x030000020000 = true ∧
    (after (.dbgAccessDone 1 .ok 0) (accessing 0x030000000002 4 0)).get (DBG_ACC_RESULT 1) = 6 ∧
    (after (.dbgAccessDone 1 .ok 0) (accessing 0x030000000000 4 0)).get (DBG_ACC_DATA_LO 1) = readReg up 0x030000000000 ∧
    (after (.dbgAccessDone 1 .ok 0) { accessing 0x030000000000 4 0 with power := { up.power with moored := true } }).get (DBG_ACC_RESULT 1) = 4 ∧
    (after (.dbgAccessDone 1 .ok 0) { accessing 0x020000000000 4 0 with clocks := { up.clocks with halted := true } }).get (DBG_ACC_RESULT 1) = 5 ∧
    otherTurn (accessing 0 4 0) 1 = false ∧ (after (.dbgAccessDone 1 .ok 0)
      ((accessing 0 4 0).onDebug fun d => { d with sets := d.sets ++ [(0, ⟨0, 4, 0, 7, none⟩)], lastSet := some 1 })).out = [.held] := by
  decide +kernel

theorem witness_Smbus : bamidRuns up = true ∧ up.clocks.latch = [] ∧ moored.bit PWR_MOORED_WAKE_EN 2 = true ∧ (after .smbusReadHubId moored).out = [.nack] ∧
    (after .smbusReadHubId up).out = [.value 0x1D5A0D09] ∧ (after .smbusReadClkTsHi (after .smbusReadClkTsLo up)).out = [.value 0] ∧
    (after (.smbusMessage 0x20 [5]) up).out = [.smbusMessage 0x20 [5]] ∧ (after (.smbusMessage 0x0F [5]) up).out = [.nack] ∧
    (after (.smbusMessage 0x20 [5]) moored).get PWR_MOORED_SRC = 4 := by decide +kernel

/-- The policy allows everything, and engine 5 executes or is halted, its core `e`. -/
def hooked (halted : Bool) (e : Engine) : State :=
  (up.puts ([(SEC_DBG_POLICY_MEM, 1), (SEC_DBG_POLICY_HALT, 1), (ENG_CTRL_RUN 5, 1), (ENG_STATUS_STATE 5, 1)]
    ++ if halted then [(ENG_DBG_HALTED 5, 1), (ENG_STATUS_STATE 5, 3)] else [])).setEng 5 e

/-- A request to halt engine 5 waits. -/
def asked (force : Bool) : State := hooked false { core 0 with
  haltReq := some (1, 0)
  haltForce := force
  rep := if force then some ⟨2, 7, 0x20⟩ else none }

theorem witness_Halts : regGate (hooked false {}) .debug (engBase 5 + 0x800) 4 true = .reach ∧ (hooked false {}).on SEC_DBG_POLICY_HALT = true ∧
    (hooked false {}).on (ENG_DBG_HALTED 5) = false ∧ ((hooked false {}).eng 5).haltReq = none ∧ (hooked true {}).on (ENG_DBG_HALTED 5) = true ∧
    (hooked true {}).on DBG_WDT_POLICY_ENG_RUN = false ∧ (up.put SEC_DBG_POLICY_HALT 0).on SEC_DBG_POLICY_HALT = false ∧
    ((after (.engDbgHalt .debug 5) (hooked false {})).eng 5).haltReq = some (1, 0) ∧ ((after (.engDbgForce .debug 5) (asked false)).eng 5).haltForce = true ∧
    (after (.engDbgResume .debug 5) (hooked true {})).get (ENG_STATUS_STATE 5) = 1 ∧ ((after (.engDbgStep .debug 5 true) (hooked true {})).eng 5).stepping = true ∧
    canHalt (asked false) 5 = true ∧ haltWaits (asked false) 5 (some .nop) = true ∧ haltWaits (asked true) 5 (some .nop) = true ∧
    (List.range 8).all (fun c => !(asked true).bit (DBG_XT_IN_SRC c) 1 && !(asked true).bit (DBG_XT_IN_SRC c) 2) = true ∧
    (after (.engineHaltTaken 5 (some .nop)) (asked false)).get (ENG_DBG_PC 5) = 0x40 ∧ (after (.engineHaltTaken 5 (some .nop)) (asked true)).on (ENG_DBG_FORCED 5) = true ∧
    ((after (.haltForceTimeout 5) (asked false)).eng 5).haltForce = true := by decide +kernel

/-- A halted engine 5 has a word fed. -/
def fed (c : Word → Instr) (i : Yz) (a : Word) : State := after (c (encodeYezar i)) (hooked true (core a))

theorem witness_Feeds : regGate (hooked true {}) .debug (engBase 5 + 0x808) 4 true = .reach ∧ regGate (hooked true {}) .debug (engBase 5 + 0x814) 4 true = .reach ∧
    ((after (.engDbgPcWrite .debug 5 0x203) (hooked true {})).eng 5).pc = 0x200 ∧ decodeYezar 0 = none ∧
    (after (.instructionFeed .debug 5 0) (hooked true {})).get (ENG_DBG_FEED_ERR 5) = 1 ∧ decodeYezar (encodeYezar (.imm .addi 4 1 9)) = some (.imm .addi 4 1 9) ∧
    (Yz.imm .addi 4 1 9).isDefined = true ∧ notFed (.imm .addi 4 1 9) = false ∧ notFed .wait = true ∧ ((fed (.instructionFeed .debug 5) (.imm .addi 4 1 9) 0).eng 5).cur 4 = 16 ∧
    ((fed (.instructionFeed .debug 5) (.imm .addi 4 1 9) 0).eng 5).pc = 0x100 ∧ (fed (.instructionFeed .debug 5) .wait 0).get (ENG_DBG_FEED_ERR 5) = 2 ∧
    (fed (.instructionFeed .debug 5) (.load .ld 4 3 0) 1).get (ENG_DBG_FEED_ERR 5) = 4 ∧
    (fed (.instructionFeed .debug 5) (.load .ld 4 3 0) 0x10000000).on (ENG_DBG_FEED_BUSY 5) = true := by decide +kernel

theorem witness_Crews : regGate up .debug 0x0300000B0010 4 true = .reach ∧ regGate up .debug 0x0300000B0014 4 true = .reach ∧ regGate up .debug 0x0300000B0020 4 true = .reach ∧
    regGate up .debug 0x0300000B0030 4 true = .reach ∧ (namedEngines 1).contains 5 = true ∧ (namedEngines 2).contains 5 = false ∧
    ((after (.dbgCrewHalt .debug 1) (hooked false {})).eng 5).haltReq = some (2, 0) ∧ ((after (.dbgCrewHalt .debug 2) (hooked false {})).eng 5).haltReq = none ∧
    (after (.dbgCrewResume .debug 1) (hooked true {})).on (ENG_DBG_HALTED 5) = false ∧ (after (.dbgIslHalt .debug 0 6) (hooked false {})).get (DBG_ISL_HALT_SEC 0) = 6 ∧
    islHalted ((hooked false {}).put (DBG_ISL_HALT_SEC 0) 2) 1 = true ∧
    (after (.dbgIslStep .debug 0x02000004) ((hooked false {}).put (DBG_ISL_HALT_SEC 0) 2)).dbg.isl = [(1, 4)] := by decide +kernel

/-- Cross-trigger channel 2 fires from the pin, or from software, and does `act`; it fired last at `last`. -/
def triggered (act last : Nat) : State := { (hooked false {}).puts [(DBG_XT_IN_SRC 2, 0x41), (DBG_XT_OUT_ACT 2, act), (DBG_XT_CREW_CREW, 1), (DBG_XT_ISL_SEC 1, 8), (NOC_TRACE_CTRL_EN, 1)] with
  dbg := { up.dbg with xtLast := if last = 0 then [] else [(2, last)] }
  clocks := { up.clocks with ts := 100 } }

theorem witness_Triggers : runs (triggered 1 0) 184 = true ∧ (List.range 8).all (fun d => (triggered 1 0).bit (DBG_XT_IN_SRC d) 0 == decide (d = 2)) = true ∧
    regGate (triggered 1 0) .debug 0x0300000B0248 4 true = .reach ∧ (triggered 1 0).bit (DBG_XT_IN_SRC 2) 6 = true ∧ smGet 0 (triggered 1 0).dbg.xtLast 2 = 0 ∧
    (triggered 1 60).clocks.ts + 1 < 60 + 80 ∧ (after .trigIn (triggered 1 0)).out = [.trigOut] ∧ (after .trigIn (triggered 1 60)).out = [] ∧
    (after .trigIn (triggered 1 21)).out = [.trigOut] ∧ ((after (.dbgXtPulse .debug 4) (triggered 2 0)).eng 5).haltReq = some (2, 0) ∧
    ((after .trigIn (triggered 4 0)).eng 1024).haltReq = some (2, 0) ∧ (after .trigIn (triggered 16 0)).on NOC_TRACE_CTRL_EN = false ∧
    (after .trigIn (triggered 32 0)).bit (DBG_ISL_HALT_SEC 1) 3 = true ∧ (List.range 8).all (fun c => !up.bit (DBG_XT_IN_SRC c) 0) = true := by decide +kernel

/-- Lane `l` receives coded PAM4 symbols with all its locks, its pattern checker and generator run, and port A and port B are under lane test. -/
def lane (l : Nat) : State := up.puts [(LANE_EN l, 1), (LANE_PCS l, 2), (LANE_CDR_LOCK l, 1), (LANE_BLOCK_LOCK l, 1), (LANE_FEC_LOCK l, 1), (LANE_PLOCK l, 1), (LANE_CHK l, 1),
  (LANE_MAIN l, 0x20), (LANE_HTEST_PORT, 3)]

theorem witness_Lanes_set : regGate up (.engine 1024) (0x0300000C0100 + 8 * 0x20) 4 true = .reach ∧ quadFits up 8 128 0 0 100000000 = true ∧ quadFits up 8 8 0 0 100000000 = false ∧
    (after (.quadApply (.engine 1024) 8 0x80000080 100000000) up).lanes.pll = [(8, 128, 0, 0)] ∧ (after (.quadApply (.engine 1024) 8 0x80000008 100000000) up).on (QUAD_CFG_ERR 8) = true ∧
    (after (.quadApply (.engine 1024) 7 0x80000008 100000000) up).lanes.pll = [] ∧ regGate up (.engine 1024) (0x0300000C1000 + 40 * 0x100 + 0x14) 4 true = .reach ∧
    regGate up (.engine 1024) (0x0300000C1000 + 40 * 0x100 + 0x18) 4 true = .reach ∧ regGate up (.engine 1024) (0x0300000C1000 + 40 * 0x100 + 0) 4 true = .reach ∧
    regGate up (.engine 1024) (0x0300000C1000 + 40 * 0x100 + 0x44) 4 true = .reach ∧ regGate up (.engine 1024) (0x0300000C1000 + 40 * 0x100 + 0x60) 4 true = .reach ∧
    laneOpen up 40 = true ∧ laneOpen up 5 = false ∧ laneOpen (lane 5) 5 = true ∧ txeqFits (up.get (LANE_TXEQ 40)) 0x20 = true ∧ txeqFits (up.get (LANE_TXEQ 40)) 0x0F = false ∧
    (after (.txeqApply (.engine 1024) 40 0x80002820) up).lanes.txSet = [(40, up.get (LANE_TXEQ 40), 32, 32)] ∧
    (after (.txeqApply (.engine 1024) 40 0x8000280F) up).on (LANE_TXEQ_ERR 40) = true ∧ (after (.adapt (.engine 1024) 40 0x80000000) up).lanes.adapting = [40] ∧
    (after (.laneReset (.engine 1024) 40 0x00000001) (lane 40)).on (LANE_FEC_LOCK 40) = false ∧
    (after (.loopbackSelect (.engine 1024) 40 0x8200) (lane 40)).get (LANE_LOOP 40) = 2 ∧ (after (.prbsClr (.engine 1024) 40) ((lane 40).put (LANE_ERR_LO 40) 9)).get (LANE_ERR_LO 40) = 0 ∧
    (after (.eyeGo (.engine 1024) 40 0x8001053F) (lane 40)).on (LANE_BUSY 40) = true ∧ (after (.eyeGo (.engine 1024) 40 0x8001053F) up).lanes.eyeLost = [40] := by decide +kernel

theorem witness_Lanes_events : (lane 40).get (LANE_PCS 40) = 2 ∧ (lane 40).on (LANE_EN 40) = true ∧ (lane 40).on (LANE_FEC_LOCK 40) = true ∧ pattern ((lane 40).get (LANE_CHK 40)) ≠ 0 ∧
    pattern (up.get (LANE_CHK 40)) = 0 ∧ (lane 40).get (LANE_RESYNC 40) < 2 ^ 16 ∧ (after (.los 40) (lane 40)).bit (LANE_CAUSE 40) 0 = true ∧
    (after (.signalReturn 40) (up.put (LANE_LOS 40) 1)).on (LANE_LOS 40) = false ∧ (after (.cdrLock 40) up).on (LANE_CDR_LOCK 40) = true ∧
    (after (.cdrUnlock 40) ((lane 40).put (LANE_BUSY 40) 1)).lanes.eyeLost = [40] ∧ (after (.blockLock 40 false) (lane 40)).bit (LANE_CAUSE 40) 3 = true ∧
    (after (.blockLock 40 true) ((lane 40).put (LANE_BLOCK_LOCK 40) 0)).on (LANE_BLOCK_LOCK 40) = true ∧ (after (.codewordReceive 40 (some 3) true) (lane 40)).get (LANE_CORR_SYM 40) = 3 ∧
    (after (.codewordReceive 40 none true) (lane 40)).lanes.badCw = [(40, 1)] ∧
    (after (.codewordReceive 40 none true) ((lane 40).onLanes fun x => { x with badCw := [(40, 2)] })).on (LANE_FEC_LOCK 40) = false ∧
    (after (.codewordReceive 40 (some 0) true) ((lane 40).put (LANE_FEC_LOCK 40) 0)).on (LANE_FEC_LOCK 40) = true ∧ (after (.prbsLock 40) ((lane 40).put (LANE_PLOCK 40) 0)).on (LANE_PLOCK 40) = true ∧
    (after (.prbsLockLost 40 100 3) (lane 40)).get (LANE_ERR_LO 40) = 3 ∧ (after (.eyeDwellDone 40 7) ((lane 40).put (LANE_BUSY 40) 1)).get (LANE_EYE_ERR_LO 40) = 7 ∧
    (after (.adaptComplete 40 true 4 9 1) ((lane 40).onLanes fun x => { x with adapting := [40] })).get (LANE_CTLE 40) = 4 := by decide +kernel

theorem witness_Lanes_host : regGate up (.engine 1024) 0x0300000C0010 4 true = .reach ∧ up.bit LANE_HTEST_PORT 0 = false ∧
    (lane 5).bit LANE_HTEST_PORT 0 = true ∧ (after (.laneHtest (.engine 1024) 1) (lane 5)).get LANE_HTEST_PORT = 1 ∧ (after (.laneHtest (.engine 1024) 1) linked).on (HP_STATUS_UP 0) = false := by
  decide +kernel

/-! ## Ill-formed commands, and words -/

theorem test_ill_formed : [Instr.registerWrite .debug (2 ^ 52) 4 0, .registerWrite .debug 0 3 0, .rcRead .debug (2 ^ 52), .rcRead .debug 2, .lowWordRead .debug (2 ^ 52), .lowWordRead .debug 6,
    .fabricFence 0 [4, 4], .cfgScrubFrame 0 [(1, 2), (1, 2)], .framesRecord 0 0 0 0 [1] .good, .memRecord 0 ⟨0, 0, 0, [1]⟩ .good,
    .bamidLoad ⟨good, [(4, ⟨0, 1, 0, [1, 2]⟩)]⟩ badCopy, .bamidLoad badCopy ⟨good, [(4, ⟨0, 1, 0, [1, 2]⟩)]⟩, .readbackFrameDone false [(0, 0), (0, 0)],
    .hostMemRead 0 0 0 (2 ^ 52) none, .hostMemWrite 0 0 0 (2 ^ 52) 0 0 none, .hostIoRead 0 0 0 0 5, .hostIoWrite 0 0 0 0 0 0,
    .chFirmware 0 0 good [(4, ⟨0, 0, 0, [1]⟩)]].all (fun c => !isWellFormed c) = true := by decide +kernel

theorem test_ill_formed_long (d p : List Byte) (hd : 2 ^ 24 < d.length) (hp : 2 ^ 15 < p.length) :
    isWellFormed (.storeWrite 0 d []) = false ∧ isWellFormed (.slotProgramStart 0 0 p false) = false :=
  ⟨decide_eq_false (by omega), decide_eq_false (by omega)⟩

theorem test_ill_formed_island : isWellFormed (.islandCycle 0 ⟨[⟨0, 0, 0, [], List.replicate 7 ⟨false, 0, 0, 0⟩, [], .zero, []⟩], [], []⟩ [] [] [] []) = false ∧
    isWellFormed (.islandCycle 0 ⟨[⟨0, 6, 0, [], [], [], .zero, []⟩], [], []⟩ [] [] [] []) = false := by decide +kernel

theorem test_ill_formed_registers : [Instr.yAdd 0 40 1 2 false, .yAdc 0 1 40 2 false, .ySub 0 1 2 63 false, .ySbc 0 40 0 0 false, .yAnd 0 40 0 0 false, .yOr 0 40 0 0 false, .yXor 0 40 0 0 false,
    .yAndn 0 40 0 0 false, .yShl 0 40 0 0 false, .yShr 0 40 0 0 false, .ySra 0 40 0 0 false, .yRor 0 40 0 0 false, .yMul 0 40 0 0 false, .yMulhs 0 40 0 0 false,
    .yMulhu 0 40 0 0 false, .yMin 0 40 0 0 false, .yMax 0 40 0 0 false, .yMinu 0 40 0 0 false, .yMaxu 0 40 0 0 false, .yClz 0 0 41 false, .yPopc 0 41 0 false,
    .ySextb 0 41 0 false, .ySexth 0 41 0 false, .yMov 0 41 0 false, .yCmp 0 41 0 false, .yTst 0 41 0 false, .yShli 0 40 0 3 false, .yShri 0 40 0 3 false, .ySrai 0 40 0 3 false,
    .yRori 0 40 0 3 false, .yDivinit 0 1 2 3 false, .yDivs 0 33 false, .yCsel 0 .eq 40 0 0, .yMovi 0 40 0, .yMovhi 0 40 0, .yAddi 0 40 0 0, .yAndi 0 40 0 0, .yOri 0 40 0 0,
    .yXori 0 40 0 0, .yCmpi 0 40 0, .yCmpui 0 40 0, .yTsti 0 40 0, .yLdb 0 32 0 0, .yLdbu 0 32 0 0, .yLdh 0 32 0 0, .yLdhu 0 32 0 0, .yLd 0 40 0 0, .yLdd 0 1 0 0, .yStb 0 32 0 0,
    .ySth 0 32 0 0, .ySt 0 40 0 0, .yStd 0 1 0 0, .yLdx 0 3 0 true, .yStx 0 32 0 0 false, .yLoop 0 0 (.inl 1), .yMfc 0 40 0, .yMtc 0 0 1].all (fun c => !isWellFormed c) = true := by
  decide +kernel

theorem test_well_formed : [Instr.yAdd 0 1 2 3 true, .yDivinit 0 2 1 4 false, .yLdd 0 2 3 8, .yMtc 0 13 1, .hostMemRead 0 0 0 64 none, .registerWrite .debug 0x030000000000 4 0,
    .storeWrite 0 [1] [], .framesRecord 0 0 1 0 [1] .good, .islandCycle 0 ⟨[], [], []⟩ [] [] [] []].all isWellFormed = true := by decide +kernel

/-- addi u2, u1, 9 and movi u3, 0x1234 by their fields (R209 and the encodings of spec/09): op, rd, rs, immediate. -/
theorem test_words : decodeYezar 0b000100_000010_000001_00000000001001 = some (.imm .addi 2 1 9) ∧
    decodeYezar 0b000010_000011_0000_0001001000110100 = some (.movi 3 0x1234) := by decide +kernel

/-- The table gives its rows no bits: no word spells a command, and the state stays as it is. -/
theorem test_no_word : decodeTableWord 32 0 = none ∧ State.reset.withFetchWord 32 0 = State.reset := ⟨rfl, rfl⟩

/-- The one form of a command that does not complete names a bundle that no image declares. -/
theorem witness_Completes : (crossing 1 0).clocks.bundles.any (fun e => e.1 == 1) = true ∧ up.clocks.bundles.any (fun e => e.1 == 1) = false := by
  decide +kernel

/-- Engine 5 is halted, or has a halt request; a trigger drives channel 0 of the cross-triggers. -/
def halted (e : Engine) : State := ((running 5 e).puts [(ENG_DBG_HALTED 5, 1), (ENG_STATUS_STATE 5, 3), (SEC_DBG_POLICY_HALT, 1), (SEC_DBG_POLICY_MEM, 1)])
def requested : State := (running 5 { core 0 with haltReq := some (1, 0) }).puts [(SEC_DBG_POLICY_HALT, 1)]
def driven (src : Nat) : State := up.puts [(DBG_XT_IN_SRC 0, 2 ^ src), (DBG_XT_OUT_ACT 0, 1)]

theorem witness_Effects : hubWatchdogRuns up = true ∧ regGate up (.host 0 0) 0x030000010008 4 true = .reach ∧ regGate up .debug 0x0300000B0004 4 true = .reach ∧
    swdtRuns (up.put (CH_SWDT_LOAD_LOAD 3) 9) 3 = true ∧ regGate up .debug (engBase 5 + 0x800) 4 true = .reach ∧
    regGate up .debug (engBase 5 + 0x808) 4 true = .reach ∧ regGate up .debug (engBase 5 + 0x814) 4 true = .reach ∧ (core 0).feeding = false ∧
    notFed .nop = false ∧ Yz.nop.isDefined = true ∧ decodeYezar (encodeYezar .nop) = some .nop ∧ canHalt requested 5 = true ∧ haltWaits requested 5 (some .nop) = true ∧
    regGate up .debug 0x0300000B0010 4 true = .reach ∧ regGate up .debug 0x0300000B0014 4 true = .reach ∧ regGate up .debug 0x0300000B0020 4 true = .reach ∧
    regGate up .debug 0x0300000B0030 4 true = .reach ∧ islHalted (up.puts [(DBG_ISL_HALT_SEC 0, 8)]) 3 = true ∧ runs up 184 = true ∧
    regGate up .debug 0x0300000B0248 4 true = .reach ∧ (driven 6).bit (DBG_XT_IN_SRC 0) 6 = true ∧ smGet 0 (driven 0).dbg.xtLast 0 = 0 := by decide +kernel

theorem witness_Effects_no_trigger : (∀ c < 8, up.bit (DBG_XT_IN_SRC c) 7 = false) ∧ (∀ c < 8, requested.bit (DBG_XT_IN_SRC c) 1 = false) ∧
    (∀ c < 8, requested.bit (DBG_XT_IN_SRC c) 2 = false) ∧ (∀ d < 8, (driven 0).bit (DBG_XT_IN_SRC d) 0 = decide (d = 0)) := by decide +kernel

theorem test_effects : (after (.resetNLow 1000) up).get RST_CAUSE_PIN = 1 ∧ (after (.rstCtrlPartition (.host 0 0) 0xA5 7) up).clocks.busy = [7] ∧
    (after (.engineHaltTaken 5 (some .nop)) requested).on (ENG_DBG_HALTED 5) = true ∧ ((after (.haltForceTimeout 5) requested).eng 5).haltForce = true ∧
    (after (.engDbgResume .debug 5) (halted (core 0))).get (ENG_STATUS_STATE 5) = 1 ∧ ((after (.engDbgPcWrite .debug 5 0x203) (halted (core 0))).eng 5).pc = 0x200 ∧
    (after (.instructionFeed .debug 5 (encodeYezar (.movi 3 9))) (halted (core 0))).on (ENG_DBG_FEED_BUSY 5) = false ∧
    ((after (.instructionFeed .debug 5 (encodeYezar (.movi 3 9))) (halted (core 0))).eng 5).cur 3 = 9 ∧
    (after .trigIn (driven 0)).out = [.trigOut] ∧ (after (.dbgXtPulse .debug 1) (driven 6)).out = [.trigOut, .done] := by decide +kernel

end Sys2Proof.Tests
end

section
/-! PROOFS. The reset state (R11, R50, R58), and a write of an ordinary register by its access codes (R7, R8, R10). -/

namespace Sys2Proof.Machine

/-- Nothing is written at reset: every field reads its cold value. -/
theorem get_reset (f : Fld) : State.reset.get f = f.cold := by
  simp [State.get, State.reset, smGet]

/-- Settles O3: the register file of the reset state is empty, and each other part is its default. -/
theorem resetHoldsTheColdValues : Obligations.ResetHoldsTheColdValues :=
  ⟨fun _ _ _ _ _ => get_reset _, rfl, rfl, rfl, rfl, rfl, rfl, rfl, rfl, wf_reset⟩

/-! Several summary bits settled at once. -/

/-- What settling summary bits adds to a change: an alert's frame. -/
theorem frame_settledAll (l : List Nat) (f : State → State) (s : State) : Frame [.host] alertFlds (f s) (settledAll l f s) := by
  induction l with
  | nil => exact Frame.refl _ _ _
  | cons b l ih => exact ih.trans (frame_settleBit _ b _)

theorem settledAll_alerted (l : List Nat) (f : State → State) (s : State) : Alerted (f s) (settledAll l f s) := by
  induction l with
  | nil => rfl
  | cons b l ih => exact ih.trans (settleBit_alerted _ b _)

theorem alerted_of_host_eq {s t : State} (h : t.host = s.host) : Alerted s t := by
  unfold Alerted
  rw [h]

/-! One field, and the fields of a row. -/

/-- What a field whose table lets it take `new` holds after the write, by its access code (R8). -/
def accessValue (f : FieldRow) (locked : Bool) (old new : Nat) : Nat :=
  match f.acc with
  | .rw => new
  | .rwl => if locked then old else new
  | .w1c => clearBits old new % 2 ^ f.w
  | .w1s => if f.kept = 0 then old else (old ||| new) % 2 ^ f.w
  | .ro | .wo | .rc => old

/-- The field takes writes, and every value written to it is legal. -/
def freelyWritten (s : State) (r : RegRow) (ix : List Nat) (f : FieldRow) : Prop :=
  takesWrite s r ix f.lo = true ∧ ∀ v, legalValue r v = v

theorem get_writeField {s : State} {r : RegRow} {ix : List Nat} {f : FieldRow} (h : freelyWritten s r ix f) (a v : Nat) (locked : Bool)
    (hv : v < 2 ^ f.w) : (writeField s r a ix f v locked).get (f.ref a ix) = accessValue f locked (s.get (f.ref a ix)) v := by
  obtain ⟨htakes, hlegal⟩ := h
  have hw : (f.ref a ix).w = f.w := rfl
  have hmod : v % 2 ^ f.w = v := Nat.mod_eq_of_lt hv
  simp only [writeField, accessValue, htakes, hlegal, Bool.not_true, Bool.false_eq_true, if_false]
  cases f.acc with
  | rw => simp [hw, hmod]
  | rwl => cases locked <;> simp [hw, hmod]
  | w1c => simp [hw]
  | w1s => by_cases hk : f.kept = 0 <;> simp [hw, hk]
  | ro | wo | rc => rfl

theorem frame_writeField (s : State) (r : RegRow) (a : Nat) (ix : List Nat) (f : FieldRow) (v : Nat) (locked : Bool) :
    Frame [] [f.ref a ix] s (writeField s r a ix f v locked) := by
  have hput : ∀ x, Frame [] [f.ref a ix] s (s.put (f.ref a ix) x) := frame_put s _
  have hsame : Frame [] [f.ref a ix] s s := Frame.refl _ _ _
  unfold writeField
  split
  · exact hsame
  · cases f.acc with
    | rw | w1c => exact hput _
    | ro | wo | rc => exact hsame
    | w1s => exact iteInduction (fun _ => hsame) (fun _ => hput _)
    | rwl => exact iteInduction (fun _ => hsame) (fun _ => hput _)

theorem frame_writeFields (r : RegRow) (a : Nat) (ix : List Nat) (v : Nat) (locked : Bool) : ∀ (l : List FieldRow) (s : State),
    Frame [] (l.map (·.ref a ix)) s (writeFields r a ix v locked l s)
  | [], s => Frame.refl s _ _
  | f :: l, s =>
    ((frame_writeField s r a ix f _ locked).mono (List.nil_subset _) (by simp)).trans
      ((frame_writeFields r a ix v locked l _).mono (List.nil_subset _) (fun _ h => List.mem_cons_of_mem _ h))

theorem ref_key_inj {f g : FieldRow} {a : Nat} {ix : List Nat} (h : (f.ref a ix).key = (g.ref a ix).key) : f.lo = g.lo :=
  Nat.add_left_cancel h

/-- A field that a list does not hold at its place is not among the list's. -/
theorem ref_key_notMem {f : FieldRow} {a : Nat} {ix : List Nat} {l : List FieldRow} (h : f.lo ∉ l.map (·.lo)) :
    (f.ref a ix).key ∉ (l.map (·.ref a ix)).map Fld.key := by
  simp only [List.map_map, List.mem_map, Function.comp_apply, not_exists, not_and] at h ⊢
  exact fun g hg he => h g hg (ref_key_inj he)

/-- Each field of a row acts on its own bits of the word: the places of the fields differ. -/
theorem get_writeFields {r : RegRow} {ix : List Nat} (a v : Nat) (locked : Bool) {f : FieldRow} (l : List FieldRow) (s : State)
    (hfree : ∀ s, ∀ g ∈ l, freelyWritten s r ix g) (hnodup : (l.map (·.lo)).Nodup) (hf : f ∈ l) :
    (writeFields r a ix v locked l s).get (f.ref a ix) = accessValue f locked (s.get (f.ref a ix)) (slice v f.lo f.w) := by
  induction l generalizing s with
  | nil => cases hf
  | cons g l ih =>
    obtain ⟨hg, hl⟩ := List.nodup_cons.1 hnodup
    rw [writeFields]
    rcases List.mem_cons.1 hf with rfl | hf
    · rw [(frame_writeFields r a ix v locked l _).get _ (ref_key_notMem hg)]
      exact get_writeField (hfree s f List.mem_cons_self) a _ locked (Nat.mod_lt _ (Nat.two_pow_pos _))
    · have hne : f.lo ≠ g.lo := fun h => hg (List.mem_map.2 ⟨f, hf, h⟩)
      rw [ih _ (fun s g hg => hfree s g (List.mem_cons_of_mem _ hg)) hl hf,
        (frame_writeField s r a ix g _ locked).get _ (by simpa using fun h => hne (ref_key_inj h))]

/-! The rows of the ordinary registers. -/

/-- How far a row's last register lies beyond its first. -/
def extent (dims : List (Nat × Nat)) : Nat := (dims.map (fun d => (d.1 - 1) * d.2)).sum

theorem le_extent_of_instanceOf : ∀ {dims : List (Nat × Nat)} {off : Nat} {ix : List Nat}, instanceOf dims off = some ix → off ≤ extent dims
  | [], off, ix, h => by
    unfold instanceOf at h
    split at h
    · next h0 => simp [h0]
    · cases h
  | (count, stride) :: ds, off, ix, h => by
    unfold instanceOf at h
    split at h
    · next hlt =>
      obtain ⟨jx, hj, _⟩ := Option.map_eq_some_iff.1 h
      have hrest : off % stride ≤ extent ds := le_extent_of_instanceOf hj
      have hfirst : off / stride * stride ≤ (count - 1) * stride := Nat.mul_le_mul_right _ (by omega)
      have hsum : extent ((count, stride) :: ds) = (count - 1) * stride + extent ds := by simp [extent]
      have hdiv : off / stride * stride + off % stride = off := Nat.div_add_mod' off stride
      omega
    · cases h

/-- A row found at a location is of the table, and the location lies between its first and its last register. -/
theorem rowAt_bounds {a : Nat} {r : RegRow} {ix : List Nat} : ∀ {l : List RegRow}, rowAt l a = some (r, ix) →
    r ∈ l ∧ r.base ≤ a ∧ a ≤ r.base + extent r.dims
  | x :: l, h => by
    have hrec : rowAt l a = some (r, ix) → r ∈ x :: l ∧ r.base ≤ a ∧ a ≤ r.base + extent r.dims := fun h => by
      obtain ⟨hm, hlo, hhi⟩ := rowAt_bounds h
      exact ⟨List.mem_cons_of_mem _ hm, hlo, hhi⟩
    unfold rowAt at h
    split at h
    · next hle =>
      split at h
      · next jx hj =>
        cases h
        have := le_extent_of_instanceOf hj
        exact ⟨List.mem_cons_self, hle, by omega⟩
      · exact hrec h
    · exact hrec h

/-- Locations whose tables restrict when or with what they are written: SEC_RIGHTS.WR, HDM ranges, the trace writer, lanes, quads. -/
def restrictedAt (b : Nat) : Bool :=
  b == 0x030000050404 || b == 0x030000080404 || (0x030000060100 ≤ b && b < 0x030000060110) || (0x0300000C0000 ≤ b && b < 0x0300000D0000)

/-- Every restricted row lies with all its registers in a block that has no ordinary register, or in the trace writer's. -/
theorem hubRows_restricted : ∀ r ∈ hubRows, restrictedAt r.base = true →
    0x030000060100 ≤ r.base ∧ r.base + extent r.dims < 0x030000060110 ∨
    (r.base + extent r.dims) / 0x10000 = r.base / 0x10000 ∧ r.base / 0x10000 ∈ [0x3000005, 0x3000008, 0x300000C] := by decide +kernel

/-- The fields of a row stand at different places of one word. -/
theorem hubRows_places : ∀ r ∈ hubRows, 0x030000000000 ≤ r.base ∧ (r.fields.map (·.lo)).Nodup ∧ ∀ f ∈ r.fields, f.lo < 32 := by
  decide +kernel

/-- The blocks of ordinary registers, and the locations in them that are not ordinary. -/
theorem ordinary_cases {a : Nat} (h : ordinary a = true) : 0x030000000000 ≤ a ∧ a < 0x030000100000 ∧
    (a / 0x10000 = 0x3000001 ∧ a % 0x10000 ≠ 8 ∨
     a / 0x10000 = 0x3000006 ∧ ¬ (0x100 ≤ a % 0x10000 ∧ a % 0x10000 < 0x110) ∨
     a / 0x10000 = 0x3000007 ∧ a % 0x10000 ≠ 0x100 ∨
     a / 0x10000 = 0x300000A ∧ a % 0x10000 < 0x8000 ∨
     a / 0x10000 = 0x300000D ∧ a % 0x10000 ≠ 0x10 ∧ ¬ (0x400 ≤ a % 0x10000 ∧ a % 0x10000 < 0x454)) := by
  unfold ordinary at h
  simp only [Bool.and_eq_true, decide_eq_true_eq] at h
  obtain ⟨⟨hlo, hhi⟩, h⟩ := h
  refine ⟨hlo, hhi, ?_⟩
  split at h <;> simp at h <;> omega

/-- The row of an ordinary register is of the hub's table and not restricted. -/
theorem ordinary_row {a : Nat} {r : RegRow} {ix : List Nat} (ho : ordinary a = true) (hr : rowOf a = some (r, ix)) :
    r ∈ hubRows ∧ restrictedAt r.base = false := by
  obtain ⟨hlo, _, hblock⟩ := ordinary_cases ho
  rw [rowOf, if_neg (by omega)] at hr
  obtain ⟨hmem, hbase, hlast⟩ := rowAt_bounds hr
  refine ⟨hmem, Bool.eq_false_iff.2 fun hres => ?_⟩
  rcases hubRows_restricted r hmem hres with h | ⟨h, hb⟩
  · omega
  · simp only [List.mem_cons, List.not_mem_nil, or_false] at hb
    omega

theorem freelyWritten_of_ordinary {a : Nat} {r : RegRow} {ix : List Nat} (ho : ordinary a = true) (hr : rowOf a = some (r, ix)) (s : State)
    (f : FieldRow) : freelyWritten s r ix f := by
  obtain ⟨hmem, hres⟩ := ordinary_row ho hr
  have hb := (hubRows_places r hmem).1
  simp only [restrictedAt, Bool.or_eq_false_iff, Bool.and_eq_false_iff, beq_eq_false_iff_ne, decide_eq_false_iff_not] at hres
  have hne : ∀ x, x = 0x020000040000 ∨ x = 0x030000060108 ∨ x = 0x03000006010C ∨ x = 0x030000060100 ∨ x = 0x0300000C1000 ∨
      x = 0x0300000C0100 ∨ x = 0x0300000C0104 ∨ x = 0x030000080404 ∨ x = 0x030000050404 → (r.base == x) = false := fun x hx => by
    rw [beq_eq_false_iff_ne]; omega
  have hlanes : ¬ (0x0300000C1000 ≤ r.base ∧ r.base ≤ 0x0300000C1038) := by omega
  constructor
  · simp [takesWrite, hne, hlanes]
  · simp [legalValue, hne]

/-- A write of an ordinary register is the write of its fields, with what its summary bits bring. -/
theorem writeSpecial_ordinary {a : Nat} (ho : ordinary a = true) (req : Requester) (v : Nat) (s : State) :
    writeSpecial req a v s = settledAll (summaryBitsAt a) (fun s => writeReg s a v) s := by
  obtain ⟨hlo, hhi, hblock⟩ := ordinary_cases ho
  obtain ⟨off, rfl⟩ := Nat.exists_eq_add_of_le hlo
  have hoff : off < 0x100000 := by omega
  have hloc : locate (0x030000000000 + off) = .hub off := by
    have h1 : (0x030000000000 + off) % 2 ^ 48 = 0x030000000000 + off := Nat.mod_eq_of_lt (by omega)
    have h2 : (0x030000000000 + off) % 0x04000000 = off := by omega
    simp only [locate, h1, h2]
    rw [if_neg (by omega), if_neg (by omega), if_neg (by omega), if_pos (by simp; omega)]
  have hsettled : writeSettled s (0x030000000000 + off) v =
      settledAll (summaryBitsAt (0x030000000000 + off)) (fun s => writeReg s (0x030000000000 + off) v) s := by
    simp only [writeSettled, hloc]
  rw [← hsettled]
  simp only [writeSpecial, hloc]
  have hq : (0x030000000000 + off) / 0x10000 = 0x3000000 + off / 0x10000 := by omega
  have hm : (0x030000000000 + off) % 0x10000 = off % 0x10000 := by omega
  rw [hq, hm] at hblock
  rcases hblock with ⟨hb, h⟩ | ⟨hb, h⟩ | ⟨hb, h⟩ | ⟨hb, h⟩ | ⟨hb, h, h'⟩
  · have hb : off / 0x10000 = 1 := by omega
    simp only [writeHub, hb, if_neg h]
  · have hb : off / 0x10000 = 6 := by omega
    simp only [writeHub, hb]
    rw [if_neg (by omega)]
  · have hb : off / 0x10000 = 7 := by omega
    simp only [writeHub, hb, if_neg h]
  · have hb : off / 0x10000 = 0xA := by omega
    simp only [writeHub, hb]
    rw [if_neg (by omega)]
  · have hb : off / 0x10000 = 0xD := by omega
    simp only [writeHub, hb, if_neg h, if_neg h']

/-- The lines that an alert may set lie in the debug block's windows of the hub engines. -/
theorem alertFlds_block : ∀ k ∈ alertFlds.map Fld.key, k / 32 / 0x10000 = 0x300000B := by decide

theorem ordinary_field_not_alert {a : Nat} {r : RegRow} {ix : List Nat} (ho : ordinary a = true) (hr : rowOf a = some (r, ix)) {f : FieldRow}
    (hf : f ∈ r.fields) : (f.ref a ix).key ∉ alertFlds.map Fld.key := by
  intro h
  obtain ⟨hmem, _⟩ := ordinary_row ho hr
  have hplace := (hubRows_places r hmem).2.2 f hf
  have hblock := alertFlds_block _ h
  have hkey : (f.ref a ix).key / 32 = a := by
    show (a * 32 + f.lo) / 32 = a
    omega
  have := (ordinary_cases ho).2.2
  omega

/-! The write of an ordinary register. -/

theorem writeReg_row {a : Nat} {r : RegRow} {ix : List Nat} (h : rowOf a = some (r, ix)) (s : State) (v : Nat) :
    writeReg s a v = writeFields r a ix v (lockedAt s r ix) r.fields s := by
  simp only [writeReg, h]

theorem frame_writeReg {a : Nat} {r : RegRow} {ix : List Nat} (h : rowOf a = some (r, ix)) (s : State) (v : Nat) :
    Frame [] (r.fields.map (·.ref a ix)) s (writeReg s a v) := by
  rw [writeReg_row h]
  exact frame_writeFields r a ix v _ r.fields s

theorem get_writeReg_ordinary {a : Nat} {r : RegRow} {ix : List Nat} (ho : ordinary a = true) (hr : rowOf a = some (r, ix)) (s : State) (v : Nat)
    {f : FieldRow} (hf : f ∈ r.fields) :
    (writeReg s a v).get (f.ref a ix) = accessValue f (lockedAt s r ix) (s.get (f.ref a ix)) (slice v f.lo f.w) := by
  have hplaces := (hubRows_places r (ordinary_row ho hr).1).2.1
  rw [writeReg_row hr]
  exact get_writeFields a v _ r.fields s (fun s g _ => freelyWritten_of_ordinary ho hr s g) hplaces hf

theorem exec_registerWrite_ordinary {s : State} {req : Requester} {a : Nat} (ho : ordinary a = true) (hgate : regGate s req a 4 true = .reach)
    (data : Word) : exec (.registerWrite req a 4 data) s =
      .next ((settledAll (summaryBitsAt a) (fun s => writeReg s a data.toNat) s.begin).emit .done) := by
  rw [← writeSpecial_ordinary ho req]
  exact congrArg Host.Outcome.next (guardedWrite_reach s.begin req a 4 (writeSpecial req a data.toNat) hgate)

/-- Settles O4: the fields of the row are written one by one, each by its access code, and what the summary bits bring beside them is
an alert. -/
theorem registerWriteActsByAccessCode : Obligations.RegisterWriteActsByAccessCode := by
  intro s req a data r ix ho hr hgate
  have hwritten : Frame [] (r.fields.map (·.ref a ix)) s (writeReg s.begin a data.toNat) := (frame_writeReg hr s.begin data.toNat).begin
  have hsettled := frame_settledAll (summaryBitsAt a) (fun s => writeReg s a data.toNat) s.begin
  have halert := settledAll_alerted (summaryBitsAt a) (fun s => writeReg s a data.toNat) s.begin
  refine ⟨_, exec_registerWrite_ordinary ho hgate data, fun f hf => ?_, ?_, ?_, by simp⟩
  · have hvalue : (writeReg s.begin a data.toNat).get (f.ref a ix) =
        accessValue f (lockedAt s r ix) (s.get (f.ref a ix)) (slice data.toNat f.lo f.w) := get_writeReg_ordinary ho hr s.begin data.toNat hf
    rw [State.emit_get, hsettled.get _ (ordinary_field_not_alert ho hr hf), hvalue]
    cases h : f.acc <;> simp only [accessValue, h]
  · exact ((hwritten.mono (List.nil_subset _) (fun _ h => List.mem_append_left _ h)).trans
      (hsettled.mono (fun _ h => h) (fun _ h => List.mem_append_right _ h))).emit _
  · exact (alerted_of_host_eq (hwritten.host (by simp))).trans halert

end Sys2Proof.Machine
end

section
/-! PROOFS. Reads with effects (R6, R253) and the write of the interrupt mask (R328, R330). -/

namespace Sys2Proof.Machine

/-! Reads of the outputs: what a command has put out is no part of what a register shows. -/

theorem eligibleIn_begin (s : State) (n k : Nat) (l : List Task) : eligibleIn s.begin n k l = eligibleIn s n k l := by
  induction l with
  | nil => rfl
  | cons t l ih =>
    have hclass : taskClass s.begin n t = taskClass s n t := rfl
    have hfits : taskFits s.begin n t = taskFits s n t := rfl
    simp only [eligibleIn, hclass, hfits, ih]

@[simp] theorem eligible_begin (s : State) (n : Nat) : eligible s.begin n = eligible s n := by
  have htasks : s.begin.chan n = s.chan n := rfl
  simp only [eligible, eligibleIn_begin, htasks]

@[simp] theorem nextTask_begin (s : State) (n : Nat) : nextTask s.begin n = nextTask s n := by
  simp only [nextTask, eligible_begin]

@[simp] theorem liveField_begin (s : State) (base lo : Nat) (ix : List Nat) : liveField s.begin base lo ix = liveField s base lo ix := by
  have helig : ∀ n, taskElig s.begin n = taskElig s n := fun n => by simp only [taskElig, eligible_begin]
  simp only [liveField, helig, nextTask_begin]
  rfl

@[simp] theorem wordOf_begin (s : State) (r : RegRow) (a : Nat) (ix : List Nat) (l : List FieldRow) :
    wordOf s.begin r a ix l = wordOf s r a ix l := by
  induction l with
  | nil => rfl
  | cons f l ih => simp only [wordOf, fieldValue, liveField_begin, State.begin_get, ih]

@[simp] theorem readReg_begin (s : State) (a : Nat) : readReg s.begin a = readReg s a := by
  unfold readReg
  split
  · exact wordOf_begin s _ _ _ _
  · rfl

/-! The latch of a high word. -/

/-- A read that reaches its register shows the word read. -/
theorem readRow_reach {s : State} {req : Requester} {a : Nat} (h : regGate s req a 4 false = .reach) :
    readRow req a s = (readSpecial req a (req == .debug) s).2.emit (.value (readSpecial req a (req == .debug) s).1) := by
  simp only [readRow, h]

/-- In the hub control space a read has no effect but that of the latch. -/
theorem readSpecial_hub {a off : Nat} (h : locate a = .hub off) (ha : a < 2 ^ 48) (req : Requester) (debug : Bool) (s : State) :
    readSpecial req a debug s = readLatched s req a := by
  simp only [readSpecial, h, Nat.mod_eq_of_lt ha]

theorem lowWordRead_hub {s : State} {req : Requester} {a : Nat} (ha : a < 2 ^ 48) (hub : ∃ off, locate a = .hub off)
    (hgate : regGate s req a 4 false = .reach) :
    exec (.lowWordRead req a) s = .next ((readLatched s.begin req a).2.emit (.value (readLatched s.begin req a).1)) := by
  obtain ⟨off, hloc⟩ := hub
  have hrow : readRow req a s.begin = _ := readRow_reach hgate
  rw [readSpecial_hub hloc ha] at hrow
  exact congrArg _ hrow

theorem readLatched_low {a : Nat} (h : isLowWord a = true) (s : State) (req : Requester) :
    readLatched s req a = (readReg s a, latchHigh s req (a + 4) (readReg s (a + 4))) := by
  simp only [readLatched, h, if_true]

/-- The latches of a state without those of a requester for a location. -/
def dropLatch (s : State) (req : Requester) (a : Nat) : State :=
  { s with clocks := { s.clocks with latch := s.clocks.latch.filter (fun e => !(e.1 == req && e.2.1 == a)) } }

theorem readLatched_latched {s : State} {req : Requester} {a : Nat} {e : Requester × Nat × Nat} (hlow : isLowWord a = false)
    (h : s.clocks.latch.find? (fun e => e.1 == req && e.2.1 == a) = some e) : readLatched s req a = (e.2.2, dropLatch s req a) := by
  simp only [readLatched, hlow, h, Bool.false_eq_true, if_false]
  rfl

/-- A latch taken is found again by its requester. -/
theorem find_latchHigh (s : State) (req : Requester) (a v : Nat) :
    (latchHigh s req a v).clocks.latch.find? (fun e => e.1 == req && e.2.1 == a) = some (req, a, v) := by
  simp [latchHigh]

theorem find_dropLatch (s : State) (req : Requester) (a : Nat) :
    (dropLatch s req a).clocks.latch.find? (fun e => e.1 == req && e.2.1 == a) = none := by
  refine List.find?_eq_none.2 fun e he hfound => ?_
  have hkept : (!(e.1 == req && e.2.1 == a)) = true := (List.mem_filter.1 he).2
  rw [hfound] at hkept
  cases hkept

theorem frame_clocks (s : State) (c : Clocks) : Frame [.clocks] [] s { s with clocks := c } := by
  constructor
  case clocks => exact fun h => absurd List.mem_cons_self h
  all_goals intros; rfl

theorem frame_latchHigh (s : State) (req : Requester) (a v : Nat) : Frame [.clocks] [] s (latchHigh s req a v) := frame_clocks s _

theorem frame_dropLatch (s : State) (req : Requester) (a : Nat) : Frame [.clocks] [] s (dropLatch s req a) := frame_clocks s _

/-- A low word read latches its high word (R6). -/
theorem lowWordRead_latches {s : State} {req : Requester} {a : Nat} (ha : a < 2 ^ 48) (hub : ∃ off, locate a = .hub off)
    (hlow : isLowWord a = true) (hgate : regGate s req a 4 false = .reach) :
    exec (.lowWordRead req a) s = .next ((latchHigh s.begin req (a + 4) (readReg s (a + 4))).emit (.value (readReg s a))) := by
  rw [lowWordRead_hub ha hub hgate, readLatched_low hlow, readReg_begin, readReg_begin]

/-- A high word that is latched is read from the latch, once (R6). -/
theorem highWordRead_takes {u : State} {req : Requester} {a v : Nat} (ha : a < 2 ^ 48) (hub : ∃ off, locate a = .hub off)
    (hlow : isLowWord a = false) (hgate : regGate u req a 4 false = .reach)
    (h : u.clocks.latch.find? (fun e => e.1 == req && e.2.1 == a) = some (req, a, v)) :
    exec (.lowWordRead req a) u = .next ((dropLatch u.begin req a).emit (.value v)) := by
  rw [lowWordRead_hub ha hub hgate, readLatched_latched (s := u.begin) hlow h]

/-! The pop of the crew task queue. -/

/-- An eligible task of a list is its head, of the class and fitting, or eligible in the rest. -/
theorem mem_eligibleIn_cons {s : State} {n k : Nat} {x t : Task} {l : List Task} (h : x ∈ eligibleIn s n k (t :: l)) :
    x = t ∧ taskClass s n t = k ∧ (k = 0 ∨ taskFits s n t) ∨ x ∈ eligibleIn s n k l := by
  unfold eligibleIn at h
  split at h
  · exact .inr h
  · next hclass =>
    split at h
    · next hfits =>
      rcases List.mem_cons.1 h with rfl | h
      · exact .inl ⟨rfl, not_not.1 hclass, hfits⟩
      · exact .inr h
    · split at h
      · cases h
      · exact .inr h

/-- A pop takes exactly one task from the queue. -/
theorem length_passOver {s : State} {n k : Nat} {x : Task} : ∀ {l : List Task}, x ∈ eligibleIn s n k l →
    (passOver s n k x.off l).length + 1 = l.length
  | t :: l, h => by
    unfold passOver
    split
    · rfl
    · next hother =>
      rcases mem_eligibleIn_cons h with ⟨rfl, hclass, hfits⟩ | h
      · exact absurd ⟨rfl, hclass, hfits⟩ hother
      · rw [List.length_cons, List.length_cons, length_passOver h]

theorem mem_eligibleIn_of_nextTask {s : State} {n k : Nat} {x : Task} (h : nextTask s n = some (k, x)) :
    x ∈ eligibleIn s n k (s.chan n).tasks := by
  have hmem : (k, x) ∈ eligible s n := List.mem_of_mem_head? h
  obtain ⟨j, _, hj⟩ := List.mem_flatMap.1 hmem
  obtain ⟨y, hy, he⟩ := List.mem_map.1 hj
  cases he
  exact hy

theorem chan_congr {s t : State} (h : t.channels = s.channels) (n : Nat) : t.chan n = s.chan n := by simp only [State.chan, h]

theorem setLines_out (line : Nat) : ∀ (gs : List Nat) (s : State), (setLines line gs s).out = s.out
  | [], _ => rfl
  | g :: gs, s => (setLines_out line gs (setLine s g line)).trans rfl

/-- Judging a queue sets its flag and lines of the crew. -/
theorem judgeTasks_channels (n : Nat) (s : State) :
    (judgeTasks n s).channels = (s.setChan n { s.chan n with elig := (nextTask s n).isSome }).channels := by
  unfold judgeTasks
  exact iteInduction (motive := fun t : State => t.channels = _) (fun _ => (frame_setLines 18 _ _).channels (by simp)) (fun _ => rfl)

theorem judgeTasks_out (n : Nat) (s : State) : (judgeTasks n s).out = s.out := by
  unfold judgeTasks
  exact iteInduction (motive := fun t : State => t.out = _) (fun _ => setLines_out 18 _ _) (fun _ => rfl)

theorem notePopped_channels (req : Requester) (n off : Nat) (s : State) : (notePopped req n off s).channels = s.channels := by
  cases req <;> rfl

theorem notePopped_out (req : Requester) (n off : Nat) (s : State) : (notePopped req n off s).out = s.out := by
  cases req <;> rfl

/-- A pop gives the offset of the task selected, takes it from the queue, and touches no other channel. -/
theorem taskPop_next {s : State} {n k : Nat} {x : Task} (h : nextTask s n = some (k, x)) :
    (taskPop n s).1 = x.off ∧ (taskPop n s).2.out = s.out ∧ ((taskPop n s).2.chan n).tasks = passOver s n k x.off (s.chan n).tasks ∧
      OnlyChannel n s (taskPop n s).2 := by
  let u := if k = 0 then s else s.put (CREW_TQ_CREDIT_CREDIT n) (s.get (CREW_TQ_CREDIT_CREDIT n) - x.cost)
  let w := u.setChan n { u.chan n with tasks := passOver s n k x.off (s.chan n).tasks }
  have hpop : taskPop n s = (x.off, judgeTasks n w) := by simp only [taskPop, h]; rfl
  have huout : u.out = s.out := iteInduction (motive := fun t : State => t.out = s.out) (fun _ => rfl) (fun _ => rfl)
  have huchan : u.channels = s.channels := iteInduction (motive := fun t : State => t.channels = s.channels) (fun _ => rfl) (fun _ => rfl)
  have hjudged : ∀ m, (judgeTasks n w).chan m = (w.setChan n { w.chan n with elig := (nextTask w n).isSome }).chan m :=
    chan_congr (judgeTasks_channels n w)
  rw [hpop]
  refine ⟨rfl, (judgeTasks_out n w).trans huout, ?_, fun m hm => ?_⟩
  · rw [hjudged, chan_setChan_same, chan_setChan_same]
  · rw [hjudged, chan_setChan_other _ _ _ _ hm, chan_setChan_other _ _ _ _ hm, chan_congr huchan]

theorem locate_crewTqPop : ∀ n : Ch, locate (0x020000060004 + n.val * 0x10000000) = .chan n 0x60004 := by decide

theorem readSpecial_crewTqPop {a n : Nat} (h : locate a = .chan n 0x60004) (req : Requester) (debug : Bool) (s : State) :
    readSpecial req a debug s = readTaskPop req n debug s := by
  simp only [readSpecial, h]

/-- CREW_TQ_POP is the read of its register. The command's body is brought in as a function and its address as a name, since the gate
of an address with a channel left open in it is nothing that the kernel should evaluate. -/
theorem execCrewTqPop_eq (s : State) (req : Requester) (n : Ch) :
    execCrewTqPop req n s = .next (readRow req (0x020000060004 + n.val * 0x10000000) s.begin) := by
  have hloc := locate_crewTqPop n
  obtain ⟨pop, hpop⟩ : ∃ pop, pop = execCrewTqPop := ⟨_, rfl⟩
  obtain ⟨a, ha⟩ : ∃ a, a = 0x020000060004 + n.val * 0x10000000 := ⟨_, rfl⟩
  rw [← hpop, ← ha]
  rw [← ha] at hloc
  delta execCrewTqPop at hpop
  rw [hpop]
  beta_reduce
  rw [← ha]
  simp only [readRow, readSpecial_crewTqPop hloc]
  cases regGate s.begin req a 4 false <;> rfl

/-- The read of CREW_TQ_POP by its location is the row's own command. -/
theorem rcRead_crewTqPop (s : State) (req : Requester) (n : Ch) :
    exec (.rcRead req (0x020000060004 + n.val * 0x10000000)) s = exec (.crewTqPop req n) s :=
  (execCrewTqPop_eq s req n).symm

/-- A read that reaches the pop register of a channel, by anyone but the debug domain, pops. -/
theorem rcRead_pops {s : State} {req : Requester} {a n : Nat} (hloc : locate a = .chan n 0x60004) (hgate : regGate s req a 4 false = .reach)
    (hreq : req ≠ .debug) : exec (.rcRead req a) s =
      .next ((notePopped req n (taskPop n s.begin).1 (taskPop n s.begin).2).emit (.value (taskPop n s.begin).1)) := by
  have hdebug : (req == .debug) = false := beq_eq_false_iff_ne.2 hreq
  have hrow : readRow req a s.begin = _ := readRow_reach hgate
  simp only [readSpecial_crewTqPop hloc, readTaskPop, hdebug, Bool.false_eq_true, if_false] at hrow
  exact congrArg _ hrow

/-! The summary reads no field of HUB_INT_MASK. -/

/-- Every field but HUB_INT_MASK reads in `t` as in `s`. -/
def SameButMask (s t : State) : Prop := ∀ f : Fld, f.key ≠ HUB_INT_MASK_MASK.key → t.get f = s.get f

theorem SameButMask.bits {s t : State} (h : SameButMask s t) :
    ∀ {l : List Fld}, (∀ f ∈ l, f.key ≠ HUB_INT_MASK_MASK.key) → t.bits l = s.bits l
  | [], _ => rfl
  | f :: l, hl => by
    rw [State.bits, State.bits, h f (hl f List.mem_cons_self), h.bits (fun g hg => hl g (List.mem_cons_of_mem _ hg))]

theorem sector_keys (d i : Nat) : ∀ f ∈ [FAB_SEC_CAUSE_CLK_ALARM d i, FAB_SEC_CAUSE_MEM_UE d i, FAB_SEC_CAUSE_BANK d i,
    FAB_SEC_CAUSE_USER d i, FAB_SEC_MASK_CLK_ALARM d i, FAB_SEC_MASK_MEM_UE d i, FAB_SEC_MASK_BANK d i, FAB_SEC_MASK_USER d i],
    f.key ≠ HUB_INT_MASK_MASK.key := by
  simp only [List.forall_mem_cons, List.not_mem_nil, false_implies, implies_true, and_true, FAB_SEC_CAUSE_CLK_ALARM,
    FAB_SEC_CAUSE_MEM_UE, FAB_SEC_CAUSE_BANK, FAB_SEC_CAUSE_USER, FAB_SEC_MASK_CLK_ALARM, FAB_SEC_MASK_MEM_UE, FAB_SEC_MASK_BANK,
    FAB_SEC_MASK_USER, HUB_INT_MASK_MASK]
  omega

theorem SameButMask.sector {s t : State} (h : SameButMask s t) (d i : Nat) :
    unmasked (secCause t d i) (secMask t d i) = unmasked (secCause s d i) (secMask s d i) := by
  have e := fun f hf => h f (sector_keys d i f hf)
  simp only [secCause, secMask, e, List.mem_cons, true_or, or_true]

theorem channel_keys {n : Nat} (hn : n < 16) : ∀ f ∈ [CH_CAUSE_CLK_ALARM n, CH_CAUSE_MEM_UE n, CH_CAUSE_NAND_TMO n, CH_CAUSE_NAND_QOVF n,
    CH_CAUSE_LDPC_QOVF n, CH_CAUSE_TQ_OVF n, CH_CAUSE_FW_FAIL n, CH_ENG_CAUSE_LO_ENG n, CH_ENG_CAUSE_HI_ENG n, DRAM_CAUSE_TRAIN_FAIL n,
    DRAM_CAUSE_FALLBACK n, DRAM_CAUSE_TEMP n, DRAM_CAUSE_STATE_ERR n, DRAM_CAUSE_REF_LATE n, DRAM_CAUSE_RD_STORM n, PAT_CAUSE_UE n,
    PAT_CAUSE_INTEG n, PAT_CAUSE_POISON_RD n, PAT_CAUSE_SUBTREE n, PAT_CAUSE_SUB_FULL n, PAT_CAUSE_STATE_ERR n, CH_MASK_MASK n,
    DRAM_MASK_MASK n, PAT_MASK_MASK n], f.key < HUB_INT_MASK_MASK.key := by
  simp only [List.forall_mem_cons, List.not_mem_nil, false_implies, implies_true, and_true, CH_CAUSE_CLK_ALARM,
    CH_CAUSE_MEM_UE, CH_CAUSE_NAND_TMO, CH_CAUSE_NAND_QOVF, CH_CAUSE_LDPC_QOVF, CH_CAUSE_TQ_OVF, CH_CAUSE_FW_FAIL, CH_ENG_CAUSE_LO_ENG,
    CH_ENG_CAUSE_HI_ENG, DRAM_CAUSE_TRAIN_FAIL, DRAM_CAUSE_FALLBACK, DRAM_CAUSE_TEMP, DRAM_CAUSE_STATE_ERR, DRAM_CAUSE_REF_LATE, DRAM_CAUSE_RD_STORM, PAT_CAUSE_UE, PAT_CAUSE_INTEG, PAT_CAUSE_POISON_RD,
    PAT_CAUSE_SUBTREE, PAT_CAUSE_SUB_FULL, PAT_CAUSE_STATE_ERR, CH_MASK_MASK, DRAM_MASK_MASK, PAT_MASK_MASK, HUB_INT_MASK_MASK]
  omega

theorem SameButMask.chLeaf {s t : State} (h : SameButMask s t) {n : Nat} (hn : n < 16) : chLeaf t n = chLeaf s n := by
  have e := fun f hf => h f (channel_keys hn f hf).ne
  simp only [Machine.chLeaf, chCause, chEng, dramCause, patCause, State.bits, e, List.mem_cons, true_or, or_true]

theorem SameButMask.partCause {s t : State} (h : SameButMask s t) (p : Nat) : partCause t p = partCause s p := by
  unfold Machine.partCause
  simp only [h.sector]
  split
  · rfl
  · split
    · rw [h.chLeaf (by omega)]
    · rw [h INT_PART_CAUSE_HUB_HE (by decide), h RAS_MASK_MASK (by decide), rasCause, rasCause, h.bits (by decide)]

theorem lane_keys (l : Nat) : (LANE_CAUSE l).key ≠ HUB_INT_MASK_MASK.key ∧ (LANE_MASK l).key ≠ HUB_INT_MASK_MASK.key := by
  simp only [LANE_CAUSE, LANE_MASK, HUB_INT_MASK_MASK]
  omega

theorem SameButMask.laneLeaf {s t : State} (h : SameButMask s t) : laneLeaf t = laneLeaf s := by
  funext l
  rw [Machine.laneLeaf, Machine.laneLeaf, h _ (lane_keys l).1, h _ (lane_keys l).2]

theorem part_mask_key (b : Nat) : (INT_PART_MASK_MASK b).key ≠ HUB_INT_MASK_MASK.key := by
  simp only [INT_PART_MASK_MASK, HUB_INT_MASK_MASK]
  omega

/-- The summary is the same: HUB_INT_MASK is none of its leaves and masks. -/
theorem SameButMask.summaryBit {s t : State} (h : SameButMask s t) (b : Nat) : summaryBit t b = summaryBit s b := by
  unfold Machine.summaryBit
  split
  · rw [h.partCause, h _ (part_mask_key b)]
  · split
    · rw [h SEC_MASK_MASK (by decide), securityCause, securityCause, h.bits (by decide)]
    · rw [h CFG_MASK_MASK (by decide), cfgCause, cfgCause, h.bits (by decide)]
    · rw [h PWR_MASK_MASK (by decide), pwrCause, pwrCause, h.bits (by decide)]
    · rw [h (HP_MASK_MASK 0) (by decide), h (HP_MASK_MASK 1) (by decide), hpCause, hpCause, hpCause, hpCause, h.bits (by decide),
        h.bits (by decide)]
    · rw [h WAKE_MASK_MASK (by decide), wakeCause, wakeCause, h.bits (by decide)]
    · rw [h.laneLeaf]
    · rw [nocMask, nocMask, h NOC_MASK_MASK_CLK (by decide), h NOC_MASK_MASK (by decide), nocCause, nocCause, h.bits (by decide)]
    · rw [h (CMD_DONE_DONE 0) (by decide), h (CMD_DONE_DONE 1) (by decide), h (CMD_DONE_MASK_MASK 0) (by decide),
        h (CMD_DONE_MASK_MASK 1) (by decide)]
    · rfl

theorem sameButMask_put (s : State) (v : Nat) : SameButMask s (s.put HUB_INT_MASK_MASK v) := fun _ hf => get_put_other _ _ _ _ hf

/-! Messages sent. -/

/-- `t` is `s` but for messages: sent after those of `s`, or pending. -/
structure Messaged (s t : State) : Prop where
  frame : Frame [.host] [] s t
  alerted : Alerted s t
  sent : s.out <+: t.out

theorem Messaged.refl (s : State) : Messaged s s := ⟨Frame.refl _ _ _, rfl, List.prefix_rfl⟩

theorem Messaged.trans {s t u : State} (h : Messaged s t) (k : Messaged t u) : Messaged s u :=
  ⟨h.frame.trans k.frame, h.alerted.trans k.alerted, h.sent.trans k.sent⟩

theorem Messaged.get {s t : State} (h : Messaged s t) (f : Fld) : t.get f = s.get f := h.frame.get f (by simp)

/-- What decides whether and how a vector is sent stands. -/
theorem Messaged.msixOn {s t : State} (h : Messaged s t) (port : Nat) : msixOn t port = msixOn s port := by
  unfold Machine.msixOn
  rw [h.alerted]

theorem Messaged.msixWord {s t : State} (h : Messaged s t) (port i : Nat) : msixWord t port i = msixWord s port i := by
  unfold Machine.msixWord
  rw [h.alerted]

theorem Messaged.summaryBit {s t : State} (h : Messaged s t) (b : Nat) : summaryBit t b = summaryBit s b :=
  SameButMask.summaryBit (fun f _ => h.get f) b

theorem sendMsix_messaged (s : State) (port vec : Nat) : Messaged s (sendMsix s port vec) := by
  refine ⟨frame_sendMsix s port vec, sendMsix_alerted s port vec, ?_⟩
  rcases sendMsix_cases s port vec with h | h | h
  · rw [h]
  · rw [h]
    exact List.prefix_append _ _
  · rw [h]

/-- A vector whose table entry is not masked is sent. -/
theorem mem_out_sendMsix {s : State} {port vec : Nat} (hon : msixOn s port = true) (hmask : msixWord s port (vec * 4 + 3) % 2 = 0) :
    .msix port vec ∈ (sendMsix s port vec).out := by
  simp [sendMsix, hon, hmask]

/-- The ports that a port field names get the vector, one after the other. -/
def sendTo (ports vec : Nat) (s : State) (port : Nat) : State := if ports.testBit port then sendMsix s port vec else s

theorem sendVector_eq (s : State) (b : Nat) : sendVector s b =
    sendTo (s.get (INT_VEC_PORT b)) (s.get (INT_VEC_VEC b)) (sendTo (s.get (INT_VEC_PORT b)) (s.get (INT_VEC_VEC b)) s 0) 1 := rfl

theorem sendTo_messaged (ports vec : Nat) (s : State) (port : Nat) : Messaged s (sendTo ports vec s port) :=
  iteInduction (fun _ => sendMsix_messaged s port vec) (fun _ => Messaged.refl s)

theorem sendVector_messaged (s : State) (b : Nat) : Messaged s (sendVector s b) :=
  (sendTo_messaged _ _ s 0).trans (sendTo_messaged _ _ _ 1)

/-- Summary bit `b` has a vector for a port, and nothing there withholds it. -/
structure VectorGoes (s : State) (b port : Nat) : Prop where
  named : (s.get (INT_VEC_PORT b)).testBit port = true
  on : msixOn s port = true
  clear : msixWord s port (s.get (INT_VEC_VEC b) * 4 + 3) % 2 = 0

theorem VectorGoes.after {s t : State} {b port : Nat} (h : VectorGoes s b port) (m : Messaged s t) : VectorGoes t b port :=
  ⟨by rw [m.get]; exact h.named, by rw [m.msixOn]; exact h.on, by rw [m.get, m.msixWord]; exact h.clear⟩

theorem mem_out_sendVector {s : State} {b port : Nat} (hport : port < 2) (h : VectorGoes s b port) :
    .msix port (s.get (INT_VEC_VEC b)) ∈ (sendVector s b).out := by
  have key : ∀ {u}, Messaged s u →
      .msix port (s.get (INT_VEC_VEC b)) ∈ (sendTo (s.get (INT_VEC_PORT b)) (s.get (INT_VEC_VEC b)) u port).out := by
    intro u m
    rw [sendTo, if_pos h.named]
    exact mem_out_sendMsix ((m.msixOn port).trans h.on) ((congrArg (· % 2) (m.msixWord port _)).trans h.clear)
  rw [sendVector_eq]
  interval_cases port
  · exact (sendTo_messaged _ _ _ 1).sent.subset (key (Messaged.refl s))
  · exact key (sendTo_messaged _ _ s 0)

/-! The write of HUB_INT_MASK. -/

/-- A summary bit that is 1 and of those that a mask write clears sends its vector. -/
def sendCleared (cleared : Nat → Bool) (s : State) (b : Nat) : State := if cleared b && summaryBit s b then sendVector s b else s

/-- The bits that a write of `v` clears in HUB_INT_MASK. -/
def clearedBits (s : State) (v b : Nat) : Bool := s.bit HUB_INT_MASK_MASK b && !v.testBit b

theorem writeIntMask_eq (v : Nat) (s : State) :
    writeIntMask v s = (List.range 29).foldl (sendCleared (clearedBits s v)) (s.put HUB_INT_MASK_MASK v) := rfl

theorem sendCleared_messaged (cleared : Nat → Bool) (s : State) (b : Nat) : Messaged s (sendCleared cleared s b) :=
  iteInduction (fun _ => sendVector_messaged s b) (fun _ => Messaged.refl s)

theorem foldl_sendCleared_messaged (cleared : Nat → Bool) : ∀ (l : List Nat) (s : State), Messaged s (l.foldl (sendCleared cleared) s)
  | [], s => Messaged.refl s
  | b :: l, s => (sendCleared_messaged cleared s b).trans (foldl_sendCleared_messaged cleared l _)

/-- Each of the bits sends its vector, whatever the bits before it have sent. -/
theorem mem_out_foldl_sendCleared {cleared : Nat → Bool} {b port : Nat} (hc : cleared b = true) (hport : port < 2) {l : List Nat} {s : State}
    (hb : b ∈ l) (hsum : summaryBit s b = true) (hgo : VectorGoes s b port) :
    .msix port (s.get (INT_VEC_VEC b)) ∈ (l.foldl (sendCleared cleared) s).out := by
  induction l generalizing s with
  | nil => cases hb
  | cons a l ih =>
    rw [List.foldl_cons]
    rcases List.mem_cons.1 hb with rfl | hb
    · apply (foldl_sendCleared_messaged cleared l _).sent.subset
      rw [sendCleared, if_pos (by rw [hc, hsum]; rfl)]
      exact mem_out_sendVector hport hgo
    · have m := sendCleared_messaged cleared s a
      rw [← m.get]
      exact ih hb ((m.summaryBit b).trans hsum) (hgo.after m)

theorem vector_keys (b : Nat) : (INT_VEC_PORT b).key ≠ HUB_INT_MASK_MASK.key ∧ (INT_VEC_VEC b).key ≠ HUB_INT_MASK_MASK.key := by
  simp only [INT_VEC_PORT, INT_VEC_VEC, HUB_INT_MASK_MASK]
  omega

theorem hubIntMaskWrite_reach {s : State} {req : Requester} (mask : Word) (hgate : regGate s req 0x030000000104 4 true = .reach) :
    exec (.hubIntMaskWrite req mask) s = .next ((writeIntMask mask.toNat s.begin).emit .done) :=
  congrArg Host.Outcome.next (guardedWrite_reach s.begin req _ 4 (writeIntMask mask.toNat) hgate)

/-- The mask takes the value written; beside it only messages differ. -/
theorem writeIntMask_messaged (v : Nat) (s : State) : Messaged (s.put HUB_INT_MASK_MASK v) (writeIntMask v s) :=
  foldl_sendCleared_messaged _ _ _

/-- A bit that the write clears while it is 1 in the summary sends its vector (R330). -/
theorem mem_out_writeIntMask {s : State} {v b port : Nat} (hb : b < 29) (hport : port < 2) (hc : clearedBits s v b = true)
    (hsum : summaryBit s b = true) (hgo : VectorGoes s b port) : .msix port (s.get (INT_VEC_VEC b)) ∈ (writeIntMask v s).out := by
  have same := sameButMask_put s v
  obtain ⟨hkport, hkvec⟩ := vector_keys b
  have hgo' : VectorGoes (s.put HUB_INT_MASK_MASK v) b port :=
    ⟨by rw [same _ hkport]; exact hgo.named, hgo.on, by rw [same _ hkvec]; exact hgo.clear⟩
  rw [writeIntMask_eq, ← same _ hkvec]
  exact mem_out_foldl_sendCleared hc hport (List.mem_range.2 hb) ((same.summaryBit b).trans hsum) hgo'

/-- Settles O6: the latch of the high word, the pop, and the vectors that a write of the mask sends. -/
theorem readsWithEffectsAndTheInterruptMask : Obligations.ReadsWithEffectsAndTheInterruptMask := by
  refine ⟨fun s req a ha hub hlow hgate => ?_, rcRead_crewTqPop, fun s req n k x hgate hreq hnext => ?_, fun s req mask hgate => ?_⟩
  · refine ⟨_, lowWordRead_latches ha hub hlow hgate, rfl, ((frame_latchHigh s.begin req _ _).emit _).begin, rfl, ?_⟩
    intro u hu hhigh hub' hgate' ha'
    have hfound : u.clocks.latch.find? (fun e => e.1 == req && e.2.1 == a + 4) = some (req, a + 4, readReg s (a + 4)) := by
      rw [hu]
      exact find_latchHigh s.begin req _ _
    exact ⟨_, highWordRead_takes ha' hub' hhigh hgate' hfound, rfl, ((frame_dropLatch u.begin req _).emit _).begin, find_dropLatch _ _ _⟩
  · obtain ⟨hoff, hout, htasks, honly⟩ := taskPop_next (s := s.begin) ((nextTask_begin s n).trans hnext)
    have hchan : ∀ m, (notePopped req n (taskPop n s.begin).1 (taskPop n s.begin).2).chan m = (taskPop n s.begin).2.chan m :=
      chan_congr (notePopped_channels _ _ _ _)
    refine ⟨_, rcRead_pops (locate_crewTqPop n) hgate hreq, ?_, ?_, fun m hm => (hchan m).trans (honly m hm)⟩
    · rw [State.emit_out, notePopped_out, hout, hoff]; rfl
    · rw [show State.chan (State.emit _ _) n = _ from hchan n, htasks]
      exact length_passOver (mem_eligibleIn_of_nextTask ((nextTask_begin s n).trans hnext))
  · have m := writeIntMask_messaged mask.toNat s.begin
    have hput : Frame [] [HUB_INT_MASK_MASK] s (s.begin.put HUB_INT_MASK_MASK mask.toNat) := (frame_put s.begin _ _).begin
    refine ⟨_, hubIntMaskWrite_reach mask hgate, ?_, ?_, m.alerted, by simp, ?_⟩
    · rw [State.emit_get, m.get, get_put_same]
    · exact ((hput.mono (List.nil_subset _) (fun _ h => h)).trans (m.frame.mono (fun _ h => h) (List.forall_mem_nil _))).emit _
    · intro b hb hmask hclear hsum port hport hnamed hon hword
      have hc : clearedBits s.begin mask.toNat b = true := by
        rw [clearedBits, show s.begin.bit HUB_INT_MASK_MASK b = true from hmask, BitVec.testBit_toNat, hclear]; rfl
      have hsum' : summaryBit s.begin b = true := (SameButMask.summaryBit (fun _ _ => rfl) b).trans hsum
      exact List.mem_append_left _ (mem_out_writeIntMask hb hport hc hsum' ⟨hnamed, hon, hword⟩)

end Sys2Proof.Machine
end

section
/-! PROOFS. Requests of the network at their port and at their target (R19 to R21, R159, R161 to R164). -/

namespace Sys2Proof.Machine

/-! The three commands. -/

section
variable {s t : State} {req : Requester} {tag : Fin 1024} {addr : BitVec 52}

theorem exec_rd {len : Fin 64} (h : issueRequest (rdAsk req tag addr len) s.begin = t) : exec (.rd req tag addr len) s = .next t :=
  congrArg _ h

theorem exec_wr {len : Fin 64} {be : BitVec 64} {data : BitVec 512} {psn : Bool}
    (h : issueRequest (wrAsk req tag addr len be data psn) s.begin = t) : exec (.wr req tag addr len be data psn) s = .next t :=
  congrArg _ h

theorem exec_atom {wide : Bool} {op : AtomOp} {operand compare : BitVec 64}
    (h : issueRequest (atomAsk req tag addr wide op operand compare) s.begin = t) :
    exec (.atom req tag addr wide op operand compare) s = .next t :=
  congrArg _ h

end

/-! At the port. -/

/-- The requester issues, and the tag is free at the port by which the request enters. -/
structure Sends (s : State) (a : Ask) : Prop where
  issues : issues s a.req = true
  tagFree : tagBusy s a.req (entryPort a.req (requestDst s a.req a.addr)) a.tag = false

/-- The port hands the request on to its target. -/
structure HandsOn (s : State) (a : Ask) : Prop extends Sends s a where
  notAnswered : portAnswers a (entryPort a.req (requestDst s a.req a.addr)) (requestDst s a.req a.addr) s = none

/-- A held sector, or a tag that is outstanding, issues nothing (R20, R163). -/
theorem issueRequest_notSent {s : State} {a : Ask}
    (h : issues s a.req = false ∨ tagBusy s a.req (entryPort a.req (requestDst s a.req a.addr)) a.tag = true) : issueRequest a s = s := by
  unfold issueRequest
  rcases h with h | h <;> simp [h]

/-- A misshapen request is answered by its port (R159). -/
theorem issueRequest_badShape {s : State} {a : Ask} (h : Sends s a) (hshape : badShape a = true) :
    issueRequest a s = recordReq (reqOf a (entryPort a.req (requestDst s a.req a.addr)) none (some .errBus)) s := by
  simp [issueRequest, portAnswers, h.issues, h.tagFree, hshape]

section
variable {s t : State} {a : Ask} (h : HandsOn s a)
include h

/-- A request that its target answers is recorded with the answer, after the probes have seen it. -/
theorem issueRequest_done {x : NocRsp} (hserve : serve a s = (.done x, t)) :
    issueRequest a s = withAnswer a (requestDst s a.req a.addr) x t := by
  simp only [issueRequest, h.issues, h.tagFree, h.notAnswered, hserve, Bool.not_true, Bool.or_self, Bool.false_eq_true, if_false]
  rfl

theorem issueRequest_wait (hserve : serve a s = (.wait, t)) : issueRequest a s = t.emit .held := by
  simp [issueRequest, h.issues, h.tagFree, h.notAnswered, hserve]

/-- A request to a sector's logic is recorded at its target port, which has room for it (R164). -/
theorem issueRequest_fabric {x : Nat} (hdst : requestDst s a.req a.addr = some x) (hserve : serve a s = (.outside, t))
    (hroom : acceptedAt t x < 1024) :
    issueRequest a s = recordReq (reqOf a (entryPort a.req (some x)) (some x) none)
      ((seeRequest (reqOf a (entryPort a.req (some x)) (some x) none) (blockBe a) t).emit
        (.fabricRequest x a.opc a.addr a.len a.data a.be a.op a.cmp a.psn)) := by
  have htag := h.tagFree
  have hport := h.notAnswered
  rw [hdst] at htag hport
  simp [issueRequest, h.issues, hdst, htag, hport, hserve, enterFabric, Nat.not_le.2 hroom]

end

/-! Plain memory by device address. -/

theorem locate_of_plainOf_chip {addr p u i o : Nat} (hlt : addr < hubSram) (h : plainOf addr = some (.chip p u i o)) :
    ∃ n off, locate addr = .chan n off := by
  rw [plainOf, if_neg (Nat.not_le.2 hlt)] at h
  split at h
  · cases h
  · next n off hloc => exact ⟨n, off, hloc⟩
  · cases h

theorem locate_of_plainOf_dram {addr n o k : Nat} (hlt : addr < hubSram) (h : plainOf addr = some (.dram n o k)) :
    locate addr = .dram n o := by
  rw [plainOf, if_neg (Nat.not_le.2 hlt)] at h
  split at h
  · next hloc => cases h; exact hloc
  · dsimp only at h
    split_ifs at h <;> cases h
  · cases h

/-- A request to an address that is no location of the fabric goes to no sector. -/
theorem requestDst_eq_none {s : State} {req : Requester} {addr : Nat} (h : ∀ d off, locate addr ≠ .fabric d off) :
    requestDst s req addr = none := by
  unfold requestDst
  split
  · next hloc => exact absurd hloc (h _ _)
  · rfl

/-- A read needs the right to read alone (R295). -/
theorem permitted_read {s : State} {a : Ask} (hopc : a.opc = 0) (hright : hasRight s a.req a.addr false = true) : permitted s a = true := by
  simp [permitted, hopc, hright]

/-! At plain memory. -/

/-- The class of an access that a request makes. -/
def Ask.access (a : Ask) : Access1 := ⟨a.req, false, a.posted, .ok⟩

/-- A read without the right gives zero (R21). -/
theorem memRead_silent {s : State} {x : Access1} {addr k : Nat} {w : Plain} (hlt : addr < hubSram) (hplain : plainOf addr = some w)
    (hright : hasRight s x.req addr false = false) : memRead x addr k s = some ⟨.ok, 0, s⟩ := by
  simp [memRead, hplain, hlt, hright]

theorem memRead_permitted {s : State} {x : Access1} {addr k : Nat} {w : Plain} (hplain : plainOf addr = some w)
    (hright : hasRight s x.req addr false = true) : memRead x addr k s = some (plainRead x w k s) := by
  simp [memRead, hplain, hright]

theorem memWrite_permitted {s : State} {x : Access1} {addr v be k : Nat} {w : Plain} (hplain : plainOf addr = some w)
    (hright : hasRight s x.req addr true = true) : memWrite x addr v be k s = some (plainWrite x w v be k s) := by
  simp [memWrite, hplain, hright]

/-- A read of an on-chip memory in service gives its bytes, with poison where one is uncorrectable (R95). -/
theorem plainRead_chip {s t : State} {x : Access1} {p u i o k v : Nat} {c ue : Bool} (hstop : chipStop s p = none)
    (hread : readBytes (bankServes (bankUser (p - 4) x.req) p u i s) p u i o k = (v, c, ue, t)) :
    plainRead x (.chip p u i o) k s = ⟨if ue then .poison else .ok, v, t⟩ := by
  simp only [plainRead, hstop, hread]

theorem plainWrite_chip {s : State} (x : Access1) {p : Nat} (u i o v be k : Nat) (hstop : chipStop s p = none) :
    plainWrite x (.chip p u i o) v be k s =
      (.ok, breakAt (engineOf x.req) (.chip p u i o) (writeBytes (bankServes (bankUser (p - 4) x.req) p u i s) p u i o v be k)) := by
  simp only [plainWrite, hstop]

theorem serveMemory_read {s : State} {a : Ask} {r : LineRes} (hopc : a.opc = 0) (h : memRead a.access a.addr a.len s = some r) :
    serveMemory a s = (rspOf 0 r.v r.st, r.s) := by
  rw [Ask.access] at h
  simp only [serveMemory, hopc, h]

theorem serveMemory_write {s : State} {a : Ask} (hopc : a.opc = 1) : serveMemory a s = serveWrite a a.access s := by
  simp only [serveMemory, hopc, Ask.access]

theorem serveMemory_atomic {s : State} {a : Ask} (hopc : a.opc = 2) : serveMemory a s = serveAtomic a a.access s := by
  simp only [serveMemory, hopc, Ask.access]

/-- Bytes with poison are data with poison; either way a read has data. -/
theorem rspOf_read (v : Nat) (ue : Bool) : rspOf 0 v (if ue then .poison else .ok) = .data v ue := by cases ue <;> rfl

/-- A write without the right completes and changes nothing (R21). -/
theorem serveWrite_silent {s : State} {a : Ask} (x : Access1) (hlt : a.addr < hubSram) (hplain : plainOf a.addr ≠ none)
    (hright : hasRight s a.req a.addr true = false) : serveWrite a x s = (.ack, s) := by
  obtain ⟨w, hw⟩ := Option.ne_none_iff_exists'.1 hplain
  simp [serveWrite, hw, hlt, hright]

/-- On-chip memory takes no poisoned data (R161). -/
theorem serveWrite_chip_poisoned {s : State} {a : Ask} (x : Access1) {p u i o : Nat} (hplain : plainOf a.addr = some (.chip p u i o))
    (hright : hasRight s a.req a.addr true = true) (hpsn : a.psn = true) : serveWrite a x s = (.errBus, s) := by
  simp [serveWrite, hplain, hright, hpsn]

theorem serveWrite_chip {s : State} {a : Ask} (x : Access1) {p u i o : Nat} (hplain : plainOf a.addr = some (.chip p u i o))
    (hright : hasRight s a.req a.addr true = true) (hpsn : a.psn = false) (hstop : chipStop s p = none) : serveWrite a x s =
      (.ack, breakAt (engineOf x.req) (.chip p u i o)
        (writeBytes (bankServes (bankUser (p - 4) x.req) p u i s) p u i o a.data a.be a.len)) := by
  simp [serveWrite, hplain, hright, hpsn, plainWrite_chip x u i o _ _ _ hstop, rspOf]

/-- An atomic whose bytes are good gives the old value and leaves its operation's (R159). -/
theorem serveAtomic_chip {s t : State} {a : Ask} {p u i o v x : Nat} {c : Bool} (hplain : plainOf a.addr = some (.chip p u i o))
    (hread : hasRight s a.req a.addr false = true) (hwrite : hasRight s a.req a.addr true = true) (hstop : chipStop s p = none)
    (hbytes : readBytes (bankServes (bankUser (p - 4) a.req) p u i s) p u i o a.len = (v, c, false, t))
    (hop : atomResult a.op (8 * a.len) v a.data a.cmp = some x) (hstop' : chipStop t p = none)
    (hwrite' : hasRight t a.req a.addr true = true) : serveAtomic a a.access s =
      (.data v false, breakAt (engineOf a.req) (.chip p u i o)
        (writeBytes (bankServes (bankUser (p - 4) a.req) p u i t) p u i o x (2 ^ a.len - 1) a.len)) := by
  have hold : memRead a.access a.addr a.len s = some ⟨.ok, v, t⟩ :=
    (memRead_permitted hplain hread).trans (congrArg some (plainRead_chip (x := a.access) hstop hbytes))
  have hnew : memWrite a.access a.addr x (2 ^ a.len - 1) a.len t = some (.ok, _) :=
    (memWrite_permitted hplain hwrite').trans (congrArg some (plainWrite_chip a.access u i o _ _ _ hstop'))
  simp only [serveAtomic, permitted, hread, hwrite, hold, hop, hnew, Bool.or_true, Bool.and_true, Bool.not_true, Bool.and_false,
    Bool.false_eq_true, if_false]
  rfl

/-! At the target. -/

/-- Nothing holds the request up before its target: the hub switch lets it by (R23), and its channel is awake (R354). -/
structure Arrives (s : State) (a : Ask) : Prop where
  inMap : a.addr < hubSram
  noSwitch : switchStop s a = none
  awake : waitsForChannel s a = none

/-- The hub switch, not in service, holds or ends what passes it (R46). -/
theorem serve_switchStop {s : State} {a : Ask} {x : Answer} (hlt : a.addr < hubSram) (h : switchStop s a = some x) :
    serve a s = (x, s) := by
  simp [serve, Nat.not_le.2 hlt, h]

section
variable {s : State} {a : Ask} (h : Arrives s a)
include h

theorem serve_chip {p u i o : Nat} (hplain : plainOf a.addr = some (.chip p u i o)) (hrun : s.clocks.halted = false) :
    serve a s = (.done (serveMemory a s).1, (serveMemory a s).2) := by
  obtain ⟨n, off, hloc⟩ := locate_of_plainOf_chip h.inMap hplain
  simp [serve, Nat.not_le.2 h.inMap, h.noSwitch, h.awake, hloc, hplain, hrun]

/-- Channel DRAM that no directory entry and no failed snoop keeps answers as memory (R310). -/
theorem serve_dram {n o k : Nat} (hplain : plainOf a.addr = some (.dram n o k)) (hsnooped : s.host.failed.contains (a.req, a.tag) = false)
    (hfree : permitted s a = true → biNeeds s a = none) : serve a s = (.done (serveMemory a s).1, (serveMemory a s).2) := by
  have hneeds : (if permitted s a then biNeeds s a else none) = none := by
    split
    · next hp => exact hfree hp
    · rfl
  simp only [serve, Nat.not_le.2 h.inMap, h.noSwitch, h.awake, locate_of_plainOf_dram h.inMap hplain, if_false, serveDram, takeFailed,
    hsnooped, Bool.false_eq_true, hneeds]

theorem serve_unmapped (hloc : locate a.addr = .unmapped) : serve a s = (.done .errDecode, s) := by
  simp [serve, Nat.not_le.2 h.inMap, h.noSwitch, h.awake, hloc]

theorem serve_hub {off : Nat} (hloc : locate a.addr = .hub off) : serve a s = serveRegister a s := by
  simp [serve, Nat.not_le.2 h.inMap, h.noSwitch, h.awake, hloc]

theorem serve_fabric {d off : Nat} (hloc : locate a.addr = .fabric d off) : serve a s = serveFabric a (d * 2 ^ 38 + off) s := by
  simp [serve, Nat.not_le.2 h.inMap, h.noSwitch, h.awake, hloc]

end

/-- A read of one register word that reaches it (R6). -/
theorem serveRegister_read {s : State} {a : Ask} (hopc : a.opc = 0) (hlen : a.len = 4) (hgate : regGate s a.req a.addr 4 false = .reach) :
    serveRegister a s =
      (.done (.data (readSpecial a.req a.addr a.quiet s).1 false), (readSpecial a.req a.addr a.quiet s).2) := by
  simp [serveRegister, hopc, hlen, hgate, readWords]

/-- A sector that is up, with its die in Run and its clock not gated, sees the request itself (R20, R164). -/
theorem serveFabric_outside {s : State} {a : Ask} {off x : Nat} (hright : permitted s a = true) (hdst : fabricTarget s a.req off = some x)
    (hroute : routeFrozen s (entryPort a.req (some x)) (some x) = false) (hup : sectorUp s x = true)
    (heasy : easyHolds s (x / 32) = false) (hgated : gated s x = false) : serveFabric a off s = (.outside, s) := by
  simp [serveFabric, hright, hdst, hroute, hup, heasy, hgated]

/-! From the port to the answer. -/

/-- The port hands the request on, and nothing holds it up before its target. -/
structure Comes (s : State) (a : Ask) : Prop extends HandsOn s a, Arrives s a

/-- A request that its port takes comes to its target where its channel is awake. What the last command put out decides nothing here. -/
theorem Takes.comes {s : State} {a : Ask} (h : Takes s a) (hlt : a.addr < hubSram) (hawake : waitsForChannel s a = none) :
    Comes s.begin a := by
  obtain ⟨hissues, htag, hport, hswitch⟩ := h
  exact ⟨⟨⟨hissues, htag⟩, hport⟩, ⟨hlt, hswitch, hawake⟩⟩

section
variable {s t : State} {a : Ask} (h : Comes s a)
include h

/-- What a target outside the fabric answers is recorded. -/
theorem issueRequest_answered {x : NocRsp} (hloc : ∀ d off, locate a.addr ≠ .fabric d off) (hserve : serve a s = (.done x, t)) :
    issueRequest a s = withAnswer a none x t := by
  rw [issueRequest_done h.toHandsOn hserve, requestDst_eq_none hloc]

theorem issueRequest_chip {x : NocRsp} {p u i o : Nat} (hplain : plainOf a.addr = some (.chip p u i o)) (hrun : s.clocks.halted = false)
    (hmem : serveMemory a s = (x, t)) : issueRequest a s = withAnswer a none x t := by
  obtain ⟨n, off, hloc⟩ := locate_of_plainOf_chip h.inMap hplain
  refine issueRequest_answered h (by simp [hloc]) ?_
  rw [serve_chip h.toArrives hplain hrun, hmem]

theorem issueRequest_dram {x : NocRsp} {n o k : Nat} (hplain : plainOf a.addr = some (.dram n o k))
    (hsnooped : s.host.failed.contains (a.req, a.tag) = false) (hfree : permitted s a = true → biNeeds s a = none)
    (hmem : serveMemory a s = (x, t)) : issueRequest a s = withAnswer a none x t := by
  refine issueRequest_answered h (by simp [locate_of_plainOf_dram h.inMap hplain]) ?_
  rw [serve_dram h.toArrives hplain hsnooped hfree, hmem]

theorem issueRequest_unmapped (hloc : locate a.addr = .unmapped) : issueRequest a s = withAnswer a none .errDecode s :=
  issueRequest_answered h (by simp [hloc]) (serve_unmapped h.toArrives hloc)

theorem issueRequest_register {off : Nat} (hloc : locate a.addr = .hub off) (hopc : a.opc = 0) (hlen : a.len = 4)
    (hgate : regGate s a.req a.addr 4 false = .reach) : issueRequest a s =
      withAnswer a none (.data (readSpecial a.req a.addr a.quiet s).1 false) (readSpecial a.req a.addr a.quiet s).2 := by
  refine issueRequest_answered h (by simp [hloc]) ?_
  rw [serve_hub h.toArrives hloc, serveRegister_read hopc hlen hgate]

/-- A read of on-chip memory gives the bytes, corrected or poisoned (R95, R159). -/
theorem issueRequest_read_chip {p u i o v : Nat} {c ue : Bool} (hopc : a.opc = 0) (hplain : plainOf a.addr = some (.chip p u i o))
    (hrun : s.clocks.halted = false) (hstop : chipStop s p = none) (hright : hasRight s a.req a.addr false = true)
    (hread : readBytes (bankServes (bankUser (p - 4) a.req) p u i s) p u i o a.len = (v, c, ue, t)) :
    issueRequest a s = withAnswer a none (.data v ue) t := by
  have hmem := memRead_permitted (x := a.access) (k := a.len) hplain hright
  rw [plainRead_chip hstop hread] at hmem
  exact issueRequest_chip h hplain hrun ((serveMemory_read hopc hmem).trans (congrArg (·, t) (rspOf_read v ue)))

theorem issueRequest_read_chip_silent {p u i o : Nat} (hopc : a.opc = 0) (hplain : plainOf a.addr = some (.chip p u i o))
    (hrun : s.clocks.halted = false) (hright : hasRight s a.req a.addr false = false) :
    issueRequest a s = withAnswer a none (.data 0 false) s :=
  issueRequest_chip h hplain hrun (serveMemory_read hopc (memRead_silent (x := a.access) h.inMap hplain hright))

/-- A read of channel DRAM gives what Patina gives (R278). -/
theorem issueRequest_read_dram {n o k : Nat} (hopc : a.opc = 0) (hplain : plainOf a.addr = some (.dram n o k))
    (hright : hasRight s a.req a.addr false = true) (hsnooped : s.host.failed.contains (a.req, a.tag) = false)
    (hfree : biNeeds s a = none) : issueRequest a s =
      let r := patRead ⟨n, o / 64, k, (groupOf a.req).getD 0, false, false⟩ .ok s
      withAnswer a none (rspOf 0 (slice r.v (8 * (o % 64)) (8 * a.len)) r.st) r.s :=
  issueRequest_dram h hplain hsnooped (fun _ => hfree)
    (serveMemory_read hopc (memRead_permitted (x := a.access) (k := a.len) hplain hright))

theorem issueRequest_write_chip {p u i o : Nat} (hopc : a.opc = 1) (hplain : plainOf a.addr = some (.chip p u i o))
    (hrun : s.clocks.halted = false) (hstop : chipStop s p = none) (hright : hasRight s a.req a.addr true = true) (hpsn : a.psn = false) :
    issueRequest a s = withAnswer a none .ack (breakAt (engineOf a.req) (.chip p u i o)
      (writeBytes (bankServes (bankUser (p - 4) a.req) p u i s) p u i o a.data a.be a.len)) :=
  issueRequest_chip h hplain hrun ((serveMemory_write hopc).trans (serveWrite_chip _ hplain hright hpsn hstop))

theorem issueRequest_write_chip_poisoned {p u i o : Nat} (hopc : a.opc = 1) (hplain : plainOf a.addr = some (.chip p u i o))
    (hrun : s.clocks.halted = false) (hright : hasRight s a.req a.addr true = true) (hpsn : a.psn = true) :
    issueRequest a s = withAnswer a none .errBus s :=
  issueRequest_chip h hplain hrun ((serveMemory_write hopc).trans (serveWrite_chip_poisoned _ hplain hright hpsn))

theorem issueRequest_atomic_chip {p u i o v x : Nat} {c : Bool} (hopc : a.opc = 2) (hplain : plainOf a.addr = some (.chip p u i o))
    (hrun : s.clocks.halted = false) (hstop : chipStop s p = none)
    (hread : hasRight s a.req a.addr false = true) (hwrite : hasRight s a.req a.addr true = true)
    (hbytes : readBytes (bankServes (bankUser (p - 4) a.req) p u i s) p u i o a.len = (v, c, false, t))
    (hop : atomResult a.op (8 * a.len) v a.data a.cmp = some x) (hstop' : chipStop t p = none)
    (hwrite' : hasRight t a.req a.addr true = true) : issueRequest a s =
      withAnswer a none (.data v false) (breakAt (engineOf a.req) (.chip p u i o)
        (writeBytes (bankServes (bankUser (p - 4) a.req) p u i t) p u i o x (2 ^ a.len - 1) a.len)) :=
  issueRequest_chip h hplain hrun
    ((serveMemory_atomic hopc).trans (serveAtomic_chip hplain hread hwrite hstop hbytes hop hstop' hwrite'))

/-- A write without the right, wherever plain memory is, is acknowledged and changes nothing. -/
theorem issueRequest_write_silent (hopc : a.opc = 1) (hright : hasRight s a.req a.addr true = false) (hplain : plainOf a.addr ≠ none)
    (hrun : s.clocks.halted = false)
    (hfree : s.host.failed.contains (a.req, a.tag) = false ∨ ∃ p u i o, plainOf a.addr = some (.chip p u i o)) :
    issueRequest a s = withAnswer a none .ack s := by
  have hmem : serveMemory a s = (.ack, s) :=
    (serveMemory_write hopc).trans (serveWrite_silent _ h.inMap hplain hright)
  obtain ⟨w, hw⟩ := Option.ne_none_iff_exists'.1 hplain
  cases w with
  | chip p u i o => exact issueRequest_chip h hw hrun hmem
  | dram n o k =>
    have hsnooped : s.host.failed.contains (a.req, a.tag) = false := hfree.resolve_right (by simp [hw])
    exact issueRequest_dram h hw hsnooped (by simp [permitted, hopc, hright]) hmem

/-- A request to a sector that is up leaves for its logic. -/
theorem issueRequest_toSector {d off x : Nat} (hloc : locate a.addr = .fabric d off) (hright : permitted s a = true)
    (hdst : fabricTarget s a.req (d * 2 ^ 38 + off) = some x) (hroute : routeFrozen s (entryPort a.req (some x)) (some x) = false)
    (hup : sectorUp s x = true) (heasy : easyHolds s (x / 32) = false) (hgated : gated s x = false) (hroom : acceptedAt s x < 1024) :
    issueRequest a s = recordReq (reqOf a (entryPort a.req (some x)) (some x) none)
      ((seeRequest (reqOf a (entryPort a.req (some x)) (some x) none) (blockBe a) s).emit
        (.fabricRequest x a.opc a.addr a.len a.data a.be a.op a.cmp a.psn)) := by
  refine issueRequest_fabric h.toHandsOn (by simp only [requestDst, hloc, hdst]) ?_ hroom
  rw [serve_fabric h.toArrives hloc, serveFabric_outside hright hdst hroute hup heasy hgated]

end

theorem addr_inMap (addr : BitVec 52) : addr.toNat < hubSram := addr.isLt

/-- A request that passes the hub switch in reset waits there. -/
theorem switchStop_held {s : State} {a : Ask} (hpass : passesSwitch s a = true) (h : s.clocks.released.contains 181 = false) :
    switchStop s a = some .wait := by
  simp only [switchStop, hpass, h, Bool.not_true, Bool.not_false, Bool.false_eq_true, if_false, if_true]

/-- A frozen hub switch answers with a bus error. -/
theorem switchStop_frozen {s : State} {a : Ask} (hpass : passesSwitch s a = true) (h : s.clocks.released.contains 181 = true)
    (hfrozen : isFrozen s 181 = true) : switchStop s a = some (.done .errBus) := by
  simp only [switchStop, hpass, h, hfrozen, Bool.not_true, Bool.false_eq_true, if_false, if_true]

theorem badShape_crossing {a : Ask} (h : 64 < a.addr % 64 + a.len) : badShape a = true := by
  simp [badShape, h]

theorem badShape_unaligned {a : Ask} (hopc : a.opc = 2) (h : a.addr % a.len ≠ 0) : badShape a = true := by
  simp [badShape, hopc, h]

/-- Settles O24: the way of a request through its port and the hub switch, and the answer of each kind of target. -/
theorem requestsActAtTheirTarget : Obligations.RequestsActAtTheirTarget := by
  intro s req tag addr len be data psn
  have hmap := addr_inMap addr
  refine ⟨fun htakes hrun hawake => ?_, fun htakes hrun hawake => ?_, fun wide op operand compare htakes hrun hawake => ?_,
    fun wide op operand compare hissues htag halign => ?_, fun a ha hissues htag hcross => ?_, fun hissues htag hport hpass => ?_,
    fun hquiet => ?_⟩
  · have h := htakes.comes hmap hawake
    refine ⟨fun p u i o hplain hstop => ?_, fun n o k hplain hright hsnooped hfree => ?_, fun hloc => ?_, fun off hloc hgate hlen => ?_,
      fun d off x hloc hdst hright hroute hup heasy hgated hroom => ?_⟩
    · rcases hread : readBytes (bankServes (bankUser (p - 4) req) p u i s.begin) p u i o (len.val + 1) with ⟨v, c, ue, t⟩
      cases hright : hasRight s req addr.toNat false
      · exact exec_rd (issueRequest_read_chip_silent h rfl hplain hrun hright)
      · exact exec_rd (issueRequest_read_chip h rfl hplain hrun hstop hright hread)
    · exact exec_rd (issueRequest_read_dram h rfl hplain hright hsnooped hfree)
    · exact exec_rd (issueRequest_unmapped h hloc)
    · subst hlen
      exact exec_rd (issueRequest_register h hloc rfl rfl hgate)
    · exact exec_rd (issueRequest_toSector h hloc (permitted_read rfl hright) hdst hroute hup heasy hgated hroom)
  · have h := htakes.comes hmap hawake
    refine ⟨fun p u i o hplain hstop hright hpsn => ?_, fun p u i o hplain hstop hright hpsn => ?_, fun hright hplain hfree => ?_⟩
    · exact exec_wr (issueRequest_write_chip h rfl hplain hrun hstop hright hpsn)
    · exact exec_wr (issueRequest_write_chip_poisoned h rfl hplain hrun hright hpsn)
    · exact exec_wr (issueRequest_write_silent h rfl hright hplain hrun hfree)
  · intro p u i o v c t x hplain hstop hread hwrite hbytes hop hstop' hwrite'
    have h := htakes.comes hmap hawake
    have hbits : 8 * (if wide then 8 else 4) = if wide then 64 else 32 := by cases wide <;> rfl
    rw [← hbits] at hop
    exact exec_atom (issueRequest_atomic_chip h rfl hplain hrun hstop hread hwrite hbytes hop hstop' hwrite')
  · have h : Sends s.begin (atomAsk req tag addr wide op operand compare) := ⟨hissues, htag⟩
    exact exec_atom (issueRequest_badShape h (badShape_unaligned rfl halign))
  · rcases ha with rfl | rfl
    · have h : Sends s.begin (rdAsk req tag addr len) := ⟨hissues, htag⟩
      exact (if_pos rfl).trans (exec_rd (issueRequest_badShape h (badShape_crossing hcross)))
    · have h : Sends s.begin (wrAsk req tag addr len be data psn) := ⟨hissues, htag⟩
      exact (if_neg Nat.one_ne_zero).trans (exec_wr (issueRequest_badShape h (badShape_crossing hcross)))
  · have h : HandsOn s.begin (rdAsk req tag addr len) := ⟨⟨hissues, htag⟩, hport⟩
    refine ⟨fun hheld => ?_, fun hreleased hfrozen => ?_⟩
    · exact exec_rd (issueRequest_wait h (serve_switchStop hmap (switchStop_held hpass hheld)))
    · exact exec_rd (issueRequest_done h (serve_switchStop hmap (switchStop_frozen hpass hreleased hfrozen)))
  · exact ⟨exec_rd (issueRequest_notSent hquiet), exec_wr (issueRequest_notSent hquiet),
      fun _ _ _ _ => exec_atom (issueRequest_notSent hquiet)⟩

end Sys2Proof.Machine
end

section
/-! PROOFS. The idle step (R42, R43) and the timestamp across devices (R43, R44). -/

namespace Sys2Proof.Machine

/-! One nanosecond, part by part: what each leaves as it is. -/

/-- The controllers of no channel are in initialization: none comes to its training. -/
theorem dramTimes_none {s : State} (h : ∀ e ∈ s.drams, s.get (DRAM_STATUS_STATE e.1) ≠ 1) : dramTimes s = s := by
  have key : ∀ l : List Nat, (∀ n ∈ l, s.get (DRAM_STATUS_STATE n) ≠ 1) → l.foldl (fun s n => dramTrainingBegins n s) s = s := by
    intro l hl
    induction l with
    | nil => rfl
    | cons n l ih =>
      have hn : dramTrainingBegins n s = s := if_neg fun hc => hl n List.mem_cons_self hc.1
      rw [List.foldl_cons, hn]
      exact ih fun m hm => hl m (List.mem_cons_of_mem _ hm)
  refine key _ fun n hn => ?_
  obtain ⟨e, he, rfl⟩ := List.mem_map.1 hn
  exact h e he

/-- Every buffered store has been taken: the crew ports take none. -/
theorem portsTake_none {s : State} (h : ∀ e ∈ s.engines, ∀ p ∈ e.2.posted, p.taken = true) : portsTake s = s := by
  have hnone : s.engines.filter (fun e => e.2.posted.any (fun p => !p.taken)) = [] := by
    rw [List.filter_eq_nil_iff]
    intro e he hany
    obtain ⟨p, hp, hfree⟩ := List.any_eq_true.1 hany
    simp [h e he p hp] at hfree
  simp only [portsTake, hnone, List.map_nil, List.foldl_nil]

/-- Every snoop waits for a sector: none is at its end. -/
theorem settleSnoops_none {s : State} (h : ∀ n ∈ s.host.snoops, n.waiting ≠ []) : settleSnoops s = s := by
  have hnone : s.host.snoops.filter (·.waiting.isEmpty) = [] := by
    rw [List.filter_eq_nil_iff]
    intro n hn hempty
    exact h n hn (List.isEmpty_iff.1 hempty)
  simp only [settleSnoops, hnone, List.foldl_nil]

theorem settleSlots_none {s : State} (h : s.slots.ending = []) : settleSlots s = s := by
  simp only [settleSlots, h, List.foldl_nil]

theorem clearDone_none {s : State} (h : NoClear s) : clearDone s = s := by
  obtain ⟨hnext, hstate, hphase⟩ := h
  simp only [clearDone, hphase, if_false, hnext, hstate]

/-- The end of a partial load's clear, where one is in progress (assumption 85). -/
def phaseDone (s : State) : State := if s.get CFG_PR_STATUS_PHASE = 3 then s.put CFG_PR_STATUS_PHASE 4 else s

theorem frame_phaseDone (s : State) : Frame [] [CFG_PR_STATUS_PHASE] s (phaseDone s) :=
  iteInduction (fun _ => frame_put s _ _) (fun _ => Frame.refl s _ _)

/-- The clear of configuration memory that a full load waits for ends (assumption 85). -/
theorem clearDone_full {s : State} (hnext : s.config.next = none) (hstate : s.get CFG_STATUS_STATE = 6) :
    clearDone s = (phaseDone s).put CFG_STATUS_STATE 4 := by
  have hconfig : (phaseDone s).config.next = none := (congrArg Config.next ((frame_phaseDone s).config (by simp))).trans hnext
  have hget : (phaseDone s).get CFG_STATUS_STATE = 6 := ((frame_phaseDone s).get _ (by decide)).trans hstate
  unfold phaseDone at hconfig hget
  simp only [clearDone, hconfig, hget, if_true, phaseDone]

theorem frame_clearDone_full {s : State} (hnext : s.config.next = none) (hstate : s.get CFG_STATUS_STATE = 6) :
    Frame [] [CFG_STATUS_STATE, CFG_PR_STATUS_PHASE] s (clearDone s) := by
  rw [clearDone_full hnext hstate]
  exact ((frame_phaseDone s).mono (List.nil_subset _) (by simp)).trans ((frame_put _ _ _).mono (List.nil_subset _) (by simp))

/-- Only the count and what is left to slew change in a nanosecond. -/
theorem tickTime_eq (c : Clocks) : tickTime c = { c with ts := (tickTime c).ts, slew := (tickTime c).slew } := by
  unfold tickTime
  split
  · rfl
  · split <;> rfl

/-- The whole nanoseconds of one cycle of the always-on clock (R42). -/
theorem mooredNanos_succ (k : Nat) : mooredNanos (k + 1) - mooredNanos k = 30517 ∨ mooredNanos (k + 1) - mooredNanos k = 30518 := by
  unfold mooredNanos
  omega

/-- The state as a nanosecond of the timestamp leaves it, before what else time brings. -/
def ticked (s : State) : State := { s.begin with clocks := tickTime s.clocks }

theorem frame_ticked (s : State) : Frame [.clocks] [] s (ticked s) := (frame_clocks s.begin _).begin

theorem idle_moored {s : State} (h : s.power.moored = true) : idle s = tickMoored s.begin := if_pos h

theorem idle_awake {s : State} (h : s.power.moored = false) :
    idle s = settleSlots (settleSnoops (portsTake (dramTimes (clearDone (ticked s))))) := if_neg (by simp [h])

/-- With nothing else due, an idle step is the nanosecond alone. -/
theorem idle_quiet {s : State} (hrun : s.power.moored = false) (hclear : NoClear s)
    (hdram : ∀ e ∈ s.drams, s.get (DRAM_STATUS_STATE e.1) ≠ 1) (hport : ∀ e ∈ s.engines, ∀ p ∈ e.2.posted, p.taken = true)
    (hsnoop : ∀ n ∈ s.host.snoops, n.waiting ≠ []) (hslot : s.slots.ending = []) : idle s = ticked s := by
  rw [idle_awake hrun, clearDone_none (s := ticked s) hclear, dramTimes_none (s := ticked s) hdram,
    portsTake_none (s := ticked s) hport, settleSnoops_none (s := ticked s) hsnoop, settleSlots_none (s := ticked s) hslot]

theorem tickTime_steady {c : Clocks} (h : c.slew = 0) : tickTime c = { c with ts := (c.ts + 1) % 2 ^ 64 } := by
  rw [tickTime, if_neg (by omega), if_neg (by omega)]

theorem tickTime_catchingUp {c : Clocks} (h : 0 < c.slew) : tickTime c = { c with ts := (c.ts + 2) % 2 ^ 64, slew := c.slew - 1 } :=
  if_pos h

theorem tickTime_fallingBack {c : Clocks} (h : c.slew < 0) :
    tickTime c = { c with ts := if c.slew % 2 = 0 then c.ts else (c.ts + 1) % 2 ^ 64, slew := c.slew + 1 } := by
  rw [tickTime, if_neg (by omega), if_pos h]

theorem tickTime_fallingBack_ts {c : Clocks} (h : c.slew < 0) :
    (tickTime c).ts = c.ts ∨ (tickTime c).ts = (c.ts + 1) % 2 ^ 64 := by
  rw [tickTime_fallingBack h]
  exact ite_eq_or_eq _ _ _

theorem frame_power (s : State) (p : Power) : Frame [.power] [] s { s with power := p } := by
  constructor
  case power => exact fun h => absurd List.mem_cons_self h
  all_goals intros; rfl

theorem frame_tickMoored (s : State) : Frame [.clocks, .power] [] s (tickMoored s) := by
  have hclocks := (frame_clocks s (tickMoored s).clocks).mono (ds := [.clocks, .power]) (gs := []) (by simp) (by simp)
  have hpower := (frame_power { s with clocks := (tickMoored s).clocks } (tickMoored s).power).mono (ds := [.clocks, .power]) (gs := [])
    (by simp) (by simp)
  exact hclocks.trans hpower

/-- Settles O2. -/
theorem emptyQueueIdlesOneNanosecond : Obligations.EmptyQueueIdlesOneNanosecond := by
  intro s hpending
  refine ⟨idle s, step_nil s hpending, fun hquiet => ?_, fun hrun hnext hstate hport hdram hsnoop hslot => ?_⟩
  · cases hmoored : s.power.moored with
    | true =>
      rw [idle_moored hmoored]
      refine ⟨rfl, fun h => absurd h (by simp), fun _ => ⟨(frame_tickMoored s.begin).begin, rfl, rfl, ?_⟩⟩
      exact (mooredNanos_succ s.power.cycles).imp (congrArg fun k => (s.clocks.ts + k) % 2 ^ 64) (congrArg fun k => (s.clocks.ts + k) % 2 ^ 64)
    | false =>
      obtain ⟨hclear, hdram, hport, hsnoop, hslot⟩ := hquiet.resolve_left (by simp [hmoored])
      rw [idle_quiet hmoored hclear hdram hport hsnoop hslot]
      refine ⟨rfl, fun _ => ⟨frame_ticked s, tickTime_eq s.clocks, fun h => ?_, fun h => ?_, fun h => ?_⟩, fun h => absurd h (by simp)⟩
      · exact ⟨congrArg Clocks.ts (tickTime_steady h), (congrArg Clocks.slew (tickTime_steady h)).trans h⟩
      · exact ⟨congrArg Clocks.ts (tickTime_catchingUp h), congrArg Clocks.slew (tickTime_catchingUp h)⟩
      · exact ⟨congrArg Clocks.slew (tickTime_fallingBack h), tickTime_fallingBack_ts h⟩
  · have hframe := frame_clearDone_full (s := ticked s) hnext hstate
    have hidle : idle s = clearDone (ticked s) := by
      rw [idle_awake hrun, dramTimes_none, portsTake_none, settleSnoops_none, settleSlots_none]
      · exact (congrArg Slots.ending (hframe.slots (by simp))).trans hslot
      · rw [hframe.host (by simp)]
        simp [ticked, hsnoop]
      · rw [hframe.engines (by simp)]
        intro e he
        simp [hport e he]
      · rw [hframe.drams (by simp)]
        simp [ticked, hdram]
    rw [hidle]
    refine ⟨?_, ((frame_ticked s).mono (fun _ h => h) (by simp)).trans (hframe.mono (List.nil_subset _) fun _ h => h)⟩
    rw [clearDone_full (s := ticked s) hnext hstate]
    exact get_put_same _ _ _

/-! The timestamp across devices (R43, R44). -/

theorem timesyncFrameSend_leads {s : State} (hmode : s.get CLK_TS_CTRL_MODE = 1 ∨ s.get CLK_TS_CTRL_MODE = 2)
    (hmark : s.clocks.ts % 2 ^ 20 = 0) : exec .timesyncFrameSend s = .next { s with out := [.timesync s.clocks.ts] } :=
  if_pos ⟨hmode, hmark⟩

theorem timesyncFrameReceive_follower {s : State} (hmode : s.get CLK_TS_CTRL_MODE = 2) (v : BitVec 64) :
    exec (.timesyncFrameReceive v) s = .next (takeFrame v.toNat s.begin) := if_pos hmode

/-- How far a follower's count is behind the frame that it takes. -/
def frameAhead (v : Nat) (s : State) : Int := (v + s.get CLK_TS_CTRL_DELAY : Nat) - (s.clocks.ts : Int)

/-- The frame steps the count forward: it is the first, and the count is behind. -/
def frameSteps (v : Nat) (s : State) : Bool := !s.clocks.firstFrame && 0 < frameAhead v s

/-- What is left to slew after the step. -/
def frameLeft (v : Nat) (s : State) : Int := if frameSteps v s then 0 else frameAhead v s

/-- The clocks once the frame has been taken, and LOCKED by what is left. -/
def frameClocks (v : Nat) (s : State) : Clocks :=
  { s.clocks with
    ts := if frameSteps v s then (s.clocks.ts + (frameAhead v s).toNat) % 2 ^ 64 else s.clocks.ts
    slew := if frameLeft v s < 0 then 2 * frameLeft v s else frameLeft v s
    firstFrame := true, missed := 0 }

theorem takeFrame_eq (v : Nat) (s : State) : takeFrame v s =
    ({ s with clocks := frameClocks v s } : State).flag CLK_TS_CTRL_LOCKED ((frameLeft v s).natAbs ≤ (syncBound s).natAbs) := rfl

theorem frame_takeFrame (v : Nat) (s : State) : Frame [.clocks] [CLK_TS_CTRL_LOCKED] s (takeFrame v s) := by
  rw [takeFrame_eq]
  exact ((frame_clocks s _).mono (fun _ h => h) (by simp)).trans ((frame_flag _ _ _).mono (List.nil_subset _) fun _ h => h)

theorem takeFrame_locked (v : Nat) (s : State) :
    (takeFrame v s).on CLK_TS_CTRL_LOCKED = decide ((frameLeft v s).natAbs ≤ (syncBound s).natAbs) := by
  rw [takeFrame_eq]
  exact on_flag_same _ _ _ rfl

theorem syncBound_nonneg (s : State) : 0 ≤ syncBound s := by
  unfold syncBound chainBound
  split <;> omega

/-- The first frame of a follower that is behind: the count steps, and there is nothing left to slew. -/
theorem takeFrame_steps {v : Nat} {s : State} (hfirst : s.clocks.firstFrame = false) (hahead : 0 < frameAhead v s) :
    ((takeFrame v s).clocks.ts : Int) = (s.clocks.ts + frameAhead v s) % 2 ^ 64 ∧ (takeFrame v s).clocks.slew = 0 ∧
      (takeFrame v s).on CLK_TS_CTRL_LOCKED = true := by
  have hsteps : frameSteps v s = true := by simp [frameSteps, hfirst, hahead]
  have hleft : frameLeft v s = 0 := by simp [frameLeft, hsteps]
  refine ⟨?_, ?_, ?_⟩
  · have hts : (takeFrame v s).clocks.ts = (s.clocks.ts + (frameAhead v s).toNat) % 2 ^ 64 := by
      simp only [takeFrame_eq, State.flag, State.put_clocks, frameClocks, hsteps, if_true]
    rw [hts]
    omega
  · simp only [takeFrame_eq, State.flag, State.put_clocks, frameClocks, hleft, lt_self_iff_false, if_false]
  · rw [takeFrame_locked, hleft]
    simp

/-- Every other frame leaves the count, which slews by the difference, kept in half nanoseconds where it falls back. -/
theorem takeFrame_slews {v : Nat} {s : State} (h : s.clocks.firstFrame = true ∨ frameAhead v s ≤ 0) :
    (takeFrame v s).clocks.ts = s.clocks.ts ∧ (0 ≤ frameAhead v s → (takeFrame v s).clocks.slew = frameAhead v s) ∧
      (frameAhead v s < 0 → (takeFrame v s).clocks.slew = 2 * frameAhead v s) ∧
      ((takeFrame v s).on CLK_TS_CTRL_LOCKED = true ↔ ((frameAhead v s).natAbs : Int) ≤ syncBound s) := by
  have hsteps : frameSteps v s = false := by
    rcases h with h | h
    · simp [frameSteps, h]
    · simp [frameSteps, Int.not_lt.2 h]
  have hleft : frameLeft v s = frameAhead v s := by simp [frameLeft, hsteps]
  have hslew : (takeFrame v s).clocks.slew = if frameAhead v s < 0 then 2 * frameAhead v s else frameAhead v s := by
    simp only [takeFrame_eq, State.flag, State.put_clocks, frameClocks, hleft]
  refine ⟨?_, fun h => hslew.trans (if_neg (Int.not_lt.2 h)), fun h => hslew.trans (if_pos h), ?_⟩
  · simp only [takeFrame_eq, State.flag, State.put_clocks, frameClocks, hsteps, Bool.false_eq_true, if_false]
  · have hbound := syncBound_nonneg s
    rw [takeFrame_locked, hleft, decide_eq_true_iff]
    omega

/-- A frame missed before the fourth in a row is only counted. -/
theorem timesyncLost_counts {s : State} (hmode : s.get CLK_TS_CTRL_MODE = 2) (hfew : s.clocks.missed < 3) :
    exec .timesyncLost s = .next { s.begin with clocks := { s.clocks with missed := s.clocks.missed + 1 } } :=
  (if_neg (not_not.2 hmode)).trans (if_pos (Nat.succ_lt_succ hfew))

/-- The follower after its fourth missed frame, before the cause is raised. -/
def syncLost (s : State) : State :=
  (s.onClocks (fun c => { c with missed := 0, slew := 0 })).puts [(CLK_TS_CTRL_LOCKED, 0), (CLK_TS_CTRL_LOST, 1)]

theorem timesyncLost_loses {s : State} (hmode : s.get CLK_TS_CTRL_MODE = 2) (hmany : 3 ≤ s.clocks.missed) :
    exec .timesyncLost s = .next (raiseRas RAS_CAUSE_TS_LOST (syncLost s.begin)) :=
  (if_neg (not_not.2 hmode)).trans (if_neg (show ¬ s.clocks.missed + 1 < 4 by omega))

theorem frame_syncLost (s : State) : Frame [.clocks] [CLK_TS_CTRL_LOCKED, CLK_TS_CTRL_LOST] s (syncLost s) :=
  ((frame_clocks s _).mono (fun _ h => h) (by simp)).trans ((frame_puts _ _).mono (List.nil_subset _) (by simp))

/-- Settles O13. -/
theorem timesyncStepsOnceThenSlews : Obligations.TimesyncStepsOnceThenSlews := by
  intro s
  refine ⟨fun hmode hmark => timesyncFrameSend_leads hmode hmark, fun hmode v => ?_, fun hmode hfew => ?_, fun hmode hmany => ?_⟩
  · exact ⟨_, timesyncFrameReceive_follower hmode v, rfl, rfl, (frame_takeFrame _ _).begin, takeFrame_steps, takeFrame_slews⟩
  · exact ⟨_, timesyncLost_counts hmode hfew, rfl, (frame_clocks s.begin _).begin⟩
  · have hraise := frame_raiseLeaf 20 RAS_CAUSE_TS_LOST (syncLost s.begin)
    refine ⟨_, timesyncLost_loses hmode hmany, ?_, ?_, raiseLeaf_on 20 _ _ rfl (by decide), ?_, ?_⟩
    · have hget : (syncLost s.begin).get CLK_TS_CTRL_LOCKED = 0 := (get_put_other _ _ _ _ (by decide)).trans (get_put_same _ _ _)
      exact congrArg (· % 2 == 1) ((hraise.get _ (by decide)).trans hget)
    · have hget : (syncLost s.begin).get CLK_TS_CTRL_LOST = 1 := get_put_same _ _ _
      exact congrArg (· % 2 == 1) ((hraise.get _ (by decide)).trans hget)
    · exact (alerted_of_host_eq rfl).trans (raiseLeaf_alerted 20 _ _)
    · exact ((frame_syncLost s.begin).begin.mono (by simp) (by simp)).trans (hraise.mono (by simp) (by simp; tauto))

end Sys2Proof.Machine
end

section
/-! PROOFS. Bundles (R38 to R41, R78): a value that wakes a gated island, where fusion is not that of one group (R34). -/

namespace Sys2Proof.Machine

/-- Sectors 0 and 1 run. CLK_ISL.FUSE of sector 1 names the island of two sectors that sector 0 leads, that of sector 0 an island of its
own, so that the members of the island of sector 1 do not hold sector 1 (R34 keeps image loads from such settings; the state does not).
Sector 1 is gated, and a value of state bundle 0 towards it, with bit 0 as its wake bit, is in transit. -/
def halfFused : State :=
  { State.reset.puts [(CLK_ISL_FUSE 1, 1), (FAB_SEC_STATUS_GATED_USER 0 1, 1)] with
    clocks := { released := [0, 1], bundles := [(0, ⟨0, 0, 1, 0, false, 1, 0, 0, [1], 0, none⟩)] }
    fabric := { running := [0, 1], wakeBits := [(0, 0)] } }

/-- What the arrival leaves of the gate of sector 1. -/
def gateAfterArrival : Res → Option Bool
  | .next t => some (t.on (FAB_SEC_STATUS_GATED_USER 0 1))
  | _ => none

theorem halfFused_arrives : sectorUp halfFused 1 = true ∧ edgeReaches halfFused 1 = false ∧ wakesOnRise halfFused 0 0 1 = true ∧
    gateAfterArrival (exec (.bundleValueArrive 0) halfFused) = some true := by decide +kernel

/-- Refutes O15: the wake takes the islands' members from the leader's FUSE. -/
theorem not_bundlesCarryValuesInOrder : ¬ Obligations.BundlesCarryValuesInOrder := by
  intro h
  obtain ⟨hup, hedge, hrise, hgate⟩ := halfFused_arrives
  obtain ⟨-, -, -, hwaits, -⟩ := (h halfFused 0).2 ⟨0, 0, 1, 0, false, 1, 0, 0, [1], 0, none⟩ rfl
  obtain ⟨t, ht, -, -, hwakes, -⟩ := hwaits 1 [] rfl rfl hup hedge
  have hungated : t.on (FAB_SEC_STATUS_GATED_USER 0 1) = false := hwakes hrise
  rw [ht] at hgate
  simp [gateAfterArrival, hungated] at hgate

end Sys2Proof.Machine
end

section
/-! PROOFS. Cold resets and host-link resets of device scope (R50 to R61), where the state holds a LUN that no channel has (R235). -/

namespace Sys2Proof.Machine

/-- The number at which NAND_ACTIVE of a LUN of channel 0 stands at the place of RST_CAUSE. A channel has LUNs 0 to 15; the canonical form
of a state bounds no channel's LUN numbers. -/
def lunOnCause : Nat := (0x030000010000 - 0x020000010040) / 4

/-- A descriptor of row 5. -/
def rowFive : NandRun :=
  { words := [], prio := false, pc := 0, row := 5, remapped := false, phase := .ready, crcBusy := false, lastStatus := 0, maxCorr := 0
    failMask := 0, busy := 0, diff := 0 }

/-- After power-on, channel 0 holds that LUN with the descriptor active. A reset of the channel records its row in NAND_ACTIVE.ROW (R241),
which here is RST_CAUSE.POR, a field that only POR clears. -/
def strayLun : State := { State.reset with channels := [(0, { luns := [(lunOnCause, { run := some rowFive })] })] }

/-- The same with both ports' link resets at device scope, and no reset of the device in progress. -/
def strayLunLinked : State :=
  (strayLun.puts [(RST_LINK_SCOPE_A_DEVICE, 1), (RST_LINK_SCOPE_LOCK, 1)]).onClocks fun c => { c with wide := 0 }

/-- RST_CAUSE.POR as a command leaves it. -/
def porCauseAfter : Res → Option Nat
  | .next t => some (t.get RST_CAUSE_POR)
  | _ => none

theorem fieldAt_porCause : (fieldAt RST_CAUSE_POR.key).map Prod.snd = some ([], ⟨0, 1, .w1c, .all 1, .por, 31⟩) := by decide +kernel

/-- A reset that keeps what only POR resets keeps RST_CAUSE.POR. -/
theorem porCauseAfter_of_keepsPor {s t : State} {r : Res} {but : List Nat} (hr : r = .next t) (h : KeepsPor but s t)
    (hbut : RST_CAUSE_POR.key ∉ but) : porCauseAfter r = some (s.get RST_CAUSE_POR) := by
  obtain ⟨⟨row, ix, f⟩, hrow, hfield⟩ := Option.map_eq_some_iff.1 fieldAt_porCause
  cases hfield
  rw [hr]
  exact congrArg some (h _ _ _ _ hrow (.inl rfl) hbut)

theorem strayLun_brownout : strayLun.wf = true ∧ strayLun.get RST_CAUSE_POR = 1 ∧ porCauseAfter (exec (.brownout 1001) strayLun) = some 4 := by
  decide +kernel

/-- Refutes O7: where a LUN number is out of range, the record that R241 asks for changes a field that only POR clears. -/
theorem not_coldResetsReturnEverythingToColdValues : ¬ Obligations.ColdResetsReturnEverythingToColdValues := by
  intro h
  obtain ⟨hwf, hbefore, hafter⟩ := strayLun_brownout
  obtain ⟨-, -, hbrownout, -⟩ := h strayLun hwf
  obtain ⟨t, ht, -, hkeeps, -⟩ := hbrownout 1001 (by decide)
  rw [porCauseAfter_of_keepsPor ht hkeeps (by decide), hbefore] at hafter
  cases hafter

theorem strayLunLinked_linkHot : strayLunLinked.wf = true ∧ deviceScope strayLunLinked 0 = true ∧ strayLunLinked.get RST_CAUSE_POR = 1 ∧
    porCauseAfter (exec (.linkHot 0) strayLunLinked) = some 4 := by
  decide +kernel

/-- Refutes O10: at device scope the link's reset is a warm device reset, which resets every channel. -/
theorem not_hostLinkResetsFollowTheLockedScope : ¬ Obligations.HostLinkResetsFollowTheLockedScope := by
  intro h
  obtain ⟨hwf, hscope, hbefore, hafter⟩ := strayLunLinked_linkHot
  obtain ⟨-, hlink, -⟩ := h strayLunLinked 0 hwf rfl
  obtain ⟨t, ht, hreset⟩ := hlink
  have hwarm : WarmReset RST_CAUSE_LINK_HOT strayLunLinked t := (if_pos hscope).mp hreset
  obtain ⟨-, hkeeps, -⟩ := hwarm
  rw [porCauseAfter_of_keepsPor ht hkeeps (by decide), hbefore] at hafter
  cases hafter

end Sys2Proof.Machine
end

section
/-! PROOFS. Every command completes: its outcome is a next state. -/

namespace Sys2Proof.Machine

/-- The outcome is a next state: neither refused nor a fault of the model. -/
def Completes (r : Host.Outcome State Fault Refusal) : Prop := ∃ t, r = .next t

theorem completes_next (t : State) : Completes (.next t) := ⟨t, rfl⟩

theorem completes_ite {P : Prop} [Decidable P] {a b : Host.Outcome State Fault Refusal} (ha : Completes a) (hb : Completes b) :
    Completes (if P then a else b) := by
  split
  · exact ha
  · exact hb

/-! The three operations that many commands share complete, whatever the command does within them. -/

/-- A service call: no program waits in it, its capability is missing, or it returns or stays. -/
theorem serviceCall_completes (he : Fin 4) (num : Nat) (cap : Option Nat) (f : Nat → State → Call) (s : State) :
    Completes (serviceCall he num cap f s) := by
  unfold serviceCall
  extract_lets b
  split
  · exact completes_next _
  · refine completes_ite (completes_next _) ?_
    split <;> exact completes_next _

/-- A record of an image: no loading takes it, its source waits, or it is read, with or without a cause of failure. -/
theorem onRecord_completes (n : Nat) (r : SourceRead) (f : Load → State → State) (s : State) : Completes (onRecord n r f s) := by
  unfold onRecord
  extract_lets b
  split
  · exact completes_next _
  · refine completes_ite (completes_next _) ?_
    split
    · exact completes_next _
    · split <;> exact completes_next _

/-- A micro-op of a NAND program, whether or not it is the one that stands there. -/
theorem atUop_completes (n : Nat) (f : Nat → Bool → NandRun → Uop → State → Option State) (s : State) :
    Completes (atUop n f s) := by
  unfold atUop
  extract_lets b
  split
  · exact completes_ite (completes_next _) (completes_ite (completes_next _) (completes_next _))
  · exact completes_next _

/-! The two commands that move a value of a bundle complete where the bundle is declared. -/

theorem find?_declared {s : State} {b : Nat} (h : s.clocks.bundles.any (fun e => e.1 == b) = true) :
    ∃ x, s.begin.clocks.bundles.find? (·.1 == b) = some x :=
  Option.isSome_iff_exists.mp (List.find?_isSome.mpr (List.any_eq_true.mp h))

theorem execStreamBundleAccept_completes (b : Nat) (value : BitVec 64) (s : State)
    (h : s.clocks.bundles.any (fun e => e.1 == b) = true) : Completes (execStreamBundleAccept b value s) := by
  obtain ⟨x, hx⟩ := find?_declared h
  unfold execStreamBundleAccept
  simp only [hx]
  exact completes_ite (completes_next _) (completes_ite (completes_next _) (completes_ite (completes_next _)
    (completes_ite (completes_next _) (completes_next _))))

theorem execBundleValueArrive_completes (b : Nat) (s : State) (h : s.clocks.bundles.any (fun e => e.1 == b) = true) :
    Completes (execBundleValueArrive b s) := by
  obtain ⟨x, hx⟩ := find?_declared h
  unfold execBundleValueArrive
  simp only [hx]
  split
  · exact completes_next _
  · exact completes_ite (completes_next _) (completes_ite (completes_next _) (completes_ite (completes_next _) (completes_next _)))

/-! Commands whose outcome depends on a memory that the kernel must not compute: the function that reads or writes it is replaced by
any function of its type, and every branch is a next state. -/

theorem execCrewTqPop_completes (req : Requester) (n : Ch) (s : State) : Completes (execCrewTqPop req n s) := by
  obtain ⟨pop, hpop⟩ : ∃ f, f = execCrewTqPop := exists_eq
  rw [← hpop]
  delta execCrewTqPop at hpop
  rw [hpop]
  beta_reduce
  extract_lets b
  split
  · exact completes_next _
  · exact completes_next _
  · exact completes_next _
  · split
    exact completes_next _

theorem execEngineMemoryOutsideAccess_completes (req : Requester) (g : Fin 1024) (inst : Fin 3) (off : Fin 32768) (write : Option Word)
    (s : State) : Completes (execEngineMemoryOutsideAccess req g inst off write s) := by
  obtain ⟨turn, hturn⟩ : ∃ f, f = turnOf := exists_eq
  obtain ⟨store, hstore⟩ : ∃ f, f = rangeWrite := exists_eq
  obtain ⟨access, haccess⟩ : ∃ f, f = execEngineMemoryOutsideAccess := exists_eq
  rw [← haccess]
  delta execEngineMemoryOutsideAccess at haccess
  rw [← hturn, ← hstore] at haccess
  rw [haccess]
  beta_reduce
  extract_lets b a
  refine completes_ite (completes_next _) ?_
  split
  · exact completes_next _
  · exact completes_next _
  · exact completes_next _
  · split
    exact completes_next _

theorem execCrcScanDone_completes (n : Ch) (bytes : List Byte) (fail : Option Nat) (s : State) :
    Completes (execCrcScanDone n bytes fail s) := by
  unfold execCrcScanDone
  extract_lets b
  refine completes_ite (completes_next _) ?_
  split
  split
  · exact completes_next _
  · split
    split
    refine completes_ite ?_ (completes_next _)
    split <;> exact completes_next _

theorem execSlotProgramStart_completes (slot : Fin 64) (he : Fin 4) (prog : List Byte) (fetchErr : Bool) (s : State) :
    Completes (execSlotProgramStart slot he prog fetchErr s) := by
  obtain ⟨turn, hturn⟩ : ∃ f, f = programTurn := exists_eq
  obtain ⟨fetch, hfetch⟩ : ∃ f, f = fetchProgram := exists_eq
  obtain ⟨start, hstart⟩ : ∃ f, f = execSlotProgramStart := exists_eq
  rw [← hstart]
  delta execSlotProgramStart at hstart
  rw [← hturn, ← hfetch] at hstart
  rw [hstart]
  beta_reduce
  extract_lets b g
  refine completes_ite (completes_next _) (completes_ite (completes_next _) ?_)
  split
  · exact completes_next _
  · exact completes_next _
  · split
    split <;> exact completes_next _

/-! The other commands that look something up before they act: what they find decides the next state, and there is one each time. -/

theorem execCheckerSelfTestDone_completes (p : Part) (pass : Bool) (s : State) : Completes (execCheckerSelfTestDone p pass s) :=
  completes_ite (completes_next _) (completes_ite (completes_ite (completes_next _) (completes_next _))
    (completes_ite (completes_next _) (completes_next _)))

theorem execFabricFenceDone_completes (sec : Sec) (s : State) : Completes (execFabricFenceDone sec s) := by
  unfold execFabricFenceDone
  dsimp only
  repeat' split
  all_goals exact completes_next _

theorem execMemoryWriteBack_completes (p : Part) (unit : Fin 2048) (inst : Fin 128) (addr : Fin 1048576)
    (userWrite : Option Byte) (s : State) :
    Completes (execMemoryWriteBack p unit inst addr userWrite s) := by
  unfold execMemoryWriteBack
  dsimp only
  repeat' split
  all_goals exact completes_next _

theorem execLoadHeaderCheck_completes (head : BitVec 65536) (srcErr : SourceRead) (s : State) :
    Completes (execLoadHeaderCheck head srcErr s) := by
  unfold execLoadHeaderCheck
  dsimp only
  repeat' split
  all_goals exact completes_next _

theorem execLoadSignaturesDone_completes (sig : ImgSignatures) (s : State) : Completes (execLoadSignaturesDone sig s) := by
  unfold execLoadSignaturesDone
  dsimp only
  repeat' split
  all_goals exact completes_next _

theorem execLoadFinalChecks_completes (tag : Bool) (sha shake : BitVec 512) (decl : Declared) (s : State) :
    Completes (execLoadFinalChecks tag sha shake decl s) := by
  unfold execLoadFinalChecks
  dsimp only
  repeat' split
  all_goals exact completes_next _

theorem execBamidLoad_completes (first second : BamidCopy) (s : State) : Completes (execBamidLoad first second s) := by
  unfold execBamidLoad
  dsimp only
  repeat' split
  all_goals exact completes_next _

theorem execLockStepDone_completes (who : Fin 6) (s : State) : Completes (execLockStepDone who s) := by
  unfold execLockStepDone
  dsimp only
  split <;> exact completes_next _

theorem execLockStepTimeout_completes (who : Fin 6) (s : State) : Completes (execLockStepTimeout who s) := by
  unfold execLockStepTimeout
  dsimp only
  repeat' split
  all_goals exact completes_next _

theorem execCfgDoneHigh_completes (s : State) : Completes (execCfgDoneHigh  s) := by
  unfold execCfgDoneHigh
  dsimp only
  repeat' split
  all_goals exact completes_next _

theorem execReleaseToken_completes (who : Fin 6) (s : State) : Completes (execReleaseToken who s) := by
  unfold execReleaseToken
  dsimp only
  repeat' split
  all_goals exact completes_next _

theorem execReleaseReport_completes (who : Fin 6) (sec : Sec) (s : State) : Completes (execReleaseReport who sec s) := by
  unfold execReleaseReport
  dsimp only
  repeat' split
  all_goals exact completes_next _

theorem execPrFinalChecks_completes (tag : Bool) (sha shake : BitVec 512) (decl : Declared) (s : State) :
    Completes (execPrFinalChecks tag sha shake decl s) := by
  unfold execPrFinalChecks
  dsimp only
  repeat' split
  all_goals exact completes_next _

theorem execPrFramesWritten_completes (ue : Bool) (s : State) : Completes (execPrFramesWritten ue s) := by
  unfold execPrFramesWritten
  dsimp only
  repeat' split
  all_goals exact completes_next _

theorem execReadbackFrameDone_completes (busErr : Bool) (upsets : List (Fin 512 × BitVec 13)) (s : State) :
    Completes (execReadbackFrameDone busErr upsets s) := by
  unfold execReadbackFrameDone
  dsimp only
  repeat' split
  all_goals exact completes_next _

theorem execRdData_completes (req : Requester) (tag : Fin 16384) (data : BitVec 512) (psn : Bool) (s : State) :
    Completes (execRdData req tag data psn s) := by
  unfold execRdData
  dsimp only
  split <;> exact completes_next _

theorem execWrAck_completes (req : Requester) (tag : Fin 16384) (s : State) : Completes (execWrAck req tag s) := by
  unfold execWrAck
  dsimp only
  split <;> exact completes_next _

theorem execAtomData_completes (req : Requester) (tag : Fin 1024) (data : Datum) (s : State) :
    Completes (execAtomData req tag data s) := by
  unfold execAtomData
  dsimp only
  split <;> exact completes_next _

theorem execErrDecode_completes (req : Requester) (tag : Fin 16384) (s : State) : Completes (execErrDecode req tag s) := by
  unfold execErrDecode
  dsimp only
  split <;> exact completes_next _

theorem execErrBus_completes (req : Requester) (tag : Fin 16384) (s : State) : Completes (execErrBus req tag s) := by
  unfold execErrBus
  dsimp only
  split <;> exact completes_next _

theorem execEvictAck_completes (sec : Sec) (tag : Fin 1024) (s : State) : Completes (execEvictAck sec tag s) := by
  unfold execEvictAck
  dsimp only
  repeat' split
  all_goals exact completes_next _

theorem execMgtRsp_completes (sec : Sec) (s : State) : Completes (execMgtRsp sec s) := by
  unfold execMgtRsp
  dsimp only
  repeat' split
  all_goals exact completes_next _

theorem execDbgRsp_completes (set : Fin 2) (data : BitVec 64) (err : Bool) (s : State) :
    Completes (execDbgRsp set data err s) := by
  unfold execDbgRsp
  dsimp only
  repeat' split
  all_goals exact completes_next _

theorem execTrace_completes (probe : Fin 32) (s : State) : Completes (execTrace probe s) := by
  unfold execTrace
  dsimp only
  repeat' split
  all_goals exact completes_next _

theorem execNocRequestTimeout_completes (req : Requester) (tag : Fin 16384) (s : State) :
    Completes (execNocRequestTimeout req tag s) := by
  unfold execNocRequestTimeout
  dsimp only
  split <;> exact completes_next _

theorem execInterruptEntry_completes (g : Eng) (next : Option Yz) (s : State) : Completes (execInterruptEntry g next s) := by
  unfold execInterruptEntry
  dsimp only
  repeat' split
  all_goals exact completes_next _

theorem execCrewPortResponse_completes (g : Eng) (store : Bool) (status : PortStatus) (data : BitVec 64) (s : State) :
    Completes (execCrewPortResponse g store status data s) := by
  unfold execCrewPortResponse
  dsimp only
  repeat' split
  all_goals exact completes_next _

theorem execCrewPortTimeout_completes (g : Eng) (store : Bool) (s : State) : Completes (execCrewPortTimeout g store s) := by
  unfold execCrewPortTimeout
  dsimp only
  repeat' split
  all_goals exact completes_next _

theorem execNandDataPhaseDone_completes (n : Ch) (rx : List Byte) (corrected : List CwFix) (failed : BitVec 8)
    (bufErr : Option Nat) (s : State) :
    Completes (execNandDataPhaseDone n rx corrected failed bufErr s) := by
  unfold execNandDataPhaseDone
  dsimp only
  repeat' split
  all_goals exact completes_next _

theorem execNandWaitTExpiry_completes (n : Ch) (s : State) : Completes (execNandWaitTExpiry n s) := by
  unfold execNandWaitTExpiry
  dsimp only
  split <;> exact completes_next _

theorem execNandLunReady_completes (n : Ch) (lun : Fin 16) (s : State) : Completes (execNandLunReady n lun s) := by
  unfold execNandLunReady
  dsimp only
  repeat' split
  all_goals exact completes_next _

theorem execNandWaitRbTimeout_completes (n : Ch) (lun : Fin 16) (s : State) : Completes (execNandWaitRbTimeout n lun s) := by
  unfold execNandWaitRbTimeout
  dsimp only
  split <;> exact completes_next _

theorem execLdpcJobComplete_completes (n : Ch) (flips : List Nat) (written : Fin 4) (iterations : Nat) (failed bufErr : Bool)
    (s : State) :
    Completes (execLdpcJobComplete n flips written iterations failed bufErr s) := by
  unfold execLdpcJobComplete
  dsimp only
  split <;> exact completes_next _

theorem execDramRequest_completes (n : Ch) (write : Bool) (line : Nat) (s : State) :
    Completes (execDramRequest n write line s) := by
  unfold execDramRequest
  dsimp only
  repeat' split
  all_goals exact completes_next _

theorem execDramBurstComplete_completes (n : Ch) (write : Bool) (line : Nat) (s : State) :
    Completes (execDramBurstComplete n write line s) := by
  unfold execDramBurstComplete
  dsimp only
  repeat' split
  all_goals exact completes_next _

theorem execPatinaLineRead_completes (n : Ch) (req : Requester) (key : Fin 16) (off : Nat) (bytes : Fin 65) (control : Bool)
    (check : LineCheck) (s : State) :
    Completes (execPatinaLineRead n req key off bytes control check s) := by
  unfold execPatinaLineRead
  dsimp only
  repeat' split
  all_goals exact completes_next _

theorem execHostConfigRequest_completes (port : Port) (fn : Fin 8) (tag : Fin 1024) (word : Fin 1024) (write : Option Word) (s : State) :
    Completes (execHostConfigRequest port fn tag word write s) := by
  unfold execHostConfigRequest
  dsimp only
  repeat' split
  all_goals exact completes_next _

theorem execBirsp_completes (port : Port) (line : BitVec 46) (data : Option (BitVec 512)) (s : State) :
    Completes (execBirsp port line data s) := by
  unfold execBirsp
  dsimp only
  split <;> exact completes_next _

theorem execHostCompletion_completes (port : Port) (tag : Fin 16384) (ok : Bool) (data : BitVec 512) (s : State) :
    Completes (execHostCompletion port tag ok data s) := by
  unfold execHostCompletion
  dsimp only
  repeat' split
  all_goals exact completes_next _

theorem execBiTimeout_completes (port : Port) (line : BitVec 46) (s : State) : Completes (execBiTimeout port line s) := by
  unfold execBiTimeout
  dsimp only
  split <;> exact completes_next _

theorem execSnpTimeout_completes (sec : Sec) (line : BitVec 46) (s : State) : Completes (execSnpTimeout sec line s) := by
  unfold execSnpTimeout
  dsimp only
  split <;> exact completes_next _

theorem execNvmeCommandDispatch_completes (port : Port) (q : Fin 64) (cmd : BitVec 512) (s : State) :
    Completes (execNvmeCommandDispatch port q cmd s) := by
  unfold execNvmeCommandDispatch
  dsimp only
  repeat' split
  all_goals exact completes_next _

theorem execExit_completes (he : Fin 4) (recordErr : Bool) (s : State) : Completes (execExit he recordErr s) := by
  unfold execExit
  dsimp only
  split <;> exact completes_next _

theorem execWakeQuiet_completes (unit : BitVec 16) (s : State) : Completes (execWakeQuiet unit s) := by
  unfold execWakeQuiet
  dsimp only
  split <;> exact completes_next _

theorem execWakeQuietTimeout_completes (unit : BitVec 16) (s : State) : Completes (execWakeQuietTimeout unit s) := by
  unfold execWakeQuietTimeout
  dsimp only
  split <;> exact completes_next _

theorem execAvsAckTimeout_completes (rail : Fin 6) (s : State) : Completes (execAvsAckTimeout rail s) := by
  unfold execAvsAckTimeout
  dsimp only
  repeat' split
  all_goals exact completes_next _

theorem execCodewordReceive_completes (l : Fin 96) (corrected : Option (Fin 16)) (gained : Bool) (s : State) :
    Completes (execCodewordReceive l corrected gained s) := by
  unfold execCodewordReceive
  dsimp only
  repeat' split
  all_goals exact completes_next _

theorem execDbgAccessDone_completes (set : Fin 2) (status : PortStatus) (data : BitVec 64) (s : State) :
    Completes (execDbgAccessDone set status data s) := by
  unfold execDbgAccessDone
  dsimp only
  repeat' split
  all_goals exact completes_next _

theorem execDbgRegUpdate_completes (write : Bool) (off : BitVec 16) (data : Word) (s : State) :
    Completes (execDbgRegUpdate write off data s) := by
  unfold execDbgRegUpdate
  dsimp only
  repeat' split
  all_goals exact completes_next _

theorem execEngineHaltTaken_completes (g : Eng) (next : Option Yz) (s : State) : Completes (execEngineHaltTaken g next s) := by
  unfold execEngineHaltTaken
  dsimp only
  repeat' split
  all_goals exact completes_next _

theorem execRstOvrUpdate_completes (key : BitVec 8) (index : BitVec 9) (s : State) :
    Completes (execRstOvrUpdate key index s) := by
  unfold execRstOvrUpdate
  dsimp only
  repeat' split
  all_goals exact completes_next _

theorem execWakeHoldLimit_completes (port : Port) (seq : Word) (s : State) : Completes (execWakeHoldLimit port seq s) := by
  unfold execWakeHoldLimit
  dsimp only
  repeat' split
  all_goals exact completes_next _

theorem execWakeRecoveryDone_completes (unit : BitVec 16) (s : State) : Completes (execWakeRecoveryDone unit s) := by
  unfold execWakeRecoveryDone
  dsimp only
  repeat' split
  all_goals exact completes_next _

theorem execUndefinedInstruction_completes (g : Eng) (word : Word) (s : State) :
    Completes (execUndefinedInstruction g word s) := by
  unfold execUndefinedInstruction
  dsimp only
  split <;> exact completes_next _

/-- The outcome of a command is a next state, by its shape: one branch, a condition or several, a shared operation, or a command of its
own lemma above. -/
theorem exec_completes (c : Instr) (s : State)
    (haccept : ∀ b v, c = .streamBundleAccept b v → s.clocks.bundles.any (fun e => e.1 == b) = true)
    (harrive : ∀ b, c = .bundleValueArrive b → s.clocks.bundles.any (fun e => e.1 == b) = true) : Completes (exec c s) := by
  cases c with
  | brownout | strapSample | perstAssert | domainResetRelease | memoryFillDone | partitionResetEnd | clockLost |
    timesyncFrameSend | timesyncFrameReceive | fabricFence | userIrq | fluxStep | cfgScrubFrame | hostLoadWrite | featherWake |
    engineWatchdogBite | engineTimer | chWdt | dramInitComplete | dramMr4Poll | dramSelfRefreshEntry | dramUnitResetDone |
    patinaLineWrite | patinaPartialWrite | pageReencryptDone | linkRetrain |
    adaptComplete | avsAck | easyEntryComplete | easyEntryTimeout | eyeDwellDone | governorTick | islandCycle | pmbusRead |
    prbsLockLost | smbusReadClkTsHi =>
    exact completes_ite (completes_next _) (completes_next _)
  | resetNLow | timesyncLost | onchipMemoryRead | checkerTestDone | dramRefreshTick | patinaStateError |
    blockLock | dbgImgUpdate | easyQuiescent | mooredWake | smbusMessage | mooredEntryComplete =>
    exact completes_ite (completes_next _) (completes_ite (completes_next _) (completes_next _))
  | islandGate | captureSnapshot | captureNoEdge | easyWakeComplete =>
    exact completes_ite (completes_next _) (completes_ite (completes_next _) (completes_ite (completes_next _) (completes_next _)))
  | routerFault =>
    exact completes_ite (completes_next _) (completes_ite (completes_next _) (completes_ite (completes_next _)
      (completes_ite (completes_next _) (completes_next _))))
  | storeErase => exact show Completes (execStoreErase _ _ s) from serviceCall_completes ..
  | storeWrite => exact show Completes (execStoreWrite _ _ _ s) from serviceCall_completes ..
  | storeCommit => exact show Completes (execStoreCommit _ s) from serviceCall_completes ..
  | map => exact show Completes (execMap _ s) from serviceCall_completes ..
  | framesRecord => exact show Completes (execFramesRecord _ _ _ _ _ _ s) from onRecord_completes ..
  | settingRecord => exact show Completes (execSettingRecord _ _ _ _ s) from onRecord_completes ..
  | endRecord => exact show Completes (execEndRecord _ _ _ _ s) from onRecord_completes ..
  | memRecord => exact show Completes (execMemRecord _ _ _ s) from onRecord_completes ..
  | nandEnd => exact show Completes (execNandEnd _ s) from atUop_completes ..
  | nandCmd => exact show Completes (execNandCmd _ s) from atUop_completes ..
  | nandAddr => exact show Completes (execNandAddr _ s) from atUop_completes ..
  | nandDout => exact show Completes (execNandDout _ s) from atUop_completes ..
  | nandDin => exact show Completes (execNandDin _ s) from atUop_completes ..
  | nandWaitT => exact show Completes (execNandWaitT _ s) from atUop_completes ..
  | nandWaitRb => exact show Completes (execNandWaitRb _ s) from atUop_completes ..
  | nandStatus => exact show Completes (execNandStatus _ _ s) from atUop_completes ..
  | fabricFenceDone => exact execFabricFenceDone_completes ..
  | memoryWriteBack => exact execMemoryWriteBack_completes ..
  | loadHeaderCheck => exact execLoadHeaderCheck_completes ..
  | loadSignaturesDone => exact execLoadSignaturesDone_completes ..
  | loadFinalChecks => exact execLoadFinalChecks_completes ..
  | bamidLoad => exact execBamidLoad_completes ..
  | lockStepDone => exact execLockStepDone_completes ..
  | lockStepTimeout => exact execLockStepTimeout_completes ..
  | cfgDoneHigh => exact execCfgDoneHigh_completes ..
  | releaseToken => exact execReleaseToken_completes ..
  | releaseReport => exact execReleaseReport_completes ..
  | prFinalChecks => exact execPrFinalChecks_completes ..
  | prFramesWritten => exact execPrFramesWritten_completes ..
  | readbackFrameDone => exact execReadbackFrameDone_completes ..
  | rdData => exact execRdData_completes ..
  | wrAck => exact execWrAck_completes ..
  | atomData => exact execAtomData_completes ..
  | errDecode => exact execErrDecode_completes ..
  | errBus => exact execErrBus_completes ..
  | evictAck => exact execEvictAck_completes ..
  | mgtRsp => exact execMgtRsp_completes ..
  | dbgRsp => exact execDbgRsp_completes ..
  | trace => exact execTrace_completes ..
  | nocRequestTimeout => exact execNocRequestTimeout_completes ..
  | interruptEntry => exact execInterruptEntry_completes ..
  | crewPortResponse => exact execCrewPortResponse_completes ..
  | crewPortTimeout => exact execCrewPortTimeout_completes ..
  | nandDataPhaseDone => exact execNandDataPhaseDone_completes ..
  | nandWaitTExpiry => exact execNandWaitTExpiry_completes ..
  | nandLunReady => exact execNandLunReady_completes ..
  | nandWaitRbTimeout => exact execNandWaitRbTimeout_completes ..
  | ldpcJobComplete => exact execLdpcJobComplete_completes ..
  | dramRequest => exact execDramRequest_completes ..
  | dramBurstComplete => exact execDramBurstComplete_completes ..
  | patinaLineRead => exact execPatinaLineRead_completes ..
  | hostConfigRequest => exact execHostConfigRequest_completes ..
  | birsp => exact execBirsp_completes ..
  | hostCompletion => exact execHostCompletion_completes ..
  | biTimeout => exact execBiTimeout_completes ..
  | snpTimeout => exact execSnpTimeout_completes ..
  | nvmeCommandDispatch => exact execNvmeCommandDispatch_completes ..
  | exit => exact execExit_completes ..
  | checkerSelfTestDone => exact execCheckerSelfTestDone_completes ..
  | engineMemoryOutsideAccess => exact execEngineMemoryOutsideAccess_completes ..
  | crewTqPop => exact execCrewTqPop_completes ..
  | crcScanDone => exact execCrcScanDone_completes ..
  | slotProgramStart => exact execSlotProgramStart_completes ..
  | captureReadback => exact show Completes (execCaptureReadback _ s) from serviceCall_completes ..
  | chFirmware => exact show Completes (execChFirmware _ _ _ _ s) from serviceCall_completes ..
  | chReset => exact show Completes (execChReset _ s) from serviceCall_completes ..
  | crcRun => exact show Completes (execCrcRun _ _ s) from serviceCall_completes ..
  | dramStart => exact show Completes (execDramStart _ s) from serviceCall_completes ..
  | hdmSet => exact show Completes (execHdmSet _ s) from serviceCall_completes ..
  | keySlot => exact show Completes (execKeySlot _ s) from serviceCall_completes ..
  | loadFull => exact show Completes (execLoadFull _ s) from serviceCall_completes ..
  | loadPartial => exact show Completes (execLoadPartial _ s) from serviceCall_completes ..
  | measure => exact show Completes (execMeasure _ s) from serviceCall_completes ..
  | nsMap => exact show Completes (execNsMap _ s) from serviceCall_completes ..
  | opSet => exact show Completes (execOpSet _ s) from serviceCall_completes ..
  | ownerReq => exact show Completes (execOwnerReq _ s) from serviceCall_completes ..
  | powerState => exact show Completes (execPowerState _ _ _ s) from serviceCall_completes ..
  | resetCall => exact show Completes (execResetCall _ s) from serviceCall_completes ..
  | time => exact show Completes (execTime _ s) from serviceCall_completes ..
  | wakeQuiet => exact execWakeQuiet_completes ..
  | wakeQuietTimeout => exact execWakeQuietTimeout_completes ..
  | avsAckTimeout => exact execAvsAckTimeout_completes ..
  | codewordReceive => exact execCodewordReceive_completes ..
  | dbgAccessDone => exact execDbgAccessDone_completes ..
  | dbgRegUpdate => exact execDbgRegUpdate_completes ..
  | engineHaltTaken => exact execEngineHaltTaken_completes ..
  | rstOvrUpdate => exact execRstOvrUpdate_completes ..
  | wakeHoldLimit => exact execWakeHoldLimit_completes ..
  | wakeRecoveryDone => exact execWakeRecoveryDone_completes ..
  | undefinedInstruction => exact execUndefinedInstruction_completes ..
  | streamBundleAccept b v => exact execStreamBundleAccept_completes b v s (haccept b v rfl)
  | bundleValueArrive b => exact execBundleValueArrive_completes b s (harrive b rfl)
  | _ => exact completes_next _

/-- Settles O59: every arm of `exec` ends in a next state. -/
theorem everyCommandCompletes : Obligations.EveryCommandCompletes := by
  unfold Obligations.EveryCommandCompletes
  intro c s
  exact exec_completes c s

end Sys2Proof.Machine
end

section
/-! PROOFS. What no start-up, alarm or journal entry writes: the words of CLK_STABLE and CLK_LOST and the bits of RST_CAUSE
(R46, R50). The loss of a clock and the resets are shown on this. -/

namespace Sys2Proof.Machine

/-- The keys of CLK_STABLE and CLK_LOST, and of the bits of RST_CAUSE but POR. -/
abbrev MonitorKey (k : Nat) : Prop :=
  (0x30000020100 * 32 ≤ k ∧ k < 0x30000020180 * 32) ∨ (0x30000010000 * 32 < k ∧ k ≤ 0x30000010000 * 32 + 12)

/-- The monitored words of the register file, and the clocks, are in `t` as in `s`. -/
structure Keeps (s t : State) : Prop where
  regs : ∀ k, MonitorKey k → smGet 0 t.regs k = smGet 0 s.regs k
  clocks : t.clocks = s.clocks

namespace Keeps

theorem refl (s : State) : Keeps s s := ⟨fun _ _ => rfl, rfl⟩

theorem trans {s t u : State} (h : Keeps s t) (k : Keeps t u) : Keeps s u :=
  ⟨fun x hx => (k.regs x hx).trans (h.regs x hx), k.clocks.trans h.clocks⟩

theorem of_eq {s t : State} (hr : t.regs = s.regs) (hc : t.clocks = s.clocks) : Keeps s t := ⟨fun k _ => by rw [hr], hc⟩

/-- A frame without the clocks and without monitored fields. -/
theorem of_frame {cs : List Comp} {fs : List Fld} {s t : State} (h : Frame cs fs s t) (hc : .clocks ∉ cs)
    (hf : ∀ f ∈ fs, ¬ MonitorKey f.key) : Keeps s t where
  regs k hk := h.regs k (by
    rintro hm
    obtain ⟨f, hmem, rfl⟩ := List.mem_map.mp hm
    exact hf f hmem hk)
  clocks := h.clocks hc

theorem put (s : State) {f : Fld} (v : Nat) (h : ¬ MonitorKey f.key) : Keeps s (s.put f v) :=
  of_frame (frame_put s f v) (by simp) (by simpa using h)

theorem count (s : State) {f : Fld} (h : ¬ MonitorKey f.key) : Keeps s (s.count f) :=
  of_frame (frame_count s f true) (by simp) (by simpa using h)

theorem puts (s : State) {l : List (Fld × Nat)} (h : ∀ e ∈ l, ¬ MonitorKey e.1.key) : Keeps s (s.puts l) :=
  of_frame (frame_puts l s) (by simp) (by simpa using h)

theorem foldl {α : Type} {f : State → α → State} : ∀ (l : List α) (s : State), (∀ a ∈ l, ∀ u, Keeps u (f u a)) → Keeps s (l.foldl f s)
  | [], s, _ => refl s
  | a :: l, s, h => (h a List.mem_cons_self s).trans (foldl l _ (fun b hb => h b (List.mem_cons_of_mem _ hb)))

theorem get {s t : State} (h : Keeps s t) {f : Fld} (hf : MonitorKey f.key) : t.get f = s.get f := by
  simp only [State.get, h.regs _ hf]

theorem bit {s t : State} (h : Keeps s t) {f : Fld} (i : Nat) (hf : MonitorKey f.key) : t.bit f i = s.bit f i := by
  simp only [State.bit, h.get hf]

end Keeps

/-! Engines' lines, alerts and causes. -/

theorem engineLine_unmonitored (g : Nat) : ¬ MonitorKey (ENG_IRQ_PEND_PEND g).key := by
  simp only [ENG_IRQ_PEND_PEND, engBase]
  split <;> omega

theorem keeps_setLines (line : Nat) (gs : List Nat) (s : State) : Keeps s (setLines line gs s) :=
  .of_frame (frame_setLines line gs s) (by simp) (by
    intro f hf
    obtain ⟨g, -, rfl⟩ := List.mem_map.mp hf
    exact engineLine_unmonitored g)

/-- A change of causes keeps what the change itself keeps: the alert is the engines' lines and a message. -/
theorem keeps_settled (b : Nat) {f : State → State} {s u : State} (h : Keeps u (f s)) : Keeps u (settled b f s) :=
  h.trans (.of_frame (frame_settleBit _ b _) (by simp) (by
    intro g hg
    obtain ⟨e, -, rfl⟩ := List.mem_map.mp hg
    exact engineLine_unmonitored e))

theorem keeps_raiseLeaf (b : Nat) {f : Fld} (s : State) (h : ¬ MonitorKey f.key) : Keeps s (raiseLeaf b f s) :=
  keeps_settled b (.put s _ h)

/-! Start-ups and their end (R129, R132, R134). -/

theorem keeps_setStartup (who : Nat) (o : Option Startup) (s : State) : Keeps s (s.setStartup who o) := .of_eq rfl rfl

theorem keeps_raiseCfg {f : Fld} (s : State) (h : ¬ MonitorKey f.key) : Keeps s (raiseCfg f s) := keeps_raiseLeaf 22 s h

theorem keeps_startupPartial (s : State) : Keeps s (startupPartial s) :=
  (Keeps.put s _ (by decide)).trans (keeps_raiseCfg _ (by decide))

theorem sectorStatus_unmonitored (x : Nat) :
    ¬ MonitorKey (FAB_SEC_STATUS_REGION_BUSY (x / 32) (x % 32)).key ∧ ¬ MonitorKey (FAB_SEC_STATUS_CONFIGURED (x / 32) (x % 32)).key ∧
      ¬ MonitorKey (FAB_SEC_STATUS_GATED_USER (x / 32) (x % 32)).key ∧ ¬ MonitorKey (FAB_SEC_STATUS_GATED_GOV (x / 32) (x % 32)).key := by
  simp only [FAB_SEC_STATUS_REGION_BUSY, FAB_SEC_STATUS_CONFIGURED, FAB_SEC_STATUS_GATED_USER, FAB_SEC_STATUS_GATED_GOV]
  omega

theorem keeps_setRegionBusy (xs : List Nat) (b : Bool) (s : State) : Keeps s (setRegionBusy xs b s) :=
  .foldl xs s fun x _ u => .put u _ (sectorStatus_unmonitored x).1

theorem keeps_putMeasurement (v : Nat) (s : State) : Keeps s (putWords CFG_PR_MEAS_MEAS 16 v s) :=
  .puts s (by
    intro e he
    obtain ⟨w, hw, rfl⟩ := List.mem_map.mp he
    simp only [CFG_PR_MEAS_MEAS]
    omega)

theorem keeps_security (s : State) (x : Security) : Keeps s { s with security := x } := .of_eq rfl rfl

theorem keeps_extendMeasurement (m : Nat) (s : State) : Keeps s (extendMeasurement m s) := keeps_security s _

theorem keeps_finishStartup (who : Nat) (s : State) : Keeps s (finishStartup who s) := by
  unfold finishStartup
  extract_lets u
  have hu : Keeps s u := keeps_setStartup who none s
  refine hu.trans ?_
  split
  · refine Keeps.trans ?_ (keeps_raiseCfg (f := CFG_CAUSE_DONE) _ (by decide))
    split
    · exact .of_eq rfl rfl
    · refine Keeps.trans ?_ (.put (f := CFG_STATUS_STATE) _ _ (by decide))
      exact .of_eq rfl rfl
  · rename Load => l
    refine (keeps_setRegionBusy l.region false u).trans ?_
    refine (keeps_putMeasurement (measureOf l.head) _).trans ?_
    refine (keeps_extendMeasurement (measureOf l.head) _).trans ?_
    refine Keeps.trans ?_ (keeps_raiseCfg (f := CFG_CAUSE_DONE) _ (by decide))
    refine Keeps.trans (Keeps.puts _ ?_) (.of_eq rfl rfl)
    split <;> decide
  · exact Keeps.refl u

theorem keeps_checkStartup (who : Nat) (s : State) : Keeps s (checkStartup who s) := by
  unfold checkStartup
  split
  · split
    · exact keeps_finishStartup who s
    · exact .refl s
  · exact .refl s

theorem keeps_dropIslands (who : Nat) (ls : List Nat) (s : State) : Keeps s (dropIslands who ls s) := by
  unfold dropIslands
  split
  · exact (keeps_setStartup who _ s).trans (keeps_checkStartup who _)
  · exact .refl s

/-! The loss of a clock (R46, R47, R170). -/

theorem mem_setAdd (x k : Nat) : ∀ m : List Nat, x ∈ setAdd m k ↔ x ∈ m ∨ x = k
  | [] => by simp [setAdd]
  | j :: m => by
    unfold setAdd
    split
    · simp only [List.mem_cons]
      tauto
    · split
      · next h =>
        simp only [List.mem_cons, ← h]
        tauto
      · simp only [List.mem_cons, mem_setAdd x k m]
        tauto

theorem freezeDomain_frozen (d : Nat) (s : State) : (freezeDomain d s).clocks.frozen.contains d = true := by
  simpa [freezeDomain, State.onClocks] using (mem_setAdd d d s.clocks.frozen).mpr (.inr rfl)

theorem keeps_noc (s : State) (n : Noc) : Keeps s { s with noc := n } := .of_eq rfl rfl

theorem sectorAlarm_unmonitored (x : Nat) : ¬ MonitorKey (FAB_SEC_CAUSE_CLK_ALARM (x / 32) (x % 32)).key := by
  simp only [FAB_SEC_CAUSE_CLK_ALARM]
  omega

theorem keeps_sectorAlarm (x : Nat) (s : State) : Keeps s (sectorAlarm x s) := keeps_raiseLeaf _ s (sectorAlarm_unmonitored x)

theorem keeps_raiseCh (n : Nat) {f : Fld} (s : State) (h : ¬ MonitorKey f.key) : Keeps s (raiseCh n f s) := by
  unfold raiseCh chSettled
  refine keeps_settled (4 + n) ((Keeps.put s true.toNat h).trans ?_)
  dsimp only
  split
  · exact keeps_setLines 23 (crewOf n) _
  · exact .refl _

/-- A cause that is no engine's line is on once it has been raised in its channel. -/
theorem raiseCh_on (n : Nat) (f : Fld) (s : State) (hw : f.w = 1) (hk : ∀ g, f.key ≠ (ENG_IRQ_PEND_PEND g).key) :
    (raiseCh n f s).on f = true := by
  have hlines : ∀ gs : List Nat, f.key ∉ (gs.map ENG_IRQ_PEND_PEND).map Fld.key := by simpa using fun gs g _ => (hk g).symm
  have hcrew : ∀ u : State, (setLines 23 (crewOf n) u).on f = u.on f := fun u => by
    simp only [State.on, (frame_setLines 23 (crewOf n) u).get f (hlines _)]
  have halert : ∀ (u : State) (b : Bool), (settleBit b (4 + n) u).on f = u.on f := fun u b => by
    simp only [State.on, (frame_settleBit b (4 + n) u).get f (hlines hubEngines)]
  unfold raiseCh chSettled settled
  rw [halert]
  dsimp only
  split
  · rw [hcrew, on_flag_same s f true hw]
  · exact on_flag_same s f true hw

theorem chCause_noLine (n g : Nat) : (CH_CAUSE_CLK_ALARM n).key ≠ (ENG_IRQ_PEND_PEND g).key := by
  simp only [CH_CAUSE_CLK_ALARM, ENG_IRQ_PEND_PEND, engBase]
  split <;> omega

theorem keeps_clockAlarm (d : Nat) (s : State) : Keeps s (clockAlarm d s) := by
  unfold clockAlarm
  split
  · exact keeps_sectorAlarm d s
  split
  · exact keeps_raiseLeaf 27 s (by decide)
  split
  · refine keeps_raiseCh _ s ?_
    simp only [CH_CAUSE_CLK_ALARM]
    omega
  split
  · exact .refl s
  split
  · exact keeps_sectorAlarm _ s
  split
  · exact keeps_sectorAlarm _ s
  · exact keeps_raiseLeaf 20 s (by decide)

theorem keeps_logNoc (unit kind port tag : Nat) (s : State) : Keeps s (logNoc unit kind port tag s) :=
  (Keeps.puts s (by simp only [List.forall_mem_cons]; decide)).trans (.count _ (by decide))

theorem keeps_meshLost (d : Nat) (s : State) : Keeps s (meshLost d s) :=
  ((keeps_noc s _).trans (keeps_logNoc _ _ _ _ _)).trans (keeps_raiseLeaf 27 _ (by decide))

/-- The domain of a lost clock is frozen, and the monitors' words are as before. -/
structure Frozen (d : Nat) (s t : State) : Prop where
  regs : ∀ k, MonitorKey k → smGet 0 t.regs k = smGet 0 s.regs k
  frozen : t.clocks.frozen.contains d = true

theorem frozen_freezeDomain (d : Nat) (s : State) : Frozen d s (freezeDomain d s) := ⟨fun _ _ => rfl, freezeDomain_frozen d s⟩

/-- What keeps the clocks keeps the freeze. -/
theorem Frozen.keeps {d : Nat} {s u t : State} (h : Frozen d s u) (k : Keeps u t) : Frozen d s t :=
  ⟨fun x hx => (k.regs x hx).trans (h.regs x hx), by rw [k.clocks]; exact h.frozen⟩

/-- The values in bundles and the requests under way do not matter to it. -/
theorem Frozen.traffic {d : Nat} {s u : State} (h : Frozen d s u) (b : List (Nat × Bundle)) (n : Noc) :
    Frozen d s { u with clocks := { u.clocks with bundles := b }, noc := n } := ⟨h.regs, h.frozen⟩

theorem keeps_failIssued (mine : NocReq → Bool) (s : State) : Keeps s (failIssued mine s) := keeps_noc s _

theorem freezeIsland_frozen (d : Nat) (s : State) : Frozen d s (freezeIsland d s) := by
  unfold freezeIsland
  extract_lets xs u c n v
  have hu : Frozen d s u := (frozen_freezeDomain d s).keeps (keeps_failIssued _ _)
  have hv : Frozen d s v := hu.traffic _ _
  refine (hv.keeps (Keeps.foldl _ v ?_)).keeps (keeps_sectorAlarm d _)
  intro who _ w
  split
  · split
    · exact (keeps_dropIslands who [d] w).trans (keeps_startupPartial _)
    · exact .refl w
  · exact .refl w

theorem loseClock_frozen {d : Nat} (hd : d < 188) (s : State) : Frozen d s (loseClock d s) := by
  unfold loseClock
  split
  · exact freezeIsland_frozen d s
  split
  · exact (frozen_freezeDomain d s).keeps (keeps_meshLost _ _)
  · have h := ((frozen_freezeDomain d s).keeps (keeps_failIssued (issuedBy d) _)).keeps (keeps_clockAlarm d _)
    dsimp only
    split
    · exact ⟨h.regs, h.frozen⟩
    · exact h

theorem sectorAlarm_on (x : Nat) (s : State) : (sectorAlarm x s).on (FAB_SEC_CAUSE_CLK_ALARM (x / 32) (x % 32)) = true := by
  refine raiseLeaf_on _ _ s rfl fun hmem => ?_
  have h := alertFlds_block _ hmem
  simp only [FAB_SEC_CAUSE_CLK_ALARM] at h
  omega

theorem loseClock_sectorAlarm {d : Nat} (hd : d < 128) (s : State) :
    (loseClock d s).on (FAB_SEC_CAUSE_CLK_ALARM (d / 32) (d % 32)) = true := by
  rw [loseClock, if_pos hd, freezeIsland]
  exact sectorAlarm_on d _

theorem clockAlarm_channel {d : Nat} (h1 : 132 ≤ d) (h2 : d < 180) (s : State) :
    (clockAlarm d s).on (CH_CAUSE_CLK_ALARM ((d - 132) % 16)) = true := by
  rw [clockAlarm, if_neg (by omega), if_neg (by omega), if_pos h2]
  exact raiseCh_on _ _ _ rfl (chCause_noLine _)

theorem loseClock_channelAlarm {d : Nat} (h1 : 132 ≤ d) (h2 : d < 180) (s : State) :
    (loseClock d s).on (CH_CAUSE_CLK_ALARM ((d - 132) % 16)) = true := by
  rw [loseClock, if_neg (by omega), if_neg (by omega), if_pos (by omega)]
  dsimp only
  rw [if_neg (by simp; omega)]
  exact clockAlarm_channel h1 h2 _

theorem loseClock_alarm {d : Nat} (h1 : 180 ≤ d) (h2 : d < 188) (h3 : d ≠ 184) (s : State) : (loseClock d s).clocks.alarm = true := by
  rw [loseClock, if_neg (by omega), if_neg (by omega), if_pos h2]
  dsimp only
  rw [if_pos (by simp [h1, h3])]
  rfl

/-! A lane's or a quad's clock (R47): nothing freezes; the lanes raise their cause. -/

theorem laneCause_unmonitored (l : Nat) : ¬ MonitorKey (LANE_CAUSE l).key := by
  simp only [LANE_CAUSE]
  omega

theorem keeps_raiseLane (l b : Nat) (s : State) : Keeps s (raiseLane l b s) := keeps_settled 26 (.put s _ (laneCause_unmonitored l))

theorem frame_raiseLane (l b : Nat) (s : State) : Frame [.host] (LANE_CAUSE l :: alertFlds) s (raiseLane l b s) :=
  frame_settled 26 (fun s => s.putBit (LANE_CAUSE l) b true) s (frame_putBit s (LANE_CAUSE l) b true)

theorem laneCause_noAlert (l : Nat) : (LANE_CAUSE l).key ∉ alertFlds.map Fld.key := fun hmem => by
  have h := alertFlds_block _ hmem
  simp only [LANE_CAUSE] at h
  omega

theorem raiseLane_bit {b : Nat} (hb : b < 7) (l m : Nat) (s : State) (h : l = m ∨ s.bit (LANE_CAUSE m) b = true) :
    (raiseLane l b s).bit (LANE_CAUSE m) b = true := by
  have hget : (raiseLane l b s).get (LANE_CAUSE m) = (s.putBit (LANE_CAUSE l) b true).get (LANE_CAUSE m) :=
    (frame_settleBit _ 26 _).get _ (laneCause_noAlert m)
  rw [State.bit, hget, ← State.bit]
  by_cases hm : l = m
  · subst hm
    exact bit_putBit_same s _ b true hb
  · have hkey : (LANE_CAUSE m).key ≠ (LANE_CAUSE l).key := by
      simp only [LANE_CAUSE]
      omega
    rw [State.bit, State.putBit, get_put_other _ _ _ _ hkey]
    exact h.resolve_left hm

/-- Every lane of a list raises the cause, and a cause that is on stays on. -/
theorem raiseLanes_bit (m : Nat) : ∀ (ls : List Nat) (s : State), m ∈ ls ∨ s.bit (LANE_CAUSE m) 6 = true →
    (ls.foldl (fun s l => raiseLane l 6 s) s).bit (LANE_CAUSE m) 6 = true
  | [], s, h => h.resolve_left (by simp)
  | l :: ls, s, h => raiseLanes_bit m ls _ (by
    rcases h with h | h
    · rcases List.mem_cons.mp h with rfl | h
      · exact .inr (raiseLane_bit (by decide) m m s (.inl rfl))
      · exact .inl h
    · exact .inr (raiseLane_bit (by decide) l m s (.inr h)))

theorem raiseLanes_lanes : ∀ (ls : List Nat) (s : State), (ls.foldl (fun s l => raiseLane l 6 s) s).lanes = s.lanes
  | [], _ => rfl
  | l :: ls, s => (raiseLanes_lanes ls _).trans ((frame_raiseLane l 6 s).lanes (by simp))

theorem keeps_loseLaneClock {d : Nat} (hd : 188 ≤ d) (s : State) : Keeps s (loseClock d s) := by
  rw [loseClock, if_neg (by omega), if_neg (by omega), if_neg (by omega)]
  refine Keeps.trans ?_ (Keeps.foldl _ _ fun l _ u => keeps_raiseLane l 6 u)
  split
  · exact .of_eq rfl rfl
  · exact .refl s

theorem loseLaneClock_cause {d : Nat} (hd : 188 ≤ d) (s : State) : ∀ l ∈ clockLanes d, (loseClock d s).bit (LANE_CAUSE l) 6 = true := by
  intro l hl
  rw [loseClock, if_neg (by omega), if_neg (by omega), if_neg (by omega)]
  exact raiseLanes_bit l _ _ (.inl hl)

theorem loseLaneClock_lost {d : Nat} (hd : 188 ≤ d) (s : State) (l : Nat) :
    l ∈ (loseClock d s).lanes.lost ↔ l ∈ s.lanes.lost ∨ clockLane d = some l := by
  rw [loseClock, if_neg (by omega), if_neg (by omega), if_neg (by omega)]
  dsimp only
  rw [raiseLanes_lanes, clockLane]
  split
  · next h => simp [mem_setAdd, hd, h, eq_comm]
  · next h => simp [h]

/-! CLK_STABLE and CLK_LOST, the word and the bit of a domain. -/

theorem monitorKey_stable (d : Fin 308) : MonitorKey (CLK_STABLE_STABLE (d.val / 32)).key := by
  simp only [CLK_STABLE_STABLE]
  omega

theorem monitorKey_lost (d : Fin 308) : MonitorKey (CLK_LOST_LOST (d.val / 32)).key := by
  simp only [CLK_LOST_LOST]
  omega

theorem clkStable_putBit_same (d : Fin 308) (b : Bool) (s : State) :
    clkStable (s.putBit (CLK_STABLE_STABLE (d.val / 32)) (d.val % 32) b) d = b :=
  bit_putBit_same s _ _ b (Nat.mod_lt _ (by decide))

theorem clkStable_putBit_other {d e : Fin 308} (h : e ≠ d) (b : Bool) (s : State) :
    clkStable (s.putBit (CLK_STABLE_STABLE (d.val / 32)) (d.val % 32) b) e = clkStable s e := by
  unfold clkStable
  by_cases hw : e.val / 32 = d.val / 32
  · rw [hw]
    exact bit_putBit_other s _ _ _ b (by have := Fin.val_ne_of_ne h; omega) (Nat.mod_lt _ (by decide))
  · have hkey : (CLK_STABLE_STABLE (e.val / 32)).key ≠ (CLK_STABLE_STABLE (d.val / 32)).key := by
      simp only [CLK_STABLE_STABLE]
      omega
    rw [State.bit, State.putBit, get_put_other _ _ _ _ hkey, ← State.bit]

/-! The commands of the clock monitors. -/

theorem frame_lanes (s : State) (x : Lanes) : Frame [.lanes] [] s { s with lanes := x } := by
  constructor <;> intros <;> first | rfl | simp_all

theorem clockStable_effect (d : Fin 308) (s : State) : Ends (.clockStable d) s fun t => clkStable t d = true ∧
    Frame [.lanes] [CLK_STABLE_STABLE (d / 32)] s t ∧
    t.lanes = { s.lanes with lost := s.lanes.lost.filter (fun l => clockLane d != some l) } ∧
    ∀ e : Fin 308, e ≠ d → clkStable t e = clkStable s e := by
  refine ⟨_, rfl, clkStable_putBit_same d true _, ?_, rfl, fun e he => clkStable_putBit_other he true _⟩
  exact ((frame_lanes s.begin _).mono (ds := [.lanes]) (gs := [CLK_STABLE_STABLE (d / 32)]) (by simp) (by simp)).begin.trans
    ((frame_putBit _ _ _ _).mono (by simp) (by simp))

/-- The state in which the loss of domain `d` has its consequences: no longer stable, and marked lost. -/
def markLost (d : Nat) (s : State) : State :=
  (s.begin.putBit (CLK_STABLE_STABLE (d / 32)) (d % 32) false).putBit (CLK_LOST_LOST (d / 32)) (d % 32) true

theorem markLost_stable (d : Fin 308) (s : State) : clkStable (markLost d s) d = false := by
  have hkey : (CLK_STABLE_STABLE (d.val / 32)).key ≠ (CLK_LOST_LOST (d.val / 32)).key := by
    simp only [CLK_STABLE_STABLE, CLK_LOST_LOST]
    omega
  rw [markLost, clkStable, State.bit, State.putBit, get_put_other _ _ _ _ hkey]
  exact clkStable_putBit_same d false _

theorem markLost_lost (d : Fin 308) (s : State) : (markLost d s).bit (CLK_LOST_LOST (d.val / 32)) (d.val % 32) = true :=
  bit_putBit_same _ _ _ true (Nat.mod_lt _ (by decide))

theorem exec_clockLost {d : Fin 308} {s : State} (h : clkStable s d = true) (hd : d.val ≠ 185) :
    exec (.clockLost d) s = .next (loseClock d (markLost d s)) := by
  show execClockLost d s = _
  have hcond : (!clkStable s.begin d || decide (d.val = 185)) = false := by
    simp only [Bool.or_eq_false_iff, Bool.not_eq_false', decide_eq_false_iff_not]
    exact ⟨h, hd⟩
  unfold execClockLost
  dsimp only
  rw [if_neg (by simpa using hcond)]
  rfl

/-- Whatever the loss of a clock brings leaves the monitors' words. -/
theorem loseClock_regs (d : Nat) (s : State) {k : Nat} (hk : MonitorKey k) : smGet 0 (loseClock d s).regs k = smGet 0 s.regs k := by
  by_cases hd : d < 188
  · exact (loseClock_frozen hd s).regs k hk
  · exact (keeps_loseLaneClock (by omega) s).regs k hk

theorem clockLost_monitors (d : Fin 308) (s : State) : clkStable (loseClock d (markLost d s)) d = false ∧
    (loseClock d (markLost d s)).bit (CLK_LOST_LOST (d / 32)) (d % 32) = true := by
  have hget : ∀ f : Fld, MonitorKey f.key → (loseClock d (markLost d s)).get f = (markLost d s).get f := fun f hf => by
    simp only [State.get, loseClock_regs d _ hf]
  constructor
  · rw [clkStable, State.bit, hget _ (monitorKey_stable d)]
    exact markLost_stable d s
  · rw [State.bit, hget _ (monitorKey_lost d)]
    exact markLost_lost d s

/-- XTAL_FAIL, the fallback and the cause (R35). -/
theorem xtalFails_effect (s : State) : (xtalFails s).on CLK_AON_XTAL_OK = false ∧ (xtalFails s).on CLK_AON_FALLBACK = true ∧
    (xtalFails s).on CLK_AON_XTAL_FAIL = true ∧ (xtalFails s).on RAS_CAUSE_AON_XTAL = true ∧ Alerted s (xtalFails s) ∧
    Frame [.host] ([CLK_AON_XTAL_OK, CLK_AON_FALLBACK, CLK_AON_XTAL_FAIL, RAS_CAUSE_AON_XTAL] ++ alertFlds) s (xtalFails s) := by
  unfold xtalFails raiseRas
  have hraise := frame_raiseLeaf 20 RAS_CAUSE_AON_XTAL (s.puts [(CLK_AON_XTAL_OK, 0), (CLK_AON_FALLBACK, 1), (CLK_AON_XTAL_FAIL, 1)])
  refine ⟨?_, ?_, ?_, raiseLeaf_on _ _ _ rfl (by decide +kernel), (alerted_of_host_eq rfl).trans (raiseLeaf_alerted 20 _ _), ?_⟩
  · rw [State.on, hraise.get _ (by decide +kernel), get_puts_last _ _ _ _ (by decide)]
    rfl
  · rw [State.on, hraise.get _ (by decide +kernel), State.puts, get_puts_last _ _ _ _ (by decide)]
    rfl
  · rw [State.on, hraise.get _ (by decide +kernel), State.puts, State.puts, get_puts_last _ _ _ _ (by simp)]
    rfl
  · exact ((frame_puts _ s).mono (by simp) (by simp)).trans (hraise.mono (by simp) (by simp; tauto))

/-- Settles O12: the monitors' words, the freeze and the causes, by the kind of the domain; the crystal by its fields. -/
theorem clockMonitorsFreezeWhatLosesItsClock : Obligations.ClockMonitorsFreezeWhatLosesItsClock := by
  unfold Obligations.ClockMonitorsFreezeWhatLosesItsClock
  intro s
  refine ⟨fun d => clockStable_effect d s, fun d hstable hd => ?_, ?_, fun hoff => ?_, fun hon => ?_⟩
  · obtain ⟨hs, hl⟩ := clockLost_monitors d s
    exact ⟨_, exec_clockLost hstable hd, hs, hl, fun h => (loseClock_frozen h _).frozen, fun h => loseClock_sectorAlarm h _,
      fun h1 h2 => loseClock_channelAlarm h1 h2 _, fun h1 h2 h3 => loseClock_alarm h1 h2 h3 _,
      fun h => ⟨loseLaneClock_cause h _, (keeps_loseLaneClock h _).clocks, loseLaneClock_lost h _⟩⟩
  · refine ⟨_, rfl, ?_, ?_, (frame_puts [(CLK_AON_XTAL_OK, 1), (CLK_AON_FALLBACK, 0)] s.begin).begin⟩
    · rw [State.on, get_puts_last _ _ _ _ (by decide)]
      rfl
    · rw [State.on, State.puts, get_puts_last _ _ _ _ (by simp)]
      rfl
  · obtain ⟨-, hback, hfail, hras, halert, hframe⟩ := xtalFails_effect s.begin
    refine ⟨xtalFails s.begin, ?_, hback, hfail, hras, (alerted_of_host_eq rfl).trans halert, hframe.begin⟩
    show execAonXtalTimeout s = _
    have h : s.begin.on CLK_AON_XTAL_OK = false := hoff
    simp [execAonXtalTimeout, h]
  · obtain ⟨hok, hback, hfail, hras, halert, hframe⟩ := xtalFails_effect s.begin
    refine ⟨xtalFails s.begin, ?_, hok, hback, hfail, hras, (alerted_of_host_eq rfl).trans halert, hframe.begin⟩
    show execAonXtalDrift s = _
    have h : s.begin.on CLK_AON_XTAL_OK = true := hon
    simp [execAonXtalDrift, h]

end Sys2Proof.Machine
end

section
/-! PROOFS. A reset leaves the causes of RST_CAUSE that are set, and makes its partitions busy (R50, R52, R58). -/

namespace Sys2Proof.Machine

/-- The keys of the bits of RST_CAUSE but POR. -/
abbrev CauseKey (k : Nat) : Prop := 0x30000010000 * 32 < k ∧ k ≤ 0x30000010000 * 32 + 12

/-- A cause that is set in `s` is set in `t`. -/
def KeepsCauses (s t : State) : Prop := ∀ k, CauseKey k → smGet 0 s.regs k = 1 → smGet 0 t.regs k = 1

namespace KeepsCauses

theorem refl (s : State) : KeepsCauses s s := fun _ _ h => h

theorem trans {s t u : State} (h : KeepsCauses s t) (k : KeepsCauses t u) : KeepsCauses s u := fun x hx hs => k x hx (h x hx hs)

theorem of_regs {s t : State} (h : t.regs = s.regs) : KeepsCauses s t := fun k _ hs => by rw [h]; exact hs

theorem foldl {α : Type} {f : State → α → State} : ∀ (l : List α) (s : State), (∀ a ∈ l, ∀ u, KeepsCauses u (f u a)) →
    KeepsCauses s (l.foldl f s)
  | [], s, _ => refl s
  | a :: l, s, h => (h a List.mem_cons_self s).trans (foldl l _ (fun b hb => h b (List.mem_cons_of_mem _ hb)))

end KeepsCauses

theorem Keeps.causes {s t : State} (h : Keeps s t) : KeepsCauses s t := fun k hk hs => by rw [h.regs k (.inr hk), hs]

/-! Fields return to their cold value, but not those that only POR clears (R52). -/

theorem fieldAt_cause_rows : ∀ i < 13, 0 < i →
    (fieldAt (0x30000010000 * 32 + i)).map (fun e => (e.2.2.kind, e.2.2.w)) = some (.por, 1) := by decide +kernel

theorem fieldAt_cause : ∀ i < 13, 0 < i → ∃ r ix f, fieldAt (0x30000010000 * 32 + i) = some (r, ix, f) ∧ f.kind = .por ∧ f.w = 1 := by
  intro i hi hpos
  obtain ⟨⟨r, ix, f⟩, heq, hf⟩ := Option.map_eq_some_iff.mp (fieldAt_cause_rows i hi hpos)
  simp only [Prod.mk.injEq] at hf
  exact ⟨r, ix, f, heq, hf.1, hf.2⟩

theorem smGet_filterMap {f : Nat × Nat → Option (Nat × Nat)} {k v : Nat} (hkeys : ∀ e e', f e = some e' → e'.1 = e.1)
    (hkept : f (k, v) = some (k, v)) (hv : v ≠ 0) : ∀ m : List (Nat × Nat), smGet 0 m k = v → smGet 0 (m.filterMap f) k = v
  | [], h => absurd h hv.symm
  | (j, w) :: m, h => by
    by_cases hj : j = k
    · subst hj
      have hw : w = v := by simpa [smGet] using h
      subst hw
      simp [hkept, smGet]
    · have hrest := smGet_filterMap hkeys hkept hv m (by simpa [smGet, hj] using h)
      rw [List.filterMap_cons]
      split
      · exact hrest
      · next e he =>
        have hkey := hkeys _ _ he
        simp only [smGet, hkey, hj, if_false]
        exact hrest

theorem smGet_foldl_image {of : Nat → Nat} {k : Nat} (hof : of k = 0) : ∀ (image m : List (Nat × Nat)),
    smGet 0 (image.foldl (fun m e => if of e.1 = 0 then m else smSet 0 m e.1 e.2) m) k = smGet 0 m k
  | [], _ => rfl
  | e :: image, m => by
    rw [List.foldl_cons, smGet_foldl_image hof image]
    split
    · rfl
    · next h => exact smGet_smSet_other _ _ _ _ _ (fun heq => h (heq ▸ hof))

/-- The bits that a mask takes of the field of key `k`. -/
def maskAt (mask : RegRow → List Nat → FieldRow → Nat) (k : Nat) : Nat := match fieldAt k with
  | some (r, ix, f) => mask r ix f
  | none => 0

/-- What a mask leaves of an entry of the register file; none where that is nothing. -/
def leftAt (mask : RegRow → List Nat → FieldRow → Nat) (e : Nat × Nat) : Option (Nat × Nat) :=
  let left := match fieldAt e.1 with
    | some (r, ix, f) => if mask r ix f = ones 0 f.w then 0 else clearBits e.2 (mask r ix f)
    | none => e.2
  if left = 0 then none else some (e.1, left)

theorem clearFields_regs (mask : RegRow → List Nat → FieldRow → Nat) (image : List (Nat × Nat)) (s : State) :
    (clearFields mask image s).regs =
      image.foldl (fun m e => if maskAt mask e.1 = 0 then m else smSet 0 m e.1 e.2) (s.regs.filterMap (leftAt mask)) := rfl

theorem leftAt_key {mask : RegRow → List Nat → FieldRow → Nat} {e e' : Nat × Nat} (h : leftAt mask e = some e') : e'.1 = e.1 := by
  unfold leftAt at h
  extract_lets left at h
  by_cases hl : left = 0
  · simp [hl] at h
  · simp only [hl, if_false, Option.some.injEq] at h
    rw [← h]

/-- A field that the mask leaves keeps its value where it is not the cold one. -/
theorem clearFields_kept {mask : RegRow → List Nat → FieldRow → Nat} {k v : Nat} {r : RegRow} {ix : List Nat} {f : FieldRow}
    (hk : fieldAt k = some (r, ix, f)) (hmask : mask r ix f = 0) (hw : f.w = 1) (hv : v ≠ 0) (image : List (Nat × Nat)) {s : State}
    (h : smGet 0 s.regs k = v) : smGet 0 (clearFields mask image s).regs k = v := by
  have hleft : leftAt mask (k, v) = some (k, v) := by simp [leftAt, hk, hmask, hw, ones, clearBits, hv]
  rw [clearFields_regs, smGet_foldl_image (of := maskAt mask) (by simp only [maskAt, hk, hmask])]
  exact smGet_filterMap (fun _ _ => leftAt_key) hleft hv _ h

theorem keepsCauses_clearFields {mask : RegRow → List Nat → FieldRow → Nat} (hmask : ∀ r ix f, f.kind = .por → mask r ix f = 0)
    (image : List (Nat × Nat)) (s : State) : KeepsCauses s (clearFields mask image s) := by
  intro k hk h
  obtain ⟨r, ix, f, hat, hpor, hw⟩ := fieldAt_cause (k - 0x30000010000 * 32) (by omega) (by omega)
  rw [show 0x30000010000 * 32 + (k - 0x30000010000 * 32) = k by omega] at hat
  exact clearFields_kept hat (hmask r ix f hpor) hw (by decide) image h

/-- The scopes of the resets that are no power-on reset: they leave what only POR clears. -/
def Scope.below : Scope → Bool
  | .cold por => !por
  | .warm | .part _ => true
  | .link _ => false

theorem resetMask_por (s : State) {sc : Scope} (hsc : sc.below = true) (r : RegRow) (ix : List Nat) (f : FieldRow) (h : f.kind = .por) :
    resetMask s sc r ix f = 0 := by
  unfold resetMask
  cases sc with
  | cold por =>
    cases por with
    | true => exact absurd hsc (by decide)
    | false => simp [h]
  | warm => simp [h]
  | part p => simp [h]
  | link q => exact absurd hsc (by simp [Scope.below])

theorem keepsCauses_resetRegs {sc : Scope} (hsc : sc.below = true) (s : State) : KeepsCauses s (resetRegs sc s) := by
  have key := keepsCauses_clearFields (resetMask_por s hsc)
  unfold resetRegs
  split
  · exact key _ s
  · exact key _ s
  · exact (key [] s).trans (.of_regs rfl)

theorem clocks_resetRegs (sc : Scope) (s : State) : (resetRegs sc s).clocks = s.clocks := by
  cases sc <;> rfl

end Sys2Proof.Machine
end

section
/-! PROOFS. The steps of a reset, one by one: each leaves the causes that are set (R48, R50, R54, R58). -/

namespace Sys2Proof.Machine

/-! Write-backs that are abandoned are logged in the RAS block (R97, R98). -/

theorem slagFlds_unmonitored (p e : Nat) : ¬ MonitorKey (RAS_SLAG_UNIT p e).key ∧ ¬ MonitorKey (RAS_SLAG_INSTANCE p e).key ∧
    ¬ MonitorKey (RAS_SLAG_AON p e).key ∧ ¬ MonitorKey (RAS_SLAG_ADDR p e).key ∧ ¬ MonitorKey (RAS_SLAG_COUNT p e).key ∧
    ¬ MonitorKey (RAS_SLAG_SYN p e).key ∧ ¬ MonitorKey (RAS_SLAG_CASE p e).key ∧ ¬ MonitorKey (RAS_SLAG_TS_LO p e).key ∧
    ¬ MonitorKey (RAS_SLAG_TS_HI p e).key ∧ ¬ MonitorKey (RAS_SLAG_VALID_VALID p).key ∧ ¬ MonitorKey (RAS_SLAG_OVF_COUNT p).key ∧
    ¬ MonitorKey (RAS_CE_COUNT_COUNT p).key := by
  simp only [RAS_SLAG_UNIT, RAS_SLAG_INSTANCE, RAS_SLAG_AON, RAS_SLAG_ADDR, RAS_SLAG_COUNT, RAS_SLAG_SYN, RAS_SLAG_CASE,
    RAS_SLAG_TS_LO, RAS_SLAG_TS_HI, RAS_SLAG_VALID_VALID, RAS_SLAG_OVF_COUNT, RAS_CE_COUNT_COUNT]
  omega

theorem keeps_slagStamp (s : State) (p e syn case : Nat) : Keeps s (slagStamp s p e syn case) :=
  .puts s (by
    obtain ⟨-, -, -, -, -, hsyn, hcase, hlo, hhi, -⟩ := slagFlds_unmonitored p e
    simpa only [List.forall_mem_cons, List.not_mem_nil, false_imp_iff, implies_true, and_true] using ⟨hsyn, hcase, hlo, hhi⟩)

theorem keeps_slagLog (s : State) (p unit inst addr syn case : Nat) : Keeps s (slagLog s p unit inst addr syn case) := by
  unfold slagLog
  split
  · next e _ =>
    obtain ⟨-, -, -, -, hcount, -⟩ := slagFlds_unmonitored p e
    exact (Keeps.count s hcount).trans (keeps_slagStamp _ p e syn case)
  · split
    · next e _ =>
      obtain ⟨hunit, hinst, haon, haddr, hcount, -, -, -, -, hvalid, -⟩ := slagFlds_unmonitored p e
      refine ((Keeps.puts s ?_).trans (keeps_slagStamp _ p e syn case)).trans ((Keeps.put _ _ hvalid).trans (keeps_raiseLeaf 20 _ (by decide)))
      simpa only [List.forall_mem_cons, List.not_mem_nil, false_imp_iff, implies_true, and_true] using ⟨hunit, hinst, haon, haddr, hcount⟩
    · obtain ⟨-, -, -, -, -, -, -, -, -, -, hovf, -⟩ := slagFlds_unmonitored p 0
      exact (Keeps.count s hovf).trans (keeps_raiseLeaf 20 _ (by decide))

theorem keeps_countCorrection (s : State) (p unit inst addr syn case : Nat) : Keeps s (countCorrection s p unit inst addr syn case) := by
  obtain ⟨-, -, -, -, -, -, -, -, -, -, -, hce⟩ := slagFlds_unmonitored p 0
  exact (Keeps.count s hce).trans (keeps_slagLog _ p unit inst addr syn case)

theorem keeps_onchip (s : State) (x : Onchip) : Keeps s { s with onchip := x } := .of_eq rfl rfl

theorem keeps_abandonWriteBacks (s : State) (p : Nat) : Keeps s (abandonWriteBacks s p) := by
  unfold abandonWriteBacks
  exact (keeps_onchip s _).trans (.foldl _ _ fun b _ u => keeps_countCorrection u p b.unit b.inst b.addr b.syn 5)

/-! Sectors held (R128), loads and start-ups abandoned (R125, R134, R143). -/

theorem keeps_onConfig (s : State) (f : Config → Config) : Keeps s (s.onConfig f) := .of_eq rfl rfl

theorem capHeld_unmonitored (d : Nat) : ¬ MonitorKey (CFG_CAP_HELD_SEC d).key := by
  simp only [CFG_CAP_HELD_SEC]
  omega

theorem keeps_clearShadow (held : Bool) (x : Nat) (s : State) : Keeps s (clearShadow held x s) := .of_eq rfl rfl

theorem keeps_holdCaptured (xs : List Nat) (s : State) : Keeps s (holdCaptured xs s) := by
  unfold holdCaptured
  extract_lets ys u due
  split
  · exact .refl s
  · refine Keeps.trans (t := u) (.foldl ys s fun x _ v => (Keeps.put v _ (capHeld_unmonitored _)).trans (keeps_clearShadow true x _)) ?_
    exact (keeps_onConfig u _).trans (.put _ _ (by decide))

theorem keeps_clearGates (xs : List Nat) (s : State) : Keeps s (clearGates xs s) :=
  .foldl xs s fun x _ u => .puts u (by
    obtain ⟨-, -, huser, hgov⟩ := sectorStatus_unmonitored x
    simpa only [List.forall_mem_cons, List.not_mem_nil, false_imp_iff, implies_true, and_true] using ⟨huser, hgov⟩)

theorem keepsCauses_holdSectors (xs : List Nat) (s : State) : KeepsCauses s (holdSectors xs s) :=
  ((keeps_holdCaptured xs s).trans (keeps_clearGates xs _)).causes.trans (.of_regs rfl)

theorem keeps_clearSectors (xs : List Nat) (s : State) : Keeps s (clearSectors xs s) := .of_eq rfl rfl

theorem keeps_setConfigured (xs : List Nat) (b : Bool) (s : State) : Keeps s (setConfigured xs b s) :=
  .foldl xs s fun x _ u => .put u _ (sectorStatus_unmonitored x).2.1

/-- The region of a partial load that is lost with it (R143). -/
theorem keepsCauses_regionLost (xs : List Nat) (s : State) : KeepsCauses s (setConfigured xs false (clearSectors xs
    (setRegionBusy xs false (holdSectors xs (s.flag CFG_PR_STATUS_REGION_LOST true))))) :=
  ((Keeps.put s _ (by decide)).causes.trans (keepsCauses_holdSectors xs _)).trans
    ((keeps_setRegionBusy xs false _).trans ((keeps_clearSectors xs _).trans (keeps_setConfigured xs false _))).causes

theorem keepsCauses_abandonLoad (s : State) : KeepsCauses s (abandonLoad s) := by
  unfold abandonLoad
  split
  · exact .refl s
  split
  · extract_lets lost u v
    have hu : KeepsCauses s u := by
      unfold u
      split
      · exact keepsCauses_regionLost _ s
      · exact .refl s
    have hv : Keeps u v := .puts u (by decide)
    exact hu.trans (hv.trans ((keeps_onConfig v _).trans ((keeps_setStartup 1 none _).trans ((keeps_onConfig _ _).trans
      (keeps_raiseCfg _ (by decide)))))).causes
  · extract_lets u v w x
    have hu : Keeps s u := by
      unfold u
      split
      · exact keeps_clearSectors _ s
      · exact .refl s
    have hv : Keeps u v := .put u _ (by decide)
    have hw : Keeps v w := by
      unfold w
      split <;> first | exact .put v _ (by decide) | exact .refl v
    have hx : Keeps w x := .puts w (by decide)
    exact (hu.trans (hv.trans (hw.trans (hx.trans ((keeps_onConfig x _).trans (keeps_raiseCfg _ (by decide))))))).causes

theorem keepsCauses_resetLoads (parts : List Nat) (s : State) : KeepsCauses s (resetLoads parts s) := by
  unfold resetLoads
  extract_lets u
  have hu : KeepsCauses s u := by
    unfold u
    split
    · next l _ =>
      extract_lets hit
      cases hit
      · exact .refl s
      · exact keepsCauses_abandonLoad s
    · exact .refl s
  split
  · exact hu.trans (keeps_onConfig u _).causes
  · split
    · exact hu
    · exact hu.trans ((keeps_dropIslands 0 _ u).trans (.foldl parts _ fun d _ v => keeps_setStartup (2 + d) none v)).causes

/-! Recoveries of the journal end (R344), and one begins (R342). -/

theorem keeps_onWake (s : State) (f : Wake → Wake) : Keeps s (s.onWake f) := .of_eq rfl rfl

theorem keeps_logRecovery (r : Recovery) (ended : Nat) (s : State) : Keeps s (logRecovery r ended s) :=
  .puts s (by simp only [List.forall_mem_cons]; decide)

theorem keeps_showRecovery (s : State) : Keeps s (showRecovery s) := by
  unfold showRecovery
  split
  · exact .puts s (by simp only [List.forall_mem_cons]; decide)
  · exact .puts s (by decide)

theorem keeps_endRecovery (r : Recovery) (ended : Nat) (s : State) : Keeps s (endRecovery r ended s) :=
  (keeps_onWake s _).trans ((keeps_logRecovery r ended _).trans (keeps_showRecovery _))

theorem keeps_resetRecoveries (parts : List Nat) (s : State) : Keeps s (resetRecoveries parts s) :=
  .foldl _ s fun r _ u => keeps_endRecovery r 3 u

theorem keeps_emit (s : State) (o : Out) : Keeps s (s.emit o) := .of_eq rfl rfl

theorem keeps_freeDigest (s : State) : Keeps s (freeDigest s).2 := by
  unfold freeDigest
  have key : ∀ (l : List Nat) (p : Nat × State), Keeps s p.2 →
      Keeps s (l.foldl (fun p w => let (v, t) := p.2.free; (p.1 + v.toNat * 2 ^ (32 * w), t)) p).2 := by
    intro l
    induction l with
    | nil => exact fun _ h => h
    | cons w l ih => exact fun p h => ih _ (h.trans (.of_eq rfl rfl))
  exact key _ _ (.refl s)

theorem keeps_errorCompletion (e : WakeEntry) (s : State) : Keeps s (errorCompletion e s) := by
  unfold errorCompletion
  split
  · split
    · exact .refl s
    · split
      · exact (keeps_freeDigest s).trans (keeps_emit _ _)
      · exact keeps_emit s _
  · exact .refl s

theorem keeps_failEntries (f : WakeEntry → Bool) (s : State) : Keeps s (failEntries f s) := by
  unfold failEntries
  extract_lets u
  have hu : Keeps s u := .foldl _ s fun e _ v => keeps_errorCompletion e v
  exact hu.trans (keeps_onWake u _)

theorem keeps_raiseWake {f : Fld} (s : State) (h : ¬ MonitorKey f.key) : Keeps s (raiseWake f s) := keeps_raiseLeaf 25 s h

theorem keeps_abandonRecovery (r : Recovery) (s : State) : Keeps s (abandonRecovery r s) :=
  (keeps_failEntries _ s).trans ((keeps_endRecovery r 2 _).trans ((Keeps.count _ (by decide)).trans (keeps_raiseWake _ (by decide))))

/-! The cross-trigger matrix (R388): what its actions leave. -/

theorem keeps_power (s : State) (p : Power) : Keeps s { s with power := p } := .of_eq rfl rfl

theorem keeps_wakePart (p : Nat) (s : State) : Keeps s (wakePart p s) := by
  unfold wakePart
  split
  · exact keeps_power s _
  · refine .put s _ ?_
    simp only [PWR_PART_STATE]
    omega
  · refine .put s _ ?_
    simp only [PWR_PART_STATE]
    omega
  · exact .refl s

theorem engineStatus_unmonitored (g : Nat) : ¬ MonitorKey (ENG_DBG_PENDING g).key ∧ ¬ MonitorKey (ENG_DBG_DEFERRED g).key := by
  simp only [ENG_DBG_PENDING, ENG_DBG_DEFERRED, engBase]
  split <;> omega

theorem keeps_setEng (s : State) (g : Nat) (e : Engine) : Keeps s (s.setEng g e) := .of_eq rfl rfl

theorem keeps_haltRequest (g cause hit : Nat) (s : State) : Keeps s (haltRequest g cause hit s) := by
  unfold haltRequest
  extract_lets e u
  split
  · exact .refl s
  · have hu : Keeps s u := (keeps_setEng s g _).trans (keeps_wakePart _ _)
    refine hu.trans (.puts u ?_)
    simpa only [List.forall_mem_cons, List.not_mem_nil, false_imp_iff, implies_true, and_true] using engineStatus_unmonitored g

theorem keeps_haltAll (cause : Nat) : ∀ (l : List Nat) (s : State), Keeps s (haltAll cause l s)
  | [], s => .refl s
  | g :: l, s => (keeps_haltRequest g cause 0 s).trans (keeps_haltAll cause l _)

theorem keeps_captureToken (s : State) : Keeps s (captureToken s) := by
  unfold captureToken
  split
  · exact .refl s
  · extract_lets picked held due u v w c
    have huv : Keeps u v := (Keeps.put u _ (by decide)).trans (.put _ _ (by decide))
    have hvw : Keeps v w := .foldl held v fun x _ y => keeps_clearShadow true x y
    refine Keeps.trans (t := u) (.puts s ?_) (huv.trans (hvw.trans (.of_eq rfl rfl)))
    intro e he
    simp only [List.mem_append, List.mem_map, List.mem_cons, List.not_mem_nil, or_false] at he
    rcases he with (⟨d, -, rfl⟩ | ⟨d, -, rfl⟩) | rfl | rfl | rfl
    · simp only [CFG_CAP_NOEDGE_SEC]
      omega
    · exact capHeld_unmonitored d
    · decide
    · show ¬ MonitorKey CFG_CAP_STATUS_HELD.key
      decide
    · decide

theorem keeps_haltIslands (d : Nat) (v : Nat) (s : State) : Keeps s (wakePart d (s.put (DBG_ISL_HALT_SEC d) v)) :=
  (Keeps.put s v (by simp only [DBG_ISL_HALT_SEC]; omega)).trans (keeps_wakePart d _)

theorem keeps_xtActions (act : Nat) (s : State) : Keeps s (xtActions act s) := by
  unfold xtActions
  extract_lets a b c d e
  have ha : Keeps s a := by
    unfold a
    split
    · exact keeps_emit s _
    · exact .refl s
  have hb : Keeps a b := by
    unfold b
    split
    · exact keeps_haltAll 2 _ a
    · exact .refl a
  have hc : Keeps b c := by
    unfold c
    split
    · exact keeps_haltAll 2 _ b
    · exact .refl b
  have hd : Keeps c d := by
    unfold d
    split
    · exact keeps_captureToken c
    · exact .refl c
  have he : Keeps d e := by
    unfold e
    split
    · exact .put d _ (by decide)
    · exact .refl d
  refine (ha.trans (hb.trans (hc.trans (hd.trans he)))).trans ?_
  split
  · refine .foldl _ e fun n _ u => ?_
    split
    · exact .refl u
    · exact keeps_haltIslands n _ u
  · exact .refl e

theorem keeps_dbg (s : State) (x : Debug) : Keeps s { s with dbg := x } := .of_eq rfl rfl

theorem keeps_xtFire (c : Nat) (s : State) : Keeps s (xtFire c s) := by
  unfold xtFire
  extract_lets last
  split
  · exact .refl s
  · exact (keeps_dbg s _).trans (keeps_xtActions _ _)

theorem keeps_xtChannels (src : Nat) : ∀ (l : List Nat) (s : State), Keeps s (xtChannels src l s)
  | [], s => .refl s
  | c :: l, s => by
    refine Keeps.trans ?_ (keeps_xtChannels src l _)
    split
    · exact keeps_xtFire c s
    · exact .refl s

theorem keeps_xtSource (src : Nat) (s : State) : Keeps s (xtSource src s) := by
  unfold xtSource
  split
  · exact keeps_xtChannels src _ s
  · exact .refl s

theorem keeps_beginRecovery (kind unit : Nat) (s : State) : Keeps s (beginRecovery kind unit s) := by
  unfold beginRecovery
  split
  · next r _ =>
    split
    · exact keeps_abandonRecovery r s
    · exact (keeps_onWake s _).trans ((keeps_onWake _ _).trans ((keeps_showRecovery _).trans (keeps_raiseWake _ (by decide))))
  · extract_lets last r first u v w
    have hu : Keeps s u := (keeps_onWake s _).trans ((keeps_onWake _ _).trans (keeps_showRecovery _))
    have hv : Keeps u v := .puts u (by simp only [List.forall_mem_cons]; decide)
    have hw : Keeps v w := by
      unfold w
      cases first
      · exact .refl v
      · exact keeps_xtSource 7 v
    refine (hu.trans (hv.trans hw)).trans ?_
    split
    · exact keeps_abandonRecovery r w
    · exact .refl w

/-! What a reset does beside the registers: the die, the channel, the hub, the whole device. -/

theorem keepsCauses_resetDie (d : Nat) (s : State) : KeepsCauses s (resetDie d s) := by
  unfold resetDie
  extract_lets xs u v
  have hv : KeepsCauses u v := (keeps_onConfig u _).causes.trans (keepsCauses_holdSectors xs _)
  exact KeepsCauses.trans (t := u) (.of_regs rfl) (hv.trans (.of_regs rfl))

theorem keepsCauses_put (s : State) {f : Fld} (v : Nat) (h : ¬ CauseKey f.key) : KeepsCauses s (s.put f v) := fun k hk hs => by
  rw [(frame_put s f v).regs k (by rintro hm; simp at hm; exact h (hm ▸ hk)), hs]

theorem keepsCauses_recordActive (n : Nat) (s : State) : KeepsCauses s (recordActive n s) := by
  unfold recordActive
  refine .foldl _ s fun e _ u => ?_
  split
  · refine (keepsCauses_put u 1 ?_).trans (keepsCauses_put _ _ ?_)
    · simp only [NAND_ACTIVE_VALID]
      omega
    · simp only [NAND_ACTIVE_ROW]
      omega
  · exact .refl u

theorem keepsCauses_resetChannel (n : Nat) (s : State) : KeepsCauses s (resetChannel n s) := by
  unfold resetChannel
  exact (keepsCauses_recordActive n s).trans (.of_regs rfl)

theorem keepsCauses_resetHub (s : State) : KeepsCauses s (resetHub s) := by
  unfold resetHub
  extract_lets u
  have hu : KeepsCauses s u := by
    refine KeepsCauses.trans (.foldl _ s fun p _ v => ((Keeps.put v 0 ?_).trans (.put _ 0 ?_)).causes) (.of_regs rfl)
    · simp only [WAKE_SEQ_IN]
      omega
    · simp only [WAKE_SEQ_OUT]
      omega
  exact hu.trans (.of_regs rfl)

theorem keepsCauses_resetPower (parts : List Nat) (s : State) : KeepsCauses s (resetPower parts s) := .of_regs rfl

theorem keepsCauses_resetClocks (sc : Scope) (s : State) : KeepsCauses s (resetClocks sc s) := .of_regs rfl

theorem keepsCauses_resetCold (por : Bool) (s : State) : KeepsCauses s (resetCold por s) := .of_regs rfl

theorem keepsCauses_resetWarm (alarm : Bool) (s : State) : KeepsCauses s (resetWarm alarm s) := by
  refine .of_regs ?_
  unfold resetWarm
  cases retainsDump s alarm <;> rfl

end Sys2Proof.Machine
end

section
/-! PROOFS. A reset takes effect (R50, R54): its cause is set and its partitions are busy. -/

namespace Sys2Proof.Machine

theorem channelStatus_unmonitored (n : Nat) : ¬ MonitorKey (DRAM_STATUS_SR_KEPT n).key ∧ ¬ MonitorKey (DRAM_STATUS_STATE n).key ∧
    ¬ MonitorKey (PAT_STATUS_STATE n).key := by
  simp only [DRAM_STATUS_SR_KEPT, DRAM_STATUS_STATE, PAT_STATUS_STATE]
  omega

theorem keeps_markWarm (dump : Option (List Nat)) (kept : List Nat) (s : State) : Keeps s (markWarm dump kept s) := by
  unfold markWarm
  extract_lets u
  have hu : Keeps s u := .foldl kept s fun n _ v => .put v _ (channelStatus_unmonitored n).1
  split
  · exact hu
  · next ns =>
    refine hu.trans (Keeps.trans (.foldl ns u fun n _ v => .put v _ (channelStatus_unmonitored n).2.2) (.puts _ ?_))
    simp only [List.forall_mem_cons]
    decide

theorem keeps_leaveMooring (s : State) : Keeps s (leaveMooring s) := by
  unfold leaveMooring
  split
  · exact .refl s
  · extract_lets back pw u
    have hu : Keeps s u := .of_eq rfl rfl
    refine hu.trans (.foldl back u fun n _ v => .puts v ?_)
    simpa only [List.forall_mem_cons, List.not_mem_nil, false_imp_iff, implies_true, and_true] using
      ⟨(channelStatus_unmonitored n).2.1, (channelStatus_unmonitored n).1⟩

theorem keeps_resetWakes (sc : Scope) (s : State) : Keeps s (resetWakes sc s) := by
  unfold resetWakes
  split
  · exact keeps_power s _
  · split
    · exact .refl s
    · exact keeps_leaveMooring s

/-! Busy partitions. -/

theorem mem_foldl_setAdd (p : Nat) : ∀ (ps m : List Nat), p ∈ ps ∨ p ∈ m → p ∈ ps.foldl setAdd m
  | [], _, h => h.resolve_left (by simp)
  | q :: ps, m, h => mem_foldl_setAdd p ps _ (by
    rw [mem_setAdd]
    simp only [List.mem_cons] at h
    tauto)

theorem resetClocks_busy (sc : Scope) (s : State) : ∀ p ∈ sc.parts, p ∈ (resetClocks sc s).clocks.busy :=
  fun p hp => mem_foldl_setAdd p _ _ (.inl hp)

/-- What a reset brings: causes that are set stay set, and the partitions of its scope are busy. -/
structure Resets (sc : Scope) (s t : State) : Prop where
  causes : KeepsCauses s t
  busy : ∀ p ∈ sc.parts, p ∈ t.clocks.busy

/-- The registers and the clocks of a scope reset, after steps that leave the causes. -/
theorem resets_regs {sc : Scope} (hsc : sc.below = true) {s u : State} (h : KeepsCauses s u) :
    Resets sc s (resetRegs sc (resetClocks sc u)) where
  causes := h.trans ((keepsCauses_resetClocks sc u).trans (keepsCauses_resetRegs hsc _))
  busy := by rw [clocks_resetRegs]; exact resetClocks_busy sc u

theorem Resets.keeps {sc : Scope} {s u t : State} (h : Resets sc s u) (k : Keeps u t) : Resets sc s t :=
  ⟨h.causes.trans k.causes, by rw [k.clocks]; exact h.busy⟩

theorem islandPending_unmonitored (x : Nat) : ¬ MonitorKey (CLK_ISL_PENDING x).key := by
  simp only [CLK_ISL_PENDING]
  omega

theorem beginReset_resets {sc : Scope} (hsc : sc.below = true) (alarm : Bool) (s : State) : Resets sc s (beginReset sc alarm s) := by
  unfold beginReset
  extract_lets parts kept u v
  have hv : KeepsCauses s v := (Keeps.foldl parts s fun p _ w => keeps_abandonWriteBacks w p).causes.trans
    ((keepsCauses_resetLoads parts u).trans (keeps_resetRecoveries parts _).causes)
  have hchannels : ∀ w, KeepsCauses w ((List.range 16).foldl (fun s n => resetChannel n s) w) := fun w =>
    .foldl _ w fun n _ x => keepsCauses_resetChannel n x
  have hhub : ∀ w, KeepsCauses w (resetHub (resetPower parts w)) := fun w =>
    (keepsCauses_resetPower parts w).trans (keepsCauses_resetHub _)
  cases sc with
  | cold por => exact resets_regs hsc (hv.trans ((hhub v).trans ((hchannels _).trans (keepsCauses_resetCold por _))))
  | warm =>
    refine (resets_regs hsc (hv.trans ((keepsCauses_resetWarm alarm v).trans ?_))).keeps (keeps_markWarm _ _ _)
    exact KeepsCauses.trans (.foldl _ _ fun d _ x => keepsCauses_resetDie d x) ((hhub _).trans (hchannels _))
  | part p =>
    dsimp only
    have hp : KeepsCauses s (resetPower parts v) := hv.trans (keepsCauses_resetPower parts v)
    split
    · exact (resets_regs hsc (hp.trans (keepsCauses_resetDie p _))).keeps
        (.foldl _ _ fun i _ x => .put x 0 (islandPending_unmonitored _))
    · split
      · refine ((resets_regs hsc (hp.trans (keepsCauses_resetChannel (p - 4) _))).keeps ?_).keeps (keeps_beginRecovery 7 _ _)
        split
        · exact .put _ _ (channelStatus_unmonitored _).1
        · exact .refl _
      · exact resets_regs hsc (hp.trans (keepsCauses_resetHub _))
  | link port => exact absurd hsc (by simp [Scope.below])

theorem unite_below {sc : Scope} (hsc : sc.below = true) (s : State) : (unite s sc).below = true := by
  unfold unite
  split
  · exact hsc
  · rfl
  · rfl
  · exact hsc

/-- A scope united with a wider reset holds the same partitions and more. -/
theorem unite_parts {sc : Scope} (hsc : ∀ p ∈ sc.parts, p < 21) (s : State) : ∀ p ∈ sc.parts, p ∈ (unite s sc).parts := by
  intro p hp
  unfold unite
  split
  · exact hp
  · exact List.mem_range.mpr (hsc p hp)
  · exact List.mem_range.mpr (hsc p hp)
  · exact hp

/-- A field of RST_CAUSE: one bit, 0 at power-on. -/
structure IsCause (f : Fld) : Prop where
  key : CauseKey f.key
  width : f.w = 1
  cold : f.cold = 0

/-- A reset that the integrity halt does not ignore begins with its cause. -/
theorem startReset_begun {cause : Fld} (hcause : IsCause cause) {sc : Scope} (hsc : sc.below = true) (hparts : ∀ p ∈ sc.parts, p < 21)
    (endsHalt : Bool) {s : State} (h : s.clocks.halted = false ∨ endsHalt = true) :
    (startReset cause sc endsHalt s).get cause = 1 ∧ ∀ p ∈ sc.parts, (startReset cause sc endsHalt s).clocks.busy.contains p = true := by
  have hrun : startReset cause sc endsHalt s = beginReset (unite (s.flag cause true) sc) (cause == RST_CAUSE_SEC_ALARM)
      (resetWakes (unite (s.flag cause true) sc) (s.flag cause true)) := by
    unfold startReset
    rcases h with h | h <;> simp [h]
  have hset : smGet 0 (s.flag cause true).regs cause.key = 1 := by
    simp [State.flag, State.put, hcause.width, hcause.cold]
  rw [hrun]
  have hreset := beginReset_resets (unite_below hsc (s.flag cause true)) (cause == RST_CAUSE_SEC_ALARM)
    (resetWakes (unite (s.flag cause true) sc) (s.flag cause true))
  constructor
  · rw [State.get, hreset.causes _ hcause.key ((keeps_resetWakes _ _).causes _ hcause.key hset), hcause.cold]
    rfl
  · intro p hp
    simpa using hreset.busy p (unite_parts hparts _ p hp)

end Sys2Proof.Machine
end

section
/-! PROOFS. Resets, partial loads and halts complete with their effect. -/

namespace Sys2Proof.Machine

/-! Resets (R50, R51, R52, R60, R256, R392). -/

/-- A reset has begun: its cause is set and its partitions are busy. -/
def Begun (cause : Fld) (ps : List Nat) (t : State) : Prop := t.get cause = 1 ∧ ∀ p ∈ ps, t.clocks.busy.contains p = true

theorem begun_warm {cause : Fld} (hcause : IsCause cause) {s : State} {endsHalt : Bool} (h : s.clocks.halted = false ∨ endsHalt = true) :
    Begun cause (List.range 21) (startReset cause .warm endsHalt s) :=
  startReset_begun (sc := .warm) hcause rfl (fun _ hp => List.mem_range.mp hp) endsHalt h

theorem begun_part {cause : Fld} (hcause : IsCause cause) {p : Nat} (hp : p ≤ 20) {s : State} (h : s.clocks.halted = false) :
    Begun cause [p] (startReset cause (.part p) false s) :=
  startReset_begun hcause rfl (fun q hq => by rw [List.mem_singleton.mp hq]; omega) false (.inl h)

theorem ends_guardedWrite {s : State} {req : Requester} {addr : Nat} (h : regGate s req addr 4 true = .reach) (f : State → State)
    {P : State → Prop} (hP : P ((f s.begin).emit .done)) {c : Instr} (hc : exec c s = .next (guardedWrite s.begin req addr 4 f)) :
    Ends c s P :=
  ⟨_, by rw [hc, guardedWrite_reach s.begin req addr 4 f h], hP⟩

theorem resetNLow_begins {s : State} {ns : Nat} (h : 1000 ≤ ns) :
    Ends (.resetNLow ns) s fun t => Begun RST_CAUSE_PIN (List.range 21) t ∧ t.clocks.pinHeld = true := by
  refine ⟨pinReset s.begin, ?_, ?_, rfl⟩
  · show execResetNLow ns s = _
    rw [execResetNLow, if_neg (by omega), if_pos h]
  · exact begun_warm ⟨by decide, rfl, rfl⟩ (.inr rfl)

theorem hubWdtExpiry_begins {s : State} (h : hubWatchdogRuns s = true) :
    Ends .hubWdtExpiry s (Begun RST_CAUSE_HUB_WDT (List.range 21)) := by
  refine ⟨startReset RST_CAUSE_HUB_WDT .warm false s.begin, ?_, ?_⟩
  · show execHubWdtExpiry s = _
    have hb : hubWatchdogRuns s.begin = true := h
    rw [execHubWdtExpiry, if_pos hb]
  · refine begun_warm ⟨by decide, rfl, rfl⟩ (.inl ?_)
    simp only [hubWatchdogRuns, Bool.and_eq_true, Bool.not_eq_true'] at h
    exact h.1

theorem rstCtrlWarm_begins {s : State} {req : Requester} (h : regGate s req 0x030000010008 4 true = .reach) :
    Ends (.rstCtrlWarm req 0xA5) s (Begun RST_CAUSE_SOFT (List.range 21)) :=
  ends_guardedWrite h (rstCtrl 0xA5 1 0) (begun_warm (s := s.begin) ⟨by decide, rfl, rfl⟩ (.inr rfl)) rfl

theorem dbgRstWarm_begins {s : State} {req : Requester} (h : regGate s req 0x0300000B0004 4 true = .reach) :
    Ends (.dbgRstWarm req 0xA5) s (Begun RST_CAUSE_DEBUG (List.range 21)) :=
  ends_guardedWrite h (dbgRst 0xA5 1 0) (begun_warm (s := s.begin) ⟨by decide, rfl, rfl⟩ (.inr rfl)) rfl

theorem rstCtrlPartition_begins {s : State} {req : Requester} {part : BitVec 5} (hpart : part.toNat ≤ 20) (hrun : s.clocks.halted = false)
    (h : regGate s req 0x030000010008 4 true = .reach) :
    Ends (.rstCtrlPartition req 0xA5 part) s (Begun RST_CAUSE_SOFT [part.toNat]) := by
  refine ends_guardedWrite h (rstCtrl 0xA5 2 part.toNat) ?_ rfl
  have heq : rstCtrl 0xA5 2 part.toNat s.begin = startReset RST_CAUSE_SOFT (.part part.toNat) false s.begin := by
    simp [rstCtrl, hpart]
  rw [heq]
  exact begun_part (s := s.begin) ⟨by decide, rfl, rfl⟩ hpart hrun

theorem dbgRstPartition_begins {s : State} {req : Requester} {part : BitVec 5} (hpart : part.toNat ≤ 20) (hrun : s.clocks.halted = false)
    (h : regGate s req 0x0300000B0004 4 true = .reach) :
    Ends (.dbgRstPartition req 0xA5 part) s (Begun RST_CAUSE_DEBUG [part.toNat]) := by
  refine ends_guardedWrite h (dbgRst 0xA5 2 part.toNat) ?_ rfl
  have heq : dbgRst 0xA5 2 part.toNat s.begin = startReset RST_CAUSE_DEBUG (.part part.toNat) false s.begin := by
    simp [dbgRst, hpart]
  rw [heq]
  exact begun_part (s := s.begin) ⟨by decide, rfl, rfl⟩ hpart hrun

theorem chWdt_begins {s : State} {n : Ch} (hrun : s.clocks.halted = false) (h : swdtRuns s n = true) :
    Ends (.chWdt n) s (Begun RST_CAUSE_CH_WDT [4 + n.val]) := by
  refine ⟨startReset RST_CAUSE_CH_WDT (.part (4 + n)) false ((s.begin.put (CH_SWDT_COUNT_COUNT n) 0).putBit RST_CH_WDT_CH n true), ?_, ?_⟩
  · show execChWdt n s = _
    have hb : swdtRuns s.begin n = true := h
    rw [execChWdt, if_pos hb]
  · exact begun_part ⟨by decide, rfl, rfl⟩ (by omega) hrun

/-! Partial loads (R140 to R143). -/

theorem get_raiseCfgFail (s : State) (f : Fld) (hf : f.key ∉ (CFG_CAUSE_FAIL :: alertFlds).map Fld.key) :
    (raiseCfg CFG_CAUSE_FAIL s).get f = s.get f := (frame_raiseLeaf 22 CFG_CAUSE_FAIL s).get f hf

theorem partLoadFails_busy (cause : Nat) (s : State) : (partLoadFails cause s).on CFG_PR_STATUS_BUSY = false := by
  rw [partLoadFails, State.on, get_raiseCfgFail _ _ (by decide +kernel), get_puts_last _ _ _ _ (by simp; decide)]
  rfl

theorem partLoadFails_cause {cause : Nat} (h : cause < 2 ^ 8) (s : State) : (partLoadFails cause s).get CFG_PR_STATUS_CAUSE = cause := by
  rw [partLoadFails, get_raiseCfgFail _ _ (by decide +kernel), State.puts, State.puts, get_puts_last _ _ _ _ (by simp)]
  exact Nat.mod_eq_of_lt h

theorem prGo_begins {s : State} {req : Requester} (h : regGate s req 0x030000040200 4 true = .reach) (store : Bool)
    (hbusy : s.on CFG_PR_STATUS_BUSY = false) (hstate : s.get CFG_STATUS_STATE = 0xA) (hload : s.config.load = none) :
    Ends (.prGo req store) s fun t => t.on CFG_PR_STATUS_BUSY = true ∧ t.get CFG_PR_STATUS_PHASE = 1 := by
  refine ends_guardedWrite h (prGo store) ?_ rfl
  have hb : (s.begin.flag CFG_PR_CTRL_SRC_STORE store).on CFG_PR_STATUS_BUSY = false :=
    (on_flag_other _ _ _ _ (by decide)).trans hbusy
  have hs : (s.begin.flag CFG_PR_CTRL_SRC_STORE store).get CFG_STATUS_STATE = 0xA :=
    (get_put_other _ _ _ _ (by decide)).trans hstate
  have hl : (s.begin.flag CFG_PR_CTRL_SRC_STORE store).config.load = none := hload
  have hrun : ∃ u : State, prGo store s.begin = u.puts [(CFG_PR_STATUS_BUSY, 1), (CFG_PR_STATUS_PHASE, 1)] := by
    rw [prGo, if_neg (by simp [hb, hs, hl])]
    exact ⟨_, rfl⟩
  obtain ⟨u, hu⟩ := hrun
  show (prGo store s.begin).on CFG_PR_STATUS_BUSY = true ∧ (prGo store s.begin).get CFG_PR_STATUS_PHASE = 1
  rw [hu]
  constructor
  · rw [State.on, get_puts_last _ _ _ _ (by simp; decide)]
    rfl
  · rw [State.puts, get_puts_last _ _ _ _ (by simp)]
    rfl

theorem prAbort_fails {s : State} {req : Requester} (h : regGate s req 0x030000040200 4 true = .reach)
    (hbusy : s.on CFG_PR_STATUS_BUSY = true) (hphase : s.get CFG_PR_STATUS_PHASE ≤ 2) :
    Ends (.prAbort req) s fun t => t.on CFG_PR_STATUS_BUSY = false ∧ t.get CFG_PR_STATUS_CAUSE = 0x14 := by
  refine ends_guardedWrite h prAbort ?_ rfl
  have heq : prAbort s.begin = partLoadFails 0x14 s.begin := by
    have hb : s.begin.on CFG_PR_STATUS_BUSY = true := hbusy
    simp [prAbort, hb, hphase]
  rw [heq]
  exact ⟨partLoadFails_busy 0x14 s.begin, partLoadFails_cause (by decide) s.begin⟩

/-- A cause of failure fits its field. -/
theorem prCause_lt {l : Load} {tag : Bool} {sha shake : BitVec 512} {d : Declared} {c : Nat} (h : prCause l tag sha shake d = some c) :
    c < 2 ^ 8 := by
  have key : ∀ n : Nat, n < 2 ^ 8 → some n = some c → c < 2 ^ 8 := fun n hn he => Option.some.inj he ▸ hn
  unfold prCause finalCause at h
  split_ifs at h
  all_goals exact key _ (by decide) h

theorem prFinalChecks_effect {s : State} {l : Load} (hload : s.config.load = some l) (hpart : l.isPart = true) (hsigned : l.signed = true)
    (hdecl : l.decl = none) (tag : Bool) (sha shake : BitVec 512) (d : Declared) :
    (prCause l tag sha shake d = none → Ends (.prFinalChecks tag sha shake d) s fun t => t.get CFG_PR_STATUS_PHASE = 3) ∧
      ∀ c, prCause l tag sha shake d = some c → Ends (.prFinalChecks tag sha shake d) s fun t => t.get CFG_PR_STATUS_CAUSE = c := by
  constructor
  · intro h
    refine ⟨prHold l d s.begin, ?_, (get_put_same _ CFG_PR_STATUS_PHASE 3).trans rfl⟩
    show execPrFinalChecks tag sha shake d s = _
    simp [execPrFinalChecks, hload, hpart, hsigned, hdecl, h]
  · intro c h
    refine ⟨partLoadFails c s.begin, ?_, partLoadFails_cause (prCause_lt h) _⟩
    show execPrFinalChecks tag sha shake d s = _
    simp [execPrFinalChecks, hload, hpart, hsigned, hdecl, h]

theorem prFramesWritten_effect {s : State} {l : Load} (hload : s.config.load = some l) (hpart : l.isPart = true)
    (hdecl : l.decl.isSome = true) (hphase : s.get CFG_PR_STATUS_PHASE = 4) (hclear : NoClear s) :
    Ends (.prFramesWritten false) s (fun t => t.get CFG_PR_STATUS_PHASE = 5) ∧
      Ends (.prFramesWritten true) s (fun t => t.on CFG_PR_STATUS_REGION_LOST = true) := by
  obtain ⟨d, hd⟩ := Option.isSome_iff_exists.mp hdecl
  have hc : clearDone s.begin = s.begin := clearDone_none (s := s.begin) hclear
  have hp : s.begin.get CFG_PR_STATUS_PHASE = 4 := hphase
  have hrun : ∀ ue, exec (.prFramesWritten ue) s = .next (if ue then regionLost l s.begin else prWritten l d s.begin) := fun ue => by
    show execPrFramesWritten ue s = _
    simp [execPrFramesWritten, hc, hload, hd, hpart, hp]
  constructor
  · exact ⟨_, hrun false, (get_put_same _ CFG_PR_STATUS_PHASE 5).trans rfl⟩
  · refine ⟨_, hrun true, ?_⟩
    show (regionLost l s.begin).on CFG_PR_STATUS_REGION_LOST = true
    rw [regionLost, State.on, get_raiseCfgFail _ _ (by decide +kernel), get_puts_last _ _ _ _ (by simp; decide)]
    rfl

end Sys2Proof.Machine
end

section
/-! PROOFS. The halts of engines and islands and the triggers (R379 to R389): what each operation does to one engine, and leaves of
the others. -/

namespace Sys2Proof.Machine

/-! Where the registers of engines stand. -/

theorem engBase_place (g : Nat) : engBase g + 0x1000 ≤ 0x30000000000 ∨ 0x300000B8000 ≤ engBase g := by
  unfold engBase
  split <;> omega

theorem engBase_apart {g h : Nat} (hne : g ≠ h) : engBase g + 0x1000 ≤ engBase h ∨ engBase h + 0x1000 ≤ engBase g := by
  unfold engBase
  split <;> split <;> omega

/-- The key of a field of engine `g`. -/
abbrev EngineKey (g k : Nat) : Prop := engBase g * 32 ≤ k ∧ k < (engBase g + 0x1000) * 32

/-- The key of a field of no engine: of the hub blocks below the hub engines' own. -/
abbrev HubKey (k : Nat) : Prop := 0x30000000000 * 32 ≤ k ∧ k < 0x300000B8000 * 32

theorem engineKey_hubKey_ne {g k j : Nat} (hk : EngineKey g k) (hj : HubKey j) : j ≠ k := by
  have := engBase_place g
  omega

theorem engineKeys_ne {g h k j : Nat} (hne : g ≠ h) (hk : EngineKey g k) (hj : EngineKey h j) : k ≠ j := by
  have := engBase_apart hne
  omega

theorem halted_engineKey (g : Nat) : EngineKey g (ENG_DBG_HALTED g).key := by
  simp only [ENG_DBG_HALTED]
  omega

theorem engineStatus_engineKeys (g : Nat) : EngineKey g (ENG_STATUS_STATE g).key ∧ EngineKey g (ENG_DBG_PENDING g).key ∧
    EngineKey g (ENG_DBG_DEFERRED g).key ∧ EngineKey g (ENG_WDT_COUNT_COUNT g).key ∧ EngineKey g (ENG_DBG_FEED_BUSY g).key := by
  simp only [ENG_STATUS_STATE, ENG_DBG_PENDING, ENG_DBG_DEFERRED, ENG_WDT_COUNT_COUNT, ENG_DBG_FEED_BUSY]
  omega

theorem halted_ne (g : Nat) : (ENG_DBG_HALTED g).key ≠ (ENG_STATUS_STATE g).key ∧ (ENG_DBG_HALTED g).key ≠ (ENG_DBG_PENDING g).key ∧
    (ENG_DBG_HALTED g).key ≠ (ENG_DBG_DEFERRED g).key ∧ (ENG_DBG_HALTED g).key ≠ (ENG_WDT_COUNT_COUNT g).key := by
  simp only [ENG_DBG_HALTED, ENG_STATUS_STATE, ENG_DBG_PENDING, ENG_DBG_DEFERRED, ENG_WDT_COUNT_COUNT]
  omega

/-- HALTED of an engine is no field that an operation on engine `h` writes beside HALTED of `h`. -/
theorem halted_apart (g h : Nat) : (ENG_DBG_HALTED g).key ≠ (ENG_STATUS_STATE h).key ∧ (ENG_DBG_HALTED g).key ≠ (ENG_DBG_PENDING h).key ∧
    (ENG_DBG_HALTED g).key ≠ (ENG_DBG_DEFERRED h).key ∧ (ENG_DBG_HALTED g).key ≠ (ENG_WDT_COUNT_COUNT h).key := by
  by_cases hne : g = h
  · subst hne
    exact halted_ne g
  · obtain ⟨h1, h2, h3, h4, -⟩ := engineStatus_engineKeys h
    have key := fun {k : Nat} (hk : EngineKey h k) => engineKeys_ne hne (halted_engineKey g) hk
    exact ⟨key h1, key h2, key h3, key h4⟩

theorem crewWatchdog_ne_halted (n g : Nat) : (ENG_DBG_HALTED g).key ≠ (CH_SWDT_COUNT_COUNT n).key := by
  simp only [ENG_DBG_HALTED, CH_SWDT_COUNT_COUNT, engBase]
  split <;> omega

/-! A write of a register (R6 to R8): no field of another register differs. -/

theorem chanRows_lo : ∀ r ∈ chanRows, ∀ f ∈ r.fields, f.lo < 32 := by decide +kernel

theorem rowOf_lo {a : Nat} {r : RegRow} {ix : List Nat} (h : rowOf a = some (r, ix)) : ∀ f ∈ r.fields, f.lo < 32 := by
  unfold rowOf at h
  split at h
  · exact chanRows_lo r (rowAt_bounds h).1
  · exact (hubRows_places r (rowAt_bounds h).1).2.2

/-- The frame of the write of one register. -/
theorem frame_writeReg_at (s : State) (a v : Nat) : ∃ fs : List Fld, (∀ f ∈ fs, f.key / 32 = a) ∧ Frame [] fs s (writeReg s a v) := by
  cases h : rowOf a with
  | none =>
    refine ⟨[], by simp, ?_⟩
    simp only [writeReg, h]
    exact Frame.refl s _ _
  | some e =>
    obtain ⟨r, ix⟩ := e
    refine ⟨_, ?_, frame_writeReg h s v⟩
    intro f hf
    obtain ⟨g, hg, rfl⟩ := List.mem_map.mp hf
    have := rowOf_lo h g hg
    show (a * 32 + g.lo) / 32 = a
    omega

theorem get_writeReg_other {a : Nat} {f : Fld} (h : f.key / 32 ≠ a) (s : State) (v : Nat) : (writeReg s a v).get f = s.get f := by
  obtain ⟨fs, hfs, hframe⟩ := frame_writeReg_at s a v
  refine hframe.get f fun hm => ?_
  obtain ⟨g, hg, heq⟩ := List.mem_map.mp hm
  exact h (heq ▸ hfs g hg)

theorem eng_writeReg (s : State) (a v g : Nat) : (writeReg s a v).eng g = s.eng g := by
  obtain ⟨fs, -, hframe⟩ := frame_writeReg_at s a v
  simp only [State.eng, hframe.engines (by simp)]

theorem on_writeReg_other {a : Nat} {f : Fld} (h : f.key / 32 ≠ a) (s : State) (v : Nat) : (writeReg s a v).on f = s.on f := by
  simp only [State.on, get_writeReg_other h s v]

theorem eng_puts (l : List (Fld × Nat)) (s : State) (g : Nat) : (s.puts l).eng g = s.eng g := by
  simp only [State.eng, (frame_puts l s).engines (by simp)]

theorem frame_wakePart (p : Nat) (s : State) : Frame [.power] [PWR_PART_STATE p] s (wakePart p s) := by
  unfold wakePart
  split
  · exact (frame_power s _).mono (List.Subset.refl _) (by simp)
  · exact (frame_put s _ _).mono (by simp) (by simp)
  · exact (frame_put s _ _).mono (by simp) (by simp)
  · exact Frame.refl s _ _

theorem eng_wakePart (p : Nat) (s : State) (g : Nat) : (wakePart p s).eng g = s.eng g := by
  simp only [State.eng, (frame_wakePart p s).engines (by simp)]

/-! A halt request (R379). -/

theorem frame_haltRequest (g cause hit : Nat) (s : State) :
    Frame [.power, .engines] [PWR_PART_STATE (engPart g), ENG_DBG_PENDING g, ENG_DBG_DEFERRED g] s (haltRequest g cause hit s) := by
  unfold haltRequest
  extract_lets e u
  split
  · exact Frame.refl s _ _
  · have hu : Frame [.power, .engines] [PWR_PART_STATE (engPart g), ENG_DBG_PENDING g, ENG_DBG_DEFERRED g] s u :=
      ((frame_setEng s g _).mono (by simp) (by simp)).trans ((frame_wakePart _ _).mono (by simp) (by simp))
    exact hu.trans ((frame_puts _ u).mono (by simp) (by simp))

theorem partState_hubKey (g : Nat) : HubKey (PWR_PART_STATE (engPart g)).key := by
  simp only [PWR_PART_STATE, engPart]
  split <;> omega

theorem on_haltRequest_other {g cause hit : Nat} {f : Fld} (h1 : f.key ≠ (PWR_PART_STATE (engPart g)).key) (h2 : f.key ≠ (ENG_DBG_PENDING g).key)
    (h3 : f.key ≠ (ENG_DBG_DEFERRED g).key) (s : State) : (haltRequest g cause hit s).on f = s.on f := by
  simp only [State.on, (frame_haltRequest g cause hit s).get f (by simp [h1, h2, h3])]

theorem halted_haltRequest (g h cause hit : Nat) (s : State) : (haltRequest h cause hit s).on (ENG_DBG_HALTED g) = s.on (ENG_DBG_HALTED g) := by
  obtain ⟨-, hp, hd, -⟩ := halted_apart g h
  exact on_haltRequest_other (engineKey_hubKey_ne (halted_engineKey g) (partState_hubKey h)).symm hp hd s

theorem policyHalt_hubKey : HubKey SEC_DBG_POLICY_HALT.key := by decide

theorem policy_haltRequest (h cause hit : Nat) (s : State) :
    (haltRequest h cause hit s).on SEC_DBG_POLICY_HALT = s.on SEC_DBG_POLICY_HALT := by
  obtain ⟨-, hp, hd, -⟩ := engineStatus_engineKeys h
  refine on_haltRequest_other ?_ (engineKey_hubKey_ne hp policyHalt_hubKey) (engineKey_hubKey_ne hd policyHalt_hubKey) s
  simp only [SEC_DBG_POLICY_HALT, PWR_PART_STATE]
  omega

/-- The request reaches an engine that runs and has none. -/
theorem haltRequest_waits {g : Nat} (cause hit : Nat) {s : State} (hpolicy : s.on SEC_DBG_POLICY_HALT = true)
    (hrun : s.on (ENG_DBG_HALTED g) = false) (hnone : (s.eng g).haltReq = none) :
    ((haltRequest g cause hit s).eng g).haltReq = some (cause, hit) := by
  unfold haltRequest
  extract_lets e u
  rw [if_neg (by simp [hpolicy, hrun, e, hnone]), eng_puts, eng_wakePart, eng_setEng_same]

/-- A request that waits stands. -/
theorem haltRequest_stands {g cause hit : Nat} {s : State} (h : (s.eng g).haltReq.isSome = true) : haltRequest g cause hit s = s := by
  simp only [haltRequest, h, Bool.or_true, if_true]

theorem eng_haltRequest_other {g h : Nat} (hne : g ≠ h) (cause hit : Nat) (s : State) : (haltRequest h cause hit s).eng g = s.eng g := by
  unfold haltRequest
  extract_lets e u
  split
  · rfl
  · rw [eng_puts, eng_wakePart, eng_setEng_other s h g _ hne]

/-- Every engine of a list that runs and has no request has one after a request to all. -/
theorem haltAll_waits (cause g : Nat) : ∀ (l : List Nat) {s : State}, s.on SEC_DBG_POLICY_HALT = true → s.on (ENG_DBG_HALTED g) = false →
    (g ∈ l ∧ (s.eng g).haltReq = none) ∨ (s.eng g).haltReq = some (cause, 0) → ((haltAll cause l s).eng g).haltReq = some (cause, 0)
  | [], s, _, _, h => h.resolve_left (by simp)
  | h :: l, s, hpolicy, hrun, hreq => by
    refine haltAll_waits cause g l ((policy_haltRequest h cause 0 s).trans hpolicy) ((halted_haltRequest g h cause 0 s).trans hrun) ?_
    by_cases hne : g = h
    · subst hne
      rcases hreq with ⟨-, hnone⟩ | hsome
      · exact .inr (haltRequest_waits cause 0 hpolicy hrun hnone)
      · rw [haltRequest_stands (by simp [hsome])]
        exact .inr hsome
    · rw [eng_haltRequest_other hne]
      exact hreq.imp_left fun ⟨hmem, hnone⟩ => ⟨(List.mem_cons.mp hmem).resolve_left hne, hnone⟩

/-! A halted engine goes on (R383). -/

theorem halted_thawWatchdog {g : Nat} {load count : Fld} (h : (ENG_DBG_HALTED g).key ≠ count.key) (least : Nat) (s : State) :
    (thawWatchdog load count least s).get (ENG_DBG_HALTED g) = s.get (ENG_DBG_HALTED g) := by
  unfold thawWatchdog
  split
  · rfl
  · exact get_put_other s _ _ _ h

theorem eng_thawWatchdog (load count : Fld) (least : Nat) (s : State) (g : Nat) : (thawWatchdog load count least s).eng g = s.eng g := by
  unfold thawWatchdog
  split <;> rfl

/-- The state of a halted engine that goes on, before the watchdogs do. -/
def goesOn (step : Bool) (g : Nat) (s : State) : State :=
  (s.setEng g { s.eng g with resumed := true, stepping := step, stepBegun := false }).puts [(ENG_DBG_HALTED g, 0), (ENG_STATUS_STATE g, 1)]

/-- Going on is the engine's own change, whatever the watchdogs do. -/
theorem resumeEngine_goesOn {step : Bool} {h : Nat} {s : State} (hhalted : s.on (ENG_DBG_HALTED h) = true) (hfeed : (s.eng h).feeding = false)
    (g : Nat) : (resumeEngine step h s).get (ENG_DBG_HALTED g) = (goesOn step h s).get (ENG_DBG_HALTED g) ∧
      (resumeEngine step h s).eng g = (goesOn step h s).eng g := by
  unfold resumeEngine
  rw [if_neg (by simp [hhalted, hfeed])]
  extract_lets e u v w
  have hw : w.get (ENG_DBG_HALTED g) = v.get (ENG_DBG_HALTED g) ∧ w.eng g = v.eng g := by
    unfold w
    split
    · exact ⟨rfl, rfl⟩
    · exact ⟨halted_thawWatchdog (halted_apart g h).2.2.2 _ v, eng_thawWatchdog _ _ _ v g⟩
  split
  · exact ⟨(halted_thawWatchdog (crewWatchdog_ne_halted _ g) _ w).trans hw.1, (eng_thawWatchdog _ _ _ w g).trans hw.2⟩
  · exact hw

theorem goesOn_halted (step : Bool) (g : Nat) (s : State) : (goesOn step g s).get (ENG_DBG_HALTED g) = 0 := by
  rw [goesOn, get_puts_last _ _ _ _ (by simpa using (halted_ne g).1)]
  rfl

theorem goesOn_eng (step : Bool) (g : Nat) (s : State) : ((goesOn step g s).eng g).stepping = step := by
  have h : (goesOn step g s).eng g = { s.eng g with resumed := true, stepping := step, stepBegun := false } := eng_setEng_same s g _
  rw [h]

theorem resumeEngine_runs {step : Bool} {g : Nat} {s : State} (hhalted : s.on (ENG_DBG_HALTED g) = true) (hfeed : (s.eng g).feeding = false) :
    (resumeEngine step g s).on (ENG_DBG_HALTED g) = false ∧ ((resumeEngine step g s).eng g).stepping = step := by
  obtain ⟨hget, heng⟩ := resumeEngine_goesOn (step := step) hhalted hfeed g
  rw [State.on, hget, goesOn_halted, heng, goesOn_eng]
  exact ⟨rfl, rfl⟩

theorem goesOn_other {g h : Nat} (hne : g ≠ h) (step : Bool) (s : State) :
    (goesOn step h s).get (ENG_DBG_HALTED g) = s.get (ENG_DBG_HALTED g) ∧ (goesOn step h s).eng g = s.eng g := by
  constructor
  · refine get_puts_other (ENG_DBG_HALTED g) _ (s.setEng h _) ?_
    simpa using ⟨engineKeys_ne hne (halted_engineKey g) (halted_engineKey h), (halted_apart g h).1⟩
  · exact (eng_puts _ _ g).trans (eng_setEng_other s h g _ hne)

/-- An engine that is not halted, or takes no part in a feed, goes on when it is released; others are as they were. -/
theorem resumeEngine_other {g h : Nat} (hne : g ≠ h) (step : Bool) (s : State) :
    (resumeEngine step h s).on (ENG_DBG_HALTED g) = s.on (ENG_DBG_HALTED g) ∧ (resumeEngine step h s).eng g = s.eng g := by
  by_cases hcond : (!s.on (ENG_DBG_HALTED h) || (s.eng h).feeding) = true
  · simp only [resumeEngine, hcond, if_true, and_self]
  · simp only [Bool.or_eq_true, Bool.not_eq_true', not_or, Bool.not_eq_false, Bool.not_eq_true] at hcond
    obtain ⟨hget, heng⟩ := resumeEngine_goesOn (step := step) hcond.1 hcond.2 g
    obtain ⟨hget', heng'⟩ := goesOn_other hne step s
    exact ⟨by rw [State.on, State.on, hget, hget'], heng.trans heng'⟩

theorem resumeEngine_running {g : Nat} {s : State} (h : s.on (ENG_DBG_HALTED g) = false) (step : Bool) : resumeEngine step g s = s := by
  simp only [resumeEngine, h, Bool.not_false, Bool.true_or, if_true]

/-- A request not yet taken is cancelled. -/
def cancelRequest (h : Nat) (s : State) : State :=
  if (s.eng h).haltReq.isSome then
    (s.setEng h { s.eng h with haltReq := none, haltForce := false }).puts [(ENG_DBG_PENDING h, 0), (ENG_DBG_DEFERRED h, 0)]
  else s

theorem releaseEngine_eq (s : State) (h : Nat) : releaseEngine s h = resumeEngine false h (cancelRequest h s) := rfl

theorem cancelRequest_keeps (g h : Nat) (s : State) : (cancelRequest h s).on (ENG_DBG_HALTED g) = s.on (ENG_DBG_HALTED g) ∧
    ((cancelRequest h s).eng g).feeding = (s.eng g).feeding := by
  unfold cancelRequest
  split
  · constructor
    · obtain ⟨-, hp, hd, -⟩ := halted_apart g h
      simp only [State.on]
      rw [get_puts_other (ENG_DBG_HALTED g) _ _ (by simpa using ⟨hp, hd⟩)]
      rfl
    · rw [eng_puts]
      by_cases hne : g = h
      · subst hne
        rw [eng_setEng_same]
      · rw [eng_setEng_other s h g _ hne]
  · exact ⟨rfl, rfl⟩

/-- A release lets engine `g` go on: it does not execute a fed instruction while it is halted. -/
def MayGoOn (g : Nat) (s : State) : Prop := s.on (ENG_DBG_HALTED g) = true → (s.eng g).feeding = false

theorem releaseEngine_runs {g : Nat} {s : State} (h : MayGoOn g s) : (releaseEngine s g).on (ENG_DBG_HALTED g) = false := by
  obtain ⟨hhalt, hfeed⟩ := cancelRequest_keeps g g s
  rw [releaseEngine_eq]
  cases hon : s.on (ENG_DBG_HALTED g) with
  | true => exact (resumeEngine_runs (hhalt.trans hon) (hfeed.trans (h hon))).1
  | false =>
    rw [resumeEngine_running (hhalt.trans hon)]
    exact hhalt.trans hon

theorem releaseEngine_other {g h : Nat} (hne : g ≠ h) (s : State) : (releaseEngine s h).on (ENG_DBG_HALTED g) = s.on (ENG_DBG_HALTED g) ∧
    ((releaseEngine s h).eng g).feeding = (s.eng g).feeding := by
  obtain ⟨hhalt, hfeed⟩ := cancelRequest_keeps g h s
  obtain ⟨hhalt', heng⟩ := resumeEngine_other hne false (cancelRequest h s)
  rw [releaseEngine_eq, hhalt', heng]
  exact ⟨hhalt, hfeed⟩

/-- Every engine of a list that may go on runs after a release of all. -/
theorem releaseEngines_run (g : Nat) : ∀ (l : List Nat) {s : State}, MayGoOn g s → g ∈ l ∨ s.on (ENG_DBG_HALTED g) = false →
    (l.foldl releaseEngine s).on (ENG_DBG_HALTED g) = false
  | [], _, _, h => h.resolve_left (by simp)
  | h :: l, s, hmay, hreach => by
    rw [List.foldl_cons]
    by_cases hne : g = h
    · subst hne
      have hruns := releaseEngine_runs hmay
      exact releaseEngines_run g l (fun hon => absurd (hruns.symm.trans hon) (by decide)) (.inr hruns)
    · obtain ⟨hhalt, hfeed⟩ := releaseEngine_other hne s
      refine releaseEngines_run g l (fun hon => hfeed.trans (hmay (hhalt.symm.trans hon))) ?_
      exact hreach.imp (fun hmem => (List.mem_cons.mp hmem).resolve_left hne) hhalt.trans

/-! ENG_DBG_CTRL and ENG_DBG_PC (R379, R380, R383). -/

theorem settings_testBit : ∀ (hor ie : Bool), ∀ act < 4, ∀ i < 4,
    (hor.toNat * 2 ^ 8 + ie.toNat * 2 ^ 4 + 2 ^ act).testBit i = decide (i = act) := by decide

theorem engDbgWith_testBit (s : State) (g : Nat) {act i : Nat} (hact : act < 4) (hi : i < 4) :
    (engDbgWith s g act).testBit i = decide (i = act) := settings_testBit _ _ act hact i hi

/-- The settings of ENG_DBG_CTRL are written, and nothing that its actions look at differs. -/
theorem settingsWritten (g v : Nat) (s : State) : let t := writeReg s (engDbgAt g 0) v
    (∀ h, t.eng h = s.eng h) ∧ t.on (ENG_DBG_HALTED g) = s.on (ENG_DBG_HALTED g) ∧ t.on SEC_DBG_POLICY_HALT = s.on SEC_DBG_POLICY_HALT := by
  refine ⟨eng_writeReg s _ v, on_writeReg_other ?_ s v, on_writeReg_other ?_ s v⟩
  · simp only [ENG_DBG_HALTED, engDbgAt]
    omega
  · have := engBase_place g
    simp only [SEC_DBG_POLICY_HALT, engDbgAt]
    omega

theorem writeEngDbg_halt {g v : Nat} (h0 : v.testBit 0 = true) (h1 : v.testBit 1 = false) (h2 : v.testBit 2 = false) (h3 : v.testBit 3 = false)
    (s : State) : writeEngDbg g v s = haltRequest g 1 0 (writeReg s (engDbgAt g 0) v) := by
  simp [writeEngDbg, h0, h1, h2, h3]

theorem writeEngDbg_resume {g v : Nat} (h0 : v.testBit 0 = false) (h1 : v.testBit 1 = true) (h2 : v.testBit 2 = false) (h3 : v.testBit 3 = false)
    (s : State) : writeEngDbg g v s = resumeEngine false g (writeReg s (engDbgAt g 0) v) := by
  simp [writeEngDbg, h0, h1, h2, h3]

theorem writeEngDbg_step {g v : Nat} (h0 : v.testBit 0 = false) (h1 : v.testBit 1 = false) (h2 : v.testBit 2 = true) (h3 : v.testBit 3 = false)
    {s : State} (hp : s.on SEC_DBG_POLICY_HALT = true) : writeEngDbg g v s = resumeEngine true g (writeReg s (engDbgAt g 0) v) := by
  have hpolicy := (settingsWritten g v s).2.2.trans hp
  simp [writeEngDbg, h0, h1, h2, h3, hpolicy]

theorem writeEngDbg_force {g v : Nat} (h0 : v.testBit 0 = false) (h1 : v.testBit 1 = false) (h2 : v.testBit 2 = false) (h3 : v.testBit 3 = true)
    (s : State) : writeEngDbg g v s = forceHalt g (writeReg s (engDbgAt g 0) v) := by
  simp [writeEngDbg, h0, h1, h2, h3]

theorem forceHalt_forced {g : Nat} {s : State} (h : (s.eng g).haltReq.isSome = true) : ((forceHalt g s).eng g).haltForce = true := by
  rw [forceHalt, if_pos h, eng_setEng_same]

/-- A program counter's two lowest bits are zero (R383). -/
theorem pc_aligned (data : Word) : BitVec.ofNat 32 (data.toNat / 4 * 4) = data &&& 0xFFFFFFFC#32 := by
  have hmask : ∀ i < 32, (0xFFFFFFFC#32).getLsbD i = decide (2 ≤ i) := by decide
  refine BitVec.eq_of_getLsbD_eq fun i hi => ?_
  rw [BitVec.getLsbD_and, hmask i hi, BitVec.getLsbD_ofNat, show data.toNat / 4 * 4 = data.toNat >>> 2 <<< 2 by
    rw [Nat.shiftRight_eq_div_pow, Nat.shiftLeft_eq]]
  simp only [Nat.testBit_shiftLeft, Nat.testBit_shiftRight, hi, decide_true, Bool.true_and, BitVec.testBit_toNat]
  by_cases h : 2 ≤ i
  · rw [Nat.add_sub_cancel' h]
    simp [h]
  · simp [h]

theorem writeEngDbgPc_pc {g : Nat} {s : State} (hhalted : s.on (ENG_DBG_HALTED g) = true) (hmem : s.on SEC_DBG_POLICY_MEM = true)
    (data : Word) : ((writeEngDbgPc g data.toNat s).eng g).pc = data &&& 0xFFFFFFFC#32 := by
  rw [writeEngDbgPc, if_neg (by simp [hhalted, hmem]), eng_puts, eng_setEng_same]
  exact pc_aligned data

/-! A fed instruction (R382) and a halt that is taken (R380). -/

theorem feed_done {g : Eng} {i : Yz} {s u : State} {flow : Flow} {acc : List Access}
    (h : perform g i (s.setEng g { s.eng g with feeding := true }) = .done flow acc u) :
    (feed g i s).eng g = { (u.eng g).complete with feeding := false } := by
  simp only [feed, h, endFeed]
  exact eng_setEng_same u g _

theorem xtChannels_none {src : Nat} : ∀ (l : List Nat) {s : State}, (∀ c ∈ l, s.bit (DBG_XT_IN_SRC c) src = false) → xtChannels src l s = s
  | [], _, _ => rfl
  | c :: l, s, h => by
    rw [xtChannels, h c List.mem_cons_self]
    exact xtChannels_none l (fun d hd => h d (List.mem_cons_of_mem _ hd))

theorem xtSource_none {src : Nat} {s : State} (h : NoTrigger src s) : xtSource src s = s := by
  unfold xtSource
  split
  · exact xtChannels_none _ (fun c hc => h c (List.mem_range.mp hc))
  · rfl

theorem triggerSource_hubKey {c : Nat} (hc : c < 8) : HubKey (DBG_XT_IN_SRC c).key := by
  simp only [DBG_XT_IN_SRC]
  omega

/-- The fields of ENG_STATUS and ENG_DBG that a halt replaces. -/
def haltFields (g cause hit : Nat) (forced broken : Bool) (e : Engine) : List (Fld × Nat) :=
  [(ENG_DBG_CAUSE g, cause), (ENG_DBG_HIT g, hit), (ENG_DBG_FEED_BUSY g, 0), (ENG_DBG_IN_SLOT g, e.slot.isSome.toNat),
    (ENG_DBG_RSV_BROKEN g, broken.toNat), (ENG_DBG_FORCED g, forced.toNat), (ENG_DBG_PENDING g, 0), (ENG_DBG_PC g, e.pc.toNat / 4),
    (ENG_DBG_TGT g, match e.slot with | some (t, _) => t.toNat | none => 0),
    (ENG_DBG_LEFT g, match e.rep with | some r => r.count - r.done | none => 0)]

theorem haltFields_keys (g cause hit : Nat) (forced broken : Bool) (e : Engine) :
    ∀ x ∈ haltFields g cause hit forced broken e, EngineKey g x.1.key ∧ (ENG_DBG_HALTED g).key ≠ x.1.key ∧ (ENG_STATUS_STATE g).key ≠ x.1.key := by
  simp only [haltFields, List.forall_mem_cons, List.not_mem_nil, false_imp_iff, implies_true, and_true, ENG_DBG_HALTED, ENG_STATUS_STATE,
    ENG_DBG_CAUSE, ENG_DBG_HIT, ENG_DBG_FEED_BUSY, ENG_DBG_IN_SLOT, ENG_DBG_RSV_BROKEN, ENG_DBG_FORCED, ENG_DBG_PENDING, ENG_DBG_PC,
    ENG_DBG_TGT, ENG_DBG_LEFT]
  omega

/-- The engine halts (R379) where no trigger follows. -/
theorem takeHalt_halted (g cause hit : Nat) (forced : Bool) {s : State} (h1 : NoTrigger 1 s) (h2 : NoTrigger 2 s) :
    (takeHalt g cause hit forced s).on (ENG_DBG_HALTED g) = true ∧ (takeHalt g cause hit forced s).get (ENG_STATUS_STATE g) = 3 := by
  unfold takeHalt
  extract_lets e broken complete u v
  have hkeys := haltFields_keys g cause hit forced broken e
  have hv : v = ((u.put (ENG_STATUS_STATE g) 3).put (ENG_DBG_HALTED g) 1).puts (haltFields g cause hit forced broken e) := rfl
  have hquiet : ∀ src, NoTrigger src s → NoTrigger src v := fun src h c hc => by
    have hne := fun {k : Nat} (hk : EngineKey g k) => engineKey_hubKey_ne hk (triggerSource_hubKey hc)
    rw [State.bit, hv, get_puts_other _ _ _ (fun x hx => hne (hkeys x hx).1), get_put_other _ _ _ _ (hne (halted_engineKey g)),
      get_put_other _ _ _ _ (hne (engineStatus_engineKeys g).1)]
    exact h c hc
  have hhalted : v.on (ENG_DBG_HALTED g) = true ∧ v.get (ENG_STATUS_STATE g) = 3 := by
    constructor
    · rw [State.on, hv, get_puts_other _ _ _ (fun x hx => (hkeys x hx).2.1), get_put_same]
      rfl
    · rw [hv, get_puts_other _ _ _ (fun x hx => (hkeys x hx).2.2), get_put_other _ _ _ _ (halted_ne g).1.symm, get_put_same]
      rfl
  split
  · split
    · rw [xtSource_none (hquiet 1 h1)]
      exact hhalted
    · exact hhalted
  · rw [xtSource_none (hquiet 2 h2)]
    exact hhalted

/-! Islands (R387) and triggers (R388, R389). -/

theorem writeIslHalt_halts {d v : Nat} (hv : v < 2 ^ 32) {s : State} (hpolicy : s.on SEC_DBG_POLICY_HALT = true) :
    (writeIslHalt d v s).get (DBG_ISL_HALT_SEC d) = v := by
  have hw (f) : ((s.put (DBG_ISL_HALT_SEC d) v).onDebug f).get (DBG_ISL_HALT_SEC d) = v :=
    (get_put_same s _ v).trans (Nat.mod_eq_of_lt hv)
  simp only [writeIslHalt, hpolicy, if_true]
  split
  · refine ((frame_wakePart d _).get (DBG_ISL_HALT_SEC d) ?_).trans (hw _)
    simp only [List.map_cons, List.map_nil, List.mem_singleton, DBG_ISL_HALT_SEC, PWR_PART_STATE]
    omega
  · exact hw _

/-- The sector that a write of DBG_ISL_STEP names. -/
theorem stepSector (data : Word) : 32 * slice data.toNat 30 2 + slice data.toNat 25 5 = 32 * (data.toNat / 2 ^ 30) + data.toNat / 2 ^ 25 % 32 := by
  have := data.isLt
  simp only [slice, Nat.shiftRight_eq_div_pow]
  omega

theorem writeIslStep_steps {data : Word} {s : State} (hpolicy : s.on SEC_DBG_POLICY_HALT = true) (hn : data.toNat % 256 ≠ 0)
    (hhalt : islHalted s (32 * (data.toNat / 2 ^ 30) + data.toNat / 2 ^ 25 % 32) = true) :
    smGet 0 (writeIslStep data.toNat s).dbg.isl (leaderOf s (32 * (data.toNat / 2 ^ 30) + data.toNat / 2 ^ 25 % 32)) = data.toNat % 256 := by
  rw [writeIslStep, stepSector, hhalt, hpolicy, if_neg (by simpa using hn)]
  exact smGet_smSet_same _ _ _ _

/-- A channel that fires with the action bit 0 alone drives TRIG_OUT. -/
theorem xtFire_trigOut {c : Nat} {s : State} (hact : s.get (DBG_XT_OUT_ACT c) = 1) (hlast : smGet 0 s.dbg.xtLast c = 0) :
    Out.trigOut ∈ (xtFire c s).out ∧ (xtFire c s).regs = s.regs := by
  have hbits : Nat.testBit 1 0 = true ∧ Nat.testBit 1 1 = false ∧ Nat.testBit 1 2 = false ∧ Nat.testBit 1 3 = false ∧ Nat.testBit 1 4 = false ∧
    Nat.testBit 1 5 = false := by decide
  obtain ⟨b0, b1, b2, b3, b4, b5⟩ := hbits
  simp [xtFire, hact, hlast, xtActions, b0, b1, b2, b3, b4, b5, State.emit]

/-- Where one channel of a list selects the source and drives TRIG_OUT, TRIG_OUT is driven. -/
theorem xtChannels_trigOut {src c : Nat} : ∀ (l : List Nat) {s : State}, (∀ d ∈ l, s.bit (DBG_XT_IN_SRC d) src = decide (d = c)) → c ∈ l →
    s.get (DBG_XT_OUT_ACT c) = 1 → smGet 0 s.dbg.xtLast c = 0 → l.Nodup → Out.trigOut ∈ (xtChannels src l s).out
  | [], _, _, hc, _, _, _ => absurd hc (by simp)
  | d :: l, s, hsel, hc, hact, hlast, hnodup => by
    obtain ⟨hnotin, hnodup⟩ := List.nodup_cons.mp hnodup
    rw [xtChannels, hsel d List.mem_cons_self]
    by_cases hd : d = c
    · subst hd
      have hrest : ∀ t : State, t.regs = s.regs → ∀ e ∈ l, t.bit (DBG_XT_IN_SRC e) src = false := fun t ht e he => by
        have hne : e ≠ d := fun h => hnotin (h ▸ he)
        have := hsel e (List.mem_cons_of_mem _ he)
        simp only [hne, decide_false] at this
        simpa only [State.bit, State.get, ht] using this
      simp only [decide_true, if_true]
      obtain ⟨hout, hregs⟩ := xtFire_trigOut hact hlast
      rw [xtChannels_none l (hrest _ hregs)]
      exact hout
    · rw [decide_eq_false hd]
      exact xtChannels_trigOut l (fun e he => hsel e (List.mem_cons_of_mem _ he)) ((List.mem_cons.mp hc).resolve_left (Ne.symm hd)) hact hlast hnodup

end Sys2Proof.Machine
end

section
/-! PROOFS. The debug commands complete with their effect on the engine, island or channel that they name, and O60 is assembled. -/

namespace Sys2Proof.Machine

/-! The engine's own debug block (R379, R380, R382, R383). -/

theorem engDbgHalt_waits {s : State} {req : Requester} {g : Eng} (h : regGate s req (engBase g + 0x800) 4 true = .reach)
    (hpolicy : s.on SEC_DBG_POLICY_HALT = true) (hrun : s.on (ENG_DBG_HALTED g) = false) (hnone : (s.eng g).haltReq = none) :
    Ends (.engDbgHalt req g) s fun t => (t.eng g).haltReq = some (1, 0) := by
  refine ends_guardedWrite h (fun s => writeEngDbg g (engDbgWith s g 0) s) ?_ rfl
  have hbit := fun {i : Nat} (hi : i < 4) => engDbgWith_testBit s.begin g (act := 0) (by decide) hi
  obtain ⟨heng, hhalted, hpol⟩ := settingsWritten g (engDbgWith s.begin g 0) s.begin
  show ((writeEngDbg g (engDbgWith s.begin g 0) s.begin).eng g).haltReq = _
  rw [writeEngDbg_halt (hbit (by decide)) (hbit (by decide)) (hbit (by decide)) (hbit (by decide))]
  refine haltRequest_waits 1 0 (hpol.trans hpolicy) (hhalted.trans hrun) ?_
  rw [heng g]
  exact hnone

theorem engDbgForce_forces {s : State} {req : Requester} {g : Eng} (h : regGate s req (engBase g + 0x800) 4 true = .reach)
    (hreq : (s.eng g).haltReq.isSome = true) : Ends (.engDbgForce req g) s fun t => (t.eng g).haltForce = true := by
  refine ends_guardedWrite h (fun s => writeEngDbg g (engDbgWith s g 3) s) ?_ rfl
  have hbit := fun {i : Nat} (hi : i < 4) => engDbgWith_testBit s.begin g (act := 3) (by decide) hi
  obtain ⟨heng, -, -⟩ := settingsWritten g (engDbgWith s.begin g 3) s.begin
  show ((writeEngDbg g (engDbgWith s.begin g 3) s.begin).eng g).haltForce = true
  rw [writeEngDbg_force (hbit (by decide)) (hbit (by decide)) (hbit (by decide)) (hbit (by decide))]
  refine forceHalt_forced ?_
  rw [heng g]
  exact hreq

theorem engDbgResume_runs {s : State} {req : Requester} {g : Eng} (h : regGate s req (engBase g + 0x800) 4 true = .reach)
    (hhalted : s.on (ENG_DBG_HALTED g) = true) (hfeed : (s.eng g).feeding = false) :
    Ends (.engDbgResume req g) s fun t => t.on (ENG_DBG_HALTED g) = false ∧ (t.eng g).stepping = false := by
  refine ends_guardedWrite h (fun s => writeEngDbg g (engDbgWith s g 1) s) ?_ rfl
  have hbit := fun {i : Nat} (hi : i < 4) => engDbgWith_testBit s.begin g (act := 1) (by decide) hi
  obtain ⟨heng, hhalt, -⟩ := settingsWritten g (engDbgWith s.begin g 1) s.begin
  show (writeEngDbg g (engDbgWith s.begin g 1) s.begin).on (ENG_DBG_HALTED g) = false ∧
    ((writeEngDbg g (engDbgWith s.begin g 1) s.begin).eng g).stepping = false
  rw [writeEngDbg_resume (hbit (by decide)) (hbit (by decide)) (hbit (by decide)) (hbit (by decide))]
  refine resumeEngine_runs (hhalt.trans hhalted) ?_
  rw [heng g]
  exact hfeed

theorem engDbgStep_steps {s : State} {req : Requester} {g : Eng} (h : regGate s req (engBase g + 0x800) 4 true = .reach)
    (hhalted : s.on (ENG_DBG_HALTED g) = true) (hfeed : (s.eng g).feeding = false) (hpolicy : s.on SEC_DBG_POLICY_HALT = true) (ie : Bool) :
    Ends (.engDbgStep req g ie) s fun t => t.on (ENG_DBG_HALTED g) = false ∧ (t.eng g).stepping = true := by
  refine ends_guardedWrite h (fun s => writeEngDbg g (withBit (engDbgWith s g 2) 4 ie) s) ?_ rfl
  have hbit : ∀ {i : Nat}, i < 4 → (withBit (engDbgWith s.begin g 2) 4 ie).testBit i = decide (i = 2) := fun hi =>
    (testBit_withBit_other _ _ _ _ (by omega)).trans (engDbgWith_testBit s.begin g (by decide) hi)
  obtain ⟨heng, hhalt, -⟩ := settingsWritten g (withBit (engDbgWith s.begin g 2) 4 ie) s.begin
  show (writeEngDbg g (withBit (engDbgWith s.begin g 2) 4 ie) s.begin).on (ENG_DBG_HALTED g) = false ∧
    ((writeEngDbg g (withBit (engDbgWith s.begin g 2) 4 ie) s.begin).eng g).stepping = true
  rw [writeEngDbg_step (hbit (by decide)) (hbit (by decide)) (hbit (by decide)) (hbit (by decide)) (s := s.begin) hpolicy]
  refine resumeEngine_runs (hhalt.trans hhalted) ?_
  rw [heng g]
  exact hfeed

theorem engDbgPcWrite_sets {s : State} {req : Requester} {g : Eng} (h : regGate s req (engBase g + 0x808) 4 true = .reach)
    (hhalted : s.on (ENG_DBG_HALTED g) = true) (hmem : s.on SEC_DBG_POLICY_MEM = true) (data : Word) :
    Ends (.engDbgPcWrite req g data) s fun t => (t.eng g).pc = data &&& 0xFFFFFFFC#32 :=
  ends_guardedWrite (addr := engDbgAt g 8) h (writeEngDbgPc g data.toNat) (writeEngDbgPc_pc (s := s.begin) hhalted hmem data) rfl

theorem writeEngInstr_feeds {s : State} {g : Eng} {word : Word} {i : Yz} (hhalted : s.on (ENG_DBG_HALTED g) = true)
    (hfeed : (s.eng g).feeding = false) (hmem : s.on SEC_DBG_POLICY_MEM = true) (hdec : decodeYezar word = some i)
    (hdef : i.isDefined = true) (hmay : notFed i = false) : writeEngInstr g word s = feed g i s := by
  simp [writeEngInstr, hhalted, hfeed, hmem, hdec, hdef, hmay]

theorem instructionFeed_acts {s : State} {req : Requester} {g : Eng} (h : regGate s req (engBase g + 0x814) 4 true = .reach)
    (hhalted : s.on (ENG_DBG_HALTED g) = true) (hmem : s.on SEC_DBG_POLICY_MEM = true) (hfeed : (s.eng g).feeding = false) {word : Word} {i : Yz}
    (hdec : decodeYezar word = some i) (hdef : i.isDefined = true) (hmay : notFed i = false) {flow : Flow} {acc : List Access} {u : State}
    (hperf : perform g i (s.begin.setEng g { s.eng g with feeding := true }) = .done flow acc u) :
    Ends (.instructionFeed req g word) s fun t => t.eng g = { (u.eng g).complete with feeding := false } := by
  refine ends_guardedWrite (addr := engDbgAt g 0x14) h (writeEngInstr g word) ?_ rfl
  rw [writeEngInstr_feeds (s := s.begin) hhalted hfeed hmem hdec hdef hmay]
  exact feed_done (s := s.begin) hperf

theorem haltForceTimeout_forces {s : State} {g : Eng} (h : (s.eng g).haltReq.isSome = true) :
    Ends (.haltForceTimeout g) s fun t => (t.eng g).haltForce = true :=
  ⟨forceHalt g s.begin, rfl, forceHalt_forced (s := s.begin) h⟩

theorem engineHaltTaken_halts {s : State} {g : Eng} {next : Option Yz} (hreq : (s.eng g).haltReq.isSome = true) (hcan : canHalt s g = true)
    (hwaits : haltWaits s g next = true) (h1 : NoTrigger 1 s) (h2 : NoTrigger 2 s) :
    Ends (.engineHaltTaken g next) s fun t => t.on (ENG_DBG_HALTED g) = true ∧ t.get (ENG_STATUS_STATE g) = 3 := by
  obtain ⟨⟨cause, hit⟩, hsome⟩ := Option.isSome_iff_exists.mp hreq
  refine ⟨takeHalt g cause hit ((s.eng g).rep.isSome || (s.eng g).atom.isSome) s.begin, ?_, takeHalt_halted g cause hit _ (s := s.begin) h1 h2⟩
  have hs : (s.begin.eng g).haltReq = some (cause, hit) := hsome
  have hc : canHalt s.begin g = true := hcan
  have hw : haltWaits s.begin g next = true := hwaits
  show execEngineHaltTaken g next s = _
  simp only [execEngineHaltTaken, hs, hc, hw]
  rfl

/-! The hub's debug block (R386 to R389). -/

theorem dbgCrewHalt_waits {s : State} {req : Requester} {data : Word} (h : regGate s req 0x0300000B0010 4 true = .reach)
    (hpolicy : s.on SEC_DBG_POLICY_HALT = true) : Ends (.dbgCrewHalt req data) s fun t => ∀ g ∈ namedEngines data.toNat,
      s.on (ENG_DBG_HALTED g) = false → (s.eng g).haltReq = none → (t.eng g).haltReq = some (2, 0) :=
  ends_guardedWrite h (crewHalt data.toNat)
    (fun g hg hrun hnone => haltAll_waits 2 g (namedEngines data.toNat) (s := s.begin) hpolicy hrun (.inl ⟨hg, hnone⟩)) rfl

theorem dbgCrewResume_runs {s : State} {req : Requester} {data : Word} (h : regGate s req 0x0300000B0014 4 true = .reach) :
    Ends (.dbgCrewResume req data) s fun t => ∀ g ∈ namedEngines data.toNat,
      s.on (ENG_DBG_HALTED g) = true → (s.eng g).feeding = false → t.on (ENG_DBG_HALTED g) = false :=
  ends_guardedWrite h (crewResume data.toNat)
    (fun g hg _ hfeed => releaseEngines_run g (namedEngines data.toNat) (s := s.begin) (fun _ => hfeed) (.inl hg)) rfl

theorem dbgIslHalt_halts {s : State} {req : Requester} {die : Fin 4} {data : Word}
    (h : regGate s req (0x0300000B0020 + die.val * 4) 4 true = .reach) (hpolicy : s.on SEC_DBG_POLICY_HALT = true) :
    Ends (.dbgIslHalt req die data) s fun t => t.get (DBG_ISL_HALT_SEC die) = data.toNat :=
  ends_guardedWrite h (writeIslHalt die data.toNat) (writeIslHalt_halts (s := s.begin) data.isLt hpolicy) rfl

theorem dbgIslStep_steps {s : State} {req : Requester} {data : Word} (h : regGate s req 0x0300000B0030 4 true = .reach)
    (hpolicy : s.on SEC_DBG_POLICY_HALT = true) (hn : data.toNat % 256 ≠ 0)
    (hhalt : islHalted s (32 * (data.toNat / 2 ^ 30) + data.toNat / 2 ^ 25 % 32) = true) :
    Ends (.dbgIslStep req data) s fun t =>
      smGet 0 t.dbg.isl (leaderOf s (32 * (data.toNat / 2 ^ 30) + data.toNat / 2 ^ 25 % 32)) = data.toNat % 256 :=
  ends_guardedWrite h (writeIslStep data.toNat) (writeIslStep_steps (s := s.begin) hpolicy hn hhalt) rfl

theorem trigIn_drives {s : State} {c : Fin 8} (hact : s.get (DBG_XT_OUT_ACT c) = 1) (hlast : smGet 0 s.dbg.xtLast c = 0)
    (hruns : runs s 184 = true) (hsel : ∀ d < 8, s.bit (DBG_XT_IN_SRC d) 0 = decide (d = c.val)) :
    Ends .trigIn s fun t => Out.trigOut ∈ t.out := by
  refine ⟨xtSource 0 s.begin, rfl, ?_⟩
  have hr : runs s.begin 184 = true := hruns
  rw [xtSource, if_pos hr]
  exact xtChannels_trigOut (List.range 8) (s := s.begin) (fun d hd => hsel d (List.mem_range.mp hd)) (List.mem_range.mpr c.isLt) hact hlast
    List.nodup_range

theorem pulse_channels : ∀ c : Fin 8, (List.range 8).filter (2 ^ c.val).testBit = [c.val] := by decide

theorem dbgXtPulse_drives {s : State} {req : Requester} {data : BitVec 8} {c : Fin 8} (h : regGate s req 0x0300000B0248 4 true = .reach)
    (hdata : data.toNat = 2 ^ c.val) (hact : s.get (DBG_XT_OUT_ACT c) = 1) (hlast : smGet 0 s.dbg.xtLast c = 0)
    (hsel : s.bit (DBG_XT_IN_SRC c) 6 = true) : Ends (.dbgXtPulse req data) s fun t => Out.trigOut ∈ t.out := by
  refine ends_guardedWrite h (xtPulse data.toNat) ?_ rfl
  have hmem : Out.trigOut ∈ (xtPulse data.toNat s.begin).out := by
    rw [xtPulse, hdata, pulse_channels]
    exact xtChannels_trigOut [c.val] (s := s.begin) (List.forall_mem_singleton.mpr (hsel.trans (decide_eq_true rfl).symm)) (by simp) hact hlast (by simp)
  exact List.mem_append_left _ hmem

/-- Settles O60, command by command: every reset is `startReset_begun`, every debug command the lemma about its operation. -/
theorem resetsPartialLoadsAndHaltsTakeEffect : Obligations.ResetsPartialLoadsAndHaltsTakeEffect := by
  unfold Obligations.ResetsPartialLoadsAndHaltsTakeEffect
  intro s _ begun
  refine ⟨fun ns h => resetNLow_begins h, fun h => hubWdtExpiry_begins h, fun req => ⟨fun h => rstCtrlWarm_begins h, fun h => dbgRstWarm_begins h⟩,
    fun hrun _ => ⟨fun req part hpart => ⟨fun h => rstCtrlPartition_begins hpart hrun h, fun h => dbgRstPartition_begins hpart hrun h⟩,
      fun n h => chWdt_begins hrun h⟩,
    fun req h => ⟨fun store hb hs hl => prGo_begins h store hb hs hl, fun hb hp => prAbort_fails h hb hp⟩,
    fun l hload hpart => ⟨fun tag sha shake d hsigned hdecl => prFinalChecks_effect hload hpart hsigned hdecl tag sha shake d,
      fun hdecl hphase hclear => prFramesWritten_effect hload hpart hdecl hphase hclear⟩, ?_, ?_, ?_⟩
  · exact fun req g => ⟨fun h => ⟨fun hp hr hn => engDbgHalt_waits h hp hr hn, fun hreq => engDbgForce_forces h hreq,
        fun hh hf => ⟨engDbgResume_runs h hh hf, fun hp ie => engDbgStep_steps h hh hf hp ie⟩⟩,
      fun hh hm => ⟨fun h data => engDbgPcWrite_sets h hh hm data, fun h hf word i hdec hdef hmay flow acc u hperf =>
        instructionFeed_acts h hh hm hf hdec hdef hmay hperf⟩,
      fun hreq => ⟨haltForceTimeout_forces hreq, fun next hc hw h1 h2 => engineHaltTaken_halts hreq hc hw h1 h2⟩⟩
  · exact fun req data => ⟨fun h hp => dbgCrewHalt_waits h hp, fun h => dbgCrewResume_runs h, fun die h hp => dbgIslHalt_halts h hp,
      fun h hp hn hhalt => dbgIslStep_steps h hp hn hhalt⟩
  · exact fun c hact hlast => ⟨fun hr hsel => trigIn_drives hact hlast hr hsel,
      fun req data h hdata hsel => dbgXtPulse_drives h hdata hact hlast hsel⟩

end Sys2Proof.Machine
end

section
/-! PROOFS. The frequencies of islands (R36). -/

namespace Sys2Proof.Machine

/-! Where a generator runs. -/

/-- The keys of a sparse map stand apart whatever default each of them reads as. -/
theorem smGet_smSet_apart {α : Type} [DecidableEq α] (d e : α) (m : List (Nat × α)) {k l : Nat} (v : α) (h : l ≠ k) :
    smGet d (smSet e m k v) l = smGet d m l := by
  unfold smSet
  split
  · exact smGet_smErase_other d m k l h
  · exact smGet_smInsert_other d m k l v h

@[simp] theorem islandRuns_setIslandRuns_same (x f : Nat) (s : State) : islandRuns (setIslandRuns x f s) x = f :=
  smGet_smSet_same (islandWants s x) s.clocks.islFreq x f

theorem islandRuns_setIslandRuns_other {x y : Nat} (h : y ≠ x) (f : Nat) (s : State) : islandRuns (setIslandRuns x f s) y = islandRuns s y :=
  smGet_smSet_apart (islandWants s y) (islandWants s x) s.clocks.islFreq f h

theorem frame_setIslandRuns (x f : Nat) (s : State) : Frame [.clocks] [] s (setIslandRuns x f s) := frame_clocks s _

/-! A write of CLK_ISL.FREQ. -/

/-- What a write of FREQ puts into the fields of a leader: the value, and whether it waits for a voltage. -/
def freqFields (x f : Nat) (s : State) : List (Fld × Nat) := [(CLK_ISL_FREQ x, f), (CLK_ISL_PENDING x, (needsVoltage s x (max 5 f)).toNat)]

/-- The state after the write, before the frequency at which the generator runs on is noted. -/
def freqTaken (x f : Nat) (s : State) : State :=
  ({ s with power := { s.power with capped := setDel s.power.capped x } } : State).puts (freqFields x f s)

theorem writeFreq_leader {s : State} {x : Nat} (h : leaderOf s x = x) (f : Nat) :
    writeFreq x f s = setIslandRuns x (islandRuns s x) (freqTaken x f s) := if_neg (not_not.2 h)

theorem writeFreq_member {s : State} {x : Nat} (h : leaderOf s x ≠ x) (f : Nat) : writeFreq x f s = s := if_pos h

theorem freqKeys_ne (x : Nat) : (CLK_ISL_FREQ x).key ≠ (CLK_ISL_PENDING x).key := by
  simp only [CLK_ISL_FREQ, CLK_ISL_PENDING]
  omega

theorem freqTaken_freq (x f : Nat) (s : State) : (freqTaken x f s).get (CLK_ISL_FREQ x) = f % 2 ^ 8 :=
  get_puts_last _ _ _ _ (List.forall_mem_singleton.2 (freqKeys_ne x))

theorem freqTaken_pending (x f : Nat) (s : State) : (freqTaken x f s).on (CLK_ISL_PENDING x) = needsVoltage s x (max 5 f) :=
  on_flag_same _ _ _ rfl

theorem frame_freqTaken (x f : Nat) (s : State) : Frame [.power] [CLK_ISL_FREQ x, CLK_ISL_PENDING x] s (freqTaken x f s) :=
  ((frame_power s _).mono (fun _ h => h) (by simp)).trans ((frame_puts _ _).mono (List.nil_subset _) fun _ h => h)

theorem frame_writeFreq (x f : Nat) (s : State) : Frame [.clocks, .power] [CLK_ISL_FREQ x, CLK_ISL_PENDING x] s
    (setIslandRuns x (islandRuns s x) (freqTaken x f s)) :=
  ((frame_freqTaken x f s).mono (by simp) fun _ h => h).trans ((frame_setIslandRuns _ _ _).mono (by simp) (by simp))

theorem freqWrite_takes {s : State} {req : Requester} {sec : Sec} (h : regGate s req (0x030000021000 + sec.val * 4) 4 true = .reach)
    (hlead : leaderOf s sec = sec.val) (f : BitVec 8) : Ends (.freqWrite req sec f) s fun t =>
      t.get (CLK_ISL_FREQ sec) = f.toNat ∧ islandRuns t sec = islandRuns s sec ∧
      (t.on (CLK_ISL_PENDING sec) = needsVoltage s sec (max 5 f.toNat)) ∧ t.out = [.done] ∧
      Frame [.clocks, .power] [CLK_ISL_FREQ sec, CLK_ISL_PENDING sec] s t := by
  refine ends_guardedWrite h (writeFreq sec.val f.toNat) ?_ rfl
  rw [writeFreq_leader (s := s.begin) hlead]
  refine ⟨?_, ?_, ?_, ?_, ((frame_writeFreq sec f.toNat s.begin).emit .done).begin⟩
  · exact (freqTaken_freq sec f.toNat s.begin).trans (Nat.mod_eq_of_lt f.isLt)
  · exact islandRuns_setIslandRuns_same sec (islandRuns s sec) (freqTaken sec f.toNat s.begin)
  · exact freqTaken_pending sec f.toNat s.begin
  · rfl

theorem freqWrite_ignored {s : State} {req : Requester} {sec : Sec} (h : regGate s req (0x030000021000 + sec.val * 4) 4 true = .reach)
    (hlead : leaderOf s sec ≠ sec.val) (f : BitVec 8) : exec (.freqWrite req sec f) s = .next { s with out := [.done] } := by
  show Host.Outcome.next (guardedWrite s.begin req _ 4 (writeFreq sec.val f.toNat)) = _
  rw [guardedWrite_reach s.begin req _ 4 _ h, writeFreq_member (s := s.begin) hlead]
  rfl

/-! A step of the generator. -/

theorem islandFreqStep_moves (sec : Sec) (s : State) : Ends (.islandFreqStep sec) s fun t => Frame [.clocks] [] s t ∧
    (∀ x, x ≠ sec.val → islandRuns t x = islandRuns s x) ∧
    (islandRuns s sec < islandTarget s sec → islandRuns t sec = islandRuns s sec + 1) ∧
    (islandTarget s sec < islandRuns s sec → islandRuns t sec = islandRuns s sec - 1) ∧
    (islandRuns s sec = islandTarget s sec → islandRuns t sec = islandRuns s sec) := by
  have hother (f : Nat) : ∀ x, x ≠ sec.val → islandRuns (setIslandRuns sec f s.begin) x = islandRuns s x :=
    fun x hx => islandRuns_setIslandRuns_other hx f s.begin
  rcases Nat.lt_trichotomy (islandRuns s sec) (islandTarget s sec) with h | h | h
  · exact ⟨setIslandRuns sec (islandRuns s sec + 1) s.begin, congrArg Host.Outcome.next (if_pos h), (frame_setIslandRuns ..).begin, hother _,
      fun _ => islandRuns_setIslandRuns_same .., fun h' => absurd h' (Nat.lt_asymm h), fun h' => absurd h' (Nat.ne_of_lt h)⟩
  · exact ⟨s.begin, congrArg Host.Outcome.next ((if_neg (Nat.not_lt.2 h.ge)).trans (if_neg (Nat.not_lt.2 h.le))), (Frame.refl ..).begin,
      fun _ _ => rfl, fun h' => absurd h (Nat.ne_of_lt h'), fun h' => absurd h (Nat.ne_of_gt h'), fun _ => rfl⟩
  · exact ⟨setIslandRuns sec (islandRuns s sec - 1) s.begin, congrArg Host.Outcome.next ((if_neg (Nat.lt_asymm h)).trans (if_pos h)),
      (frame_setIslandRuns ..).begin, hother _, fun h' => absurd h' (Nat.lt_asymm h), fun _ => islandRuns_setIslandRuns_same ..,
      fun h' => absurd h' (Nat.ne_of_gt h)⟩

end Sys2Proof.Machine
end

section
/-! PROOFS. What a user's island asks for at its edges: gating (R77, R78), fences (R79) and user interrupts (R80). -/

namespace Sys2Proof.Machine

/-! Reads of an island, which no output belongs to. -/

@[simp] theorem leaderOf_begin (s : State) (x : Nat) : leaderOf s.begin x = leaderOf s x := rfl
@[simp] theorem edgeReaches_begin (s : State) (x : Nat) : edgeReaches s.begin x = edgeReaches s x := rfl
@[simp] theorem sectorHeld_begin (s : State) (x : Nat) : sectorHeld s.begin x = sectorHeld s x := rfl

theorem frame_fabric (s : State) (f : Fabric) : Frame [.fabric] [] s { s with fabric := f } := by
  constructor
  case fabric => exact fun h => absurd List.mem_cons_self h
  all_goals intros; rfl

theorem not_contains_setDel (m : List Nat) (k : Nat) : (setDel m k).contains k = false := by
  simp [setDel]

theorem contains_setAdd (m : List Nat) (k : Nat) : (setAdd m k).contains k = true :=
  List.contains_iff_mem.2 ((mem_setAdd k k m).2 (.inr rfl))

/-! The gate of every sector of a list. -/

/-- GATED_USER of a sector. -/
abbrev gateFld (x : Nat) : Fld := FAB_SEC_STATUS_GATED_USER (x / 32) (x % 32)

theorem gateFld_key_ne {x y : Nat} (h : x ≠ y) : (gateFld x).key ≠ (gateFld y).key := by
  simp only [gateFld, FAB_SEC_STATUS_GATED_USER]
  omega

/-- GATED_USER of one sector takes a value. -/
def putGate (b : Bool) (s : State) (x : Nat) : State := s.flag (gateFld x) b

theorem putGated_eq (s : State) (l : Nat) (b : Bool) : putGated s l b = (membersOf s l).foldl (putGate b) s := rfl

theorem frame_putGates (b : Bool) : ∀ (xs : List Nat) (s : State), Frame [] (xs.map gateFld) s (xs.foldl (putGate b) s)
  | [], s => Frame.refl s _ _
  | x :: xs, s => ((frame_flag s (gateFld x) b).mono (List.nil_subset _) (by simp)).trans
      ((frame_putGates b xs (putGate b s x)).mono (List.nil_subset _) fun _ h => List.mem_cons_of_mem _ h)

/-- The sectors of the list have the value, and one that has it keeps it. -/
theorem putGates_on {b : Bool} {y : Nat} : ∀ (xs : List Nat) (s : State), y ∈ xs ∨ s.on (gateFld y) = b →
    (xs.foldl (putGate b) s).on (gateFld y) = b
  | [], _, h => h.resolve_left (by simp)
  | x :: xs, s, h => putGates_on xs (putGate b s x) (by
    by_cases hx : y = x
    · subst hx
      exact .inr (on_flag_same s _ b rfl)
    · rw [putGate, on_flag_other s _ _ b (gateFld_key_ne hx)]
      exact h.imp_left fun hm => (List.mem_cons.1 hm).resolve_left hx)

theorem frame_putGated (s : State) (l : Nat) (b : Bool) : Frame [] ((membersOf s l).map gateFld) s (putGated s l b) :=
  putGated_eq s l b ▸ frame_putGates b (membersOf s l) s

theorem putGated_on (s : State) (l : Nat) (b : Bool) : ∀ x ∈ membersOf s l, (putGated s l b).on (gateFld x) = b :=
  fun _ hx => putGated_eq s l b ▸ putGates_on _ s (.inl hx)

/-! ISLAND_GATE and ISLAND_WAKE (R77, R78). -/

/-- The leaders whose gating is not armed, replaced. -/
def withUnarmed (s : State) (m : List Nat) : State := { s with fabric := { s.fabric with unarmed := m } }

section
variable {s : State} {sec : Sec} (hedge : edgeReaches s sec = true) (hrun : sectorHeld s (leaderOf s sec) = false)
include hedge hrun

theorem gate_heard : ¬ (!edgeReaches s.begin sec || sectorHeld s.begin (leaderOf s.begin sec)) = true := by simp [hedge, hrun]

theorem islandGate_gates (harmed : s.fabric.unarmed.contains (leaderOf s sec) = false) : Ends (.islandGate sec true) s fun t =>
    (∀ x ∈ membersOf s (leaderOf s sec), t.on (FAB_SEC_STATUS_GATED_USER (x / 32) (x % 32)) = true) ∧
    t.fabric.unarmed.contains (leaderOf s sec) = true ∧
    Frame [.fabric] ((membersOf s (leaderOf s sec)).map (fun x => FAB_SEC_STATUS_GATED_USER (x / 32) (x % 32))) s t := by
  have hframe := frame_putGated (withUnarmed s.begin (setAdd s.fabric.unarmed (leaderOf s sec))) (leaderOf s sec) true
  refine ⟨putGated (withUnarmed s.begin (setAdd s.fabric.unarmed (leaderOf s sec))) (leaderOf s sec) true, ?_, fun x hx => ?_, ?_, ?_⟩
  · exact (if_neg (gate_heard hedge hrun)).trans ((if_neg (by simp)).trans (if_neg (by simpa using harmed)))
  · exact putGated_on (withUnarmed s.begin (setAdd s.fabric.unarmed (leaderOf s sec))) (leaderOf s sec) true x hx
  · rw [hframe.fabric (by simp)]
    exact contains_setAdd _ _
  · exact ((frame_fabric s.begin _).begin.mono (fun _ h => h) (by simp)).trans (hframe.mono (List.nil_subset _) fun _ h => h)

theorem islandGate_unarmed (h : s.fabric.unarmed.contains (leaderOf s sec) = true) :
    exec (.islandGate sec true) s = .next { s with out := [] } :=
  (if_neg (gate_heard hedge hrun)).trans ((if_neg (by simp)).trans (if_pos h))

theorem islandGate_arms : Ends (.islandGate sec false) s fun t =>
    t.fabric.unarmed.contains (leaderOf s sec) = false ∧ Frame [.fabric] [] s t := by
  refine ⟨withUnarmed s.begin (setDel s.fabric.unarmed (leaderOf s sec)), ?_, not_contains_setDel _ _, (frame_fabric s.begin _).begin⟩
  exact (if_neg (gate_heard hedge hrun)).trans (if_pos rfl)

end

/-- A wake begins where the partition is in Easy. -/
theorem wakePart_easy {s : State} {p : Nat} (h : s.get (PWR_PART_STATE p) = 2) : (wakePart p s).get (PWR_PART_STATE p) = 3 := by
  rw [wakePart, h]
  exact get_put_same s _ _

theorem partState_notGate (p : Nat) (xs : List Nat) : (PWR_PART_STATE p).key ∉ (xs.map gateFld).map Fld.key := by
  simp only [List.map_map, List.mem_map, Function.comp_apply, gateFld, FAB_SEC_STATUS_GATED_USER, PWR_PART_STATE, not_exists, not_and]
  omega

theorem gate_notPartState (p x : Nat) : (gateFld x).key ∉ [PWR_PART_STATE p].map Fld.key := by
  simp only [List.map_cons, List.map_nil, List.mem_singleton, gateFld, FAB_SEC_STATUS_GATED_USER, PWR_PART_STATE]
  omega

theorem islandWake_ungates (s : State) (sec : Sec) : Ends (.islandWake sec) s fun t =>
    (∀ x ∈ membersOf s (leaderOf s sec), t.on (FAB_SEC_STATUS_GATED_USER (x / 32) (x % 32)) = false) ∧
    (s.get (PWR_PART_STATE (sec / 32)) = 2 → t.get (PWR_PART_STATE (sec / 32)) = 3) ∧
    Frame [.power] (PWR_PART_STATE (sec / 32) :: (membersOf s (leaderOf s sec)).map (fun x => FAB_SEC_STATUS_GATED_USER (x / 32) (x % 32))) s t := by
  have hgate := frame_putGated s.begin (leaderOf s sec) false
  have hwake := frame_wakePart (sec / 32) (putGated s.begin (leaderOf s sec) false)
  refine ⟨_, rfl, fun x hx => ?_, fun h => ?_, ?_⟩
  · exact (congrArg (· % 2 == 1) (hwake.get (gateFld x) (gate_notPartState _ x))).trans (putGated_on s.begin (leaderOf s sec) false x hx)
  · exact wakePart_easy ((hgate.get _ (partState_notGate _ _)).trans h)
  · exact (hgate.begin.mono (List.nil_subset _) fun _ h => List.mem_cons_of_mem _ h).trans (hwake.mono (fun _ h => h) (by simp))

/-! FABRIC_FENCE and FABRIC_FENCE_DONE (R79). -/

/-- The fences replaced. -/
def withFences (s : State) (m : List (Nat × Fence)) : State := { s with fabric := { s.fabric with fences := m } }

/-- Those of some ports that belong to the island of a sector. -/
def portsBound (s : State) (x : Nat) (ports : List Sec) : List Nat := (ports.map (·.val)).filter (fun y => leaderOf s y == leaderOf s x)

theorem mem_portsBound (s : State) (x : Nat) (ports : List Sec) (y : Nat) :
    y ∈ portsBound s x ports ↔ (∃ p ∈ ports, p.val = y) ∧ leaderOf s y = leaderOf s x := by
  simp [portsBound]

/-- The entry of a new key is the one found. -/
theorem find_smInsert_new {α : Type} {k : Nat} {v : α} : ∀ {m : List (Nat × α)}, (∀ e ∈ m, e.1 ≠ k) →
    (smInsert m k v).find? (·.1 == k) = some (k, v)
  | [], _ => by simp [smInsert]
  | (j, w) :: m, h => by
    have hj : j ≠ k := h (j, w) List.mem_cons_self
    unfold smInsert
    simp only [if_neg hj]
    split
    · simp
    · rw [List.find?_cons_of_neg (by simpa using hj)]
      exact find_smInsert_new fun e he => h e (List.mem_cons_of_mem _ he)

theorem mem_smErase_ne {α : Type} {k : Nat} : ∀ {m : List (Nat × α)}, ∀ e ∈ smErase m k, e.1 ≠ k
  | [], _, he => by simp [smErase] at he
  | (j, w) :: m, e, he => by
    unfold smErase at he
    split at he
    · exact mem_smErase_ne e he
    · next hj =>
      rcases List.mem_cons.1 he with rfl | he
      · exact hj
      · exact mem_smErase_ne e he

theorem fabricFence_waits {s : State} {sec : Sec} (hedge : edgeReaches s sec = true) (hrun : sectorHeld s (leaderOf s sec) = false)
    (ports : List Sec) (hnew : ∀ e ∈ s.fabric.fences, e.1 ≠ sec.val) : Ends (.fabricFence sec ports) s fun t => Frame [.fabric] [] s t ∧
      ∃ f, t.fabric.fences.find? (·.1 == sec.val) = some (sec.val, f) ∧ f.err = false ∧
        f.waiting = outstandingAt s f.ports ∧ ∀ x, x ∈ f.ports ↔ (∃ p ∈ ports, p.val = x) ∧ leaderOf s x = leaderOf s sec := by
  refine ⟨withFences s.begin (smInsert s.fabric.fences sec.val ⟨portsBound s sec ports, outstandingAt s (portsBound s sec ports), false⟩),
    ?_, (frame_fabric s.begin _).begin, _, find_smInsert_new hnew, rfl, rfl, mem_portsBound s sec ports⟩
  have hnone : (s.fabric.fences.map (·.1)).contains sec.val = false := by
    simpa using fun f hf => hnew (sec.val, f) hf rfl
  show execFabricFence sec ports s = _
  simp only [execFabricFence, edgeReaches_begin, sectorHeld_begin, leaderOf_begin, State.begin_fabric, hedge, hrun, hnone]
  rfl

theorem fabricFenceDone_ends {s : State} {sec : Sec} {f : Fence} (hfence : s.fabric.fences.find? (·.1 == sec.val) = some (sec.val, f))
    (hedge : edgeReaches s sec = true) (hwait : f.waiting = []) : Ends (.fabricFenceDone sec) s fun t =>
      t.out = [.fenceDone sec f.err] ∧ Frame [.fabric] [] s t ∧ ∀ e ∈ t.fabric.fences, e.1 ≠ sec.val := by
  refine ⟨(withFences s.begin (smErase s.fabric.fences sec.val)).emit (.fenceDone sec f.err), ?_, rfl,
    ((frame_fabric s.begin _).emit _).begin, mem_smErase_ne⟩
  show execFabricFenceDone sec s = _
  simp only [execFabricFenceDone, edgeReaches_begin, State.begin_fabric, hfence, hedge, hwait]
  rfl

/-! USER_IRQ (R80). -/

theorem userIrq_unheard {s : State} {sec : Sec} (h : edgeReaches s sec = false ∨ sectorHeld s sec = true) (lines : BitVec 4) :
    exec (.userIrq sec lines) s = .next s.begin :=
  if_pos (by simpa using h)

/-- The lines that are 1 after having been 0. -/
def risen (s : State) (x lines : Nat) : Nat := clearBits lines (smGet 0 s.fabric.irqPrev x)

/-- The leaves of the risen lines are set. -/
def setUser (x lines : Nat) (s : State) : State :=
  s.put (FAB_SEC_CAUSE_USER (x / 32) (x % 32)) (s.get (FAB_SEC_CAUSE_USER (x / 32) (x % 32)) ||| risen s x lines)

/-- The samples of the lines of a sector, replaced. -/
def withSamples (s : State) (m : List (Nat × Nat)) : State := { s with fabric := { s.fabric with irqPrev := m } }

theorem userCause_noAlert (x : Nat) : (FAB_SEC_CAUSE_USER (x / 32) (x % 32)).key ∉ alertFlds.map Fld.key := fun hmem => by
  have h := alertFlds_block _ hmem
  simp only [FAB_SEC_CAUSE_USER] at h
  omega

/-- A leaf is set where it was set, or where its line has risen. -/
theorem setUser_bit (x lines : Nat) (s : State) {i : Nat} (hi : i < 4) : (setUser x lines s).bit (FAB_SEC_CAUSE_USER (x / 32) (x % 32)) i =
    (s.bit (FAB_SEC_CAUSE_USER (x / 32) (x % 32)) i || (lines.testBit i && !(smGet 0 s.fabric.irqPrev x).testBit i)) := by
  rw [State.bit, setUser, get_put_same, Nat.testBit_mod_two_pow, Nat.testBit_or, risen, testBit_clearBits]
  simp [FAB_SEC_CAUSE_USER, hi, State.bit]

theorem userIrq_sets {s : State} {sec : Sec} (hedge : edgeReaches s sec = true) (hrun : sectorHeld s sec = false) (lines : BitVec 4) :
    Ends (.userIrq sec lines) s fun t =>
      (∀ i < 4, t.bit (FAB_SEC_CAUSE_USER (sec / 32) (sec % 32)) i =
        (s.bit (FAB_SEC_CAUSE_USER (sec / 32) (sec % 32)) i || (lines.getLsbD i && !(smGet 0 s.fabric.irqPrev sec).testBit i))) ∧
      smGet 0 t.fabric.irqPrev sec = lines.toNat ∧ Alerted s t ∧
      Frame [.fabric, .host] (FAB_SEC_CAUSE_USER (sec / 32) (sec % 32) :: alertFlds) s t := by
  have hsettle := frame_settleBit (summaryBit s.begin (sec / 32)) (sec / 32) (setUser sec lines.toNat s.begin)
  have hframe := frame_settled (sec / 32) (setUser sec lines.toNat) s.begin (frame_put s.begin (FAB_SEC_CAUSE_USER (sec / 32) (sec % 32)) _)
  generalize hu : settled (sec / 32) (setUser sec lines.toNat) s.begin = u at hframe
  refine ⟨withSamples u (smSet 0 u.fabric.irqPrev sec lines.toNat), ?_, fun i hi => ?_, smGet_smSet_same _ _ _ _, ?_, ?_⟩
  · refine (if_neg (by simp [hedge, hrun])).trans ?_
    rw [← hu]
    rfl
  · rw [← hu]
    exact (congrArg (Nat.testBit · i) (hsettle.get _ (userCause_noAlert sec))).trans (setUser_bit sec lines.toNat s.begin hi)
  · rw [← hu]
    exact (alerted_of_host_eq rfl).trans (settleBit_alerted _ _ (setUser sec lines.toNat s.begin))
  · exact (hframe.begin.mono (by simp) (by simp)).trans ((frame_fabric u _).mono (by simp) (by simp))

end Sys2Proof.Machine
end

section
/-! PROOFS. The rails of the banks (R83), and O14 is assembled. -/

namespace Sys2Proof.Machine

/-- The voltage that the image declares for a bank, the one measured, its mismatch, and the leaf of the sector that owns it. -/
abbrev bankImg (k : Nat) : Fld := FAB_BANK_STATUS_VCCIO_IMG (k / 3) (k % 3)
abbrev bankDet (k : Nat) : Fld := FAB_BANK_STATUS_VCCIO_DET (k / 3) (k % 3)
abbrev bankMismatch (k : Nat) : Fld := FAB_BANK_STATUS_MISMATCH (k / 3) (k % 3)
abbrev bankCause (k : Nat) : Fld := FAB_SEC_CAUSE_BANK (k / 3) (bankOwner k % 32)

theorem bankKeys_ne (k : Nat) : (bankImg k).key ≠ (bankDet k).key ∧ (bankMismatch k).key ≠ (bankDet k).key ∧
    (bankDet k).key ≠ (bankMismatch k).key := by
  simp only [bankImg, bankDet, bankMismatch, FAB_BANK_STATUS_VCCIO_IMG, FAB_BANK_STATUS_VCCIO_DET, FAB_BANK_STATUS_MISMATCH]
  omega

theorem bankFields_noRaise (k : Nat) : (bankMismatch k).key ∉ (bankCause k :: alertFlds).map Fld.key ∧
    (bankDet k).key ∉ (bankCause k :: alertFlds).map Fld.key ∧ (bankCause k).key ∉ alertFlds.map Fld.key := by
  have hblock := alertFlds_block
  simp only [List.map_cons, List.mem_cons, not_or, bankDet, bankMismatch, bankCause, FAB_SEC_CAUSE_BANK, FAB_BANK_STATUS_VCCIO_DET,
    FAB_BANK_STATUS_MISMATCH]
  refine ⟨⟨by omega, fun h => ?_⟩, ⟨by omega, fun h => ?_⟩, fun h => ?_⟩ <;> have := hblock _ h <;> omega

theorem checkBank_stands {k : Nat} {s : State} (h : s.on (bankMismatch k) = true) : checkBank k s = s :=
  if_pos (by simp [h])

theorem checkBank_enters {k : Nat} {s : State} (himg : s.get (bankImg k) ≠ 0) (hdet : s.get (bankImg k) ≠ s.get (bankDet k))
    (hmis : s.on (bankMismatch k) = false) : checkBank k s = raiseSector (k / 3) (bankCause k) (s.flag (bankMismatch k) true) :=
  if_neg (by simp [himg, hdet, hmis])

/-- The state once a bank's rail has been measured. -/
def measured (k det : Nat) (s : State) : State := s.begin.put (bankDet k) det

theorem measured_det (k : Nat) (det : BitVec 3) (s : State) : (measured k det.toNat s).get (bankDet k) = det.toNat :=
  (get_put_same _ _ _).trans (Nat.mod_eq_of_lt det.isLt)

theorem measured_img (k det : Nat) (s : State) : (measured k det s).get (bankImg k) = s.get (bankImg k) :=
  get_put_other s.begin _ _ det (bankKeys_ne k).1

theorem measured_mismatch (k det : Nat) (s : State) : (measured k det s).on (bankMismatch k) = s.on (bankMismatch k) :=
  congrArg (· % 2 == 1) (get_put_other s.begin _ _ det (bankKeys_ne k).2.1)

theorem frame_measured (k det : Nat) (s : State) : Frame [] [bankDet k] s (measured k det s) := (frame_put s.begin _ det).begin

theorem exec_bankVccioMismatch (k : Fin 12) (det : BitVec 3) (s : State) :
    exec (.bankVccioMismatch k det) s = .next (checkBank k (measured k det.toNat s)) := rfl

theorem bankVccioMismatch_stands {s : State} {k : Fin 12} (hmis : s.on (FAB_BANK_STATUS_MISMATCH (k / 3) (k % 3)) = true) (det : BitVec 3) :
    Ends (.bankVccioMismatch k det) s fun t =>
      t.get (FAB_BANK_STATUS_VCCIO_DET (k / 3) (k % 3)) = det.toNat ∧ t.out = [] ∧ Frame [] [FAB_BANK_STATUS_VCCIO_DET (k / 3) (k % 3)] s t := by
  refine ⟨measured k det.toNat s, ?_, measured_det k det s, rfl, frame_measured k det.toNat s⟩
  rw [exec_bankVccioMismatch, checkBank_stands ((measured_mismatch k det.toNat s).trans hmis)]

theorem bankVccioMismatch_enters {s : State} {k : Fin 12} {det : BitVec 3} (himg : s.get (FAB_BANK_STATUS_VCCIO_IMG (k / 3) (k % 3)) ≠ 0)
    (hdet : s.get (FAB_BANK_STATUS_VCCIO_IMG (k / 3) (k % 3)) ≠ det.toNat) (hmis : s.on (FAB_BANK_STATUS_MISMATCH (k / 3) (k % 3)) = false) :
    Ends (.bankVccioMismatch k det) s fun t =>
      t.on (FAB_BANK_STATUS_MISMATCH (k / 3) (k % 3)) = true ∧ t.get (FAB_BANK_STATUS_VCCIO_DET (k / 3) (k % 3)) = det.toNat ∧
      t.on (FAB_SEC_CAUSE_BANK (k / 3) (bankOwner k % 32)) = true ∧ Alerted s t ∧
      Frame [.host] ([FAB_BANK_STATUS_MISMATCH (k / 3) (k % 3), FAB_BANK_STATUS_VCCIO_DET (k / 3) (k % 3),
        FAB_SEC_CAUSE_BANK (k / 3) (bankOwner k % 32)] ++ alertFlds) s t := by
  obtain ⟨hmisRaise, hdetRaise, hcause⟩ := bankFields_noRaise k
  obtain ⟨-, -, hdetMis⟩ := bankKeys_ne k
  have hraise := frame_raiseLeaf (k / 3) (bankCause k) ((measured k det.toNat s).flag (bankMismatch k) true)
  refine ⟨raiseSector (k / 3) (bankCause k) ((measured k det.toNat s).flag (bankMismatch k) true), ?_, ?_, ?_,
    raiseLeaf_on _ _ _ rfl hcause, ?_, ?_⟩
  · rw [exec_bankVccioMismatch, checkBank_enters (by rwa [measured_img]) (by rwa [measured_img, measured_det]) (by rwa [measured_mismatch])]
  · exact (congrArg (· % 2 == 1) (hraise.get _ hmisRaise)).trans (on_flag_same _ _ true rfl)
  · exact (hraise.get _ hdetRaise).trans ((get_put_other _ _ _ _ hdetMis).trans (measured_det k det s))
  · exact Alerted.trans (t := (measured k det.toNat s).flag (bankMismatch k) true) (alerted_of_host_eq rfl) (raiseLeaf_alerted ..)
  · exact ((frame_measured k det.toNat s).mono (List.nil_subset _) (by simp)).trans
      (((frame_flag _ (bankMismatch k) true).mono (List.nil_subset _) (by simp)).trans (hraise.mono (fun _ h => h) (by simp; tauto)))

theorem bankVccioRestore_leaves {s : State} {k : Fin 12} (himg : s.get (FAB_BANK_STATUS_VCCIO_IMG (k / 3) (k % 3)) ≠ 0) :
    Ends (.bankVccioRestore k) s fun t => t.on (FAB_BANK_STATUS_MISMATCH (k / 3) (k % 3)) = false ∧
      Frame [] [FAB_BANK_STATUS_MISMATCH (k / 3) (k % 3), FAB_BANK_STATUS_VCCIO_DET (k / 3) (k % 3)] s t := by
  refine ⟨(measured k (s.get (bankImg k)) s).flag (bankMismatch k) false, ?_, on_flag_same _ _ false rfl, ?_⟩
  · exact congrArg Host.Outcome.next (if_neg (by simpa using himg))
  · exact ((frame_measured k _ s).mono (List.nil_subset _) (by simp)).trans ((frame_flag _ _ false).mono (List.nil_subset _) (by simp))

/-- Settles O14: each part is the lemma about its command. -/
theorem islandFrequencyAndControls : Obligations.IslandFrequencyAndControls := by
  unfold Obligations.IslandFrequencyAndControls
  refine ⟨fun s sec => ⟨fun req f hreach => ⟨fun hlead => freqWrite_takes hreach hlead f, fun hlead => freqWrite_ignored hreach hlead f⟩,
    islandFreqStep_moves sec s⟩, fun s sec => ⟨fun hedge hrun => ?_, fun f hfence hedge hwait => fabricFenceDone_ends hfence hedge hwait,
    islandWake_ungates s sec, fun h lines => userIrq_unheard h lines, fun hedge hrun lines => userIrq_sets hedge hrun lines,
    fun k det himg hdet => ⟨fun hmis => bankVccioMismatch_stands hmis det, fun hmis => bankVccioMismatch_enters himg hdet hmis⟩,
    fun k himg => bankVccioRestore_leaves himg⟩⟩
  exact ⟨fun harmed => islandGate_gates hedge hrun harmed, fun h => islandGate_unarmed hedge hrun h, islandGate_arms hedge hrun,
    fun ports hnew => fabricFence_waits hedge hrun ports hnew⟩

end Sys2Proof.Machine
end

section
/-! PROOFS. The rules of the canonical form: a state that is put together, what a command and an instruction end in. -/

namespace Sys2Proof.Machine

/-- The on-chip memories and the configuration replaced by canonical ones; parts that are not held sparsely do not matter. -/
theorem wf_mk {s : State} {clk fab on cfg noc sec host slots wake pow dbg lanes ctr out pend} (h : s.wf = true)
    (hb : smWf 0 on.bytes = true) (hf : smWf 0 on.frames = true) (hc : smWf 0 cfg.store = true) :
    (State.mk s.regs s.imageVals clk fab on cfg noc s.engines s.dram s.channels s.drams s.patinas sec host slots wake pow dbg lanes ctr
      out pend).wf = true := by
  rw [State.wf_iff] at h ⊢
  obtain ⟨hr, hi, -, -, hd, -, hrest⟩ := h
  exact ⟨hr, hi, hb, hf, hd, hc, hrest⟩

/-- Parts that are not held sparsely do not matter, and of the on-chip memories and the configuration only their contents. -/
theorem wf_frame {s : State} {clk fab on cfg noc sec host slots wake pow dbg lanes ctr out pend} (h : s.wf = true)
    (hb : on.bytes = s.onchip.bytes) (hf : on.frames = s.onchip.frames)
    (hc : cfg.store = s.config.store) :
    (State.mk s.regs s.imageVals clk fab on cfg noc s.engines s.dram s.channels s.drams s.patinas sec host slots wake pow dbg lanes ctr
      out pend).wf = true := by
  rw [State.wf_iff] at h ⊢
  simpa only [hb, hf, hc] using h

theorem wf_begin {s : State} (h : s.wf = true) : s.begin.wf = true := h
theorem wf_emit {s : State} {o : Out} (h : s.wf = true) : (s.emit o).wf = true := h
theorem wf_onClocks {s : State} {f : Clocks → Clocks} (h : s.wf = true) : (s.onClocks f).wf = true := h
theorem wf_onDebug {s : State} {f : Debug → Debug} (h : s.wf = true) : (s.onDebug f).wf = true := h
theorem wf_onLanes {s : State} {f : Lanes → Lanes} (h : s.wf = true) : (s.onLanes f).wf = true := h

theorem wf_ite {c : Prop} [Decidable c] {a b : State} (ha : a.wf = true) (hb : b.wf = true) : (if c then a else b).wf = true := by
  split
  · exact ha
  · exact hb

theorem wf_ite_snd {α : Type} {c : Prop} [Decidable c] {a b : α × State} (ha : a.2.wf = true) (hb : b.2.wf = true) :
    (if c then a else b).2.wf = true := by
  split
  · exact ha
  · exact hb

theorem wf_ite_snd₂ {α β : Type} {c : Prop} [Decidable c] {a b : α × β × State} (ha : a.2.2.wf = true) (hb : b.2.2.wf = true) :
    (if c then a else b).2.2.wf = true := by
  split
  · exact ha
  · exact hb

theorem wf_ite_line {c : Prop} [Decidable c] {a b : LineRes} (ha : a.s.wf = true) (hb : b.s.wf = true) :
    (if c then a else b).s.wf = true := by
  split
  · exact ha
  · exact hb

/-- A change made under a condition only. -/
theorem wf_then {c : Prop} [Decidable c] {a b : State} (hb : b.wf = true) (ha : b.wf = true → a.wf = true) :
    (if c then a else b).wf = true := wf_ite (ha hb) hb

/-- A change made unless a condition holds. -/
theorem wf_else {c : Prop} [Decidable c] {a b : State} (ha : a.wf = true) (hb : a.wf = true → b.wf = true) :
    (if c then a else b).wf = true := wf_ite ha (hb ha)

theorem wf_snd {α : Type} {x : α × State} {a : α} {t : State} (e : x = (a, t)) (h : x.2.wf = true) : t.wf = true := by
  subst e; exact h

theorem wf_getD {o : Option State} {s : State} (h : s.wf = true) (ho : ∀ t, o = some t → t.wf = true) : (o.getD s).wf = true := by
  cases o with
  | none => exact h
  | some t => exact ho t rfl

theorem wf_snd₂ {α β : Type} {x : α × β × State} {a : α} {b : β} {t : State} (e : x = (a, b, t)) (h : x.2.2.wf = true) : t.wf = true := by
  subst e; exact h

theorem wf_self {α : Type} {p : α} {x : α} {f : α → State} (e : x = p) (h : (f x).wf = true) : (f p).wf = true := e ▸ h

theorem wf_pair {α : Type} {a : α} {s : State} (h : s.wf = true) : (a, s).2.wf = true := h

theorem wf_ite_eq {α : Type} {c : Prop} [Decidable c] {a b x : α × State} (e : (if c then a else b) = x) (ha : a.2.wf = true)
    (hb : b.2.wf = true) : x.2.wf = true := by
  subst e
  exact wf_ite_snd ha hb

/-- What holds of any value holds of a given one. A proof that goes through this does not compute the given one. -/
theorem of_any {α : Type} {motive : α → Prop} (any : ∀ a, motive a) (a : α) : motive a := any a

/-- The state beside a value that is folded with it. -/
theorem foldl_snd_wf {α β : Type} (f : α × State → β → α × State) (hf : ∀ p b, p.2.wf = true → (f p b).2.wf = true) :
    ∀ (l : List β) {p : α × State}, p.2.wf = true → (l.foldl f p).2.wf = true
  | [], _, h => h
  | b :: l, _, h => foldl_snd_wf f hf l (hf _ b h)

/-- Parts replaced that are held sparsely. -/
theorem wf_imageVals {s : State} {m : List (Nat × Nat)} (h : s.wf = true) (hm : smWf 0 m = true) : ({ s with imageVals := m } : State).wf = true := by
  rw [State.wf_iff] at h ⊢; exact ⟨h.1, hm, h.2.2⟩

theorem wf_engines {s : State} {m : List (Nat × Engine)} (h : s.wf = true) (hm : smWf {} m = true) : ({ s with engines := m } : State).wf = true := by
  rw [State.wf_iff] at h ⊢
  obtain ⟨hr, hi, hb, hf, hd, hs, -, hrest⟩ := h
  exact ⟨hr, hi, hb, hf, hd, hs, hm, hrest⟩

theorem wf_channels {s : State} {m : List (Nat × Channel)} (h : s.wf = true) (hm : smWf {} m = true) : ({ s with channels := m } : State).wf = true := by
  rw [State.wf_iff] at h ⊢
  obtain ⟨hr, hi, hb, hf, hd, hs, he, -, hrest⟩ := h
  exact ⟨hr, hi, hb, hf, hd, hs, he, hm, hrest⟩

theorem wf_drams {s : State} {m : List (Nat × DramCtrl)} (h : s.wf = true) (hm : smWf {} m = true) : ({ s with drams := m } : State).wf = true := by
  rw [State.wf_iff] at h ⊢
  obtain ⟨hr, hi, hb, hf, hd, hs, he, hc, -, hp⟩ := h
  exact ⟨hr, hi, hb, hf, hd, hs, he, hc, hm, hp⟩

theorem wf_patinas {s : State} {m : List (Nat × Patina)} (h : s.wf = true) (hm : smWf {} m = true) : ({ s with patinas := m } : State).wf = true := by
  rw [State.wf_iff] at h ⊢
  obtain ⟨hr, hi, hb, hf, hd, hs, he, hc, hdr, -⟩ := h
  exact ⟨hr, hi, hb, hf, hd, hs, he, hc, hdr, hm⟩

theorem wf_frames {s : State} {m : List (Nat × Coded)} (h : s.wf = true) (hm : smWf 0 m = true) :
    ({ s with onchip := { s.onchip with frames := m } } : State).wf = true := wf_onchip h (s.wf_iff.1 h).2.2.1 hm

/-- The parts of a canonical state. -/
theorem wf_parts_regs {s : State} (h : s.wf = true) : smWf 0 s.regs = true := (s.wf_iff.1 h).1

theorem wf_parts_imageVals {s : State} (h : s.wf = true) : smWf 0 s.imageVals = true := (s.wf_iff.1 h).2.1

theorem wf_parts_bytes {s : State} (h : s.wf = true) : smWf 0 s.onchip.bytes = true := by
  obtain ⟨-, -, hb, -⟩ := s.wf_iff.1 h; exact hb

theorem wf_parts_frames {s : State} (h : s.wf = true) : smWf 0 s.onchip.frames = true := by
  obtain ⟨-, -, -, hf, -⟩ := s.wf_iff.1 h; exact hf

theorem wf_parts_dram {s : State} (h : s.wf = true) : smWf 0 s.dram = true := by
  obtain ⟨-, -, -, -, hd, -⟩ := s.wf_iff.1 h; exact hd

theorem wf_parts_store {s : State} (h : s.wf = true) : smWf 0 s.config.store = true := by
  obtain ⟨-, -, -, -, -, hs, -⟩ := s.wf_iff.1 h; exact hs

theorem wf_parts_engines {s : State} (h : s.wf = true) : smWf {} s.engines = true := by
  obtain ⟨-, -, -, -, -, -, he, -⟩ := s.wf_iff.1 h; exact he

theorem wf_parts_channels {s : State} (h : s.wf = true) : smWf {} s.channels = true := by
  obtain ⟨-, -, -, -, -, -, -, hc, -⟩ := s.wf_iff.1 h; exact hc

theorem wf_parts_drams {s : State} (h : s.wf = true) : smWf {} s.drams = true := by
  obtain ⟨-, -, -, -, -, -, -, -, hd, -⟩ := s.wf_iff.1 h; exact hd

theorem wf_parts_patinas {s : State} (h : s.wf = true) : smWf {} s.patinas = true := by
  obtain ⟨-, -, -, -, -, -, -, -, -, hp⟩ := s.wf_iff.1 h; exact hp

/-- Entries changed under their keys, those left out that hold the default afterwards: the map stays canonical. -/
theorem smWf_map_filter {α : Type} [DecidableEq α] (d : α) (f : Nat × α → Nat × α) (hf : ∀ e, (f e).1 = e.1) {m : List (Nat × α)}
    (h : smWf d m = true) : smWf d ((m.map f).filter (fun e => e.2 != d)) = true := by
  rw [smWf_iff] at h ⊢
  obtain ⟨hkeys, -⟩ := h
  refine ⟨List.Pairwise.sublist (List.filter_sublist.map _) ?_, fun e he => by simpa using (List.mem_filter.1 he).2⟩
  have hsame : Prod.fst ∘ f = Prod.fst := funext hf
  rwa [List.map_map, hsame]

/-- Entries changed under their keys by a change that makes no default. -/
theorem smWf_map {α : Type} [DecidableEq α] (d : α) (f : α → α) (hf : ∀ x, f x = d → x = d) {m : List (Nat × α)}
    (h : smWf d m = true) : smWf d (m.map (fun e => (e.1, f e.2))) = true := by
  rw [smWf_iff] at h ⊢
  obtain ⟨hkeys, hd⟩ := h
  refine ⟨by rwa [List.map_map], fun e he => ?_⟩
  obtain ⟨x, hx, rfl⟩ := List.mem_map.1 he
  exact fun hdef => hd x hx (hf _ hdef)

/-- A command that ends in a next state ends in a canonical one. -/
def Canonical (r : Res) : Prop := ∀ t, r = .next t → t.wf = true

theorem canonical_next {s : State} (h : s.wf = true) : Canonical (.next s) := fun _ e => (Host.Outcome.next.inj e) ▸ h

theorem canonical_fault {f : Fault} : Canonical (.fault f) := fun _ e => by cases e

theorem canonical_ite {c : Prop} [Decidable c] {a b : Res} (ha : Canonical a) (hb : Canonical b) : Canonical (if c then a else b) := by
  split
  · exact ha
  · exact hb

/-- What an instruction does leaves a canonical state. -/
def DidWf : Did → Prop
  | .done _ _ s => s.wf = true
  | .trap _ s => s.wf = true
  | .stall s => s.wf = true

theorem didWf_done {flow acc} {s : State} (h : s.wf = true) : DidWf (.done flow acc s) := h
theorem didWf_trap {x} {s : State} (h : s.wf = true) : DidWf (.trap x s) := h
theorem didWf_stall {s : State} (h : s.wf = true) : DidWf (.stall s) := h

theorem didWf_ite {c : Prop} [Decidable c] {a b : Did} (ha : DidWf a) (hb : DidWf b) : DidWf (if c then a else b) := by
  split
  · exact ha
  · exact hb

/-- What a service call does leaves a canonical state. -/
def CallWf : Call → Prop
  | .ret _ _ s => s.wf = true
  | .stays s => s.wf = true

theorem callWf_ret {status regs} {s : State} (h : s.wf = true) : CallWf (.ret status regs s) := h
theorem callWf_stays {s : State} (h : s.wf = true) : CallWf (.stays s) := h

theorem callWf_ite {c : Prop} [Decidable c] {a b : Call} (ha : CallWf a) (hb : CallWf b) : CallWf (if c then a else b) := by
  split
  · exact ha
  · exact hb

end Sys2Proof.Machine
end

section
/-! PROOFS. The canonical form is kept by what `Causes` defines. -/

namespace Sys2Proof.Machine

theorem setLine_wf {s : State} {g line} (h : s.wf = true) : (setLine s g line).wf = true :=
  putBit_wf _ _ _ h

theorem writeMsix_wf {port i v} {s : State} (h : s.wf = true) : (writeMsix port i v s).wf = true :=
  wf_ite (wf_emit (wf_frame h rfl rfl rfl)) (wf_frame h rfl rfl rfl)

theorem sendToPorts_wf {s : State} {ports vec} (h : s.wf = true) : (sendToPorts s ports vec).wf = true :=
  wf_then (wf_ite (sendMsix_wf _ _ h) h) fun h => sendMsix_wf _ _ h

theorem settledAll_wf {f : State → State} (hf : ∀ t, t.wf = true → (f t).wf = true) :
    ∀ (l : List Nat) {s : State}, s.wf = true → (settledAll l f s).wf = true
  | [], _, h => hf _ h
  | b :: l, _, h => settled_wf b _ (settledAll_wf hf l h)

theorem raiseRas_wf {f} {s : State} (h : s.wf = true) : (raiseRas f s).wf = true :=
  raiseLeaf_wf _ _ h

theorem raiseCfg_wf {f} {s : State} (h : s.wf = true) : (raiseCfg f s).wf = true :=
  raiseLeaf_wf _ _ h

theorem raisePwr_wf {f} {s : State} (h : s.wf = true) : (raisePwr f s).wf = true :=
  raiseLeaf_wf _ _ h

theorem raiseHp_wf {f} {s : State} (h : s.wf = true) : (raiseHp f s).wf = true :=
  raiseLeaf_wf _ _ h

theorem raiseWake_wf {f} {s : State} (h : s.wf = true) : (raiseWake f s).wf = true :=
  raiseLeaf_wf _ _ h

theorem raiseNoc_wf {f} {s : State} (h : s.wf = true) : (raiseNoc f s).wf = true :=
  raiseLeaf_wf _ _ h

theorem raiseLane_wf {l bit} {s : State} (h : s.wf = true) : (raiseLane l bit s).wf = true :=
  settled_wf _ _ (putBit_wf _ _ _ h)

theorem raiseSector_wf {d f} {s : State} (h : s.wf = true) : (raiseSector d f s).wf = true :=
  raiseLeaf_wf _ _ h

theorem chSettled_wf {n} {f : State → State} {s : State} (hf : (f s).wf = true) : (chSettled n f s).wf = true :=
  settled_wf _ _ (wf_ite (setLines_wf _ _ hf) hf)

theorem memorySettled_wf {n} {f : State → State} {s : State} (hf : (f s).wf = true) : (memorySettled n f s).wf = true :=
  settled_wf _ _ (wf_ite (setLines_wf _ _ hf) hf)

theorem raiseMemory_wf {n f} {s : State} (h : s.wf = true) : (raiseMemory n f s).wf = true :=
  memorySettled_wf (flag_wf _ _ h)

end Sys2Proof.Machine
end

section
/-! PROOFS. The canonical form is kept by what `Units` defines. -/

namespace Sys2Proof.Machine

theorem hubFails_wf {s : State} (h : s.wf = true) : (hubFails s).wf = true :=
  wf_frame h rfl rfl rfl

end Sys2Proof.Machine
end

section
/-! PROOFS. The canonical form is kept by what `Channels` defines. -/

namespace Sys2Proof.Machine

theorem setLun_wf {s : State} {n l x} (h : s.wf = true) : (State.setLun s n l x).wf = true :=
  setChan_wf _ _ h

end Sys2Proof.Machine
end

section
/-! PROOFS. The canonical form is kept by what `Trigger` defines. -/

namespace Sys2Proof.Machine

theorem haltRequest_wf {g cause hit} {s : State} (h : s.wf = true) : (haltRequest g cause hit s).wf = true :=
  wf_ite h (puts_wf _ (wakePart_wf _ (setEng_wf _ _ h)))

theorem haltAll_wf (cause : Nat) : ∀ (l : List Nat) {s : State}, s.wf = true → (haltAll cause l s).wf = true
  | [], _, h => h
  | _ :: l, _, h => haltAll_wf cause l (haltRequest_wf h)

theorem clearShadow_wf {held x} {s : State} (h : s.wf = true) : (clearShadow held x s).wf = true :=
  wf_frame h rfl rfl rfl

theorem captureToken_wf {s : State} (h : s.wf = true) : (captureToken s).wf = true :=
  wf_ite h (wf_frame (foldl_wf _ (fun _ _ h => clearShadow_wf h) _ (put64_wf _ _ _ (puts_wf _ h))) rfl rfl rfl)

theorem xtActions_wf {act} {s : State} (h : s.wf = true) : (xtActions act s).wf = true :=
  wf_then (wf_then (wf_then (wf_then (wf_then (wf_ite (wf_emit h) h) fun h => haltAll_wf _ _ h) fun h => haltAll_wf _ _ h) fun h =>
    captureToken_wf h) fun h => flag_wf _ _ h) fun h => foldl_wf _ (fun _ _ h => wf_ite h (wakePart_wf _ (put_wf _ _ h))) _ h

theorem xtFire_wf {c} {s : State} (h : s.wf = true) : (xtFire c s).wf = true :=
  wf_ite h (xtActions_wf (wf_frame h rfl rfl rfl))

theorem xtChannels_wf (src : Nat) : ∀ (l : List Nat) {s : State}, s.wf = true → (xtChannels src l s).wf = true
  | [], _, h => h
  | _ :: l, _, h => xtChannels_wf src l (wf_ite (xtFire_wf h) h)

theorem xtSource_wf {src} {s : State} (h : s.wf = true) : (xtSource src s).wf = true :=
  wf_ite (xtChannels_wf _ _ h) h

end Sys2Proof.Machine
end

section
/-! PROOFS. The canonical form is kept by what `Access` defines. -/

namespace Sys2Proof.Machine

theorem writeSettled_wf {s : State} {a v} (h : s.wf = true) : (writeSettled s a v).wf = true := by
  unfold writeSettled
  split
  · exact wf_ite (memorySettled_wf (writeReg_wf _ _ h)) (chSettled_wf (writeReg_wf _ _ h))
  · exact settledAll_wf (fun _ h => writeReg_wf _ _ h) _ h

theorem latchHigh_wf {s : State} {req a v} (h : s.wf = true) : (latchHigh s req a v).wf = true :=
  wf_frame h rfl rfl rfl

theorem readLatched_wf {s : State} {req a} (h : s.wf = true) : (readLatched s req a).2.wf = true := by
  unfold readLatched
  split
  · exact latchHigh_wf h
  · split
    · exact wf_frame h rfl rfl rfl
    · exact h

end Sys2Proof.Machine
end

section
/-! PROOFS. The canonical form is kept by what `ByteCode` defines. -/

namespace Sys2Proof.Machine

theorem secondRead_wf {s : State} {p unit} {inst addr} {rom userWrite} (h : s.wf = true) :
    (secondRead s p unit inst addr rom userWrite).2.wf = true := by
  unfold secondRead
  dsimp only
  split
  · exact h
  · exact checkedRead_wf _ _ _ _ _ _ _ h

theorem markDue_wf {s : State} {f case} (h : s.wf = true) : (markDue s f case).wf = true :=
  wf_frame h rfl rfl rfl

theorem pathStore_wf {s : State} {p unit} {inst addr w} (h : s.wf = true) : (pathStore s p unit inst addr w).wf = true :=
  markDue_wf (storeWord_wf _ _ _ _ _ h)

theorem finishWriteBack_wf {b userHit} {s : State} (h : s.wf = true) : (finishWriteBack b userHit s).wf = true := by
  unfold finishWriteBack
  split
  · exact countCorrection_wf _ _ _ _ _ _ h
  · split
    · exact countCorrection_wf _ _ _ _ _ _ h
    · split
      · exact countCorrection_wf _ _ _ _ _ _ h
      · exact countCorrection_wf _ _ _ _ _ _ (storeWord_wf _ _ _ _ _ h)

theorem abandonWriteBacks_wf {s : State} {p} (h : s.wf = true) : (abandonWriteBacks s p).wf = true :=
  foldl_wf _ (fun _ _ h => countCorrection_wf _ _ _ _ _ _ h) _ (wf_frame h rfl rfl rfl)

theorem fillTrees_wf {s : State} (h : s.wf = true) : (fillTrees s).wf = true :=
  wf_onchip h (smWf_filter 0 _ _ (wf_parts_bytes h)) (wf_parts_frames h)

end Sys2Proof.Machine
end

section
/-! PROOFS. The canonical form is kept by what `Operands` defines. -/

namespace Sys2Proof.Machine

theorem free_wf {s : State} (h : s.wf = true) : (State.free s).2.wf = true :=
  wf_frame h rfl rfl rfl

theorem logSomewhere_wf {p unit} {inst size} {s : State} (h : s.wf = true) : (logSomewhere p unit inst size s).wf = true :=
  logUncorrectable_wf _ _ _ _ _ (free_wf h)

theorem postUpdate_wf {g x1 p} {s : State} (h : s.wf = true) : (postUpdate g x1 p s).wf = true := by
  unfold postUpdate
  split
  · exact setEng_wf _ _ h
  · exact setEng_wf _ _ (free_wf h)

theorem readLocal_wf {s : State} {g inst} {off bytes} (h : s.wf = true) : (readLocal s g inst off bytes).2.2.wf = true :=
  readBytes_wf _ _ _ _ _ h

theorem writeLocal_wf {s : State} {g inst} {off bytes v} (h : s.wf = true) : (writeLocal s g inst off bytes v).wf = true :=
  writeBytes_wf _ _ _ _ _ _ _ h

end Sys2Proof.Machine
end

section
/-! PROOFS. The canonical form is kept by what `Startup` defines. -/

namespace Sys2Proof.Machine

theorem onConfig_wf {s : State} {f : Config → Config} (h : s.wf = true) (hf : (f s.config).store = s.config.store) :
    (s.onConfig f).wf = true := wf_frame h rfl rfl hf

theorem holdCaptured_wf {xs} {s : State} (h : s.wf = true) : (holdCaptured xs s).wf = true :=
  wf_ite h (put_wf _ _ (onConfig_wf (foldl_wf _ (fun _ _ h => clearShadow_wf (putBit_wf _ _ _ h)) _ h) rfl))

theorem clearGates_wf {xs} {s : State} (h : s.wf = true) : (clearGates xs s).wf = true :=
  foldl_wf _ (fun _ _ h => puts_wf _ h) _ h

theorem holdSectors_wf {xs} {s : State} (h : s.wf = true) : (holdSectors xs s).wf = true :=
  wf_frame (clearGates_wf (holdCaptured_wf h)) rfl rfl rfl

theorem clearSectors_wf {xs} {s : State} (h : s.wf = true) : (clearSectors xs s).wf = true := by
  unfold clearSectors
  rw [State.wf_iff] at h ⊢
  obtain ⟨hr, hi, hb, hf, hrest⟩ := h
  exact ⟨hr, hi, smWf_filter 0 _ _ hb, smWf_filter 0 _ _ hf, hrest⟩

theorem setConfigured_wf {xs b} {s : State} (h : s.wf = true) : (setConfigured xs b s).wf = true :=
  foldl_wf _ (fun _ _ h => flag_wf _ _ h) _ h

theorem setRegionBusy_wf {xs b} {s : State} (h : s.wf = true) : (setRegionBusy xs b s).wf = true :=
  foldl_wf _ (fun _ _ h => flag_wf _ _ h) _ h

theorem restoreContents_wf {xs} {s : State} (h : s.wf = true) : (restoreContents xs s).wf = true := by
  unfold restoreContents
  refine foldl_wf _ (fun t x h => ?_) _ h
  split
  · split
    · exact putWord_wf _ _ h
    · exact h
  · exact h

theorem setStartup_wf {s : State} {who o} (h : s.wf = true) : (State.setStartup s who o).wf = true :=
  onConfig_wf h rfl

theorem beginStartup_wf {who xs} {order gap1 gap2} {s : State} (h : s.wf = true) : (beginStartup who xs order gap1 gap2 s).wf = true :=
  setStartup_wf (wf_frame h rfl rfl rfl)

theorem applyRelease_wf {act xs} {s : State} (h : s.wf = true) : (applyRelease act xs s).wf = true :=
  wf_frame h rfl rfl rfl

theorem leaveHeld_wf {xs} {s : State} (h : s.wf = true) : (leaveHeld xs s).wf = true :=
  wf_frame h rfl rfl rfl

theorem putWords_wf {f n v} {s : State} (h : s.wf = true) : (putWords f n v s).wf = true :=
  puts_wf _ h

theorem freeDigest_wf {s : State} (h : s.wf = true) : (freeDigest s).2.wf = true := by
  unfold freeDigest
  with_reducible refine foldl_snd_wf _ (fun p w hp => ?_) _ h
  dsimp only
  exact free_wf hp

theorem extendMeasurement_wf {m} {s : State} (h : s.wf = true) : (extendMeasurement m s).wf = true :=
  wf_frame h rfl rfl rfl

theorem applyToken_wf {who l} {s : State} (h : s.wf = true) : (applyToken who l s).wf = true := by
  unfold applyToken
  split
  · exact wf_ite h (applyRelease_wf (setStartup_wf h))
  · exact h

theorem applyTokens_wf {l} {s : State} (h : s.wf = true) : (applyTokens l s).wf = true :=
  foldl_wf _ (fun _ _ h => applyToken_wf h) _ h

theorem wakeReadback_wf {s : State} (h : s.wf = true) : (wakeReadback s).wf = true :=
  onConfig_wf h rfl

theorem finishStartup_wf {who} {s : State} (h : s.wf = true) : (finishStartup who s).wf = true := by
  unfold finishStartup
  dsimp only
  split
  · exact raiseCfg_wf (wf_else (wf_frame (onConfig_wf (setStartup_wf h) rfl) rfl rfl rfl) fun h => put_wf _ _ h)
  · exact raiseCfg_wf (wakeReadback_wf (onConfig_wf (puts_wf _
      (extendMeasurement_wf (putWords_wf (setRegionBusy_wf (setStartup_wf h))))) rfl))
  · exact setStartup_wf h

theorem checkStartup_wf {who} {s : State} (h : s.wf = true) : (checkStartup who s).wf = true := by
  unfold checkStartup
  split
  · exact wf_ite (finishStartup_wf h) h
  · exact h

theorem dropIslands_wf {who ls} {s : State} (h : s.wf = true) : (dropIslands who ls s).wf = true := by
  unfold dropIslands
  split
  · exact checkStartup_wf (setStartup_wf h)
  · exact h

theorem startupPartial_wf {s : State} (h : s.wf = true) : (startupPartial s).wf = true :=
  raiseCfg_wf (flag_wf _ _ h)

theorem sectorAlarm_wf {x} {s : State} (h : s.wf = true) : (sectorAlarm x s).wf = true :=
  raiseSector_wf h

theorem putGated_wf {s : State} {l b} (h : s.wf = true) : (putGated s l b).wf = true :=
  foldl_wf _ (fun _ _ h => flag_wf _ _ h) _ h

theorem wakeIsland_wf {s : State} {x} (h : s.wf = true) : (wakeIsland s x).wf = true :=
  putGated_wf h

theorem checkBank_wf {b} {s : State} (h : s.wf = true) : (checkBank b s).wf = true :=
  wf_ite h (raiseSector_wf (flag_wf _ _ h))

theorem checkBanks_wf {s : State} (h : s.wf = true) : (checkBanks s).wf = true :=
  foldl_wf _ (fun _ _ h => wf_ite (flag_wf _ _ h) (checkBank_wf h)) _ h

end Sys2Proof.Machine
end

section
/-! PROOFS. The canonical form is kept by what `Recovery` defines. -/

namespace Sys2Proof.Machine

theorem onWake_wf {s : State} {f} (h : s.wf = true) : (State.onWake s f).wf = true :=
  wf_frame h rfl rfl rfl

theorem errorCompletion_wf {x0} {s : State} (h : s.wf = true) : (errorCompletion x0 s).wf = true := by
  unfold errorCompletion
  split
  · exact wf_ite h (wf_ite (wf_emit (freeDigest_wf h)) (wf_emit h))
  · exact h

theorem failEntries_wf {f} {s : State} (h : s.wf = true) : (failEntries f s).wf = true :=
  onWake_wf (foldl_wf _ (fun _ _ h => errorCompletion_wf h) _ h)

theorem logRecovery_wf {r ended} {s : State} (h : s.wf = true) : (logRecovery r ended s).wf = true :=
  puts_wf _ h

theorem showRecovery_wf {s : State} (h : s.wf = true) : (showRecovery s).wf = true := by
  unfold showRecovery
  split
  · exact puts_wf _ h
  · exact puts_wf _ h

theorem endRecovery_wf {r ended} {s : State} (h : s.wf = true) : (endRecovery r ended s).wf = true :=
  showRecovery_wf (logRecovery_wf (onWake_wf h))

theorem abandonRecovery_wf {r} {s : State} (h : s.wf = true) : (abandonRecovery r s).wf = true :=
  raiseWake_wf (count_wf _ _ (endRecovery_wf (failEntries_wf h)))

theorem holdEntries_wf {kind unit} {s : State} (h : s.wf = true) : (holdEntries kind unit s).wf = true :=
  onWake_wf h

theorem beginRecovery_wf {kind unit} {s : State} (h : s.wf = true) : (beginRecovery kind unit s).wf = true := by
  unfold beginRecovery
  split
  · exact wf_ite (abandonRecovery_wf h) (raiseWake_wf (showRecovery_wf (holdEntries_wf (onWake_wf h))))
  · exact wf_then (wf_then (puts_wf _ (showRecovery_wf (holdEntries_wf
      (onWake_wf h)))) fun h => xtSource_wf h) fun h => abandonRecovery_wf h

theorem resetRecoveries_wf {parts} {s : State} (h : s.wf = true) : (resetRecoveries parts s).wf = true :=
  foldl_wf _ (fun _ _ h => endRecovery_wf h) _ h

end Sys2Proof.Machine
end

section
/-! PROOFS. The canonical form is kept by what `Reset` defines. -/

namespace Sys2Proof.Machine

theorem resetRegs_wf {sc} {s : State} (h : s.wf = true) : (resetRegs sc s).wf = true := by
  unfold resetRegs
  split
  · exact clearFields_wf _ _ h
  · exact clearFields_wf _ _ h
  · exact wf_imageVals (clearFields_wf _ _ h) rfl

theorem drawKey_wf {slot} {s : State} (h : s.wf = true) : (drawKey slot s).wf = true :=
  wf_frame h rfl rfl rfl

theorem resetMemories_wf {dump} {s : State} (h : s.wf = true) : (resetMemories dump s).wf = true := by
  unfold resetMemories
  rw [State.wf_iff] at h ⊢
  obtain ⟨hr, hi, hb, hf, hd, hs, he, hc, hdr, hp⟩ := h
  exact ⟨hr, hi, hb, hf, smWf_filter _ _ _ hd, hs, he, hc, hdr, smWf_filter _ _ _ hp⟩

theorem abandonLoad_wf {s : State} (h : s.wf = true) : (abandonLoad s).wf = true := by
  unfold abandonLoad
  split
  · exact h
  · split
    · exact raiseCfg_wf (wakeReadback_wf (setStartup_wf (onConfig_wf
        (puts_wf _ (wf_ite (setConfigured_wf (clearSectors_wf (setRegionBusy_wf (holdSectors_wf (flag_wf _ _ h))))) h)) rfl)))
    · refine raiseCfg_wf ?_
      refine onConfig_wf ?_ rfl
      refine puts_wf _ ?_
      split
      · exact put_wf _ _ (put_wf _ _ (wf_ite (clearSectors_wf h) h))
      · exact put_wf _ _ (put_wf _ _ (wf_ite (clearSectors_wf h) h))
      · exact put_wf _ _ (put_wf _ _ (wf_ite (clearSectors_wf h) h))
      · exact put_wf _ _ (put_wf _ _ (wf_ite (clearSectors_wf h) h))
      · exact put_wf _ _ (put_wf _ _ (wf_ite (clearSectors_wf h) h))
      · exact put_wf _ _ (wf_ite (clearSectors_wf h) h)

theorem resetLoads_wf {parts} {s : State} (h : s.wf = true) : (resetLoads parts s).wf = true := by
  unfold resetLoads
  dsimp only
  split
  · refine onConfig_wf ?_ rfl
    split
    · exact wf_ite (abandonLoad_wf h) h
    · exact h
  · refine wf_else ?_ fun h => foldl_wf _ (fun _ _ h => setStartup_wf h) _ (dropIslands_wf h)
    split
    · exact wf_ite (abandonLoad_wf h) h
    · exact h

theorem resetProbes_wf {p} {s : State} (h : s.wf = true) : (resetProbes p s).wf = true :=
  wf_frame h rfl rfl rfl

theorem resetDie_wf {d} {s : State} (h : s.wf = true) : (resetDie d s).wf = true :=
  wf_frame (holdSectors_wf (onConfig_wf (resetProbes_wf h) rfl)) rfl rfl rfl

theorem recordActive_wf {n} {s : State} (h : s.wf = true) : (recordActive n s).wf = true := by
  unfold recordActive
  refine foldl_wf _ (fun t x h => ?_) _ h
  split
  · exact puts_wf _ h
  · exact h

theorem resetChannel_wf {n} {s : State} (h : s.wf = true) : (resetChannel n s).wf = true := by
  have h := recordActive_wf (n := n) h
  unfold resetChannel
  rw [State.wf_iff] at h ⊢
  obtain ⟨hr, hi, hb, hf, hd, hs, he, hc, hdr, hp⟩ := h
  exact ⟨hr, hi, hb, hf, hd, hs, smWf_filter _ _ _ he, smWf_filter _ _ _ hc, smWf_filter _ _ _ hdr,
    smWf_map_filter _ _ (fun e => by split <;> rfl) hp⟩

theorem resetHub_wf {s : State} (h : s.wf = true) : (resetHub s).wf = true := by
  have h := resetProbes_wf (p := 20) (foldl_wf (fun s p => s.puts [(WAKE_SEQ_IN p, 0), (WAKE_SEQ_OUT p, 0)])
    (fun _ _ h => puts_wf _ h) (List.range 2) h)
  unfold resetHub
  rw [State.wf_iff] at h ⊢
  obtain ⟨hr, hi, hb, hf, hd, hs, he, hrest⟩ := h
  exact ⟨hr, hi, hb, hf, hd, hs, smWf_filter _ _ _ he, hrest⟩

theorem resetLink_wf {port} {s : State} (h : s.wf = true) : (resetLink port s).wf = true :=
  wf_frame (puts_wf _ h) rfl rfl rfl

theorem resetPower_wf {parts} {s : State} (h : s.wf = true) : (resetPower parts s).wf = true :=
  wf_frame h rfl rfl rfl

theorem resetClocks_wf {sc} {s : State} (h : s.wf = true) : (resetClocks sc s).wf = true :=
  wf_frame h rfl rfl rfl

theorem endBusy_wf {p} {s : State} (h : s.wf = true) : (endBusy p s).wf = true :=
  wf_frame h rfl rfl rfl

theorem resetCold_wf {por} {s : State} (h : s.wf = true) : (resetCold por s).wf = true := by
  have hbytes : smWf 0 (if por then ({} : Onchip) else
      { bytes := (fillTrees s).onchip.bytes, wild := s.onchip.wild, due := aonDue s }).bytes = true := by
    split
    · rfl
    · exact wf_parts_bytes (fillTrees_wf h)
  have hframes : smWf 0 (if por then ({} : Onchip) else
      { bytes := (fillTrees s).onchip.bytes, wild := s.onchip.wild, due := aonDue s }).frames = true := by
    split <;> rfl
  have h := resetMemories_wf (dump := []) h
  unfold resetCold
  rw [State.wf_iff] at h ⊢
  obtain ⟨hr, hi, -, -, hrest⟩ := h
  exact ⟨hr, hi, hbytes, hframes, hrest⟩

theorem resetWarm_wf {alarm} {s : State} (h : s.wf = true) : (resetWarm alarm s).wf = true := by
  have h := resetMemories_wf (dump := if retainsDump s alarm then dumpChannels s else [])
    (s := if retainsDump s alarm then s else fillTrees s) (wf_ite h (fillTrees_wf h))
  unfold resetWarm
  rw [State.wf_iff] at h ⊢
  obtain ⟨hr, hi, hb, -, hrest⟩ := h
  exact ⟨hr, hi, hb, rfl, hrest⟩

theorem markWarm_wf {dump kept} {s : State} (h : s.wf = true) : (markWarm dump kept s).wf = true := by
  unfold markWarm
  split
  · exact foldl_wf _ (fun _ _ h => flag_wf _ _ h) _ h
  · exact puts_wf _ (foldl_wf _ (fun _ _ h => put_wf _ _ h) _ (foldl_wf _ (fun _ _ h => flag_wf _ _ h) _ h))

theorem beginReset_wf {sc alarm} {s : State} (h : s.wf = true) : (beginReset sc alarm s).wf = true := by
  unfold beginReset
  split
  · exact resetRegs_wf (resetClocks_wf (resetCold_wf (foldl_wf _ (fun _ _ h => resetChannel_wf h) _
      (resetHub_wf (resetPower_wf (resetRecoveries_wf (resetLoads_wf (foldl_wf _ (fun _ _ h => abandonWriteBacks_wf h) _ h))))))))
  · exact markWarm_wf (resetRegs_wf (resetClocks_wf (foldl_wf _ (fun _ _ h => resetChannel_wf h) _
      (resetHub_wf (resetPower_wf (foldl_wf _ (fun _ _ h => resetDie_wf h) _
      (resetWarm_wf (resetRecoveries_wf (resetLoads_wf (foldl_wf _ (fun _ _ h => abandonWriteBacks_wf h) _ h))))))))))
  · exact wf_ite (foldl_wf _ (fun _ _ h => put_wf _ _ h) _ (resetRegs_wf
      (resetClocks_wf (resetDie_wf (resetPower_wf (resetRecoveries_wf
      (resetLoads_wf (foldl_wf _ (fun _ _ h => abandonWriteBacks_wf h) _ h))))))))
      (wf_ite (beginRecovery_wf (wf_then (resetRegs_wf (resetClocks_wf
      (resetChannel_wf (resetPower_wf (resetRecoveries_wf (resetLoads_wf
      (foldl_wf _ (fun _ _ h => abandonWriteBacks_wf h) _ h))))))) fun h => flag_wf _ _ h))
      (resetRegs_wf (resetClocks_wf (resetHub_wf (resetPower_wf
      (resetRecoveries_wf (resetLoads_wf (foldl_wf _ (fun _ _ h => abandonWriteBacks_wf h) _ h))))))))
  · exact raiseHp_wf (resetRegs_wf (resetLink_wf (resetRecoveries_wf
      (resetLoads_wf (foldl_wf _ (fun _ _ h => abandonWriteBacks_wf h) _ h)))))

theorem leaveMooring_wf {s : State} (h : s.wf = true) : (leaveMooring s).wf = true := by
  unfold leaveMooring
  refine wf_ite h (foldl_wf _ (fun _ _ h => puts_wf _ h) _ ?_)
  rw [State.wf_iff] at h ⊢
  obtain ⟨hr, hi, hb, hf, hd, hs, he, hc, hdr, hp⟩ := h
  refine ⟨hr, hi, hb, hf, hd, hs, he, hc, smWf_map_filter _ _ ?_ hdr, hp⟩
  exact fun _ => rfl

theorem resetWakes_wf {sc} {s : State} (h : s.wf = true) : (resetWakes sc s).wf = true :=
  wf_ite (wf_frame h rfl rfl rfl) (wf_ite h (leaveMooring_wf h))

theorem startReset_wf {cause sc endsHalt} {s : State} (h : s.wf = true) : (startReset cause sc endsHalt s).wf = true :=
  wf_ite h (beginReset_wf (resetWakes_wf (flag_wf _ _ h)))

theorem startLinkReset_wf {cause port} {s : State} (h : s.wf = true) : (startLinkReset cause port s).wf = true :=
  wf_ite (startReset_wf h) (startReset_wf h)

theorem raiseSec_wf {b f} {s : State} (h : s.wf = true) : (raiseSec b f s).wf = true :=
  wf_then (raiseLeaf_wf _ _ h) fun h => startReset_wf h

theorem integrityHalt_wf {ch group} {kind line} {s : State} (h : s.wf = true) : (integrityHalt ch group kind line s).wf = true :=
  wf_ite h (wf_frame (puts_wf _ h) rfl rfl rfl)

end Sys2Proof.Machine
end

section
/-! PROOFS. The canonical form is kept by what `Mesh` defines. -/

namespace Sys2Proof.Machine

theorem logNoc_wf {unit kind} {port tag} {s : State} (h : s.wf = true) : (logNoc unit kind port tag s).wf = true :=
  count_wf _ _ (puts_wf _ h)

theorem meshLost_wf {d} {s : State} (h : s.wf = true) : (meshLost d s).wf = true :=
  raiseNoc_wf (logNoc_wf (wf_frame h rfl rfl rfl))

end Sys2Proof.Machine
end

section
/-! PROOFS. The canonical form is kept by what `Clocking` defines. -/

namespace Sys2Proof.Machine

theorem execClockStable_wf {d} {s : State} (h : s.wf = true) : Canonical (execClockStable d s) :=
  canonical_next (putBit_wf _ _ _ (wf_frame (wf_begin h) rfl rfl rfl))

theorem clockAlarm_wf {d} {s : State} (h : s.wf = true) : (clockAlarm d s).wf = true :=
  wf_ite (sectorAlarm_wf h) (wf_ite (raiseNoc_wf h) (wf_ite (raiseCh_wf _ _ h)
    (wf_ite h (wf_ite (sectorAlarm_wf h) (wf_ite (sectorAlarm_wf h) (raiseRas_wf h))))))

theorem freezeDomain_wf {d} {s : State} (h : s.wf = true) : (freezeDomain d s).wf = true :=
  wf_onClocks h

theorem failIssued_wf {mine} {s : State} (h : s.wf = true) : (failIssued mine s).wf = true :=
  wf_frame h rfl rfl rfl

theorem freezeIsland_wf {d} {s : State} (h : s.wf = true) : (freezeIsland d s).wf = true := by
  unfold freezeIsland
  refine sectorAlarm_wf ?_
  refine foldl_wf _ (fun t x h => ?_) _ (wf_frame (failIssued_wf (freezeDomain_wf h)) rfl rfl rfl)
  split
  · exact wf_ite (startupPartial_wf (dropIslands_wf h)) h
  · exact h

theorem loseClock_wf {d} {s : State} (h : s.wf = true) : (loseClock d s).wf = true :=
  wf_ite (freezeIsland_wf h) (wf_ite (meshLost_wf (freezeDomain_wf h))
    (wf_ite (wf_then (clockAlarm_wf (failIssued_wf (freezeDomain_wf h))) fun h => wf_onClocks h)
    (foldl_wf _ (fun _ _ h => raiseLane_wf h) _ (wf_ite (wf_frame h rfl rfl rfl) h))))

theorem execClockLost_wf {d} {s : State} (h : s.wf = true) : Canonical (execClockLost d s) :=
  canonical_ite (canonical_next (wf_begin h)) (canonical_next (loseClock_wf (putBit_wf _ _ _ (putBit_wf _ _ _ (wf_begin h)))))

theorem execAonXtalStable_wf {s : State} (h : s.wf = true) : Canonical (execAonXtalStable s) :=
  canonical_next (puts_wf _ (wf_begin h))

theorem xtalFails_wf {s : State} (h : s.wf = true) : (xtalFails s).wf = true :=
  raiseRas_wf (puts_wf _ h)

theorem execAonXtalTimeout_wf {s : State} (h : s.wf = true) : Canonical (execAonXtalTimeout s) :=
  canonical_next (wf_else (wf_begin h) fun h => xtalFails_wf h)

theorem execAonXtalDrift_wf {s : State} (h : s.wf = true) : Canonical (execAonXtalDrift s) :=
  canonical_next (wf_then (wf_begin h) fun h => xtalFails_wf h)

theorem execTimesyncFrameSend_wf {s : State} (h : s.wf = true) : Canonical (execTimesyncFrameSend s) :=
  canonical_ite (canonical_next (wf_emit (wf_begin h))) (canonical_next (wf_begin h))

theorem takeFrame_wf {value} {s : State} (h : s.wf = true) : (takeFrame value s).wf = true :=
  flag_wf _ _ (wf_onClocks h)

theorem execTimesyncFrameReceive_wf {value} {s : State} (h : s.wf = true) : Canonical (execTimesyncFrameReceive value s) :=
  canonical_ite (canonical_next (takeFrame_wf (wf_begin h))) (canonical_next (wf_begin h))

theorem execTimesyncLost_wf {s : State} (h : s.wf = true) : Canonical (execTimesyncLost s) :=
  canonical_ite (canonical_next (wf_begin h)) (canonical_ite (canonical_next (wf_onClocks (wf_begin h)))
    (canonical_next (raiseRas_wf (puts_wf _ (wf_onClocks (wf_begin h))))))

theorem writeTsCtrl_wf {v} {s : State} (h : s.wf = true) : (writeTsCtrl v s).wf = true :=
  wf_ite (wf_onClocks (writeReg_wf _ _ h)) (wf_then (writeReg_wf _ _ h) fun h => wf_onClocks h)

theorem setIslandRuns_wf {x f} {s : State} (h : s.wf = true) : (setIslandRuns x f s).wf = true :=
  wf_onClocks h

theorem writeFreq_wf {x f} {s : State} (h : s.wf = true) : (writeFreq x f s).wf = true :=
  wf_ite h (setIslandRuns_wf (puts_wf _ (wf_frame h rfl rfl rfl)))

theorem execFreqWrite_wf {req sec freq} {s : State} (h : s.wf = true) : Canonical (execFreqWrite req sec freq s) :=
  canonical_next (guardedWrite_wf _ _ _ _ (wf_begin h) (writeFreq_wf (wf_begin h)))

theorem recapIsland_wf {s : State} {x} (h : s.wf = true) : (recapIsland s x).wf = true :=
  wf_ite (wf_ite h (wf_frame (flag_wf _ _ h) rfl rfl rfl)) (wf_frame (flag_wf _ _ h) rfl rfl rfl)

theorem recap_wf {p} {s : State} (h : s.wf = true) : (recap p s).wf = true :=
  wf_ite (foldl_wf _ (fun _ _ h => recapIsland_wf h) _ h) h

theorem execIslandFreqStep_wf {sec} {s : State} (h : s.wf = true) : Canonical (execIslandFreqStep sec s) :=
  canonical_next (wf_ite (setIslandRuns_wf (wf_begin h)) (wf_then (wf_begin h) fun h => setIslandRuns_wf h))

theorem setBundle_wf {b x} {s : State} (h : s.wf = true) : (setBundle b x s).wf = true :=
  wf_onClocks h

theorem execStreamBundleAccept_wf {b value} {s : State} (h : s.wf = true) : Canonical (execStreamBundleAccept b value s) := by
  unfold execStreamBundleAccept
  dsimp only
  split
  · exact canonical_fault
  · exact canonical_ite (canonical_next (wf_begin h)) (canonical_ite (canonical_next (wf_then (wf_begin h) fun h => wf_emit h))
      (canonical_ite (canonical_next (setBundle_wf (wf_begin h)))
      (canonical_ite (canonical_next (wf_emit (setBundle_wf (wf_begin h)))) (canonical_next (wf_emit (wf_begin h))))))

theorem execBundleValueArrive_wf {b} {s : State} (h : s.wf = true) : Canonical (execBundleValueArrive b s) := by
  unfold execBundleValueArrive
  dsimp only
  split
  · exact canonical_fault
  · split
    · exact canonical_next (wf_begin h)
    · exact canonical_ite (canonical_next (setBundle_wf (wf_begin h)))
        (canonical_ite (canonical_next (wf_emit (setBundle_wf (wf_begin h))))
        (canonical_ite (canonical_next (wf_begin h)) (canonical_next (wf_then (setBundle_wf (wf_begin h)) fun h => wakeIsland_wf h))))

end Sys2Proof.Machine
end

section
/-! PROOFS. The canonical form is kept by what `Dram` defines. -/

namespace Sys2Proof.Machine

theorem dramFails_wf {n} {s : State} (h : s.wf = true) : (dramFails n s).wf = true :=
  puts_wf _ (loseDram_wf _ (setDramc_wf _ _ h))

theorem dramBegin_wf {n} {s : State} (h : s.wf = true) : (dramBegin n s).wf = true :=
  puts_wf _ (setDramc_wf _ _ (wf_ite h (loseDram_wf _ h)))

theorem dramStart_wf {n} {s : State} (h : s.wf = true) : (dramStart n s).wf = true :=
  wf_ite h (wf_ite (flag_wf _ _ h) (dramBegin_wf (puts_wf _ h)))

theorem execDramCtrlStart_wf {req n} {s : State} (h : s.wf = true) : Canonical (execDramCtrlStart req n s) :=
  canonical_next (guardedWrite_wf _ _ _ _ (wf_begin h) (dramStart_wf (wf_begin h)))

theorem execDramAutoStart_wf {n} {s : State} (h : s.wf = true) : Canonical (execDramAutoStart n s) :=
  canonical_next (wf_then (wf_begin h) fun h => dramBegin_wf h)

theorem dramTrainingBegins_wf {n} {s : State} (h : s.wf = true) : (dramTrainingBegins n s).wf = true :=
  wf_ite (put_wf _ _ h) h

theorem dramTimes_wf {s : State} (h : s.wf = true) : (dramTimes s).wf = true :=
  foldl_wf _ (fun _ _ h => dramTrainingBegins_wf h) _ h

theorem putTrain_wf {n t w} {s : State} (h : s.wf = true) : (putTrain n t w s).wf = true :=
  puts_wf _ h

theorem dramRelease_wf {n} {s : State} (h : s.wf = true) : (dramRelease n s).wf = true :=
  wf_ite (setDramc_wf _ _ h) h

theorem execDramInitComplete_wf {n trainA trainB} {s : State} (h : s.wf = true) : Canonical (execDramInitComplete n trainA trainB s) :=
  canonical_ite (canonical_next (wf_begin h)) (canonical_next
    (dramRelease_wf (puts_wf _ (setDramc_wf _ _ (putTrain_wf (putTrain_wf (wf_begin h)))))))

theorem dramStepFails_wf {n step sub} {s : State} (h : s.wf = true) : (dramStepFails n step sub s).wf = true :=
  wf_ite (dramFails_wf (raiseMemory_wf (puts_wf _ h))) (raiseMemory_wf (puts_wf _ (setDramc_wf _ _ (raiseMemory_wf (puts_wf _ h)))))

theorem execDramTrainingFailure_wf {n step sub} {s : State} (h : s.wf = true) : Canonical (execDramTrainingFailure n step sub s) :=
  canonical_next (wf_then (wf_begin h) fun h => dramStepFails_wf h)

theorem dramRefAll_wf {n} {s : State} (h : s.wf = true) : (dramRefAll n s).wf = true :=
  wf_ite (setDramc_wf _ _ h) h

theorem execDramCtrlRefAll_wf {req n} {s : State} (h : s.wf = true) : Canonical (execDramCtrlRefAll req n s) :=
  canonical_next (guardedWrite_wf _ _ _ _ (wf_begin h) (dramRefAll_wf (wf_begin h)))

theorem dramStateError_wf {n training} {s : State} (h : s.wf = true) : (dramStateError n training s).wf = true :=
  wf_ite (wf_ite (dramFails_wf (raiseMemory_wf h)) (raiseMemory_wf (count_wf _ _ (put_wf _ _ (setDramc_wf _ _ h)))))
    (wf_ite (wf_ite (dramStepFails_wf (setDramc_wf _ _ (free_wf h))) (setDramc_wf _ _ h)) (wf_ite (raiseMemory_wf (setDramc_wf _ _ h)) h))

theorem execDramStateError_wf {n training} {s : State} (h : s.wf = true) : Canonical (execDramStateError n training s) :=
  canonical_next (dramStateError_wf (wf_begin h))

theorem execDramRequest_wf {n write line} {s : State} (h : s.wf = true) : Canonical (execDramRequest n write line s) :=
  canonical_ite (canonical_next (dramStateError_wf (wf_begin h)))
    (canonical_ite (canonical_ite (canonical_next (setDramc_wf _ _ (wf_begin h))) (canonical_next (setDramc_wf _ _ (wf_begin h))))
    (canonical_ite (canonical_next (setDramc_wf _ _ (wf_begin h))) (canonical_next (wf_begin h))))

theorem defendRow_wf {n bank row} {s : State} (h : s.wf = true) : (defendRow n bank row s).wf = true :=
  wf_ite (count_wf _ _ (setDramc_wf _ _ h)) (setDramc_wf _ _ h)

theorem openRow_wf {n p} {s : State} (h : s.wf = true) : (openRow n p s).wf = true :=
  wf_ite h (defendRow_wf (setDramc_wf _ _ h))

theorem execDramBurstComplete_wf {n write line} {s : State} (h : s.wf = true) : Canonical (execDramBurstComplete n write line s) := by
  unfold execDramBurstComplete
  dsimp only
  split
  · exact canonical_next (wf_begin h)
  · exact canonical_ite (canonical_next (wf_begin h)) (canonical_next (dramRelease_wf (setDramc_wf _ _ (openRow_wf (wf_begin h)))))

theorem execDramRefreshTick_wf {n issued} {s : State} (h : s.wf = true) : Canonical (execDramRefreshTick n issued s) :=
  canonical_ite (canonical_next (wf_begin h)) (canonical_ite (canonical_next (put_wf _ _ (setDramc_wf _ _ (wf_begin h))))
    (canonical_next (wf_then (put_wf _ _ (setDramc_wf _ _ (wf_begin h))) fun h => raiseMemory_wf h)))

theorem execDramMr4Poll_wf {n rate} {hot rfm} {s : State} (h : s.wf = true) : Canonical (execDramMr4Poll n rate hot rfm s) :=
  canonical_ite (canonical_next (wf_begin h)) (canonical_next (wf_then (puts_wf _ (wf_begin h)) fun h => raiseMemory_wf h))

theorem execDramRowIdleClose_wf {n bank} {s : State} (h : s.wf = true) : Canonical (execDramRowIdleClose n bank s) :=
  canonical_next (wf_else (wf_begin h) fun h => setDramc_wf _ _ h)

theorem execDramRdWindow_wf {n} {s : State} (h : s.wf = true) : Canonical (execDramRdWindow n s) :=
  canonical_next (wf_then (setDramc_wf _ _ (wf_begin h)) fun h => raiseMemory_wf h)

theorem dramEnterSr_wf {n why} {s : State} (h : s.wf = true) : (dramEnterSr n why s).wf = true :=
  wf_ite (put_wf _ _ (setDramc_wf _ _ h)) h

theorem dramLeaveSr_wf {n} {s : State} (h : s.wf = true) : (dramLeaveSr n s).wf = true :=
  wf_ite (wf_ite (put_wf _ _ (setDramc_wf _ _ h)) (dramRelease_wf (puts_wf _ (setDramc_wf _ _ h)))) h

theorem execDramSelfRefreshEntry_wf {n} {s : State} (h : s.wf = true) : Canonical (execDramSelfRefreshEntry n s) :=
  canonical_ite (canonical_next (wf_begin h)) (canonical_next (puts_wf _ (setDramc_wf _ _ (wf_begin h))))

theorem execDramUnitResetDone_wf {n} {s : State} (h : s.wf = true) : Canonical (execDramUnitResetDone n s) :=
  canonical_ite (canonical_next (wf_begin h)) (canonical_next (dramRelease_wf (put_wf _ _ (setDramc_wf _ _ (wf_begin h)))))

end Sys2Proof.Machine
end

section
/-! PROOFS. The canonical form is kept by what `Patina` defines. -/

namespace Sys2Proof.Machine

theorem advanceMajor_wf {n a} {s : State} (h : s.wf = true) : (advanceMajor n a s).wf = true :=
  count_wf _ _ (setPatina_wf _ _ h)

theorem stepCounters_wf {n a} {s : State} (h : s.wf = true) : (stepCounters n a s).wf = true :=
  wf_ite (wf_ite h (setPatina_wf _ _ (clearDram_wf _ _ _ h))) (wf_ite (advanceMajor_wf h) (setPatina_wf _ _ h))

theorem logLine_wf {x kind} {s : State} (h : s.wf = true) : (logLine x kind s).wf = true :=
  puts_wf _ h

theorem patAlarm_wf {n} {s : State} (h : s.wf = true) : (patAlarm n s).wf = true :=
  raiseSec_wf (raiseMemory_wf h)

theorem patHalt_wf {x kind} {s : State} (h : s.wf = true) : (patHalt x kind s).wf = true :=
  integrityHalt_wf h

theorem markLine_wf {n a} {s : State} (h : s.wf = true) : (markLine n a s).wf = true :=
  setPatina_wf _ _ h

theorem treeFails_wf {x level} {index kind} {s : State} (h : s.wf = true) : (treeFails x level index kind s).wf = true := by
  unfold treeFails
  dsimp only
  split
  · exact patHalt_wf (logLine_wf (wf_ite (logSomewhere_wf h) h))
  · refine patAlarm_wf ?_
    refine raiseSec_wf ?_
    refine raiseMemory_wf ?_
    split
    · exact puts_wf _ (logLine_wf (wf_ite (logSomewhere_wf h) h))
    · exact raiseMemory_wf (put_wf _ _ (logLine_wf (wf_ite (logSomewhere_wf h) h)))

theorem freeLine_wf {s : State} (h : s.wf = true) : (freeLine s).2.wf = true :=
  freeDigest_wf h

theorem checkLine_wf {x c} {s : State} (h : s.wf = true) : (checkLine x c s).s.wf = true := by
  unfold checkLine
  dsimp only
  refine wf_ite_line (wf_ite (patHalt_wf (logLine_wf h)) (raiseMemory_wf (logLine_wf h))) ?_
  split
  · exact wf_ite_line h (wf_ite_line (freeLine_wf h) (wf_ite (patHalt_wf (logLine_wf (count_wf _ _ h)))
      (patAlarm_wf (logLine_wf (count_wf _ _ h)))))
  · exact wf_ite_line (count_wf _ _ h) (wf_ite_line (freeLine_wf (count_wf _ _ h))
      (wf_ite (patHalt_wf (logLine_wf (count_wf _ _ (count_wf _ _ h)))) (patAlarm_wf (logLine_wf (count_wf _ _ (count_wf _ _ h))))))
  · exact wf_ite (patHalt_wf (logLine_wf (markLine_wf (count_wf _ _ h)))) (raiseMemory_wf (logLine_wf (markLine_wf (count_wf _ _ h))))
  · exact wf_ite_line (freeLine_wf h) (wf_ite (patHalt_wf (logLine_wf (count_wf _ _ h))) (patAlarm_wf (logLine_wf (count_wf _ _ h))))
  · exact wf_ite_line (wf_ite_line h (wf_ite_line (freeLine_wf h)
      (wf_ite (patHalt_wf (logLine_wf (count_wf _ _ h))) (patAlarm_wf (logLine_wf (count_wf _ _ h)))))) (treeFails_wf h)
  · exact wf_ite_line (wf_ite_line h (wf_ite_line (freeLine_wf h)
      (wf_ite (patHalt_wf (logLine_wf (count_wf _ _ h))) (patAlarm_wf (logLine_wf (count_wf _ _ h)))))) (treeFails_wf h)
  · exact wf_ite_line (wf_ite_line h (wf_ite_line (freeLine_wf h)
      (wf_ite (patHalt_wf (logLine_wf (count_wf _ _ h))) (patAlarm_wf (logLine_wf (count_wf _ _ h)))))) (treeFails_wf h)

theorem patRead_wf {x c} {s : State} (h : s.wf = true) : (patRead x c s).s.wf = true := by
  unfold patRead
  refine wf_ite_line ?_ ?_
  · refine freeLine_wf ?_
    split
    · exact h
    · exact wf_ite_line (checkLine_wf h) h
  · split
    · exact h
    · exact wf_ite_line (checkLine_wf h) h

theorem storeLine_wf {x v} {s : State} (h : s.wf = true) : (storeLine x v s).wf = true :=
  setPatina_wf _ _ (putDram_wf _ _ _ _ _ (stepCounters_wf h))

theorem patWrite_wf {x v} {s : State} (h : s.wf = true) : (patWrite x v s).2.wf = true := by
  unfold patWrite
  split
  · exact h
  · exact storeLine_wf h

theorem patMerge_wf {x v} {be c} {s : State} (h : s.wf = true) : (patMerge x v be c s).2.wf = true := by
  unfold patMerge
  dsimp only
  split
  · exact h
  · refine wf_ite_snd ?_ ?_
    · refine storeLine_wf ?_
      split
      · exact wf_ite (count_wf _ _ h) h
      · exact h
    · split
      · refine treeFails_wf ?_
        split
        · exact count_wf _ _ h
        · exact count_wf _ _ h
        · exact h
      · refine wf_ite ?_ ?_
        · refine patHalt_wf ?_
          refine logLine_wf ?_
          refine markLine_wf ?_
          split
          · exact count_wf _ _ h
          · exact count_wf _ _ h
          · exact h
        · refine patAlarm_wf ?_
          refine logLine_wf ?_
          refine markLine_wf ?_
          split
          · exact count_wf _ _ h
          · exact count_wf _ _ h
          · exact h

theorem execPatinaLineRead_wf {n req} {key off} {bytes control check} {s : State} (h : s.wf = true) :
    Canonical (execPatinaLineRead n req key off bytes control check s) := by
  unfold execPatinaLineRead
  dsimp only
  refine canonical_ite (canonical_next (wf_emit (wf_begin h))) ?_
  split
  · exact canonical_next (wf_emit (patRead_wf (wf_begin h)))
  · exact canonical_next (wf_emit (patRead_wf (wf_begin h)))

theorem execPatinaLineWrite_wf {n req} {key off} {data posted} {s : State} (h : s.wf = true) :
    Canonical (execPatinaLineWrite n req key off data posted s) :=
  canonical_ite (canonical_next (wf_emit (wf_begin h))) (canonical_next (wf_emit (patWrite_wf (wf_begin h))))

theorem execPatinaPartialWrite_wf {n req} {key off} {be data} {posted check} {s : State} (h : s.wf = true) :
    Canonical (execPatinaPartialWrite n req key off be data posted check s) :=
  canonical_ite (canonical_next (wf_emit (wf_begin h))) (canonical_next (wf_emit (patMerge_wf (wf_begin h))))

theorem execPageReencryptDone_wf {n page failed} {s : State} (h : s.wf = true) : Canonical (execPageReencryptDone n page failed s) :=
  canonical_ite (canonical_next (wf_begin h)) (canonical_next
    (wf_else (foldl_wf _ (fun _ _ h => logLine_wf (markLine_wf h)) _ (setPatina_wf _ _ (wf_begin h))) fun h => patAlarm_wf h))

theorem execCipherBlockFillDone_wf {n block} {s : State} (h : s.wf = true) : Canonical (execCipherBlockFillDone n block s) :=
  canonical_next (setPatina_wf _ _ (wf_begin h))

theorem clearTree_wf {n level index} {s : State} (h : s.wf = true) : (clearTree n level index s).wf = true :=
  have h := setPatina_wf n _ h
  wf_dram h (smWf_filter 0 _ _ (wf_parts_dram h))

theorem patClear_wf {n entry} {s : State} (h : s.wf = true) : (patClear n entry s).wf = true :=
  wf_else (put_wf _ _ h) fun h => puts_wf _ (clearTree_wf h)

theorem execPatCtrlClear_wf {req n entry} {s : State} (h : s.wf = true) : Canonical (execPatCtrlClear req n entry s) :=
  canonical_next (guardedWrite_wf _ _ _ _ (wf_begin h) (patClear_wf (wf_begin h)))

theorem zeroTree_wf {n} {s : State} (h : s.wf = true) : (zeroTree n s).wf = true :=
  loseDram_wf _ (setPatina_wf _ _ h)

theorem patRelease_wf {n} {s : State} (h : s.wf = true) : (patRelease n s).wf = true :=
  wf_ite h (wf_else (putBit_wf _ _ _ (put_wf _ _ (zeroTree_wf h))) fun h => wf_frame (puts_wf _ h) rfl rfl rfl)

theorem execPatCtrlRelease_wf {req n} {s : State} (h : s.wf = true) : Canonical (execPatCtrlRelease req n s) :=
  canonical_next (guardedWrite_wf _ _ _ _ (wf_begin h) (patRelease_wf (wf_begin h)))

theorem writePatCtrl_wf {n v} {s : State} (h : s.wf = true) : (writePatCtrl n v s).wf = true :=
  wf_then (wf_then (put_wf _ _ h) fun h => patClear_wf h) fun h => patRelease_wf h

theorem failDram_eq_default {n : Nat} {e : Engine} (h : e.failDram n = ({} : Engine)) : e = ({} : Engine) := by
  obtain ⟨⟩ := e
  simp only [Engine.failDram, Engine.mk.injEq, Option.map_eq_none_iff, List.map_eq_nil_iff] at h ⊢
  exact h

theorem failDrams_wf {n : Nat} {s : State} (h : s.wf = true) :
   State.wf { s with engines := s.engines.map (fun (g : Nat × Engine) => (g.1, g.2.failDram n)) } = true :=
  wf_engines h (smWf_map ({} : Engine) (Engine.failDram n) (fun _ => failDram_eq_default) (wf_parts_engines h))

theorem execPatinaStateError_wf {n} {s : State} (h : s.wf = true) : Canonical (execPatinaStateError n s) := by
  have h := wf_begin h
  unfold execPatinaStateError
  with_reducible refine canonical_ite (canonical_next h) (canonical_ite (canonical_next (raiseMemory_wf (put_wf _ _ h)))
    (canonical_next (beginRecovery_wf (raiseMemory_wf (put_wf _ _ (failDrams_wf ?_))))))
  exact wf_frame (setPatina_wf _ _ h) rfl rfl rfl

theorem execPatinaUnitResetDone_wf {n} {s : State} (h : s.wf = true) : Canonical (execPatinaUnitResetDone n s) :=
  canonical_next (wf_then (wf_begin h) fun h => put_wf _ _ h)

end Sys2Proof.Machine
end

section
/-! PROOFS. The canonical form is kept by what `Buffers` defines. -/

namespace Sys2Proof.Machine

theorem breakLine_wf {mine byu line} {s : State} (h : s.wf = true) : (breakLine mine byu line s).wf = true :=
  foldl_wf _ (fun _ _ h => setEng_wf _ _ h) _ h

theorem breakAt_wf {byu w} {s : State} (h : s.wf = true) : (breakAt byu w s).wf = true := by
  unfold breakAt
  split
  · exact wf_ite (breakLine_wf h) (wf_ite (breakLine_wf h) h)
  · exact h

theorem bankServes_wf {who p} {unit inst} {s : State} (h : s.wf = true) : (bankServes who p unit inst s).wf = true :=
  wf_ite (wf_frame h rfl rfl rfl) h

theorem plainRead_wf {x w k} {s : State} (h : s.wf = true) : (plainRead x w k s).s.wf = true := by
  unfold plainRead
  split
  · exact patRead_wf h
  · split
    · exact h
    · exact readBytes_wf _ _ _ _ _ (bankServes_wf h)

theorem plainWrite_wf {x w} {v be k} {s : State} (h : s.wf = true) : (plainWrite x w v be k s).2.wf = true := by
  unfold plainWrite
  split
  · exact wf_ite_snd (patWrite_wf h) (patMerge_wf h)
  · split
    · exact h
    · exact breakAt_wf (writeBytes_wf _ _ _ _ _ _ _ (bankServes_wf h))

theorem memRead_wf {x a k} {s : State} {r : LineRes} (h : s.wf = true) (e : memRead x a k s = some r) : r.s.wf = true := by
  unfold memRead at e
  obtain ⟨w, -, rfl⟩ := Option.map_eq_some_iff.1 e
  with_reducible exact wf_ite_line h (plainRead_wf h)

theorem memWrite_wf {x addr v be k} {s : State} {p : PortStatus × State} (h : s.wf = true) (e : memWrite x addr v be k s = some p) :
    p.2.wf = true := by
  unfold memWrite at e
  obtain ⟨w, -, rfl⟩ := Option.map_eq_some_iff.1 e
  with_reducible exact wf_ite_snd h (plainWrite_wf h)

theorem readPieces_wf (x : Access1) : ∀ (l : List (Nat × Nat)) {s : State}, s.wf = true → (readPieces x l s).2.2.wf = true
  | [], _, h => h
  | (a, k) :: l, s, h => by
    rw [readPieces]
    split
    · exact h
    · next r e =>
      have hr := memRead_wf h e
      split
      · exact readPieces_wf x l hr
      · exact hr
      · exact hr

theorem writePieces_wf (x : Access1) : ∀ (l : List (Nat × Nat)) {bytes : List Byte} {s : State}, s.wf = true →
    (writePieces x bytes l s).2.2.wf = true
  | [], _, _, h => h
  | (a, k) :: l, bytes, s, h => by
    rw [writePieces]
    split
    · with_reducible exact h
    · next e =>
      have hs := memWrite_wf h e
      with_reducible exact writePieces_wf x l hs
    · next e => with_reducible exact memWrite_wf h e

theorem rangeRead_wf {x addr len} {s : State} (h : s.wf = true) : (rangeRead x addr len s).2.2.wf = true :=
  readPieces_wf _ _ h

theorem rangeWrite_wf {x addr bytes} {s : State} (h : s.wf = true) : (rangeWrite x addr bytes s).2.2.wf = true :=
  writePieces_wf _ _ h

theorem crewRecord_wf {n off k} {s : State} (h : s.wf = true) : (crewRecord n off k s).2.2.wf = true :=
  readBytes_wf _ _ _ _ _ (bankServes_wf h)

end Sys2Proof.Machine
end

section
/-! PROOFS. The canonical form is kept by what `Outbound` defines. -/

namespace Sys2Proof.Machine

theorem sendOutbound_wf {port hostAddr r data be posted} {s t : State} (h : s.wf = true)
    (e : sendOutbound port hostAddr r data be posted s = some t) : t.wf = true := by
  unfold sendOutbound at e
  split at e
  · cases e
  · split at e
    · cases e
    · obtain rfl := Option.some.inj e
      exact wf_emit (onWake_wf (put_wf _ _ h))

theorem retireEntry_wf {x0} {s : State} (h : s.wf = true) : (retireEntry x0 s).wf = true :=
  onWake_wf h

theorem issueWindow_wf {r data be} {s : State} (h : s.wf = true) : (issueWindow r data be s).2.wf = true := by
  unfold issueWindow
  split
  · split
    · exact h
    · split
      · exact h
      · exact wf_getD h (fun _ e => sendOutbound_wf h e)
  · exact h

theorem finishWindow_wf {r data be} {s : State} (h : s.wf = true) : (finishWindow r data be s).2.wf = true := by
  unfold finishWindow
  split
  · exact h
  · split
    · exact wf_frame h rfl rfl rfl
    · split
      · split
        · exact retireEntry_wf h
        · exact h
      · split
        · next _ t e =>
            exact (wf_snd e (issueWindow_wf h))
        · next t e =>
            exact (wf_snd e (issueWindow_wf h))

end Sys2Proof.Machine
end

section
/-! PROOFS. The canonical form is kept by what `Probes` defines. -/

namespace Sys2Proof.Machine

theorem recordOf_wf {n m} {s : State} (h : s.wf = true) : (recordOf n m s).2.wf = true :=
  free_wf h

theorem loseRecord_wf {n} {s : State} (h : s.wf = true) : (loseRecord n s).wf = true :=
  raiseNoc_wf (count_wf _ _ (wf_frame h rfl rfl rfl))

theorem queueRecord_wf {n m} {s : State} (h : s.wf = true) : (queueRecord n m s).wf = true := by
  unfold queueRecord
  dsimp only
  exact wf_ite (loseRecord_wf h) (wf_frame (recordOf_wf h) rfl rfl rfl)

theorem probeCounts_wf {n m} {s : State} (h : s.wf = true) : (probeCounts n m s).2.wf = true := by
  unfold probeCounts
  split
  · exact h
  · exact h
  · exact free_wf h
  · exact free_wf h

theorem countProbe_wf {n m} {s : State} (h : s.wf = true) : (countProbe n m s).wf = true :=
  put64_wf _ _ _ (probeCounts_wf h)

theorem probeHit_wf {n m} {s : State} (h : s.wf = true) : (probeHit n m s).wf = true :=
  wf_then (wf_then (countProbe_wf h) fun h => xtSource_wf h) fun h => queueRecord_wf h

theorem seeMessage_wf {m} {s : State} (h : s.wf = true) : (seeMessage m s).wf = true :=
  foldl_wf _ (fun _ _ h => wf_ite (probeHit_wf h) h) _ h

end Sys2Proof.Machine
end

section
/-! PROOFS. The canonical form is kept by what `Reach` defines. -/

namespace Sys2Proof.Machine

theorem onNoc_wf {s : State} {f} (h : s.wf = true) : (State.onNoc s f).wf = true :=
  wf_frame h rfl rfl rfl

theorem recordReq_wf {r} {s : State} (h : s.wf = true) : (recordReq r s).wf = true :=
  onNoc_wf h

theorem seeRequest_wf {r be} {s : State} (h : s.wf = true) : (seeRequest r be s).wf = true := by
  unfold seeRequest
  split
  · exact h
  · exact seeMessage_wf h

theorem seeAnswer_wf {r excl x} {s : State} (h : s.wf = true) : (seeAnswer r excl x s).wf = true := by
  unfold seeAnswer
  split
  · exact h
  · exact seeMessage_wf h

theorem serveFabric_wf {a off} {s : State} (h : s.wf = true) : (serveFabric a off s).2.wf = true := by
  unfold serveFabric
  split
  · exact h
  · split
    · exact h
    · split
      · exact h
      · split
        · exact h
        · split
          · exact wakePart_wf _ h
          · exact wf_ite (wakeIsland_wf h) h

theorem enterFabric_wf {r a x} {s t : State} (h : s.wf = true) (e : enterFabric r a x s = some t) : t.wf = true := by
  unfold enterFabric at e
  split at e
  · cases e
  · obtain rfl := Option.some.inj e
    exact recordReq_wf (wf_emit (seeRequest_wf h))

theorem sendUnit_wf {a} {s : State} (h : s.wf = true) : (sendUnit a s).wf = true := by
  unfold sendUnit
  dsimp only
  split
  · split
    · exact h
    · split
      · next t e =>
          exact wf_getD h (fun _ he => enterFabric_wf ((wf_snd e (serveFabric_wf h))) he)
      · next p e =>
          exact h
  · exact h

theorem endReq_wf {r err} {s : State} (h : s.wf = true) : (endReq r err s).wf = true :=
  wf_frame h rfl rfl rfl

theorem endUnit_wf {r given} {s : State} (h : s.wf = true) : (endUnit r given s).2.wf = true := by
  unfold endUnit
  split
  · exact endReq_wf h
  · split
    · exact h
    · exact endReq_wf (seeAnswer_wf h)

theorem answerUnit_wf {a given} {s : State} (h : s.wf = true) : (answerUnit a given s).2.wf = true := by
  unfold answerUnit
  dsimp only
  split
  · exact endUnit_wf (wf_ite (sendUnit_wf h) h)
  · exact wf_ite (sendUnit_wf h) h

end Sys2Proof.Machine
end

section
/-! PROOFS. The canonical form is kept by what `Ranges` defines. -/

namespace Sys2Proof.Machine

theorem onHost_wf {s : State} {f} (h : s.wf = true) : (State.onHost s f).wf = true :=
  wf_frame h rfl rfl rfl

theorem biWait_wf {port line} {inv who} {s : State} (h : s.wf = true) : (biWait port line inv who s).wf = true :=
  wf_ite (onHost_wf h) (wf_emit (onHost_wf h))

theorem takeFailed_wf {who} {s t : State} (h : s.wf = true) (e : takeFailed who s = some t) : t.wf = true := by
  unfold takeFailed at e
  split at e
  · obtain rfl := Option.some.inj e
    exact onHost_wf h
  · cases e

theorem turnOf_wf {a} {s : State} (h : s.wf = true) : (turnOf a s).2.wf = true := by
  unfold turnOf
  split
  · exact h
  · exact h
  · next t e =>
      exact (takeFailed_wf h e)
  · split
    · exact wakePart_wf _ h
    · exact biWait_wf h
    · exact h

theorem plainTurn_wf {a} {s : State} (h : s.wf = true) : (plainTurn a s).2.wf = true := by
  unfold plainTurn
  split
  · exact turnOf_wf h
  · exact h

end Sys2Proof.Machine
end

section
/-! PROOFS. The canonical form is kept by what `Nand` defines. -/

namespace Sys2Proof.Machine

theorem setRun_wf {n l} {prio r} {s : State} (h : s.wf = true) : (setRun n l prio r s).wf = true :=
  setLun_wf h

theorem feedCtx_wf {n c l} {s : State} (h : s.wf = true) : (feedCtx n c l s).wf = true :=
  put64_wf _ _ _ h

theorem applyNandCfg_wf {n v} {s : State} (h : s.wf = true) : (applyNandCfg n v s).wf = true :=
  wf_then (puts_wf _ h) fun h => flag_wf _ _ h

theorem writeNandCfg_wf {n v} {s : State} (h : s.wf = true) : (writeNandCfg n v s).wf = true :=
  wf_ite (setChan_wf _ _ (puts_wf _ h)) (applyNandCfg_wf (puts_wf _ h))

theorem releaseBus_wf {n} {s : State} (h : s.wf = true) : (releaseBus n s).wf = true := by
  unfold releaseBus
  dsimp only
  split
  · exact applyNandCfg_wf (setChan_wf _ _ h)
  · exact setChan_wf _ _ h

theorem postNand_wf {n l} {prio r status} {s : State} (h : s.wf = true) : (postNand n l prio r status s).wf = true :=
  setLines_wf _ _ (setRun_wf (put_wf _ _ (rangeWrite_wf h)))

theorem endRun_wf {n l} {prio r status} {s : State} (h : s.wf = true) : (endRun n l prio r status s).wf = true :=
  wf_ite (setChan_wf _ _ (setRun_wf (wf_ite (releaseBus_wf h) h))) (postNand_wf (wf_ite (releaseBus_wf h) h))

theorem drainEnded_wf (n : Nat) : ∀ (l : List (Nat × Bool)) {s : State}, s.wf = true → (drainEnded n l s).wf = true
  | [], _, h => h
  | (k, p) :: l, s, h => by
    have h' := setChan_wf n { s.chan n with ended := (s.chan n).ended.drop 1 } h
    rw [drainEnded]
    refine wf_ite h ?_
    dsimp only
    split
    · split
      · exact drainEnded_wf n l (postNand_wf h')
      · exact drainEnded_wf n l h'
    · exact drainEnded_wf n l h'

theorem writeNandRptr_wf {n v} {s : State} (h : s.wf = true) : (writeNandRptr n v s).wf = true :=
  drainEnded_wf _ _ (put_wf _ _ h)

theorem execNandCqRptrWrite_wf {req n index} {s : State} (h : s.wf = true) : Canonical (execNandCqRptrWrite req n index s) :=
  canonical_next (guardedWrite_wf _ _ _ _ (wf_begin h) (writeNandRptr_wf (wf_begin h)))

theorem nandPush_wf {n v} {s : State} (h : s.wf = true) : (nandPush n v s).wf = true := by
  unfold nandPush
  with_reducible exact wf_ite (raiseCh_wf _ _ (crewRecord_wf h)) (setLun_wf (crewRecord_wf h))

theorem execNandDescriptorPush_wf {req n data} {s : State} (h : s.wf = true) : Canonical (execNandDescriptorPush req n data s) :=
  canonical_next (guardedWrite_wf _ _ _ _ (wf_begin h) (nandPush_wf (wf_begin h)))

theorem startDescriptor_wf {n l} {off prio} {s : State} (h : s.wf = true) : (startDescriptor n l off prio s).wf = true := by
  unfold startDescriptor
  with_reducible
    exact wf_ite (endRun_wf (setRun_wf (setChan_wf _ _ (crewRecord_wf (setLun_wf h)))))
      (wf_ite (endRun_wf (setRun_wf (setChan_wf _ _ (crewRecord_wf (setLun_wf h)))))
      (wf_then (setRun_wf (setChan_wf _ _ (crewRecord_wf (setLun_wf h)))) fun h => endRun_wf h))

theorem grantBus_wf {n} {s : State} (h : s.wf = true) : (grantBus n s).wf = true := by
  unfold grantBus
  dsimp only
  split
  · exact h
  · split
    · exact setRun_wf (setChan_wf _ _ h)
    · split
      · exact startDescriptor_wf h
      · exact h

theorem execNandBusGrant_wf {n} {s : State} (h : s.wf = true) : Canonical (execNandBusGrant n s) :=
  canonical_next (wf_then (wf_begin h) fun h => grantBus_wf h)

theorem atUop_wf {n} {f : Nat → Bool → NandRun → Uop → State → Option State} {s : State}
    (hf : ∀ l prio r u {t t' : State}, t.wf = true → f l prio r u t = some t' → t'.wf = true) (h : s.wf = true) : Canonical
      (atUop n f s) := by
  have h := wf_begin h
  unfold atUop
  dsimp only
  split
  · exact canonical_ite (canonical_next h) (canonical_ite (canonical_next (endRun_wf h))
      (canonical_next (wf_getD h fun _ he => hf _ _ _ _ h he)))
  · exact canonical_next h

theorem nextUop_wf {n l} {prio r} {s : State} (h : s.wf = true) : (nextUop n l prio r s).wf = true :=
  setRun_wf h

theorem execNandEnd_wf {n} {s : State} (h : s.wf = true) : Canonical (execNandEnd n s) := by
  refine atUop_wf (fun l p r u t t' ht e => ?_) h
  split at e
  · obtain rfl := Option.some.inj e
    exact endRun_wf ht
  · cases e

theorem execNandCmd_wf {n} {s : State} (h : s.wf = true) : Canonical (execNandCmd n s) := by
  refine atUop_wf (fun l p r u t t' ht e => ?_) h
  split at e
  · obtain rfl := Option.some.inj e
    exact nextUop_wf (wf_emit ht)
  · cases e

theorem execNandAddr_wf {n} {s : State} (h : s.wf = true) : Canonical (execNandAddr n s) := by
  refine atUop_wf (fun l p r u t t' ht e => ?_) h
  split at e
  · obtain rfl := Option.some.inj e
    exact nextUop_wf (wf_emit ht)
  · cases e

theorem beginData_wf {n l} {prio r} {coded raw crc} {s : State} (h : s.wf = true) : (beginData n l prio r coded raw crc s).wf = true :=
  wf_ite (endRun_wf h) (wf_ite (endRun_wf h) (setRun_wf h))

theorem execNandDout_wf {n} {s : State} (h : s.wf = true) : Canonical (execNandDout n s) := by
  refine atUop_wf (fun l p r u t t' ht e => ?_) h
  split at e
  · obtain rfl := Option.some.inj e
    exact beginData_wf ht
  · cases e

theorem execNandDin_wf {n} {s : State} (h : s.wf = true) : Canonical (execNandDin n s) := by
  refine atUop_wf (fun l p r u t t' ht e => ?_) h
  split at e
  · obtain rfl := Option.some.inj e
    exact beginData_wf ht
  · cases e

theorem feedPhase_wf {n r l} {s : State} (h : s.wf = true) : (feedPhase n r l s).wf = true :=
  wf_ite (feedCtx_wf h) h

theorem endDout_wf {n l} {prio r} {src bufErr} {s : State} (h : s.wf = true) : (endDout n l prio r src bufErr s).wf = true := by
  unfold endDout
  refine wf_ite ?_ ?_
  · refine endRun_wf ?_
    refine feedPhase_wf ?_
    refine wf_emit ?_
    refine wf_ite_snd₂ ?_ h
    split
    · exact rangeRead_wf h
    · exact rangeRead_wf h
  · refine nextUop_wf ?_
    refine feedPhase_wf ?_
    refine wf_emit ?_
    refine wf_ite_snd₂ ?_ h
    split
    · exact rangeRead_wf h
    · exact rangeRead_wf h

theorem countDecode_wf {n cws} {corr fails} {s : State} (h : s.wf = true) : (countDecode n cws corr fails s).wf = true :=
  put_wf _ _ (put_wf _ _ (put64_wf _ _ _ h))

theorem endDin_wf {n l} {prio r} {dst cnt} {rx fixes} {failed bufErr} {s : State} (h : s.wf = true) :
    (endDin n l prio r dst cnt rx fixes failed bufErr s).wf = true :=
  wf_ite (endRun_wf (feedPhase_wf (wf_ite_snd₂ (rangeRead_wf (wf_ite_snd₂ (rangeWrite_wf (wf_ite (countDecode_wf h) h))
    (wf_ite (countDecode_wf h) h))) (wf_ite_snd₂ (rangeWrite_wf (wf_ite (countDecode_wf h) h)) (wf_ite (countDecode_wf h) h)))))
    (nextUop_wf (feedPhase_wf (wf_ite_snd₂ (rangeRead_wf (wf_ite_snd₂ (rangeWrite_wf (wf_ite (countDecode_wf h) h))
    (wf_ite (countDecode_wf h) h))) (wf_ite_snd₂ (rangeWrite_wf (wf_ite (countDecode_wf h) h)) (wf_ite (countDecode_wf h) h)))))

theorem execNandDataPhaseDone_wf {n rx} {corrected failed bufErr} {s : State} (h : s.wf = true) :
    Canonical (execNandDataPhaseDone n rx corrected failed bufErr s) := by
  unfold execNandDataPhaseDone
  dsimp only
  split
  · refine canonical_ite (canonical_next (wf_begin h)) ?_
    split
    · exact canonical_next (endDout_wf (setChan_wf _ _ (wf_begin h)))
    · exact canonical_next (endDin_wf (setChan_wf _ _ (wf_begin h)))
    · exact canonical_next (endRun_wf (setChan_wf _ _ (wf_begin h)))
  · exact canonical_next (wf_begin h)

theorem execNandWaitT_wf {n} {s : State} (h : s.wf = true) : Canonical (execNandWaitT n s) := by
  refine atUop_wf (fun l p r u t t' ht e => ?_) h
  split at e
  · obtain rfl := Option.some.inj e
    exact wf_ite (nextUop_wf ht) (setRun_wf ht)
  · cases e

theorem execNandWaitTExpiry_wf {n} {s : State} (h : s.wf = true) : Canonical (execNandWaitTExpiry n s) := by
  unfold execNandWaitTExpiry
  dsimp only
  split
  · exact canonical_next (wf_then (wf_begin h) fun h => nextUop_wf h)
  · exact canonical_next (wf_begin h)

theorem execNandWaitRb_wf {n} {s : State} (h : s.wf = true) : Canonical (execNandWaitRb n s) := by
  refine atUop_wf (fun l p r u t t' ht e => ?_) h
  split at e
  · obtain rfl := Option.some.inj e
    exact releaseBus_wf (setRun_wf ht)
  · cases e

theorem sendStatus_wf {n l r} {s : State} (h : s.wf = true) : (sendStatus n l r s).wf = true :=
  wf_emit (wf_emit h)

theorem execNandLunReady_wf {n lun} {s : State} (h : s.wf = true) : Canonical (execNandLunReady n lun s) := by
  unfold execNandLunReady
  dsimp only
  split
  · exact canonical_ite (canonical_next (wf_begin h)) (canonical_next (setRun_wf (wf_then (wf_begin h) fun h => sendStatus_wf h)))
  · exact canonical_next (wf_begin h)

theorem execNandWaitRbTimeout_wf {n lun} {s : State} (h : s.wf = true) : Canonical (execNandWaitRbTimeout n lun s) := by
  unfold execNandWaitRbTimeout
  dsimp only
  split
  · exact canonical_next (endRun_wf (raiseCh_wf _ _ (putBit_wf _ _ _ (wf_begin h))))
  · exact canonical_next (wf_begin h)

theorem execNandStatus_wf {n byte} {s : State} (h : s.wf = true) : Canonical (execNandStatus n byte s) := by
  refine atUop_wf (fun l p r u t t' ht e => ?_) h
  split at e
  · obtain rfl := Option.some.inj e
    exact wf_ite (nextUop_wf (sendStatus_wf ht)) (endRun_wf (sendStatus_wf ht))
  · cases e

theorem writeNandCtrl_wf {n en wp} {s : State} (h : s.wf = true) : (writeNandCtrl n en wp s).wf = true := by
  unfold writeNandCtrl
  dsimp only
  split
  · exact endRun_wf (puts_wf _ h)
  · exact puts_wf _ h

theorem execNandCtrlEn_wf {req n} {en wpRel} {s : State} (h : s.wf = true) : Canonical (execNandCtrlEn req n en wpRel s) :=
  canonical_next (guardedWrite_wf _ _ _ _ (wf_begin h) (writeNandCtrl_wf (wf_begin h)))

theorem execNandCtrlWpRel_wf {req n wpRel} {s : State} (h : s.wf = true) : Canonical (execNandCtrlWpRel req n wpRel s) :=
  canonical_next (guardedWrite_wf _ _ _ _ (wf_begin h) (writeNandCtrl_wf (wf_begin h)))

theorem execNandCfgWrite_wf {req n data} {s : State} (h : s.wf = true) : Canonical (execNandCfgWrite req n data s) :=
  canonical_next (guardedWrite_wf _ _ _ _ (wf_begin h) (writeNandCfg_wf (wf_begin h)))

theorem nandResume_wf {n luns} {s : State} (h : s.wf = true) : (nandResume n luns s).wf = true :=
  put_wf _ _ h

theorem execNandResume_wf {req n luns} {s : State} (h : s.wf = true) : Canonical (execNandResume req n luns s) :=
  canonical_next (guardedWrite_wf _ _ _ _ (wf_begin h) (nandResume_wf (wf_begin h)))

end Sys2Proof.Machine
end

section
/-! PROOFS. The canonical form is kept by what `Crew` defines. -/

namespace Sys2Proof.Machine

theorem ldpcPush_wf {n v} {s : State} (h : s.wf = true) : (ldpcPush n v s).wf = true :=
  wf_ite (raiseCh_wf _ _ h) (setChan_wf _ _ h)

theorem startJob_wf {n op} {s : State} (h : s.wf = true) : (startJob n op s).wf = true := by
  unfold startJob
  dsimp only
  split
  · with_reducible exact h
  · split
    · with_reducible exact h
    · with_reducible exact wf_ite (setChan_wf _ _ (crewRecord_wf h)) h

theorem execLdpcEncode_wf {n} {s : State} (h : s.wf = true) : Canonical (execLdpcEncode n s) :=
  canonical_next (startJob_wf (wf_begin h))

theorem execLdpcHardDecode_wf {n} {s : State} (h : s.wf = true) : Canonical (execLdpcHardDecode n s) :=
  canonical_next (startJob_wf (wf_begin h))

theorem execLdpcSoftDecode2bit_wf {n} {s : State} (h : s.wf = true) : Canonical (execLdpcSoftDecode2bit n s) :=
  canonical_next (startJob_wf (wf_begin h))

theorem execLdpcSoftDecode3bit_wf {n} {s : State} (h : s.wf = true) : Canonical (execLdpcSoftDecode3bit n s) :=
  canonical_next (startJob_wf (wf_begin h))

theorem postLdpc_wf {n tag} {status corr iter} {s : State} (h : s.wf = true) : (postLdpc n tag status corr iter s).wf = true :=
  setLines_wf _ _ (put_wf _ _ (rangeWrite_wf h))

theorem endJob_wf {n w} {x failed bufErr} {s : State} (h : s.wf = true) : (endJob n w x failed bufErr s).wf = true :=
  wf_ite (postLdpc_wf (setChan_wf _ _ (wf_ite_snd (rangeRead_wf h) (rangeWrite_wf (rangeRead_wf h)))))
    (wf_ite (postLdpc_wf (setChan_wf _ _ (wf_ite_snd (rangeRead_wf h) (rangeWrite_wf (rangeRead_wf h)))))
    (postLdpc_wf (countDecode_wf (setChan_wf _ _ (wf_ite_snd (rangeRead_wf h) (rangeWrite_wf (rangeRead_wf h)))))))

theorem execLdpcJobComplete_wf {n flips} {written iterations} {failed bufErr} {s : State} (h : s.wf = true) :
    Canonical (execLdpcJobComplete n flips written iterations failed bufErr s) := by
  unfold execLdpcJobComplete
  dsimp only
  split
  · exact canonical_next (wf_else (wf_begin h) fun h => endJob_wf h)
  · exact canonical_next (wf_begin h)

theorem writeCrcCtx_wf {n c} {f : State → State} {s : State} (hs : s.wf = true) (hf : (f s).wf = true) : (writeCrcCtx n c f s).wf = true :=
  wf_ite (flag_wf _ _ hs) (put64_wf _ _ _ hf)

theorem writeCrcPoly_wf {n c} {poly init} {s : State} (h : s.wf = true) : (writeCrcPoly n c poly init s).wf = true :=
  wf_then (put_wf _ _ h) fun h => put64_wf _ _ _ h

theorem execCrcCtxInit_wf {req n} {c poly} {s : State} (h : s.wf = true) : Canonical (execCrcCtxInit req n c poly s) :=
  canonical_next (guardedWrite_wf _ _ _ _ (wf_begin h) (writeCrcCtx_wf (wf_begin h) (writeCrcPoly_wf (wf_begin h))))

theorem writeCrcScan_wf {n bsize} {blk go ctx} {s : State} (h : s.wf = true) : (writeCrcScan n bsize blk go ctx s).wf = true :=
  wf_else (puts_wf _ h) fun h => setChan_wf _ _ (flag_wf _ _ h)

theorem execCrcScanGo_wf {req n} {bsize blk ctx} {s : State} (h : s.wf = true) : Canonical (execCrcScanGo req n bsize blk ctx s) :=
  canonical_next (guardedWrite_wf _ _ _ _ (wf_begin h) (writeCrcScan_wf (wf_begin h)))

theorem scanBytes_wf {n bytes} {fail failed} {s : State} (h : s.wf = true) : (scanBytes n bytes fail failed s).2.2.wf = true :=
  wf_ite_snd₂ h (wf_ite_snd₂ (rangeRead_wf h) h)

theorem endScan_wf {n data} {res v} {bad failed} {s : State} (h : s.wf = true) : (endScan n data res v bad failed s).wf = true :=
  setLines_wf _ _ (wf_then (puts_wf _ (wf_ite (put64_wf _ _ _ (wf_ite h (rangeWrite_wf h))) (feedCtx_wf h))) fun h => flag_wf _ _ h)

theorem execCrcScanDone_wf {n bytes fail} {s : State} (h : s.wf = true) : Canonical (execCrcScanDone n bytes fail s) := by
  have h := wf_begin h
  unfold execCrcScanDone
  with_reducible refine canonical_ite (canonical_next h) ?_
  split
  next src len _ =>
  have ht := plainTurn_wf (a := transferAsk (moverOf n) 0 src len 0) h
  split
  · next e => exact canonical_next (wf_emit (wf_snd e ht))
  · next t u _ e =>
    have hv := scanBytes_wf (n := n) (bytes := bytes) (fail := fail) (failed := t == .fail) (wf_snd e ht)
    split
    next data bad u e =>
    have hu := wf_snd₂ e hv
    split
    next res v _ =>
    with_reducible refine canonical_ite ?_ (canonical_next (endScan_wf hu))
    have hw := plainTurn_wf (a := scanAsk n res u) hu
    split
    · exact canonical_next (wf_emit (plainTurn_wf h))
    · next e => exact canonical_next (endScan_wf (wf_snd e hw))

theorem judgeTasks_wf {n} {s : State} (h : s.wf = true) : (judgeTasks n s).wf = true :=
  wf_then (setChan_wf _ _ h) fun h => setLines_wf _ _ h

theorem taskPush_wf {n v} {s : State} (h : s.wf = true) : (taskPush n v s).wf = true := by
  unfold taskPush
  with_reducible
    exact wf_ite (raiseCh_wf _ _ h) (wf_ite (raiseCh_wf _ _ (crewRecord_wf h)) (judgeTasks_wf (setChan_wf _ _ (crewRecord_wf h))))

theorem execCrewTqPush_wf {req n data} {s : State} (h : s.wf = true) : Canonical (execCrewTqPush req n data s) :=
  canonical_next (guardedWrite_wf _ _ _ _ (wf_begin h) (taskPush_wf (wf_begin h)))

theorem taskPop_wf {n} {s : State} (h : s.wf = true) : (taskPop n s).2.wf = true := by
  unfold taskPop
  split
  · exact h
  · exact judgeTasks_wf (setChan_wf _ _ (wf_ite h (put_wf _ _ h)))

theorem notePopped_wf {req n off} {s : State} (h : s.wf = true) : (notePopped req n off s).wf = true := by
  unfold notePopped
  split
  · exact wf_frame h rfl rfl rfl
  · exact h

theorem readTaskPop_wf {req n debug} {s : State} (h : s.wf = true) : (readTaskPop req n debug s).2.wf = true := by
  unfold readTaskPop
  split
  · exact h
  · exact notePopped_wf (taskPop_wf h)

theorem execTaskPromoted_wf {n} {s : State} (h : s.wf = true) : Canonical (execTaskPromoted n s) :=
  canonical_next (judgeTasks_wf (wf_begin h))

theorem writeSwdtLoad_wf {n v} {s : State} (h : s.wf = true) : (writeSwdtLoad n v s).wf = true :=
  puts_wf _ h

theorem execChSwdtLoad_wf {req n data} {s : State} (h : s.wf = true) : Canonical (execChSwdtLoad req n data s) :=
  canonical_next (guardedWrite_wf _ _ _ _ (wf_begin h) (writeSwdtLoad_wf (wf_begin h)))

theorem writeSwdtKick_wf {n key} {s : State} (h : s.wf = true) : (writeSwdtKick n key s).wf = true :=
  wf_ite (put_wf _ _ h) h

theorem execChSwdtKick_wf {req n key} {s : State} (h : s.wf = true) : Canonical (execChSwdtKick req n key s) :=
  canonical_next (guardedWrite_wf _ _ _ _ (wf_begin h) (writeSwdtKick_wf (wf_begin h)))

theorem execChWdt_wf {n} {s : State} (h : s.wf = true) : Canonical (execChWdt n s) :=
  canonical_ite (canonical_next (startReset_wf (putBit_wf _ _ _ (put_wf _ _ (wf_begin h))))) (canonical_next (wf_begin h))

end Sys2Proof.Machine
end

section
/-! PROOFS. The canonical form is kept by what `Memories` defines. -/

namespace Sys2Proof.Machine

theorem upsetWord_wf {s : State} {p unit} {inst addr upset} (h : s.wf = true) : (upsetWord s p unit inst addr upset).wf = true :=
  wf_ite (storeWord_wf _ _ _ _ _ h) h

theorem execOnchipMemoryRead_wf {p unit} {inst addr} {upset rom} {cfgWrite userWrite} {s : State} (h : s.wf = true) :
    Canonical (execOnchipMemoryRead p unit inst addr upset rom cfgWrite userWrite s) := by
  unfold execOnchipMemoryRead
  dsimp only
  split
  · exact canonical_next (wf_begin h)
  · split
    · refine canonical_next ?_
      refine wf_emit ?_
      refine free_wf ?_
      refine wf_then ?_ fun h => hubFails_wf h
      split
      · exact wf_else (checkedRead_wf _ _ _ _ _ _ _ (upsetWord_wf (wf_begin h))) fun h => userStore_wf _ _ _ _ _ h
      · exact checkedRead_wf _ _ _ _ _ _ _ (upsetWord_wf (wf_begin h))
    · refine canonical_next ?_
      refine wf_emit ?_
      refine wf_then ?_ fun h => hubFails_wf h
      split
      · exact wf_else (checkedRead_wf _ _ _ _ _ _ _ (upsetWord_wf (wf_begin h))) fun h => userStore_wf _ _ _ _ _ h
      · exact checkedRead_wf _ _ _ _ _ _ _ (upsetWord_wf (wf_begin h))

theorem execMemoryWriteBack_wf {p unit} {inst addr userWrite} {s : State} (h : s.wf = true) :
    Canonical (execMemoryWriteBack p unit inst addr userWrite s) := by
  unfold execMemoryWriteBack
  dsimp only
  split
  · exact canonical_next (wf_begin h)
  · split
    · refine canonical_next ?_
      split
      · exact storeWord_wf _ _ _ _ _ (wf_begin h)
      · exact wf_begin h
    · refine canonical_next ?_
      refine finishWriteBack_wf ?_
      refine wf_frame ?_ rfl rfl rfl
      split
      · exact storeWord_wf _ _ _ _ _ (wf_begin h)
      · exact wf_begin h

theorem freeSlag_wf {p x1} {s : State} (h : s.wf = true) : (freeSlag p x1 s).wf = true :=
  putBit_wf _ _ _ (puts_wf _ h)

theorem freeSlags_wf {p mask} {s : State} (h : s.wf = true) : (freeSlags p mask s).wf = true :=
  foldl_wf _ (fun _ _ h => wf_ite (freeSlag_wf h) h) _ h

theorem execSlagEntryFree_wf {req p mask} {s : State} (h : s.wf = true) : Canonical (execSlagEntryFree req p mask s) :=
  canonical_next (guardedWrite_wf _ _ _ _ (wf_begin h) (freeSlags_wf (wf_begin h)))

theorem fluxAdvance_wf {s : State} {p roms} (h : s.wf = true) : (fluxAdvance s p roms).wf = true :=
  wf_then (wf_frame (foldl_wf _ (fun _ _ h => checkedRead_wf _ _ _ _ _ _ _ h) _ h) rfl rfl rfl) fun h => count_wf _ _ h

theorem execFluxStep_wf {p upsets roms} {s : State} (h : s.wf = true) : Canonical (execFluxStep p upsets roms s) :=
  canonical_ite (canonical_next (fluxAdvance_wf (foldl_wf _ (fun _ _ h => upsetWord_wf h) _ (wf_begin h))))
    (canonical_next (foldl_wf _ (fun _ _ h => upsetWord_wf h) _ (wf_begin h)))

theorem execFluxLate_wf {p} {s : State} (h : s.wf = true) : Canonical (execFluxLate p s) :=
  canonical_next (raiseRas_wf (flag_wf _ _ (wf_begin h)))

theorem scrubByte_wf {s : State} {x frame byte} (h : s.wf = true) : (scrubByte s x frame byte).wf = true := by
  unfold scrubByte
  dsimp only
  split
  · exact h
  · exact wf_onchip (count_wf _ _ h) (wf_parts_bytes h) (smWf_smSet 0 _ _ _ (wf_parts_frames h))
  · exact raiseRas_wf (count_wf _ _ (puts_wf _ h))

theorem execCfgScrubFrame_wf {sec upsets} {s : State} (h : s.wf = true) : Canonical (execCfgScrubFrame sec upsets s) := by
  unfold execCfgScrubFrame
  dsimp only
  have h' : (upsets.foldl (fun (t : State) u => { t with onchip := { t.onchip with
      frames := smSet 0 t.onchip.frames (frameKey sec (smGet 0 s.begin.onchip.scrubPos sec) u.1)
        (smGet 0 t.onchip.frames (frameKey sec (smGet 0 s.begin.onchip.scrubPos sec) u.1) ^^^ u.2) } }) s.begin).wf = true := by
    with_reducible exact foldl_wf _ (fun _ _ h => wf_frames h (smWf_smSet 0 _ _ _ (wf_parts_frames h))) _ (wf_begin h)
  with_reducible
    exact canonical_ite (canonical_next h') (canonical_next (wf_frame (foldl_wf _ (fun _ _ h => scrubByte_wf h) _ h') rfl rfl rfl))

theorem checkerGo_wf {v} {s : State} (h : s.wf = true) : (checkerGo v s).wf = true := by
  have hput : ∀ {c : Prop} [Decidable c] {f : Fld} {t : State}, t.wf = true → (if c then t.flag f false else t).wf = true :=
    fun ht => wf_ite (flag_wf _ _ ht) ht
  unfold checkerGo
  exact wf_ite h (wf_ite (wf_frame (flag_wf _ _ (hput (hput (put_wf _ _ h)))) rfl rfl rfl) (hput (hput (put_wf _ _ h))))

theorem execCheckerTestGo_wf {req part} {s : State} (h : s.wf = true) : Canonical (execCheckerTestGo req part s) :=
  canonical_next (guardedWrite_wf _ _ _ _ (wf_begin h) (checkerGo_wf (wf_begin h)))

theorem execCheckerTestDone_wf {fail} {s : State} (h : s.wf = true) : Canonical (execCheckerTestDone fail s) := by
  have h' := flag_wf RAS_CHK_TEST_BUSY false
    (wf_ite (c := s.begin.onchip.chkSkipped = true) (flag_wf RAS_CHK_TEST_SKIPPED true (wf_begin h)) (wf_begin h))
  unfold execCheckerTestDone
  exact canonical_ite (canonical_next h) (canonical_ite (canonical_next (raiseRas_wf (flag_wf _ _ (wf_frame h' rfl rfl rfl))))
    (canonical_next (wf_frame h' rfl rfl rfl)))

end Sys2Proof.Machine
end

section
/-! PROOFS. The canonical form is kept by what `Security` defines. -/

namespace Sys2Proof.Machine

theorem onSec_wf {s : State} {f} (h : s.wf = true) : (State.onSec s f).wf = true :=
  wf_frame h rfl rfl rfl

theorem execTrngHealthFail_wf {s : State} (h : s.wf = true) : Canonical (execTrngHealthFail s) :=
  canonical_next (raiseSec_wf (wf_then (flag_wf _ _ (wf_begin h)) fun h => foldl_wf _ (fun _ _ h => put_wf _ _ h) _
    (put_wf _ _ (onSec_wf h))))

theorem ksLoadTrng_wf {k} {s : State} (h : s.wf = true) : (ksLoadTrng k s).wf = true :=
  wf_ite (wf_ite h (foldl_wf _ (fun _ _ h => wf_ite (put_wf _ _ h) h) _ (puts_wf _ (drawKey_wf h)))) (wf_ite h (put_wf _ _ (drawKey_wf h)))

theorem ksLoadData_wf {k} {s : State} (h : s.wf = true) : (ksLoadData k s).wf = true :=
  wf_ite h (put_wf _ _ (onSec_wf h))

theorem ksClose_wf {k} {s : State} (h : s.wf = true) : (ksClose k s).wf = true :=
  wf_ite h (put_wf _ _ (onSec_wf h))

theorem writeKsCtrl_wf {k v} {s : State} (h : s.wf = true) : (writeKsCtrl k v s).wf = true := by
  unfold writeKsCtrl
  split
  · exact ksLoadTrng_wf h
  · exact ksClose_wf h
  · exact ksLoadData_wf h
  · exact h

theorem execKsLoadTrng_wf {req k} {s : State} (h : s.wf = true) : Canonical (execKsLoadTrng req k s) :=
  canonical_next (guardedWrite_wf _ _ _ _ (wf_begin h) (ksLoadTrng_wf (wf_begin h)))

theorem execKsLoadData_wf {req k} {s : State} (h : s.wf = true) : Canonical (execKsLoadData req k s) :=
  canonical_next (guardedWrite_wf _ _ _ _ (wf_begin h) (ksLoadData_wf (wf_begin h)))

theorem execKsClose_wf {req k} {s : State} (h : s.wf = true) : Canonical (execKsClose req k s) :=
  canonical_next (guardedWrite_wf _ _ _ _ (wf_begin h) (ksClose_wf (wf_begin h)))

theorem lockKeys_wf {s : State} (h : s.wf = true) : (lockKeys s).wf = true :=
  wf_ite h (foldl_wf _ (fun _ _ h => ksClose_wf h) _ (puts_wf _ h))

theorem writeSecLock_wf {v} {s : State} (h : s.wf = true) : (writeSecLock v s).wf = true :=
  wf_then (wf_then (wf_then (wf_ite (flag_wf _ _ h) h) fun h => flag_wf _ _ h) fun h => flag_wf _ _ h) fun h => lockKeys_wf h

theorem execSecLockKeys_wf {req} {s : State} (h : s.wf = true) : Canonical (execSecLockKeys req s) :=
  canonical_next (guardedWrite_wf _ _ _ _ (wf_begin h) (writeSecLock_wf (wf_begin h)))

theorem execSecLockRights_wf {req} {s : State} (h : s.wf = true) : Canonical (execSecLockRights req s) :=
  canonical_next (guardedWrite_wf _ _ _ _ (wf_begin h) (writeSecLock_wf (wf_begin h)))

theorem execSecLockDbg_wf {req} {s : State} (h : s.wf = true) : Canonical (execSecLockDbg req s) :=
  canonical_next (guardedWrite_wf _ _ _ _ (wf_begin h) (writeSecLock_wf (wf_begin h)))

theorem execSecLockDump_wf {req} {s : State} (h : s.wf = true) : Canonical (execSecLockDump req s) :=
  canonical_next (guardedWrite_wf _ _ _ _ (wf_begin h) (writeSecLock_wf (wf_begin h)))

theorem writeOtpBuf_wf {off v} {s : State} (h : s.wf = true) : (writeOtpBuf off v s).wf = true :=
  onSec_wf h

theorem otpGo_wf {s : State} (h : s.wf = true) : (otpGo s).wf = true :=
  flag_wf _ _ h

theorem execOtpProgram_wf {req} {s : State} (h : s.wf = true) : Canonical (execOtpProgram req s) :=
  canonical_next (guardedWrite_wf _ _ _ _ (wf_begin h) (otpGo_wf (wf_begin h)))

theorem execOtpRevoke_wf {req} {s : State} (h : s.wf = true) : Canonical (execOtpRevoke req s) :=
  canonical_next (guardedWrite_wf _ _ _ _ (wf_begin h) (otpGo_wf (wf_begin h)))

theorem endOtp_wf {r} {s : State} (h : s.wf = true) : (endOtp r s).wf = true :=
  raiseSec_wf (onSec_wf (puts_wf _ (wf_ite h (wf_ite (onSec_wf (flag_wf _ _ h)) (flag_wf _ _ h)))))

theorem execOtpRequestDone_wf {ed mldsa written} {s : State} (h : s.wf = true) : Canonical (execOtpRequestDone ed mldsa written s) :=
  canonical_next (wf_then (wf_begin h) fun h => endOtp_wf h)

theorem execSecGlitch_wf {s : State} (h : s.wf = true) : Canonical (execSecGlitch s) :=
  canonical_next (raiseSec_wf (wf_begin h))

theorem spdmAnswer_wf {code may} {f : State → State} {s : State} (hs : s.wf = true) (hf : (f s).wf = true) : (spdmAnswer code may f s).wf = true :=
  wf_ite hs (wf_ite hf (wf_emit hs))

theorem setSpdm_wf {p} {s : State} (h : s.wf = true) : (setSpdm p s).wf = true :=
  onSec_wf h

theorem execGetVersion_wf {s : State} (h : s.wf = true) : Canonical (execGetVersion s) :=
  canonical_next (spdmAnswer_wf (wf_begin h) (wf_emit (setSpdm_wf (wf_begin h))))

theorem execGetCapabilities_wf {s : State} (h : s.wf = true) : Canonical (execGetCapabilities s) :=
  canonical_next (spdmAnswer_wf (wf_begin h) (wf_emit (setSpdm_wf (wf_begin h))))

theorem execNegotiateAlgorithms_wf {s : State} (h : s.wf = true) : Canonical (execNegotiateAlgorithms s) :=
  canonical_next (spdmAnswer_wf (wf_begin h) (wf_emit (setSpdm_wf (wf_begin h))))

theorem freeContent_wf {code} {s : State} (h : s.wf = true) : (freeContent code s).wf = true :=
  wf_emit (freeDigest_wf h)

theorem execGetDigests_wf {s : State} (h : s.wf = true) : Canonical (execGetDigests s) :=
  canonical_next (spdmAnswer_wf (wf_begin h) (freeContent_wf (wf_begin h)))

theorem execGetCertificate_wf {slot} {s : State} (h : s.wf = true) : Canonical (execGetCertificate slot s) :=
  canonical_next (spdmAnswer_wf (wf_begin h) (freeContent_wf (wf_begin h)))

theorem signedAnswer_wf {code} {s : State} (h : s.wf = true) : (signedAnswer code s).wf = true :=
  freeContent_wf (onSec_wf h)

theorem execChallenge_wf {slot} {s : State} (h : s.wf = true) : Canonical (execChallenge slot s) :=
  canonical_next (spdmAnswer_wf (wf_begin h) (signedAnswer_wf (wf_begin h)))

theorem sendMeasurement_wf {i} {s : State} (h : s.wf = true) : (sendMeasurement i s).wf = true :=
  wf_ite (wf_emit h) (wf_ite (freeContent_wf h) (wf_emit h))

theorem execGetMeasurements_wf {index sign} {s : State} (h : s.wf = true) : Canonical (execGetMeasurements index sign s) :=
  canonical_next (spdmAnswer_wf (wf_begin h) (sendMeasurement_wf (wf_then (wf_begin h) fun h => onSec_wf h)))

theorem execKeyExchange_wf {slot} {s : State} (h : s.wf = true) : Canonical (execKeyExchange slot s) :=
  canonical_next (spdmAnswer_wf (wf_begin h) (signedAnswer_wf (onSec_wf (wf_begin h))))

theorem execFinish_wf {session good} {s : State} (h : s.wf = true) : Canonical (execFinish session good s) :=
  canonical_next (spdmAnswer_wf (wf_begin h) (wf_emit (onSec_wf (wf_begin h))))

theorem execEndSession_wf {session} {s : State} (h : s.wf = true) : Canonical (execEndSession session s) :=
  canonical_next (spdmAnswer_wf (wf_begin h) (wf_emit (onSec_wf (wf_begin h))))

theorem execUzPqsig_wf {s : State} (h : s.wf = true) : Canonical (execUzPqsig s) :=
  canonical_next (spdmAnswer_wf (wf_begin h) (freeContent_wf (wf_begin h)))

theorem execIdeKmMessage_wf {port stream session} {s : State} (h : s.wf = true) : Canonical (execIdeKmMessage port stream session s) :=
  canonical_next (spdmAnswer_wf (wf_begin h) (wf_emit (onSec_wf (wf_begin h))))

end Sys2Proof.Machine
end

section
/-! PROOFS. The canonical form is kept by what `Slots` defines. -/

namespace Sys2Proof.Machine

theorem onSlots_wf {s : State} {f} (h : s.wf = true) : (State.onSlots s f).wf = true :=
  wf_frame h rfl rfl rfl

theorem ringSlot_wf {k tag} {s : State} (h : s.wf = true) : (ringSlot k tag s).wf = true :=
  wf_ite (flag_wf _ _ h) (wf_ite (puts_wf _ (setLines_wf _ _ (put_wf _ _ h))) (onSlots_wf (put_wf _ _ (setLines_wf _ _ (put_wf _ _ h)))))

theorem writeRecord_wf {k code err} {s : State} (h : s.wf = true) : (writeRecord k code err s).wf = true := by
  unfold writeRecord
  with_reducible refine wf_ite h ?_
  split
  next bad t e =>
  with_reducible refine wf_then (wf_ite_eq e (wf_pair (rangeWrite_wf h)) ?_) (flag_wf _ _)
  clear e
  split
  · split
    · exact wf_pair (wf_emit h)
    · exact wf_pair h
  · exact wf_pair (wf_emit h)
  · exact wf_pair h
  · exact wf_pair h

theorem recordTurn_wf {k} {s : State} (h : s.wf = true) : (recordTurn k s).2.wf = true := by
  unfold recordTurn
  split
  · exact h
  · exact plainTurn_wf h

theorem leaveSlot_wf {k} {s : State} (h : s.wf = true) : (leaveSlot k s).wf = true :=
  onSlots_wf h

theorem finishSlot_wf {k code} {err failed} {s : State} (h : s.wf = true) : (finishSlot k code err failed s).wf = true :=
  leaveSlot_wf (wf_then (settled_wf _ _ (putBit_wf _ _ _ (put_wf _ _
    (wf_ite (flag_wf _ _ h) (writeRecord_wf h))))) fun h => sendToPorts_wf h)

theorem recordSlot_wf {k code err} {s : State} (h : s.wf = true) : (recordSlot k code err s).wf = true := by
  have ht := recordTurn_wf (k := k) h
  generalize hf : recordSlot = f
  delta recordSlot at hf
  subst hf
  beta_reduce
  revert ht
  induction recordTurn k s using of_any with | any r =>
  intro ht
  split
  · exact onSlots_wf (leaveSlot_wf ht)
  · exact finishSlot_wf ht

theorem completeSlot_wf {k code} {result err} {s : State} (h : s.wf = true) : (completeSlot k code result err s).wf = true := by
  unfold completeSlot
  refine wf_ite h ?_
  refine recordSlot_wf ?_
  refine put_wf _ _ ?_
  split
  · exact put_wf _ _ h
  · exact h

theorem settleSlots_wf {s : State} (h : s.wf = true) : (settleSlots s).wf = true :=
  foldl_wf _ (fun _ _ h => recordSlot_wf h) _ h

theorem bamidGoesOn_wf {g} {s : State} (h : s.wf = true) : (bamidGoesOn g s).wf = true :=
  setEng_wf _ _ (free_wf h)

theorem slotBoundary_wf {g} {s : State} (h : s.wf = true) : (slotBoundary g s).wf = true := by
  unfold slotBoundary
  refine wf_ite h ?_
  split
  · exact h
  · split
    · exact h
    · exact wf_ite (bamidGoesOn_wf (completeSlot_wf h)) h

theorem stopSlot_wf {k code} {s : State} (h : s.wf = true) : (stopSlot k code s).wf = true := by
  unfold stopSlot
  split
  · exact h
  · exact wf_ite h (slotBoundary_wf (onSlots_wf h))

theorem abortSlot_wf {k} {s : State} (h : s.wf = true) : (abortSlot k s).wf = true := by
  unfold abortSlot
  split
  · exact completeSlot_wf h
  · exact stopSlot_wf h
  · exact stopSlot_wf h
  · exact h

theorem slotEngineLost_wf {g} {s : State} (h : s.wf = true) : (slotEngineLost g s).wf = true := by
  unfold slotEngineLost
  refine wf_ite h ?_
  split
  · exact completeSlot_wf h
  · exact h

theorem slotException_wf {g ctx} {s : State} (h : s.wf = true) : (slotException g ctx s).wf = true := by
  unfold slotException
  refine wf_ite h ?_
  split
  · exact wf_ite (completeSlot_wf h) h
  · exact h

end Sys2Proof.Machine
end

section
/-! PROOFS. The canonical form is kept by what `Yezar` defines. -/

namespace Sys2Proof.Machine

theorem raiseEng_wf {g} {s : State} (h : s.wf = true) : (raiseEng g s).wf = true :=
  wf_ite (chSettled_wf (wf_ite (putBit_wf _ _ _ h) (putBit_wf _ _ _ h))) (settled_wf _ _ (putBit_wf _ _ _ h))

theorem doubleFault_wf {g} {s : State} (h : s.wf = true) : (doubleFault g s).wf = true :=
  wf_else (raiseEng_wf (put_wf _ _ (setEng_wf _ _ h))) fun h => beginRecovery_wf h

theorem takeException_wf {g x} {s : State} (h : s.wf = true) : (takeException g x s).wf = true :=
  wf_ite (doubleFault_wf h) (wf_else (setEng_wf _ _ h) fun h => slotException_wf h)

theorem takeHalt_wf {g cause} {hit forced} {s : State} (h : s.wf = true) : (takeHalt g cause hit forced s).wf = true :=
  wf_ite (wf_then (puts_wf _ (setEng_wf _ _ h)) fun h => xtSource_wf h) (xtSource_wf (puts_wf _ (setEng_wf _ _ h)))

theorem endStep_wf {g} {s : State} (h : s.wf = true) : (endStep g s).wf = true :=
  wf_ite (takeHalt_wf h) h

theorem fire_wf {g k cause} {s : State} (h : s.wf = true) : (fire g k cause s).wf = true :=
  wf_ite h (wf_then (wf_then (setEng_wf _ _ h) fun h => wf_then (haltRequest_wf h) fun h => flag_wf _ _ h) fun h => xtSource_wf h)

theorem watchFetch_wf {g} {s : State} (h : s.wf = true) : (watchFetch g s).wf = true :=
  wf_ite (setEng_wf _ _ h) (foldl_wf _ (fun _ _ h => wf_ite (fire_wf h) h) _ h)

theorem watchData_wf {g acc} {s : State} (h : s.wf = true) : (watchData g acc s).wf = true :=
  wf_ite h (foldl_wf _ (fun _ _ h => foldl_wf _ (fun _ _ h => wf_ite (fire_wf h) h) _ h) _ h)

theorem doneWith_wf {g x1} {s : State} (h : s.wf = true) : DidWf (doneWith g x1 s) :=
  didWf_done (setEng_wf _ _ h)

theorem engRead_wf {s : State} {g off bytes} (h : s.wf = true) : (engRead s g off bytes).2.wf = true := by
  unfold engRead
  split
  · exact h
  · split
    · exact h
    · exact readLatched_wf h

theorem storeError_wf {g loc kind} {s : State} (h : s.wf = true) : (storeError g loc kind s).wf = true :=
  setLine_wf (puts_wf _ (count_wf _ _ h))

theorem startCore_wf {g code} {s : State} (h : s.wf = true) : (startCore g code s).wf = true :=
  wf_then (puts_wf _ (setEng_wf _ _ h)) fun h => haltRequest_wf h

theorem writeEngCtrl_wf {g run restart} {s : State} (h : s.wf = true) : (writeEngCtrl g run restart s).wf = true :=
  wf_ite (wf_then (flag_wf _ _ h) fun h => startCore_wf h) (wf_then (flag_wf _ _ h) fun h => puts_wf _ (setEng_wf _ _ h))

theorem writeEngReg_wf {g off v} {s : State} (h : s.wf = true) : (writeEngReg g off v s).wf = true :=
  wf_ite (writeEngCtrl_wf h) (wf_ite (put_wf _ _ h) (wf_ite (puts_wf _ h)
    (wf_ite (wf_ite (put_wf _ _ h) h) (wf_ite (setEng_wf _ _ (put_wf _ _ h)) (writeReg_wf _ _ h)))))

theorem engStore_wf {s : State} {g off} {bytes v} (h : s.wf = true) : (engStore s g off bytes v).wf = true :=
  wf_ite h (wf_ite (wf_ite (put_wf _ _ h) h) (writeEngReg_wf h))

theorem sendPort_wf {g opc} {loc dev} {bytes v} {s : State} (h : s.wf = true) : (sendPort g opc loc dev bytes v s).wf = true := by
  unfold sendPort
  split
  · exact sendUnit_wf h
  · exact issueWindow_wf h

theorem takeStores_wf {g k} {s : State} (h : s.wf = true) : (takeStores g k s).wf = true :=
  setEng_wf _ _ (foldl_wf _ (fun _ _ h => wf_ite h (sendPort_wf h)) _ h)

theorem leave_wf {g w} {s : State} (h : s.wf = true) : (leave g w s).wf = true :=
  takeStores_wf (setEng_wf _ _ h)

theorem postStore_wf {g p acc} {s : State} (h : s.wf = true) : DidWf (postStore g p acc s) :=
  didWf_ite (didWf_done (setEng_wf _ _ h)) (didWf_stall (setEng_wf _ _ h))

theorem keepWords_wf {g inst} {off bytes} {s : State} (h : s.wf = true) : (keepWords g inst off bytes s).wf = true :=
  wf_ite (setEng_wf _ _ h) h

theorem doLoad_wf {g op} {rd rb off} {s : State} (h : s.wf = true) : DidWf (doLoad g op rd rb off s) := by
  unfold doLoad
  dsimp only
  split
  · exact didWf_trap h
  · split
    · exact didWf_done (setEng_wf _ _ h)
    · split
      · exact didWf_trap h
      · exact didWf_ite (didWf_trap (readLocal_wf h)) (didWf_done (setEng_wf _ _ (readLocal_wf h)))
      · exact didWf_done (setEng_wf _ _ (engRead_wf h))
      · exact didWf_stall (sendPort_wf (leave_wf h))

theorem doStore_wf {g op} {rd rb off} {s : State} (h : s.wf = true) : DidWf (doStore g op rd rb off s) := by
  unfold doStore
  dsimp only
  split
  · exact didWf_trap h
  · split
    · exact didWf_done h
    · split
      · exact didWf_done (storeError_wf h)
      · exact didWf_done (writeLocal_wf (keepWords_wf h))
      · exact didWf_done (engStore_wf h)
      · exact postStore_wf h

theorem doLdx_wf {g rd} {rb wide} {s : State} (h : s.wf = true) : DidWf (doLdx g rd rb wide s) := by
  unfold doLdx
  refine didWf_ite (didWf_trap h) ?_
  refine didWf_ite (didWf_trap h) ?_
  refine didWf_ite (doneWith_wf h) ?_
  split
  · exact didWf_stall (leave_wf h)
  · exact didWf_trap h

theorem doStx_wf {g rd} {gs rb wide} {s : State} (h : s.wf = true) : DidWf (doStx g rd gs rb wide s) := by
  unfold doStx
  refine didWf_ite (didWf_trap h) ?_
  refine didWf_ite (didWf_trap h) ?_
  refine didWf_ite (doneWith_wf h) ?_
  split
  · exact didWf_stall (leave_wf h)
  · exact didWf_trap h

theorem fetchXy_wf {s : State} {g inst off} (h : s.wf = true) : (fetchXy s g inst off).2.2.wf = true := by
  unfold fetchXy
  split
  · exact readLocal_wf h
  · exact h

theorem doDsp_wf {g op} {a xi} {yi xu} {yu lm} {s : State} (h : s.wf = true) : DidWf (doDsp g op a xi yi xu yu lm s) :=
  didWf_ite (didWf_trap (fetchXy_wf (fetchXy_wf h))) (didWf_ite (didWf_trap (fetchXy_wf (fetchXy_wf h)))
    (didWf_done (wf_then (wf_then (wf_else (fetchXy_wf (fetchXy_wf h)) fun h => setEng_wf _ _ h) fun h => postUpdate_wf h) fun h =>
    postUpdate_wf h)))

theorem storeXy_wf {g y} {pi u} {w sat} {s : State} (h : s.wf = true) : DidWf (storeXy g y pi u w sat s) :=
  didWf_done (wf_then (wf_then (wf_ite (writeLocal_wf h) h) fun h => setEng_wf _ _ h) fun h => postUpdate_wf h)

theorem doBranch_wf {g taken} {link target} {s : State} (h : s.wf = true) : DidWf (doBranch g taken link target s) :=
  didWf_ite (didWf_done (setEng_wf _ _ h)) (didWf_done h)

theorem doLoop_wf {g e9 count} {s : State} (h : s.wf = true) : DidWf (doLoop g e9 count s) :=
  didWf_done (setEng_wf _ _ h)

theorem doMfc_wf {g rd cn} {s : State} (h : s.wf = true) : DidWf (doMfc g rd cn s) := by
  unfold doMfc
  split
  · exact doneWith_wf h
  · exact doneWith_wf h
  · exact doneWith_wf h
  · exact doneWith_wf h
  · exact doneWith_wf h
  · exact doneWith_wf h
  · exact doneWith_wf h
  · exact doneWith_wf h
  · exact doneWith_wf h
  · exact doneWith_wf h
  · exact doneWith_wf h
  · exact doneWith_wf h
  · exact doneWith_wf h
  · exact doneWith_wf h
  · exact doneWith_wf h
  · exact doneWith_wf h

theorem doMtc_wf {g cn rs} {s : State} (h : s.wf = true) : DidWf (doMtc g cn rs s) := by
  unfold doMtc
  split
  · exact doneWith_wf h
  · exact doneWith_wf h
  · exact doneWith_wf h
  · exact doneWith_wf h
  · exact doneWith_wf h
  · exact doneWith_wf h
  · exact doneWith_wf h
  · exact doneWith_wf h
  · exact doneWith_wf h
  · exact doneWith_wf h
  · exact doneWith_wf h
  · exact doneWith_wf h
  · exact doneWith_wf h

theorem perform_wf {g i} {s : State} (h : s.wf = true) : DidWf (perform g i s) := by
  unfold perform
  split
  · exact doneWith_wf h
  · exact doneWith_wf h
  · exact doneWith_wf h
  · exact doneWith_wf h
  · exact doneWith_wf h
  · exact doneWith_wf h
  · exact doneWith_wf h
  · exact doneWith_wf h
  · exact doLoad_wf h
  · exact doStore_wf h
  · exact doLdx_wf h
  · exact doStx_wf h
  · exact doBranch_wf h
  · exact doBranch_wf h
  · exact doBranch_wf h
  · exact doBranch_wf h
  · exact didWf_done h
  · exact doLoop_wf h
  · exact doDsp_wf h
  · exact doneWith_wf h
  · exact storeXy_wf h
  · exact storeXy_wf h
  · exact doneWith_wf h
  · exact doneWith_wf h
  · exact doneWith_wf h
  · exact doneWith_wf h
  · exact doneWith_wf h
  · exact doneWith_wf h
  · exact didWf_done h
  · exact didWf_ite (doneWith_wf h) (didWf_stall (takeStores_wf (setEng_wf _ _ h)))
  · exact didWf_done h
  · exact doneWith_wf h
  · exact didWf_done h
  · exact didWf_done h
  · exact doMfc_wf h
  · exact doMtc_wf h

theorem retire_wf {g flow acc} {s : State} (h : s.wf = true) : (retire g flow acc s).wf = true := by
  unfold retire
  refine wf_ite h ?_
  refine slotBoundary_wf ?_
  refine endStep_wf ?_
  refine watchData_wf ?_
  split
  · exact takeException_wf (setEng_wf _ _ h)
  · exact wf_else (setEng_wf _ _ h) fun h => put_wf _ _ h
  · exact setEng_wf _ _ h

theorem trapped_wf {g x} {s : State} (h : s.wf = true) : (trapped g x s).wf = true :=
  endStep_wf (takeException_wf h)

theorem conclude_wf {g} {d : Did} (h : DidWf d) : (conclude g d).wf = true := by
  cases d with
  | done flow acc s => exact retire_wf h
  | trap x s => exact trapped_wf h
  | stall s => exact h

theorem issue_wf {g i} {s : State} (h : s.wf = true) : (issue g i s).wf = true := by
  unfold issue
  dsimp only
  with_reducible refine wf_ite (trapped_wf h) ?_
  with_reducible refine wf_ite (trapped_wf (readLocal_wf h)) ?_
  with_reducible refine wf_ite (readLocal_wf h) ?_
  split
  · with_reducible exact trapped_wf (readLocal_wf h)
  · split
    · with_reducible exact trapped_wf (setEng_wf _ _ (readLocal_wf h))
    · with_reducible exact conclude_wf (perform_wf (setEng_wf _ _ (readLocal_wf h)))

theorem runYezar_wf {g i} {s : State} (h : s.wf = true) : (runYezar g i s).wf = true :=
  wf_ite h (wf_else (watchFetch_wf h) fun h => issue_wf h)

end Sys2Proof.Machine
end

section
/-! PROOFS. The canonical form is kept by what `Loader` defines. -/

namespace Sys2Proof.Machine

theorem beginLoad_wf {l} {s : State} (h : s.wf = true) : (beginLoad l s).wf = true :=
  puts_wf _ (onConfig_wf h rfl)

theorem waitOn_wf {src} {s : State} (h : s.wf = true) : (waitOn src s).wf = true :=
  wf_then (puts_wf _ (onConfig_wf h rfl)) fun h => raiseCfg_wf h

theorem startSource_wf {src} {s : State} (h : s.wf = true) : (startSource src s).wf = true :=
  wf_ite (waitOn_wf h) (beginLoad_wf h)

theorem bootLoad_wf {s : State} (h : s.wf = true) : (bootLoad s).wf = true :=
  startSource_wf (onConfig_wf h rfl)

theorem clearDone_wf {s : State} (h : s.wf = true) : (clearDone s).wf = true := by
  unfold clearDone
  dsimp only
  split
  · exact startSource_wf (onConfig_wf (wf_ite (put_wf _ _ h) h) rfl)
  · exact wf_then (wf_ite (put_wf _ _ h) h) fun h => put_wf _ _ h

theorem recordFailure_wf {src cause} {s : State} (h : s.wf = true) : (recordFailure src cause s).wf = true := by
  unfold recordFailure
  refine raiseCfg_wf ?_
  split
  · exact put_wf _ _ (put_wf _ _ h)
  · exact put_wf _ _ (put_wf _ _ h)
  · exact put_wf _ _ (put_wf _ _ h)
  · exact put_wf _ _ (put_wf _ _ h)
  · exact put_wf _ _ (put_wf _ _ h)
  · exact put_wf _ _ h

theorem partLoadFails_wf {cause} {s : State} (h : s.wf = true) : (partLoadFails cause s).wf = true :=
  raiseCfg_wf (puts_wf _ (onConfig_wf h rfl))

theorem loadFails_wf {cause} {s : State} (h : s.wf = true) : (loadFails cause s).wf = true := by
  unfold loadFails
  split
  · exact h
  · exact wf_ite (partLoadFails_wf h) (wf_ite (puts_wf _ (onConfig_wf (clearSectors_wf (recordFailure_wf (onConfig_wf h rfl))) rfl))
      (startSource_wf (recordFailure_wf (onConfig_wf h rfl))))

theorem setLoad_wf {l} {s : State} (h : s.wf = true) : (setLoad l s).wf = true :=
  onConfig_wf h rfl

theorem setPhase_wf {l k} {s : State} (h : s.wf = true) : (setPhase l k s).wf = true :=
  put_wf _ _ (setLoad_wf h)

theorem findBadPage_wf {p} {s : State} (h : s.wf = true) : (findBadPage p s).wf = true :=
  raiseCfg_wf (onConfig_wf (count_wf _ _ h) rfl)

theorem stagingBad_wf {s : State} (h : s.wf = true) : (stagingBad s).wf = true :=
  logSomewhere_wf h

theorem readCause_wf {l o} {n r} {s : State} (h : s.wf = true) : (readCause l o n r s).2.wf = true := by
  unfold readCause
  dsimp only
  split
  · exact wf_ite (findBadPage_wf h) h
  · exact h
  · split
    · exact stagingBad_wf h
    · exact h
  · exact findBadPage_wf h
  · exact h

theorem takeStream_wf {l n} {s : State} {p : Nat × State} (h : s.wf = true) (e : takeStream l n s = some p) : p.2.wf = true := by
  unfold takeStream at e
  split at e
  · exact Option.some.inj e ▸ h
  · dsimp only at e
    split at e
    · cases e
    · exact Option.some.inj e ▸ onConfig_wf h rfl

theorem readHead_wf {l given} {s : State} {p : Nat × SourceRead × State} (h : s.wf = true) (e : readHead l given s = some p) :
    p.2.2.wf = true := by
  unfold readHead at e
  split at e
  · exact Option.some.inj e ▸ h
  · split at e
    · obtain ⟨q, hq, rfl⟩ := Option.map_eq_some_iff.1 e
      exact takeStream_wf h hq
    · split at e
      · exact Option.some.inj e ▸ rangeRead_wf h
      · exact Option.some.inj e ▸ h

theorem headTurn_wf {l} {s : State} (h : s.wf = true) : (headTurn l s).2.wf = true := by
  unfold headTurn
  split
  · exact h
  · exact plainTurn_wf h

theorem checkPartHeader_wf {l head} {s : State} (h : s.wf = true) : (checkPartHeader l head s).wf = true := by
  unfold checkPartHeader
  dsimp only
  split
  · exact loadFails_wf (puts_wf _ h)
  · exact setLoad_wf (puts_wf _ h)

theorem checkHeader_wf {l head} {s : State} (h : s.wf = true) : (checkHeader l head s).wf = true := by
  unfold checkHeader
  split
  · exact loadFails_wf h
  · exact wf_then (setPhase_wf h) fun h => flag_wf _ _ h

theorem takeHead_wf {l head given} {s : State} (h : s.wf = true) : (takeHead l head given s).wf = true := by
  unfold takeHead
  split
  · exact h
  · next hd r t e =>
    have ht := readCause_wf (l := l) (o := 0) (n := 0x2000) (r := (if r = .good then given else r)) (readHead_wf h e)
    split
    · next e => exact loadFails_wf (wf_snd e ht)
    · next e => exact wf_ite (checkPartHeader_wf (wf_snd e ht)) (checkHeader_wf (wf_snd e ht))

theorem execLoadHeaderCheck_wf {head srcErr} {s : State} (h : s.wf = true) : Canonical (execLoadHeaderCheck head srcErr s) := by
  unfold execLoadHeaderCheck
  dsimp only
  split
  · exact canonical_next (clearDone_wf (wf_begin h))
  · refine canonical_ite (canonical_next (clearDone_wf (wf_begin h))) ?_
    refine canonical_ite (canonical_next (loadFails_wf (clearDone_wf (wf_begin h)))) ?_
    split
    · next t e =>
        exact canonical_next (wf_emit ((wf_snd e (headTurn_wf (clearDone_wf (wf_begin h))))))
    · next t e =>
        exact canonical_next (loadFails_wf ((wf_snd e (headTurn_wf (clearDone_wf (wf_begin h))))))
    · next t e =>
        exact canonical_next (takeHead_wf ((wf_snd e (headTurn_wf (clearDone_wf (wf_begin h))))))

theorem holdForLoad_wf {l} {s : State} (h : s.wf = true) : (holdForLoad l s).wf = true := by
  unfold holdForLoad
  with_reducible
    exact wf_frame (putWords_wf (puts_wf _ (clearSectors_wf (setRegionBusy_wf (setConfigured_wf (holdSectors_wf h)))))) rfl rfl rfl

theorem signaturesPass_wf {l} {s : State} (h : s.wf = true) : (signaturesPass l s).wf = true :=
  wf_ite (put_wf _ _ (setLoad_wf h)) (wf_else (setPhase_wf h) fun h => put_wf _ _ (holdForLoad_wf h))

theorem execLoadSignaturesDone_wf {sig} {s : State} (h : s.wf = true) : Canonical (execLoadSignaturesDone sig s) := by
  unfold execLoadSignaturesDone
  dsimp only
  split
  · exact canonical_next (wf_begin h)
  · refine canonical_ite (canonical_next (wf_begin h)) ?_
    split
    · exact canonical_next (loadFails_wf (wf_begin h))
    · exact canonical_next (signaturesPass_wf (wf_begin h))

theorem putFrames_wf {x f data} {s : State} (h : s.wf = true) : (putFrames x f data s).wf = true :=
  putFrameBytes_wf _ _ h

theorem onRecord_wf {n r} {f : Load → State → State} {s : State} (hf : ∀ l t, t.wf = true → (f l t).wf = true) (h : s.wf = true) :
    Canonical (onRecord n r f s) := by
  have h := clearDone_wf (wf_begin h)
  unfold onRecord
  dsimp only
  split
  · exact canonical_next h
  · refine canonical_ite (canonical_next h) ?_
    split
    · exact canonical_next h
    · next e =>
      have ht := takeStream_wf h e
      split
      · next e => exact canonical_next (loadFails_wf (wf_snd e (readCause_wf ht)))
      · next e =>
        have hc := wf_snd e (readCause_wf ht)
        exact canonical_next (wf_ite (loadFails_wf hc) (hf _ _ hc))

theorem execFramesRecord_wf {word0 addr} {count word3} {data srcErr} {s : State} (h : s.wf = true) :
    Canonical (execFramesRecord word0 addr count word3 data srcErr s) :=
  onRecord_wf (fun _ _ h => wf_ite (loadFails_wf h) (wf_ite (loadFails_wf h)
    (wf_ite (wf_ite (loadFails_wf h) (setLoad_wf h)) (setLoad_wf (wf_ite h (putFrames_wf h)))))) h

theorem execSettingRecord_wf {word0 off} {value word3} {s : State} (h : s.wf = true) :
    Canonical (execSettingRecord word0 off value word3 s) :=
  onRecord_wf (fun _ _ h => wf_ite (loadFails_wf h) (wf_ite (loadFails_wf h) (wf_ite (loadFails_wf h) (setLoad_wf h)))) h

theorem execEndRecord_wf {word0 total} {word2 word3} {s : State} (h : s.wf = true) : Canonical (execEndRecord word0 total word2 word3 s) :=
  onRecord_wf (fun _ _ h => wf_ite (loadFails_wf h) (wf_ite (put_wf _ _ (setLoad_wf h)) (setPhase_wf h))) h

theorem pathWrite_wf (p unit inst : Nat) : ∀ (l : List Byte) {addr : Nat} {s : State}, s.wf = true → (pathWrite p unit inst addr l s).wf = true
  | [], _, _, h => h
  | _ :: l, _, _, h => pathWrite_wf p unit inst l (pathStore_wf h)

theorem pathWriteBanks_wf (p unit size : Nat) : ∀ (l : List Byte) {addr : Nat} {s : State}, s.wf = true →
    (pathWriteBanks p unit size addr l s).wf = true
  | [], _, _, h => h
  | b :: l, _, _, h => pathWriteBanks_wf p unit size l (pathWrite_wf p unit _ [b] h)

theorem writeBamidRecord_wf {r} {s : State} (h : s.wf = true) : (writeBamidRecord r s).wf = true :=
  wf_ite (foldl_wf _ (fun _ _ h => wf_ite (pathWrite_wf _ _ _ _ h) h) _ h) (pathWriteBanks_wf _ _ _ _ h)

theorem releaseEngines_wf {gs} {s : State} (h : s.wf = true) : (releaseEngines gs s).wf = true :=
  foldl_wf _ (fun _ _ h => startCore_wf (puts_wf _ h)) _ h

theorem execMemRecord_wf {word0 rec srcErr} {s : State} (h : s.wf = true) : Canonical (execMemRecord word0 rec srcErr s) :=
  onRecord_wf (fun _ _ h => wf_ite (loadFails_wf h) (setLoad_wf (writeBamidRecord_wf h))) h

theorem memHeader_wf {l given c} {s : State} (h : s.wf = true) : (memHeader l given c s).2.2.wf = true := by
  unfold memHeader
  split
  · with_reducible exact h
  · next _ _ t e =>
      with_reducible exact readCause_wf ((readHead_wf h e))

theorem memChecks_wf {l x1} {good c records} {s : State} (h : s.wf = true) : (memChecks l x1 good c records s).2.2.wf = true :=
  readCause_wf h

theorem tryBamid_wf {k c} {s : State} (h : s.wf = true) : (tryBamid k c s).2.2.wf = true := by
  unfold tryBamid
  split
  · next _ _ t e =>
      exact (wf_snd₂ e (memHeader_wf h))
  · next _ t e =>
      exact foldl_wf _ (fun _ _ h => writeBamidRecord_wf h) _ (memChecks_wf ((wf_snd₂ e (memHeader_wf h))))

theorem afterBamid_wf {s : State} (h : s.wf = true) : (afterBamid s).wf = true :=
  wf_ite (put_wf _ _ h) (bootLoad_wf h)

theorem bamidStarts_wf {head} {s : State} (h : s.wf = true) : (bamidStarts head s).wf = true :=
  releaseEngines_wf (flag_wf _ _ (wf_frame h rfl rfl rfl))

theorem execBamidLoad_wf {first second} {s : State} (h : s.wf = true) : Canonical (execBamidLoad first second s) := by
  have h := wf_begin h
  unfold execBamidLoad
  with_reducible refine canonical_ite (canonical_next h) ?_
  extract_lets u t
  have ht : t.wf = true := puts_wf _ (onConfig_wf h rfl)
  clear_value t
  have h1 := tryBamid_wf (k := 0) (c := first) ht
  split
  · next e => exact canonical_next (afterBamid_wf (bamidStarts_wf (wf_snd₂ e h1)))
  · next c1 _ t1 e =>
    have h2 := tryBamid_wf (k := 1) (c := second) (put_wf CFG_STATUS_SOURCE 7 (recordFailure_wf (cause := c1) (src := 6) (wf_snd₂ e h1)))
    extract_lets t2
    split
    · next e => exact canonical_next (afterBamid_wf (bamidStarts_wf (wf_snd₂ e h2)))
    · next e => exact canonical_next (afterBamid_wf (flag_wf _ _ (recordFailure_wf (wf_snd₂ e h2))))

theorem applyImage_wf {mine vals} {s : State} (h : s.wf = true) : (applyImage mine vals s).wf = true := by
  unfold applyImage
  with_reducible refine foldl_wf _ (fun t e h => ?_) _ ?_
  · exact wf_imageVals (put_wf e.1 e.2 h) (smWf_smSet 0 _ _ _ (wf_parts_imageVals h))
  · rw [State.wf_iff] at h ⊢
    obtain ⟨hr, hi, hrest⟩ := h
    exact ⟨smWf_filter 0 _ _ hr, smWf_filter 0 _ _ hi, hrest⟩

/-- What a loaded image puts into the parts that are not held sparsely. -/
theorem loaded_wf (l : Load) (d : Declared) {t : State} (h : t.wf = true) : State.wf { t with
    clocks := { t.clocks with bundles := d.bundles.foldl addBundle [] }
    noc := { t.noc with maps := [] }
    fabric := { t.fabric with wakeBits := d.wakes.map (fun (w : Nat × Fin 64) => (w.1, w.2.val)) }
    config := { t.config with
      loading := false, load := none, lastSrc := l.src, reload := false, lost := []
      imgBundles := d.bundles.foldl addBundle [], regions := d.regions.map declaredRegion, cachers := (d.caches.take 16).map
        (fun (x : Sec) => x.val) } } = true := wf_frame h rfl rfl rfl

/-- A measurement taken of the configuration, before the startup. -/
theorem measured_wf (xs : List Nat) {t : State} (h : t.wf = true) :
    (let s := { t with security := { t.security with meas := smSet 0 t.security.meas 2 (cfgMeas t) } };
    beginStartup 0 xs (s.get CFG_SU_CTRL_ORDER) (s.get CFG_SU_CTRL_GAP1) (s.get CFG_SU_CTRL_GAP2) s).wf = true :=
  beginStartup_wf (wf_frame h rfl rfl rfl)

theorem loadSucceeds_wf {l d} {s : State} (h : s.wf = true) : (loadSucceeds l d s).wf = true := by
  unfold loadSucceeds
  with_reducible exact measured_wf _ (loaded_wf _ _
    (wf_then (putWords_wf (puts_wf _ (checkBanks_wf (applyImage_wf (setConfigured_wf h))))) fun h => flag_wf _ _ h))

theorem execLoadFinalChecks_wf {tag sha} {shake decl} {s : State} (h : s.wf = true) :
    Canonical (execLoadFinalChecks tag sha shake decl s) := by
  unfold execLoadFinalChecks
  dsimp only
  split
  · with_reducible exact canonical_next (clearDone_wf (wf_begin h))
  · with_reducible refine canonical_ite (canonical_next (clearDone_wf (wf_begin h))) ?_
    split
    · with_reducible exact canonical_next (clearDone_wf (wf_begin h))
    · next _ t e =>
        split
        · with_reducible exact canonical_next (loadFails_wf ((takeStream_wf (clearDone_wf (wf_begin h)) e)))
        · with_reducible
            exact canonical_ite (canonical_next (startSource_wf
              (bamidStarts_wf (onConfig_wf ((takeStream_wf (clearDone_wf (wf_begin h)) e)) rfl))))
              (canonical_next (loadSucceeds_wf ((takeStream_wf (clearDone_wf (wf_begin h)) e))))

theorem execLoadRestartAfterReset_wf {s : State} (h : s.wf = true) : Canonical (execLoadRestartAfterReset s) :=
  canonical_next (wf_then (wf_begin h) fun h => bootLoad_wf h)

theorem appendStream_wf {bytes} {s : State} (h : s.wf = true) : (appendStream bytes s).wf = true :=
  onConfig_wf h rfl

theorem hostLoad_wf {req off data} {s : State} (h : s.wf = true) : (hostLoad req off data s).wf = true :=
  wf_ite (flag_wf _ _ h) (wf_ite (loadFails_wf (wf_ite (put_wf _ _ (beginLoad_wf h)) h))
    (wf_else (wf_ite (put_wf _ _ (beginLoad_wf h)) h) fun h => put_wf _ _ (appendStream_wf h)))

theorem execHostLoadWrite_wf {req off data} {s : State} (h : s.wf = true) : Canonical (execHostLoadWrite req off data s) :=
  canonical_ite (canonical_next (wf_emit (wf_begin h))) (canonical_next (guardedWrite_wf _ _ _ _ (wf_begin h) (hostLoad_wf (wf_begin h))))

theorem execHostLoadTimeout_wf {s : State} (h : s.wf = true) : Canonical (execHostLoadTimeout s) :=
  canonical_next (wf_then (wf_begin h) fun h => loadFails_wf h)

theorem hloadAbort_wf {s : State} (h : s.wf = true) : (hloadAbort s).wf = true :=
  wf_ite (loadFails_wf h) h

theorem execCfgHloadAbort_wf {req} {s : State} (h : s.wf = true) : Canonical (execCfgHloadAbort req s) :=
  canonical_next (guardedWrite_wf _ _ _ _ (wf_begin h) (hloadAbort_wf (wf_begin h)))

theorem execCoxLoadTimeout_wf {s : State} (h : s.wf = true) : Canonical (execCoxLoadTimeout s) := by
  unfold execCoxLoadTimeout
  refine canonical_next ?_
  split
  · exact wf_then (wf_begin h) fun h => loadFails_wf h
  · exact wf_begin h

theorem execPfAbsentTimeout_wf {port} {s : State} (h : s.wf = true) : Canonical (execPfAbsentTimeout port s) :=
  canonical_next (wf_else (wf_begin h) fun h => wf_frame h rfl rfl rfl)

theorem startupState_wf {k} {s : State} (h : s.wf = true) : (startupState k s).wf = true :=
  wf_ite h (put_wf _ _ h)

theorem lockOver_wf {who u} {s : State} (h : s.wf = true) : (lockOver who u s).wf = true := by
  unfold lockOver
  split
  · exact startupState_wf (put_wf _ _ (onConfig_wf (setStartup_wf h) rfl))
  · exact put_wf _ _ (setStartup_wf h)
  · exact setStartup_wf h

theorem execLockStepDone_wf {who} {s : State} (h : s.wf = true) : Canonical (execLockStepDone who s) := by
  unfold execLockStepDone
  dsimp only
  split
  · exact canonical_next (wf_then (wf_begin h) fun h => lockOver_wf h)
  · exact canonical_next (wf_begin h)

theorem execLockStepTimeout_wf {who} {s : State} (h : s.wf = true) : Canonical (execLockStepTimeout who s) := by
  unfold execLockStepTimeout
  dsimp only
  split
  · exact canonical_ite (canonical_next (wf_begin h)) (canonical_next
      (lockOver_wf (foldl_wf _ (fun _ _ h => sectorAlarm_wf h) _ (startupPartial_wf (wf_begin h)))))
  · exact canonical_next (wf_begin h)

theorem execCfgDoneHigh_wf {s : State} (h : s.wf = true) : Canonical (execCfgDoneHigh s) := by
  unfold execCfgDoneHigh
  dsimp only
  split
  · exact canonical_next (wf_begin h)
  · split
    · exact canonical_ite (canonical_next (startupState_wf (put_wf _ _ (setStartup_wf (onConfig_wf (wf_begin h) rfl)))))
        (canonical_next (onConfig_wf (wf_begin h) rfl))
    · exact canonical_next (onConfig_wf (wf_begin h) rfl)

theorem execReleaseToken_wf {who} {s : State} (h : s.wf = true) : Canonical (execReleaseToken who s) := by
  unfold execReleaseToken
  dsimp only
  split
  · exact canonical_ite (canonical_next (wf_begin h)) (canonical_next (checkStartup_wf (setStartup_wf (wf_begin h))))
  · exact canonical_next (wf_begin h)

theorem execReleaseReport_wf {who sec} {s : State} (h : s.wf = true) : Canonical (execReleaseReport who sec s) := by
  unfold execReleaseReport
  dsimp only
  split
  · exact canonical_ite (canonical_next (applyToken_wf (wf_begin h)))
      (canonical_next (checkStartup_wf (wf_then (setStartup_wf (applyToken_wf (wf_begin h))) fun h => leaveHeld_wf h)))
  · exact canonical_next (applyToken_wf (wf_begin h))

theorem execNvPageScrub_wf {page uncorrectable} {s : State} (h : s.wf = true) : Canonical (execNvPageScrub page uncorrectable s) :=
  canonical_next (wf_then (wf_begin h) fun h => findBadPage_wf h)

end Sys2Proof.Machine
end

section
/-! PROOFS. The canonical form is kept by what `Resetting` defines. -/

namespace Sys2Proof.Machine

theorem execPor_wf {s : State} (h : s.wf = true) : Canonical (execPor s) :=
  canonical_next (wf_onClocks (beginReset_wf (wf_begin h)))

theorem execPowerLoss_wf {s : State} (h : s.wf = true) : Canonical (execPowerLoss s) :=
  canonical_next (wf_onClocks (beginReset_wf (wf_begin h)))

theorem execBrownout_wf {ns} {s : State} (h : s.wf = true) : Canonical (execBrownout ns s) :=
  canonical_ite (canonical_next (wf_begin h)) (canonical_next (wf_onClocks (startReset_wf (wf_begin h))))

theorem pinReset_wf {s : State} (h : s.wf = true) : (pinReset s).wf = true :=
  wf_onClocks (startReset_wf h)

theorem execResetNLow_wf {ns} {s : State} (h : s.wf = true) : Canonical (execResetNLow ns s) :=
  canonical_ite (canonical_next (wf_begin h)) (canonical_ite (canonical_next (pinReset_wf (wf_begin h)))
    (canonical_next (wf_then (free_wf (wf_begin h)) fun h => pinReset_wf h)))

theorem execResetNRise_wf {s : State} (h : s.wf = true) : Canonical (execResetNRise s) :=
  canonical_next (wf_then (wf_begin h) fun h => wf_onClocks h)

theorem execStrapSample_wf {bootSel clkMode} {pullLo pullHi} {s : State} (h : s.wf = true) :
    Canonical (execStrapSample bootSel clkMode pullLo pullHi s) :=
  canonical_ite (canonical_next (wf_begin h)) (canonical_next (puts_wf _ (wf_onClocks (wf_begin h))))

theorem execPerstAssert_wf {port} {s : State} (h : s.wf = true) : Canonical (execPerstAssert port s) :=
  canonical_ite (canonical_next (wf_begin h)) (canonical_next (wf_onClocks (startLinkReset_wf (wf_begin h))))

theorem execLinkHot_wf {port} {s : State} (h : s.wf = true) : Canonical (execLinkHot port s) :=
  canonical_next (startLinkReset_wf (wf_begin h))

theorem execHubWdtExpiry_wf {s : State} (h : s.wf = true) : Canonical (execHubWdtExpiry s) :=
  canonical_next (wf_then (wf_begin h) fun h => startReset_wf h)

theorem execThermalShutdown_wf {s : State} (h : s.wf = true) : Canonical (execThermalShutdown s) :=
  canonical_next (wf_emit (wf_onClocks (flag_wf _ _ (wf_begin h))))

theorem execRailsInRange_wf {s : State} (h : s.wf = true) : Canonical (execRailsInRange s) :=
  canonical_next (wf_onClocks (wf_then (wf_begin h) fun h => beginReset_wf h))

theorem rstCtrl_wf {key scope part} {s : State} (h : s.wf = true) : (rstCtrl key scope part s).wf = true := by
  unfold rstCtrl
  split
  · exact h
  · split
    · exact startReset_wf h
    · exact wf_ite (startReset_wf h) h
    · exact startLinkReset_wf h
    · exact startLinkReset_wf h
    · exact h

theorem execRstCtrlWarm_wf {req key} {s : State} (h : s.wf = true) : Canonical (execRstCtrlWarm req key s) :=
  canonical_next (guardedWrite_wf _ _ _ _ (wf_begin h) (rstCtrl_wf (wf_begin h)))

theorem execRstCtrlPartition_wf {req key part} {s : State} (h : s.wf = true) : Canonical (execRstCtrlPartition req key part s) :=
  canonical_next (guardedWrite_wf _ _ _ _ (wf_begin h) (rstCtrl_wf (wf_begin h)))

theorem execRstCtrlHostLink_wf {req key port} {s : State} (h : s.wf = true) : Canonical (execRstCtrlHostLink req key port s) :=
  canonical_next (guardedWrite_wf _ _ _ _ (wf_begin h) (rstCtrl_wf (wf_begin h)))

theorem execDomainResetRelease_wf {d} {s : State} (h : s.wf = true) : Canonical (execDomainResetRelease d s) :=
  canonical_ite (canonical_next (wf_begin h)) (canonical_next (wf_onClocks (wf_begin h)))

theorem execResetClockWaitTimeout_wf {p} {s : State} (h : s.wf = true) : Canonical (execResetClockWaitTimeout p s) :=
  canonical_next (foldl_wf _ (fun _ _ h => clockAlarm_wf h) _ (wf_begin h))

theorem hubPasses_wf {s : State} (h : s.wf = true) : (hubPasses s).wf = true :=
  wf_else (wf_onClocks h) fun h => foldl_wf _ (fun _ _ h => wf_ite h (put_wf _ _ h)) _ (puts_wf _ (drawKey_wf (wf_frame h rfl rfl rfl)))

theorem partFails_wf {p} {s : State} (h : s.wf = true) : (partFails p s).wf = true :=
  wf_onClocks (endBusy_wf (wf_ite (holdSectors_wf (wf_ite (putBit_wf _ _ _ h) (putBit_wf _ _ _ h)))
    (resetChannel_wf (wf_ite (putBit_wf _ _ _ h) (putBit_wf _ _ _ h)))))

theorem execCheckerSelfTestDone_wf {p pass} {s : State} (h : s.wf = true) : Canonical (execCheckerSelfTestDone p pass s) :=
  canonical_ite (canonical_next (wf_begin h)) (canonical_ite (canonical_ite (canonical_next (hubPasses_wf (wf_begin h)))
    (canonical_next (hubFails_wf (wf_begin h)))) (canonical_ite (canonical_next (partFails_wf (wf_begin h)))
    (canonical_next (wf_onClocks (wf_ite (putBit_wf _ _ _ (wf_begin h)) (putBit_wf _ _ _ (wf_begin h)))))))

theorem restartDie_wf {d} {s : State} (h : s.wf = true) : (restartDie d s).wf = true :=
  wf_ite h (beginStartup_wf (restoreContents_wf h))

theorem execMemoryFillDone_wf {p} {s : State} (h : s.wf = true) : Canonical (execMemoryFillDone p s) :=
  canonical_ite (canonical_next (wf_begin h)) (canonical_next
    (wf_then (wf_onClocks (fillMemories_wf _ (wf_begin h))) fun h => restartDie_wf h))

theorem execPartitionResetEnd_wf {p} {s : State} (h : s.wf = true) : Canonical (execPartitionResetEnd p s) :=
  canonical_ite (canonical_next (wf_begin h)) (canonical_next (wf_then (endBusy_wf (wf_begin h)) fun h => puts_wf _ h))

end Sys2Proof.Machine
end

section
/-! PROOFS. The canonical form is kept by what `Power` defines. -/

namespace Sys2Proof.Machine

theorem onPower_wf {s : State} {f} (h : s.wf = true) : (State.onPower s f).wf = true :=
  wf_frame h rfl rfl rfl

theorem takeTarget_wf {p} {s : State} (h : s.wf = true) : (takeTarget p s).2.wf = true := by
  unfold takeTarget
  dsimp only
  split
  · exact flag_wf _ _ h
  · exact h

theorem opReached_wf {p target} {s : State} (h : s.wf = true) : (opReached p target s).wf = true :=
  recap_wf (onPower_wf (puts_wf _ h))

theorem startOp_wf {p} {s : State} (h : s.wf = true) : (startOp p s).wf = true :=
  wf_ite (opReached_wf (takeTarget_wf h)) (wf_ite (wf_ite (opReached_wf (onPower_wf (flag_wf _ _ (takeTarget_wf h))))
    (recap_wf (onPower_wf (flag_wf _ _ (takeTarget_wf h))))) (wf_then (onPower_wf (flag_wf _ _ (takeTarget_wf h))) fun h => opReached_wf h))

theorem takeLater_wf {p} {s : State} (h : s.wf = true) : (takeLater p s).wf = true :=
  wf_ite (startOp_wf (onPower_wf h)) h

theorem writeTarget_wf {p} {s : State} (h : s.wf = true) : (writeTarget p s).wf = true :=
  wf_ite (onPower_wf h) (startOp_wf h)

theorem beginEasy_wf {p gov} {s : State} (h : s.wf = true) : (beginEasy p gov s).wf = true :=
  onPower_wf (put_wf _ _ h)

theorem writeEasyReq_wf {p req} {s : State} (h : s.wf = true) : (writeEasyReq p req s).wf = true :=
  wf_ite (wakePart_wf _ h) (wf_ite (beginEasy_wf h) (wf_ite (onPower_wf h) h))

theorem writePart_wf {p v} {s : State} (h : s.wf = true) : (writePart p v s).wf = true :=
  writeEasyReq_wf (writeTarget_wf (writeReg_wf _ _ h))

theorem execEasyRequest_wf {req p data} {s : State} (h : s.wf = true) : Canonical (execEasyRequest req p data s) :=
  canonical_next (guardedWrite_wf _ _ _ _ (wf_begin h) (writePart_wf (wf_begin h)))

theorem execOpTargetWrite_wf {req p data} {s : State} (h : s.wf = true) : Canonical (execOpTargetWrite req p data s) :=
  canonical_next (guardedWrite_wf _ _ _ _ (wf_begin h) (writeTarget_wf (writeReg_wf _ _ (wf_begin h))))

theorem execGovernorIdleEntry_wf {p} {s : State} (h : s.wf = true) : Canonical (execGovernorIdleEntry p s) :=
  canonical_next (wf_then (wf_begin h) fun h => beginEasy_wf h)

theorem easyDram_wf {p} {s : State} (h : s.wf = true) : (easyDram p s).wf = true :=
  wf_ite h (dramEnterSr_wf h)

theorem execEasyQuiescent_wf {p} {s : State} (h : s.wf = true) : Canonical (execEasyQuiescent p s) :=
  canonical_ite (canonical_next (wf_begin h)) (canonical_ite (canonical_next (easyDram_wf (onPower_wf (wf_begin h))))
    (canonical_next (wf_then (easyDram_wf (raisePwr_wf (put_wf _ _ (wf_begin h)))) fun h => put_wf _ _ h)))

theorem execEasyEntryTimeout_wf {p} {s : State} (h : s.wf = true) : Canonical (execEasyEntryTimeout p s) :=
  canonical_ite (canonical_next (wf_begin h)) (canonical_next
    (wf_else (onPower_wf (put_wf _ _ (wf_begin h))) fun h => raisePwr_wf (put_wf _ _ h)))

theorem onCrew_wf {n f} {s : State} (h : s.wf = true) : (onCrew n f s).wf = true :=
  wf_engines h (smWf_map_filter {} (fun e => if e.1 < 1024 && e.1 / 64 == n then (e.1, f e.2) else e) (fun e => by split <;> rfl)
    (wf_parts_engines h))

theorem execEasyEntryComplete_wf {p} {s : State} (h : s.wf = true) : Canonical (execEasyEntryComplete p s) :=
  canonical_ite (canonical_next (wf_begin h)) (canonical_next
    (put_wf _ _ (wf_ite (wf_frame (clearFields_wf _ _ (wf_begin h)) rfl rfl rfl) (onCrew_wf (clearFields_wf _ _ (wf_begin h))))))

theorem execEasyWake_wf {p} {s : State} (h : s.wf = true) : Canonical (execEasyWake p s) :=
  canonical_next (wakePart_wf _ (wf_begin h))

theorem raiseSwdt_wf {n} {s : State} (h : s.wf = true) : (raiseSwdt n s).wf = true :=
  wf_ite h (put_wf _ _ h)

theorem execEasyWakeComplete_wf {p ue} {s : State} (h : s.wf = true) : Canonical (execEasyWakeComplete p ue s) :=
  canonical_ite (canonical_next (wf_begin h)) (canonical_ite (canonical_next (beginReset_wf (raisePwr_wf (logSomewhere_wf (wf_begin h)))))
    (canonical_ite (canonical_next (wf_begin h)) (canonical_next
    (takeLater_wf (wf_else (onPower_wf (put_wf _ _ (wf_then (wf_begin h) fun h => onCrew_wf h))) fun h => raiseSwdt_wf
    (dramLeaveSr_wf h))))))

theorem mooredDram_wf {s : State} (h : s.wf = true) : (mooredDram s).wf = true :=
  foldl_wf _ (fun _ _ h => dramEnterSr_wf h) _ h

theorem beginMoored_wf {req} {s : State} (h : s.wf = true) : (beginMoored req s).wf = true :=
  onPower_wf (wf_else (holdSectors_wf (foldl_wf _ (fun _ _ h => put_wf _ _ h) _ h)) fun h => mooredDram_wf h)

theorem writeMoored_wf {req v} {drained sysclk} {s : State} (h : s.wf = true) : (writeMoored req v drained sysclk s).wf = true := by
  unfold writeMoored
  dsimp only
  split
  · exact h
  · split
    · exact writeReg_wf _ _ h
    · split
      · exact beginMoored_wf (writeReg_wf _ _ h)
      · exact raisePwr_wf (put_wf _ _ (writeReg_wf _ _ h))

theorem execMooredRequest_wf {req data} {drained sysclk} {s : State} (h : s.wf = true) :
    Canonical (execMooredRequest req data drained sysclk s) :=
  canonical_next (guardedWrite_wf _ _ _ _ (wf_begin h) (writeMoored_wf (wf_begin h)))

theorem moorMemory_wf {s : State} (h : s.wf = true) : (moorMemory s).wf = true := by
  unfold moorMemory
  rw [State.wf_iff] at h ⊢
  obtain ⟨hr, hi, hb, hf, hd, hs, he, hc, hdr, hp⟩ := h
  refine ⟨hr, hi, hb, hf, smWf_filter _ _ _ hd, hs, he, hc, hdr, smWf_map_filter _ _ ?_ hp⟩
  exact fun _ => rfl

theorem moorRegs_wf {s : State} (h : s.wf = true) : (moorRegs s).wf = true := wf_imageVals (clearFields_wf _ _ h) rfl

theorem moorTail_wf {s : State} (h : s.wf = true) {clk cfg wk pw dbg} (hcfg : cfg.store = s.config.store) :
    State.wf { s with
      clocks := clk, fabric := {}, onchip := moorOnchip s, config := cfg, noc := {}, wake := wk, lanes := {}, dbg := dbg, power := pw } =
        true :=
  wf_mk h (smWf_filter 0 _ _ (wf_parts_bytes h)) rfl (hcfg ▸ wf_parts_store h)

theorem moor_wf {s : State} (h : s.wf = true) : (moor s).wf = true := by
  unfold moor
  extract_lets s1 s2 s3
  have h3 : s3.wf = true := by
    with_reducible exact moorRegs_wf (resetHub_wf (foldl_wf _ (fun _ _ h => resetChannel_wf h) _
    (foldl_wf _ (fun _ _ h => resetDie_wf h) _ (foldl_wf _ (fun _ _ h => abandonWriteBacks_wf h) _ (moorMemory_wf h)))))
  clear_value s3
  exact moorTail_wf h3 rfl

theorem wakeMoored_wf {src} {s : State} (h : s.wf = true) : (wakeMoored src s).wf = true :=
  wf_onClocks (onPower_wf (put_wf _ _ h))

theorem mooredSource_wf {src} {s : State} (h : s.wf = true) : (mooredSource src s).wf = true :=
  wf_ite h (wf_ite (wakeMoored_wf h) (wf_ite (onPower_wf h) h))

theorem execMooredEntryComplete_wf {s : State} (h : s.wf = true) : Canonical (execMooredEntryComplete s) := by
  unfold execMooredEntryComplete
  refine canonical_ite (canonical_next (wf_then (wf_begin h) fun h => mooredDram_wf (onPower_wf h))) ?_
  refine canonical_ite (canonical_next (wf_begin h)) ?_
  refine canonical_next ?_
  split
  · exact wakeMoored_wf (moor_wf (wf_begin h))
  · exact moor_wf (wf_begin h)

theorem perstRises_wf {port} {s : State} (h : s.wf = true) : (perstRises port s).wf = true :=
  mooredSource_wf (wf_onClocks (onPower_wf h))

theorem execPerstRelease_wf {port} {s : State} (h : s.wf = true) : Canonical (execPerstRelease port s) :=
  canonical_next (wf_then (wf_begin h) fun h => perstRises_wf h)

theorem execMooredWake_wf {src} {s : State} (h : s.wf = true) : Canonical (execMooredWake src s) :=
  canonical_ite (canonical_next (wf_begin h)) (canonical_ite (canonical_next (perstRises_wf (wf_begin h)))
    (canonical_next (mooredSource_wf (wf_begin h))))

theorem execAonTimerExpiry_wf {s : State} (h : s.wf = true) : Canonical (execAonTimerExpiry s) :=
  canonical_next (wf_else (wf_begin h) fun h => mooredSource_wf h)

theorem execWakeNTimeout_wf {s : State} (h : s.wf = true) : Canonical (execWakeNTimeout s) :=
  canonical_next (onPower_wf (wf_begin h))

theorem opAck_wf {p} {s : State} (h : s.wf = true) : (opAck p s).wf = true := by
  unfold opAck
  split
  · exact takeLater_wf (opReached_wf h)
  · exact h

theorem opFails_wf {p} {s : State} (h : s.wf = true) : (opFails p s).wf = true :=
  takeLater_wf (recap_wf (onPower_wf (puts_wf _ h)))

theorem execAvsAck_wf {rail} {s : State} (h : s.wf = true) : Canonical (execAvsAck rail s) :=
  canonical_ite (canonical_next (onPower_wf (wf_begin h))) (canonical_next (foldl_wf _ (fun _ _ h => opAck_wf h) _ (wf_begin h)))

theorem execAvsAckTimeout_wf {rail} {s : State} (h : s.wf = true) : Canonical (execAvsAckTimeout rail s) := by
  unfold execAvsAckTimeout
  dsimp only
  split
  · exact canonical_next (raisePwr_wf (wf_begin h))
  · split
    · exact canonical_next (wf_begin h)
    · exact canonical_next (raisePwr_wf (foldl_wf _ (fun _ _ h => opFails_wf h) _ (wf_begin h)))

theorem execCrewClockStep_wf {n} {s : State} (h : s.wf = true) : Canonical (execCrewClockStep n s) :=
  canonical_next (onPower_wf (wf_begin h))

theorem execPmbusRead_wf {rail mw} {s : State} (h : s.wf = true) : Canonical (execPmbusRead rail mw s) :=
  canonical_ite (canonical_next (onPower_wf (wf_begin h))) (canonical_next (wf_begin h))

theorem execPmbusAlert_wf {s : State} (h : s.wf = true) : Canonical (execPmbusAlert s) :=
  canonical_next (raisePwr_wf (onPower_wf (wf_begin h)))

theorem execTelemetryLost_wf {s : State} (h : s.wf = true) : Canonical (execTelemetryLost s) :=
  canonical_next (raisePwr_wf (onPower_wf (wf_begin h)))

theorem execTelemetryRestored_wf {s : State} (h : s.wf = true) : Canonical (execTelemetryRestored s) :=
  canonical_next (onPower_wf (wf_begin h))

theorem closeWindow_wf {s : State} (h : s.wf = true) : (closeWindow s).wf = true :=
  put_wf _ _ (onPower_wf (puts_wf _ h))

theorem takeTemps_wf {temps hub} {s : State} (h : s.wf = true) : (takeTemps temps hub s).wf = true :=
  wf_ite (wf_then (foldl_wf _ (fun _ _ h => put_wf _ _ h) _ (wf_then
    (wf_then (onPower_wf (put_wf _ _ h)) fun h => raisePwr_wf h) fun h => raisePwr_wf h)) fun h => closeWindow_wf h)
    (wf_then (foldl_wf _ (fun _ _ h => put_wf _ _ h) _ (wf_then
    (wf_then (onPower_wf (put_wf _ _ h)) fun h => raisePwr_wf h) fun h => raisePwr_wf h)) fun h => onPower_wf (flag_wf _ _ h))

theorem countEnergy_wf {power p} {s : State} (h : s.wf = true) : (countEnergy power p s).wf = true :=
  onPower_wf (put_wf _ _ h)

theorem gateByRate_wf {d rate} {s : State} (h : s.wf = true) : (gateByRate d rate s).wf = true :=
  foldl_wf _ (fun _ _ h => flag_wf _ _ h) _ h

theorem refillCredit_wf {n rate} {s : State} (h : s.wf = true) : (refillCredit n rate s).wf = true :=
  judgeTasks_wf (put_wf _ _ h)

theorem governPart_wf {power a p} {s : State} (h : s.wf = true) : (governPart power a p s).wf = true :=
  wf_then (onPower_wf (puts_wf _ h)) fun h => gateByRate_wf h

theorem governAll_wf {power} {s : State} (h : s.wf = true) : (governAll power s).wf = true := by
  unfold governAll
  dsimp only
  refine foldl_wf _ (fun _ _ h => governPart_wf h) _ ?_
  split
  · exact free_wf h
  · exact h

theorem countOver_wf {s : State} (h : s.wf = true) : (countOver s).wf = true :=
  onPower_wf h

theorem execGovernorTick_wf {power temps hubTemp} {s : State} (h : s.wf = true) : Canonical (execGovernorTick power temps hubTemp s) :=
  canonical_ite (canonical_next (wf_begin h)) (canonical_next
    (foldl_wf _ (fun _ _ h => refillCredit_wf h) _ (wf_else (countOver_wf
    (put_wf _ _ (foldl_wf _ (fun _ _ h => countEnergy_wf h) _ (put_wf _ _ (takeTemps_wf (wf_begin h)))))) fun h => governAll_wf h)))

theorem execBudgetOver_wf {s : State} (h : s.wf = true) : Canonical (execBudgetOver s) :=
  canonical_next (wf_then (wf_begin h) fun h => raisePwr_wf h)

theorem execSprintWindowClose_wf {s : State} (h : s.wf = true) : Canonical (execSprintWindowClose s) :=
  canonical_next (wf_then (wf_begin h) fun h => closeWindow_wf h)

theorem execSprintCooldownEnd_wf {s : State} (h : s.wf = true) : Canonical (execSprintCooldownEnd s) :=
  canonical_next (wf_then (wf_begin h) fun h => flag_wf _ _ h)

end Sys2Proof.Machine
end

section
/-! PROOFS. The canonical form is kept by what `Debug` defines. -/

namespace Sys2Proof.Machine

theorem execTrstN_wf {s : State} (h : s.wf = true) : Canonical (execTrstN s) :=
  canonical_next (wf_onClocks (wf_onDebug (clearFields_wf _ _ (wf_begin h))))

theorem execTestLogicReset_wf {s : State} (h : s.wf = true) : Canonical (execTestLogicReset s) :=
  canonical_next (wf_onDebug (wf_begin h))

theorem updateIr_wf {code coxEn} {s : State} (h : s.wf = true) : (updateIr code coxEn s).wf = true :=
  wf_onDebug h

theorem execExtest_wf {coxEn} {s : State} (h : s.wf = true) : Canonical (execExtest coxEn s) :=
  canonical_next (updateIr_wf (wf_begin h))

theorem execSamplePreload_wf {coxEn cells} {s : State} (h : s.wf = true) : Canonical (execSamplePreload coxEn cells s) :=
  canonical_next (wf_then (updateIr_wf (wf_begin h)) fun h => wf_onDebug h)

theorem execIdcode_wf {coxEn} {s : State} (h : s.wf = true) : Canonical (execIdcode coxEn s) :=
  canonical_next (wf_emit (updateIr_wf (wf_begin h)))

theorem execClamp_wf {coxEn} {s : State} (h : s.wf = true) : Canonical (execClamp coxEn s) :=
  canonical_next (updateIr_wf (wf_begin h))

theorem execHighz_wf {coxEn} {s : State} (h : s.wf = true) : Canonical (execHighz coxEn s) :=
  canonical_next (updateIr_wf (wf_begin h))

theorem execBypass_wf {coxEn} {s : State} (h : s.wf = true) : Canonical (execBypass coxEn s) :=
  canonical_next (updateIr_wf (wf_begin h))

theorem execDbgReg_wf {coxEn} {s : State} (h : s.wf = true) : Canonical (execDbgReg coxEn s) :=
  canonical_next (updateIr_wf (wf_begin h))

theorem execDbgImg_wf {coxEn} {s : State} (h : s.wf = true) : Canonical (execDbgImg coxEn s) :=
  canonical_next (updateIr_wf (wf_begin h))

theorem execRstOvr_wf {coxEn} {s : State} (h : s.wf = true) : Canonical (execRstOvr coxEn s) :=
  canonical_next (updateIr_wf (wf_begin h))

theorem execDbgImgUpdate_wf {data full} {s : State} (h : s.wf = true) : Canonical (execDbgImgUpdate data full s) :=
  canonical_ite (canonical_next (wf_begin h)) (canonical_ite (canonical_next (wf_onDebug (wf_begin h)))
    (canonical_next (wf_onDebug (appendStream_wf (wf_then (wf_begin h) fun h => beginLoad_wf h)))))

theorem freeField_wf {f} {s : State} (h : s.wf = true) : (freeField f s).wf = true :=
  put_wf _ _ (free_wf h)

theorem freeRegs_wf {d} {s : State} (h : s.wf = true) : (freeRegs d s).wf = true :=
  foldl_wf _ (fun _ _ h => foldl_wf _ (fun _ _ h => wf_ite (foldl_wf _ (fun _ _ h => wf_ite h (freeField_wf h)) _ h) h) _ h) _ h

theorem freeEngine_wf {g} {s : State} (h : s.wf = true) : (freeEngine g s).wf = true :=
  wf_frame (setEng_wf _ _ h) rfl rfl rfl

theorem freeFabric_wf {x} {s : State} (h : s.wf = true) : (freeFabric x s).wf = true :=
  wf_frame h rfl rfl rfl

theorem freeNand_wf {n} {s : State} (h : s.wf = true) : (freeNand n s).wf = true :=
  wf_frame (setChan_wf _ _ (foldl_wf _ (fun _ _ h => setLun_wf h) _ h)) rfl rfl rfl

theorem freeCrew_wf {n} {s : State} (h : s.wf = true) : (freeCrew n s).wf = true :=
  wf_frame (setChan_wf _ _ h) rfl rfl rfl

theorem freeDram_wf {n} {s : State} (h : s.wf = true) : (freeDram n s).wf = true :=
  wf_frame (wf_drams h (smWf_smSet _ _ _ _ (wf_parts_drams h))) rfl rfl rfl

theorem freeLanes_wf {d} {s : State} (h : s.wf = true) : (freeLanes d s).wf = true :=
  wf_ite (wf_frame h rfl rfl rfl) (wf_ite (wf_frame h rfl rfl rfl) h)

theorem freeMemories_wf {d} {s : State} (h : s.wf = true) : (freeMemories d s).wf = true := by
  unfold freeMemories
  rw [State.wf_iff] at h ⊢
  obtain ⟨hr, hi, hb, hrest⟩ := h
  exact ⟨hr, hi, smWf_filter 0 _ _ hb, hrest⟩

theorem freeBlocks_wf {d} {s : State} (h : s.wf = true) : (freeBlocks d s).wf = true :=
  wf_ite (freeFabric_wf h) (wf_ite (freeCrew_wf (foldl_wf _ (fun _ _ h => freeEngine_wf h) _ h))
    (wf_ite (freeNand_wf h) (wf_ite (freeDram_wf h) (wf_ite (foldl_wf _ (fun _ _ h => freeEngine_wf h) _ h) (freeLanes_wf h)))))

theorem forceRelease_wf {d} {s : State} (h : s.wf = true) : (forceRelease d s).wf = true :=
  wf_onClocks (freeMemories_wf (freeBlocks_wf (freeRegs_wf h)))

theorem execRstOvrUpdate_wf {key index} {s : State} (h : s.wf = true) : Canonical (execRstOvrUpdate key index s) := by
  unfold execRstOvrUpdate
  dsimp only
  split
  · exact canonical_next (wf_begin h)
  · split
    · exact canonical_next (wf_begin h)
    · exact canonical_next (flag_wf _ _ (foldl_wf _ (fun _ _ h => forceRelease_wf h) _ (wf_begin h)))

theorem dbgRst_wf {key scope part} {s : State} (h : s.wf = true) : (dbgRst key scope part s).wf = true := by
  unfold dbgRst
  split
  · exact h
  · split
    · exact startReset_wf h
    · exact wf_ite (startReset_wf h) h
    · exact h

theorem execDbgRstWarm_wf {req key} {s : State} (h : s.wf = true) : Canonical (execDbgRstWarm req key s) :=
  canonical_next (guardedWrite_wf _ _ _ _ (wf_begin h) (dbgRst_wf (wf_begin h)))

theorem execDbgRstPartition_wf {req key part} {s : State} (h : s.wf = true) : Canonical (execDbgRstPartition req key part s) :=
  canonical_next (guardedWrite_wf _ _ _ _ (wf_begin h) (dbgRst_wf (wf_begin h)))

theorem execEngineHaltTaken_wf {g next} {s : State} (h : s.wf = true) : Canonical (execEngineHaltTaken g next s) := by
  unfold execEngineHaltTaken
  dsimp only
  split
  · exact canonical_next (wf_begin h)
  · exact canonical_ite (canonical_next (wf_begin h)) (canonical_next (takeHalt_wf (wf_begin h)))

theorem forceHalt_wf {g} {s : State} (h : s.wf = true) : (forceHalt g s).wf = true :=
  wf_ite (setEng_wf _ _ h) h

theorem execHaltForceTimeout_wf {g} {s : State} (h : s.wf = true) : Canonical (execHaltForceTimeout g s) :=
  canonical_next (forceHalt_wf (wf_begin h))

theorem thawWatchdog_wf {load count least} {s : State} (h : s.wf = true) : (thawWatchdog load count least s).wf = true :=
  wf_ite h (put_wf _ _ h)

theorem resumeEngine_wf {step g} {s : State} (h : s.wf = true) : (resumeEngine step g s).wf = true :=
  wf_ite h (wf_then (wf_else (puts_wf _ (setEng_wf _ _ h)) fun h => thawWatchdog_wf h) fun h => thawWatchdog_wf h)

theorem writeEngDbg_wf {g v} {s : State} (h : s.wf = true) : (writeEngDbg g v s).wf = true :=
  wf_then (wf_then (wf_then (wf_then (writeReg_wf _ _ h) fun h => haltRequest_wf h) fun h => resumeEngine_wf h) fun h => resumeEngine_wf h)
    fun h => forceHalt_wf h

theorem execEngDbgHalt_wf {req g} {s : State} (h : s.wf = true) : Canonical (execEngDbgHalt req g s) :=
  canonical_next (guardedWrite_wf _ _ _ _ (wf_begin h) (writeEngDbg_wf (wf_begin h)))

theorem execEngDbgForce_wf {req g} {s : State} (h : s.wf = true) : Canonical (execEngDbgForce req g s) :=
  canonical_next (guardedWrite_wf _ _ _ _ (wf_begin h) (writeEngDbg_wf (wf_begin h)))

theorem execEngDbgResume_wf {req g} {s : State} (h : s.wf = true) : Canonical (execEngDbgResume req g s) :=
  canonical_next (guardedWrite_wf _ _ _ _ (wf_begin h) (writeEngDbg_wf (wf_begin h)))

theorem execEngDbgStep_wf {req g ie} {s : State} (h : s.wf = true) : Canonical (execEngDbgStep req g ie s) :=
  canonical_next (guardedWrite_wf _ _ _ _ (wf_begin h) (writeEngDbg_wf (wf_begin h)))

theorem writeEngDbgPc_wf {g v} {s : State} (h : s.wf = true) : (writeEngDbgPc g v s).wf = true :=
  wf_ite h (puts_wf _ (setEng_wf _ _ h))

theorem execEngDbgPcWrite_wf {req g data} {s : State} (h : s.wf = true) : Canonical (execEngDbgPcWrite req g data s) :=
  canonical_next (guardedWrite_wf _ _ _ _ (wf_begin h) (writeEngDbgPc_wf (wf_begin h)))

theorem endFeed_wf {g} {s : State} (h : s.wf = true) : (endFeed g s).wf = true :=
  put_wf _ _ (setEng_wf _ _ h)

theorem feed_wf {g i} {s : State} (h : s.wf = true) : (feed g i s).wf = true := by
  have hd := perform_wf (g := g) (i := i) (setEng_wf g { s.eng g with feeding := true } h)
  unfold feed
  dsimp only
  revert hd
  cases perform g i (s.setEng g { s.eng g with feeding := true }) with
  | done flow acc t => exact fun hd => endFeed_wf hd
  | trap x t => exact fun hd => endFeed_wf (put_wf _ _ hd)
  | stall t => exact fun hd => put_wf _ _ hd

theorem writeEngInstr_wf {g v} {s : State} (h : s.wf = true) : (writeEngInstr g v s).wf = true := by
  unfold writeEngInstr
  refine wf_ite h ?_
  split
  · exact put_wf _ _ h
  · exact wf_ite (put_wf _ _ h) (wf_ite (put_wf _ _ h) (feed_wf h))

theorem execInstructionFeed_wf {req g word} {s : State} (h : s.wf = true) : Canonical (execInstructionFeed req g word s) :=
  canonical_next (guardedWrite_wf _ _ _ _ (wf_begin h) (writeEngInstr_wf (wf_begin h)))

theorem writeEngCmp_wf {g k v} {s : State} (h : s.wf = true) : (writeEngCmp g k v s).wf = true :=
  setEng_wf _ _ (writeReg_wf _ _ h)

theorem writeEngDebugReg_wf {g off v} {s : State} (h : s.wf = true) : (writeEngDebugReg g off v s).wf = true :=
  wf_ite (writeEngDbg_wf h) (wf_ite (writeEngDbgPc_wf h) (wf_ite (writeEngInstr_wf h) (wf_ite (writeEngCmp_wf h) (writeReg_wf _ _ h))))

theorem crewHalt_wf {v} {s : State} (h : s.wf = true) : (crewHalt v s).wf = true :=
  haltAll_wf _ _ h

theorem execDbgCrewHalt_wf {req data} {s : State} (h : s.wf = true) : Canonical (execDbgCrewHalt req data s) :=
  canonical_next (guardedWrite_wf _ _ _ _ (wf_begin h) (crewHalt_wf (wf_begin h)))

theorem releaseEngine_wf {s : State} {g} (h : s.wf = true) : (releaseEngine s g).wf = true :=
  resumeEngine_wf (wf_ite (puts_wf _ (setEng_wf _ _ h)) h)

theorem crewResume_wf {v} {s : State} (h : s.wf = true) : (crewResume v s).wf = true :=
  foldl_wf _ (fun _ _ h => releaseEngine_wf h) _ h

theorem execDbgCrewResume_wf {req data} {s : State} (h : s.wf = true) : Canonical (execDbgCrewResume req data s) :=
  canonical_next (guardedWrite_wf _ _ _ _ (wf_begin h) (crewResume_wf (wf_begin h)))

theorem writeIslHalt_wf {d v} {s : State} (h : s.wf = true) : (writeIslHalt d v s).wf = true :=
  wf_then (wf_onDebug (put_wf _ _ h)) fun h => wakePart_wf _ h

theorem execDbgIslHalt_wf {req die data} {s : State} (h : s.wf = true) : Canonical (execDbgIslHalt req die data s) :=
  canonical_next (guardedWrite_wf _ _ _ _ (wf_begin h) (writeIslHalt_wf (wf_begin h)))

theorem writeIslStep_wf {v} {s : State} (h : s.wf = true) : (writeIslStep v s).wf = true :=
  wf_ite h (wf_onDebug h)

theorem execDbgIslStep_wf {req data} {s : State} (h : s.wf = true) : Canonical (execDbgIslStep req data s) :=
  canonical_next (guardedWrite_wf _ _ _ _ (wf_begin h) (writeIslStep_wf (wf_begin h)))

theorem execTrigIn_wf {s : State} (h : s.wf = true) : Canonical (execTrigIn s) :=
  canonical_next (xtSource_wf (wf_begin h))

theorem xtPulse_wf {v} {s : State} (h : s.wf = true) : (xtPulse v s).wf = true :=
  xtChannels_wf _ _ h

theorem execDbgXtPulse_wf {req data} {s : State} (h : s.wf = true) : Canonical (execDbgXtPulse req data s) :=
  canonical_next (guardedWrite_wf _ _ _ _ (wf_begin h) (xtPulse_wf (wf_begin h)))

end Sys2Proof.Machine
end

section
/-! PROOFS. The canonical form is kept by what `Engines` defines. -/

namespace Sys2Proof.Machine

theorem execInterruptEntry_wf {g next} {s : State} (h : s.wf = true) : Canonical (execInterruptEntry g next s) := by
  unfold execInterruptEntry
  refine canonical_ite (canonical_next (wf_begin h)) ?_
  split
  · exact canonical_next (takeException_wf (wf_begin h))
  · exact canonical_next (wf_begin h)

theorem execFeatherWake_wf {g} {s : State} (h : s.wf = true) : Canonical (execFeatherWake g s) :=
  canonical_ite (canonical_next (put_wf _ _ (wf_begin h))) (canonical_next (wf_begin h))

theorem memRead_getD_wf {x a k st v} {s : State} (h : s.wf = true) : ((memRead x a k s).getD ⟨st, v, s⟩).s.wf = true := by
  cases e : memRead x a k s with
  | none => exact h
  | some r => exact memRead_wf h e

theorem execEngineMemoryOutsideAccess_wf {req g inst off write} {s : State} (h : s.wf = true) :
    Canonical (execEngineMemoryOutsideAccess req g inst off write s) := by
  have hw := @rangeWrite_wf
  have hr := @memRead_getD_wf
  unfold execEngineMemoryOutsideAccess
  with_reducible refine canonical_ite (canonical_next (wf_emit (wf_begin h))) ?_
  have ht := turnOf_wf (a := transferAsk req 0 (engMemAddress g inst off) 4 (if write.isSome then 1 else 0)) (wf_begin h)
  revert ht hw hr
  induction turnOf _ s.begin using of_any with | any r =>
  induction memRead using of_any with | any read =>
  induction rangeWrite using of_any with | any put =>
  intro hw hr ht
  split
  · exact canonical_next (wf_emit ht)
  · exact canonical_next (wf_emit ht)
  · exact canonical_next (wf_emit (hr ht))
  · exact canonical_next (wf_emit (hw ht))

theorem biteEngine_wf {g fails} {s : State} (h : s.wf = true) : (biteEngine g fails s).wf = true :=
  wf_ite (doubleFault_wf (count_wf _ _ (startCore_wf (put_wf _ _ (setEng_wf _ _ h)))))
    (raiseEng_wf (count_wf _ _ (startCore_wf (put_wf _ _ (setEng_wf _ _ h)))))

theorem execEngineWatchdogBite_wf {g restartFails} {s : State} (h : s.wf = true) : Canonical (execEngineWatchdogBite g restartFails s) :=
  canonical_ite (canonical_next (wf_begin h)) (canonical_next
    (wf_else (slotEngineLost_wf (biteEngine_wf (wf_begin h))) fun h => beginRecovery_wf h))

theorem execEngWdtLoad_wf {req g data} {s : State} (h : s.wf = true) : Canonical (execEngWdtLoad req g data s) :=
  canonical_next (guardedWrite_wf _ _ _ _ (wf_begin h) (writeEngReg_wf (wf_begin h)))

theorem execEngWdtKick_wf {req g key} {s : State} (h : s.wf = true) : Canonical (execEngWdtKick req g key s) :=
  canonical_next (guardedWrite_wf _ _ _ _ (wf_begin h) (writeEngReg_wf (wf_begin h)))

theorem execEngCtrlRun_wf {req g run} {s : State} (h : s.wf = true) : Canonical (execEngCtrlRun req g run s) :=
  canonical_next (guardedWrite_wf _ _ _ _ (wf_begin h) (writeEngCtrl_wf (wf_begin h)))

theorem execEngCtrlRestart_wf {req g run} {s : State} (h : s.wf = true) : Canonical (execEngCtrlRestart req g run s) :=
  canonical_next (guardedWrite_wf _ _ _ _ (wf_begin h) (writeEngCtrl_wf (wf_begin h)))

theorem execEngIrqSet_wf {req g lines} {s : State} (h : s.wf = true) : Canonical (execEngIrqSet req g lines s) :=
  canonical_next (guardedWrite_wf _ _ _ _ (wf_begin h) (writeEngReg_wf (wf_begin h)))

theorem execEngTmrArm_wf {req g hi} {s : State} (h : s.wf = true) : Canonical (execEngTmrArm req g hi s) :=
  canonical_next (guardedWrite_wf _ _ _ _ (wf_begin h) (writeEngReg_wf (wf_begin h)))

theorem execEngineTimer_wf {g} {s : State} (h : s.wf = true) : Canonical (execEngineTimer g s) :=
  canonical_ite (canonical_next (wf_begin h)) (canonical_next (wakePart_wf _ (setLine_wf (setEng_wf _ _ (wf_begin h)))))

theorem execUndefinedInstruction_wf {g word} {s : State} (h : s.wf = true) : Canonical (execUndefinedInstruction g word s) := by
  unfold execUndefinedInstruction
  split
  · exact canonical_next (runYezar_wf (wf_begin h))
  · exact canonical_next (wf_else (wf_begin h) fun h => runYezar_wf h)

end Sys2Proof.Machine
end

section
/-! PROOFS. The canonical form is kept by what `Fabric` defines. -/

namespace Sys2Proof.Machine

theorem putCells_wf (b : BlockEdge) (x : BitVec 48) (gsr : Bool) (old : State) : ∀ (l : List (CellCfg × CellOut)) {m : Nat} {s : State},
    s.wf = true → (putCells b x gsr old l m s).wf = true
  | [], _, _, h => h
  | (_, _) :: l, _, _, h => putCells_wf b x gsr old l (wf_frame h rfl rfl rfl)

theorem stepBlock_wf {n} {s : State} {b} (h : s.wf = true) : (stepBlock n s b).wf = true :=
  wf_emit (putCells_wf _ _ _ _ _ h)

theorem stepMac_wf {n} {s : State} {x2} (h : s.wf = true) : (stepMac n s x2).wf = true :=
  wf_ite (wf_frame h rfl rfl rfl) (wf_emit (wf_frame h rfl rfl rfl))

theorem portRead_wf (e : MemEdge) (seen : List Nat) (own all : List (Nat × Byte)) : ∀ (l : List Nat) {s : State}, s.wf = true →
    (portRead e seen own all l s).2.2.2.wf = true
  | [], _, h => h
  | a :: l, s, h => by
    rw [portRead]
    refine portRead_wf e seen own all l ?_
    split
    · exact secondRead_wf h
    · exact checkedRead_wf _ _ _ _ _ _ _ h

theorem portStage_wf {x0 portB} {q seen} {own all} {s : State} (h : s.wf = true) : (portStage x0 portB q seen own all s).wf = true := by
  unfold portStage
  dsimp only
  refine wf_emit ?_
  refine wf_frame ?_ rfl rfl rfl
  split
  · exact portRead_wf _ _ _ _ _ h
  · exact h

theorem stepMem_wf {s : State} {x1} (h : s.wf = true) : (stepMem s x1).wf = true :=
  foldl_wf _ (fun _ _ h => userStore_wf _ _ _ _ _ h) _ (portStage_wf (portStage_wf h))

theorem stepMems_wf {x mems} {s : State} (h : s.wf = true) : (stepMems x mems s).wf = true :=
  foldl_wf _ (fun _ _ h => finishWriteBack_wf h) _ (foldl_wf _ (fun _ _ h => stepMem_wf h) _ (wf_frame h rfl rfl rfl))

theorem tickShadow_wf {x} {s : State} (h : s.wf = true) : (tickShadow x s).wf = true :=
  wf_frame h rfl rfl rfl

theorem stepBank_wf {s : State} {x1} (h : s.wf = true) : (stepBank s x1).wf = true :=
  wf_frame h rfl rfl rfl

theorem laneTraffic_wf {s : State} {x1} (h : s.wf = true) : (laneTraffic s x1).wf = true :=
  wf_then (wf_frame h rfl rfl rfl) fun h => raiseLane_wf h

theorem stepLane_wf {s : State} {e} (h : s.wf = true) : (stepLane s e).wf = true := by
  have ht := laneTraffic_wf (x1 := e) h
  unfold stepLane
  refine wf_ite h ?_
  extract_lets l t rx u
  have hu : u.wf = true := by
    refine wf_ite ?_ ht
    cases t with
    | nil => exact ht
    | cons w ws => exact wf_emit (wf_frame ht rfl rfl rfl)
  clear_value u
  split
  · exact hu
  · exact wf_ite (wf_emit (wf_frame hu rfl rfl rfl)) (wf_emit hu)

theorem spendStep_wf {s : State} {l} (h : s.wf = true) : (spendStep s l).wf = true :=
  wf_ite (wf_frame h rfl rfl rfl) h

theorem presentArrived_wf {xs} {s : State} (h : s.wf = true) : (presentArrived xs s).wf = true :=
  foldl_wf _ (fun _ _ h => wf_emit h) _ (wf_frame h rfl rfl rfl)

theorem edgeBegins_wf {s : State} {sec} (h : s.wf = true) : (edgeBegins s sec).wf = true :=
  wf_frame (presentArrived_wf (spendStep_wf (wf_begin h))) rfl rfl rfl

theorem snapshot_wf {init frozen} {noEdge ts x} {s : State} (h : s.wf = true) : (snapshot init frozen noEdge ts x s).wf = true :=
  wf_frame h rfl rfl rfl

theorem edgeEnds_wf {l} {s : State} (h : s.wf = true) : (edgeEnds l s).wf = true :=
  applyTokens_wf (wf_ite (foldl_wf _ (fun _ _ h => snapshot_wf h) _ (onConfig_wf h rfl)) h)

theorem execIslandCycle_wf {sec logic} {macs mems} {banks lanes} {s : State} (h : s.wf = true) :
    Canonical (execIslandCycle sec logic macs mems banks lanes s) :=
  canonical_ite (canonical_next (wf_begin h)) (canonical_next
    (edgeEnds_wf (wf_frame (foldl_wf _ (fun _ _ h => stepLane_wf h) _
    (foldl_wf _ (fun _ _ h => stepBank_wf h) _ (tickShadow_wf
    (stepMems_wf (foldl_wf _ (fun _ _ h => stepMac_wf h) _ (foldl_wf _ (fun _ _ h => stepBlock_wf h) _
    (edgeBegins_wf h))))))) rfl rfl rfl)))

theorem execIslandGate_wf {sec req} {s : State} (h : s.wf = true) : Canonical (execIslandGate sec req s) :=
  canonical_ite (canonical_next (wf_begin h)) (canonical_ite (canonical_next (wf_frame (wf_begin h) rfl rfl rfl))
    (canonical_ite (canonical_next (wf_begin h)) (canonical_next (putGated_wf (wf_frame (wf_begin h) rfl rfl rfl)))))

theorem execIslandWake_wf {sec} {s : State} (h : s.wf = true) : Canonical (execIslandWake sec s) :=
  canonical_next (wakePart_wf _ (wakeIsland_wf (wf_begin h)))

theorem execFabricFence_wf {sec ports} {s : State} (h : s.wf = true) : Canonical (execFabricFence sec ports s) :=
  canonical_ite (canonical_next (wf_begin h)) (canonical_next (wf_frame (wf_begin h) rfl rfl rfl))

theorem execFabricFenceDone_wf {sec} {s : State} (h : s.wf = true) : Canonical (execFabricFenceDone sec s) := by
  unfold execFabricFenceDone
  dsimp only
  split
  · exact canonical_next (wf_begin h)
  · exact canonical_ite (canonical_next (wf_emit (wf_frame (wf_begin h) rfl rfl rfl))) (canonical_next (wf_begin h))

theorem execUserIrq_wf {sec lines} {s : State} (h : s.wf = true) : Canonical (execUserIrq sec lines s) :=
  canonical_ite (canonical_next (wf_begin h)) (canonical_next (wf_frame (settled_wf _ _ (put_wf _ _ (wf_begin h))) rfl rfl rfl))

theorem execBankVccioMismatch_wf {bank det} {s : State} (h : s.wf = true) : Canonical (execBankVccioMismatch bank det s) :=
  canonical_next (checkBank_wf (put_wf _ _ (wf_begin h)))

theorem execBankVccioRestore_wf {bank} {s : State} (h : s.wf = true) : Canonical (execBankVccioRestore bank s) :=
  canonical_next (wf_else (wf_begin h) fun h => flag_wf _ _ (put_wf _ _ h))

end Sys2Proof.Machine
end

section
/-! PROOFS. The canonical form is kept by what `LaneCmds` defines. -/

namespace Sys2Proof.Machine

theorem writeQuad_wf {q v fref} {s : State} (h : s.wf = true) : (writeQuad q v fref s).wf = true :=
  wf_else (writeReg_wf _ _ h) fun h => wf_ite (foldl_wf _ (fun _ _ h => flag_wf _ _ h) _ (wf_onLanes h)) (flag_wf _ _ h)

theorem execQuadApply_wf {req q} {data fref} {s : State} (h : s.wf = true) : Canonical (execQuadApply req q data fref s) :=
  canonical_next (guardedWrite_wf _ _ _ _ (wf_begin h) (writeQuad_wf (wf_begin h)))

theorem writeTxeq_wf {l v} {s : State} (h : s.wf = true) : (writeTxeq l v s).wf = true :=
  wf_ite h (wf_else (writeReg_wf _ _ h) fun h => wf_ite (wf_onLanes h) (flag_wf _ _ h))

theorem execTxeqApply_wf {req l data} {s : State} (h : s.wf = true) : Canonical (execTxeqApply req l data s) :=
  canonical_next (guardedWrite_wf _ _ _ _ (wf_begin h) (writeTxeq_wf (wf_begin h)))

theorem writeRxeq_wf {l v} {s : State} (h : s.wf = true) : (writeRxeq l v s).wf = true :=
  wf_ite h (wf_then (writeReg_wf _ _ h) fun h => wf_onLanes (puts_wf _ h))

theorem execAdapt_wf {req l data} {s : State} (h : s.wf = true) : Canonical (execAdapt req l data s) :=
  canonical_next (guardedWrite_wf _ _ _ _ (wf_begin h) (writeRxeq_wf (wf_begin h)))

theorem execAdaptComplete_wf {l converged} {ctle ffe dfe} {s : State} (h : s.wf = true) :
    Canonical (execAdaptComplete l converged ctle ffe dfe s) :=
  canonical_ite (canonical_next (wf_begin h)) (canonical_next
    (wf_onLanes (puts_wf _ (wf_else (wf_else (wf_else (wf_begin h) fun h => put_wf _ _ h) fun h => puts_wf _ h) fun h => put_wf _ _ h))))

theorem execLos_wf {l} {s : State} (h : s.wf = true) : Canonical (execLos l s) :=
  canonical_next (raiseLane_wf (flag_wf _ _ (wf_begin h)))

theorem execSignalReturn_wf {l} {s : State} (h : s.wf = true) : Canonical (execSignalReturn l s) :=
  canonical_next (flag_wf _ _ (wf_begin h))

theorem execCdrLock_wf {l} {s : State} (h : s.wf = true) : Canonical (execCdrLock l s) :=
  canonical_next (flag_wf _ _ (wf_begin h))

theorem loseCdr_wf {l} {s : State} (h : s.wf = true) : (loseCdr l s).wf = true :=
  wf_onLanes (flag_wf _ _ h)

theorem execCdrUnlock_wf {l} {s : State} (h : s.wf = true) : Canonical (execCdrUnlock l s) :=
  canonical_next (wf_then (wf_begin h) fun h => raiseLane_wf (loseCdr_wf h))

theorem execBlockLock_wf {l gained} {s : State} (h : s.wf = true) : Canonical (execBlockLock l gained s) :=
  canonical_ite (canonical_next (wf_begin h)) (canonical_ite (canonical_next (flag_wf _ _ (wf_begin h)))
    (canonical_next (wf_then (wf_begin h) fun h => raiseLane_wf (flag_wf _ _ h))))

theorem writeLaneCtrl_wf {l v} {s : State} (h : s.wf = true) : (writeLaneCtrl l v s).wf = true :=
  wf_ite h (wf_else (writeReg_wf _ _ h) fun h => wf_onLanes (puts_wf _ (loseCdr_wf h)))

theorem execLaneReset_wf {req l data} {s : State} (h : s.wf = true) : Canonical (execLaneReset req l data s) :=
  canonical_next (guardedWrite_wf _ _ _ _ (wf_begin h) (writeLaneCtrl_wf (wf_begin h)))

theorem execLoopbackSelect_wf {req l data} {s : State} (h : s.wf = true) : Canonical (execLoopbackSelect req l data s) :=
  canonical_next (guardedWrite_wf _ _ _ _ (wf_begin h) (writeLaneCtrl_wf (wf_begin h)))

theorem countBy_wf {s : State} {f k} (h : s.wf = true) : (State.countBy s f k).wf = true :=
  put_wf _ _ h

theorem execCodewordReceive_wf {l corrected gained} {s : State} (h : s.wf = true) :
    Canonical (execCodewordReceive l corrected gained s) := by
  unfold execCodewordReceive
  dsimp only
  split
  · exact canonical_next (wf_begin h)
  · split
    · exact canonical_next (wf_then (wf_begin h) fun h => flag_wf _ _ h)
    · split
      · exact canonical_next (wf_else (wf_onLanes (wf_begin h)) fun h => countBy_wf (countBy_wf h))
      · exact canonical_next (raiseLane_wf (countBy_wf (wf_then (wf_onLanes (wf_begin h)) fun h => flag_wf _ _ h)))

theorem writePattern_wf {l v} {s : State} (h : s.wf = true) : (writePattern l v s).wf = true :=
  wf_then (writeReg_wf _ _ h) fun h => flag_wf _ _ h

theorem prbsClear_wf {l} {s : State} (h : s.wf = true) : (prbsClear l s).wf = true :=
  puts_wf _ h

theorem execPrbsClr_wf {req l} {s : State} (h : s.wf = true) : Canonical (execPrbsClr req l s) :=
  canonical_next (guardedWrite_wf _ _ _ _ (wf_begin h) (prbsClear_wf (wf_begin h)))

theorem execPrbsLock_wf {l} {s : State} (h : s.wf = true) : Canonical (execPrbsLock l s) :=
  canonical_next (wf_else (wf_begin h) fun h => flag_wf _ _ h)

theorem count48_wf {lo hi k} {s : State} (h : s.wf = true) : (count48 lo hi k s).wf = true :=
  put64_wf _ _ _ h

theorem execPrbsLockLost_wf {l bits errs} {s : State} (h : s.wf = true) : Canonical (execPrbsLockLost l bits errs s) :=
  canonical_ite (canonical_next (wf_begin h)) (canonical_next
    (raiseLane_wf (count_wf _ _ (flag_wf _ _ (count48_wf (count48_wf (wf_begin h)))))))

theorem writeEye_wf {l v} {s : State} (h : s.wf = true) : (writeEye l v s).wf = true :=
  wf_else (writeReg_wf _ _ h) fun h => wf_onLanes (puts_wf _ h)

theorem execEyeGo_wf {req l data} {s : State} (h : s.wf = true) : Canonical (execEyeGo req l data s) :=
  canonical_next (guardedWrite_wf _ _ _ _ (wf_begin h) (writeEye_wf (wf_begin h)))

theorem execEyeDwellDone_wf {l count} {s : State} (h : s.wf = true) : Canonical (execEyeDwellDone l count s) :=
  canonical_ite (canonical_next (wf_begin h)) (canonical_next (wf_onLanes (puts_wf _ (put64_wf _ _ _ (wf_begin h)))))

theorem testPort_wf {p} {s : State} (h : s.wf = true) : (testPort p s).wf = true :=
  wf_else (startLinkReset_wf h) fun h => putBit_wf _ _ _ h

theorem writeHtest_wf {v} {s : State} (h : s.wf = true) : (writeHtest v s).wf = true :=
  foldl_wf _ (fun _ _ h => wf_ite (testPort_wf h) h) _ (put_wf _ _ h)

theorem execLaneHtest_wf {req data} {s : State} (h : s.wf = true) : Canonical (execLaneHtest req data s) :=
  canonical_next (guardedWrite_wf _ _ _ _ (wf_begin h) (writeHtest_wf (wf_begin h)))

end Sys2Proof.Machine
end

section
/-! PROOFS. The canonical form is kept by what `Nvme` defines. -/

namespace Sys2Proof.Machine

theorem setNvQueue_wf {port q x} {s : State} (h : s.wf = true) : (setNvQueue port q x s).wf = true :=
  onHost_wf h

theorem postCompletion_wf {port q body} {s : State} (h : s.wf = true) : (postCompletion port q body s).wf = true :=
  wf_else (wf_emit (setNvQueue_wf h)) fun h => sendMsix_wf _ _ h

theorem serveQueue_wf {port op} {qid size} {vec x} {s : State} (h : s.wf = true) : (serveQueue port op qid size vec x s).2.wf = true := by
  unfold serveQueue
  split
  · exact h
  · split
    · split
      · exact h
      · exact setNvQueue_wf h
    · split
      · exact h
      · split
        · exact h
        · split
          · exact h
          · exact setNvQueue_wf h
    · split
      · exact h
      · split
        · exact h
        · exact setNvQueue_wf h
    · split
      · exact h
      · split
        · exact h
        · exact setNvQueue_wf h

theorem serveAdmin_wf {port cmd} {s : State} (h : s.wf = true) : (serveAdmin port cmd s).wf = true :=
  wf_ite (postCompletion_wf (serveQueue_wf h)) (postCompletion_wf (free_wf (free_wf h)))

theorem crewWrite_wf {n off bytes} {s : State} (h : s.wf = true) : (crewWrite n off bytes s).wf = true := by
  unfold crewWrite
  with_reducible refine foldl_snd_wf _ (fun p w hp => ?_) _ h
  dsimp only
  with_reducible exact plainWrite_wf hp

theorem sendInbound_wf {n c} {s : State} (h : s.wf = true) : (sendInbound n c s).wf = true := by
  unfold sendInbound
  exact taskPush_wf (onHost_wf (put_wf _ _ (crewWrite_wf h)))

theorem redispatch_wf {n} {s : State} (h : s.wf = true) : (redispatch n s).wf = true :=
  foldl_wf _ (fun _ _ h => wf_ite (sendInbound_wf h) h) _ h

theorem consumeEntry_wf {n e} {s t : State} (h : s.wf = true) (e : consumeEntry n e s = some t) : t.wf = true := by
  unfold consumeEntry at e
  dsimp only at e
  split at e
  · exact Option.some.inj e ▸ raiseHp_wf h
  · split at e
    · cases e
    · exact Option.some.inj e ▸ onHost_wf (postCompletion_wf h)

theorem drainOutbound_wf {n k} {s : State} (h : s.wf = true) : (drainOutbound n k s).wf = true := by
  induction k generalizing s with
  | zero =>
    conv => lhs; arg 1; whnf
    exact h
  | succ k ih =>
    conv => lhs; arg 1; whnf
    cases instDecidableEqNat (s.get (HP_NVCH_OUT_RP n)) (s.get (HP_NVCH_OUT_WP n)) with
    | isTrue _ => exact h
    | isFalse _ =>
      dsimp only
      have hc := crewRecord_wf (n := n) (off := (s.get (HP_NVCH_OUT_BASE n) * 32 + s.get (HP_NVCH_OUT_RP n) * 32) % 2 ^ 24) (k := 8) h
      revert hc
      generalize crewRecord _ _ _ _ = r
      intro ht
      split
      · exact ht
      · next e =>
        refine ih (put_wf _ _ ?_)
        split at e
        · exact Option.some.inj e ▸ ht
        · exact consumeEntry_wf ht e

theorem writeOutWp_wf {n wp} {s : State} (h : s.wf = true) : (writeOutWp n wp s).wf = true :=
  redispatch_wf (drainOutbound_wf (put_wf _ _ h))

theorem execNvmeOutWpWrite_wf {req n wp} {s : State} (h : s.wf = true) : Canonical (execNvmeOutWpWrite req n wp s) :=
  canonical_next (guardedWrite_wf _ _ _ _ (wf_begin h) (writeOutWp_wf (wf_begin h)))

theorem ringSq_wf {port q tail} {s : State} (h : s.wf = true) : (ringSq port q tail s).wf = true :=
  wf_ite (setNvQueue_wf h) h

theorem ringCq_wf {port q head} {s : State} (h : s.wf = true) : (ringCq port q head s).wf = true :=
  wf_ite (foldl_wf _ (fun _ _ h => drainOutbound_wf h) _ (setNvQueue_wf h)) h

theorem execNvmeSqDoorbell_wf {port q tail} {s : State} (h : s.wf = true) : Canonical (execNvmeSqDoorbell port q tail s) :=
  canonical_next (wf_then (wf_begin h) fun h => ringSq_wf h)

theorem execNvmeCommandDispatch_wf {port q cmd} {s : State} (h : s.wf = true) : Canonical (execNvmeCommandDispatch port q cmd s) :=
  canonical_ite (canonical_next (wf_begin h)) (canonical_ite (canonical_ite (canonical_next (wf_begin h))
    (canonical_next (serveAdmin_wf (setLines_wf _ _ (put_wf _ _ (setNvQueue_wf (wf_begin h)))))))
    (canonical_ite (canonical_ite (canonical_next (postCompletion_wf (put_wf _ _ (setNvQueue_wf (wf_begin h)))))
    (canonical_next (wf_begin h))) (canonical_ite (canonical_next (wakePart_wf _ (redispatch_wf (wf_begin h))))
    (canonical_next (wf_then (redispatch_wf (wf_begin h)) fun h => sendInbound_wf (put_wf _ _ (setNvQueue_wf h)))))))

end Sys2Proof.Machine
end

section
/-! PROOFS. The canonical form is kept by what `Observe` defines. -/

namespace Sys2Proof.Machine

theorem prGo_wf {srcStore} {s : State} (h : s.wf = true) : (prGo srcStore s).wf = true :=
  wf_else (flag_wf _ _ h) fun h => puts_wf _ (setLoad_wf h)

theorem execPrGo_wf {req srcStore} {s : State} (h : s.wf = true) : Canonical (execPrGo req srcStore s) :=
  canonical_next (guardedWrite_wf _ _ _ _ (wf_begin h) (prGo_wf (wf_begin h)))

theorem prAbort_wf {s : State} (h : s.wf = true) : (prAbort s).wf = true :=
  wf_ite (partLoadFails_wf h) h

theorem execPrAbort_wf {req} {s : State} (h : s.wf = true) : Canonical (execPrAbort req s) :=
  canonical_next (guardedWrite_wf _ _ _ _ (wf_begin h) (prAbort_wf (wf_begin h)))

theorem prHold_wf {l d} {s : State} (h : s.wf = true) : (prHold l d s).wf = true :=
  setLoad_wf (put_wf _ _ (setConfigured_wf (setRegionBusy_wf (holdSectors_wf (clearSectors_wf (wf_onClocks h))))))

theorem execPrFinalChecks_wf {tag sha} {shake decl} {s : State} (h : s.wf = true) : Canonical (execPrFinalChecks tag sha shake decl s) := by
  unfold execPrFinalChecks
  dsimp only
  split
  · exact canonical_next (wf_begin h)
  · split
    · exact canonical_next (wf_begin h)
    · split
      · exact canonical_next (partLoadFails_wf (wf_begin h))
      · exact canonical_next (prHold_wf (wf_begin h))

theorem prWritten_wf {l d} {s : State} (h : s.wf = true) : (prWritten l d s).wf = true :=
  beginStartup_wf (put_wf _ _ (setConfigured_wf (wf_then (wf_onClocks
    (applyImage_wf (foldl_wf _ (fun _ _ h => putFrames_wf h) _ h))) fun h => flag_wf _ _ h)))

theorem regionLost_wf {l} {s : State} (h : s.wf = true) : (regionLost l s).wf = true :=
  raiseCfg_wf (puts_wf _ (wakeReadback_wf (onConfig_wf (setRegionBusy_wf (clearSectors_wf (stagingBad_wf h))) rfl)))

theorem execPrFramesWritten_wf {ue} {s : State} (h : s.wf = true) : Canonical (execPrFramesWritten ue s) := by
  unfold execPrFramesWritten
  dsimp only
  split
  · split
    · exact canonical_next (wf_else (clearDone_wf (wf_begin h)) fun h => wf_ite (regionLost_wf h) (prWritten_wf h))
    · exact canonical_next (clearDone_wf (wf_begin h))
  · exact canonical_next (clearDone_wf (wf_begin h))

theorem writeCapCtrl_wf {trigEn go} {s : State} (h : s.wf = true) : (writeCapCtrl trigEn go s).wf = true :=
  wf_then (flag_wf _ _ h) fun h => captureToken_wf h

theorem execCaptureGo_wf {req trigEn} {s : State} (h : s.wf = true) : Canonical (execCaptureGo req trigEn s) :=
  canonical_next (guardedWrite_wf _ _ _ _ (wf_begin h) (writeCapCtrl_wf (wf_begin h)))

theorem endSnapshot_wf {l} {s : State} (h : s.wf = true) : (endSnapshot l s).wf = true :=
  wf_then (onConfig_wf h rfl) fun h => xtSource_wf (puts_wf _ h)

theorem withInitial_wf {init x} {s : State} (h : s.wf = true) : (withInitial init x s).wf = true :=
  onConfig_wf h rfl

theorem execCaptureSnapshot_wf {sec init} {s : State} (h : s.wf = true) : Canonical (execCaptureSnapshot sec init s) :=
  canonical_ite (canonical_next (wf_begin h)) (canonical_ite (canonical_next
    (endSnapshot_wf (foldl_wf _ (fun _ _ h => withInitial_wf h) _ (wf_begin h))))
    (canonical_ite (canonical_next (wf_begin h)) (canonical_next
    (endSnapshot_wf (foldl_wf _ (fun _ _ h => snapshot_wf h) _ (wf_begin h))))))

theorem execCaptureNoEdge_wf {sec init} {s : State} (h : s.wf = true) : Canonical (execCaptureNoEdge sec init s) :=
  canonical_ite (canonical_next (wf_begin h)) (canonical_ite (canonical_next (endSnapshot_wf (wf_begin h)))
    (canonical_ite (canonical_next (wf_begin h)) (canonical_next
    (endSnapshot_wf (put_wf _ _ (foldl_wf _ (fun _ _ h => putBit_wf _ _ _ (snapshot_wf h)) _ (wf_begin h)))))))

theorem readbackGo_wf {shadow} {s : State} (h : s.wf = true) : (readbackGo shadow s).wf = true :=
  wf_ite (flag_wf _ _ (flag_wf _ _ h)) (puts_wf _ (onConfig_wf (flag_wf _ _ h) rfl))

theorem execReadbackGo_wf {req shadow} {s : State} (h : s.wf = true) : Canonical (execReadbackGo req shadow s) :=
  canonical_next (guardedWrite_wf _ _ _ _ (wf_begin h) (readbackGo_wf (wf_begin h)))

theorem readbackAbort_wf {s : State} (h : s.wf = true) : (readbackAbort s).wf = true :=
  onConfig_wf h rfl

theorem execReadbackAbort_wf {req} {s : State} (h : s.wf = true) : Canonical (execReadbackAbort req s) :=
  canonical_next (guardedWrite_wf _ _ _ _ (wf_begin h) (readbackAbort_wf (wf_begin h)))

theorem endReadback_wf {s : State} (h : s.wf = true) : (endReadback s).wf = true :=
  flag_wf _ _ (onConfig_wf h rfl)

theorem configByte_wf {s : State} {x frame b} (h : s.wf = true) : (configByte s x frame b).2.wf = true := by
  unfold configByte
  dsimp only
  split
  · exact h
  · exact h
  · exact count_wf _ _ (wf_ite h (scrubByte_wf h))

theorem configBytes_wf (x frame : Nat) : ∀ (k : Nat) {b : Nat} {s : State}, s.wf = true → (configBytes x frame b k s).2.wf = true
  | 0, _, _, h => h
  | k + 1, _, _, h => by
    rw [configBytes]
    with_reducible exact configBytes_wf x frame k (configByte_wf h)

theorem readbackBytes_wf {r} {s : State} (h : s.wf = true) : (readbackBytes r s).2.wf = true :=
  wf_ite_snd h (wf_ite_snd (flag_wf _ _ h) (configBytes_wf _ _ _ h))

end Sys2Proof.Machine
end

section
/-! PROOFS. The canonical form is kept by what `Service` defines. -/

namespace Sys2Proof.Machine

theorem execSlotDoorbell_wf {req slot tag} {s : State} (h : s.wf = true) : Canonical (execSlotDoorbell req slot tag s) :=
  canonical_next (guardedWrite_wf _ _ _ _ (wf_begin h) (ringSlot_wf (wf_begin h)))

theorem execSlotAbort_wf {req slot} {s : State} (h : s.wf = true) : Canonical (execSlotAbort req slot s) :=
  canonical_next (guardedWrite_wf _ _ _ _ (wf_begin h) (abortSlot_wf (wf_begin h)))

theorem execSlotWatchdogExpiry_wf {slot} {s : State} (h : s.wf = true) : Canonical (execSlotWatchdogExpiry slot s) :=
  canonical_next (wf_then (wf_begin h) fun h => stopSlot_wf (setLines_wf _ _ h))

theorem execCmdCapLock_wf {req} {s : State} (h : s.wf = true) : Canonical (execCmdCapLock req s) :=
  canonical_next (guardedWrite_wf _ _ _ _ (wf_begin h) (flag_wf _ _ (wf_begin h)))

theorem putRegion_wf {g k} {r base} {limit en} {rd wr ex} {s : State} (h : s.wf = true) :
    (putRegion g k r base limit en rd wr ex s).wf = true :=
  puts_wf _ h

theorem programRegions_wf {g k cap} {s : State} (h : s.wf = true) : (programRegions g k cap s).wf = true :=
  wf_ite h (foldl_wf _ (fun _ _ h => flag_wf _ _ h) _ (putRegion_wf (putRegion_wf (putRegion_wf (putRegion_wf (putRegion_wf h))))))

theorem mapWindow_wf {g addr} {s : State} (h : s.wf = true) : (mapWindow g addr s).2.wf = true :=
  puts_wf _ h

theorem beginProgram_wf {he k prog} {s : State} (h : s.wf = true) : (beginProgram he k prog s).wf = true :=
  onSlots_wf (puts_wf _ (setEng_wf _ _ (mapWindow_wf (programRegions_wf (writeBytes_wf _ _ _ _ _ _ _ h)))))

theorem loadSlot_wf {he k} {s : State} (h : s.wf = true) : (loadSlot he k s).wf = true :=
  onSlots_wf (put_wf _ _ h)

theorem programTurn_wf {k} {s : State} (h : s.wf = true) : (programTurn k s).2.wf = true :=
  plainTurn_wf h

theorem fetchProgram_wf {k prog fetchErr} {s : State} (h : s.wf = true) : (fetchProgram k prog fetchErr s).2.wf = true := by
  unfold fetchProgram
  extract_lets a len
  refine wf_ite_snd ?_ h
  have hr := rangeRead_wf (x := ⟨.hubMover, true, false, .ok⟩) (addr := a) (len := len) h
  generalize rangeRead _ a len s = r at hr ⊢
  obtain ⟨b, st, t⟩ := r
  exact hr

theorem execSlotProgramStart_wf {slot he prog fetchErr} {s : State} (h : s.wf = true) :
    Canonical (execSlotProgramStart slot he prog fetchErr s) := by
  have h := wf_begin h
  have ht := programTurn_wf (k := slot) h
  have hf := @fetchProgram_wf
  unfold execSlotProgramStart
  with_reducible refine canonical_ite (canonical_next h) (canonical_ite (canonical_next (completeSlot_wf h)) ?_)
  revert ht hf
  induction programTurn slot s.begin using of_any with | any r =>
  induction fetchProgram using of_any with | any f =>
  intro ht hf
  split
  · exact canonical_next (wf_emit (loadSlot_wf ht))
  · exact canonical_next (completeSlot_wf ht)
  · next t =>
    have hq := hf (k := slot) (prog := prog) (fetchErr := fetchErr) ht
    generalize f slot prog fetchErr t = q at hq ⊢
    obtain ⟨b, u⟩ := q
    cases b with
    | none => exact canonical_next (completeSlot_wf hq)
    | some b => exact canonical_next (slotBoundary_wf (beginProgram_wf hq))

theorem serviceReturn_wf {he status regs} {s : State} (h : s.wf = true) : (serviceReturn he status regs s).wf = true :=
  wf_ite h (slotBoundary_wf (onSlots_wf (setEng_wf _ _ h)))

theorem callOk_wf {s : State} (h : s.wf = true) : CallWf (callOk s) :=
  callWf_ret h

theorem callBad_wf {s : State} (h : s.wf = true) : CallWf (callBad s) :=
  callWf_ret h

theorem callBusy_wf {s : State} (h : s.wf = true) : CallWf (callBusy s) :=
  callWf_ret h

theorem serviceCall_wf {he num cap} {f : Nat → State → Call} {s : State} (hf : ∀ k t, t.wf = true → CallWf (f k t)) (h : s.wf = true) :
    Canonical (serviceCall he num cap f s) := by
  unfold serviceCall
  dsimp only
  split
  · exact canonical_next h
  · next k _ =>
    refine canonical_ite (canonical_next (serviceReturn_wf h)) ?_
    have hc := hf k s.begin h
    revert hc
    cases f k s.begin with
    | ret st regs t => exact fun hc => canonical_next (serviceReturn_wf hc)
    | stays t => exact fun hc => canonical_next hc

theorem waitCall_wf {he num ph} {s : State} (h : s.wf = true) : (waitCall he num ph s).wf = true :=
  onSlots_wf h

theorem readBuffer_wf {he a len} {s : State} (h : s.wf = true) : (readBuffer he a len s).2.wf = true := by
  unfold readBuffer
  dsimp only
  split
  · exact wf_ite_snd h (readLocal_wf h)
  · split
    · next t e =>
        exact (wf_snd e (plainTurn_wf h))
    · next t e =>
        exact (wf_snd e (plainTurn_wf h))
    · next t e =>
        exact rangeRead_wf ((wf_snd e (plainTurn_wf h)))
  · exact h

theorem withBuffer_wf {r : Buffer × State} {f : List Byte → State → Call} (hf : ∀ b t, t.wf = true → CallWf (f b t)) (h : r.2.wf = true) :
    CallWf (withBuffer r f) := by
  obtain ⟨b, t⟩ := r
  cases b with
  | bytes l => exact hf l t h
  | bad => exact h
  | wait => exact h

theorem writeBuffer_wf {he a bytes} {s : State} (h : s.wf = true) : (writeBuffer he a bytes s).2.wf = true := by
  unfold writeBuffer
  extract_lets g
  split
  · with_reducible exact wf_ite_snd h (writeBytes_wf _ _ _ _ _ _ _ h)
  · next e _ d _ =>
    have ht := plainTurn_wf (a := transferAsk e 1 d bytes.length 1) h
    split
    · next t he =>
      have hr := rangeWrite_wf (x := plainAccess e) (addr := d) (bytes := bytes) (wf_snd he ht)
      generalize rangeWrite _ _ _ _ = r at hr ⊢
      obtain ⟨n, st, u⟩ := r
      exact hr
    · exact ht
  · exact h

theorem callTurn_wf {r : Turn × State} (h : r.2.wf = true) : CallWf (callTurn r) := by
  obtain ⟨t, s⟩ := r
  cases t <;> exact h

theorem execExit_wf {he recordErr} {s : State} (h : s.wf = true) : Canonical (execExit he recordErr s) := by
  unfold execExit
  dsimp only
  split
  · exact canonical_next (wf_begin h)
  · refine canonical_next ?_
    refine bamidGoesOn_wf ?_
    split
    · exact completeSlot_wf (wf_begin h)
    · exact completeSlot_wf (wf_begin h)

theorem execMap_wf {he} {s : State} (h : s.wf = true) : Canonical (execMap he s) := by
  unfold execMap
  with_reducible refine serviceCall_wf (fun _ t h => ?_) h
  have hm := @mapWindow_wf
  revert hm
  induction mapWindow using of_any with | any f =>
  induction mapCap using of_any with | any cap =>
  intro hm
  dsimp only
  split
  · exact callBad_wf h
  · exact callWf_ite (callWf_ret h) (callWf_ite (callBad_wf h) (callWf_ret (hm h)))

theorem execTime_wf {he} {s : State} (h : s.wf = true) : Canonical (execTime he s) :=
  serviceCall_wf (fun _ _ h => callWf_ret h) h

theorem measurementOf_wf {i} {s : State} (h : s.wf = true) : (measurementOf i s).2.wf = true := by
  unfold measurementOf
  split
  · exact h
  · split
    · exact freeDigest_wf h
    · exact h

theorem execMeasure_wf {he} {s : State} (h : s.wf = true) : Canonical (execMeasure he s) :=
  serviceCall_wf (fun _ _ h => callWf_ite (callBad_wf h) (callTurn_wf (writeBuffer_wf (measurementOf_wf h)))) h

theorem execLoadFull_wf {he} {s : State} (h : s.wf = true) : Canonical (execLoadFull he s) :=
  serviceCall_wf (fun _ _ h => callWf_ite (callBad_wf h) (callWf_ite (callBusy_wf h)
    (callOk_wf (wf_ite (beginLoad_wf h) (startSource_wf h))))) h

theorem execLoadPartial_wf {he} {s : State} (h : s.wf = true) : Canonical (execLoadPartial he s) :=
  serviceCall_wf (fun _ _ h => callWf_ite (callWf_ite (callWf_stays h) (callWf_ret h))
    (callWf_ite (callBusy_wf h) (callWf_ite (callWf_stays (waitCall_wf (prGo_wf (puts_wf _ h)))) (callBusy_wf (prGo_wf (puts_wf _ h)))))) h

theorem blockReadback_wf {he b} {s : State} (h : s.wf = true) : CallWf (blockReadback he b s) :=
  callWf_ite (callOk_wf h) (callWf_ite (callWf_stays (waitCall_wf (readbackGo_wf (puts_wf _ h))))
    (callBad_wf (readbackGo_wf (puts_wf _ h))))

theorem execCaptureReadback_wf {he} {s : State} (h : s.wf = true) : Canonical (execCaptureReadback he s) :=
  serviceCall_wf (fun _ _ h => callWf_ite (callWf_ite (callWf_stays h) (callOk_wf h))
    (callWf_ite (callWf_ite (callWf_stays h) (callBusy_wf h))
    (callWf_ite (callBusy_wf h) (withBuffer_wf (fun _ _ h => callWf_ite (blockReadback_wf h)
    (callWf_ite (callWf_stays (waitCall_wf (writeCapCtrl_wf (foldl_wf _ (fun _ _ h => put_wf _ _ h) _ h))))
    (blockReadback_wf (writeCapCtrl_wf (foldl_wf _ (fun _ _ h => put_wf _ _ h) _ h))))) (readBuffer_wf h))))) h

theorem eraseStore_wf {a b} {s : State} (h : s.wf = true) : (eraseStore a b s).wf = true :=
  wf_config h (smWf_filter 0 _ _ (wf_parts_store h))

theorem takeSpares_wf : ∀ (l : List Nat) {s : State}, s.wf = true → (takeSpares l s).2.wf = true
  | [], _, h => h
  | _ :: l, s, h => by
    rw [takeSpares]
    split
    · exact raiseCfg_wf h
    · exact takeSpares_wf l (put_wf _ _ h)

theorem countErase_wf {n} {s : State} (h : s.wf = true) : (countErase n s).wf = true :=
  wf_then (onConfig_wf (puts_wf _ (count_wf _ _ h)) rfl) fun h => raiseCfg_wf (flag_wf _ _ h)

theorem eraseSlot_wf {n bad} {s : State} (h : s.wf = true) : CallWf (eraseSlot n bad s) := by
  unfold eraseSlot
  split
  · next t e =>
      exact callOk_wf (countErase_wf (eraseStore_wf ((wf_snd e (takeSpares_wf _ h)))))
  · next _ t e =>
      exact callBad_wf (put_wf _ _ (eraseStore_wf ((wf_snd e (takeSpares_wf _ h)))))

theorem eraseBlock_wf {b bad} {s : State} (h : s.wf = true) : CallWf (eraseBlock b bad s) := by
  unfold eraseBlock
  split
  · next t e =>
      exact callOk_wf (eraseStore_wf ((wf_snd e (takeSpares_wf _ h))))
  · next _ t e =>
      exact callBad_wf ((wf_snd e (takeSpares_wf _ h)))

theorem execStoreErase_wf {he bad} {s : State} (h : s.wf = true) : Canonical (execStoreErase he bad s) := by
  unfold execStoreErase
  with_reducible
    exact serviceCall_wf (fun _ _ h => callWf_ite (callBad_wf h)
      (callWf_ite (callWf_ite (callBusy_wf h) (eraseSlot_wf h)) (eraseBlock_wf h))) h

theorem putStore_wf {off b} {s : State} (h : s.wf = true) : (putStore off b s).wf = true :=
  wf_config h (programStore_wf _ _ _ (wf_parts_store h))

theorem execStoreWrite_wf {he data bad} {s : State} (h : s.wf = true) : Canonical (execStoreWrite he data bad s) := by
  unfold execStoreWrite
  refine serviceCall_wf (fun _ _ h => ?_) h
  refine callWf_ite (callBad_wf h) ?_
  refine withBuffer_wf (fun _ _ h => ?_) (wf_ite_snd (readBuffer_wf h) h)
  split
  · next t e =>
      exact callOk_wf (putStore_wf ((wf_snd e (takeSpares_wf _ h))))
  · next _ t e =>
      exact callBad_wf (putStore_wf ((wf_snd e (takeSpares_wf _ h))))

theorem execStoreCommit_wf {he} {s : State} (h : s.wf = true) : Canonical (execStoreCommit he s) :=
  serviceCall_wf (fun _ _ h => callWf_ite (callBad_wf h) (callOk_wf (puts_wf _ (onConfig_wf h rfl)))) h

theorem writeFirmwareRecord_wf {n} {s : State} {r} (h : s.wf = true) : (writeFirmwareRecord n s r).wf = true :=
  wf_ite (foldl_wf _ (fun _ _ h => writeBytes_wf _ _ _ _ _ _ _ h) _ h)
    (wf_ite (crewWrite_wf h) (foldl_wf _ (fun _ _ h => put_wf _ _ h) _ h))

theorem firmwareFails_wf {n owner cause} {s : State} (h : s.wf = true) : (firmwareFails n owner cause s).wf = true :=
  raiseCh_wf _ _ (puts_wf _ h)

theorem firmwareRuns_wf {n owner} {head records} {s : State} (h : s.wf = true) : (firmwareRuns n owner head records s).wf = true :=
  redispatch_wf (put_wf _ _ (wf_frame (foldl_wf _ (fun _ _ h => writeEngCtrl_wf (put_wf _ _ h)) _
    (foldl_wf _ (fun _ _ h => writeFirmwareRecord_wf h) _ (puts_wf _ h))) rfl rfl rfl))

theorem loadFirmware_wf {n l head c records} {s : State} (h : s.wf = true) : (loadFirmware n l head c records s).2.wf = true := by
  have hm := memHeader_wf (l := l) (given := head) (c := c) h
  unfold loadFirmware
  split
  · next e => exact firmwareFails_wf (wf_snd₂ e hm)
  · next hd t e =>
    have hc := memChecks_wf (l := l) (x1 := hd) (good := firmwareRecordGood) (c := c) (records := records) (wf_snd₂ e hm)
    extract_lets owner
    split
    · next e => exact firmwareFails_wf (wf_snd₂ e hc)
    · next e => exact firmwareRuns_wf (wf_snd₂ e hc)

theorem execChFirmware_wf {he head checks records} {s : State} (h : s.wf = true) : Canonical (execChFirmware he head checks records s) := by
  unfold execChFirmware
  with_reducible refine serviceCall_wf (fun _ t h => ?_) h
  have ht := fun l => headTurn_wf (l := l) h
  have hf := @loadFirmware_wf
  with_reducible refine callWf_ite (callBad_wf h) (callWf_ite (callWf_stays (wakePart_wf _ h)) (callWf_ite (callBusy_wf h)
    (callWf_ite (callWf_stays h) (callWf_ite (callWf_stays (waitCall_wf (put_wf _ _ h))) ?_))))
  revert ht hf
  induction headTurn using of_any with | any turn =>
  induction loadFirmware using of_any with | any f =>
  intro ht hf
  dsimp only
  split
  · next e => exact callWf_stays (wf_snd e (ht _))
  · next e =>
    have hu := wf_snd e (ht _)
    exact callWf_ite (callOk_wf (hf hu)) (callBad_wf (hf hu))

theorem execChReset_wf {he} {s : State} (h : s.wf = true) : Canonical (execChReset he s) :=
  serviceCall_wf (fun _ _ h => callWf_ite (callBad_wf h) (callOk_wf (rstCtrl_wf h))) h

theorem execDramStart_wf {he} {s : State} (h : s.wf = true) : Canonical (execDramStart he s) :=
  serviceCall_wf (fun _ _ h => callWf_ite (callBad_wf h) (callWf_ite (callWf_stays (wakePart_wf _ h))
    (callWf_ite (callBusy_wf h) (callWf_ite (callBad_wf (dramStart_wf (wf_else (writeReg_wf _ _ h) fun h => put_wf _ _ h)))
    (callOk_wf (dramStart_wf (wf_else (writeReg_wf _ _ h) fun h => put_wf _ _ h))))))) h

theorem execPowerState_wf {he drained sysclk} {s : State} (h : s.wf = true) : Canonical (execPowerState he drained sysclk s) := by
  unfold execPowerState
  refine serviceCall_wf (fun _ _ h => ?_) h
  split
  · exact callOk_wf (foldl_wf _ (fun _ _ h => writeEasyReq_wf (flag_wf _ _ h)) _ h)
  · exact callOk_wf (foldl_wf _ (fun _ _ h => writeEasyReq_wf (flag_wf _ _ h)) _ h)
  · exact callOk_wf (writeMoored_wf h)
  · exact callBad_wf h

theorem execOpSet_wf {he} {s : State} (h : s.wf = true) : Canonical (execOpSet he s) :=
  serviceCall_wf (fun _ _ h => callWf_ite (callBad_wf h) (callOk_wf (writeTarget_wf (put_wf _ _ h)))) h

theorem execResetCall_wf {he} {s : State} (h : s.wf = true) : Canonical (execResetCall he s) :=
  serviceCall_wf (fun _ _ h => callWf_ite (callBad_wf h) (callOk_wf (rstCtrl_wf h))) h

theorem crcLength_wf {k bytes} {s : State} (h : s.wf = true) : (crcLength k bytes s).2.wf = true := by
  unfold crcLength
  extract_lets a
  refine wf_ite_snd ?_ h
  have hr := rangeRead_wf (x := plainAccess .hubMover) (addr := a) (len := 4) h
  generalize rangeRead _ a 4 s = r at hr ⊢
  obtain ⟨b, st, t⟩ := r
  exact hr

theorem crcBytes_wf {k a} {len bytes} {s : State} (h : s.wf = true) : (crcBytes k a len bytes s).2.wf = true := by
  unfold crcBytes
  refine wf_ite_snd ?_ h
  split
  · next t e =>
      exact (wf_snd e (plainTurn_wf h))
  · next t e =>
      exact (wf_snd e (plainTurn_wf h))
  · next t e =>
      exact rangeRead_wf ((wf_snd e (plainTurn_wf h)))

theorem execCrcRun_wf {he bytes} {s : State} (h : s.wf = true) : Canonical (execCrcRun he bytes s) := by
  unfold execCrcRun
  with_reducible refine serviceCall_wf (fun k t h => ?_) h
  have ht := fun a => plainTurn_wf (a := a) h
  have hl := @crcLength_wf
  have hb := @crcBytes_wf
  with_reducible refine callWf_ite (callBad_wf h) ?_
  revert ht hl hb
  induction plainTurn using of_any with | any turn =>
  induction crcLength using of_any with | any len =>
  induction crcBytes using of_any with | any bytes =>
  intro ht hl hb
  split
  · next e => exact callWf_stays (wf_snd e (ht _))
  · next e => exact callBad_wf (wf_snd e (ht _))
  · next e => exact withBuffer_wf (fun _ _ h => callWf_ret h) (hb (hl (wf_snd e (ht _))))

theorem writeHdm_wf {r v} {s : State} (h : s.wf = true) : (writeHdm r v s).wf = true :=
  wf_ite h (writeReg_wf _ _ h)

theorem execHdmSet_wf {he} {s : State} (h : s.wf = true) : Canonical (execHdmSet he s) :=
  serviceCall_wf (fun _ _ h => callWf_ite (callBad_wf h) (callWf_ite (callBusy_wf h)
    (callOk_wf (writeHdm_wf (wf_ite h (writeReg_wf _ _ h)))))) h

theorem execNsMap_wf {he} {s : State} (h : s.wf = true) : Canonical (execNsMap he s) :=
  serviceCall_wf (fun _ _ h => callWf_ite (callBad_wf h) (callWf_ite (callOk_wf (flag_wf _ _ h)) (callOk_wf (puts_wf _ h)))) h

theorem execKeySlot_wf {he} {s : State} (h : s.wf = true) : Canonical (execKeySlot he s) := by
  unfold execKeySlot
  refine serviceCall_wf (fun _ _ h => ?_) h
  refine callWf_ite (callBad_wf h) ?_
  split
  · exact callOk_wf (ksLoadTrng_wf h)
  · exact callOk_wf (ksClose_wf h)
  · exact withBuffer_wf (fun _ _ h => callOk_wf (ksLoadData_wf (onSec_wf h))) (readBuffer_wf h)

theorem execOwnerReq_wf {he} {s : State} (h : s.wf = true) : Canonical (execOwnerReq he s) :=
  serviceCall_wf (fun _ _ h => callWf_ite (callWf_ite (callWf_stays h) (callWf_ite (callOk_wf h) (callBad_wf h)))
    (callWf_ite (callBusy_wf h) (withBuffer_wf (fun _ _ h => callWf_stays
    (waitCall_wf (otpGo_wf (foldl_wf _ (fun _ _ h => writeOtpBuf_wf h) _ h)))) (readBuffer_wf h)))) h

end Sys2Proof.Machine
end

section
/-! PROOFS. The canonical form is kept by what `Special` defines. -/

namespace Sys2Proof.Machine

theorem writeIntMask_wf {v} {s : State} (h : s.wf = true) : (writeIntMask v s).wf = true :=
  foldl_wf _ (fun _ _ h => wf_ite (sendVector_wf _ h) h) _ (put_wf _ _ h)

theorem writeTraceCtrl_wf {v} {s : State} (h : s.wf = true) : (writeTraceCtrl v s).wf = true :=
  wf_then (writeReg_wf _ _ h) fun h => wf_frame (puts_wf _ h) rfl rfl rfl

theorem entryWords_wf {e} {s : State} (h : s.wf = true) : (entryWords e s).2.wf = true := by
  unfold entryWords
  dsimp only
  with_reducible refine free_wf (foldl_snd_wf _ (fun p _ hp => ?_) _ h)
  dsimp only
  exact free_wf hp

theorem writePeek_wf {v} {s : State} (h : s.wf = true) : (writePeek v s).wf = true := by
  unfold writePeek
  refine onWake_wf ?_
  split
  · exact entryWords_wf (writeReg_wf _ _ h)
  · exact writeReg_wf _ _ h

theorem writeAccess_wf {a v} {s : State} (h : s.wf = true) : (writeAccess a v s).wf = true :=
  wf_else (puts_wf _ h) fun h => wf_onDebug (flag_wf _ _ h)

theorem writeEngineBlock_wf {g o v} {s : State} (h : s.wf = true) : (writeEngineBlock g o v s).wf = true :=
  wf_ite (writeEngReg_wf h) (writeEngDebugReg_wf h)

theorem writeChannel_wf {n off v} {s : State} (h : s.wf = true) : (writeChannel n off v s).wf = true := by
  unfold writeChannel
  refine wf_ite (writeEngineBlock_wf h) ?_
  refine wf_ite (writeCrcCtx_wf h (wf_ite (writeCrcPoly_wf h) (writeReg_wf _ _ h))) ?_
  split
  · exact writeSwdtLoad_wf h
  · exact writeSwdtKick_wf h
  · exact writeNandCfg_wf h
  · exact writeNandCtrl_wf h
  · exact nandResume_wf h
  · exact nandPush_wf h
  · exact writeNandRptr_wf h
  · exact ldpcPush_wf h
  · exact writeCrcScan_wf h
  · exact wf_then (wf_ite (dramRefAll_wf h) h) fun h => dramStart_wf h
  · exact writePatCtrl_wf h
  · exact taskPush_wf h
  · exact judgeTasks_wf (writeReg_wf _ _ h)
  · exact judgeTasks_wf (writeReg_wf _ _ h)
  · exact writeSettled_wf h

theorem writeDebug_wf {off v} {s : State} (h : s.wf = true) : (writeDebug off v s).wf = true := by
  unfold writeDebug
  refine wf_ite (writeEngineBlock_wf h) ?_
  split
  · exact dbgRst_wf h
  · exact crewHalt_wf h
  · exact crewResume_wf h
  · exact writeIslHalt_wf h
  · exact writeIslHalt_wf h
  · exact writeIslHalt_wf h
  · exact writeIslHalt_wf h
  · exact writeIslStep_wf h
  · exact writeAccess_wf h
  · exact writeAccess_wf h
  · exact xtPulse_wf h
  · exact writeSettled_wf h

theorem writeLanes_wf {off v} {s : State} (h : s.wf = true) : (writeLanes off v s).wf = true := by
  unfold writeLanes
  split
  · exact writeHtest_wf h
  · split
    · exact wf_ite (writeQuad_wf (free_wf h)) (writeSettled_wf h)
    · split
      · split
        · exact writeLaneCtrl_wf h
        · exact writeTxeq_wf h
        · exact writeRxeq_wf h
        · exact writePattern_wf h
        · exact wf_ite (prbsClear_wf h) h
        · exact writeEye_wf h
        · exact writeSettled_wf h
      · exact writeSettled_wf h

theorem writeSlot_wf {k off v} {s : State} (h : s.wf = true) : (writeSlot k off v s).wf = true := by
  unfold writeSlot
  split
  · exact ringSlot_wf h
  · exact wf_ite (abortSlot_wf h) h
  · exact writeSettled_wf h

theorem writeCfg_wf {req off v} {s : State} (h : s.wf = true) : (writeCfg req off v s).wf = true := by
  unfold writeCfg
  split
  · exact hostLoad_wf h
  · split
    · exact wf_then (writeSettled_wf h) fun h => hloadAbort_wf h
    · exact wf_ite (prGo_wf (wf_ite (prAbort_wf h) h)) (writeReg_wf _ _ (wf_ite (prAbort_wf h) h))
    · exact writeCapCtrl_wf h
    · exact wf_ite (readbackGo_wf (wf_ite (readbackAbort_wf h) h)) (flag_wf _ _ (wf_ite (readbackAbort_wf h) h))
    · exact writeSettled_wf h

theorem writeSec_wf {off v} {s : State} (h : s.wf = true) : (writeSec off v s).wf = true := by
  unfold writeSec
  split
  · exact writeOtpBuf_wf h
  · split
    · exact writeKsCtrl_wf h
    · split
      · exact onSec_wf h
      · split
        · exact writeSecLock_wf h
        · exact wf_ite (otpGo_wf h) h
        · exact writeSettled_wf h

theorem writePower_wf {req off v} {s : State} (h : s.wf = true) : (writePower req off v s).wf = true :=
  wf_ite (wf_ite (writeMoored_wf h) (writeReg_wf _ _ h)) (wf_ite (writePart_wf h) (writeSettled_wf h))

theorem writeHost_wf {off v} {s : State} (h : s.wf = true) : (writeHost off v s).wf = true :=
  wf_ite (writeHdm_wf h) (wf_ite (writeOutWp_wf h) (writeSettled_wf h))

theorem writeHub_wf {req off v} {s : State} (h : s.wf = true) : (writeHub req off v s).wf = true := by
  unfold writeHub
  split
  · exact wf_ite (writeIntMask_wf h) (writeSettled_wf h)
  · exact wf_ite (rstCtrl_wf h) (writeSettled_wf h)
  · exact wf_ite (writeTsCtrl_wf h) (wf_ite (writeFreq_wf h) (writeSettled_wf h))
  · exact writePower_wf h
  · exact writeCfg_wf h
  · exact writeSec_wf h
  · exact wf_ite (writeTraceCtrl_wf h) (writeSettled_wf h)
  · exact wf_ite (writePeek_wf h) (writeSettled_wf h)
  · exact writeHost_wf h
  · exact wf_ite (writeSlot_wf h) (writeSettled_wf h)
  · exact wf_ite (writeMsix_wf h) (writeSettled_wf h)
  · exact writeDebug_wf h
  · exact writeLanes_wf h
  · exact wf_ite (wf_ite (checkerGo_wf h) (writeSettled_wf h)) (wf_ite (freeSlags_wf h) (writeSettled_wf h))
  · exact writeSettled_wf h

theorem writeSpecial_wf {req addr v} {s : State} (h : s.wf = true) : (writeSpecial req addr v s).wf = true := by
  unfold writeSpecial
  split
  · exact writeHub_wf h
  · exact writeChannel_wf h
  · exact h

theorem readSpecial_wf {req addr debug} {s : State} (h : s.wf = true) : (readSpecial req addr debug s).2.wf = true := by
  unfold readSpecial
  split
  · exact readTaskPop_wf h
  · exact readLatched_wf h

end Sys2Proof.Machine
end

section
/-! PROOFS. The canonical form is kept by what `Target` defines. -/

namespace Sys2Proof.Machine

theorem serveWrite_wf {a x} {s : State} (h : s.wf = true) : (serveWrite a x s).2.wf = true := by
  unfold serveWrite
  split
  · exact h
  · refine wf_ite_snd h ?_
    split
    · exact wf_ite_snd h (plainWrite_wf h)
    · split
      · next t e =>
          exact wf_ite (markLine_wf ((wf_snd e (plainWrite_wf h)))) ((wf_snd e (plainWrite_wf h)))
      · next _ t e =>
          exact (wf_snd e (plainWrite_wf h))

theorem serveAtomic_wf {a x} {s : State} (h : s.wf = true) : (serveAtomic a x s).2.wf = true := by
  unfold serveAtomic
  refine wf_ite_snd h ?_
  split
  · exact h
  · next r e =>
    have hr := memRead_wf h e
    clear e
    split
    · split
      · with_reducible exact hr
      · next v _ =>
        split
        · next e => with_reducible exact (memWrite_wf hr e)
        · next e => with_reducible exact (memWrite_wf hr e)
        · with_reducible exact hr
    · with_reducible exact hr

theorem serveMemory_wf {a} {s : State} (h : s.wf = true) : (serveMemory a s).2.wf = true := by
  unfold serveMemory
  dsimp only
  split
  · split
    · exact h
    · next r e =>
        exact (memRead_wf h e)
  · exact serveWrite_wf h
  · exact serveAtomic_wf h

theorem readWords_wf (req : Requester) (quiet : Bool) : ∀ (k : Nat) {addr : Nat} {s : State}, s.wf = true →
    (readWords req quiet addr k s).2.wf = true
  | 0, _, _, h => h
  | k + 1, _, _, h => readWords_wf req quiet k (readSpecial_wf h)

theorem writeWords_wf (req : Requester) : ∀ (k : Nat) {addr v be : Nat} {s : State}, s.wf = true → (writeWords req addr v be k s).wf = true
  | 0, _, _, _, _, h => h
  | k + 1, _, _, _, _, h => writeWords_wf req k (wf_ite (writeSpecial_wf h) h)

theorem serveRegister_wf {a} {s : State} (h : s.wf = true) : (serveRegister a s).2.wf = true := by
  unfold serveRegister
  dsimp only
  split
  · exact h
  · exact wakePart_wf _ h
  · exact h
  · split
    · exact readWords_wf _ _ _ h
    · exact wf_ite_snd h (writeWords_wf _ _ h)
    · exact h

theorem serveDram_wf {a} {s : State} (h : s.wf = true) : (serveDram a s).2.wf = true := by
  unfold serveDram
  split
  · next t e =>
      exact (takeFailed_wf h e)
  · split
    · exact biWait_wf h
    · exact serveMemory_wf h

theorem serve_wf {a} {s : State} (h : s.wf = true) : (serve a s).2.wf = true := by
  unfold serve
  refine wf_ite_snd (serveMemory_wf h) ?_
  split
  · exact h
  · split
    · exact wakePart_wf _ h
    · split
      · exact serveDram_wf h
      · exact serveFabric_wf h
      · exact h
      · exact h
      · exact serveRegister_wf h
      · split
        · exact wf_ite_snd h (serveMemory_wf h)
        · exact serveRegister_wf h

end Sys2Proof.Machine
end

section
/-! PROOFS. The canonical form is kept by what `CrewPort` defines. -/

namespace Sys2Proof.Machine

theorem portAnswer_wf {g a status data} {s : State} (h : s.wf = true) : (portAnswer g a status data s).2.wf = true := by
  have hserve := serve_wf (a := a) h
  unfold portAnswer
  have ha := answerUnit_wf (a := a) (given := givenRsp a.opc a.len status data) h
  refine wf_ite_snd ?_ (wf_ite_snd ?_ ?_)
  · generalize answerUnit _ _ _ = r at ha ⊢
    obtain ⟨x, t⟩ := r
    exact ha
  · refine wf_getD h fun t e => ?_
    obtain ⟨r, -, rfl⟩ := Option.map_eq_some_iff.1 e
    exact retireEntry_wf h
  · split
    · next e => exact wf_snd e hserve
    · next e => exact wf_snd e hserve
    · next t e =>
      have ht := wf_snd e hserve
      split
      · have hw := finishWindow_wf (r := (portReq g a.opc a.addr a.len)) (data := a.data) (be := a.be) ht
        split
        · next e => exact wf_snd e hw
        · next e => exact wf_snd e hw
      · have ha := answerUnit_wf (a := a) (given := givenRsp a.opc a.len status data) ht
        generalize answerUnit _ _ _ = r at ha ⊢
        obtain ⟨x, t⟩ := r
        exact ha

theorem dropUnit_wf {a} {s : State} (h : s.wf = true) : (dropUnit a s).wf = true :=
  wf_getD h (fun _ e => by obtain ⟨r, -, rfl⟩ := Option.map_eq_some_iff.1 e; exact endReq_wf h)

theorem staleUnit_wf {g} {s : State} (h : s.wf = true) : (staleUnit g s).wf = true :=
  wf_getD h (fun _ e => by obtain ⟨r, -, rfl⟩ := Option.map_eq_some_iff.1 e; exact endReq_wf h)

theorem portFault_wf {g code loc} {s : State} (h : s.wf = true) : (portFault g code loc s).wf = true :=
  wf_ite (endFeed_wf (put_wf _ _ (setEng_wf _ _ h))) (trapped_wf h)

theorem portDone_wf {g acc} {s : State} (h : s.wf = true) : (portDone g acc s).wf = true :=
  wf_ite (endFeed_wf h) (retire_wf h)

theorem finishStx_wf {g p} {rd bytes} {v fails} {s : State} (h : s.wf = true) : (finishStx g p rd bytes v fails s).wf = true :=
  portDone_wf (setEng_wf _ _ h)

theorem respondLoad_wf {g p} {op rd} {status data} {s : State} (h : s.wf = true) : (respondLoad g p op rd status data s).wf = true := by
  unfold respondLoad
  split
  · next t e =>
      exact wf_emit ((wf_snd e (portAnswer_wf h)))
  · next _ t e =>
      exact portDone_wf (setEng_wf _ _ ((wf_snd e (portAnswer_wf h))))
  · next _ _ t e =>
      exact portFault_wf ((wf_snd e (portAnswer_wf h)))

theorem respondLdx_wf {g p} {rd wide} {status data} {s : State} (h : s.wf = true) : (respondLdx g p rd wide status data s).wf = true := by
  unfold respondLdx
  dsimp only
  split
  · next t e =>
      exact wf_emit ((wf_snd e (portAnswer_wf h)))
  · next _ t e =>
      exact portDone_wf (setEng_wf _ _ ((wf_snd e (portAnswer_wf h))))
  · next _ _ t e =>
      exact portFault_wf ((wf_snd e (portAnswer_wf h)))

theorem respondStx_wf {g p} {rd wide} {v status} {s : State} (h : s.wf = true) : (respondStx g p rd wide v status s).wf = true := by
  unfold respondStx
  refine wf_ite (finishStx_wf h) ?_
  split
  · next t e =>
      exact wf_emit ((wf_snd e (portAnswer_wf h)))
  · next _ t e =>
      exact finishStx_wf ((wf_snd e (portAnswer_wf h)))
  · next _ _ t e =>
      exact portFault_wf ((wf_snd e (portAnswer_wf h)))

theorem endFence_wf {g} {s : State} (h : s.wf = true) : (endFence g s).wf = true :=
  wf_ite (portDone_wf (setEng_wf _ _ h)) h

theorem unblock_wf {g} {s : State} (h : s.wf = true) : (unblock g s).wf = true := by
  unfold unblock
  dsimp only
  split
  · exact h
  · exact wf_ite (portDone_wf (setEng_wf _ _ h)) h

theorem endStore_wf {g p st} {s : State} (h : s.wf = true) : (endStore g p st s).wf = true :=
  endFence_wf (unblock_wf (wf_else (setEng_wf _ _ h) fun h => storeError_wf h))

theorem respondStore_wf {g p status} {s : State} (h : s.wf = true) : (respondStore g p status s).wf = true := by
  unfold respondStore
  split
  · next t e =>
      exact wf_emit (unblock_wf ((wf_snd e (portAnswer_wf (takeStores_wf h)))))
  · next _ _ t e =>
      exact endStore_wf ((wf_snd e (portAnswer_wf (takeStores_wf h))))

theorem execCrewPortResponse_wf {g store} {status data} {s : State} (h : s.wf = true) :
    Canonical (execCrewPortResponse g store status data s) := by
  unfold execCrewPortResponse
  refine canonical_ite (canonical_next (wf_emit (wf_begin h))) ?_
  refine canonical_ite ?_ ?_
  · split
    · exact canonical_next (respondStore_wf (wf_begin h))
    · exact canonical_next (wf_begin h)
  · split
    · exact canonical_next (setEng_wf _ _ (staleUnit_wf (wf_begin h)))
    · refine canonical_ite (canonical_next (wf_begin h)) ?_
      split
      · exact canonical_next (respondLoad_wf (wf_begin h))
      · exact canonical_next (respondLdx_wf (wf_begin h))
      · exact canonical_next (respondStx_wf (wf_begin h))

theorem execCrewPortTimeout_wf {g store} {s : State} (h : s.wf = true) : Canonical (execCrewPortTimeout g store s) := by
  unfold execCrewPortTimeout
  refine canonical_ite ?_ ?_
  · split
    · exact canonical_next (endStore_wf (setEng_wf _ _ (dropUnit_wf (takeStores_wf (wf_begin h)))))
    · exact canonical_next (wf_begin h)
  · split
    · exact canonical_next (portFault_wf (setEng_wf _ _ (wf_begin h)))
    · exact canonical_next (wf_begin h)

theorem portTakes_wf {g} {s : State} (h : s.wf = true) : (portTakes g s).wf = true := by
  unfold portTakes
  dsimp only
  split
  · split
    · exact h
    · exact wf_ite (wf_then (free_wf h) fun h => unblock_wf (takeStores_wf h)) h
  · exact h

theorem portsTake_wf {s : State} (h : s.wf = true) : (portsTake s).wf = true :=
  foldl_wf _ (fun _ _ h => portTakes_wf h) _ h

end Sys2Proof.Machine
end

section
/-! PROOFS. The canonical form is kept by what `Trace` defines. -/

namespace Sys2Proof.Machine

theorem advanceTrace_wf {s : State} (h : s.wf = true) : (advanceTrace s).wf = true :=
  wf_ite (put_wf _ _ h) (wf_ite (puts_wf _ h) (raiseNoc_wf (wf_frame (put_wf _ _ h) rfl rfl rfl)))

theorem putRecord_wf {probe r} {s : State} (h : s.wf = true) : (putRecord probe r s).2.wf = true := by
  unfold putRecord
  refine wf_ite_snd ?_ (wf_frame h rfl rfl rfl)
  split
  · exact wf_frame h rfl rfl rfl
  · split
    · next _ t e =>
        exact (wf_snd₂ e (rangeWrite_wf h))
    · next _ _ t e =>
        exact (wf_snd₂ e (rangeWrite_wf h))

theorem storeTrace_wf {probe r} {s : State} (h : s.wf = true) : (storeTrace probe r s).wf = true := by
  unfold storeTrace
  dsimp only
  refine wf_ite h ?_
  refine wf_ite (loseRecord_wf h) ?_
  split
  · next t e =>
      exact advanceTrace_wf (wf_frame ((wf_snd e (putRecord_wf h))) rfl rfl rfl)
  · next t e =>
      exact loseRecord_wf ((wf_snd e (putRecord_wf h)))

theorem traceTurn_wf {probe} {s : State} (h : s.wf = true) : (traceTurn probe s).2.wf = true := by
  unfold traceTurn
  split
  · exact h
  · split
    · exact h
    · exact plainTurn_wf h

theorem execTrace_wf {probe} {s : State} (h : s.wf = true) : Canonical (execTrace probe s) := by
  unfold execTrace
  dsimp only
  split
  · exact canonical_next h
  · refine canonical_ite (canonical_next h) ?_
    have ht := traceTurn_wf (probe := probe) (wf_begin h)
    split
    · next e => exact canonical_next (wf_emit (wf_snd e ht))
    · next e =>
      have hu := wf_snd e ht
      refine canonical_next (wf_ite (loseRecord_wf (wf_getD (wf_frame hu rfl rfl rfl) ?_))
        (storeTrace_wf (wf_getD (wf_frame hu rfl rfl rfl) ?_))) <;>
      · intro t he
        obtain ⟨m, -, rfl⟩ := Option.map_eq_some_iff.1 he
        exact seeMessage_wf (wf_frame hu rfl rfl rfl)

end Sys2Proof.Machine
end

section
/-! PROOFS. The canonical form is kept by what `Noc` defines. -/

namespace Sys2Proof.Machine

theorem leaveWindow_wf {a port} {s : State} (h : s.wf = true) : (leaveWindow a port s).wf = true :=
  recordReq_wf (issueWindow_wf (seeRequest_wf h))

theorem issueRequest_wf {a} {s : State} (h : s.wf = true) : (issueRequest a s).wf = true := by
  unfold issueRequest
  refine wf_ite h ?_
  split
  · exact recordReq_wf h
  · split
    · next t e =>
        exact wf_emit ((wf_snd e (serve_wf h)))
    · next t e =>
        split
        · exact wf_getD (wf_emit ((wf_snd e (serve_wf h)))) (fun _ he => enterFabric_wf ((wf_snd e (serve_wf h))) he)
        · exact leaveWindow_wf ((wf_snd e (serve_wf h)))
    · next _ t e =>
        exact recordReq_wf (seeRequest_wf ((wf_snd e (serve_wf h))))

theorem execRd_wf {req tag} {addr len} {s : State} (h : s.wf = true) : Canonical (execRd req tag addr len s) :=
  canonical_next (issueRequest_wf (wf_begin h))

theorem execWr_wf {req tag} {addr len} {be data psn} {s : State} (h : s.wf = true) : Canonical (execWr req tag addr len be data psn s) :=
  canonical_next (issueRequest_wf (wf_begin h))

theorem execAtom_wf {req tag} {addr wide} {op operand compare} {s : State} (h : s.wf = true) :
    Canonical (execAtom req tag addr wide op operand compare s) :=
  canonical_next (issueRequest_wf (wf_begin h))

theorem answerFor_wf {r given} {s : State} (h : s.wf = true) : (answerFor r given s).2.wf = true := by
  unfold answerFor
  split
  · exact h
  · split
    · exact h
    · split
      · split
        · next _ t e =>
            exact (wf_snd e (finishWindow_wf h))
        · next t e =>
            exact (wf_snd e (finishWindow_wf h))
      · exact h

theorem deliverAs_wf {excl r x} {s : State} (h : s.wf = true) : (deliverAs excl r x s).wf = true :=
  endReq_wf (wf_emit (seeAnswer_wf h))

theorem deliver_wf {r x} {s : State} (h : s.wf = true) : (deliver r x s).wf = true :=
  deliverAs_wf h

theorem respond_wf {r kind given} {s : State} (h : s.wf = true) : (respond r kind given s).wf = true := by
  unfold respond
  split
  · next t e =>
      exact (wf_snd e (answerFor_wf h))
  · next _ t e =>
      exact wf_ite (deliver_wf ((wf_snd e (answerFor_wf h)))) (onNoc_wf ((wf_snd e (answerFor_wf h))))

theorem respondData_wf {req tag} {data psn} {s : State} (h : s.wf = true) : (respondData req tag data psn s).wf = true := by
  unfold respondData
  split
  · exact h
  · exact respond_wf h

theorem respondAck_wf {req tag} {s : State} (h : s.wf = true) : (respondAck req tag s).wf = true := by
  unfold respondAck
  split
  · exact h
  · exact respond_wf h

theorem execAtomData_wf {req tag data} {s : State} (h : s.wf = true) : Canonical (execAtomData req tag data s) := by
  unfold execAtomData
  dsimp only
  split
  · exact canonical_next (wf_begin h)
  · exact canonical_next (respond_wf (wf_begin h))

theorem respondError_wf {req tag x} {s : State} (h : s.wf = true) : (respondError req tag x s).wf = true := by
  unfold respondError
  split
  · exact h
  · exact respond_wf h

theorem abandonOutbound_wf {req tag opc} {s : State} (h : s.wf = true) : (abandonOutbound req tag opc s).wf = true := by
  unfold abandonOutbound
  split
  · exact h
  · exact wf_ite (retireEntry_wf h) (onWake_wf h)

theorem giveUp_wf {r} {s : State} (h : s.wf = true) : (giveUp r s).wf = true :=
  onNoc_wf h

theorem execNocRequestTimeout_wf {req tag} {s : State} (h : s.wf = true) : Canonical (execNocRequestTimeout req tag s) := by
  unfold execNocRequestTimeout
  dsimp only
  split
  · exact canonical_next (wf_begin h)
  · exact canonical_next (raiseNoc_wf (wf_ite (giveUp_wf (abandonOutbound_wf (logNoc_wf (wf_begin h))))
      (wf_emit (endReq_wf (abandonOutbound_wf (logNoc_wf (wf_begin h)))))))

theorem execNocStall_wf {unit port} {s : State} (h : s.wf = true) : Canonical (execNocStall unit port s) :=
  canonical_next (wf_else (wf_begin h) fun h => raiseNoc_wf (logNoc_wf h))

theorem poisonFlit_wf {u tag} {s : State} (h : s.wf = true) : (poisonFlit u tag s).wf = true := by
  unfold poisonFlit
  split
  · exact h
  · exact onNoc_wf h

theorem loseFlits_wf (u : Nat) : ∀ (l : List NocReq) {s : State}, s.wf = true → (loseFlits u l s).2.wf = true
  | [], _, h => h
  | _ :: l, s, h => by
    rw [loseFlits]
    split
    · exact loseFlits_wf u l (free_wf h)
    · exact loseFlits_wf u l h

theorem resetRouter_wf {u} {s : State} (h : s.wf = true) : (resetRouter u s).wf = true :=
  onNoc_wf (loseFlits_wf _ _ h)

theorem execRouterFault_wf {unit kind} {port tag} {s : State} (h : s.wf = true) : Canonical (execRouterFault unit kind port tag s) :=
  canonical_ite (canonical_next (wf_begin h)) (canonical_ite (canonical_next (count_wf _ _ (wf_begin h)))
    (canonical_ite (canonical_next (raiseNoc_wf (logNoc_wf (poisonFlit_wf (wf_begin h)))))
    (canonical_ite (canonical_next (beginRecovery_wf (resetRouter_wf (raiseNoc_wf (logNoc_wf (wf_begin h))))))
    (canonical_next (wf_begin h)))))

theorem loadIdle_wf {x port v} {s : State} (h : s.wf = true) : (loadIdle x port v s).wf = true :=
  wf_frame h rfl rfl rfl

theorem loadRouter_wf {x addr data} {s : State} (h : s.wf = true) : (loadRouter x addr data s).wf = true :=
  wf_ite (loadIdle_wf h) (wf_ite (onNoc_wf h) (onNoc_wf h))

theorem mgtWaits_wf {x opc} {addr v rsp} {s : State} (h : s.wf = true) : (mgtWaits x opc addr v rsp s).wf = true :=
  onNoc_wf h

theorem mgtSend_wf {x opc addr} {f : State → Nat × State} {s : State} (hf : ∀ t, t.wf = true → (f t).2.wf = true) (h : s.wf = true) :
    (mgtSend x opc addr f s).wf = true :=
  wf_ite (wf_emit h) (wf_ite (mgtWaits_wf h) (mgtWaits_wf (hf _ (seeMessage_wf h))))

theorem execMgtWr_wf {sec addr data} {s : State} (h : s.wf = true) : Canonical (execMgtWr sec addr data s) :=
  canonical_next (mgtSend_wf (fun _ h => loadRouter_wf h) (wf_begin h))

theorem mgtValue_wf {x addr} {s : State} (h : s.wf = true) : (mgtValue x addr s).2.wf = true := by
  unfold mgtValue
  split
  · exact h
  · split
    · exact h
    · split
      · exact free_wf h
      · exact h

theorem execMgtRd_wf {sec addr} {s : State} (h : s.wf = true) : Canonical (execMgtRd sec addr s) :=
  canonical_next (mgtSend_wf (fun _ h => mgtValue_wf h) (wf_begin h))

theorem execMgtRsp_wf {sec} {s : State} (h : s.wf = true) : Canonical (execMgtRsp sec s) := by
  unfold execMgtRsp
  dsimp only
  split
  · exact canonical_ite (canonical_next (wf_begin h)) (canonical_ite (canonical_next (wf_emit (onNoc_wf (wf_begin h))))
      (canonical_next (wf_emit (seeMessage_wf (onNoc_wf (wf_begin h))))))
  · exact canonical_next (wf_begin h)

theorem debugMessage_wf {set kind} {addr size} {opc data} {s : State} (h : s.wf = true) :
    (debugMessage set kind addr size opc data s).wf = true := by
  unfold debugMessage
  split
  · exact h
  · exact wf_ite h (wf_ite (wf_emit h) (recordReq_wf (wf_emit (seeMessage_wf h))))

theorem execDbgRd_wf {set addr size} {s : State} (h : s.wf = true) : Canonical (execDbgRd set addr size s) :=
  canonical_next (debugMessage_wf (wf_begin h))

theorem execDbgRdc_wf {set addr size} {s : State} (h : s.wf = true) : Canonical (execDbgRdc set addr size s) :=
  canonical_next (debugMessage_wf (wf_begin h))

theorem execDbgWr_wf {set addr} {size data} {s : State} (h : s.wf = true) : Canonical (execDbgWr set addr size data s) :=
  canonical_next (debugMessage_wf (wf_begin h))

theorem execDbgRsp_wf {set data err} {s : State} (h : s.wf = true) : Canonical (execDbgRsp set data err s) := by
  unfold execDbgRsp
  dsimp only
  split
  · exact canonical_next (wf_begin h)
  · exact canonical_ite (canonical_next (wf_begin h)) (canonical_next (wf_onDebug (onNoc_wf (seeMessage_wf (wf_begin h)))))

end Sys2Proof.Machine
end

section
/-! PROOFS. The canonical form is kept by what `Coherency` defines. -/

namespace Sys2Proof.Machine

theorem setSf_wf {line x1} {s : State} (h : s.wf = true) : (setSf line x1 s).wf = true :=
  onHost_wf h

theorem editSf_wf {line f} {s : State} (h : s.wf = true) : (editSf line f s).wf = true :=
  onHost_wf h

theorem dropCopy_wf {line x} {s : State} (h : s.wf = true) : (dropCopy line x s).wf = true :=
  editSf_wf h

theorem grantCopy_wf {line x excl} {s : State} (h : s.wf = true) : (grantCopy line x excl s).wf = true :=
  setSf_wf h

theorem sendD2h_wf {r data} {s t : State} (h : s.wf = true) (e : sendD2h r data s = some t) : t.wf = true := sendOutbound_wf h e

theorem writeBackLine_wf {line x data} {s t : State} (h : s.wf = true) (e : writeBackLine line x data s = some t) : t.wf = true :=
  sendD2h_wf h e

theorem evictWay_wf {line} {s : State} (h : s.wf = true) : (evictWay line s).wf = true := by
  unfold evictWay
  split
  · exact h
  · exact wf_ite h (onHost_wf h)

theorem coherentIssue_wf {sec tag addr opc} {f : NocReq → State → State} {s : State} (hf : ∀ r t, t.wf = true → (f r t).wf = true)
    (h : s.wf = true) : (coherentIssue sec tag addr opc f s).wf = true :=
  wf_ite h (wf_ite (recordReq_wf h) (wf_ite (recordReq_wf h) (hf _ _ h)))

theorem coherentSend_wf {r data} {s : State} (h : s.wf = true) : (coherentSend r data s).wf = true := by
  unfold coherentSend
  split
  · next t e =>
      exact recordReq_wf (seeRequest_wf ((sendD2h_wf h e)))
  · exact wf_emit h

theorem coherentRead_wf {r x} {s : State} (h : s.wf = true) : (coherentRead r x s).wf = true := by
  unfold coherentRead
  dsimp only
  split
  · exact wf_ite (wf_emit (evictWay_wf h)) (coherentSend_wf h)
  · split
    · exact wf_ite (coherentSend_wf h) (onHost_wf (recordReq_wf (seeRequest_wf h)))
    · exact coherentSend_wf h

theorem execRdSh_wf {sec tag addr} {s : State} (h : s.wf = true) : Canonical (execRdSh sec tag addr s) :=
  canonical_next (coherentIssue_wf (fun _ _ h => coherentRead_wf h) (wf_begin h))

theorem execRdOwn_wf {sec tag addr} {s : State} (h : s.wf = true) : Canonical (execRdOwn sec tag addr s) :=
  canonical_next (coherentIssue_wf (fun _ _ h => coherentRead_wf h) (wf_begin h))

theorem execCleanEvict_wf {sec tag addr} {s : State} (h : s.wf = true) : Canonical (execCleanEvict sec tag addr s) :=
  canonical_next (coherentIssue_wf (fun _ _ h => coherentSend_wf h) (wf_begin h))

theorem execDirtyEvict_wf {sec tag} {addr data} {s : State} (h : s.wf = true) : Canonical (execDirtyEvict sec tag addr data s) :=
  canonical_next (coherentIssue_wf (fun _ _ h => wf_ite (recordReq_wf (onHost_wf (seeRequest_wf h))) (coherentSend_wf h)) (wf_begin h))

theorem coherentData_wf {sec tag} {opcs excl} {s : State} (h : s.wf = true) : (coherentData sec tag opcs excl s).wf = true := by
  unfold coherentData
  split
  · exact h
  · split
    · next _ _ t e =>
        exact deliverAs_wf (grantCopy_wf ((wf_snd e (answerFor_wf h))))
    · next _ t e =>
        exact onNoc_wf ((wf_snd e (answerFor_wf h)))
    · next t e =>
        exact (wf_snd e (answerFor_wf h))

theorem execCdataS_wf {sec tag x2} {s : State} (h : s.wf = true) : Canonical (execCdataS sec tag x2 s) :=
  canonical_next (coherentData_wf (wf_begin h))

theorem execCdataE_wf {sec tag x2} {s : State} (h : s.wf = true) : Canonical (execCdataE sec tag x2 s) :=
  canonical_next (coherentData_wf (wf_begin h))

theorem execEvictAck_wf {sec tag} {s : State} (h : s.wf = true) : Canonical (execEvictAck sec tag s) := by
  unfold execEvictAck
  dsimp only
  split
  · exact canonical_next (wf_begin h)
  · split
    · next t e =>
        exact canonical_next (onNoc_wf ((wf_snd e (answerFor_wf (wf_begin h)))))
    · next _ t e =>
        exact canonical_next (deliver_wf (dropCopy_wf ((wf_snd e (answerFor_wf (wf_begin h))))))
    · next t e =>
        exact canonical_next ((wf_snd e (answerFor_wf (wf_begin h))))

theorem hostSnoop_wf {line kind} {s : State} (h : s.wf = true) : (hostSnoop line kind s).wf = true := by
  unfold hostSnoop
  split
  · exact h
  · split
    · exact wf_emit h
    · exact onHost_wf h

theorem execSnpinv_wf {line} {s : State} (h : s.wf = true) : Canonical (execSnpinv line s) :=
  canonical_next (hostSnoop_wf (wf_begin h))

theorem execSnpdata_wf {line} {s : State} (h : s.wf = true) : Canonical (execSnpdata line s) :=
  canonical_next (hostSnoop_wf (wf_begin h))

theorem execSnpcur_wf {line} {s : State} (h : s.wf = true) : Canonical (execSnpcur line s) :=
  canonical_next (hostSnoop_wf (wf_begin h))

theorem snoopMessage_wf {sec line kind} {s : State} (h : s.wf = true) : (snoopMessage sec line kind s).wf = true :=
  wf_ite (wf_emit (seeMessage_wf h)) h

theorem execSnpInv_wf {sec line} {s : State} (h : s.wf = true) : Canonical (execSnpInv sec line s) :=
  canonical_next (snoopMessage_wf (wf_begin h))

theorem execSnpData_wf {sec line} {s : State} (h : s.wf = true) : Canonical (execSnpData sec line s) :=
  canonical_next (snoopMessage_wf (wf_begin h))

theorem execSnpCur_wf {sec line} {s : State} (h : s.wf = true) : Canonical (execSnpCur sec line s) :=
  canonical_next (snoopMessage_wf (wf_begin h))

theorem execBinv_wf {sec line} {s : State} (h : s.wf = true) : Canonical (execBinv sec line s) :=
  canonical_next (snoopMessage_wf (wf_begin h))

theorem snooped_wf {line kind x} {s : State} (h : s.wf = true) : (snooped line kind x s).wf = true := by
  unfold snooped
  split
  · exact editSf_wf h
  · exact h
  · exact dropCopy_wf h

theorem snoopOver_wf {n x} {s t : State} (h : s.wf = true) (e : snoopOver n x s = some t) : t.wf = true := by
  unfold snoopOver at e
  split at e
  · exact Option.some.inj e ▸ wf_emit h
  · obtain ⟨u, hu, rfl⟩ := Option.map_eq_some_iff.1 e
    refine setSf_wf ?_
    split at hu
    · exact writeBackLine_wf h hu
    · exact Option.some.inj hu ▸ h
  · obtain ⟨u, hu, hn⟩ := Option.bind_eq_some_iff.1 e
    have hu : u.wf = true := by
      split at hu
      · exact writeBackLine_wf h hu
      · exact Option.some.inj hu ▸ h
    split at hn
    · exact sendD2h_wf hu hn
    · exact Option.some.inj hn ▸ hu

theorem settleSnoops_wf {s : State} (h : s.wf = true) : (settleSnoops s).wf = true :=
  foldl_wf _ (fun _ _ h => wf_getD h (fun _ e => by
    obtain ⟨u, hu, rfl⟩ := Option.map_eq_some_iff.1 e
    exact onHost_wf (snoopOver_wf h hu))) _ h

theorem answerSnoop_wf {n x data} {s : State} (h : s.wf = true) : (answerSnoop n x data s).wf = true :=
  settleSnoops_wf (onHost_wf (snooped_wf h))

theorem sectorAnswers_wf {sec line} {opc data} {s : State} (h : s.wf = true) : (sectorAnswers sec line opc data s).wf = true := by
  unfold sectorAnswers
  split
  · exact h
  · exact answerSnoop_wf (seeMessage_wf h)

theorem execSnpRsp_wf {sec line} {s : State} (h : s.wf = true) : Canonical (execSnpRsp sec line s) :=
  canonical_next (sectorAnswers_wf (wf_begin h))

theorem execSnpRspData_wf {sec line data} {s : State} (h : s.wf = true) : Canonical (execSnpRspData sec line data s) :=
  canonical_next (sectorAnswers_wf (wf_begin h))

theorem execSnpTimeout_wf {sec line} {s : State} (h : s.wf = true) : Canonical (execSnpTimeout sec line s) := by
  unfold execSnpTimeout
  dsimp only
  split
  · exact canonical_next (wf_begin h)
  · exact canonical_next (raiseHp_wf (onHost_wf (answerSnoop_wf (dropCopy_wf (wf_begin h)))))

end Sys2Proof.Machine
end

section
/-! PROOFS. The canonical form is kept by what `DebugPort` defines. -/

namespace Sys2Proof.Machine

theorem execDbgRegUpdate_wf {write off data} {s : State} (h : s.wf = true) : Canonical (execDbgRegUpdate write off data s) :=
  canonical_ite (canonical_next (wf_begin h)) (canonical_ite (canonical_next (wf_onDebug (wf_begin h)))
    (canonical_ite (canonical_next (wf_onDebug (wf_begin h)))
    (canonical_ite (canonical_next (wf_onDebug (wf_else (wf_begin h) fun h => wf_onDebug h)))
    (canonical_ite (canonical_next (wf_onDebug (writeSpecial_wf (wf_begin h))))
    (canonical_next (wf_onDebug (wf_onDebug (readSpecial_wf (wf_begin h)))))))))

theorem startAccess_wf {req set} {inc size kind} {s : State} (h : s.wf = true) : Canonical (startAccess req set inc size kind s) :=
  canonical_next (guardedWrite_wf _ _ _ _ (wf_begin h) (writeAccess_wf (wf_begin h)))

theorem execDbgAccessRead_wf {req set} {inc size} {s : State} (h : s.wf = true) : Canonical (execDbgAccessRead req set inc size s) :=
  startAccess_wf h

theorem execDbgAccessConsumeRead_wf {req set} {inc size} {s : State} (h : s.wf = true) :
    Canonical (execDbgAccessConsumeRead req set inc size s) :=
  startAccess_wf h

theorem execDbgAccessWrite_wf {req set} {inc size} {s : State} (h : s.wf = true) : Canonical (execDbgAccessWrite req set inc size s) :=
  startAccess_wf h

theorem messageEnd_wf {set x} {s : State} (h : s.wf = true) : (messageEnd set x s).2.wf = true := by
  unfold messageEnd
  split
  · exact h
  · split
    · exact onNoc_wf h
    · exact h
  · exact h

theorem accessEnd_wf {a x status data} {s : State} (h : s.wf = true) : (accessEnd a x status data s).2.wf = true := by
  have hs := serve_wf (a := a) h
  have hw := @finishWindow_wf
  unfold accessEnd
  with_reducible refine wf_ite_snd (wf_pair h) (wf_ite_snd (wf_pair h) (wf_ite_snd (wf_pair h) (wf_ite_snd (wf_pair h)
    (wf_ite_snd (wf_pair h) (wf_ite_snd (messageEnd_wf h) (wf_ite_snd (wf_pair h) ?_))))))
  revert hs hw
  induction serve a s using of_any with | any r =>
  induction finishWindow using of_any with | any window =>
  intro hs hw
  split
  · exact hs
  · exact hs
  · split
    · split
      · next e => exact wf_snd e (hw hs)
      · next e => exact wf_snd e (hw hs)
    · exact hs

theorem execDbgAccessDone_wf {set status data} {s : State} (h : s.wf = true) : Canonical (execDbgAccessDone set status data s) := by
  have h := wf_begin h
  have ha := @accessEnd_wf
  unfold execDbgAccessDone
  revert ha
  induction accessEnd using of_any with | any f =>
  intro ha
  dsimp only
  split
  · exact canonical_next h
  · refine canonical_ite (canonical_next (wf_emit h)) ?_
    split
    · next e => exact canonical_next (wf_emit (wf_snd e (ha h)))
    · next e =>
      exact canonical_next (wf_then (wf_else (puts_wf _ (wf_onDebug (wf_snd e (ha h)))) (put64_wf _ _ _)) (put64_wf _ _ _))

end Sys2Proof.Machine
end

section
/-! PROOFS. The canonical form is kept by what `HostPorts` defines. -/

namespace Sys2Proof.Machine

theorem enterEntry_wf {x} {s : State} {p : WakeEntry × State} (h : s.wf = true) (e : enterEntry x s = some p) : p.2.wf = true := by
  unfold enterEntry at e
  split at e
  · cases e
  · split at e
    · cases e
    · exact Option.some.inj e ▸ onWake_wf (put_wf _ _ h)

theorem setMark_wf {x0} {s : State} (h : s.wf = true) : (setMark x0 s).wf = true :=
  wf_ite h (onWake_wf h)

theorem setEntry_wf {x0 f} {s : State} (h : s.wf = true) : (setEntry x0 f s).wf = true :=
  onWake_wf h

theorem nvRead_wf {port off} {s : State} (h : s.wf = true) : (nvRead port off s).2.wf = true := by
  unfold nvRead
  split
  · exact free_wf h
  · split
    · exact h
    · split
      · exact h
      · split
        · exact h
        · split
          · exact h
          · split
            · exact h
            · exact h

theorem nvEnable_wf {port v} {s : State} (h : s.wf = true) : (nvEnable port v s).wf = true :=
  wf_ite (onHost_wf (onHost_wf h)) (wf_then (onHost_wf h) fun h => onHost_wf h)

theorem nvWrite_wf {port off v} {s : State} (h : s.wf = true) : (nvWrite port off v s).wf = true :=
  wf_ite (nvEnable_wf h) (wf_ite (onHost_wf h) (wf_ite (wf_ite (ringSq_wf h) (ringCq_wf h)) (wf_ite (writeMsix_wf h) h)))

theorem nvReads_wf (port : Nat) : ∀ (k : Nat) {off : Nat} {s : State}, s.wf = true → (nvReads port off k s).2.wf = true
  | 0, _, _, h => h
  | k + 1, _, _, h => nvReads_wf port k (nvRead_wf h)

theorem nvWrites_wf (port : Nat) : ∀ (k : Nat) {off v : Nat} {s : State}, s.wf = true → (nvWrites port off v k s).wf = true
  | 0, _, _, _, h => h
  | k + 1, _, _, _, h => nvWrites_wf port k (nvWrite_wf h)

theorem serveStorage_wf {port r data} {s : State} (h : s.wf = true) : (serveStorage port r data s).2.wf = true :=
  wf_ite_snd h (wf_ite_snd h (wf_ite_snd (nvWrites_wf _ _ h) (nvReads_wf _ _ h)))

theorem serveComponent_wf {r} {s : State} (h : s.wf = true) : (serveComponent r s).2.wf = true := by
  unfold serveComponent
  split
  · exact h
  · split
    · exact h
    · exact freeDigest_wf h

theorem memRsp_wf {opc x} {s : State} (h : s.wf = true) : (memRsp opc x s).2.wf = true := by
  unfold memRsp
  split
  · exact h
  · exact h
  · split
    · exact h
    · exact freeDigest_wf h

theorem setDir_wf {x0} {s : State} (h : s.wf = true) : (setDir x0 s).wf = true :=
  wf_ite (wf_ite (onHost_wf h) h) (wf_ite (onHost_wf h) h)

theorem takeHostMem_wf {x0} {s : State} (h : s.wf = true) : (takeHostMem x0 s).2.wf = true := by
  unfold takeHostMem
  refine wf_ite_snd (memRsp_wf h) ?_
  split
  · exact h
  · exact memRsp_wf h
  · exact wf_ite_snd (wakePart_wf _ h) (setDir_wf (memRsp_wf (serveMemory_wf h)))

theorem serveHostMem_wf {x0} {s : State} (h : s.wf = true) : (serveHostMem x0 s).2.wf = true := by
  unfold serveHostMem
  dsimp only
  split
  · next t e =>
      exact takeHostMem_wf ((takeFailed_wf h e))
  · split
    · exact biWait_wf h
    · exact takeHostMem_wf h

theorem serveHost_wf {x0} {s : State} (h : s.wf = true) : (serveHost x0 s).2.wf = true := by
  unfold serveHost
  split
  · refine wf_ite_snd h ?_
    split
    · exact wf_ite_snd (serveComponent_wf h) (serveHostMem_wf h)
    · exact serveStorage_wf h
    · split
      · next _ t e =>
          exact (wf_snd e (serve_wf h))
      · next _ t e =>
          exact (wf_snd e (serve_wf h))
  · exact h

theorem keepSide_wf {x0 x} {s : State} (h : s.wf = true) : (keepSide x0 x s).wf = true := by
  unfold keepSide
  split
  · exact onWake_wf h
  · exact h

theorem forward_wf {x0} {s : State} (h : s.wf = true) : (forward x0 s).wf = true := by
  unfold forward
  refine wf_ite h ?_
  split
  · next t e =>
      exact (wf_snd e (serveHost_wf h))
  · next _ t e =>
      exact keepSide_wf (setMark_wf (setEntry_wf ((wf_snd e (serveHost_wf h)))))

theorem hostOut_wf {x0 x} {s : State} (h : s.wf = true) : (hostOut x0 x s).wf = true := by
  unfold hostOut
  split
  · exact h
  · split
    · exact wf_emit h
    · exact wf_emit h
    · exact wf_emit h
    · exact wf_emit h

theorem completeEntry_wf {x0 x} {s : State} (h : s.wf = true) : (completeEntry x0 x s).wf = true :=
  retireEntry_wf (onWake_wf (hostOut_wf h))

theorem hostRespond_wf {port pf} {tag opcs kind} {s : State} (h : s.wf = true) : (hostRespond port pf tag opcs kind s).wf = true := by
  unfold hostRespond
  dsimp only
  split
  · exact h
  · split
    · exact wf_emit (forward_wf h)
    · exact wf_then (forward_wf h) fun h => completeEntry_wf h

theorem hostRequest_wf {x0} {s : State} (h : s.wf = true) : (hostRequest x0 s).wf = true := by
  unfold hostRequest
  split
  · with_reducible exact wf_emit h
  · next _ t e =>
      with_reducible exact forward_wf ((enterEntry_wf h e))

theorem hostMem_wf {port r} {tag x3} {opc data} {be grant} {s : State} (h : s.wf = true) :
    (hostMem port r tag x3 opc data be grant s).wf = true := by
  unfold hostMem
  refine wf_ite h ?_
  split
  · exact wf_ite (wf_emit (raiseHp_wf h)) (wf_emit (freeDigest_wf (raiseHp_wf h)))
  · exact hostRequest_wf h

theorem ideTake_wf {port} {f : State → State} {s : State} (hf : ∀ t, t.wf = true → (f t).wf = true) (h : s.wf = true) :
    (ideTake port f s).wf = true := by
  unfold ideTake
  dsimp only
  refine wf_ite (hf _ h) ?_
  split
  · exact hf _ (free_wf h)
  · exact wf_ite (free_wf h) (wf_ite (raiseSec_wf (onSec_wf (free_wf h))) (hf _ (free_wf h)))

theorem execHostMemRead_wf {port r} {tag x3 grant} {s : State} (h : s.wf = true) : Canonical (execHostMemRead port r tag x3 grant s) :=
  canonical_next (ideTake_wf (fun _ h => hostMem_wf h) (wf_begin h))

theorem execHostMemWrite_wf {port r} {tag x3} {be data grant} {s : State} (h : s.wf = true) :
    Canonical (execHostMemWrite port r tag x3 be data grant s) :=
  canonical_next (ideTake_wf (fun _ h => hostMem_wf h) (wf_begin h))

theorem hostIo_wf {port pf} {tag off} {size opc data} {s : State} (h : s.wf = true) : (hostIo port pf tag off size opc data s).wf = true :=
  wf_ite h (wf_ite (wf_ite h (wf_ite (wf_emit h) (wf_emit h))) (hostRequest_wf h))

theorem execHostIoRead_wf {port pf} {tag off size} {s : State} (h : s.wf = true) : Canonical (execHostIoRead port pf tag off size s) :=
  canonical_next (ideTake_wf (fun _ h => hostIo_wf h) (wf_begin h))

theorem execHostIoWrite_wf {port pf} {tag off} {size data} {s : State} (h : s.wf = true) :
    Canonical (execHostIoWrite port pf tag off size data s) :=
  canonical_next (ideTake_wf (fun _ h => hostIo_wf h) (wf_begin h))

theorem execHostAtomicop_wf {port pf tag} {s : State} (h : s.wf = true) : Canonical (execHostAtomicop port pf tag s) :=
  canonical_next (wf_else (wf_begin h) fun h => wf_ite (wf_emit h) (wf_ite (wf_emit h) (wf_emit h)))

theorem cfgRead_wf {port fn w} {s : State} (h : s.wf = true) : (cfgRead port fn w s).2.wf = true := by
  unfold cfgRead
  dsimp only
  split
  · exact h
  · exact free_wf h
  · exact h
  · exact h
  · exact h
  · exact h
  · split
    · exact h
    · exact free_wf h

theorem cfgWrite_wf {port fn} {w v} {s : State} (h : s.wf = true) : (cfgWrite port fn w v s).wf = true :=
  onHost_wf h

theorem execHostConfigRequest_wf {port fn} {tag word write} {s : State} (h : s.wf = true) :
    Canonical (execHostConfigRequest port fn tag word write s) := by
  unfold execHostConfigRequest
  dsimp only
  split
  · exact canonical_next (wf_begin h)
  · split
    · exact canonical_next (wf_emit (wf_begin h))
    · split
      · exact canonical_next (wf_emit (wf_begin h))
      · split
        · exact canonical_next (wf_emit (wf_begin h))
        · split
          · exact canonical_next (wf_emit (wf_begin h))
          · exact canonical_next (wf_emit (wf_begin h))
          · split
            · exact canonical_next (wf_emit (cfgWrite_wf (wf_begin h)))
            · exact canonical_next (wf_emit (cfgRead_wf (wf_begin h)))

theorem execHostCompletion_wf {port tag} {ok data} {s : State} (h : s.wf = true) : Canonical (execHostCompletion port tag ok data s) := by
  unfold execHostCompletion
  dsimp only
  split
  · exact canonical_next (wf_begin h)
  · exact canonical_ite (canonical_next (settleSnoops_wf (retireEntry_wf (wf_begin h)))) (canonical_next (setEntry_wf (wf_begin h)))

theorem execBirsp_wf {port line data} {s : State} (h : s.wf = true) : Canonical (execBirsp port line data s) := by
  unfold execBirsp
  dsimp only
  split
  · exact canonical_next (wf_begin h)
  · refine canonical_next ?_
    refine settleSlots_wf ?_
    refine onHost_wf ?_
    split
    · exact wf_begin h
    · exact patWrite_wf (wf_begin h)

theorem execBiTimeout_wf {port line} {s : State} (h : s.wf = true) : Canonical (execBiTimeout port line s) := by
  unfold execBiTimeout
  dsimp only
  split
  · exact canonical_next (wf_begin h)
  · exact canonical_next (settleSlots_wf (raiseHp_wf (onHost_wf (wf_begin h))))

theorem execLinkRetrain_wf {port sub} {up rate} {width flit} {cxl cache mem} {s : State} (h : s.wf = true) :
    Canonical (execLinkRetrain port sub up rate width flit cxl cache mem s) :=
  canonical_ite (canonical_next (wf_begin h)) (canonical_next
    (wf_then (raiseHp_wf (wf_else (putBit_wf _ _ _ (wf_begin h)) fun h => puts_wf _ h)) fun h => raiseHp_wf h))

end Sys2Proof.Machine
end

section
/-! PROOFS. The canonical form is kept by what `Deliver` defines. -/

namespace Sys2Proof.Machine

theorem execRdData_wf {req tag} {data psn} {s : State} (h : s.wf = true) : Canonical (execRdData req tag data psn s) := by
  unfold execRdData
  split
  · exact canonical_next (hostRespond_wf (wf_begin h))
  · exact canonical_next (respondData_wf (wf_begin h))

theorem execWrAck_wf {req tag} {s : State} (h : s.wf = true) : Canonical (execWrAck req tag s) := by
  unfold execWrAck
  split
  · exact canonical_next (hostRespond_wf (wf_begin h))
  · exact canonical_next (respondAck_wf (wf_begin h))

theorem execErrDecode_wf {req tag} {s : State} (h : s.wf = true) : Canonical (execErrDecode req tag s) := by
  unfold execErrDecode
  split
  · exact canonical_next (hostRespond_wf (wf_begin h))
  · exact canonical_next (respondError_wf (wf_begin h))

theorem execErrBus_wf {req tag} {s : State} (h : s.wf = true) : Canonical (execErrBus req tag s) := by
  unfold execErrBus
  split
  · exact canonical_next (hostRespond_wf (wf_begin h))
  · exact canonical_next (respondError_wf (wf_begin h))

end Sys2Proof.Machine
end

section
/-! PROOFS. The canonical form is kept by what `Readback` defines. -/

namespace Sys2Proof.Machine

theorem upsetFrame_wf {x frame u} {s : State} (h : s.wf = true) : (upsetFrame x frame u s).wf = true := by
  unfold upsetFrame
  with_reducible exact foldl_wf _ (fun _ _ h => wf_frames h (smWf_smSet 0 _ _ _ (wf_parts_frames h))) _ h

theorem leaveFrame_wf {a} {s : State} (h : s.wf = true) : (leaveFrame a s).2.wf = true := by
  unfold leaveFrame
  split
  · split
    · next _ t e =>
        exact (wf_snd e (issueWindow_wf h))
    · next t e =>
        split
        · exact h
        · exact (wf_snd e (issueWindow_wf h))
  · exact answerUnit_wf h

theorem storeBlock_wf {addr data} {s : State} (h : s.wf = true) : (storeBlock addr data s).2.wf = true := by
  unfold storeBlock
  split
  · next _ t e =>
      exact (wf_snd e (serve_wf h))
  · next t e =>
      exact (wf_snd e (serve_wf h))
  · next t e =>
      exact leaveFrame_wf ((wf_snd e (serve_wf h)))

theorem storeFrame_wf : ∀ (k : Nat) {addr : Nat} {data : List Byte} {s : State}, s.wf = true → (storeFrame addr data k s).2.wf = true
  | 0, _, _, _, h => h
  | k + 1, addr, data, s, h => by
    have hb := storeBlock_wf (addr := addr) (data := data.take 64) h
    rw [storeFrame]
    split
    · next e => exact storeFrame_wf k (wf_snd e hb)
    · exact hb

theorem putFrame_wf {addr data} {s : State} (h : s.wf = true) : (putFrame addr data s).2.wf = true := by
  unfold putFrame
  refine wf_ite_snd ?_ (storeFrame_wf _ h)
  split
  · next t e =>
      exact (wf_snd e (plainTurn_wf h))
  · next t e =>
      exact (wf_snd e (plainTurn_wf h))
  · next t e =>
      exact rangeWrite_wf ((wf_snd e (plainTurn_wf h)))

theorem execReadbackFrameDone_wf {busErr upsets} {s : State} (h : s.wf = true) : Canonical (execReadbackFrameDone busErr upsets s) := by
  have h := wf_begin h
  have hb := @readbackBytes_wf
  have hp := @putFrame_wf
  unfold execReadbackFrameDone
  revert hb hp
  induction readbackBytes using of_any with | any f =>
  induction putFrame using of_any with | any put =>
  intro hb hp
  dsimp only
  split
  · exact canonical_next h
  · next r _ =>
    refine canonical_ite (canonical_next h) ?_
    have ht := hb (r := r) (wf_ite (c := r.shadow = true) h (upsetFrame_wf (x := r.sec) (frame := r.frame) (u := upsets) h))
    generalize f r _ = q at ht ⊢
    split
    · exact canonical_next (wf_emit (hp h))
    · next e =>
      have hu := wf_ite_eq e ht (hp ht)
      exact canonical_ite (canonical_next (endReadback_wf hu)) (canonical_next (onConfig_wf hu rfl))
    · next e =>
      have hu := wf_ite_eq e ht (hp ht)
      exact canonical_next (endReadback_wf (flag_wf _ _ hu))

end Sys2Proof.Machine
end

section
/-! PROOFS. The canonical form is kept by what `Registers` defines. -/

namespace Sys2Proof.Machine

theorem execRegisterWrite_wf {req addr} {size data} {s : State} (h : s.wf = true) : Canonical (execRegisterWrite req addr size data s) :=
  canonical_next (guardedWrite_wf _ _ _ _ (wf_begin h) (writeSpecial_wf (wf_begin h)))

theorem readRow_wf {req addr} {s : State} (h : s.wf = true) : (readRow req addr s).wf = true := by
  unfold readRow
  split
  · exact wf_emit h
  · exact wf_emit (wakePart_wf _ h)
  · exact wf_emit h
  · exact wf_emit (readSpecial_wf h)

theorem execRcRead_wf {req addr} {s : State} (h : s.wf = true) : Canonical (execRcRead req addr s) :=
  canonical_next (readRow_wf (wf_begin h))

theorem execLowWordRead_wf {req addr} {s : State} (h : s.wf = true) : Canonical (execLowWordRead req addr s) :=
  canonical_next (readRow_wf (wf_begin h))

theorem execHubIntMaskWrite_wf {req mask} {s : State} (h : s.wf = true) : Canonical (execHubIntMaskWrite req mask s) :=
  canonical_next (guardedWrite_wf _ _ _ _ (wf_begin h) (writeIntMask_wf (wf_begin h)))

end Sys2Proof.Machine
end

section
/-! PROOFS. The canonical form is kept by what `Smbus` defines. -/

namespace Sys2Proof.Machine

theorem smbusRead_wf {addr} {s : State} (h : s.wf = true) : (smbusRead addr s).wf = true :=
  wf_ite (wf_emit h) (wf_emit (readLatched_wf h))

theorem execSmbusReadHubId_wf {s : State} (h : s.wf = true) : Canonical (execSmbusReadHubId s) :=
  canonical_next (smbusRead_wf (wf_begin h))

theorem execSmbusReadHubRev_wf {s : State} (h : s.wf = true) : Canonical (execSmbusReadHubRev s) :=
  canonical_next (smbusRead_wf (wf_begin h))

theorem execSmbusReadRstCause_wf {s : State} (h : s.wf = true) : Canonical (execSmbusReadRstCause s) :=
  canonical_next (smbusRead_wf (wf_begin h))

theorem execSmbusReadRstStatus_wf {s : State} (h : s.wf = true) : Canonical (execSmbusReadRstStatus s) :=
  canonical_next (smbusRead_wf (wf_begin h))

theorem execSmbusReadCfgStatus_wf {s : State} (h : s.wf = true) : Canonical (execSmbusReadCfgStatus s) :=
  canonical_next (smbusRead_wf (wf_begin h))

theorem execSmbusReadHubIntSummary_wf {s : State} (h : s.wf = true) : Canonical (execSmbusReadHubIntSummary s) :=
  canonical_next (smbusRead_wf (wf_begin h))

theorem execSmbusReadPwrTherm_wf {s : State} (h : s.wf = true) : Canonical (execSmbusReadPwrTherm s) :=
  canonical_next (smbusRead_wf (wf_begin h))

theorem execSmbusReadPwrTotal_wf {s : State} (h : s.wf = true) : Canonical (execSmbusReadPwrTotal s) :=
  canonical_next (smbusRead_wf (wf_begin h))

theorem execSmbusReadHubPartFail_wf {s : State} (h : s.wf = true) : Canonical (execSmbusReadHubPartFail s) :=
  canonical_next (smbusRead_wf (wf_begin h))

theorem execSmbusReadRasCause_wf {s : State} (h : s.wf = true) : Canonical (execSmbusReadRasCause s) :=
  canonical_next (smbusRead_wf (wf_begin h))

theorem execSmbusReadSecCause_wf {s : State} (h : s.wf = true) : Canonical (execSmbusReadSecCause s) :=
  canonical_next (smbusRead_wf (wf_begin h))

theorem execSmbusReadWakeStatus_wf {s : State} (h : s.wf = true) : Canonical (execSmbusReadWakeStatus s) :=
  canonical_next (smbusRead_wf (wf_begin h))

theorem execSmbusReadPwrMode_wf {s : State} (h : s.wf = true) : Canonical (execSmbusReadPwrMode s) :=
  canonical_next (smbusRead_wf (wf_begin h))

theorem execSmbusReadCfgImg_wf {s : State} (h : s.wf = true) : Canonical (execSmbusReadCfgImg s) :=
  canonical_next (smbusRead_wf (wf_begin h))

theorem execSmbusReadClkTsLo_wf {s : State} (h : s.wf = true) : Canonical (execSmbusReadClkTsLo s) :=
  canonical_next (smbusRead_wf (wf_begin h))

theorem execSmbusReadClkTsHi_wf {s : State} (h : s.wf = true) : Canonical (execSmbusReadClkTsHi s) :=
  canonical_ite (canonical_next (wf_emit (wf_begin h))) (canonical_next (wf_emit (wf_begin h)))

theorem execSmbusMessage_wf {cmd data} {s : State} (h : s.wf = true) : Canonical (execSmbusMessage cmd data s) :=
  canonical_ite (canonical_next (wf_emit (wf_else (wf_begin h) fun h => mooredSource_wf h)))
    (canonical_ite (canonical_next (wf_emit (wf_begin h))) (canonical_next (setLines_wf _ _ (wf_emit (wf_begin h)))))

end Sys2Proof.Machine
end

section
/-! PROOFS. The canonical form is kept by what `WakeCmds` defines. -/

namespace Sys2Proof.Machine

theorem execHubSwitchFault_wf {s : State} (h : s.wf = true) : Canonical (execHubSwitchFault s) :=
  canonical_next (wf_then (wf_begin h) fun h => beginRecovery_wf h)

theorem execChannelBridgeFault_wf {n} {s : State} (h : s.wf = true) : Canonical (execChannelBridgeFault n s) :=
  canonical_next (wf_then (wf_begin h) fun h => beginRecovery_wf h)

theorem setRecovery_wf {r t} {s : State} (h : s.wf = true) : (setRecovery r t s).wf = true :=
  showRecovery_wf (onWake_wf h)

theorem replayEntry_wf {x0} {s : State} (h : s.wf = true) : (replayEntry x0 s).2.wf = true := by
  unfold replayEntry
  refine wf_ite_snd (setEntry_wf h) ?_
  split
  · exact setEntry_wf h
  · split
    · next t e =>
        exact setEntry_wf ((wf_snd e (serveHost_wf h)))
    · next _ t e =>
        exact setMark_wf (setEntry_wf ((wf_snd e (serveHost_wf h))))

theorem replayAll_wf : ∀ (l : List WakeEntry) {s : State}, s.wf = true → (replayAll l s).2.2.wf = true
  | [], _, h => h
  | _ :: l, _, h => replayAll_wf l (replayEntry_wf h)

theorem redoCommands_wf {r} {s : State} (h : s.wf = true) : (redoCommands r s).2.wf = true := by
  unfold redoCommands
  split
  · exact h
  · exact redispatch_wf (onHost_wf h)

theorem replayHeld_wf {r} {s : State} (h : s.wf = true) : (replayHeld r s).2.2.wf = true :=
  replayAll_wf _ h

theorem quietRecovery_wf {r} {s : State} (h : s.wf = true) : (quietRecovery r s).wf = true :=
  wf_ite (wf_then (replayHeld_wf h) fun h => setRecovery_wf h) (setRecovery_wf (redoCommands_wf (replayHeld_wf h)))

theorem execWakeQuiet_wf {unit} {s : State} (h : s.wf = true) : Canonical (execWakeQuiet unit s) := by
  unfold execWakeQuiet
  dsimp only
  split
  · exact canonical_next (wf_begin h)
  · exact canonical_next (wf_else (wf_begin h) fun h => quietRecovery_wf h)

theorem execWakeQuietTimeout_wf {unit} {s : State} (h : s.wf = true) : Canonical (execWakeQuietTimeout unit s) := by
  unfold execWakeQuietTimeout
  dsimp only
  split
  · exact canonical_next (wf_begin h)
  · exact canonical_next (wf_else (wf_begin h) fun h => quietRecovery_wf h)

theorem releaseEntries_wf {s : State} (h : s.wf = true) : (releaseEntries s).wf = true :=
  foldl_wf _ (fun _ _ h => wf_ite h (forward_wf h)) _ (onWake_wf h)

theorem execWakeRecoveryDone_wf {unit} {s : State} (h : s.wf = true) : Canonical (execWakeRecoveryDone unit s) := by
  unfold execWakeRecoveryDone
  dsimp only
  split
  · exact canonical_next (wf_begin h)
  · exact canonical_ite (canonical_next (wf_begin h)) (canonical_next
      (raiseWake_wf (releaseEntries_wf (count_wf _ _ (onWake_wf (endRecovery_wf (wf_begin h)))))))

theorem releaseBehind_wf {x0} {s : State} (h : s.wf = true) : (releaseBehind x0 s).wf = true :=
  foldl_wf _ (fun _ _ h => forward_wf h) _ (onWake_wf h)

theorem execWakeHoldLimit_wf {port seq} {s : State} (h : s.wf = true) : Canonical (execWakeHoldLimit port seq s) := by
  unfold execWakeHoldLimit
  dsimp only
  split
  · exact canonical_next (wf_begin h)
  · exact canonical_ite (canonical_next (wf_begin h)) (canonical_next
      (releaseBehind_wf (raiseWake_wf (retireEntry_wf (errorCompletion_wf (wf_begin h))))))

theorem execWakePeekSelect_wf {req data} {s : State} (h : s.wf = true) : Canonical (execWakePeekSelect req data s) :=
  canonical_next (guardedWrite_wf _ _ _ _ (wf_begin h) (writePeek_wf (wf_begin h)))

end Sys2Proof.Machine
end

section
/-! PROOFS. The canonical form is kept by what `YezarBranch` defines. -/

namespace Sys2Proof.Machine

theorem execYB_wf {g c off} {s : State} (h : s.wf = true) : Canonical (execYB g c off s) :=
  canonical_next (runYezar_wf (wf_begin h))

theorem execYBl_wf {g off} {s : State} (h : s.wf = true) : Canonical (execYBl g off s) :=
  canonical_next (runYezar_wf (wf_begin h))

theorem execYJr_wf {g c rb} {s : State} (h : s.wf = true) : Canonical (execYJr g c rb s) :=
  canonical_next (runYezar_wf (wf_begin h))

theorem execYJlr_wf {g c rb} {s : State} (h : s.wf = true) : Canonical (execYJlr g c rb s) :=
  canonical_next (runYezar_wf (wf_begin h))

theorem execYRepeat_wf {g count} {s : State} (h : s.wf = true) : Canonical (execYRepeat g count s) :=
  canonical_next (runYezar_wf (wf_begin h))

theorem execYLoop_wf {g x1 count} {s : State} (h : s.wf = true) : Canonical (execYLoop g x1 count s) :=
  canonical_next (runYezar_wf (wf_begin h))

end Sys2Proof.Machine
end

section
/-! PROOFS. The canonical form is kept by what `YezarControl` defines. -/

namespace Sys2Proof.Machine

theorem execYAdd_wf {g rd} {rs rt f} {s : State} (h : s.wf = true) : Canonical (execYAdd g rd rs rt f s) :=
  canonical_next (runYezar_wf (wf_begin h))

theorem execYAdc_wf {g rd} {rs rt f} {s : State} (h : s.wf = true) : Canonical (execYAdc g rd rs rt f s) :=
  canonical_next (runYezar_wf (wf_begin h))

theorem execYSub_wf {g rd} {rs rt f} {s : State} (h : s.wf = true) : Canonical (execYSub g rd rs rt f s) :=
  canonical_next (runYezar_wf (wf_begin h))

theorem execYSbc_wf {g rd} {rs rt f} {s : State} (h : s.wf = true) : Canonical (execYSbc g rd rs rt f s) :=
  canonical_next (runYezar_wf (wf_begin h))

theorem execYAnd_wf {g rd} {rs rt f} {s : State} (h : s.wf = true) : Canonical (execYAnd g rd rs rt f s) :=
  canonical_next (runYezar_wf (wf_begin h))

theorem execYOr_wf {g rd} {rs rt f} {s : State} (h : s.wf = true) : Canonical (execYOr g rd rs rt f s) :=
  canonical_next (runYezar_wf (wf_begin h))

theorem execYXor_wf {g rd} {rs rt f} {s : State} (h : s.wf = true) : Canonical (execYXor g rd rs rt f s) :=
  canonical_next (runYezar_wf (wf_begin h))

theorem execYAndn_wf {g rd} {rs rt f} {s : State} (h : s.wf = true) : Canonical (execYAndn g rd rs rt f s) :=
  canonical_next (runYezar_wf (wf_begin h))

theorem execYShl_wf {g rd} {rs rt f} {s : State} (h : s.wf = true) : Canonical (execYShl g rd rs rt f s) :=
  canonical_next (runYezar_wf (wf_begin h))

theorem execYShr_wf {g rd} {rs rt f} {s : State} (h : s.wf = true) : Canonical (execYShr g rd rs rt f s) :=
  canonical_next (runYezar_wf (wf_begin h))

theorem execYSra_wf {g rd} {rs rt f} {s : State} (h : s.wf = true) : Canonical (execYSra g rd rs rt f s) :=
  canonical_next (runYezar_wf (wf_begin h))

theorem execYRor_wf {g rd} {rs rt f} {s : State} (h : s.wf = true) : Canonical (execYRor g rd rs rt f s) :=
  canonical_next (runYezar_wf (wf_begin h))

theorem execYMul_wf {g rd} {rs rt f} {s : State} (h : s.wf = true) : Canonical (execYMul g rd rs rt f s) :=
  canonical_next (runYezar_wf (wf_begin h))

theorem execYMulhs_wf {g rd} {rs rt f} {s : State} (h : s.wf = true) : Canonical (execYMulhs g rd rs rt f s) :=
  canonical_next (runYezar_wf (wf_begin h))

theorem execYMulhu_wf {g rd} {rs rt f} {s : State} (h : s.wf = true) : Canonical (execYMulhu g rd rs rt f s) :=
  canonical_next (runYezar_wf (wf_begin h))

theorem execYMin_wf {g rd} {rs rt f} {s : State} (h : s.wf = true) : Canonical (execYMin g rd rs rt f s) :=
  canonical_next (runYezar_wf (wf_begin h))

theorem execYMax_wf {g rd} {rs rt f} {s : State} (h : s.wf = true) : Canonical (execYMax g rd rs rt f s) :=
  canonical_next (runYezar_wf (wf_begin h))

theorem execYMinu_wf {g rd} {rs rt f} {s : State} (h : s.wf = true) : Canonical (execYMinu g rd rs rt f s) :=
  canonical_next (runYezar_wf (wf_begin h))

theorem execYMaxu_wf {g rd} {rs rt f} {s : State} (h : s.wf = true) : Canonical (execYMaxu g rd rs rt f s) :=
  canonical_next (runYezar_wf (wf_begin h))

theorem execYClz_wf {g rd} {rs f} {s : State} (h : s.wf = true) : Canonical (execYClz g rd rs f s) :=
  canonical_next (runYezar_wf (wf_begin h))

theorem execYPopc_wf {g rd} {rs f} {s : State} (h : s.wf = true) : Canonical (execYPopc g rd rs f s) :=
  canonical_next (runYezar_wf (wf_begin h))

theorem execYSextb_wf {g rd} {rs f} {s : State} (h : s.wf = true) : Canonical (execYSextb g rd rs f s) :=
  canonical_next (runYezar_wf (wf_begin h))

theorem execYSexth_wf {g rd} {rs f} {s : State} (h : s.wf = true) : Canonical (execYSexth g rd rs f s) :=
  canonical_next (runYezar_wf (wf_begin h))

theorem execYMov_wf {g rd} {rs f} {s : State} (h : s.wf = true) : Canonical (execYMov g rd rs f s) :=
  canonical_next (runYezar_wf (wf_begin h))

theorem execYCmp_wf {g rs} {rt f} {s : State} (h : s.wf = true) : Canonical (execYCmp g rs rt f s) :=
  canonical_next (runYezar_wf (wf_begin h))

theorem execYTst_wf {g rs} {rt f} {s : State} (h : s.wf = true) : Canonical (execYTst g rs rt f s) :=
  canonical_next (runYezar_wf (wf_begin h))

theorem execYShli_wf {g rd} {rs sh f} {s : State} (h : s.wf = true) : Canonical (execYShli g rd rs sh f s) :=
  canonical_next (runYezar_wf (wf_begin h))

theorem execYShri_wf {g rd} {rs sh f} {s : State} (h : s.wf = true) : Canonical (execYShri g rd rs sh f s) :=
  canonical_next (runYezar_wf (wf_begin h))

theorem execYSrai_wf {g rd} {rs sh f} {s : State} (h : s.wf = true) : Canonical (execYSrai g rd rs sh f s) :=
  canonical_next (runYezar_wf (wf_begin h))

theorem execYRori_wf {g rd} {rs sh f} {s : State} (h : s.wf = true) : Canonical (execYRori g rd rs sh f s) :=
  canonical_next (runYezar_wf (wf_begin h))

theorem execYDivinit_wf {g rd} {rs rt f} {s : State} (h : s.wf = true) : Canonical (execYDivinit g rd rs rt f s) :=
  canonical_next (runYezar_wf (wf_begin h))

theorem execYDivs_wf {g rd f} {s : State} (h : s.wf = true) : Canonical (execYDivs g rd f s) :=
  canonical_next (runYezar_wf (wf_begin h))

theorem execYCsel_wf {g c} {rd rs rt} {s : State} (h : s.wf = true) : Canonical (execYCsel g c rd rs rt s) :=
  canonical_next (runYezar_wf (wf_begin h))

end Sys2Proof.Machine
end

section
/-! PROOFS. The canonical form is kept by what `YezarDsp` defines. -/

namespace Sys2Proof.Machine

theorem execYMpy_wf {g a} {xi yi} {xu yu lm} {s : State} (h : s.wf = true) : Canonical (execYMpy g a xi yi xu yu lm s) :=
  canonical_next (runYezar_wf (wf_begin h))

theorem execYMac_wf {g a} {xi yi} {xu yu lm} {s : State} (h : s.wf = true) : Canonical (execYMac g a xi yi xu yu lm s) :=
  canonical_next (runYezar_wf (wf_begin h))

theorem execYMsu_wf {g a} {xi yi} {xu yu lm} {s : State} (h : s.wf = true) : Canonical (execYMsu g a xi yi xu yu lm s) :=
  canonical_next (runYezar_wf (wf_begin h))

theorem execYSqa_wf {g a} {xi yi} {xu yu lm} {s : State} (h : s.wf = true) : Canonical (execYSqa g a xi yi xu yu lm s) :=
  canonical_next (runYezar_wf (wf_begin h))

theorem execYAccx_wf {g a} {xi yi} {xu yu lm} {s : State} (h : s.wf = true) : Canonical (execYAccx g a xi yi xu yu lm s) :=
  canonical_next (runYezar_wf (wf_begin h))

theorem execYSubx_wf {g a} {xi yi} {xu yu lm} {s : State} (h : s.wf = true) : Canonical (execYSubx g a xi yi xu yu lm s) :=
  canonical_next (runYezar_wf (wf_begin h))

theorem execYGmpy_wf {g a} {xi yi} {xu yu lm} {s : State} (h : s.wf = true) : Canonical (execYGmpy g a xi yi xu yu lm s) :=
  canonical_next (runYezar_wf (wf_begin h))

theorem execYGmac_wf {g a} {xi yi} {xu yu lm} {s : State} (h : s.wf = true) : Canonical (execYGmac g a xi yi xu yu lm s) :=
  canonical_next (runYezar_wf (wf_begin h))

theorem execYExt_wf {g rd} {a k sat} {s : State} (h : s.wf = true) : Canonical (execYExt g rd a k sat s) :=
  canonical_next (runYezar_wf (wf_begin h))

theorem execYExstx_wf {g a} {sat pi u} {s : State} (h : s.wf = true) : Canonical (execYExstx g a sat pi u s) :=
  canonical_next (runYezar_wf (wf_begin h))

theorem execYExsty_wf {g a} {sat pi u} {s : State} (h : s.wf = true) : Canonical (execYExsty g a sat pi u s) :=
  canonical_next (runYezar_wf (wf_begin h))

theorem execYGstx_wf {g a} {x2 pi u} {s : State} (h : s.wf = true) : Canonical (execYGstx g a x2 pi u s) :=
  canonical_next (runYezar_wf (wf_begin h))

theorem execYGsty_wf {g a} {x2 pi u} {s : State} (h : s.wf = true) : Canonical (execYGsty g a x2 pi u s) :=
  canonical_next (runYezar_wf (wf_begin h))

theorem execYMfa_wf {g rd} {a k} {s : State} (h : s.wf = true) : Canonical (execYMfa g rd a k s) :=
  canonical_next (runYezar_wf (wf_begin h))

theorem execYMfah_wf {g rd a} {s : State} (h : s.wf = true) : Canonical (execYMfah g rd a s) :=
  canonical_next (runYezar_wf (wf_begin h))

theorem execYMta_wf {g a} {k rs} {s : State} (h : s.wf = true) : Canonical (execYMta g a k rs s) :=
  canonical_next (runYezar_wf (wf_begin h))

theorem execYMtah_wf {g a rs} {s : State} (h : s.wf = true) : Canonical (execYMtah g a rs s) :=
  canonical_next (runYezar_wf (wf_begin h))

theorem execYClra_wf {g a} {s : State} (h : s.wf = true) : Canonical (execYClra g a s) :=
  canonical_next (runYezar_wf (wf_begin h))

theorem execYSha_wf {g a n} {s : State} (h : s.wf = true) : Canonical (execYSha g a n s) :=
  canonical_next (runYezar_wf (wf_begin h))

end Sys2Proof.Machine
end

section
/-! PROOFS. The canonical form is kept by what `YezarImmediate` defines. -/

namespace Sys2Proof.Machine

theorem execYMovi_wf {g rd imm} {s : State} (h : s.wf = true) : Canonical (execYMovi g rd imm s) :=
  canonical_next (runYezar_wf (wf_begin h))

theorem execYMovhi_wf {g rd imm} {s : State} (h : s.wf = true) : Canonical (execYMovhi g rd imm s) :=
  canonical_next (runYezar_wf (wf_begin h))

theorem execYAddi_wf {g rd} {rs imm} {s : State} (h : s.wf = true) : Canonical (execYAddi g rd rs imm s) :=
  canonical_next (runYezar_wf (wf_begin h))

theorem execYAndi_wf {g rd} {rs imm} {s : State} (h : s.wf = true) : Canonical (execYAndi g rd rs imm s) :=
  canonical_next (runYezar_wf (wf_begin h))

theorem execYOri_wf {g rd} {rs imm} {s : State} (h : s.wf = true) : Canonical (execYOri g rd rs imm s) :=
  canonical_next (runYezar_wf (wf_begin h))

theorem execYXori_wf {g rd} {rs imm} {s : State} (h : s.wf = true) : Canonical (execYXori g rd rs imm s) :=
  canonical_next (runYezar_wf (wf_begin h))

theorem execYCmpi_wf {g rs imm} {s : State} (h : s.wf = true) : Canonical (execYCmpi g rs imm s) :=
  canonical_next (runYezar_wf (wf_begin h))

theorem execYCmpui_wf {g rs imm} {s : State} (h : s.wf = true) : Canonical (execYCmpui g rs imm s) :=
  canonical_next (runYezar_wf (wf_begin h))

theorem execYTsti_wf {g rs imm} {s : State} (h : s.wf = true) : Canonical (execYTsti g rs imm s) :=
  canonical_next (runYezar_wf (wf_begin h))

end Sys2Proof.Machine
end

section
/-! PROOFS. The canonical form is kept by what `YezarMemory` defines. -/

namespace Sys2Proof.Machine

theorem execYLdb_wf {g rd} {rb off} {s : State} (h : s.wf = true) : Canonical (execYLdb g rd rb off s) :=
  canonical_next (runYezar_wf (wf_begin h))

theorem execYLdbu_wf {g rd} {rb off} {s : State} (h : s.wf = true) : Canonical (execYLdbu g rd rb off s) :=
  canonical_next (runYezar_wf (wf_begin h))

theorem execYLdh_wf {g rd} {rb off} {s : State} (h : s.wf = true) : Canonical (execYLdh g rd rb off s) :=
  canonical_next (runYezar_wf (wf_begin h))

theorem execYLdhu_wf {g rd} {rb off} {s : State} (h : s.wf = true) : Canonical (execYLdhu g rd rb off s) :=
  canonical_next (runYezar_wf (wf_begin h))

theorem execYLd_wf {g rd} {rb off} {s : State} (h : s.wf = true) : Canonical (execYLd g rd rb off s) :=
  canonical_next (runYezar_wf (wf_begin h))

theorem execYLdd_wf {g rd} {rb off} {s : State} (h : s.wf = true) : Canonical (execYLdd g rd rb off s) :=
  canonical_next (runYezar_wf (wf_begin h))

theorem execYStb_wf {g rd} {rb off} {s : State} (h : s.wf = true) : Canonical (execYStb g rd rb off s) :=
  canonical_next (runYezar_wf (wf_begin h))

theorem execYSth_wf {g rd} {rb off} {s : State} (h : s.wf = true) : Canonical (execYSth g rd rb off s) :=
  canonical_next (runYezar_wf (wf_begin h))

theorem execYSt_wf {g rd} {rb off} {s : State} (h : s.wf = true) : Canonical (execYSt g rd rb off s) :=
  canonical_next (runYezar_wf (wf_begin h))

theorem execYStd_wf {g rd} {rb off} {s : State} (h : s.wf = true) : Canonical (execYStd g rd rb off s) :=
  canonical_next (runYezar_wf (wf_begin h))

theorem execYLdx_wf {g rd} {rb wide} {s : State} (h : s.wf = true) : Canonical (execYLdx g rd rb wide s) :=
  canonical_next (runYezar_wf (wf_begin h))

theorem execYStx_wf {g rd} {gs rb wide} {s : State} (h : s.wf = true) : Canonical (execYStx g rd gs rb wide s) :=
  canonical_next (runYezar_wf (wf_begin h))

end Sys2Proof.Machine
end

section
/-! PROOFS. The canonical form is kept by what `YezarSystem` defines. -/

namespace Sys2Proof.Machine

theorem execYNop_wf {g} {s : State} (h : s.wf = true) : Canonical (execYNop g s) :=
  canonical_next (runYezar_wf (wf_begin h))

theorem execYFence_wf {g} {s : State} (h : s.wf = true) : Canonical (execYFence g s) :=
  canonical_next (runYezar_wf (wf_begin h))

theorem execYWait_wf {g} {s : State} (h : s.wf = true) : Canonical (execYWait g s) :=
  canonical_next (runYezar_wf (wf_begin h))

theorem execYClrex_wf {g} {s : State} (h : s.wf = true) : Canonical (execYClrex g s) :=
  canonical_next (runYezar_wf (wf_begin h))

theorem execYReti_wf {g} {s : State} (h : s.wf = true) : Canonical (execYReti g s) :=
  canonical_next (runYezar_wf (wf_begin h))

theorem execYSvc_wf {g num} {s : State} (h : s.wf = true) : Canonical (execYSvc g num s) :=
  canonical_next (runYezar_wf (wf_begin h))

theorem execYMfc_wf {g rd cn} {s : State} (h : s.wf = true) : Canonical (execYMfc g rd cn s) :=
  canonical_next (runYezar_wf (wf_begin h))

theorem execYMtc_wf {g cn rs} {s : State} (h : s.wf = true) : Canonical (execYMtc g cn rs s) :=
  canonical_next (runYezar_wf (wf_begin h))

end Sys2Proof.Machine
end

section
/-! PROOFS. The canonical form is kept by what `Ops` defines. -/

namespace Sys2Proof.Machine

theorem tickMoored_wf {s : State} (h : s.wf = true) : (tickMoored s).wf = true :=
  wf_frame h rfl rfl rfl

theorem idle_wf {s : State} (h : s.wf = true) : (idle s).wf = true :=
  wf_ite (tickMoored_wf (wf_begin h)) (settleSlots_wf (settleSnoops_wf
    (portsTake_wf (dramTimes_wf (clearDone_wf (wf_frame (wf_begin h) rfl rfl rfl))))))

end Sys2Proof.Machine
end

section
/-! PROOFS. Every command and every step keep the canonical form. -/

namespace Sys2Proof.Machine

theorem execCrewTqPop_wf {req n} {s : State} (h : s.wf = true) : Canonical (execCrewTqPop req n s) :=
  execCrewTqPop_eq s req n ▸ canonical_next (readRow_wf (wf_begin h))

/-- Every command keeps the canonical form. -/
theorem exec_wf (c : Instr) {s : State} (h : s.wf = true) : Canonical (exec c s) := by
  cases c with
  | registerWrite => exact execRegisterWrite_wf h
  | rcRead => exact execRcRead_wf h
  | lowWordRead => exact execLowWordRead_wf h
  | por => exact execPor_wf h
  | brownout => exact execBrownout_wf h
  | resetNLow => exact execResetNLow_wf h
  | resetNRise => exact execResetNRise_wf h
  | strapSample => exact execStrapSample_wf h
  | perstAssert => exact execPerstAssert_wf h
  | linkHot => exact execLinkHot_wf h
  | hubWdtExpiry => exact execHubWdtExpiry_wf h
  | thermalShutdown => exact execThermalShutdown_wf h
  | rstCtrlWarm => exact execRstCtrlWarm_wf h
  | rstCtrlPartition => exact execRstCtrlPartition_wf h
  | rstCtrlHostLink => exact execRstCtrlHostLink_wf h
  | domainResetRelease => exact execDomainResetRelease_wf h
  | resetClockWaitTimeout => exact execResetClockWaitTimeout_wf h
  | checkerSelfTestDone => exact execCheckerSelfTestDone_wf h
  | memoryFillDone => exact execMemoryFillDone_wf h
  | partitionResetEnd => exact execPartitionResetEnd_wf h
  | clockStable => exact execClockStable_wf h
  | clockLost => exact execClockLost_wf h
  | aonXtalStable => exact execAonXtalStable_wf h
  | aonXtalTimeout => exact execAonXtalTimeout_wf h
  | aonXtalDrift => exact execAonXtalDrift_wf h
  | timesyncFrameSend => exact execTimesyncFrameSend_wf h
  | timesyncFrameReceive => exact execTimesyncFrameReceive_wf h
  | timesyncLost => exact execTimesyncLost_wf h
  | freqWrite => exact execFreqWrite_wf h
  | islandFreqStep => exact execIslandFreqStep_wf h
  | streamBundleAccept => exact execStreamBundleAccept_wf h
  | bundleValueArrive => exact execBundleValueArrive_wf h
  | islandGate => exact execIslandGate_wf h
  | islandWake => exact execIslandWake_wf h
  | fabricFence => exact execFabricFence_wf h
  | fabricFenceDone => exact execFabricFenceDone_wf h
  | userIrq => exact execUserIrq_wf h
  | bankVccioMismatch => exact execBankVccioMismatch_wf h
  | bankVccioRestore => exact execBankVccioRestore_wf h
  | onchipMemoryRead => exact execOnchipMemoryRead_wf h
  | memoryWriteBack => exact execMemoryWriteBack_wf h
  | slagEntryFree => exact execSlagEntryFree_wf h
  | fluxStep => exact execFluxStep_wf h
  | fluxLate => exact execFluxLate_wf h
  | cfgScrubFrame => exact execCfgScrubFrame_wf h
  | checkerTestGo => exact execCheckerTestGo_wf h
  | checkerTestDone => exact execCheckerTestDone_wf h
  | storeErase => exact execStoreErase_wf h
  | storeWrite => exact execStoreWrite_wf h
  | storeCommit => exact execStoreCommit_wf h
  | nvPageScrub => exact execNvPageScrub_wf h
  | loadHeaderCheck => exact execLoadHeaderCheck_wf h
  | loadSignaturesDone => exact execLoadSignaturesDone_wf h
  | framesRecord => exact execFramesRecord_wf h
  | settingRecord => exact execSettingRecord_wf h
  | endRecord => exact execEndRecord_wf h
  | memRecord => exact execMemRecord_wf h
  | loadFinalChecks => exact execLoadFinalChecks_wf h
  | loadRestartAfterReset => exact execLoadRestartAfterReset_wf h
  | bamidLoad => exact execBamidLoad_wf h
  | lockStepDone => exact execLockStepDone_wf h
  | lockStepTimeout => exact execLockStepTimeout_wf h
  | cfgDoneHigh => exact execCfgDoneHigh_wf h
  | releaseToken => exact execReleaseToken_wf h
  | releaseReport => exact execReleaseReport_wf h
  | hostLoadWrite => exact execHostLoadWrite_wf h
  | hostLoadTimeout => exact execHostLoadTimeout_wf h
  | cfgHloadAbort => exact execCfgHloadAbort_wf h
  | coxLoadTimeout => exact execCoxLoadTimeout_wf h
  | pfAbsentTimeout => exact execPfAbsentTimeout_wf h
  | prGo => exact execPrGo_wf h
  | prAbort => exact execPrAbort_wf h
  | prFinalChecks => exact execPrFinalChecks_wf h
  | prFramesWritten => exact execPrFramesWritten_wf h
  | captureGo => exact execCaptureGo_wf h
  | captureSnapshot => exact execCaptureSnapshot_wf h
  | captureNoEdge => exact execCaptureNoEdge_wf h
  | readbackGo => exact execReadbackGo_wf h
  | readbackAbort => exact execReadbackAbort_wf h
  | readbackFrameDone => exact execReadbackFrameDone_wf h
  | rd => exact execRd_wf h
  | wr => exact execWr_wf h
  | atom => exact execAtom_wf h
  | rdSh => exact execRdSh_wf h
  | rdOwn => exact execRdOwn_wf h
  | cleanEvict => exact execCleanEvict_wf h
  | dirtyEvict => exact execDirtyEvict_wf h
  | rdData => exact execRdData_wf h
  | wrAck => exact execWrAck_wf h
  | atomData => exact execAtomData_wf h
  | errDecode => exact execErrDecode_wf h
  | errBus => exact execErrBus_wf h
  | snpRsp => exact execSnpRsp_wf h
  | snpRspData => exact execSnpRspData_wf h
  | cdataS sec tag data => exact execCdataS_wf (x2 := data) h
  | cdataE sec tag data => exact execCdataE_wf (x2 := data) h
  | evictAck => exact execEvictAck_wf h
  | snpInv => exact execSnpInv_wf h
  | snpData => exact execSnpData_wf h
  | snpCur => exact execSnpCur_wf h
  | binv => exact execBinv_wf h
  | mgtWr => exact execMgtWr_wf h
  | mgtRd => exact execMgtRd_wf h
  | mgtRsp => exact execMgtRsp_wf h
  | dbgRd => exact execDbgRd_wf h
  | dbgRdc => exact execDbgRdc_wf h
  | dbgWr => exact execDbgWr_wf h
  | dbgRsp => exact execDbgRsp_wf h
  | trace => exact execTrace_wf h
  | routerFault => exact execRouterFault_wf h
  | nocRequestTimeout => exact execNocRequestTimeout_wf h
  | nocStall => exact execNocStall_wf h
  | yAdd => exact execYAdd_wf h
  | yAdc => exact execYAdc_wf h
  | ySub => exact execYSub_wf h
  | ySbc => exact execYSbc_wf h
  | yAnd => exact execYAnd_wf h
  | yOr => exact execYOr_wf h
  | yXor => exact execYXor_wf h
  | yAndn => exact execYAndn_wf h
  | yShl => exact execYShl_wf h
  | yShr => exact execYShr_wf h
  | ySra => exact execYSra_wf h
  | yRor => exact execYRor_wf h
  | yMul => exact execYMul_wf h
  | yMulhs => exact execYMulhs_wf h
  | yMulhu => exact execYMulhu_wf h
  | yMin => exact execYMin_wf h
  | yMax => exact execYMax_wf h
  | yMinu => exact execYMinu_wf h
  | yMaxu => exact execYMaxu_wf h
  | yClz => exact execYClz_wf h
  | yPopc => exact execYPopc_wf h
  | ySextb => exact execYSextb_wf h
  | ySexth => exact execYSexth_wf h
  | yMov => exact execYMov_wf h
  | yCmp => exact execYCmp_wf h
  | yTst => exact execYTst_wf h
  | yShli => exact execYShli_wf h
  | yShri => exact execYShri_wf h
  | ySrai => exact execYSrai_wf h
  | yRori => exact execYRori_wf h
  | yDivinit => exact execYDivinit_wf h
  | yDivs => exact execYDivs_wf h
  | yCsel => exact execYCsel_wf h
  | yMovi => exact execYMovi_wf h
  | yMovhi => exact execYMovhi_wf h
  | yAddi => exact execYAddi_wf h
  | yAndi => exact execYAndi_wf h
  | yOri => exact execYOri_wf h
  | yXori => exact execYXori_wf h
  | yCmpi => exact execYCmpi_wf h
  | yCmpui => exact execYCmpui_wf h
  | yTsti => exact execYTsti_wf h
  | yLdb => exact execYLdb_wf h
  | yLdbu => exact execYLdbu_wf h
  | yLdh => exact execYLdh_wf h
  | yLdhu => exact execYLdhu_wf h
  | yLd => exact execYLd_wf h
  | yLdd => exact execYLdd_wf h
  | yStb => exact execYStb_wf h
  | ySth => exact execYSth_wf h
  | ySt => exact execYSt_wf h
  | yStd => exact execYStd_wf h
  | yLdx => exact execYLdx_wf h
  | yStx => exact execYStx_wf h
  | yB => exact execYB_wf h
  | yBl => exact execYBl_wf h
  | yJr => exact execYJr_wf h
  | yJlr => exact execYJlr_wf h
  | yRepeat => exact execYRepeat_wf h
  | yLoop => exact execYLoop_wf h
  | yMpy => exact execYMpy_wf h
  | yMac => exact execYMac_wf h
  | yMsu => exact execYMsu_wf h
  | ySqa => exact execYSqa_wf h
  | yAccx => exact execYAccx_wf h
  | ySubx => exact execYSubx_wf h
  | yGmpy => exact execYGmpy_wf h
  | yGmac => exact execYGmac_wf h
  | yExt => exact execYExt_wf h
  | yExstx => exact execYExstx_wf h
  | yExsty => exact execYExsty_wf h
  | yGstx => exact execYGstx_wf h
  | yGsty => exact execYGsty_wf h
  | yMfa => exact execYMfa_wf h
  | yMfah => exact execYMfah_wf h
  | yMta => exact execYMta_wf h
  | yMtah => exact execYMtah_wf h
  | yClra => exact execYClra_wf h
  | ySha => exact execYSha_wf h
  | yNop => exact execYNop_wf h
  | yFence => exact execYFence_wf h
  | yWait => exact execYWait_wf h
  | yClrex => exact execYClrex_wf h
  | yReti => exact execYReti_wf h
  | ySvc => exact execYSvc_wf h
  | yMfc => exact execYMfc_wf h
  | yMtc => exact execYMtc_wf h
  | interruptEntry => exact execInterruptEntry_wf h
  | featherWake => exact execFeatherWake_wf h
  | crewPortResponse => exact execCrewPortResponse_wf h
  | crewPortTimeout => exact execCrewPortTimeout_wf h
  | engineMemoryOutsideAccess => exact execEngineMemoryOutsideAccess_wf h
  | engineWatchdogBite => exact execEngineWatchdogBite_wf h
  | engWdtLoad => exact execEngWdtLoad_wf h
  | engWdtKick => exact execEngWdtKick_wf h
  | engCtrlRun => exact execEngCtrlRun_wf h
  | engCtrlRestart => exact execEngCtrlRestart_wf h
  | engIrqSet => exact execEngIrqSet_wf h
  | engTmrArm => exact execEngTmrArm_wf h
  | engineTimer => exact execEngineTimer_wf h
  | nandDescriptorPush => exact execNandDescriptorPush_wf h
  | nandBusGrant => exact execNandBusGrant_wf h
  | nandEnd => exact execNandEnd_wf h
  | nandCmd => exact execNandCmd_wf h
  | nandAddr => exact execNandAddr_wf h
  | nandDout => exact execNandDout_wf h
  | nandDin => exact execNandDin_wf h
  | nandDataPhaseDone => exact execNandDataPhaseDone_wf h
  | nandWaitT => exact execNandWaitT_wf h
  | nandWaitTExpiry => exact execNandWaitTExpiry_wf h
  | nandWaitRb => exact execNandWaitRb_wf h
  | nandLunReady => exact execNandLunReady_wf h
  | nandWaitRbTimeout => exact execNandWaitRbTimeout_wf h
  | nandStatus => exact execNandStatus_wf h
  | nandCtrlEn => exact execNandCtrlEn_wf h
  | nandCtrlWpRel => exact execNandCtrlWpRel_wf h
  | nandCfgWrite => exact execNandCfgWrite_wf h
  | nandResume => exact execNandResume_wf h
  | nandCqRptrWrite => exact execNandCqRptrWrite_wf h
  | ldpcEncode => exact execLdpcEncode_wf h
  | ldpcHardDecode => exact execLdpcHardDecode_wf h
  | ldpcSoftDecode2bit => exact execLdpcSoftDecode2bit_wf h
  | ldpcSoftDecode3bit => exact execLdpcSoftDecode3bit_wf h
  | ldpcJobComplete => exact execLdpcJobComplete_wf h
  | crcCtxInit => exact execCrcCtxInit_wf h
  | crcScanGo => exact execCrcScanGo_wf h
  | crcScanDone => exact execCrcScanDone_wf h
  | crewTqPush => exact execCrewTqPush_wf h
  | crewTqPop => exact execCrewTqPop_wf h
  | chSwdtKick => exact execChSwdtKick_wf h
  | chSwdtLoad => exact execChSwdtLoad_wf h
  | chWdt => exact execChWdt_wf h
  | dramCtrlStart => exact execDramCtrlStart_wf h
  | dramAutoStart => exact execDramAutoStart_wf h
  | dramInitComplete => exact execDramInitComplete_wf h
  | dramTrainingFailure => exact execDramTrainingFailure_wf h
  | dramCtrlRefAll => exact execDramCtrlRefAll_wf h
  | dramRequest => exact execDramRequest_wf h
  | dramBurstComplete => exact execDramBurstComplete_wf h
  | dramRefreshTick => exact execDramRefreshTick_wf h
  | dramMr4Poll => exact execDramMr4Poll_wf h
  | dramRowIdleClose => exact execDramRowIdleClose_wf h
  | dramRdWindow => exact execDramRdWindow_wf h
  | dramSelfRefreshEntry => exact execDramSelfRefreshEntry_wf h
  | dramStateError => exact execDramStateError_wf h
  | dramUnitResetDone => exact execDramUnitResetDone_wf h
  | patinaLineRead => exact execPatinaLineRead_wf h
  | patinaLineWrite => exact execPatinaLineWrite_wf h
  | patinaPartialWrite => exact execPatinaPartialWrite_wf h
  | pageReencryptDone => exact execPageReencryptDone_wf h
  | cipherBlockFillDone => exact execCipherBlockFillDone_wf h
  | patCtrlClear => exact execPatCtrlClear_wf h
  | patCtrlRelease => exact execPatCtrlRelease_wf h
  | patinaStateError => exact execPatinaStateError_wf h
  | patinaUnitResetDone => exact execPatinaUnitResetDone_wf h
  | trngHealthFail => exact execTrngHealthFail_wf h
  | ksLoadTrng => exact execKsLoadTrng_wf h
  | ksLoadData => exact execKsLoadData_wf h
  | ksClose => exact execKsClose_wf h
  | secLockKeys => exact execSecLockKeys_wf h
  | secLockRights => exact execSecLockRights_wf h
  | secLockDbg => exact execSecLockDbg_wf h
  | secLockDump => exact execSecLockDump_wf h
  | otpProgram => exact execOtpProgram_wf h
  | otpRevoke => exact execOtpRevoke_wf h
  | otpRequestDone => exact execOtpRequestDone_wf h
  | secGlitch => exact execSecGlitch_wf h
  | getVersion => exact execGetVersion_wf h
  | getCapabilities => exact execGetCapabilities_wf h
  | negotiateAlgorithms => exact execNegotiateAlgorithms_wf h
  | getDigests => exact execGetDigests_wf h
  | getCertificate => exact execGetCertificate_wf h
  | challenge => exact execChallenge_wf h
  | getMeasurements => exact execGetMeasurements_wf h
  | keyExchange => exact execKeyExchange_wf h
  | finish => exact execFinish_wf h
  | endSession => exact execEndSession_wf h
  | uzPqsig => exact execUzPqsig_wf h
  | hostMemRead => exact execHostMemRead_wf h
  | hostMemWrite => exact execHostMemWrite_wf h
  | hostIoRead => exact execHostIoRead_wf h
  | hostIoWrite => exact execHostIoWrite_wf h
  | hostConfigRequest => exact execHostConfigRequest_wf h
  | hostAtomicop => exact execHostAtomicop_wf h
  | snpinv => exact execSnpinv_wf h
  | snpdata => exact execSnpdata_wf h
  | snpcur => exact execSnpcur_wf h
  | birsp => exact execBirsp_wf h
  | hostCompletion => exact execHostCompletion_wf h
  | biTimeout => exact execBiTimeout_wf h
  | snpTimeout => exact execSnpTimeout_wf h
  | linkRetrain => exact execLinkRetrain_wf h
  | nvmeSqDoorbell => exact execNvmeSqDoorbell_wf h
  | nvmeCommandDispatch => exact execNvmeCommandDispatch_wf h
  | nvmeOutWpWrite => exact execNvmeOutWpWrite_wf h
  | slotDoorbell => exact execSlotDoorbell_wf h
  | slotProgramStart => exact execSlotProgramStart_wf h
  | slotAbort => exact execSlotAbort_wf h
  | slotWatchdogExpiry => exact execSlotWatchdogExpiry_wf h
  | cmdCapLock => exact execCmdCapLock_wf h
  | exit => exact execExit_wf h
  | map => exact execMap_wf h
  | time => exact execTime_wf h
  | measure => exact execMeasure_wf h
  | loadFull => exact execLoadFull_wf h
  | loadPartial => exact execLoadPartial_wf h
  | captureReadback => exact execCaptureReadback_wf h
  | chFirmware => exact execChFirmware_wf h
  | chReset => exact execChReset_wf h
  | dramStart => exact execDramStart_wf h
  | powerState => exact execPowerState_wf h
  | opSet => exact execOpSet_wf h
  | resetCall => exact execResetCall_wf h
  | crcRun => exact execCrcRun_wf h
  | hdmSet => exact execHdmSet_wf h
  | nsMap => exact execNsMap_wf h
  | keySlot => exact execKeySlot_wf h
  | ownerReq => exact execOwnerReq_wf h
  | hubIntMaskWrite => exact execHubIntMaskWrite_wf h
  | smbusReadHubId => exact execSmbusReadHubId_wf h
  | smbusReadHubRev => exact execSmbusReadHubRev_wf h
  | smbusReadRstCause => exact execSmbusReadRstCause_wf h
  | smbusReadRstStatus => exact execSmbusReadRstStatus_wf h
  | smbusReadCfgStatus => exact execSmbusReadCfgStatus_wf h
  | smbusReadHubIntSummary => exact execSmbusReadHubIntSummary_wf h
  | smbusReadPwrTherm => exact execSmbusReadPwrTherm_wf h
  | smbusReadPwrTotal => exact execSmbusReadPwrTotal_wf h
  | smbusReadHubPartFail => exact execSmbusReadHubPartFail_wf h
  | smbusReadRasCause => exact execSmbusReadRasCause_wf h
  | smbusReadSecCause => exact execSmbusReadSecCause_wf h
  | smbusReadWakeStatus => exact execSmbusReadWakeStatus_wf h
  | smbusReadPwrMode => exact execSmbusReadPwrMode_wf h
  | smbusReadCfgImg => exact execSmbusReadCfgImg_wf h
  | smbusReadClkTsLo => exact execSmbusReadClkTsLo_wf h
  | smbusReadClkTsHi => exact execSmbusReadClkTsHi_wf h
  | smbusMessage => exact execSmbusMessage_wf h
  | hubSwitchFault => exact execHubSwitchFault_wf h
  | channelBridgeFault => exact execChannelBridgeFault_wf h
  | wakeQuiet => exact execWakeQuiet_wf h
  | wakeQuietTimeout => exact execWakeQuietTimeout_wf h
  | wakeRecoveryDone => exact execWakeRecoveryDone_wf h
  | wakeHoldLimit => exact execWakeHoldLimit_wf h
  | wakePeekSelect => exact execWakePeekSelect_wf h
  | easyRequest => exact execEasyRequest_wf h
  | governorIdleEntry => exact execGovernorIdleEntry_wf h
  | easyQuiescent => exact execEasyQuiescent_wf h
  | easyEntryTimeout => exact execEasyEntryTimeout_wf h
  | easyEntryComplete => exact execEasyEntryComplete_wf h
  | easyWake => exact execEasyWake_wf h
  | easyWakeComplete => exact execEasyWakeComplete_wf h
  | mooredRequest => exact execMooredRequest_wf h
  | mooredEntryComplete => exact execMooredEntryComplete_wf h
  | mooredWake => exact execMooredWake_wf h
  | aonTimerExpiry => exact execAonTimerExpiry_wf h
  | opTargetWrite => exact execOpTargetWrite_wf h
  | avsAck => exact execAvsAck_wf h
  | avsAckTimeout => exact execAvsAckTimeout_wf h
  | governorTick => exact execGovernorTick_wf h
  | budgetOver => exact execBudgetOver_wf h
  | pmbusRead => exact execPmbusRead_wf h
  | pmbusAlert => exact execPmbusAlert_wf h
  | telemetryLost => exact execTelemetryLost_wf h
  | telemetryRestored => exact execTelemetryRestored_wf h
  | sprintWindowClose => exact execSprintWindowClose_wf h
  | sprintCooldownEnd => exact execSprintCooldownEnd_wf h
  | trstN => exact execTrstN_wf h
  | extest => exact execExtest_wf h
  | samplePreload => exact execSamplePreload_wf h
  | idcode => exact execIdcode_wf h
  | clamp => exact execClamp_wf h
  | highz => exact execHighz_wf h
  | bypass => exact execBypass_wf h
  | dbgReg => exact execDbgReg_wf h
  | dbgRegUpdate => exact execDbgRegUpdate_wf h
  | dbgImg => exact execDbgImg_wf h
  | dbgImgUpdate => exact execDbgImgUpdate_wf h
  | rstOvr => exact execRstOvr_wf h
  | rstOvrUpdate => exact execRstOvrUpdate_wf h
  | dbgRstWarm => exact execDbgRstWarm_wf h
  | dbgRstPartition => exact execDbgRstPartition_wf h
  | dbgAccessRead => exact execDbgAccessRead_wf h
  | dbgAccessConsumeRead => exact execDbgAccessConsumeRead_wf h
  | dbgAccessWrite => exact execDbgAccessWrite_wf h
  | dbgAccessDone => exact execDbgAccessDone_wf h
  | engDbgHalt => exact execEngDbgHalt_wf h
  | engineHaltTaken => exact execEngineHaltTaken_wf h
  | haltForceTimeout => exact execHaltForceTimeout_wf h
  | engDbgForce => exact execEngDbgForce_wf h
  | engDbgResume => exact execEngDbgResume_wf h
  | engDbgStep => exact execEngDbgStep_wf h
  | instructionFeed => exact execInstructionFeed_wf h
  | engDbgPcWrite => exact execEngDbgPcWrite_wf h
  | dbgCrewHalt => exact execDbgCrewHalt_wf h
  | dbgCrewResume => exact execDbgCrewResume_wf h
  | dbgIslHalt => exact execDbgIslHalt_wf h
  | dbgIslStep => exact execDbgIslStep_wf h
  | trigIn => exact execTrigIn_wf h
  | dbgXtPulse => exact execDbgXtPulse_wf h
  | quadApply => exact execQuadApply_wf h
  | txeqApply => exact execTxeqApply_wf h
  | adapt => exact execAdapt_wf h
  | adaptComplete => exact execAdaptComplete_wf h
  | los => exact execLos_wf h
  | cdrLock => exact execCdrLock_wf h
  | laneReset => exact execLaneReset_wf h
  | loopbackSelect => exact execLoopbackSelect_wf h
  | codewordReceive => exact execCodewordReceive_wf h
  | prbsClr => exact execPrbsClr_wf h
  | prbsLockLost => exact execPrbsLockLost_wf h
  | eyeGo => exact execEyeGo_wf h
  | eyeDwellDone => exact execEyeDwellDone_wf h
  | laneHtest => exact execLaneHtest_wf h
  | islandCycle => exact execIslandCycle_wf h
  | undefinedInstruction => exact execUndefinedInstruction_wf h
  | perstRelease => exact execPerstRelease_wf h
  | railsInRange => exact execRailsInRange_wf h
  | powerLoss => exact execPowerLoss_wf h
  | ideKmMessage => exact execIdeKmMessage_wf h
  | crewClockStep => exact execCrewClockStep_wf h
  | testLogicReset => exact execTestLogicReset_wf h
  | signalReturn => exact execSignalReturn_wf h
  | cdrUnlock => exact execCdrUnlock_wf h
  | blockLock => exact execBlockLock_wf h
  | prbsLock => exact execPrbsLock_wf h
  | taskPromoted => exact execTaskPromoted_wf h
  | wakeNTimeout => exact execWakeNTimeout_wf h

/-- Every step keeps the canonical form. -/
theorem step_wf {s : State} (h : s.wf = true) : Canonical (step s) := by
  unfold step
  split
  · exact canonical_next (idle_wf h)
  · exact exec_wf _ (wf_frame h rfl rfl rfl)

/-- Settles O58: each command by the lemma of its own, a step by its command or by the time that passes. -/
theorem stepKeepsCanonicalForm : Obligations.StepKeepsCanonicalForm := by
  unfold Obligations.StepKeepsCanonicalForm
  exact ⟨fun c _ _ h => exec_wf c h _, fun _ _ h => step_wf h _⟩

end Sys2Proof.Machine
end

section
/-! PROOFS. The byte code: a syndrome is linear, a code word has none, and what one and two upset bits make of it (R94, R95). -/

namespace Sys2Proof.Machine

/-! The syndrome is linear. -/

theorem parity_cons (b : Bool) (l : List Bool) : parity (b :: l) = xor b (parity l) := by
  have h : ∀ (m : List Bool) (c : Bool), m.foldl xor c = xor c (m.foldl xor false) := fun m => by
    induction m with
    | nil => simp
    | cons x m ih => intro c; simp only [List.foldl_cons, Bool.false_xor]; rw [ih, ih x, Bool.xor_assoc]
  simp only [parity, List.foldl_cons, Bool.false_xor]
  exact h l b

theorem parity_bitsAt_xor (w v : Coded) (l : List Nat) :
    parity (bitsAt (w ^^^ v) l) = xor (parity (bitsAt w l)) (parity (bitsAt v l)) := by
  induction l with
  | nil => rfl
  | cons i l ih =>
    simp only [bitsAt, List.map_cons, parity_cons, BitVec.getLsbD_xor] at ih ⊢
    simp only [ih, Bool.xor_assoc, Bool.xor_left_comm]

/-- The bits of a syndrome. -/
def syndromeBits (w : Coded) : List Bool :=
  [xor (parity (bitsAt w [0, 1, 3, 4, 6])) (w.getLsbD 8), xor (parity (bitsAt w [0, 2, 3, 5, 6])) (w.getLsbD 9),
    xor (parity (bitsAt w [1, 2, 3, 7])) (w.getLsbD 10), xor (parity (bitsAt w [4, 5, 6, 7])) (w.getLsbD 11), parity (bitsAt w (List.range 13))]

theorem syndrome_eq (w : Coded) : syndrome w = ofBits (syndromeBits w) := rfl

theorem ofBits_eq_zero {l : List Bool} (h : ofBits l = 0) : ∀ b ∈ l, b = false := by
  induction l with
  | nil => simp
  | cons b l ih =>
    rw [ofBits] at h
    have hb : b = false := by cases b <;> simp_all
    have hl : ofBits l = 0 := by omega
    exact List.forall_mem_cons.2 ⟨hb, ih hl⟩

/-- The upset bits alone make the syndrome of a word that was a code word. -/
theorem syndrome_xor_of_zero {w : Coded} (h : syndrome w = 0) (v : Coded) : syndrome (w ^^^ v) = syndrome v := by
  have hbits : ∀ b ∈ syndromeBits w, b = false := ofBits_eq_zero h
  simp only [syndromeBits, List.forall_mem_cons] at hbits
  obtain ⟨h0, h1, h2, h3, h4, -⟩ := hbits
  have hx : ∀ {a b c d : Bool}, xor a b = false → xor (xor a c) (xor b d) = xor c d := by decide
  simp only [syndrome_eq, syndromeBits, parity_bitsAt_xor, BitVec.getLsbD_xor, hx h0, hx h1, hx h2, hx h3, h4, Bool.false_xor]

/-! Code words, and the syndromes of upset bits. -/

theorem syndrome_encodeByte (d : Byte) : syndrome (encodeByte d) = 0 := by revert d; decide +kernel

theorem dataOf_encodeByte (d : Byte) : dataOf (encodeByte d) = d := by
  apply BitVec.eq_of_toNat_eq
  simp only [dataOf, encodeByte, BitVec.toNat_setWidth, BitVec.toNat_ofNat]
  have := d.isLt
  omega

theorem encodeByte_zero : encodeByte 0 = 0 := by decide

theorem verdict_oneBit : ∀ i < 13, verdict (syndrome (BitVec.ofNat 13 (2 ^ i))) = .correctable i := by decide +kernel

theorem verdict_twoBits : ∀ i < 13, ∀ j < i, verdict (syndrome (BitVec.ofNat 13 (2 ^ i + 2 ^ j))) = .uncorrectable := by decide +kernel

/-- One bit of a code word upset: the checker names it (R95). -/
theorem verdict_upset (d : Byte) {i : Nat} (hi : i < 13) : verdict (syndrome (encodeByte d ^^^ BitVec.ofNat 13 (2 ^ i))) = .correctable i := by
  rw [syndrome_xor_of_zero (syndrome_encodeByte d), verdict_oneBit i hi]

/-- Two bits of a code word upset: the checker finds an uncorrectable word (R95). -/
theorem verdict_upset_twice (d : Byte) {i j : Nat} (hi : i < 13) (hj : j < i) :
    verdict (syndrome (encodeByte d ^^^ BitVec.ofNat 13 (2 ^ i + 2 ^ j))) = .uncorrectable := by
  rw [syndrome_xor_of_zero (syndrome_encodeByte d), verdict_twoBits i hi j hj]

/-- The bit upset, inverted again. -/
theorem flipBit_upset (w : Coded) (i : Nat) : flipBit (w ^^^ BitVec.ofNat 13 (2 ^ i)) i = w := by
  rw [flipBit, BitVec.xor_assoc, BitVec.xor_self, BitVec.xor_zero]

end Sys2Proof.Machine
end

section
/-! PROOFS. Reads, write-backs and corrections of the on-chip memories (spec/04, R94 to R99). -/

namespace Sys2Proof.Machine

/-! What a correction and an uncorrectable byte touch. -/

theorem get_count (s : State) (f : Fld) (sat : Bool) (h : s.get f + 1 < 2 ^ f.w) : (s.count f sat).get f = s.get f + 1 := by
  have hne : (sat && s.get f + 1 == 2 ^ f.w) = false := by simp [h.ne]
  rw [State.count, hne, if_neg Bool.false_ne_true, get_put_same, Nat.mod_eq_of_lt h]

/-- The fields of a slag entry (R98). -/
def slagEntryFlds (p e : Nat) : List Fld :=
  [RAS_SLAG_UNIT p e, RAS_SLAG_INSTANCE p e, RAS_SLAG_AON p e, RAS_SLAG_CASE p e, RAS_SLAG_ADDR p e, RAS_SLAG_COUNT p e, RAS_SLAG_SYN p e,
    RAS_SLAG_TS_LO p e, RAS_SLAG_TS_HI p e]

/-- The fields of a partition's slag table, with its causes. -/
def slagFlds (p : Nat) : List Fld :=
  [RAS_SLAG_VALID_VALID p, RAS_SLAG_OVF_COUNT p, RAS_CAUSE_SLAG_NEW, RAS_CAUSE_SLAG_OVF] ++ (List.range 32).flatMap (slagEntryFlds p) ++ alertFlds

theorem mem_slagFlds {p e : Nat} (he : e < 32) {f : Fld} (hf : f ∈ slagEntryFlds p e) : f ∈ slagFlds p :=
  List.mem_append_left _ (List.mem_append_right _ (List.mem_flatMap.2 ⟨e, List.mem_range.2 he, hf⟩))

theorem frame_slagStamp (s : State) {p e : Nat} (he : e < 32) (syn case : Nat) : Frame [.host] (slagFlds p) s (slagStamp s p e syn case) :=
  (frame_puts _ s).mono (List.nil_subset _) fun f hf => mem_slagFlds he (by
    simp only [List.map_cons, List.map_nil, List.mem_cons, List.not_mem_nil, or_false] at hf
    rcases hf with rfl | rfl | rfl | rfl <;> simp [slagEntryFlds])

theorem frame_raiseSlag (s : State) (p : Nat) {f : Fld} (hf : f ∈ slagFlds p) : Frame [.host] (slagFlds p) s (raiseRas f s) :=
  (frame_raiseLeaf 20 f s).mono (fun _ h => h) (List.forall_mem_cons.2 ⟨hf, fun _ h => List.mem_append_right _ h⟩)

theorem frame_countSlag (s : State) {p : Nat} {f : Fld} (hf : f ∈ slagFlds p) : Frame [.host] (slagFlds p) s (s.count f) :=
  (frame_count s f true).mono (List.nil_subset _) (List.forall_mem_singleton.2 hf)

theorem frame_slagLog (s : State) (p unit inst addr syn case : Nat) : Frame [.host] (slagFlds p) s (slagLog s p unit inst addr syn case) := by
  unfold slagLog
  split
  · next e he =>
    have he : e < 32 := List.mem_range.1 (List.mem_of_find?_eq_some he)
    exact (frame_countSlag s (mem_slagFlds he (by simp [slagEntryFlds]))).trans (frame_slagStamp _ he _ _)
  · split
    · next e he =>
      have he : e < 32 := List.mem_range.1 (List.mem_of_find?_eq_some he)
      refine ((((frame_puts _ s).mono (List.nil_subset _) fun f hf => mem_slagFlds he ?_).trans (frame_slagStamp _ he _ _)).trans
        ((frame_putBit _ (RAS_SLAG_VALID_VALID p) e true).mono (List.nil_subset _) ?_)).trans (frame_raiseSlag _ p (by simp [slagFlds]))
      · simp only [List.map_cons, List.map_nil, List.mem_cons, List.not_mem_nil, or_false] at hf
        rcases hf with rfl | rfl | rfl | rfl | rfl <;> simp [slagEntryFlds]
      · simp [slagFlds]
    · exact (frame_countSlag s (by simp [slagFlds])).trans (frame_raiseSlag _ p (by simp [slagFlds]))

theorem ceCount_not_slag (p : Nat) : (RAS_CE_COUNT_COUNT p).key ∉ (slagFlds p).map Fld.key := by
  intro hmem
  obtain ⟨f, hf, hkey⟩ := List.mem_map.1 hmem
  rcases List.mem_append.1 hf with hf | hf
  · rcases List.mem_append.1 hf with hf | hf
    · simp only [List.mem_cons, List.not_mem_nil, or_false] at hf
      rcases hf with rfl | rfl | rfl | rfl <;>
        simp only [RAS_CE_COUNT_COUNT, RAS_SLAG_VALID_VALID, RAS_SLAG_OVF_COUNT, RAS_CAUSE_SLAG_NEW, RAS_CAUSE_SLAG_OVF] at hkey <;> omega
    · obtain ⟨e, -, hf⟩ := List.mem_flatMap.1 hf
      simp only [slagEntryFlds, List.mem_cons, List.not_mem_nil, or_false] at hf
      rcases hf with rfl | rfl | rfl | rfl | rfl | rfl | rfl | rfl | rfl <;>
        simp only [RAS_CE_COUNT_COUNT, RAS_SLAG_UNIT, RAS_SLAG_INSTANCE, RAS_SLAG_AON, RAS_SLAG_CASE, RAS_SLAG_ADDR, RAS_SLAG_COUNT,
          RAS_SLAG_SYN, RAS_SLAG_TS_LO, RAS_SLAG_TS_HI] at hkey <;> omega
  · have h := alertFlds_block _ (List.mem_map_of_mem (f := Fld.key) hf)
    simp only [RAS_CE_COUNT_COUNT] at hkey
    omega

/-- A correction leaves the memories as they are. -/
theorem countCorrection_onchip (s : State) (p unit inst addr syn case : Nat) : (countCorrection s p unit inst addr syn case).onchip = s.onchip :=
  ((frame_slagLog _ p unit inst addr syn case).onchip (by simp)).trans ((frame_count s (RAS_CE_COUNT_COUNT p) true).onchip (by simp))

/-- A correction is counted (R96). -/
theorem countCorrection_count (s : State) (p unit inst addr syn case : Nat) (h : s.get (RAS_CE_COUNT_COUNT p) + 1 < 2 ^ (RAS_CE_COUNT_COUNT p).w) :
    (countCorrection s p unit inst addr syn case).get (RAS_CE_COUNT_COUNT p) = s.get (RAS_CE_COUNT_COUNT p) + 1 :=
  ((frame_slagLog _ p unit inst addr syn case).get _ (ceCount_not_slag p)).trans (get_count s _ true h)

/-- The fields of an uncorrectable byte's cause, with those of its alert (R99). -/
def memUeFlds (p unit : Nat) : List Fld :=
  [FAB_SEC_CAUSE_MEM_UE p (unit % 32), CH_CAUSE_MEM_UE (p - 4), RAS_CAUSE_MEM_UE] ++ (crewOf (p - 4)).map ENG_IRQ_PEND_PEND ++ alertFlds

theorem frame_raiseCh (n : Nat) (f : Fld) (s : State) : Frame [.host] (f :: ((crewOf n).map ENG_IRQ_PEND_PEND ++ alertFlds)) s (raiseCh n f s) := by
  unfold raiseCh chSettled
  refine frame_settled (4 + n) _ s (cs := []) (fs := f :: (crewOf n).map ENG_IRQ_PEND_PEND) ?_
  have hflag := (frame_flag s f true).mono (ds := []) (gs := f :: (crewOf n).map ENG_IRQ_PEND_PEND) (List.nil_subset _) (by simp)
  dsimp only
  split
  · exact hflag.trans ((frame_setLines 23 (crewOf n) _).mono (List.nil_subset _) (fun _ h => List.mem_cons_of_mem _ h))
  · exact hflag

theorem frame_raiseMemUe (s : State) (p unit : Nat) : Frame [.host] (memUeFlds p unit) s (raiseMemUe s p unit) := by
  unfold raiseMemUe
  split
  · exact (frame_raiseLeaf p _ s).mono (fun _ h => h) (by simp [memUeFlds]; tauto)
  · split
    · refine (frame_raiseCh (p - 4) _ s).mono (fun _ h => h) fun f hf => ?_
      rcases List.mem_cons.1 hf with rfl | hf
      · simp [memUeFlds]
      · rw [memUeFlds, List.append_assoc]
        exact List.mem_append_right _ hf
    · exact (frame_raiseLeaf 20 _ s).mono (fun _ h => h) (by simp [memUeFlds]; tauto)

/-- The log of an uncorrectable byte, before its cause is raised (R99). -/
def ueLogged (s : State) (p unit inst addr syn : Nat) : State :=
  (s.puts [(RAS_UE_LOG_UNIT p, logUnit p unit), (RAS_UE_LOG_INSTANCE p, inst), (RAS_UE_LOG_AON p, (unit == aonUnit).toNat),
    (RAS_UE_LOG_CASE p, 0), (RAS_UE_LOG_ADDR p, addr), (RAS_UE_LOG_SYN p, syn), (RAS_UE_LOG_TS_LO p, s.clocks.ts % 2 ^ 32),
    (RAS_UE_LOG_TS_HI p, s.clocks.ts / 2 ^ 32)]).count (RAS_UE_LOG_COUNT p)

theorem logUncorrectable_eq (s : State) (p unit inst addr syn : Nat) :
    logUncorrectable s p unit inst addr syn = raiseMemUe (ueLogged s p unit inst addr syn) p unit := rfl

theorem ueLogged_addr (s : State) (p unit inst addr syn : Nat) (h : addr < 2 ^ 32) :
    (ueLogged s p unit inst addr syn).get (RAS_UE_LOG_ADDR p) = addr := by
  have hcount : (RAS_UE_LOG_ADDR p).key ∉ [RAS_UE_LOG_COUNT p].map Fld.key := by
    simp only [RAS_UE_LOG_ADDR, RAS_UE_LOG_COUNT, List.map_cons, List.map_nil, List.mem_singleton]
    omega
  rw [ueLogged, (frame_count _ _ _).get _ hcount, State.puts, State.puts, State.puts, State.puts, get_puts_last]
  · exact Nat.mod_eq_of_lt h
  · simp only [RAS_UE_LOG_ADDR, RAS_UE_LOG_SYN, RAS_UE_LOG_TS_LO, RAS_UE_LOG_TS_HI, List.forall_mem_cons, List.not_mem_nil, false_imp_iff,
      implies_true, and_true]
    omega

theorem ueAddr_not_memUe {p : Nat} (hp : p < 21) (unit : Nat) : (RAS_UE_LOG_ADDR p).key ∉ (memUeFlds p unit).map Fld.key := by
  intro hmem
  obtain ⟨f, hf, hkey⟩ := List.mem_map.1 hmem
  rcases List.mem_append.1 hf with hf | hf
  · rcases List.mem_append.1 hf with hf | hf
    · simp only [List.mem_cons, List.not_mem_nil, or_false] at hf
      rcases hf with rfl | rfl | rfl <;> simp only [RAS_UE_LOG_ADDR, FAB_SEC_CAUSE_MEM_UE, CH_CAUSE_MEM_UE, RAS_CAUSE_MEM_UE] at hkey <;> omega
    · obtain ⟨g, hg, rfl⟩ := List.mem_map.1 hf
      obtain ⟨m, hm, rfl⟩ := List.mem_map.1 hg
      have hm : m < 64 := List.mem_range.1 hm
      simp only [ENG_IRQ_PEND_PEND, RAS_UE_LOG_ADDR, engBase] at hkey
      split at hkey <;> omega
  · have h := alertFlds_block _ (List.mem_map_of_mem (f := Fld.key) hf)
    simp only [RAS_UE_LOG_ADDR] at hkey
    omega

/-- An uncorrectable byte is logged at its address (R99). -/
theorem logUncorrectable_addr (s : State) {p : Nat} (hp : p < 21) (unit inst syn : Nat) {addr : Nat} (h : addr < 2 ^ 32) :
    (logUncorrectable s p unit inst addr syn).get (RAS_UE_LOG_ADDR p) = addr :=
  ((frame_raiseMemUe _ p unit).get _ (ueAddr_not_memUe hp unit)).trans (ueLogged_addr s p unit inst addr syn h)

theorem frame_ueLogged (s : State) (p unit inst addr syn : Nat) : ∃ fs, Frame [] fs s (ueLogged s p unit inst addr syn) :=
  ⟨_, ((frame_puts _ s).mono (List.nil_subset _) fun _ h => List.mem_append_left _ h).trans
    ((frame_count _ (RAS_UE_LOG_COUNT p) true).mono (List.nil_subset _) fun _ h => List.mem_append_right _ h)⟩

/-- Logging an uncorrectable byte leaves the memories as they are. -/
theorem logUncorrectable_onchip (s : State) (p unit inst addr syn : Nat) : (logUncorrectable s p unit inst addr syn).onchip = s.onchip := by
  obtain ⟨_, hlogged⟩ := frame_ueLogged s p unit inst addr syn
  exact ((frame_raiseMemUe _ p unit).onchip (by simp)).trans (hlogged.onchip (by simp))

/-- In a channel its cause is on (R99). -/
theorem logUncorrectable_channelCause (s : State) {p : Nat} (h4 : 4 ≤ p) (h20 : p < 20) (unit inst addr syn : Nat) :
    (logUncorrectable s p unit inst addr syn).on (CH_CAUSE_MEM_UE (p - 4)) = true := by
  rw [logUncorrectable_eq, raiseMemUe, if_neg (by omega), if_pos h20]
  refine raiseCh_on _ _ _ rfl fun g => ?_
  simp only [CH_CAUSE_MEM_UE, ENG_IRQ_PEND_PEND]
  omega

/-! Reads of a byte. -/

section
variable {s : State} {p unit inst addr i : Nat} {rom cw uw : Bool}

theorem checkedRead_corrected (h : verdict (syndrome (storedWord s p unit inst addr)) = .correctable i) :
    (checkedRead s p unit inst addr rom cw uw).1 = ⟨dataOf (flipBit (storedWord s p unit inst addr) i), true, false⟩ := by
  unfold checkedRead
  generalize storedWord s p unit inst addr = w at h ⊢
  dsimp only
  rw [h]
  dsimp only
  split
  · rfl
  · split <;> rfl

/-- Where no write-back may be made the correction is counted at once (R97). -/
theorem checkedRead_counted (h : verdict (syndrome (storedWord s p unit inst addr)) = .correctable i) {case : Nat}
    (hcase : noWriteBack s p unit rom cw uw = some case) : (checkedRead s p unit inst addr rom cw uw).2 =
      countCorrection s p unit inst addr (syndrome (storedWord s p unit inst addr)) case := by
  unfold checkedRead
  generalize storedWord s p unit inst addr = w at h ⊢
  dsimp only
  rw [h]
  dsimp only
  rw [hcase]

/-- Where one may be made, it becomes due with the corrected word (R96). -/
theorem checkedRead_due (h : verdict (syndrome (storedWord s p unit inst addr)) = .correctable i)
    (hmade : noWriteBack s p unit rom cw uw = none) (hnew : s.onchip.due.any (·.isAt p unit inst addr) = false) :
    (checkedRead s p unit inst addr rom cw uw).2 = { s with onchip := { s.onchip with due := s.onchip.due ++
      [{ p := p, unit := unit, inst := inst, addr := addr, word := flipBit (storedWord s p unit inst addr) i,
         syn := syndrome (storedWord s p unit inst addr) }] } } := by
  unfold checkedRead
  generalize storedWord s p unit inst addr = w at h ⊢
  dsimp only
  rw [h]
  dsimp only
  rw [hmade]
  dsimp only
  rw [hnew, if_neg Bool.false_ne_true]

theorem checkedRead_uncorrectable (h : verdict (syndrome (storedWord s p unit inst addr)) = .uncorrectable) :
    checkedRead s p unit inst addr rom cw uw = (⟨dataOf (storedWord s p unit inst addr), false, true⟩,
      logUncorrectable s p unit inst addr (syndrome (storedWord s p unit inst addr))) := by
  unfold checkedRead
  generalize storedWord s p unit inst addr = w at h ⊢
  dsimp only
  rw [h]

end

/-! The commands. -/

/-- A byte with bits upset, at the start of a command. -/
def upsetByte (s : State) (p unit inst addr : Nat) (u : Coded) : State :=
  storeWord s.begin p unit inst addr (storedWord s p unit inst addr ^^^ u)

/-- The state behind a read: a poisoned byte of the Wake's range is a hub failure (R335). -/
def afterRead (r : ReadByte × State) (p unit inst addr : Nat) : State :=
  if r.1.poison && wakeByte p unit inst addr then hubFails r.2 else r.2

theorem afterRead_good {r : ReadByte × State} (h : r.1.poison = false) (p unit inst addr : Nat) : afterRead r p unit inst addr = r.2 := by
  rw [afterRead, h, Bool.false_and, if_neg Bool.false_ne_true]

theorem frame_afterRead (r : ReadByte × State) (p unit inst addr : Nat) : Frame [.clocks] [] r.2 (afterRead r p unit inst addr) := by
  unfold afterRead
  split
  · exact frame_clocks r.2 _
  · exact Frame.refl _ _ _

/-- The end of a read: of Patina's tree memory the data are a free value (assumption 11). -/
def readEnd (r : ReadByte × State) (p unit inst addr : Nat) : State :=
  if unit == treeUnit
  then (afterRead r p unit inst addr).free.2.emit (.memByte ((afterRead r p unit inst addr).free.1.toNat % 256) r.1.poison)
  else (afterRead r p unit inst addr).emit (.memByte r.1.data.toNat r.1.poison)

theorem exec_onchipMemoryRead {p : Part} {unit : Fin 2048} {inst : Fin 128} {addr : Fin 1048576} (h : addr.val < memSize p unit inst)
    (u : BitVec 13) (rom cfg : Bool) (s : State) : exec (.onchipMemoryRead p unit inst addr u rom cfg none) s =
      .next (readEnd (checkedRead (upsetByte s p unit inst addr u) p unit inst addr rom cfg false) p unit inst addr) := by
  have hupset : upsetWord s.begin p unit inst addr u = upsetByte s p unit inst addr u := if_pos h
  show execOnchipMemoryRead p unit inst addr u rom cfg none s = _
  unfold execOnchipMemoryRead
  generalize hr : checkedRead (upsetByte s p unit inst addr u) p unit inst addr rom cfg false = r
  obtain ⟨b, t⟩ := r
  simp only [if_neg (Nat.not_le.2 h), hupset, Option.isSome_none, hr]
  unfold readEnd
  split <;> rfl

theorem readEnd_data {r : ReadByte × State} {unit : Nat} (h : (unit == treeUnit) = false) (hgood : r.1.poison = false) (p inst addr : Nat) :
    readEnd r p unit inst addr = r.2.emit (.memByte r.1.data.toNat false) := by
  rw [readEnd, h, if_neg Bool.false_ne_true, afterRead_good hgood, hgood]

theorem readEnd_tree {r : ReadByte × State} (hgood : r.1.poison = false) (p inst addr : Nat) :
    readEnd r p treeUnit inst addr = r.2.free.2.emit (.memByte (r.2.free.1.toNat % 256) false) := by
  rw [readEnd, if_pos (beq_self_eq_true _), afterRead_good hgood, hgood]

theorem frame_readEnd (r : ReadByte × State) (p unit inst addr : Nat) : Frame [.clocks, .freeCtr] [] r.2 (readEnd r p unit inst addr) := by
  have hafter := (frame_afterRead r p unit inst addr).mono (ds := [.clocks, .freeCtr]) (gs := []) (by simp) (by simp)
  unfold readEnd
  split
  · exact (hafter.trans ((frame_free _).mono (by simp) (by simp))).emit _
  · exact hafter.emit _

/-- The last output of a read tells whether the byte is poisoned. -/
theorem readEnd_last (r : ReadByte × State) (p unit inst addr : Nat) :
    ∃ v, (readEnd r p unit inst addr).out.getLast? = some (.memByte v r.1.poison) := by
  unfold readEnd
  split <;> exact ⟨_, List.getLast?_concat ..⟩

theorem frame_onchip (s : State) (x : Onchip) : Frame [.onchip] [] s { s with onchip := x } := by
  constructor <;> intros <;> first | rfl | simp_all

theorem storedWord_upsetByte (s : State) (p unit inst addr : Nat) (u : Coded) :
    storedWord (upsetByte s p unit inst addr u) p unit inst addr = storedWord s p unit inst addr ^^^ u := storedWord_storeWord_same _ _ _ _ _ _

theorem frame_upsetByte (s : State) (p unit inst addr : Nat) (u : Coded) : Frame [.onchip] [] s (upsetByte s p unit inst addr u) :=
  (frame_storeWord s.begin _ _ _ _ _).begin

theorem upsetByte_due (s : State) (p unit inst addr : Nat) (u : Coded) : (upsetByte s p unit inst addr u).onchip.due = s.onchip.due := rfl

theorem noWriteBack_upsetByte (s : State) (p unit inst addr : Nat) (u : Coded) (rom cw uw : Bool) :
    noWriteBack (upsetByte s p unit inst addr u) p unit rom cw uw = noWriteBack s p unit rom cw uw := rfl

/-- The stored words are what the memories hold. -/
theorem storedWord_congr {s t : State} (h : t.onchip = s.onchip) (p unit inst addr : Nat) : storedWord t p unit inst addr = storedWord s p unit inst addr := by
  simp only [storedWord, wordAt, wildWord, h]

section
variable {s : State} {p : Part} {unit : Fin 2048} {inst : Fin 128} {addr : Fin 1048576} {d : Byte} {rom cfg : Bool}
  (hcoded : storedWord s p unit inst addr = encodeByte d)
include hcoded

theorem checkedRead_coded : checkedRead (upsetByte s p unit inst addr 0) p unit inst addr rom cfg false =
    (⟨d, false, false⟩, upsetByte s p unit inst addr 0) := by
  have hw : storedWord (upsetByte s p unit inst addr 0) p unit inst addr = encodeByte d := by
    rw [storedWord_upsetByte, hcoded]
    exact BitVec.xor_zero
  rw [checkedRead_good _ _ _ _ _ _ _ _ (hw ▸ syndrome_encodeByte d), hw, dataOf_encodeByte]

theorem verdict_upsetByte {i : Nat} (hi : i < 13) :
    verdict (syndrome (storedWord (upsetByte s p unit inst addr (BitVec.ofNat 13 (2 ^ i))) p unit inst addr)) = .correctable i := by
  rw [storedWord_upsetByte, hcoded, verdict_upset d hi]

theorem flipBit_upsetByte (i : Nat) :
    flipBit (storedWord (upsetByte s p unit inst addr (BitVec.ofNat 13 (2 ^ i))) p unit inst addr) i = encodeByte d := by
  rw [storedWord_upsetByte, hcoded, flipBit_upset]

theorem verdict_upsetByte_twice {i j : Nat} (hi : i < 13) (hj : j < i) :
    verdict (syndrome (storedWord (upsetByte s p unit inst addr (BitVec.ofNat 13 (2 ^ i + 2 ^ j))) p unit inst addr)) = .uncorrectable := by
  rw [storedWord_upsetByte, hcoded, verdict_upset_twice d hi hj]

theorem checkedRead_upset {i : Nat} (hi : i < 13) :
    (checkedRead (upsetByte s p unit inst addr (BitVec.ofNat 13 (2 ^ i))) p unit inst addr rom cfg false).1 = ⟨d, true, false⟩ := by
  rw [checkedRead_corrected (verdict_upsetByte hcoded hi), flipBit_upsetByte hcoded, dataOf_encodeByte]

/-- With one bit upset a write-back that may be made becomes due, with the corrected word (R96). -/
theorem checkedRead_upset_due {i : Nat} (hi : i < 13) (hmade : noWriteBack s p unit rom cfg false = none)
    (hnew : s.onchip.due.any (·.isAt p unit inst addr) = false) :
    let t := (checkedRead (upsetByte s p unit inst addr (BitVec.ofNat 13 (2 ^ i))) p unit inst addr rom cfg false).2
    Frame [.onchip] [] s t ∧ ∃ b ∈ t.onchip.due, b.isAt p unit inst addr = true ∧ b.word = encodeByte d := by
  dsimp only
  rw [checkedRead_due (verdict_upsetByte hcoded hi) hmade hnew]
  refine ⟨(frame_upsetByte s _ _ _ _ _).trans (frame_onchip _ _), _, List.mem_append_right _ List.mem_cons_self, ?_, flipBit_upsetByte hcoded i⟩
  simp [WriteBack.isAt]

/-- Where none may be made, the correction is counted at once and none becomes due (R97). -/
theorem checkedRead_upset_counted {i : Nat} (hi : i < 13) {case : Nat} (hcase : noWriteBack s p unit rom cfg false = some case) :
    let t := (checkedRead (upsetByte s p unit inst addr (BitVec.ofNat 13 (2 ^ i))) p unit inst addr rom cfg false).2
    t.onchip.due = s.onchip.due ∧ (s.get (RAS_CE_COUNT_COUNT p) + 1 < 2 ^ (RAS_CE_COUNT_COUNT p).w →
      t.get (RAS_CE_COUNT_COUNT p) = s.get (RAS_CE_COUNT_COUNT p) + 1) := by
  dsimp only
  rw [checkedRead_counted (verdict_upsetByte hcoded hi) hcase, countCorrection_onchip]
  exact ⟨rfl, fun h => countCorrection_count (upsetByte s p unit inst addr _) p unit inst addr _ case h⟩

/-- With two bits upset the byte is poisoned and logged, and no write-back becomes due (R99). -/
theorem checkedRead_upset_twice {i j : Nat} (hi : i < 13) (hj : j < i) :
    let r := checkedRead (upsetByte s p unit inst addr (BitVec.ofNat 13 (2 ^ i + 2 ^ j))) p unit inst addr rom cfg false
    r.1.poison = true ∧ r.2.get (RAS_UE_LOG_ADDR p) = addr.val ∧ r.2.onchip.due = s.onchip.due ∧
      (4 ≤ p.val → p.val < 20 → r.2.on (CH_CAUSE_MEM_UE (p - 4)) = true) := by
  dsimp only
  rw [checkedRead_uncorrectable (verdict_upsetByte_twice hcoded hi hj)]
  exact ⟨rfl, logUncorrectable_addr _ p.isLt unit inst _ (by omega), by rw [logUncorrectable_onchip]; rfl,
    fun h4 h20 => logUncorrectable_channelCause _ h4 h20 unit inst addr _⟩

end

/-! Write-backs at their edge. -/

/-- A write-back no longer due. -/
def undue (s : State) (p unit inst addr : Nat) : State :=
  { s with onchip := { s.onchip with due := s.onchip.due.filter (fun c => !c.isAt p unit inst addr) } }

theorem undue_any (s : State) (p unit inst addr : Nat) : (undue s p unit inst addr).onchip.due.any (·.isAt p unit inst addr) = false := by
  simp [undue, List.any_eq_false]

/-- What is stored where a user writes at the edge of a write-back. -/
def userWritten (s : State) (p unit inst addr : Nat) : Option Byte → State
  | some d => storeWord s.begin p unit inst addr (encodeByte d)
  | none => s.begin

theorem exec_memoryWriteBack {s : State} {p : Part} {unit : Fin 2048} {inst : Fin 128} {addr : Fin 1048576} {b : WriteBack}
    (hedge : memoryEdge s p unit = true) (haddr : addr.val < memSize p unit inst)
    (hfind : s.onchip.due.find? (·.isAt p unit inst addr) = some b) (w : Option Byte) :
    exec (.memoryWriteBack p unit inst addr w) s =
      .next (finishWriteBack b w.isSome (undue (userWritten s p unit inst addr w) p unit inst addr)) := by
  have hruns : ¬ ((!memoryEdge s.begin p unit) = true ∨ memSize p unit inst ≤ addr.val) := by
    have : memoryEdge s.begin p unit = true := hedge
    simp [this, haddr]
  show execMemoryWriteBack p unit inst addr w s = _
  unfold execMemoryWriteBack
  have hfind : s.begin.onchip.due.find? (·.isAt p unit inst addr) = some b := hfind
  simp only [Bool.or_eq_true, decide_eq_true_eq, if_neg hruns, hfind]
  cases w <;> rfl

theorem isAt_iff {b : WriteBack} {p unit inst addr : Nat} : b.isAt p unit inst addr = true ↔ b.p = p ∧ b.unit = unit ∧ b.inst = inst ∧ b.addr = addr := by
  simp [WriteBack.isAt, and_assoc]

/-- A write-back that is made or not is counted as a correction (R96, R97). -/
theorem finishWriteBack_eq (b : WriteBack) (hit : Bool) (s : State) : ∃ case, finishWriteBack b hit s = countCorrection
    (if hit = false ∧ b.case = 0 ∧ noWriteBack s b.p b.unit false false false = none then storeWord s b.p b.unit b.inst b.addr b.word else s)
    b.p b.unit b.inst b.addr b.syn case := by
  unfold finishWriteBack
  split
  · next h => exact ⟨3, by rw [if_neg (by simp [h])]⟩
  · next hhit =>
    split
    · next h => exact ⟨b.case, by rw [if_neg (fun k => h k.2.1)]⟩
    · next hcase =>
      split
      · next case h => exact ⟨case, by rw [if_neg (fun k => by simp [h] at k)]⟩
      · next h => exact ⟨0, by rw [if_pos ⟨by simpa using hhit, not_not.1 hcase, h⟩]⟩

theorem finishWriteBack_due (b : WriteBack) (hit : Bool) {s : State} {p unit inst addr : Nat}
    (hdue : s.onchip.due.any (·.isAt p unit inst addr) = false) :
    (finishWriteBack b hit s).onchip.due.any (·.isAt p unit inst addr) = false := by
  obtain ⟨case, h⟩ := finishWriteBack_eq b hit s
  rw [h, countCorrection_onchip]
  split <;> exact hdue

section
variable {b : WriteBack} {p unit inst addr : Nat} (hat : b.isAt p unit inst addr = true) (s : State)
include hat

theorem finishWriteBack_count (hit : Bool) (h : s.get (RAS_CE_COUNT_COUNT p) + 1 < 2 ^ (RAS_CE_COUNT_COUNT p).w) :
    (finishWriteBack b hit s).get (RAS_CE_COUNT_COUNT p) = s.get (RAS_CE_COUNT_COUNT p) + 1 := by
  obtain ⟨rfl, -⟩ := isAt_iff.1 hat
  obtain ⟨case, heq⟩ := finishWriteBack_eq b hit s
  rw [heq]
  split <;> exact countCorrection_count _ _ _ _ _ _ _ h

/-- A write-back that is made stores its word (R96). -/
theorem finishWriteBack_made (hcase : b.case = 0) (hfree : noWriteBack s p unit false false false = none) :
    storedWord (finishWriteBack b false s) p unit inst addr = b.word := by
  obtain ⟨rfl, rfl, rfl, rfl⟩ := isAt_iff.1 hat
  obtain ⟨case, heq⟩ := finishWriteBack_eq b false s
  rw [heq, storedWord_congr (countCorrection_onchip ..), if_pos ⟨rfl, hcase, hfree⟩, storedWord_storeWord_same]

/-- One that is not made leaves the word that stands there (R97). -/
theorem finishWriteBack_kept {hit : Bool} (h : hit = true ∨ b.case ≠ 0 ∨ noWriteBack s p unit false false false ≠ none) :
    storedWord (finishWriteBack b hit s) p unit inst addr = storedWord s p unit inst addr := by
  obtain ⟨rfl, rfl, rfl, rfl⟩ := isAt_iff.1 hat
  obtain ⟨case, heq⟩ := finishWriteBack_eq b hit s
  rw [heq, storedWord_congr (countCorrection_onchip ..), if_neg]
  rintro ⟨hhit, hcase, hfree⟩
  rcases h with h | h | h
  · exact absurd (h.symm.trans hhit) (by decide)
  · exact h hcase
  · exact h hfree

end

/-! The claim. -/

/-- Patina's tree memory is a channel's (R283). -/
theorem part_of_tree {p : Part} {inst addr : Nat} (h4 : 4 ≤ p.val) (h : addr < memSize p treeUnit inst) : p.val < 20 := by
  by_contra hp
  rw [memSize, if_neg (by omega), if_neg hp] at h
  simp [treeUnit, aonUnit] at h

/-- Reads of a memory whose data the model holds. -/
theorem memoryRead_data {s : State} {p : Part} {unit : Fin 2048} {inst : Fin 128} {addr : Fin 1048576} {d : Byte} {rom cfg : Bool}
    (haddr : addr.val < memSize p unit inst) (hunit : unit.val ≠ treeUnit) (hcoded : storedWord s p unit inst addr = encodeByte d) :
    Ends (.onchipMemoryRead p unit inst addr 0 rom cfg none) s (fun t => t.out = [.memByte d.toNat false] ∧
      storedWord t p unit inst addr = encodeByte d ∧ Frame [.onchip] [] s t ∧ t.onchip.due = s.onchip.due) ∧
    (∀ i < 13, Ends (.onchipMemoryRead p unit inst addr (BitVec.ofNat 13 (2 ^ i)) rom cfg none) s fun t =>
      t.out.getLast? = some (.memByte d.toNat false) ∧
      (noWriteBack s p unit rom cfg false = none → s.onchip.due.any (·.isAt p unit inst addr) = false →
        ∃ b ∈ t.onchip.due, b.isAt p unit inst addr = true ∧ b.word = encodeByte d ∧ Frame [.onchip] [] s t) ∧
      (∀ case, noWriteBack s p unit rom cfg false = some case → t.onchip.due = s.onchip.due ∧
        (s.get (RAS_CE_COUNT_COUNT p) + 1 < 2 ^ (RAS_CE_COUNT_COUNT p).w → t.get (RAS_CE_COUNT_COUNT p) = s.get (RAS_CE_COUNT_COUNT p) + 1))) := by
  have hdata : (unit.val == treeUnit) = false := by simpa using hunit
  refine ⟨⟨_, exec_onchipMemoryRead haddr 0 rom cfg s, ?_⟩, fun i hi => ⟨_, exec_onchipMemoryRead haddr _ rom cfg s, ?_⟩⟩
  · rw [checkedRead_coded hcoded, readEnd_data hdata rfl]
    refine ⟨rfl, ?_, (frame_upsetByte s _ _ _ _ _).emit _, rfl⟩
    exact (storedWord_upsetByte s _ _ _ _ _).trans (hcoded ▸ BitVec.xor_zero)
  · have hone := checkedRead_upset (rom := rom) (cfg := cfg) hcoded hi
    have hdue := checkedRead_upset_due (rom := rom) (cfg := cfg) hcoded hi
    have hcount := fun case => checkedRead_upset_counted (rom := rom) (cfg := cfg) hcoded hi (case := case)
    generalize checkedRead _ _ _ _ _ _ _ _ = r at hone hdue hcount ⊢
    rw [readEnd_data hdata (by rw [hone]), hone]
    refine ⟨List.getLast?_concat .., fun hmade hnew => ?_, hcount⟩
    obtain ⟨hframe, b, hb, hat, hword⟩ := hdue hmade hnew
    exact ⟨b, hb, hat, hword, hframe.emit _⟩

/-- A read of a byte with two bits upset, of any memory. -/
theorem memoryRead_poison {s : State} {p : Part} {unit : Fin 2048} {inst : Fin 128} {addr : Fin 1048576} {d : Byte} {rom cfg : Bool}
    (haddr : addr.val < memSize p unit inst) (hcoded : storedWord s p unit inst addr = encodeByte d) {i j : Nat} (hi : i < 13) (hj : j < i) :
    Ends (.onchipMemoryRead p unit inst addr (BitVec.ofNat 13 (2 ^ i + 2 ^ j)) rom cfg none) s fun t =>
      (∃ v, t.out.getLast? = some (.memByte v true)) ∧ t.get (RAS_UE_LOG_ADDR p) = addr.val ∧ t.onchip.due = s.onchip.due ∧
      (4 ≤ p.val → p.val < 20 → t.on (CH_CAUSE_MEM_UE (p - 4)) = true) := by
  obtain ⟨hpoison, hlog, hdue, hcause⟩ := checkedRead_upset_twice (rom := rom) (cfg := cfg) hcoded hi hj
  refine ⟨_, exec_onchipMemoryRead haddr _ rom cfg s, ?_⟩
  generalize checkedRead _ _ _ _ _ _ _ _ = r at hpoison hlog hdue hcause ⊢
  have hframe := frame_readEnd r p unit inst addr
  refine ⟨hpoison ▸ readEnd_last r p unit inst addr, (hframe.get _ (by simp)).trans hlog, ?_, fun h4 h20 => ?_⟩
  · rw [hframe.onchip (by simp), hdue]
  · rw [State.on, hframe.get _ (by simp)]
    exact hcause h4 h20

/-- Reads of Patina's tree memory. -/
theorem memoryRead_tree {s : State} {p : Part} {inst : Fin 128} {addr : Fin 1048576} {d : Byte} {rom cfg : Bool}
    (haddr : addr.val < memSize p treeUnit inst) (hcoded : storedWord s p treeUnit inst addr = encodeByte d) :
    Ends (.onchipMemoryRead p 68 inst addr 0 rom cfg none) s (fun t =>
      t.out = [.memByte ((Config.freeWord s.freeCtr).toNat % 256) false] ∧
      storedWord t p treeUnit inst addr = encodeByte d ∧ Frame [.onchip, .freeCtr] [] s t ∧ t.onchip.due = s.onchip.due) ∧
    (∀ i < 13, Ends (.onchipMemoryRead p 68 inst addr (BitVec.ofNat 13 (2 ^ i)) rom cfg none) s fun t =>
      (∃ v, t.out.getLast? = some (.memByte v false)) ∧
      (noWriteBack s p treeUnit rom cfg false = none → s.onchip.due.any (·.isAt p treeUnit inst addr) = false →
        ∃ b ∈ t.onchip.due, b.isAt p treeUnit inst addr = true ∧ b.word = encodeByte d)) := by
  have hcoded : storedWord s p (68 : Fin 2048) inst addr = encodeByte d := hcoded
  refine ⟨⟨_, exec_onchipMemoryRead (unit := 68) haddr 0 rom cfg s, ?_⟩,
    fun i hi => ⟨_, exec_onchipMemoryRead (unit := 68) haddr _ rom cfg s, ?_⟩⟩
  · have hword : storedWord (upsetByte s p (68 : Fin 2048) inst addr 0) p (68 : Fin 2048) inst addr = encodeByte d :=
      (storedWord_upsetByte ..).trans (hcoded ▸ BitVec.xor_zero)
    have hframe := frame_upsetByte s p (68 : Fin 2048) inst addr 0
    have hfree : (upsetByte s p (68 : Fin 2048) inst addr 0).freeCtr = s.freeCtr := rfl
    have hdue := upsetByte_due s p (68 : Fin 2048) inst addr 0
    have hout : (upsetByte s p (68 : Fin 2048) inst addr 0).out = [] := rfl
    rw [checkedRead_coded hcoded]
    generalize upsetByte _ _ _ _ _ _ = t at hword hframe hfree hdue hout ⊢
    have hend : readEnd (⟨d, false, false⟩, t) p (68 : Fin 2048) inst addr = t.free.2.emit (.memByte (t.free.1.toNat % 256) false) :=
      readEnd_tree rfl p inst addr
    rw [hend]
    refine ⟨?_, (storedWord_congr rfl ..).trans hword, ?_, hdue⟩
    · rw [← hfree]
      exact congrArg (· ++ _) hout
    · exact ((hframe.mono (by simp) (by simp)).trans ((frame_free _).mono (by simp) (by simp))).emit _
  · have hone := checkedRead_upset (rom := rom) (cfg := cfg) hcoded hi
    have hdue := checkedRead_upset_due (rom := rom) (cfg := cfg) hcoded hi
    generalize checkedRead _ _ _ _ _ _ _ _ = r at hone hdue ⊢
    have hpoison : r.1.poison = false := by rw [hone]
    refine ⟨hpoison ▸ readEnd_last r p _ inst addr, fun hmade hnew => ?_⟩
    obtain ⟨-, b, hb, hat, hword⟩ := hdue hmade hnew
    exact ⟨b, ((frame_readEnd r p _ inst addr).onchip (by simp)).symm ▸ hb, hat, hword⟩

/-- A write-back at its edge. -/
theorem memoryWriteBack_ends {s : State} {p : Part} {unit : Fin 2048} {inst : Fin 128} {addr : Fin 1048576} {b : WriteBack}
    (hedge : memoryEdge s p unit = true) (haddr : addr.val < memSize p unit inst)
    (hfind : s.onchip.due.find? (·.isAt p unit inst addr) = some b) :
    Ends (.memoryWriteBack p unit inst addr none) s (fun t =>
      (b.case = 0 → noWriteBack s p unit false false false = none → storedWord t p unit inst addr = b.word) ∧
      (b.case ≠ 0 ∨ noWriteBack s p unit false false false ≠ none → storedWord t p unit inst addr = storedWord s p unit inst addr) ∧
      t.onchip.due.any (·.isAt p unit inst addr) = false ∧
      (s.get (RAS_CE_COUNT_COUNT p) + 1 < 2 ^ (RAS_CE_COUNT_COUNT p).w → t.get (RAS_CE_COUNT_COUNT p) = s.get (RAS_CE_COUNT_COUNT p) + 1)) ∧
    (∀ d : Byte, Ends (.memoryWriteBack p unit inst addr (some d)) s fun t =>
      storedWord t p unit inst addr = encodeByte d ∧ t.onchip.due.any (·.isAt p unit inst addr) = false) := by
  have hat : b.isAt p unit inst addr = true := by simpa using List.find?_some hfind
  refine ⟨⟨_, exec_memoryWriteBack hedge haddr hfind none, ?_⟩, fun d => ⟨_, exec_memoryWriteBack hedge haddr hfind (some d), ?_⟩⟩
  · exact ⟨fun hcase hfree => finishWriteBack_made hat _ hcase hfree, fun h => finishWriteBack_kept hat _ (.inr h),
      finishWriteBack_due b _ (undue_any ..), fun h => finishWriteBack_count hat _ _ h⟩
  · refine ⟨(finishWriteBack_kept hat _ (.inl rfl)).trans ?_, finishWriteBack_due b _ (undue_any ..)⟩
    exact storedWord_storeWord_same s.begin p unit inst addr (encodeByte d)

/-- Settles O17: the code corrects one upset bit and finds two; a read and a write-back follow its verdict. -/
theorem memoryReadsCorrectPoisonAndWriteBack : Obligations.MemoryReadsCorrectPoisonAndWriteBack := by
  unfold Obligations.MemoryReadsCorrectPoisonAndWriteBack
  refine ⟨⟨fun s p unit inst addr d rom cfg haddr hunit hcoded => ?_, fun s p inst addr d rom cfg h4 haddr hcoded => ?_⟩,
    fun s p unit inst addr b hedge haddr hfind => memoryWriteBack_ends hedge haddr hfind⟩
  · obtain ⟨hclean, hone⟩ := memoryRead_data (rom := rom) (cfg := cfg) haddr hunit hcoded
    refine ⟨hclean, hone, fun i hi j hj => ?_⟩
    obtain ⟨t, ht, hpoison, hlog, hdue, -⟩ := memoryRead_poison (rom := rom) (cfg := cfg) haddr hcoded hi hj
    exact ⟨t, ht, hpoison, hlog, hdue⟩
  · obtain ⟨hclean, hone⟩ := memoryRead_tree (rom := rom) (cfg := cfg) haddr hcoded
    refine ⟨hclean, hone, fun i hi j hj => ?_⟩
    obtain ⟨t, ht, hpoison, hlog, -, hcause⟩ := memoryRead_poison (unit := 68) (rom := rom) (cfg := cfg) haddr hcoded hi hj
    exact ⟨t, ht, hpoison, hlog, hcause h4 (part_of_tree h4 haddr)⟩

end Sys2Proof.Machine
end

section
/-! PROOFS. The watchers of the on-chip memories: slag entries, Flux, the configuration scrubber, checker tests, page scrubs (spec/04, R98 to
R107). -/

namespace Sys2Proof.Machine

/-! Frames of repeated changes, and fields outside an alert. -/

theorem frame_foldl {α : Type} {cs : List Comp} {fs : List Fld} {f : State → α → State} :
    ∀ (l : List α) (s : State), (∀ a ∈ l, ∀ u, Frame cs fs u (f u a)) → Frame cs fs s (l.foldl f s)
  | [], s, _ => Frame.refl s cs fs
  | a :: l, s, h => (h a List.mem_cons_self s).trans (frame_foldl l (f s a) fun b hb => h b (List.mem_cons_of_mem _ hb))

theorem frame_config (s : State) (c : Config) : Frame [.config] [] s { s with config := c } := by
  constructor <;> intros <;> first | rfl | simp_all

theorem key_not_alert {f : Fld} (h : f.key / 32 / 0x10000 ≠ 0x300000B) : f.key ∉ alertFlds.map Fld.key := fun hmem => h (alertFlds_block _ hmem)

theorem raiseRas_get {f g : Fld} (s : State) (hne : g.key ≠ f.key) (hblock : g.key / 32 / 0x10000 ≠ 0x300000B) :
    (raiseRas f s).get g = s.get g :=
  (frame_raiseLeaf 20 f s).get g (by
    rw [List.map_cons, List.mem_cons, not_or]
    exact ⟨hne, key_not_alert hblock⟩)

/-! Slag entries freed (R98). -/

/-- Of several writes of 0 those to a field leave it 0. -/
theorem get_puts_zero {f : Fld} : ∀ (l : List (Fld × Nat)) (s : State), (∀ x ∈ l, x.2 = 0 ∧ x.1.cold = f.cold) →
    f ∈ l.map Prod.fst ∨ s.get f = 0 → (s.puts l).get f = 0
  | [], _, _, h => h.resolve_left List.not_mem_nil
  | (g, v) :: l, s, hl, h => by
    obtain ⟨⟨hv, hcold⟩, hl⟩ := List.forall_mem_cons.1 hl
    rw [State.puts]
    refine get_puts_zero l _ hl ?_
    by_cases hkey : f.key = g.key
    · refine .inr ?_
      simp only at hv hcold
      simp only [State.get, State.put, hkey, smGet_smSet_same, hv, Nat.zero_mod, Nat.zero_xor, hcold, Nat.xor_self]
    · rw [get_put_other _ _ _ _ hkey]
      exact h.imp_left fun h => (List.mem_cons.1 h).resolve_left fun h => hkey (congrArg Fld.key h)

section
variable {p e : Nat} (hp : p < 21) (he : e < 32)

theorem frame_freeSlag (s : State) (p e : Nat) : Frame [] (RAS_SLAG_VALID_VALID p :: slagEntryFlds p e) s (freeSlag p e s) :=
  have hputs : ∀ l : List (Fld × Nat), l.map Prod.fst = slagEntryFlds p e →
      Frame [] (RAS_SLAG_VALID_VALID p :: slagEntryFlds p e) s (s.puts l) := fun l hl =>
    (frame_puts l s).mono (List.nil_subset _) fun _ hf => List.mem_cons_of_mem _ (hl ▸ hf)
  (hputs _ rfl).trans
    ((frame_putBit _ (RAS_SLAG_VALID_VALID p) e false).mono (List.nil_subset _) (List.forall_mem_singleton.2 List.mem_cons_self))

include hp

theorem slagEntry_apart {j : Nat} (hej : e ≠ j) {f : Fld} (hf : f ∈ slagEntryFlds p j) (hj : j < 32) :
    f.key ∉ (RAS_SLAG_VALID_VALID p :: slagEntryFlds p e).map Fld.key := by
  simp only [slagEntryFlds, List.map_cons, List.map_nil, List.mem_cons, List.not_mem_nil, or_false, RAS_SLAG_VALID_VALID, RAS_SLAG_UNIT,
    RAS_SLAG_INSTANCE, RAS_SLAG_AON, RAS_SLAG_CASE, RAS_SLAG_ADDR, RAS_SLAG_COUNT, RAS_SLAG_SYN, RAS_SLAG_TS_LO, RAS_SLAG_TS_HI] at hf ⊢
  rcases hf with rfl | rfl | rfl | rfl | rfl | rfl | rfl | rfl | rfl <;> dsimp only <;> omega

include he

theorem slagValid_not_entry : ∀ f ∈ slagEntryFlds p e, (RAS_SLAG_VALID_VALID p).key ≠ f.key := by
  simp only [slagEntryFlds, List.forall_mem_cons, List.not_mem_nil, false_imp_iff, implies_true, and_true, RAS_SLAG_VALID_VALID, RAS_SLAG_UNIT,
    RAS_SLAG_INSTANCE, RAS_SLAG_AON, RAS_SLAG_CASE, RAS_SLAG_ADDR, RAS_SLAG_COUNT, RAS_SLAG_SYN, RAS_SLAG_TS_LO, RAS_SLAG_TS_HI]
  omega

/-- An entry freed loses its valid bit, and no other entry does. -/
theorem freeSlag_bit (s : State) {j : Nat} (hj : j < 32) :
    (freeSlag p e s).bit (RAS_SLAG_VALID_VALID p) j = (s.bit (RAS_SLAG_VALID_VALID p) j && !decide (e = j)) := by
  have hputs : ∀ l : List (Fld × Nat), l.map Prod.fst = slagEntryFlds p e →
      (s.puts l).get (RAS_SLAG_VALID_VALID p) = s.get (RAS_SLAG_VALID_VALID p) := fun l hl =>
    get_puts_other _ l s fun x hx => slagValid_not_entry hp he _ (hl ▸ List.mem_map_of_mem hx)
  unfold freeSlag
  by_cases h : e = j
  · subst h
    rw [bit_putBit_same _ _ _ _ hj]
    simp
  · rw [bit_putBit_other _ _ _ _ _ (Ne.symm h) hj, State.bit, hputs _ rfl]
    simp [State.bit, h]

/-- An entry freed reads 0, and the fields of the others stand. -/
theorem freeSlag_get (s : State) {j : Nat} (hj : j < 32) {f : Fld} (hf : f ∈ slagEntryFlds p j) :
    (freeSlag p e s).get f = if e = j then 0 else s.get f := by
  split
  · next h =>
    subst h
    unfold freeSlag
    rw [State.putBit, get_put_other _ _ _ _ (slagValid_not_entry hp he _ hf).symm]
    refine get_puts_zero _ s (fun x hx => ?_) (.inl hf)
    have hcold : f.cold = 0 := by
      simp only [slagEntryFlds, List.mem_cons, List.not_mem_nil, or_false] at hf
      rcases hf with rfl | rfl | rfl | rfl | rfl | rfl | rfl | rfl | rfl <;> rfl
    simp only [List.mem_cons, List.not_mem_nil, or_false] at hx
    rcases hx with rfl | rfl | rfl | rfl | rfl | rfl | rfl | rfl | rfl <;> exact ⟨rfl, hcold.symm⟩
  · next h => exact (frame_freeSlag s p e).get _ (slagEntry_apart hp h hf hj)

end

/-- The entries of a list that a mask names, freed: of all 32, `freeSlags`. -/
def freeNamed (p mask : Nat) (l : List Nat) (s : State) : State := l.foldl (fun s e => if mask.testBit e then freeSlag p e s else s) s

theorem freeNamed_cons (p mask e : Nat) (l : List Nat) (s : State) :
    freeNamed p mask (e :: l) s = freeNamed p mask l (if mask.testBit e then freeSlag p e s else s) := rfl

theorem freeNamed_out (p mask : Nat) : ∀ (l : List Nat) (s : State), (freeNamed p mask l s).out = s.out
  | [], _ => rfl
  | e :: l, s => by
    rw [freeNamed_cons, freeNamed_out p mask l]
    split <;> rfl

theorem freeNamed_bit {p : Nat} (hp : p < 21) (mask : Nat) {j : Nat} (hj : j < 32) : ∀ (l : List Nat) (s : State), (∀ e ∈ l, e < 32) →
    (freeNamed p mask l s).bit (RAS_SLAG_VALID_VALID p) j = (s.bit (RAS_SLAG_VALID_VALID p) j && !(decide (j ∈ l) && mask.testBit j))
  | [], s, _ => by simp [freeNamed]
  | e :: l, s, h => by
    rw [freeNamed_cons, freeNamed_bit hp mask hj l _ fun a ha => h a (List.mem_cons_of_mem _ ha)]
    split
    · next hmask =>
      rw [freeSlag_bit hp (h e List.mem_cons_self) s hj]
      by_cases hej : e = j
      · subst hej
        simp [hmask]
      · simp [hej, Ne.symm hej]
    · next hmask =>
      by_cases hej : e = j
      · subst hej
        simp [hmask]
      · simp [Ne.symm hej]

/-- A field that freeing its own entry clears, and that freeing another leaves, is cleared where the mask names its entry. -/
theorem freeNamed_get {p : Nat} (mask : Nat) {j : Nat} {f : Fld}
    (hf : ∀ e < 32, ∀ s, (freeSlag p e s).get f = if e = j then 0 else s.get f) (hmask : mask.testBit j = true) :
    ∀ (l : List Nat) (s : State), (∀ e ∈ l, e < 32) → j ∈ l ∨ s.get f = 0 → (freeNamed p mask l s).get f = 0
  | [], _, _, h => h.resolve_left List.not_mem_nil
  | e :: l, s, hl, h => by
    rw [freeNamed_cons]
    refine freeNamed_get mask hf hmask l _ (fun a ha => hl a (List.mem_cons_of_mem _ ha)) ?_
    rw [List.mem_cons] at h
    by_cases hej : e = j
    · rw [hej, if_pos hmask, hf j (hej ▸ hl e List.mem_cons_self), if_pos rfl]
      exact .inr rfl
    · refine h.imp (fun h => h.resolve_left (Ne.symm hej)) fun h => ?_
      split
      · rw [hf e (hl e List.mem_cons_self), if_neg hej, h]
      · exact h

theorem frame_freeSlags (p mask : Nat) (s : State) :
    Frame [] (RAS_SLAG_VALID_VALID p :: (List.range 32).flatMap (slagEntryFlds p)) s (freeSlags p mask s) := by
  refine frame_foldl _ s fun e he u => ?_
  split
  · refine (frame_freeSlag u p e).mono (List.nil_subset _) (List.forall_mem_cons.2 ⟨List.mem_cons_self, fun f hf => ?_⟩)
    exact List.mem_cons_of_mem _ (List.mem_flatMap.2 ⟨e, he, hf⟩)
  · exact Frame.refl _ _ _

theorem slagEntryFree_ends (s : State) (req : Requester) (p : Part) (mask : Word)
    (hgate : regGate s req (0x0300000D0400 + p.val * 4) 4 true = .reach) :
    Ends (.slagEntryFree req p mask) s fun t => t.out = [.done] ∧
      (∀ e < 32, t.bit (RAS_SLAG_VALID_VALID p) e = (s.bit (RAS_SLAG_VALID_VALID p) e && !mask.getLsbD e)) ∧
      (∀ e < 32, mask.getLsbD e = true → t.get (RAS_SLAG_COUNT p e) = 0 ∧ t.get (RAS_SLAG_ADDR p e) = 0) ∧
      Frame [] (RAS_SLAG_VALID_VALID p :: (List.range 32).flatMap (slagEntryFlds p)) s t := by
  have hrange : ∀ e ∈ List.range 32, e < 32 := fun e => List.mem_range.1
  refine ends_guardedWrite hgate (freeSlags p.val mask.toNat) ⟨?_, fun e he => ?_, fun e he hmask => ⟨?_, ?_⟩, ?_⟩ rfl
  · exact congrArg (· ++ [Out.done]) (freeNamed_out p mask.toNat (List.range 32) s.begin)
  · refine (freeNamed_bit p.isLt mask.toNat he (List.range 32) s.begin hrange).trans ?_
    simp only [List.mem_range.2 he, decide_true, Bool.true_and]
    rfl
  · exact freeNamed_get (mask := mask.toNat) (fun a ha u => freeSlag_get p.isLt ha u he (by simp [slagEntryFlds])) hmask _ _ hrange (.inl (List.mem_range.2 he))
  · exact freeNamed_get (mask := mask.toNat) (fun a ha u => freeSlag_get p.isLt ha u he (by simp [slagEntryFlds])) hmask _ _ hrange (.inl (List.mem_range.2 he))
  · exact ((frame_freeSlags p mask.toNat s.begin).emit _).begin

/-! Flux (R100, R101). -/

/-- A key reads as one of its entries does, or as the default. -/
theorem smGet_eq_or_mem {α : Type} (d : α) (m : List (Nat × α)) (k : Nat) : smGet d m k = d ∨ (k, smGet d m k) ∈ m := by
  induction m with
  | nil => exact .inl rfl
  | cons e m ih =>
    obtain ⟨j, v⟩ := e
    rw [smGet]
    split
    · next h => exact .inr (h ▸ List.mem_cons_self)
    · exact ih.imp_right (List.mem_cons_of_mem _)

/-- Where every stored byte is validly coded and no memory is unfilled, every word is a code word. -/
theorem syndrome_storedWord {s : State} (hgood : ∀ e ∈ s.onchip.bytes, ∃ d, e.2 = encodeByte d) (hwild : s.onchip.wild = [])
    (p unit inst addr : Nat) : syndrome (storedWord s p unit inst addr) = 0 := by
  have hword : storedWord s p unit inst addr = smGet 0 s.onchip.bytes (byteKey p unit inst addr) := by
    rw [storedWord, wordAt, wildWord, hwild]
    exact BitVec.xor_zero
  rw [hword]
  rcases smGet_eq_or_mem 0 s.onchip.bytes (byteKey p unit inst addr) with h | h
  · rw [h, ← encodeByte_zero, syndrome_encodeByte]
  · obtain ⟨d, hd⟩ := hgood _ h
    exact (congrArg syndrome hd).trans (syndrome_encodeByte d)

/-- Flux's positions in a partition, moved on. -/
def fluxMoved (s : State) (p : Nat) : State :=
  { s with onchip := { s.onchip with
    fluxLag := ((fluxUnits p).filter (fun u => !fluxReads s p u)).foldl (fun l u => smSet 0 l (p * 2048 + u) (smGet 0 l (p * 2048 + u) + 1)) s.onchip.fluxLag
    fluxTotal := smSet 0 s.onchip.fluxTotal p (smGet 0 s.onchip.fluxTotal p + 1)
    fluxSteps := smSet 0 s.onchip.fluxSteps p ((smGet 0 s.onchip.fluxSteps p + 1) % passSteps p) } }

/-- Over code words a step of Flux moves the positions on, and counts a pass at its end. -/
theorem fluxAdvance_good {s : State} {p : Nat} (hgood : ∀ unit inst addr, syndrome (storedWord s p unit inst addr) = 0)
    (roms : List (Fin 2048 × Fin 128)) : fluxAdvance s p roms =
      if smGet 0 s.onchip.fluxSteps p + 1 == passSteps p then (fluxMoved s p).count (RAS_FLUX_STATUS_PASSES p) false else fluxMoved s p := by
  unfold fluxAdvance
  rw [List.foldl_fixed' fun e => by rw [checkedRead_good _ _ _ _ _ _ _ _ (hgood ..)]]
  rfl

theorem fluxStep_ends (s : State) (p : Part) (hactive : fluxActive s p = true) (hgood : ∀ e ∈ s.onchip.bytes, ∃ d, e.2 = encodeByte d)
    (hwild : s.onchip.wild = []) :
    Ends (.fluxStep p [] []) s fun t => t.onchip.bytes = s.onchip.bytes ∧ t.onchip.due = s.onchip.due ∧
      smGet 0 t.onchip.fluxTotal p = smGet 0 s.onchip.fluxTotal p + 1 ∧
      (smGet 0 s.onchip.fluxSteps p + 1 = passSteps p →
        t.get (RAS_FLUX_STATUS_PASSES p) = (s.get (RAS_FLUX_STATUS_PASSES p) + 1) % 2 ^ (RAS_FLUX_STATUS_PASSES p).w ∧
        smGet 0 t.onchip.fluxSteps p = 0) ∧
      Frame [.onchip] [RAS_FLUX_STATUS_PASSES p] s t := by
  have hadvance := fluxAdvance_good (s := s.begin) (p := p) (fun unit inst addr => syndrome_storedWord hgood hwild p unit inst addr) []
  refine ⟨fluxAdvance s.begin p [], ?_, ?_⟩
  · show execFluxStep p [] [] s = _
    exact if_pos (show fluxActive s.begin p = true from hactive)
  · have hframe : Frame [.onchip] [RAS_FLUX_STATUS_PASSES p] s (fluxMoved s.begin p) :=
      ((frame_onchip s.begin _).mono (fun _ h => h) (List.forall_mem_nil _)).begin
    have htotal : smGet 0 (fluxMoved s.begin p).onchip.fluxTotal p = smGet 0 s.onchip.fluxTotal p + 1 :=
      smGet_smSet_same 0 s.onchip.fluxTotal p.val (smGet 0 s.onchip.fluxTotal p + 1)
    have hsteps : smGet 0 (fluxMoved s.begin p).onchip.fluxSteps p = (smGet 0 s.onchip.fluxSteps p + 1) % passSteps p :=
      smGet_smSet_same 0 s.onchip.fluxSteps p.val _
    rw [hadvance]
    split
    · next hend =>
      refine ⟨rfl, rfl, htotal, fun h => ⟨get_put_same .., ?_⟩, hframe.trans ((frame_count _ _ false).mono (List.nil_subset _) fun _ h => h)⟩
      exact hsteps.trans (by rw [h, Nat.mod_self])
    · next hend => exact ⟨rfl, rfl, htotal, fun h => absurd h (by simpa using hend), hframe⟩

theorem fluxLate_ends (s : State) (p : Part) :
    Ends (.fluxLate p) s fun t => t.on (RAS_FLUX_STATUS_LATE p) = true ∧ t.on RAS_CAUSE_FLUX_LATE = true ∧ Alerted s t ∧
      Frame [.host] ([RAS_FLUX_STATUS_LATE p, RAS_CAUSE_FLUX_LATE] ++ alertFlds) s t := by
  have hp := p.isLt
  refine ⟨raiseRas RAS_CAUSE_FLUX_LATE (s.begin.flag (RAS_FLUX_STATUS_LATE p) true), rfl, ?_, raiseLeaf_on _ _ _ rfl (key_not_alert (by decide)),
    (alerted_of_host_eq rfl).trans (raiseLeaf_alerted ..), ?_⟩
  · rw [State.on, raiseRas_get]
    · exact on_flag_same _ _ _ rfl
    · simp only [RAS_FLUX_STATUS_LATE, RAS_CAUSE_FLUX_LATE]
      omega
    · simp only [RAS_FLUX_STATUS_LATE]
      omega
  · exact (((frame_flag s.begin _ true).mono (List.nil_subset _) (by simp)).trans
      ((frame_raiseLeaf 20 RAS_CAUSE_FLUX_LATE _).mono (fun _ h => h) fun _ h => List.mem_cons_of_mem _ h)).begin

/-! The configuration scrubber (R102). -/

/-- A byte of a frame that holds a code word is left as it is. -/
theorem scrubByte_good {s : State} {x frame byte : Nat} (h : syndrome (smGet 0 s.onchip.frames (frameKey x frame byte)) = 0) :
    scrubByte s x frame byte = s := by
  unfold scrubByte
  dsimp only
  rw [h, verdict_zero]

/-- A byte of a frame repaired and counted. -/
def frameRepaired (s : State) (k : Nat) (w : Coded) : State :=
  { s.count RAS_CFG_CE_COUNT with onchip := { s.onchip with frames := smSet 0 s.onchip.frames k w } }

theorem scrubByte_correctable {s : State} {x frame byte i : Nat}
    (h : verdict (syndrome (smGet 0 s.onchip.frames (frameKey x frame byte))) = .correctable i) :
    scrubByte s x frame byte = frameRepaired s (frameKey x frame byte) (flipBit (smGet 0 s.onchip.frames (frameKey x frame byte)) i) := by
  unfold scrubByte
  dsimp only
  rw [h]
  rfl

/-- The bytes of a frame at the keys of a list, scrubbed. -/
def scrubKeys (x frame : Nat) (l : List Nat) (s : State) : State := l.foldl (fun s k => scrubByte s x frame (k % 512)) s

theorem frameKey_mod {x frame k : Nat} (h : k / 512 = x * 12288 + frame) : frameKey x frame (k % 512) = k := by
  rw [frameKey]
  omega

theorem scrubKeys_good {x frame : Nat} {s : State} (hgood : ∀ k, syndrome (smGet 0 s.onchip.frames k) = 0) (l : List Nat) : scrubKeys x frame l s = s :=
  List.foldl_fixed' (fun _ => scrubByte_good (hgood _)) l

/-- Where one byte alone is not a code word and one bit of it is upset, scrubbing its frame repairs that byte once. -/
theorem scrubKeys_repairs {x frame k₀ i : Nat} {s : State} {w : Coded} (hk₀ : k₀ / 512 = x * 12288 + frame)
    (hupset : verdict (syndrome (smGet 0 s.onchip.frames k₀)) = .correctable i) (hflip : flipBit (smGet 0 s.onchip.frames k₀) i = w)
    (hw : syndrome w = 0) (hgood : ∀ k ≠ k₀, syndrome (smGet 0 s.onchip.frames k) = 0) :
    ∀ l : List Nat, (∀ k ∈ l, k / 512 = x * 12288 + frame) → k₀ ∈ l → scrubKeys x frame l s = frameRepaired s k₀ w
  | k :: l, hl, hmem => by
    obtain ⟨hk, hl⟩ := List.forall_mem_cons.1 hl
    have hkey := frameKey_mod hk
    rw [scrubKeys, List.foldl_cons]
    by_cases h : k = k₀
    · subst h
      rw [scrubByte_correctable (hkey.symm ▸ hupset), hkey, hflip]
      refine scrubKeys_good (fun j => ?_) l
      show syndrome (smGet 0 (smSet 0 s.onchip.frames k w) j) = 0
      by_cases hj : j = k
      · rw [hj, smGet_smSet_same, hw]
      · rw [smGet_smSet_other _ _ _ _ _ hj, hgood j hj]
    · rw [scrubByte_good (hkey.symm ▸ hgood k h)]
      exact scrubKeys_repairs hk₀ hupset hflip hw hgood l hl ((List.mem_cons.1 hmem).resolve_left (Ne.symm h))

/-- A state whose frame byte at a key has bits upset. -/
def frameByteUpset (s : State) (k : Nat) (u : Coded) : State :=
  { s with onchip := { s.onchip with frames := smSet 0 s.onchip.frames k (smGet 0 s.onchip.frames k ^^^ u) } }

/-- The keys of the bytes of a frame that are held. -/
def frameMet (s : State) (x frame : Nat) : List Nat := (s.onchip.frames.map (·.1)).filter (fun k => k / 512 == x * 12288 + frame)

/-- The scrubber's next frame of a sector. -/
def scrubMoved (s : State) (x frame : Nat) : State :=
  { s with onchip := { s.onchip with scrubPos := smSet 0 s.onchip.scrubPos x ((frame + 1) % 10496) } }

theorem exec_cfgScrubFrame {s : State} {sec : Sec} (hscrubs : scrubs s sec = true) (byte : Fin 512) (u : BitVec 13) :
    exec (.cfgScrubFrame sec [(byte, u)]) s =
      let x := sec.val
      let frame := smGet 0 s.onchip.scrubPos x
      let t := frameByteUpset s.begin (frameKey x frame byte) u
      .next (scrubMoved (scrubKeys x frame (frameMet t x frame) t) x frame) := by
  have hruns : ¬ (!scrubs (frameByteUpset s.begin (frameKey sec (smGet 0 s.onchip.scrubPos sec) byte) u) sec) = true := by
    have : scrubs (frameByteUpset s.begin (frameKey sec (smGet 0 s.onchip.scrubPos sec) byte) u) sec = true := hscrubs
    simp [this]
  exact if_neg hruns

theorem scrub_repairs {s : State} {x frame : Nat} {byte : Fin 512} {i : Nat} (hi : i < 13) (hgood : ∀ k, ∃ d, smGet 0 s.onchip.frames k = encodeByte d) :
    let k := frameKey x frame byte
    let t := frameByteUpset s k (BitVec.ofNat 13 (2 ^ i))
    scrubKeys x frame (frameMet t x frame) t = frameRepaired t k (smGet 0 s.onchip.frames k) := by
  intro k t
  obtain ⟨d, hd⟩ := hgood k
  have hbyte : k / 512 = x * 12288 + frame := by
    have := byte.isLt
    simp only [k, frameKey]
    omega
  have hword : smGet 0 t.onchip.frames k = encodeByte d ^^^ BitVec.ofNat 13 (2 ^ i) := hd ▸ smGet_smSet_same ..
  have hother : ∀ j ≠ k, smGet 0 t.onchip.frames j = smGet 0 s.onchip.frames j := fun j hj => smGet_smSet_other _ _ _ _ _ hj
  have hupset : verdict (syndrome (smGet 0 t.onchip.frames k)) = .correctable i := hword ▸ verdict_upset d hi
  have hmet : k ∈ frameMet t x frame := by
    refine List.mem_filter.2 ⟨?_, by simpa using hbyte⟩
    rcases smGet_eq_or_mem 0 t.onchip.frames k with h | h
    · rw [h, ← encodeByte_zero, syndrome_encodeByte, verdict_zero] at hupset
      cases hupset
    · exact List.mem_map.2 ⟨_, h, rfl⟩
  refine scrubKeys_repairs hbyte hupset (by rw [hword, flipBit_upset, hd]) (by rw [hd, syndrome_encodeByte]) (fun j hj => ?_) _
    (fun j hj => by simpa using (List.mem_filter.1 hj).2) hmet
  obtain ⟨c, hc⟩ := hgood j
  rw [hother j hj, hc, syndrome_encodeByte]

theorem cfgScrubFrame_ends (s : State) (sec : Sec) (byte : Fin 512) (i : Nat) (hscrubs : scrubs s sec = true) (hi : i < 13)
    (hgood : ∀ k, ∃ d, smGet 0 s.onchip.frames k = encodeByte d) (hcount : s.get RAS_CFG_CE_COUNT + 1 < 2 ^ RAS_CFG_CE_COUNT.w) :
    Ends (.cfgScrubFrame sec [(byte, BitVec.ofNat 13 (2 ^ i))]) s fun t => (∀ k, smGet 0 t.onchip.frames k = smGet 0 s.onchip.frames k) ∧
      t.get RAS_CFG_CE_COUNT = s.get RAS_CFG_CE_COUNT + 1 ∧
      smGet 0 t.onchip.scrubPos sec = (smGet 0 s.onchip.scrubPos sec + 1) % 10496 ∧ Frame [.onchip] [RAS_CFG_CE_COUNT] s t := by
  refine ⟨_, exec_cfgScrubFrame hscrubs byte _, ?_⟩
  rw [scrub_repairs (s := s.begin) hi hgood]
  generalize frameKey sec (smGet 0 s.onchip.scrubPos sec) byte = k
  generalize BitVec.ofNat 13 (2 ^ i) = u
  refine ⟨fun j => ?_, get_count (frameByteUpset s.begin k u) RAS_CFG_CE_COUNT true hcount, smGet_smSet_same .., ?_⟩
  · show smGet 0 (smSet 0 (smSet 0 s.onchip.frames k _) k (smGet 0 s.onchip.frames k)) j = _
    by_cases h : j = k
    · rw [h, smGet_smSet_same]
    · rw [smGet_smSet_other _ _ _ _ _ h, smGet_smSet_other _ _ _ _ _ h]
  · have hupset : Frame [.onchip] [RAS_CFG_CE_COUNT] s (frameByteUpset s.begin k u) :=
      ((frame_onchip s.begin _).mono (fun _ h => h) (List.forall_mem_nil _)).begin
    have hrepair := ((frame_count (frameByteUpset s.begin k u) RAS_CFG_CE_COUNT true).mono (ds := [.onchip]) (List.nil_subset _) fun _ h => h).trans
      ((frame_onchip _ (frameRepaired (frameByteUpset s.begin k u) k (smGet 0 s.onchip.frames k)).onchip).mono (fun _ h => h) (List.forall_mem_nil _))
    exact (hupset.trans hrepair).trans ((frame_onchip _ _).mono (fun _ h => h) (List.forall_mem_nil _))

/-! Checker tests (R106). -/

/-! The partition of a test is no input of what may be tested. -/

section
variable (s : State) (v : Nat)

theorem get_testPart {f : Fld} (h : f.key ≠ RAS_CHK_TEST_PART.key) : (s.put RAS_CHK_TEST_PART v).get f = s.get f := get_put_other _ _ _ _ h

theorem inEasy_testPart (p : Nat) : inEasy (s.put RAS_CHK_TEST_PART v) p = inEasy s p := by
  have hstate := get_testPart s v (f := PWR_PART_STATE p) (by simp only [PWR_PART_STATE, RAS_CHK_TEST_PART]; omega)
  simp only [inEasy, hstate]

theorem regionBusy_testPart (x : Nat) : regionBusy (s.put RAS_CHK_TEST_PART v) x = regionBusy s x := by
  simp only [regionBusy, State.on]
  rw [get_testPart s v (by simp only [FAB_SEC_STATUS_REGION_BUSY, RAS_CHK_TEST_PART]; omega)]

theorem gated_testPart (x : Nat) : gated (s.put RAS_CHK_TEST_PART v) x = gated s x := by
  simp only [gated, State.on]
  rw [get_testPart s v (by simp only [FAB_SEC_STATUS_GATED_USER, RAS_CHK_TEST_PART]; omega),
    get_testPart s v (by simp only [FAB_SEC_STATUS_GATED_GOV, RAS_CHK_TEST_PART]; omega)]

theorem islandSize_testPart {x : Nat} (hx : x < 128) : islandSize (s.put RAS_CHK_TEST_PART v) x = islandSize s x := by
  have hfuse := get_testPart s v (f := CLK_ISL_FUSE x) (by simp only [CLK_ISL_FUSE, RAS_CHK_TEST_PART]; omega)
  simp only [islandSize, hfuse]
  rfl

theorem leaderOf_testPart {x : Nat} (hx : x < 128) : leaderOf (s.put RAS_CHK_TEST_PART v) x = leaderOf s x := by
  simp only [leaderOf, islandSize_testPart s v hx]

theorem islHalted_testPart {x : Nat} (hx : x < 128) : islHalted (s.put RAS_CHK_TEST_PART v) x = islHalted s x := by
  have hleader : leaderOf s x < 128 := (Nat.div_mul_le_self x _).trans_lt hx
  have hhalt : ∀ d, (s.put RAS_CHK_TEST_PART v).get (DBG_ISL_HALT_SEC d) = s.get (DBG_ISL_HALT_SEC d) := fun d =>
    get_testPart s v (by simp only [DBG_ISL_HALT_SEC, RAS_CHK_TEST_PART]; omega)
  simp only [islHalted, membersOf, leaderOf_testPart s v hx, islandSize_testPart s v hleader, State.bit, hhalt]

theorem memoryEdge_testPart (p unit : Nat) : memoryEdge (s.put RAS_CHK_TEST_PART v) p unit = memoryEdge s p unit := by
  unfold memoryEdge
  split
  · have hx : 32 * p + unit % 32 < 128 := by omega
    simp only [islandFrozen, leaderOf_testPart s v hx, gated_testPart s v, inEasy_testPart s v, islHalted_testPart s v hx]
    rfl
  · simp only [inEasy_testPart s v]
    rfl

theorem isTestable_testPart {p unit : Nat} (hunit : unit ∈ fluxUnits p) :
    isTestable (s.put RAS_CHK_TEST_PART v) p unit = isTestable s p unit := by
  unfold isTestable fluxReads
  by_cases h4 : p < 4
  · have hx : 32 * p + unit < 128 := by
      rw [fluxUnits, if_pos h4, List.mem_range] at hunit
      omega
    simp only [if_pos h4, memoryEdge_testPart s v, regionBusy_testPart s v]
    rfl
  · simp only [h4, if_false, memoryEdge_testPart s v, decide_false, Bool.false_and]

end

/-- A test begun in a partition. -/
def checkerBegun (part : Nat) (s : State) : State :=
  { s.flag RAS_CHK_TEST_BUSY true with onchip := { s.onchip with
      chkSkipped := ((fluxUnits part).filter (· != aonUnit)).any (fun u => !isTestable s part u), chkPart := part
      chkLeft := (((fluxUnits part).filter (· != aonUnit)).filter (isTestable s part)).map (fun u => (u, 104)) } }

/-- GO alone, with no test running. -/
theorem checkerGo_idle {s : State} (hidle : s.on RAS_CHK_TEST_BUSY = false) {part : Nat} (hpart : part < 32) :
    checkerGo (part * 256 + 1) s =
      if part ≤ 20 then checkerBegun part (s.put RAS_CHK_TEST_PART part) else s.put RAS_CHK_TEST_PART part := by
  have hslice : slice (part * 256 + 1) 8 5 = part := by
    rw [slice, Nat.shiftRight_eq_div_pow]
    omega
  have hbit : ∀ i, 13 ≤ i → (part * 256 + 1).testBit i = false := fun i hi =>
    Nat.testBit_lt_two_pow (lt_of_lt_of_le (by omega : part * 256 + 1 < 2 ^ 13) (Nat.pow_le_pow_right (by decide) hi))
  unfold checkerGo
  rw [hidle, if_neg Bool.false_ne_true, hslice, hbit 13 le_rfl, hbit 14 (by decide)]
  rfl

/-- The memories of a unit are in the shadow of a test that has begun where they can be tested. -/
theorem inShadow_checkerBegun (s : State) {part unit : Nat} (hunit : unit ∈ fluxUnits part) (haon : unit ≠ aonUnit) :
    inShadow (checkerBegun part s) part unit = isTestable s part unit := by
  have hbusy : (checkerBegun part s).on RAS_CHK_TEST_BUSY = true := on_flag_same s RAS_CHK_TEST_BUSY true rfl
  have hpart : (checkerBegun part s).onchip.chkPart = part := rfl
  rw [inShadow, hbusy, hpart, Bool.true_and, beq_self_eq_true, Bool.true_and, Bool.eq_iff_iff, List.any_eq_true]
  simp only [checkerBegun, List.mem_map, List.mem_filter]
  constructor
  · rintro ⟨_, ⟨u, ⟨-, htest⟩, rfl⟩, hu⟩
    exact eq_of_beq hu ▸ htest
  · exact fun htest => ⟨_, ⟨unit, ⟨⟨hunit, by simpa using haon⟩, htest⟩, rfl⟩, beq_self_eq_true _⟩

theorem frame_checkerBegun (part : Nat) (s : State) : Frame [.onchip] [RAS_CHK_TEST_BUSY] s (checkerBegun part s) :=
  ((frame_flag s RAS_CHK_TEST_BUSY true).mono (List.nil_subset _) fun _ h => h).trans
    ((frame_onchip _ (checkerBegun part s).onchip).mono (fun _ h => h) (List.forall_mem_nil _))

theorem checkerTestGo_ends (s : State) (req : Requester) (part : BitVec 5) (hgate : regGate s req 0x0300000D0010 4 true = .reach)
    (hidle : s.on RAS_CHK_TEST_BUSY = false) :
    Ends (.checkerTestGo req part) s fun t => t.get RAS_CHK_TEST_PART = part.toNat ∧
      (t.on RAS_CHK_TEST_BUSY = true ↔ part.toNat ≤ 20) ∧
      (part.toNat ≤ 20 → ∀ u ∈ fluxUnits part.toNat, u ≠ aonUnit → inShadow t part.toNat u = isTestable s part.toNat u) ∧
      Frame [.onchip] [RAS_CHK_TEST_PART, RAS_CHK_TEST_BUSY] s t := by
  refine ends_guardedWrite hgate (checkerGo (part.toNat * 256 + 1)) ?_ rfl
  rw [checkerGo_idle (s := s.begin) hidle part.isLt]
  have hpart : (s.begin.put RAS_CHK_TEST_PART part.toNat).get RAS_CHK_TEST_PART = part.toNat :=
    (get_put_same ..).trans (Nat.mod_eq_of_lt part.isLt)
  have hbusy : (s.begin.put RAS_CHK_TEST_PART part.toNat).on RAS_CHK_TEST_BUSY = false := by
    rw [State.on, get_put_other _ _ _ _ (by decide)]
    exact hidle
  have htest : ∀ u ∈ fluxUnits part.toNat,
      isTestable (s.begin.put RAS_CHK_TEST_PART part.toNat) part.toNat u = isTestable s part.toNat u := fun u hu =>
    isTestable_testPart s.begin part.toNat hu
  have hframe : Frame [.onchip] [RAS_CHK_TEST_PART, RAS_CHK_TEST_BUSY] s (s.begin.put RAS_CHK_TEST_PART part.toNat) :=
    ((frame_put s.begin _ _).mono (List.nil_subset _) (by simp)).begin
  generalize s.begin.put RAS_CHK_TEST_PART part.toNat = t at hpart hbusy htest hframe ⊢
  split
  · next h =>
    have hbegun := frame_checkerBegun part.toNat t
    refine ⟨(hbegun.get _ (by decide)).trans hpart, iff_of_true (on_flag_same t RAS_CHK_TEST_BUSY true rfl) h, fun _ u hu haon => ?_,
      (hframe.trans (hbegun.mono (fun _ h => h) (by simp))).emit _⟩
    exact (inShadow_checkerBegun t hu haon).trans (htest u hu)
  · next h =>
    exact ⟨hpart, iff_of_false (by rw [show (t.emit .done).on RAS_CHK_TEST_BUSY = t.on RAS_CHK_TEST_BUSY from rfl, hbusy]; decide) h,
      fun h' => absurd h' h, hframe.emit _⟩

/-- A test ended: nothing is in the shadow, and what was skipped is told. -/
def checkerEnded (s : State) : State :=
  let t := (if s.onchip.chkSkipped then s.flag RAS_CHK_TEST_SKIPPED true else s).flag RAS_CHK_TEST_BUSY false
  { t with onchip := { t.onchip with chkLeft := [] } }

theorem exec_checkerTestDone {s : State} (hbusy : s.on RAS_CHK_TEST_BUSY = true) (fail : Bool) : exec (.checkerTestDone fail) s =
    .next (if fail then raiseRas RAS_CAUSE_CHK_FAIL ((checkerEnded s.begin).flag RAS_CHK_TEST_FAIL true) else checkerEnded s.begin) := by
  have hruns : ¬ (!s.begin.on RAS_CHK_TEST_BUSY) = true := by
    have : s.begin.on RAS_CHK_TEST_BUSY = true := hbusy
    simp [this]
  show execCheckerTestDone fail s = _
  refine (if_neg hruns).trans ?_
  cases fail <;> rfl

theorem checkerEnded_onchip (s : State) : (checkerEnded s).onchip = { s.onchip with chkLeft := [] } := by
  have honchip : (if s.onchip.chkSkipped then s.flag RAS_CHK_TEST_SKIPPED true else s).onchip = s.onchip := by
    split <;> rfl
  exact congrArg (fun x : Onchip => { x with chkLeft := [] }) honchip

theorem checkerEnded_skipped {s : State} (h : s.onchip.chkSkipped = true) : (checkerEnded s).on RAS_CHK_TEST_SKIPPED = true := by
  have hput : (checkerEnded s).on RAS_CHK_TEST_SKIPPED = ((s.flag RAS_CHK_TEST_SKIPPED true).flag RAS_CHK_TEST_BUSY false).on RAS_CHK_TEST_SKIPPED := by
    rw [checkerEnded, h]
    rfl
  rw [hput, on_flag_other _ _ _ _ (by decide), on_flag_same _ _ _ rfl]

theorem frame_checkerEnded (s : State) : Frame [.onchip] [RAS_CHK_TEST_SKIPPED, RAS_CHK_TEST_BUSY] s (checkerEnded s) := by
  have hskip : Frame [.onchip] [RAS_CHK_TEST_SKIPPED, RAS_CHK_TEST_BUSY] s (if s.onchip.chkSkipped then s.flag RAS_CHK_TEST_SKIPPED true else s) := by
    split
    · exact (frame_flag s _ true).mono (List.nil_subset _) (by simp)
    · exact Frame.refl _ _ _
  exact (hskip.trans ((frame_flag _ RAS_CHK_TEST_BUSY false).mono (List.nil_subset _) (by simp))).trans
    ((frame_onchip _ (checkerEnded s).onchip).mono (fun _ h => h) (List.forall_mem_nil _))

theorem checkerTestDone_ends (s : State) (fail : Bool) (hbusy : s.on RAS_CHK_TEST_BUSY = true) :
    Ends (.checkerTestDone fail) s fun t => t.on RAS_CHK_TEST_BUSY = false ∧
      (fail = true → t.on RAS_CHK_TEST_FAIL = true ∧ t.on RAS_CAUSE_CHK_FAIL = true) ∧
      (s.onchip.chkSkipped = true → t.on RAS_CHK_TEST_SKIPPED = true) ∧ Alerted s t ∧ (∀ p unit, inShadow t p unit = false) ∧
      t.onchip = { s.onchip with chkLeft := [] } ∧
      Frame [.host, .onchip] ([RAS_CHK_TEST_BUSY, RAS_CHK_TEST_FAIL, RAS_CHK_TEST_SKIPPED, RAS_CAUSE_CHK_FAIL] ++ alertFlds) s t := by
  refine ⟨_, exec_checkerTestDone hbusy fail, ?_⟩
  have hended : (checkerEnded s.begin).on RAS_CHK_TEST_BUSY = false := on_flag_same _ RAS_CHK_TEST_BUSY false rfl
  have hskipped : s.onchip.chkSkipped = true → (checkerEnded s.begin).on RAS_CHK_TEST_SKIPPED = true := checkerEnded_skipped (s := s.begin)
  have hframe : Frame [.host, .onchip] ([RAS_CHK_TEST_BUSY, RAS_CHK_TEST_FAIL, RAS_CHK_TEST_SKIPPED, RAS_CAUSE_CHK_FAIL] ++ alertFlds) s
      (checkerEnded s.begin) := ((frame_checkerEnded s.begin).mono (by simp) (by simp)).begin
  have hhost : (checkerEnded s.begin).host = s.host := ((frame_checkerEnded s.begin).host (by simp))
  have honchip : (checkerEnded s.begin).onchip = { s.onchip with chkLeft := [] } := checkerEnded_onchip s.begin
  generalize checkerEnded s.begin = t at hended hskipped hframe hhost honchip ⊢
  have hshadow : ∀ u : State, u.on RAS_CHK_TEST_BUSY = false → ∀ p unit, inShadow u p unit = false := fun u hu p unit => by
    simp only [inShadow, hu, Bool.false_and]
  cases fail with
  | false =>
    exact ⟨hended, fun h => absurd h Bool.false_ne_true, hskipped, alerted_of_host_eq hhost, hshadow t hended, honchip, hframe⟩
  | true =>
    have hflag := frame_flag t RAS_CHK_TEST_FAIL true
    have hraise := frame_raiseLeaf 20 RAS_CAUSE_CHK_FAIL (t.flag RAS_CHK_TEST_FAIL true)
    have hon : ∀ f : Fld, f.key ≠ RAS_CAUSE_CHK_FAIL.key → f.key / 32 / 0x10000 ≠ 0x300000B →
        (raiseRas RAS_CAUSE_CHK_FAIL (t.flag RAS_CHK_TEST_FAIL true)).on f = (t.flag RAS_CHK_TEST_FAIL true).on f := fun f hne hblock => by
      rw [State.on, raiseRas_get _ hne hblock, State.on]
    have hidle : (raiseRas RAS_CAUSE_CHK_FAIL (t.flag RAS_CHK_TEST_FAIL true)).on RAS_CHK_TEST_BUSY = false := by
      rw [hon _ (by decide) (by decide), on_flag_other _ _ _ _ (by decide), hended]
    refine ⟨hidle, fun _ => ⟨?_, raiseLeaf_on _ _ _ rfl (key_not_alert (by decide))⟩, fun h => ?_,
      (alerted_of_host_eq hhost).trans (Alerted.trans (alerted_of_host_eq rfl) (raiseLeaf_alerted ..)), hshadow _ hidle, ?_, ?_⟩
    · rw [if_pos rfl, hon _ (by decide) (by decide), on_flag_same _ _ _ rfl]
    · rw [if_pos rfl, hon _ (by decide) (by decide), on_flag_other _ _ _ _ (by decide), hskipped h]
    · exact (hraise.onchip (by simp)).trans honchip
    · exact (hframe.trans (hflag.mono (List.nil_subset _) (by simp))).trans (hraise.mono (by simp) (by simp; tauto))

/-! Page scrubs of the image memory. -/

theorem nvPageScrub_ends (s : State) (page : Fin 524288) (k : Nat) (ue : Bool) (hruns : runs s 180 = true) (hmoored : s.power.moored = false)
    (hbad : ue = true ∨ 40 < k) :
    Ends (.nvPageScrub (page, k) ue) s fun t => t.on CFG_CAUSE_NV_UE = true ∧ Alerted s t ∧
      (s.get CFG_NV_STATUS_UE_PAGES + 1 < 2 ^ CFG_NV_STATUS_UE_PAGES.w → t.get CFG_NV_STATUS_UE_PAGES = s.get CFG_NV_STATUS_UE_PAGES + 1) ∧
      t.config = { s.config with badPages := setAdd s.config.badPages page } ∧
      Frame [.host, .config] ([CFG_NV_STATUS_UE_PAGES, CFG_CAUSE_NV_UE] ++ alertFlds) s t := by
  have hacts : (runs s.begin 180 && !s.begin.power.moored && (ue || decide (40 < k))) = true := by
    have hruns : runs s.begin 180 = true := hruns
    simp [hruns, hmoored, hbad]
  have hcounted := frame_count s.begin CFG_NV_STATUS_UE_PAGES true
  have hpages := frame_config (s.begin.count CFG_NV_STATUS_UE_PAGES) { s.config with badPages := setAdd s.config.badPages page }
  have hconfig : (s.begin.count CFG_NV_STATUS_UE_PAGES).onConfig (fun c => { c with badPages := setAdd c.badPages page }) =
      { s.begin.count CFG_NV_STATUS_UE_PAGES with config := { s.config with badPages := setAdd s.config.badPages page } } := by
    rw [State.onConfig, hcounted.config (by simp)]
    rfl
  refine ⟨findBadPage page s.begin, ?_, ?_⟩
  · show execNvPageScrub (page, k) ue s = _
    rw [execNvPageScrub, if_pos hacts]
  · rw [findBadPage, hconfig]
    have hframe := hcounted.mono (ds := [.host, .config]) (gs := [CFG_NV_STATUS_UE_PAGES, CFG_CAUSE_NV_UE] ++ alertFlds) (List.nil_subset _) (by simp)
      |>.trans (hpages.mono (by simp) (List.forall_mem_nil _)) |>.begin
    have hcount : s.get CFG_NV_STATUS_UE_PAGES + 1 < 2 ^ CFG_NV_STATUS_UE_PAGES.w →
        (s.begin.count CFG_NV_STATUS_UE_PAGES).get CFG_NV_STATUS_UE_PAGES = s.get CFG_NV_STATUS_UE_PAGES + 1 := get_count s.begin _ true
    have hhost := (hpages.host (by simp)).trans (hcounted.host (by simp))
    generalize s.begin.count CFG_NV_STATUS_UE_PAGES = u at hpages hframe hcount hhost ⊢
    have hget := hpages.get CFG_NV_STATUS_UE_PAGES (by simp)
    have hset : ({ u with config := { s.config with badPages := setAdd s.config.badPages page } } : State).config =
      { s.config with badPages := setAdd s.config.badPages page } := rfl
    generalize ({ u with config := { s.config with badPages := setAdd s.config.badPages page } } : State) = t at hframe hhost hget hset ⊢
    have hraise := frame_raiseLeaf 22 CFG_CAUSE_NV_UE t
    refine ⟨raiseLeaf_on _ _ _ rfl (key_not_alert (by decide)), (alerted_of_host_eq hhost).trans (raiseLeaf_alerted ..), fun h => ?_,
      (hraise.config (by simp)).trans hset, hframe.trans (hraise.mono (by simp) fun _ h => List.mem_cons_of_mem _ h)⟩
    rw [raiseCfg, hraise.get _ (by decide), hget, hcount h]

/-- Settles O18: each watcher by the claim about its command. -/
theorem memoryWatchersRepairAndCount : Obligations.MemoryWatchersRepairAndCount := by
  unfold Obligations.MemoryWatchersRepairAndCount
  exact fun s => ⟨slagEntryFree_ends s, fun p hactive hgood _ hwild => fluxStep_ends s p hactive hgood hwild, fluxLate_ends s,
    cfgScrubFrame_ends s, checkerTestGo_ends s, fun fail hbusy => checkerTestDone_ends s fail hbusy, nvPageScrub_ends s⟩

end Sys2Proof.Machine
end

section
/-! PROOFS. Loads: where an attempt on a source leaves the loader, and what the failure of a full load records (R121 step F, R123). -/

namespace Sys2Proof.Machine

/-! Where an attempt on a source leaves the loader (R121 step F, R123, R126). -/

/-- The fields that show which source the loader reads or waits for. -/
def sourceFlds : List Fld := [CFG_STATUS_SOURCE, CFG_HLOAD_CTRL_ACTIVE, CFG_HLOAD_CTRL_WAITING, CFG_STATUS_STATE]

/-- The load of a slot of the image store. -/
def slotLoad (src : Nat) : Load := { src := src, isPart := false, addr := (src - 1) * storeSlotSize, inStore := true }

/-- A source is waited for, but for the cause that says so. -/
def awaiting (src : Nat) (s : State) : State :=
  (s.onConfig (fun c => { c with waitSrc := some src, stream := {} })).puts
    [(CFG_STATUS_SOURCE, src), (CFG_HLOAD_CTRL_ACTIVE, 0), (CFG_HLOAD_CTRL_WAITING, (src == 3).toNat),
      (CFG_STATUS_STATE, if src = 3 then 0xB else 0xC)]

theorem frame_raiseCfg (f : Fld) (s : State) : Frame [.host] (f :: alertFlds) s (raiseCfg f s) := frame_raiseLeaf 22 f s

theorem frame_onConfig (s : State) (f : Config → Config) : Frame [.config] [] s (s.onConfig f) := frame_config s _

theorem puts_config (s : State) (l : List (Fld × Nat)) : (s.puts l).config = s.config := (frame_puts l s).config (by simp)

theorem frame_waitOn_awaiting (src : Nat) (s : State) : Frame [.host] (CFG_CAUSE_HWAIT :: alertFlds) (awaiting src s) (waitOn src s) := by
  show Frame _ _ (awaiting src s) (if src = 3 then raiseCfg CFG_CAUSE_HWAIT (awaiting src s) else awaiting src s)
  split
  · exact frame_raiseCfg ..
  · exact Frame.refl ..

theorem frame_awaiting (src : Nat) (s : State) : Frame [.config] sourceFlds s (awaiting src s) :=
  ((frame_onConfig s _).mono (List.Subset.refl _) (by simp)).trans ((frame_puts _ _).mono (List.nil_subset _) (by simp [sourceFlds]))

theorem frame_beginLoad (l : Load) (s : State) : Frame [.config] sourceFlds s (beginLoad l s) :=
  ((frame_onConfig s _).mono (List.Subset.refl _) (by simp)).trans ((frame_puts _ _).mono (List.nil_subset _) (by simp [sourceFlds]))

theorem beginLoad_config (l : Load) (s : State) :
    (beginLoad l s).config = { s.config with load := some l, waitSrc := none, stream := {} } := puts_config _ _

theorem waitOn_config (src : Nat) (s : State) : (waitOn src s).config = { s.config with waitSrc := some src, stream := {} } :=
  ((frame_waitOn_awaiting src s).config (by simp)).trans (puts_config _ _)

/-- The loader waits for the host bus and for the Coxswain port. -/
theorem startSource_stream {src : Nat} (h : src = 3 ∨ src = 4) (s : State) : startSource src s = waitOn src s := if_pos h

/-- Any other source is a slot, which is read. -/
theorem startSource_slot {src : Nat} (h : ¬ (src = 3 ∨ src = 4)) (s : State) : startSource src s = beginLoad (slotLoad src) s := if_neg h

theorem frame_startSource (src : Nat) (s : State) :
    Frame [.host, .config] (sourceFlds ++ CFG_CAUSE_HWAIT :: alertFlds) s (startSource src s) := by
  by_cases h : src = 3 ∨ src = 4
  · rw [startSource_stream h]
    exact ((frame_awaiting src s).mono (by simp) (by simp +contextual)).trans ((frame_waitOn_awaiting src s).mono (by simp) (by simp +contextual))
  · rw [startSource_slot h]
    exact (frame_beginLoad _ s).mono (by simp) (by simp +contextual)

theorem waitOn_get {src : Nat} (s : State) {f : Fld} (h : f ∈ sourceFlds) : (waitOn src s).get f = (awaiting src s).get f :=
  (frame_waitOn_awaiting src s).get f (by
    have key : ∀ f ∈ sourceFlds, f.key ∉ (CFG_CAUSE_HWAIT :: alertFlds).map Fld.key := by decide
    exact key f h)

theorem waitOn_source (src : Nat) (s : State) : (waitOn src s).get CFG_STATUS_SOURCE = src % 8 := by
  rw [waitOn_get s (by simp [sourceFlds]), awaiting, get_puts_last _ _ _ _ (by simp; decide)]
  rfl

theorem waitOn_state (src : Nat) (s : State) : (waitOn src s).get CFG_STATUS_STATE = if src = 3 then 0xB else 0xC := by
  rw [waitOn_get s (by simp [sourceFlds]), awaiting, State.puts, State.puts, State.puts, get_puts_last _ _ _ _ (by simp)]
  split <;> rfl

theorem beginLoad_source (l : Load) (s : State) : (beginLoad l s).get CFG_STATUS_SOURCE = l.src % 8 := by
  rw [beginLoad, get_puts_last _ _ _ _ (by simp; decide)]
  rfl

theorem beginLoad_state (l : Load) (s : State) : (beginLoad l s).get CFG_STATUS_STATE = 2 := by
  rw [beginLoad, State.puts, State.puts, State.puts, get_puts_last _ _ _ _ (by simp)]
  rfl

theorem startSource_config (src : Nat) (s : State) : ∃ load wait,
    (startSource src s).config = { s.config with load := load, waitSrc := wait, stream := {} } := by
  by_cases h : src = 3 ∨ src = 4
  · exact ⟨_, _, by rw [startSource_stream h, waitOn_config]⟩
  · exact ⟨_, _, by rw [startSource_slot h, beginLoad_config]⟩

theorem startSource_source (src : Nat) (s : State) : (startSource src s).get CFG_STATUS_SOURCE = src % 8 := by
  by_cases h : src = 3 ∨ src = 4
  · rw [startSource_stream h, waitOn_source]
  · rw [startSource_slot h, beginLoad_source]
    rfl

/-- An attempt on a source of a boot order has begun (R123). -/
theorem startSource_attempts {src : Nat} (h : src < 8) (s : State) : Attempts src (startSource src s) := by
  refine ⟨(startSource_source src s).trans (Nat.mod_eq_of_lt h), fun hstream => ?_, fun hslot => ?_⟩
  · rw [startSource_stream hstream, waitOn_config, waitOn_state]
    exact ⟨rfl, rfl⟩
  · rw [startSource_slot (by omega), beginLoad_config, beginLoad_state]
    exact ⟨rfl, rfl⟩

/-! What the failure of an attempt records (R121 step F). -/

/-- The fields that name the cause of a failure, by source and for the last one. -/
def failureFlds : List Fld := [CFG_STATUS_CAUSE, CFG_FAIL_A, CFG_FAIL_B, CFG_FAIL_HOST, CFG_FAIL_DBG]

/-- The cause's register of a source, where it has one. -/
def failureOf : Nat → List Fld
  | 1 => [CFG_FAIL_A]
  | 2 => [CFG_FAIL_B]
  | 3 | 5 => [CFG_FAIL_HOST]
  | 4 => [CFG_FAIL_DBG]
  | _ => []

theorem recordFailure_eq (src cause : Nat) (s : State) : recordFailure src cause s =
    raiseCfg CFG_CAUSE_FAIL (s.puts ((CFG_STATUS_CAUSE, cause) :: (failureOf src).map (·, cause))) := by
  have key : ∀ {u v : State}, u = v → raiseCfg CFG_CAUSE_FAIL u = raiseCfg CFG_CAUSE_FAIL v := congrArg _
  refine key ?_
  rcases src with _ | _ | _ | _ | _ | _ | n <;> rfl

theorem failureOf_subset (src : Nat) : ∀ f ∈ failureOf src, f ∈ failureFlds ∧ f ≠ CFG_STATUS_CAUSE ∧ f.w = 8 := by
  unfold failureOf
  split <;> simp [failureFlds] <;> decide

theorem frame_recordFailure (src cause : Nat) (s : State) :
    Frame [.host] (failureFlds ++ CFG_CAUSE_FAIL :: alertFlds) s (recordFailure src cause s) := by
  rw [recordFailure_eq]
  refine ((frame_puts _ s).mono (List.nil_subset _) fun f hf => List.mem_append_left _ ?_).trans
    ((frame_raiseCfg ..).mono (List.Subset.refl _) (by simp +contextual))
  simp only [List.map_cons, List.map_map, List.mem_cons, List.mem_map] at hf
  rcases hf with rfl | ⟨g, hg, rfl⟩
  · simp [failureFlds]
  · exact (failureOf_subset src g hg).1

theorem recordFailure_get (src cause : Nat) (s : State) {f : Fld} (h : f ∈ failureFlds) : (recordFailure src cause s).get f =
    (s.puts ((CFG_STATUS_CAUSE, cause) :: (failureOf src).map (·, cause))).get f := by
  have key : ∀ f ∈ failureFlds, f.key ∉ (CFG_CAUSE_FAIL :: alertFlds).map Fld.key := by decide
  rw [recordFailure_eq, (frame_raiseCfg ..).get f (key f h)]

theorem recordFailure_cause {cause : Nat} (h : cause < 2 ^ 8) (src : Nat) (s : State) :
    (recordFailure src cause s).get CFG_STATUS_CAUSE = cause := by
  have key : ∀ f ∈ failureFlds, f ≠ CFG_STATUS_CAUSE → CFG_STATUS_CAUSE.key ≠ f.key := by decide
  rw [recordFailure_get _ _ _ (by simp [failureFlds]), get_puts_last]
  · exact Nat.mod_eq_of_lt h
  · intro e he
    obtain ⟨f, hf, rfl⟩ := List.mem_map.1 he
    obtain ⟨hmem, hne, -⟩ := failureOf_subset src f hf
    exact key f hmem hne

/-- The source's own register shows the cause. -/
theorem recordFailure_source {src cause : Nat} {f : Fld} (h : failureOf src = [f]) (hc : cause < 2 ^ 8) (s : State) :
    (recordFailure src cause s).get f = cause := by
  obtain ⟨hmem, -, hw⟩ := failureOf_subset src f (h ▸ List.mem_singleton_self f)
  rw [recordFailure_get _ _ _ hmem, h, List.map_singleton, State.puts, get_puts_last _ _ _ _ (by simp), hw]
  exact Nat.mod_eq_of_lt hc

theorem recordFailure_on (src cause : Nat) (s : State) : (recordFailure src cause s).on CFG_CAUSE_FAIL = true := by
  rw [recordFailure_eq]
  exact raiseLeaf_on _ _ _ rfl (by decide)

/-- The clear that follows a failure behind step 3: what was written is gone, and the next source's attempt is due. -/
def failureClears (next : Nat) (s : State) : State :=
  ((clearSectors (List.range 128) s).onConfig (fun c => { c with next := some next })).puts [(CFG_STATUS_STATE, 6), (CFG_HLOAD_CTRL_ACTIVE, 0)]

/-- The failure of a full load, recorded. -/
def failureRecorded (l : Load) (cause : Nat) (s : State) : State :=
  recordFailure l.src cause (s.onConfig (fun c => { c with load := none, loading := false }))

/-- A full load fails: the cause is recorded, and either the clear or the next source follows. -/
theorem loadFails_full {s : State} {l : Load} (hload : s.config.load = some l) (hfull : l.isPart = false) (cause : Nat) :
    loadFails cause s = if s.config.loading then failureClears (sourceAfter (bootOrder s) l.src) (failureRecorded l cause s)
      else startSource (sourceAfter (bootOrder s) l.src) (failureRecorded l cause s) := by
  simp only [loadFails, hload, hfull]
  rfl

theorem frame_clearSectors (xs : List Nat) (s : State) : Frame [.onchip, .config] [] s (clearSectors xs s) := by
  constructor <;> intros <;> first | rfl | simp_all

theorem frame_failureClears (next : Nat) (s : State) : Frame [.onchip, .config] sourceFlds s (failureClears next s) :=
  (((frame_clearSectors _ s).mono (List.Subset.refl _) (by simp)).trans ((frame_onConfig _ _).mono (by simp) (by simp))).trans
    ((frame_puts _ _).mono (List.nil_subset _) (by simp [sourceFlds]))

theorem failureRecorded_config (l : Load) (cause : Nat) (s : State) :
    (failureRecorded l cause s).config = { s.config with load := none, loading := false } :=
  (frame_recordFailure ..).config (by simp)

theorem failureClears_config (next : Nat) (s : State) : ∃ shadow,
    (failureClears next s).config = { s.config with shadow := shadow, next := some next } := ⟨_, puts_config _ _⟩

/-- Of the cleared sectors no frame byte is left. -/
theorem smGet_filter_none {α : Type} (d : α) (f : Nat → Bool) {k : Nat} (h : f k = false) : ∀ m : List (Nat × α),
    smGet d (m.filter (fun e => f e.1)) k = d
  | [] => rfl
  | (j, v) :: m => by
    rw [List.filter_cons]
    split
    · next hj =>
      have hne : j ≠ k := by rintro rfl; simp_all
      rw [smGet, if_neg hne, smGet_filter_none d f h m]
    · exact smGet_filter_none d f h m

theorem clearSectors_frames {x k : Nat} {xs : List Nat} (h : k / 512 / 12288 = x) (hx : x ∈ xs) (s : State) :
    smGet 0 (clearSectors xs s).onchip.frames k = 0 :=
  smGet_filter_none 0 (fun k => !xs.contains (k / 512 / 12288)) (by simp [h, hx]) s.onchip.frames

theorem failureClears_frames (next : Nat) (s : State) {k : Nat} (h : k / 512 / 12288 < 128) :
    smGet 0 (failureClears next s).onchip.frames k = 0 := by
  have hchip : (failureClears next s).onchip = (clearSectors (List.range 128) s).onchip :=
    ((frame_puts _ _).onchip (by simp)).trans ((frame_onConfig _ _).onchip (by simp))
  rw [hchip]
  exact clearSectors_frames rfl (List.mem_range.2 h) s

theorem failureClears_state (next : Nat) (s : State) : (failureClears next s).get CFG_STATUS_STATE = 6 := by
  rw [failureClears, get_puts_last _ _ _ _ (by simp; decide)]
  rfl

/-- What is recorded of a failure stands through what follows it. -/
structure StillRecorded (t u : State) : Prop where
  get : ∀ f ∈ failureFlds, u.get f = t.get f
  on : u.on CFG_CAUSE_FAIL = t.on CFG_CAUSE_FAIL

theorem stillRecorded_of_frame {cs : List Comp} {fs : List Fld} {t u : State} (h : Frame cs fs t u)
    (hf : fs ⊆ sourceFlds ++ CFG_CAUSE_HWAIT :: alertFlds) : StillRecorded t u := by
  have key : ∀ f ∈ CFG_CAUSE_FAIL :: failureFlds, f.key ∉ (sourceFlds ++ CFG_CAUSE_HWAIT :: alertFlds).map Fld.key := by decide
  have hget : ∀ f ∈ CFG_CAUSE_FAIL :: failureFlds, u.get f = t.get f := fun f hm =>
    h.get f fun hk => key f hm (List.map_subset _ hf hk)
  exact ⟨fun f hm => hget f (List.mem_cons_of_mem _ hm), by rw [State.on, State.on, hget _ List.mem_cons_self]⟩

theorem loadFails_records {s : State} {l : Load} (hload : s.config.load = some l) (hfull : l.isPart = false) (cause : Nat) :
    StillRecorded (failureRecorded l cause s) (loadFails cause s) := by
  rw [loadFails_full hload hfull]
  split
  · exact stillRecorded_of_frame (frame_failureClears ..) (by simp)
  · exact stillRecorded_of_frame (frame_startSource ..) (List.Subset.refl _)

theorem loadFails_config {s : State} {l : Load} (hload : s.config.load = some l) (hfull : l.isPart = false) (cause : Nat) :
    (loadFails cause s).config.loading = false ∧ (loadFails cause s).config.badPages = s.config.badPages := by
  rw [loadFails_full hload hfull]
  split
  · obtain ⟨_, h⟩ := failureClears_config (sourceAfter (bootOrder s) l.src) (failureRecorded l cause s)
    rw [h, failureRecorded_config]
    exact ⟨rfl, rfl⟩
  · obtain ⟨_, _, h⟩ := startSource_config (sourceAfter (bootOrder s) l.src) (failureRecorded l cause s)
    rw [h, failureRecorded_config]
    exact ⟨rfl, rfl⟩

theorem bootOrder_congr {s t : State} (h : t.get RST_STRAP_BOOT_SEL = s.get RST_STRAP_BOOT_SEL) : bootOrder t = bootOrder s := by
  simp only [bootOrder, h]

/-- What a failure of a full load `l` depends on stands in `u` as in `s`. -/
structure SameLoad (l : Load) (s u : State) : Prop where
  load : u.config.load = some l
  loading : u.config.loading = s.config.loading
  order : bootOrder u = bootOrder s

/-- The failure of a full load (step F of R121), from a state that differs from the one before it in nothing that counts here. -/
theorem loadFails_failed {s u : State} {l : Load} (h : SameLoad l s u) (hfull : l.isPart = false) {cause : Nat} (hc : cause < 2 ^ 8) :
    LoadFailed l cause s (loadFails cause u) := by
  obtain ⟨hload, hloading, horder⟩ := h
  have hrec := loadFails_records hload hfull cause
  have hsource : ∀ f, failureOf l.src = [f] → f ∈ failureFlds → (loadFails cause u).get f = cause := fun f hf hm =>
    (hrec.get f hm).trans (recordFailure_source hf hc _)
  refine ⟨?_, ?_, (loadFails_config hload hfull cause).1, fun h => ?_, fun h => ?_, fun h => ?_, fun h => ?_, fun h => ?_, fun h => ?_⟩
  · exact (hrec.get _ (by simp [failureFlds])).trans (recordFailure_cause hc _ _)
  · exact hrec.on.trans (recordFailure_on ..)
  · exact hsource _ (by rw [h]; rfl) (by simp [failureFlds])
  · exact hsource _ (by rw [h]; rfl) (by simp [failureFlds])
  · exact hsource _ (by rw [h]; rfl) (by simp [failureFlds])
  · exact hsource _ (by rw [h]; rfl) (by simp [failureFlds])
  · rw [loadFails_full hload hfull, if_pos (hloading.trans h), horder]
    obtain ⟨_, hconfig⟩ := failureClears_config (sourceAfter (bootOrder s) l.src) (failureRecorded l cause u)
    rw [hconfig, failureRecorded_config]
    exact ⟨rfl, rfl, failureClears_state .., fun _ => failureClears_frames _ _⟩
  · rw [loadFails_full hload hfull, if_neg (by simp [hloading, h]), horder]
    refine ⟨startSource_source .., fun hstream => ?_, fun hslot => ?_⟩
    · rw [startSource_stream hstream, waitOn_config, failureRecorded_config]
      exact ⟨rfl, rfl⟩
    · rw [startSource_slot (by omega), beginLoad_config, beginLoad_state]
      exact ⟨rfl, rfl⟩

end Sys2Proof.Machine
end

section
/-! PROOFS. Where loads begin, and how their sources end them (R123 to R127). -/

namespace Sys2Proof.Machine

/-! Reading a source: the store's bad pages (R109, R112). -/

theorem frame_findBadPage (p : Nat) (s : State) :
    Frame [.host, .config] (CFG_NV_STATUS_UE_PAGES :: CFG_CAUSE_NV_UE :: alertFlds) s (findBadPage p s) :=
  (((frame_count s _ true).mono (List.nil_subset _) (by simp)).trans ((frame_onConfig _ _).mono (by simp) (by simp))).trans
    ((frame_raiseCfg ..).mono (by simp) (by simp +contextual))

theorem findBadPage_config (p : Nat) (s : State) :
    (findBadPage p s).config = { s.config with badPages := setAdd s.config.badPages p } := by
  rw [findBadPage, (frame_raiseCfg ..).config (by simp), State.onConfig_config, (frame_count ..).config (by simp)]

/-- A full load's read of its image leaves the state as it is, or finds a bad page. -/
theorem readCause_state {l : Load} (hfull : l.isPart = false) (o n : Nat) (r : SourceRead) (s : State) :
    (readCause l o n r s).2 = s ∨ ∃ p, (readCause l o n r s).2 = findBadPage p s := by
  unfold readCause
  dsimp only
  split
  · split
    · exact .inr ⟨_, rfl⟩
    · exact .inl rfl
  · exact .inl rfl
  · simp [hfull]
  · exact .inr ⟨_, rfl⟩
  · exact .inl rfl

/-! MEM records written into on-chip memory (R125, R255). -/

theorem frame_pathStore (s : State) (p unit inst addr : Nat) (w : Coded) : Frame [.onchip] [] s (pathStore s p unit inst addr w) :=
  (frame_storeWord s p unit inst addr w).trans (frame_onchip _ _)

theorem frame_pathWrite (p unit inst : Nat) : ∀ (l : List Byte) (addr : Nat) (s : State), Frame [.onchip] [] s (pathWrite p unit inst addr l s)
  | [], _, s => Frame.refl s _ _
  | _ :: l, _, _ => (frame_pathStore ..).trans (frame_pathWrite p unit inst l _ _)

theorem frame_pathWriteBanks (p unit size : Nat) :
    ∀ (l : List Byte) (addr : Nat) (s : State), Frame [.onchip] [] s (pathWriteBanks p unit size addr l s)
  | [], _, s => Frame.refl s _ _
  | _ :: l, _, _ => (frame_pathWrite ..).trans (frame_pathWriteBanks p unit size l _ _)

theorem frame_writeBamidRecord (r : MemRecord) (s : State) : Frame [.onchip] [] s (writeBamidRecord r s) := by
  unfold writeBamidRecord
  dsimp only
  split
  · refine frame_foldl _ s fun g _ u => ?_
    split
    · exact frame_pathWrite ..
    · exact Frame.refl ..
  · exact frame_pathWriteBanks ..

/-! A copy of Bamid (R125). -/

/-- The load of Bamid is due no more or as before. -/
abbrev KeepsDue (s t : State) : Prop := t.config.bamidDue = s.config.bamidDue

theorem keepsDue_of_frame {cs : List Comp} {fs : List Fld} {s t : State} (h : Frame cs fs s t) (hc : .config ∉ cs) : KeepsDue s t :=
  congrArg Config.bamidDue (h.config hc)

theorem readCause_due {l : Load} (hfull : l.isPart = false) (o n : Nat) (r : SourceRead) (s : State) : KeepsDue s (readCause l o n r s).2 := by
  rcases readCause_state hfull o n r s with h | ⟨p, h⟩
  · rw [h]
  · rw [h, KeepsDue, findBadPage_config]

/-- The first 8 KiB of a copy of Bamid come from the store. -/
theorem memHeader_bamid (k : Nat) (c : ImgChecks) (s : State) : ∃ h, memHeader (bamidSource k) 0 c s =
    (((readCause (bamidSource k) 0 0x2000 c.read s).1.or (headerCause (readCause (bamidSource k) 0 0x2000 c.read s).2 (bamidSource k) (parseHeader h))).or
      (signatureCause (readCause (bamidSource k) 0 0x2000 c.read s).2 h c.sig), h, (readCause (bamidSource k) 0 0x2000 c.read s).2) :=
  ⟨storeNum s (bamidSource k).addr 0x2000, rfl⟩

theorem memChecks_state (l : Load) (h : Nat) (good : MemRecord → Bool) (c : ImgChecks) (rs : List (Word × MemRecord)) (s : State) :
    (memChecks l h good c rs s).2.2 = (readCause l 0x2000 (parseHeader h).payloadLen.toNat c.read s).2 := rfl

theorem tryBamid_due (k : Nat) (c : BamidCopy) (s : State) : KeepsDue s (tryBamid k c s).2.2 := by
  obtain ⟨h, hhead⟩ := memHeader_bamid k c.checks s
  have hread : KeepsDue s (memHeader (bamidSource k) 0 c.checks s).2.2 := by
    rw [hhead]
    exact readCause_due rfl ..
  unfold tryBamid
  split
  · next cause h' t ht => rw [ht] at hread; exact hread
  · next h' t ht =>
    rw [ht] at hread
    have hwritten : ∀ (rs : List MemRecord) (u : State), KeepsDue u (rs.foldl (fun s r => writeBamidRecord r s) u) := fun rs u =>
      keepsDue_of_frame (frame_foldl rs u fun r _ v => frame_writeBamidRecord r v) (by simp)
    refine Eq.trans (hwritten _ _) (Eq.trans ?_ hread)
    rw [memChecks_state]
    exact readCause_due rfl ..

/-- A copy whose source cannot be read fails with 0x13. -/
theorem tryBamid_unread (k : Nat) (c : BamidCopy) (s : State) (h : c.checks.read = .failed) : (tryBamid k c s).1 = some 0x13 := by
  obtain ⟨hd, hhead⟩ := memHeader_bamid k c.checks s
  have hcause : (memHeader (bamidSource k) 0 c.checks s).1 = some 0x13 := by
    rw [hhead, h]
    rfl
  unfold tryBamid
  split
  · next ht => rw [ht] at hcause; exact hcause
  · next ht => rw [ht] at hcause; cases hcause

/-! Engines released (R125, R202). -/

/-- The fields of an engine that its release may touch, and the power state of its partition. -/
def releaseFlds (g : Nat) : List Fld := [ENG_BOOT_PC g, ENG_CTRL_RUN g, ENG_STATUS_STATE g, ENG_DBG_HALTED g, PWR_PART_STATE (engPart g),
  ENG_DBG_PENDING g, ENG_DBG_DEFERRED g]

/-- One engine released at ENG_BOOT.PC = 0. -/
def runEngine (s : State) (g : Nat) : State := startCore g 0 (s.puts [(ENG_BOOT_PC g, 0), (ENG_CTRL_RUN g, 1)])

/-- The engine runs. -/
def Running (g : Nat) (t : State) : Prop := t.get (ENG_STATUS_STATE g) = 1 ∧ t.on (ENG_CTRL_RUN g) = true

theorem Running.of_frame {cs : List Comp} {fs : List Fld} {g : Nat} {s t : State} (hr : Running g s) (h : Frame cs fs s t)
    (hs : (ENG_STATUS_STATE g).key ∉ fs.map Fld.key) (hc : (ENG_CTRL_RUN g).key ∉ fs.map Fld.key) : Running g t :=
  ⟨(h.get _ hs).trans hr.1, by rw [State.on, h.get _ hc]; exact hr.2⟩

/-- The core as it begins, before a halt request that waits for its first instruction. -/
def coreBegun (g code : Nat) (s : State) : State :=
  (s.setEng g { (s.eng g).coreReset with pc := BitVec.ofNat 32 (s.get (ENG_BOOT_PC g) * 4), ecause := BitVec.ofNat 32 code }).puts
    [(ENG_STATUS_STATE g, 1), (ENG_DBG_HALTED g, 0)]

theorem frame_coreBegun (g code : Nat) (s : State) : Frame [.engines] [ENG_STATUS_STATE g, ENG_DBG_HALTED g] s (coreBegun g code s) :=
  ((frame_setEng s g _).mono (List.Subset.refl _) (by simp)).trans ((frame_puts _ _).mono (List.nil_subset _) (by simp))

theorem frame_startCore_begun (g code : Nat) (s : State) : Frame [.power, .engines]
    [PWR_PART_STATE (engPart g), ENG_DBG_PENDING g, ENG_DBG_DEFERRED g] (coreBegun g code s) (startCore g code s) := by
  show Frame _ _ _ (if (coreBegun g code s).on (ENG_DBG_HOR g) then haltRequest g 6 0 (coreBegun g code s) else coreBegun g code s)
  split
  · exact frame_haltRequest ..
  · exact Frame.refl ..

theorem frame_runEngine (s : State) (g : Nat) : Frame [.power, .engines] (releaseFlds g) s (runEngine s g) :=
  (((frame_puts _ s).mono (List.nil_subset _) (by simp [releaseFlds])).trans ((frame_coreBegun g 0 _).mono (by simp) (by simp [releaseFlds]))).trans
    ((frame_startCore_begun g 0 _).mono (List.Subset.refl _) (by simp [releaseFlds]))

theorem runEngine_running {g : Nat} (hg : g ∈ hubEngines) (s : State) : Running g (runEngine s g) := by
  have hbegun : ∀ u : State, u.on (ENG_CTRL_RUN g) = true → Running g (coreBegun g 0 u) := fun u hrun => by
    refine ⟨?_, ?_⟩
    · rw [coreBegun, get_puts_last _ _ _ _ (by simp [ENG_STATUS_STATE, ENG_DBG_HALTED])]
      rfl
    · rw [State.on, (frame_coreBegun g 0 u).get _ (by simp [ENG_STATUS_STATE, ENG_DBG_HALTED, ENG_CTRL_RUN])]
      exact hrun
  have hrun : (s.puts [(ENG_BOOT_PC g, 0), (ENG_CTRL_RUN g, 1)]).on (ENG_CTRL_RUN g) = true := by
    rw [State.puts, State.on, get_puts_last _ _ _ _ (by simp)]
    rfl
  have key : ∀ g ∈ hubEngines, ∀ f ∈ [ENG_STATUS_STATE g, ENG_CTRL_RUN g],
    f.key ∉ [PWR_PART_STATE (engPart g), ENG_DBG_PENDING g, ENG_DBG_DEFERRED g].map Fld.key := by decide
  exact (hbegun _ hrun).of_frame (frame_startCore_begun g 0 _) (key g hg _ (by simp)) (key g hg _ (by simp))

theorem releaseEngines_running {g : Nat} (hg : g ∈ hubEngines) : ∀ (gs : List Nat) (s : State), gs ⊆ hubEngines → g ∈ gs ∨ Running g s →
    Running g (releaseEngines gs s)
  | [], s, _, h => h.resolve_left (by simp)
  | e :: gs, s, hsub, h => by
    have hrest : Running g (releaseEngines gs (runEngine s e)) := by
      refine releaseEngines_running hg gs _ (List.subset_of_cons_subset hsub) ?_
      by_cases hne : g = e
      · exact .inr (hne ▸ runEngine_running hg s)
      · have key : ∀ g ∈ hubEngines, ∀ e ∈ hubEngines, g ≠ e → ∀ f ∈ [ENG_STATUS_STATE g, ENG_CTRL_RUN g],
          f.key ∉ (releaseFlds e).map Fld.key := by decide
        have hap := key g hg e (hsub List.mem_cons_self) hne
        exact h.imp (fun hm => (List.mem_cons.1 hm).resolve_left hne) fun hr =>
          hr.of_frame (frame_runEngine s e) (hap _ (by simp)) (hap _ (by simp))
    exact hrest

theorem frame_releaseEngines (gs : List Nat) (s : State) : Frame [.power, .engines] (gs.flatMap releaseFlds) s (releaseEngines gs s) :=
  frame_foldl gs s fun g hg u => (frame_runEngine u g).mono (List.Subset.refl _) fun _ hf => List.mem_flatMap.2 ⟨g, hg, hf⟩

/-! What follows a load of Bamid (R125). -/

theorem frame_bootLoad (s : State) : Frame [.host, .config] (sourceFlds ++ CFG_CAUSE_HWAIT :: alertFlds) s (bootLoad s) :=
  ((frame_onConfig s _).mono (by simp) (by simp)).trans (frame_startSource ..)

theorem frame_afterBamid (s : State) : Frame [.host, .config] (sourceFlds ++ CFG_CAUSE_HWAIT :: alertFlds) s (afterBamid s) := by
  unfold afterBamid
  split
  · exact (frame_put s _ _).mono (List.nil_subset _) (by simp [sourceFlds])
  · exact frame_bootLoad s

theorem bootLoad_config (s : State) : ∃ load wait, (bootLoad s).config =
    { s.config with restart := false, next := none, load := load, waitSrc := wait, stream := {} } := startSource_config _ _

theorem afterBamid_due (s : State) : KeepsDue s (afterBamid s) := by
  unfold afterBamid
  split
  · rfl
  · obtain ⟨_, _, h⟩ := bootLoad_config s
    rw [KeepsDue, h]

/-- A load of Bamid has begun: it is due no more. -/
def bamidBegun (s : State) : State :=
  (s.begin.onConfig (fun c => { c with bamidDue := false })).puts [(CFG_STATUS_STATE, 1), (CFG_STATUS_SOURCE, 6)]

/-- The first copy has failed; the second is tried. -/
def firstFailed (c : Nat) (s : State) : State := (recordFailure 6 c s).put CFG_STATUS_SOURCE 7

/-- Both copies have failed. -/
def bothFailed (c : Nat) (s : State) : State := (recordFailure 7 c s).flag CFG_STATUS_BAMID_FAIL true

/-- What a load of Bamid ends in, by what its copies come to. -/
def bamidEnd (a b : BamidCopy) (s : State) : State :=
  match tryBamid 0 a s with
  | (none, h, t) => afterBamid (bamidStarts h t)
  | (some c, _, t) =>
    match tryBamid 1 b (firstFailed c t) with
    | (none, h, u) => afterBamid (bamidStarts h u)
    | (some c, _, u) => afterBamid (bothFailed c u)

theorem exec_bamidLoad {s : State} (hdue : s.config.bamidDue = true) (hbusy : s.clocks.busy.contains 20 = false) (h186 : runs s 186 = true)
    (h183 : runs s 183 = true) (a b : BamidCopy) : exec (.bamidLoad a b) s = .next (bamidEnd a b (bamidBegun s)) := by
  have hacts : (!s.begin.config.bamidDue || s.begin.clocks.busy.contains 20 || !runs s.begin 186 || !runs s.begin 183) = false := by
    have h186 : runs s.begin 186 = true := h186
    have h183 : runs s.begin 183 = true := h183
    simp only [State.begin_config, State.begin_clocks, hdue, hbusy, h186, h183]
    rfl
  show execBamidLoad a b s = _
  rw [execBamidLoad, hacts]
  show (match tryBamid 0 a (bamidBegun s) with
    | (none, h, t) => Host.Outcome.next (afterBamid (bamidStarts h t))
    | (some c, _, t) => match tryBamid 1 b (firstFailed c t) with
      | (none, h, u) => .next (afterBamid (bamidStarts h u))
      | (some c, _, u) => .next (afterBamid (bothFailed c u))) = _
  unfold bamidEnd
  rcases tryBamid 0 a (bamidBegun s) with ⟨_ | c, h, t⟩
  · rfl
  · dsimp only
    rcases tryBamid 1 b (firstFailed c t) with ⟨_ | c', h', u⟩ <;> rfl

theorem frame_bamidStarts (h : Nat) (s : State) : Frame [.security, .power, .engines] (CFG_STATUS_BAMID_FAIL :: hubEngines.flatMap releaseFlds)
    s (bamidStarts h s) := by
  have hmeas : Frame [.security] [] s { s with security := { s.security with meas := smSet 0 s.security.meas 1 (measureOf h) } } := by
    constructor <;> intros <;> first | rfl | simp_all
  exact ((hmeas.mono (by simp) (by simp)).trans ((frame_flag _ _ _).mono (by simp) (by simp))).trans
    ((frame_releaseEngines ..).mono (by simp) fun _ hf => List.mem_cons_of_mem _ hf)

theorem bamidEnd_due (a b : BamidCopy) (s : State) : KeepsDue s (bamidEnd a b s) := by
  have hends : ∀ h t u, KeepsDue t u → KeepsDue t (afterBamid (bamidStarts h u)) := fun h t u hu =>
    (afterBamid_due _).trans ((keepsDue_of_frame (frame_bamidStarts h u) (by simp)).trans hu)
  have hrecorded : ∀ src c t, KeepsDue t (recordFailure src c t) := fun src c t => keepsDue_of_frame (frame_recordFailure ..) (by simp)
  unfold bamidEnd
  split
  · next h t ht => exact hends h s t (by simpa only [ht] using tryBamid_due 0 a s)
  · next c _ t ht =>
    have hfirst : KeepsDue s (firstFailed c t) := (hrecorded 6 c t).trans (by simpa only [ht] using tryBamid_due 0 a s)
    split
    · next h u hu => exact hends h s u ((by simpa only [hu] using tryBamid_due 1 b (firstFailed c t) : KeepsDue _ u).trans hfirst)
    · next c' _ u hu =>
      refine (afterBamid_due _).trans ((hrecorded 7 c' u).trans ?_)
      exact (by simpa only [hu] using tryBamid_due 1 b (firstFailed c t) : KeepsDue _ u).trans hfirst

/-- Bamid's engines run, and BAMID_FAIL is clear. -/
theorem bamidStarts_runs (h : Nat) (s : State) : (bamidStarts h s).on CFG_STATUS_BAMID_FAIL = false ∧
    ∀ g ∈ hubEngines, Running g (bamidStarts h s) := by
  refine ⟨?_, fun g hg => releaseEngines_running hg _ _ (List.Subset.refl _) (.inl hg)⟩
  rw [bamidStarts, State.on, (frame_releaseEngines ..).get _ (by decide)]
  exact on_flag_same _ _ _ rfl

theorem afterBamid_on {f : Fld} (h : f.key ∉ (sourceFlds ++ CFG_CAUSE_HWAIT :: alertFlds).map Fld.key) (s : State) :
    (afterBamid s).on f = s.on f := by rw [State.on, (frame_afterBamid s).get f h, State.on]

/-- The first copy is good. -/
theorem bamidEnd_first {a : BamidCopy} {s : State} (h : (tryBamid 0 a s).1 = none) (b : BamidCopy) :
    (bamidEnd a b s).on CFG_STATUS_BAMID_FAIL = false ∧ ∀ g ∈ hubEngines, Running g (bamidEnd a b s) := by
  unfold bamidEnd
  split
  · next hd t _ =>
    obtain ⟨hfail, hruns⟩ := bamidStarts_runs hd t
    refine ⟨(afterBamid_on (by decide) _).trans hfail, fun g hg => ?_⟩
    have key : ∀ g ∈ hubEngines, ∀ f ∈ [ENG_STATUS_STATE g, ENG_CTRL_RUN g],
      f.key ∉ (sourceFlds ++ CFG_CAUSE_HWAIT :: alertFlds).map Fld.key := by decide
    exact (hruns g hg).of_frame (frame_afterBamid _) (key g hg _ (by simp)) (key g hg _ (by simp))
  · next ht => rw [ht] at h; cases h

/-- Neither copy can be read. -/
theorem bamidEnd_unread {a b : BamidCopy} (ha : a.checks.read = .failed) (hb : b.checks.read = .failed) (s : State) :
    (bamidEnd a b s).on CFG_STATUS_BAMID_FAIL = true ∧ (bamidEnd a b s).on CFG_CAUSE_FAIL = true ∧
      (bamidEnd a b s).get CFG_STATUS_CAUSE = 0x13 := by
  have hfirst := tryBamid_unread 0 a s ha
  unfold bamidEnd
  split
  · next ht => rw [ht] at hfirst; cases hfirst
  · next c _ t _ =>
    have hsecond := tryBamid_unread 1 b (firstFailed c t) hb
    split
    · next hu => rw [hu] at hsecond; cases hsecond
    · next c' _ u hu =>
      rw [hu] at hsecond
      obtain rfl : c' = 0x13 := Option.some.inj hsecond
      refine ⟨(afterBamid_on (by decide) _).trans (on_flag_same _ _ _ rfl), ?_, ?_⟩
      · exact (afterBamid_on (by decide) _).trans ((on_flag_other _ _ _ _ (by decide)).trans (recordFailure_on ..))
      · rw [(frame_afterBamid _).get _ (by decide), bothFailed, State.flag, get_put_other _ _ _ _ (by decide)]
        exact recordFailure_cause (by decide) ..

/-- The boot order starts again (R125). -/
theorem loadRestart_ends {s : State} (hrestart : s.config.restart = true) (hbusy : s.clocks.busy = []) (hdue : s.config.bamidDue = false)
    (hreload : s.config.reload = false) :
    Ends .loadRestartAfterReset s fun t => t.config.restart = false ∧ Attempts ((bootOrder s).headD 3) t := by
  have horder : (bootOrder s).headD 3 < 8 := by
    unfold bootOrder
    split <;> decide
  have hrun : exec .loadRestartAfterReset s = .next (startSource ((bootOrder s).headD 3)
      (s.begin.onConfig (fun c => { c with restart := false, next := none }))) := by
    show execLoadRestartAfterReset s = _
    have hacts : (s.begin.config.restart && s.begin.clocks.busy.isEmpty && !s.begin.config.bamidDue) = true := by simp [hrestart, hbusy, hdue]
    have hlast : s.begin.config.reload = false := hreload
    rw [execLoadRestartAfterReset, hacts, if_pos rfl, bootLoad, hlast]
    rfl
  refine ⟨_, hrun, ?_, startSource_attempts horder _⟩
  obtain ⟨_, _, h⟩ := startSource_config ((bootOrder s).headD 3) (s.begin.onConfig (fun c => { c with restart := false, next := none }))
  rw [h]
  rfl

/-! The stream of the host bus (R126). -/

/-- A write to the aperture is of whole words, and of at least one. -/
structure WholeWords (off : Nat) (data : List Byte) : Prop where
  aligned : off % 4 = 0
  whole : data.length % 4 = 0
  some : data ≠ []

/-- The first write: the host-bus load begins. -/
def streamBegins (s : State) : State := (beginLoad { src := 3, isPart := false } s).put CFG_HLOAD_COUNT_BYTES 0

/-- The bytes of a write are taken and counted. -/
def streamTakes (data : List Byte) (s : State) : State :=
  (appendStream data s).put CFG_HLOAD_COUNT_BYTES (s.get CFG_HLOAD_COUNT_BYTES + data.length)

theorem hostLoad_first {s : State} (hwait : s.config.waitSrc = some 3) (hload : s.config.load = none) {off : Nat} {data : List Byte}
    (hshape : WholeWords off data) (hroom : data.length ≤ streamRoom) :
    hostLoad (.host 0 0) off data s = streamTakes data (streamBegins s) := by
  have hfree : ringFull (streamBegins s) data.length = false := by
    have hlen : (streamBegins s).config.stream.len = 0 := by rw [streamBegins, State.put_config, beginLoad_config]
    rw [ringFull, hlen, Nat.zero_add, decide_eq_false_iff_not]
    omega
  obtain ⟨h1, h2, h3⟩ := hshape
  unfold streamBegins at hfree
  simp [hostLoad, hwait, hload, h1, h2, h3, hfree, streamTakes, streamBegins]

theorem hostLoad_next {s : State} (hwait : s.config.waitSrc = none) (hactive : hostLoading s = true) {off : Nat} {data : List Byte}
    (hshape : WholeWords off data) (hroom : ringFull s data.length = false) : hostLoad (.host 0 0) off data s = streamTakes data s := by
  obtain ⟨h1, h2, h3⟩ := hshape
  simp [hostLoad, hwait, hactive, h1, h2, h3, hroom, streamTakes]

theorem hostLoad_misshapen {s : State} (hwait : s.config.waitSrc = none) (hactive : hostLoading s = true) {off : Nat} {data : List Byte}
    (hoff : off % 4 ≠ 0) : hostLoad (.host 0 0) off data s = loadFails 0x0D s := by
  simp [hostLoad, hwait, hactive, hoff]

theorem hostLoad_stranger {req : Requester} (h : req ≠ .host 0 0) (off : Nat) (data : List Byte) (s : State) :
    hostLoad req off data s = s.flag CFG_HLOAD_CTRL_DISCARD true := if_pos (.inl h)

/-- A write that does not meet a full ring reaches the aperture. -/
theorem hostLoadWrite_ends {s : State} {req : Requester} (hgate : regGate s req 0x030000048000 4 true = .reach) {off : Nat} {data : List Byte}
    (hroom : req ≠ .host 0 0 ∨ hostLoading s = false ∨ ringFull s data.length = false) {P : State → Prop}
    (h : P ((hostLoad req off data s.begin).emit .done)) : Ends (.hostLoadWrite req off data) s P := by
  refine ends_guardedWrite hgate (hostLoad req off data) h ?_
  show execHostLoadWrite req off data s = _
  refine if_neg ?_
  rintro ⟨h1, h2, h3⟩
  have h2 : hostLoading s = true := h2
  have h3 : ringFull s data.length = true := h3
  rcases hroom with h | h | h <;> simp_all

theorem frame_streamTakes (data : List Byte) (s : State) : Frame [.config] [CFG_HLOAD_COUNT_BYTES] s (streamTakes data s) :=
  ((frame_onConfig s _).mono (List.Subset.refl _) (by simp)).trans ((frame_put _ _ _).mono (List.nil_subset _) (by simp))

theorem streamTakes_stream (data : List Byte) (s : State) : (streamTakes data s).config = { s.config with
    stream := ⟨s.config.stream.len + data.length, s.config.stream.bits + fromBytes data * 2 ^ (8 * s.config.stream.len)⟩ } := rfl

theorem streamTakes_count (data : List Byte) (s : State) : (streamTakes data s).get CFG_HLOAD_COUNT_BYTES =
    (s.get CFG_HLOAD_COUNT_BYTES + data.length) % 2 ^ CFG_HLOAD_COUNT_BYTES.w := get_put_same _ _ _

theorem puts_out : ∀ (l : List (Fld × Nat)) (s : State), (s.puts l).out = s.out
  | [], _ => rfl
  | (_, _) :: l, _ => puts_out l _

theorem frame_streamBegins (s : State) : Frame [.config] (CFG_HLOAD_COUNT_BYTES :: sourceFlds) s (streamBegins s) :=
  ((frame_beginLoad _ s).mono (List.Subset.refl _) (by simp +contextual)).trans ((frame_put _ _ _).mono (List.nil_subset _) (by simp))

theorem streamBegins_config (s : State) : (streamBegins s).config =
    { s.config with load := some { src := 3, isPart := false }, waitSrc := none, stream := {} } := beginLoad_config _ s

theorem beginLoad_active (l : Load) (s : State) : (beginLoad l s).on CFG_HLOAD_CTRL_ACTIVE = (l.src == 3) := by
  rw [beginLoad, State.on, State.puts, get_puts_last _ _ _ _ (by simp; decide)]
  cases l.src == 3 <;> rfl

/-- The first write of the host to the aperture starts the stream. -/
theorem hostLoadWrite_first {s : State} (hgate : regGate s (.host 0 0) 0x030000048000 4 true = .reach) (hwait : s.config.waitSrc = some 3)
    (hload : s.config.load = none) (hidle : hostLoading s = false) {off : Nat} {data : List Byte} (hshape : WholeWords off data)
    (hroom : data.length ≤ streamRoom) : Ends (.hostLoadWrite (.host 0 0) off data) s fun t => hostLoading t = true ∧ t.out = [.done] ∧
      t.config.load = some { src := 3, isPart := false } ∧ t.config.stream = ⟨data.length, fromBytes data⟩ ∧ t.config.waitSrc = none ∧
      t.get CFG_HLOAD_COUNT_BYTES = data.length ∧ t.get CFG_STATUS_STATE = 2 ∧
      Frame [.config] [CFG_STATUS_SOURCE, CFG_HLOAD_CTRL_WAITING, CFG_HLOAD_CTRL_ACTIVE, CFG_HLOAD_COUNT_BYTES, CFG_STATUS_STATE] s t := by
  refine hostLoadWrite_ends hgate (.inr (.inl hidle)) ?_
  rw [hostLoad_first (s := s.begin) hwait hload hshape hroom]
  have htakes := frame_streamTakes data (streamBegins s.begin)
  have hconfig := streamTakes_stream data (streamBegins s.begin)
  rw [streamBegins_config] at hconfig
  have hzero : (streamBegins s.begin).get CFG_HLOAD_COUNT_BYTES = 0 := get_put_same _ _ _
  have hcount := streamTakes_count data (streamBegins s.begin)
  rw [hzero, Nat.zero_add] at hcount
  have hstate : (streamTakes data (streamBegins s.begin)).get CFG_STATUS_STATE = 2 :=
    (htakes.get _ (by decide)).trans ((get_put_other _ _ _ _ (by decide)).trans (beginLoad_state _ _))
  have hactive : hostLoading (streamTakes data (streamBegins s.begin)) = true := by
    rw [hostLoading, State.on, htakes.get _ (by decide), streamBegins, get_put_other _ _ _ _ (by decide)]
    exact beginLoad_active _ _
  have hout : (streamTakes data (streamBegins s.begin)).out = [] := puts_out _ _
  have hframe := ((frame_streamBegins s.begin).trans (htakes.mono (List.Subset.refl _) (by simp))).begin
  generalize streamTakes data (streamBegins s.begin) = t at *
  refine ⟨hactive, by rw [State.emit_out, hout]; rfl, ?_, ?_, ?_, ?_, hstate, (hframe.mono (List.Subset.refl _) (by simp [sourceFlds])).emit _⟩
  · rw [State.emit_config, hconfig]
  · rw [State.emit_config, hconfig]
    simp
  · rw [State.emit_config, hconfig]
  · refine hcount.trans (Nat.mod_eq_of_lt (hroom.trans_lt ?_))
    decide

/-- A further write is counted and kept. -/
theorem hostLoadWrite_next {s : State} (hgate : regGate s (.host 0 0) 0x030000048000 4 true = .reach) (hwait : s.config.waitSrc = none)
    (hactive : hostLoading s = true) {off : Nat} {data : List Byte} (hroom : ringFull s data.length = false) (hshape : WholeWords off data) :
    Ends (.hostLoadWrite (.host 0 0) off data) s fun t => t.out = [.done] ∧
      t.config.stream = ⟨s.config.stream.len + data.length, s.config.stream.bits + fromBytes data * 2 ^ (8 * s.config.stream.len)⟩ ∧
      t.get CFG_HLOAD_COUNT_BYTES = (s.get CFG_HLOAD_COUNT_BYTES + data.length) % 2 ^ CFG_HLOAD_COUNT_BYTES.w ∧
      Frame [.config] [CFG_HLOAD_COUNT_BYTES] s t := by
  refine hostLoadWrite_ends hgate (.inr (.inr hroom)) ?_
  rw [hostLoad_next (s := s.begin) hwait hactive hshape hroom]
  exact ⟨rfl, rfl, streamTakes_count data s.begin, ((frame_streamTakes data s.begin).begin).emit _⟩

/-- A write that meets a full ring is held. -/
theorem hostLoadWrite_held {s : State} (hactive : hostLoading s = true) {data : List Byte} (hfull : ringFull s data.length = true) (off : Nat) :
    Ends (.hostLoadWrite (.host 0 0) off data) s fun t => t.out = [.held] ∧ Frame [] [] s t := by
  refine ⟨s.begin.emit .held, ?_, rfl, ((Frame.refl _ _ _).emit _).begin⟩
  show execHostLoadWrite (.host 0 0) off data s = _
  exact if_pos ⟨rfl, hactive, hfull⟩

/-- A failure of a load shows through a command's last output. -/
theorem LoadFailed.emit {l : Load} {cause : Nat} {s t : State} (h : LoadFailed l cause s t) (o : Out) : LoadFailed l cause s (t.emit o) := h

/-- The load that `s` has in progress, at the begin of a command. -/
theorem sameLoad_begin {s : State} {l : Load} (h : s.config.load = some l) : SameLoad l s s.begin := ⟨h, rfl, rfl⟩

theorem begin_fails {s : State} {l : Load} (h : s.config.load = some l) (hfull : l.isPart = false) {cause : Nat} (hc : cause < 2 ^ 8) :
    LoadFailed l cause s (loadFails cause s.begin) := loadFails_failed (sameLoad_begin h) hfull hc

theorem hostLoadTimeout_ends {s : State} (hactive : hostLoading s = true) {P : State → Prop}
    (h : P (if ringFull s 4 then s.begin else loadFails 0x0F s.begin)) : Ends .hostLoadTimeout s P := by
  refine ⟨_, ?_, h⟩
  show execHostLoadTimeout s = _
  have ha : hostLoading s.begin = true := hactive
  have hr : ringFull s.begin 4 = ringFull s 4 := rfl
  rw [execHostLoadTimeout, ha, hr]
  cases ringFull s 4 <;> rfl

theorem cfgHloadAbort_ends {s : State} (hactive : hostLoading s = true) {l : Load} (hload : s.config.load = some l) (hfull : l.isPart = false)
    {req : Requester} (hgate : regGate s req 0x030000040020 4 true = .reach) : Ends (.cfgHloadAbort req) s (LoadFailed l 0x14 s) := by
  refine ends_guardedWrite hgate hloadAbort ?_ rfl
  have ha : hostLoading s.begin = true := hactive
  rw [hloadAbort, if_pos ha]
  exact (begin_fails hload hfull (by decide)).emit _

theorem coxLoadTimeout_ends {s : State} {l : Load} (hload : s.config.load = some l) (hfull : l.isPart = false) (hsrc : l.src = 4) :
    Ends .coxLoadTimeout s (LoadFailed l 0x0F s) := by
  refine ⟨loadFails 0x0F s.begin, ?_, begin_fails hload hfull (by decide)⟩
  show execCoxLoadTimeout s = _
  simp only [execCoxLoadTimeout, State.begin_config, hload, hsrc, if_true]

theorem mem_setAdd_self (k : Nat) (m : List Nat) : k ∈ setAdd m k := (mem_setAdd k k m).2 (.inr rfl)

theorem frame_host (s : State) (x : HostSide) : Frame [.host] [] s { s with host := x } := by
  constructor <;> intros <;> first | rfl | simp_all

theorem pfAbsentTimeout_ends {s : State} {port : Port} (hperst : s.clocks.perst.contains port.val = false) (hstarted : s.config.started = false) :
    Ends (.pfAbsentTimeout port) s fun t => t.host.absent.contains port.val = true ∧ Frame [.host] [] s t := by
  refine ⟨_, congrArg Host.Outcome.next (if_neg ?_), List.contains_iff_mem.2 (mem_setAdd_self _ _), (frame_host _ _).begin⟩
  rintro (h | h)
  · exact absurd (h.symm.trans hperst) (by decide)
  · exact absurd (h.symm.trans hstarted) (by decide)

/-- Settles O20: each source by the claims about its commands. -/
theorem loadSourcesBeginAndTimeOut : Obligations.LoadSourcesBeginAndTimeOut := by
  unfold Obligations.LoadSourcesBeginAndTimeOut
  intro s
  refine ⟨loadRestart_ends, fun hdue hbusy h186 h183 a b => ?_, fun off data hgate => ⟨?_, ?_⟩, ?_, ?_, ?_, fun port => pfAbsentTimeout_ends⟩
  · refine ⟨_, exec_bamidLoad hdue hbusy h186 h183 a b, (bamidEnd_due a b _).trans ?_, ?_, fun ha hb => bamidEnd_unread ha hb _⟩
    · rfl
    · rintro s1 rfl hfirst
      exact bamidEnd_first hfirst b
  · intro hwait hload hidle h1 h2 h3 hroom
    exact hostLoadWrite_first hgate hwait hload hidle ⟨h1, h2, h3⟩ hroom
  · intro hwait hactive
    refine ⟨fun hfull => hostLoadWrite_held hactive hfull off, fun hroom h1 h2 h3 => hostLoadWrite_next hgate hwait hactive hroom ⟨h1, h2, h3⟩,
      fun hroom hoff l hload hfull => hostLoadWrite_ends hgate (.inr (.inr hroom)) ?_⟩
    rw [hostLoad_misshapen (s := s.begin) hwait hactive hoff]
    exact (begin_fails hload hfull (by decide)).emit _
  · intro req off data hgate hreq
    refine hostLoadWrite_ends hgate (.inl hreq) ?_
    rw [hostLoad_stranger hreq]
    exact ⟨on_flag_same s.begin CFG_HLOAD_CTRL_DISCARD true rfl, ((frame_flag _ _ _).begin).emit _⟩
  · intro hactive hfull
    refine hostLoadTimeout_ends hactive ?_
    rw [if_pos hfull]
    exact (Frame.refl _ _ _).begin
  · intro l hload hfull
    refine ⟨fun hactive => ⟨fun hroom => hostLoadTimeout_ends hactive ?_, fun req hgate => cfgHloadAbort_ends hactive hload hfull hgate⟩,
      coxLoadTimeout_ends hload hfull⟩
    rw [if_neg (by simp [hroom])]
    exact begin_fails hload hfull (by decide)

end Sys2Proof.Machine
end

section
/-! PROOFS. The steps of a full load: its header and its signatures (R115, R121 steps 1 to 3). -/

namespace Sys2Proof.Machine

/-! The bytes of a full load's image as they come (R112, R126). -/

/-- The state once a load has taken `n` bytes of its stream, where it comes over one. -/
def streamTaken (l : Load) (n : Nat) (s : State) : State :=
  if l.src = 3 ∨ l.src = 4 then
    s.onConfig (fun c => { c with stream := ⟨s.config.stream.len - n, s.config.stream.bits / 2 ^ (8 * n)⟩ })
  else s

theorem takeStream_none {l : Load} {n : Nat} {s : State} (hfull : l.isPart = false) (hsrc : l.src = 3 ∨ l.src = 4)
    (h : s.config.stream.len < n) : takeStream l n s = none := by
  have hstream : ¬ (l.isPart = true ∨ (l.src ≠ 3 ∧ l.src ≠ 4)) := by simpa [hfull, or_iff_not_imp_left] using hsrc
  rw [takeStream, if_neg hstream]
  exact if_pos h

theorem takeStream_stream {l : Load} {n : Nat} {s : State} (hfull : l.isPart = false) (hsrc : l.src = 3 ∨ l.src = 4)
    (h : n ≤ s.config.stream.len) : takeStream l n s = some (s.config.stream.bits % 2 ^ (8 * n), streamTaken l n s) := by
  have hstream : ¬ (l.isPart = true ∨ (l.src ≠ 3 ∧ l.src ≠ 4)) := by simpa [hfull, or_iff_not_imp_left] using hsrc
  rw [takeStream, if_neg hstream, streamTaken, if_pos hsrc]
  exact if_neg (Nat.not_lt.2 h)

theorem takeStream_come {l : Load} {n : Nat} {s : State} (hfull : l.isPart = false) (h : Come l n s) :
    ∃ v, takeStream l n s = some (v, streamTaken l n s) := by
  by_cases hsrc : l.src = 3 ∨ l.src = 4
  · exact ⟨_, takeStream_stream hfull hsrc (h hsrc)⟩
  · refine ⟨0, ?_⟩
    rw [takeStream, if_pos (.inr (by omega)), streamTaken, if_neg hsrc]

theorem streamTaken_stream {l : Load} (hsrc : l.src = 3 ∨ l.src = 4) (n : Nat) (s : State) :
    (streamTaken l n s).config.stream = ⟨s.config.stream.len - n, s.config.stream.bits / 2 ^ (8 * n)⟩ := by rw [streamTaken, if_pos hsrc]; rfl

theorem streamTaken_config (l : Load) (n : Nat) (s : State) : ∃ x, streamTaken l n s = s.onConfig (fun c => { c with stream := x }) := by
  unfold streamTaken
  split
  · exact ⟨_, rfl⟩
  · exact ⟨s.config.stream, rfl⟩

theorem frame_streamTaken (l : Load) (n : Nat) (s : State) : Frame [.config] [] s (streamTaken l n s) := by
  obtain ⟨x, hx⟩ := streamTaken_config l n s
  rw [hx]
  exact frame_onConfig _ _

theorem streamTaken_regs (l : Load) (n : Nat) (s : State) : (streamTaken l n s).regs = s.regs := by
  obtain ⟨x, hx⟩ := streamTaken_config l n s
  rw [hx, State.onConfig_regs]

theorem streamTaken_same {s : State} {l : Load} (h : s.config.load = some l) (n : Nat) : SameLoad l s (streamTaken l n s.begin) := by
  obtain ⟨x, hx⟩ := streamTaken_config l n s.begin
  rw [hx]
  exact ⟨h, rfl, rfl⟩

/-- No bad page of the store holds the `n` bytes from byte `o` of the load's image. -/
def PagesGood (l : Load) (o n : Nat) (s : State) : Prop :=
  l.inStore = true → ∀ p ∈ s.config.badPages, ¬ ((l.addr + o) / 4096 ≤ p ∧ p ≤ (l.addr + o + n - 1) / 4096)

theorem PagesGood.taken {l : Load} {o n : Nat} {s : State} (h : PagesGood l o n s) (k : Nat) : PagesGood l o n (streamTaken l k s.begin) := by
  obtain ⟨x, hx⟩ := streamTaken_config l k s.begin
  rw [hx]
  exact h

theorem readCause_good {l : Load} {o n : Nat} {s : State} (h : PagesGood l o n s) : readCause l o n .good s = (none, s) := by
  have hnone : (if l.inStore then s.config.badPages.find? (fun p => (l.addr + o) / 4096 ≤ p && p ≤ (l.addr + o + n - 1) / 4096) else none) = none := by
    split
    · next hin =>
      rw [List.find?_eq_none]
      intro p hp hbad
      simp only [Bool.and_eq_true, decide_eq_true_eq] at hbad
      exact h hin p hp hbad
    · rfl
  simp only [readCause, hnone]

/-! The header check (R110, R115, R121 step 1). -/

/-- What the causes of failure depend on is in the registers alone. -/
theorem eq_of_regs {s t : State} (h : t.regs = s.regs) : t = { t with regs := s.regs } := by rw [← h]

theorem headerCause_congr {s t : State} (h : t.regs = s.regs) (l : Load) (hd : ImgHeader) : headerCause t l hd = headerCause s l hd := by
  rw [eq_of_regs h]
  rfl

theorem withHeader_congr {s t : State} (h : t.regs = s.regs) (l : Load) (head : Nat) : l.withHeader t head = l.withHeader s head := by
  rw [eq_of_regs h]
  rfl

theorem lt_of_some {n c : Nat} (h : some n = some c) (hn : n < 2 ^ 8) : c < 2 ^ 8 := Option.some.inj h ▸ hn

theorem headerCause_lt {s : State} {l : Load} {hd : ImgHeader} {c : Nat} (h : headerCause s l hd = some c) : c < 2 ^ 8 := by
  unfold headerCause at h
  split_ifs at h
  all_goals exact lt_of_some h (by decide)

/-- A header that passes. -/
def headerPasses (l : Load) (s : State) : State :=
  if l.degraded then (setPhase l 3 s).flag CFG_STATUS_DEGRADED true else setPhase l 3 s

theorem checkHeader_fails {l : Load} {head c : Nat} {s : State} (h : headerCause s l (parseHeader head) = some c) :
    checkHeader l head s = loadFails c s := by simp only [checkHeader, h]

theorem checkHeader_passes {l : Load} {head : Nat} {s : State} (h : headerCause s l (parseHeader head) = none) :
    checkHeader l head s = headerPasses (l.withHeader s head) s := by
  simp only [checkHeader, h]
  rfl

theorem frame_setPhase (l : Load) (k : Nat) (s : State) : Frame [.config] [CFG_STATUS_STATE] s (setPhase l k s) :=
  ((frame_onConfig s _).mono (List.Subset.refl _) (by simp)).trans ((frame_put _ _ _).mono (List.nil_subset _) (by simp))

theorem setPhase_config (l : Load) (k : Nat) (s : State) : (setPhase l k s).config = { s.config with load := some { l with phase := k } } := rfl

theorem setPhase_state (l : Load) {k : Nat} (h : k < 16) (s : State) : (setPhase l k s).get CFG_STATUS_STATE = k :=
  (get_put_same _ _ _).trans (Nat.mod_eq_of_lt h)

theorem frame_headerPasses_phase (l : Load) (s : State) : Frame [] [CFG_STATUS_DEGRADED] (setPhase l 3 s) (headerPasses l s) := by
  unfold headerPasses
  split
  · exact frame_flag _ _ _
  · exact Frame.refl ..

theorem frame_headerPasses (l : Load) (s : State) : Frame [.config] [CFG_STATUS_STATE, CFG_STATUS_DEGRADED] s (headerPasses l s) :=
  ((frame_setPhase l 3 s).mono (List.Subset.refl _) (by simp)).trans ((frame_headerPasses_phase l s).mono (List.nil_subset _) (by simp))

theorem headerPasses_state (l : Load) (s : State) : (headerPasses l s).get CFG_STATUS_STATE = 3 :=
  ((frame_headerPasses_phase l s).get _ (by decide)).trans (setPhase_state l (by decide) s)

theorem headerPasses_config (l : Load) (s : State) : (headerPasses l s).config = { s.config with load := some { l with phase := 3 } } :=
  ((frame_headerPasses_phase l s).config (by simp)).trans (setPhase_config l 3 s)

/-- A header that passes, as the claims see it: `u` is the state in which the image's first bytes have been taken. -/
theorem checkHeader_next {s u : State} {l : Load} {head : Nat} (hregs : u.regs = s.regs) (hframe : Frame [.config] [] s u)
    (h : headerCause s l (parseHeader head) = none) : (checkHeader l head u).get CFG_STATUS_STATE = 3 ∧
      (checkHeader l head u).config.load = some { l.withHeader s head with phase := 3 } ∧
      (checkHeader l head u).config.stream = u.config.stream ∧
      Frame [.config] [CFG_STATUS_STATE, CFG_STATUS_DEGRADED] s (checkHeader l head u) := by
  rw [checkHeader_passes ((headerCause_congr hregs l _).trans h), withHeader_congr hregs]
  refine ⟨headerPasses_state .., ?_, ?_, (hframe.mono (List.Subset.refl _) (by simp)).trans (frame_headerPasses _ _)⟩
  · rw [headerPasses_config]
  · rw [headerPasses_config]

theorem loadFails_pageCause {s : State} {l : Load} (hload : s.config.load = some l) (hfull : l.isPart = false) (cause : Nat) :
    (loadFails cause s).on CFG_CAUSE_NV_UE = s.on CFG_CAUSE_NV_UE := by
  have hrecorded : (failureRecorded l cause s).get CFG_CAUSE_NV_UE = s.get CFG_CAUSE_NV_UE :=
    ((frame_recordFailure ..).get _ (by decide)).trans rfl
  rw [State.on, State.on, loadFails_full hload hfull, ← hrecorded]
  split
  · rw [(frame_failureClears ..).get _ (by decide)]
  · rw [(frame_startSource ..).get _ (by decide)]

section Header

variable {s : State} {l : Load} (hload : s.config.load = some l) (hfull : l.isPart = false) (hclear : NoClear s) (hphase : l.phase = 2)
include hload hfull hclear hphase

theorem exec_loadHeaderCheck (head : BitVec 65536) (err : SourceRead) : exec (.loadHeaderCheck head err) s =
    .next (if slotEmpty s l then loadFails 0x06 s.begin else match headTurn l s.begin with
      | (.wait, s) => s.emit .held
      | (.fail, s) => loadFails 0x13 s
      | (.go, s) => takeHead l head.toNat err s) := by
  have hc : clearDone s.begin = s.begin := clearDone_none (s := s.begin) hclear
  have he : slotEmpty s.begin l = slotEmpty s l := rfl
  show execLoadHeaderCheck head err s = _
  simp only [execLoadHeaderCheck, hc, State.begin_config, hload, hfull, hphase, he]
  cases slotEmpty s l
  · rcases headTurn l s.begin with ⟨_ | _ | _, t⟩ <;> rfl
  · rfl

theorem loadHeaderCheck_empty (head : BitVec 65536) (err : SourceRead) (h : slotEmpty s l = true) :
    Ends (.loadHeaderCheck head err) s (LoadFailed l 0x06 s) := by
  refine ⟨_, exec_loadHeaderCheck hload hfull hclear hphase head err, ?_⟩
  rw [if_pos h]
  exact begin_fails hload hfull (by decide)

/-- The store and the streams are read at once. -/
theorem loadHeaderCheck_reads {head : BitVec 65536} {err : SourceRead} (hempty : slotEmpty s l = false)
    (hgo : l.inStore = true ∨ l.src = 3 ∨ l.src = 4) {P : State → Prop} (h : P (takeHead l head.toNat err s.begin)) :
    Ends (.loadHeaderCheck head err) s P := by
  refine ⟨_, exec_loadHeaderCheck hload hfull hclear hphase head err, ?_⟩
  have hturn : headTurn l s.begin = (.go, s.begin) := if_pos (by simpa [hfull] using hgo)
  rw [if_neg (by simp [hempty]), hturn]
  exact h

end Header

/-- From the store the first bytes are read where no page fails. -/
theorem takeHead_store {l : Load} (hfull : l.isPart = false) (hin : l.inStore = true) (head : Nat) (r : SourceRead) (s : State) :
    takeHead l head r s = match readCause l 0 0x2000 r s with
      | (some c, s) => loadFails c s
      | (none, t) => checkHeader l (storeNum s l.addr 0x2000) t := by
  simp only [takeHead, readHead, hin, if_true, hfull]
  rcases readCause l 0 0x2000 r s with ⟨_ | c, t⟩ <;> rfl

theorem takeHead_stream {l : Load} (hfull : l.isPart = false) (hin : l.inStore = false) (hsrc : l.src = 3 ∨ l.src = 4) (head : Nat) (s : State) :
    takeHead l head .good s = match takeStream l 0x2000 s with
      | none => s
      | some (h, t) => checkHeader l h t := by
  have hhead : readHead l head s = (takeStream l 0x2000 s).map (fun e => (e.1, .good, e.2)) := by
    rw [readHead, hin, if_neg (by decide)]
    exact if_pos (by simpa [hfull] using hsrc)
  rw [takeHead, hhead]
  rcases takeStream l 0x2000 s with _ | ⟨h, t⟩
  · rfl
  · have hgood : readCause l 0 0x2000 .good t = (none, t) := readCause_good fun h => absurd (h.symm.trans hin) (by decide)
    simp only [Option.map_some, if_true, hgood, hfull]
    rfl

section Header

variable {s : State} {l : Load} (hload : s.config.load = some l) (hfull : l.isPart = false) (hclear : NoClear s) (hphase : l.phase = 2)
include hload hfull hclear hphase

/-- A slot's header (R121 step 1). -/
theorem loadHeaderCheck_slot (head : BitVec 65536) (hempty : slotEmpty s l = false) (hin : l.inStore = true) (hread : Readable l 0 0x2000 s) :
    (headerCause s l (parseHeader (storeNum s l.addr 0x2000)) = none → Ends (.loadHeaderCheck head .good) s fun t =>
        t.get CFG_STATUS_STATE = 3 ∧ t.config.load = some { l.withHeader s (storeNum s l.addr 0x2000) with phase := 3 } ∧
        Frame [.config] [CFG_STATUS_STATE, CFG_STATUS_DEGRADED] s t) ∧
      ∀ c, headerCause s l (parseHeader (storeNum s l.addr 0x2000)) = some c → Ends (.loadHeaderCheck head .good) s (LoadFailed l c s) := by
  obtain ⟨-, -, hpages⟩ := hread
  have hgood : takeHead l head.toNat .good s.begin = checkHeader l (storeNum s l.addr 0x2000) s.begin := by
    rw [takeHead_store hfull hin, readCause_good (s := s.begin) hpages]
    rfl
  refine ⟨fun h => loadHeaderCheck_reads hload hfull hclear hphase hempty (.inl hin) ?_,
    fun c h => loadHeaderCheck_reads hload hfull hclear hphase hempty (.inl hin) ?_⟩
  · rw [hgood]
    obtain ⟨hstate, hnext, -, hframe⟩ := checkHeader_next (s := s) (u := s.begin) rfl (Frame.refl s.begin _ _).begin h
    exact ⟨hstate, hnext, hframe⟩
  · rw [hgood, checkHeader_fails (s := s.begin) ((headerCause_congr (s := s) rfl l _).trans h)]
    exact begin_fails hload hfull (headerCause_lt h)

/-- A page of the slot that cannot be read (R112). -/
theorem loadHeaderCheck_badPage (head : BitVec 65536) (hempty : slotEmpty s l = false) (hin : l.inStore = true) (p : Fin 524288) :
    Ends (.loadHeaderCheck head (.badPage p)) s fun t =>
      LoadFailed l 0x13 s t ∧ t.on CFG_CAUSE_NV_UE = true ∧ t.config.badPages.contains p.val = true := by
  refine loadHeaderCheck_reads hload hfull hclear hphase hempty (.inl hin) ?_
  have hfound : takeHead l head.toNat (.badPage p) s.begin = loadFails 0x13 (findBadPage p s.begin) := by
    have hread : readCause l 0 0x2000 (.badPage p) s.begin = (some 0x13, findBadPage p s.begin) := by
      simp only [readCause, hin, if_true]
    rw [takeHead_store hfull hin, hread]
  have hsame : SameLoad l s (findBadPage p s.begin) := by
    refine ⟨?_, ?_, bootOrder_congr ((frame_findBadPage p s.begin).get _ (by decide))⟩
    · rw [findBadPage_config]
      exact hload
    · rw [findBadPage_config]
      rfl
  rw [hfound]
  refine ⟨loadFails_failed hsame hfull (by decide), ?_, ?_⟩
  · have hraised : (findBadPage p s.begin).on CFG_CAUSE_NV_UE = true := raiseLeaf_on _ _ _ rfl (by decide)
    exact (loadFails_pageCause hsame.load hfull _).trans hraised
  · rw [(loadFails_config hsame.load hfull _).2, findBadPage_config]
    exact List.contains_iff_mem.2 (mem_setAdd_self _ _)

/-- The header waits for the stream to bring it. -/
theorem loadHeaderCheck_waits (head : BitVec 65536) (hin : l.inStore = false) (hsrc : l.src = 3 ∨ l.src = 4) (hlen : s.config.stream.len < 0x2000) :
    Ends (.loadHeaderCheck head .good) s (Frame [] [] s) := by
  have hempty : slotEmpty s l = false := by rcases hsrc with h | h <;> simp [slotEmpty, h]
  refine loadHeaderCheck_reads hload hfull hclear hphase hempty (.inr hsrc) ?_
  rw [takeHead_stream hfull hin hsrc, takeStream_none (s := s.begin) hfull hsrc hlen]
  exact (Frame.refl _ _ _).begin

/-- The header that a stream has brought. -/
theorem loadHeaderCheck_stream (head : BitVec 65536) (hin : l.inStore = false) (hsrc : l.src = 3 ∨ l.src = 4) (hlen : 0x2000 ≤ s.config.stream.len)
    (hcause : headerCause s l (parseHeader (s.config.stream.bits % 2 ^ 65536)) = none) : Ends (.loadHeaderCheck head .good) s fun t =>
      t.get CFG_STATUS_STATE = 3 ∧ t.config.load = some { l.withHeader s (s.config.stream.bits % 2 ^ 65536) with phase := 3 } ∧
      t.config.stream = ⟨s.config.stream.len - 0x2000, s.config.stream.bits / 2 ^ 65536⟩ ∧
      Frame [.config] [CFG_STATUS_STATE, CFG_STATUS_DEGRADED] s t := by
  have hempty : slotEmpty s l = false := by rcases hsrc with h | h <;> simp [slotEmpty, h]
  refine loadHeaderCheck_reads hload hfull hclear hphase hempty (.inr hsrc) ?_
  have hbits : 8 * 0x2000 = 65536 := rfl
  rw [takeHead_stream hfull hin hsrc, takeStream_stream (s := s.begin) hfull hsrc hlen, hbits]
  obtain ⟨hstate, hnext, hstream, hframe⟩ := checkHeader_next (s := s) (streamTaken_regs l 0x2000 s.begin)
    ((frame_streamTaken l 0x2000 s.begin).begin) hcause
  rw [streamTaken_stream hsrc, hbits] at hstream
  exact ⟨hstate, hnext, hstream, hframe⟩

end Header

/-! The signature check and the hold of the fabric (R118, R121 steps 2 and 3, R128, R130). -/

theorem signatureCause_lt {s : State} {head : Nat} {g : ImgSignatures} {c : Nat} (h : signatureCause s head g = some c) : c < 2 ^ 8 := by
  unfold signatureCause at h
  extract_lets owner at h
  split_ifs at h
  all_goals exact lt_of_some h (by decide)

theorem frame_putWords (f : Nat → Fld) (n v : Nat) (s : State) : Frame [] ((List.range n).map f) s (putWords f n v s) := by
  have h := frame_puts ((List.range n).map (fun w => (f w, v / 2 ^ (32 * w)))) s
  rwa [List.map_map] at h

/-- The sectors' CONFIGURED. -/
def configuredFld (x : Nat) : Fld := FAB_SEC_STATUS_CONFIGURED (x / 32) (x % 32)

theorem frame_setConfigured (xs : List Nat) (b : Bool) (s : State) : Frame [] (xs.map configuredFld) s (setConfigured xs b s) :=
  frame_foldl xs s fun x hx u => (frame_flag u _ b).mono (List.Subset.refl _) (by simpa using ⟨x, hx, rfl⟩)

theorem frame_setRegionBusy (xs : List Nat) (b : Bool) (s : State) :
    Frame [] (xs.map fun x => FAB_SEC_STATUS_REGION_BUSY (x / 32) (x % 32)) s (setRegionBusy xs b s) :=
  frame_foldl xs s fun x hx u => (frame_flag u _ b).mono (List.Subset.refl _) (by simpa using ⟨x, hx, rfl⟩)

/-- A held sector has left the running ones. -/
theorem holdSectors_running {xs : List Nat} {x : Nat} (h : x ∈ xs) (s : State) : x ∉ (holdSectors xs s).fabric.running := by
  simp [holdSectors, h]

theorem foldl_load {α : Type} {f : State → α → State} (hf : ∀ u a, (f u a).config.load = u.config.load) :
    ∀ (l : List α) (s : State), (l.foldl f s).config.load = s.config.load
  | [], _ => rfl
  | a :: l, s => (foldl_load hf l (f s a)).trans (hf s a)

theorem clearShadow_load (held : Bool) (x : Nat) (s : State) : (clearShadow held x s).config.load = s.config.load := by
  unfold clearShadow
  rfl

theorem holdCaptured_load (xs : List Nat) (s : State) : (holdCaptured xs s).config.load = s.config.load := by
  unfold holdCaptured
  extract_lets ys u due
  split
  · rfl
  · show u.config.load = s.config.load
    refine foldl_load (fun v x => ?_) ys s
    exact clearShadow_load true x _

theorem holdSectors_load (xs : List Nat) (s : State) : (holdSectors xs s).config.load = s.config.load :=
  (foldl_load (fun u _ => congrArg Config.load (puts_config u _)) xs (holdCaptured xs s)).trans (holdCaptured_load xs s)

/-- Sectors held and cleared. -/
def fabricCleared (xs : List Nat) (s : State) : State :=
  clearSectors xs (setRegionBusy xs false (setConfigured xs false (holdSectors xs s)))

theorem fabricCleared_load (xs : List Nat) (s : State) : (fabricCleared xs s).config.load = s.config.load :=
  (congrArg Config.load ((frame_setRegionBusy ..).config (by simp))).trans
    ((congrArg Config.load ((frame_setConfigured ..).config (by simp))).trans (holdSectors_load xs s))

theorem fabricCleared_held {xs : List Nat} {x : Nat} (h : x ∈ xs) (s : State) : x ∉ (fabricCleared xs s).fabric.running := by
  have hfabric : (fabricCleared xs s).fabric = (holdSectors xs s).fabric :=
    ((frame_setRegionBusy ..).fabric (by simp)).trans ((frame_setConfigured ..).fabric (by simp))
  rw [hfabric]
  exact holdSectors_running h s

theorem fabricCleared_frames {xs : List Nat} {k : Nat} (h : k / 512 / 12288 ∈ xs) (s : State) :
    smGet 0 (fabricCleared xs s).onchip.frames k = 0 := clearSectors_frames rfl h _

/-- What the registers of the loader show where no image is loaded. -/
def noImageVals (l : Load) : List (Fld × Nat) := [(CFG_IMG_OWNER, 0), (CFG_IMG_DIES, 0), (CFG_IMG_VER_MINOR, 0), (CFG_STATUS_DONE_WAIT, 0),
  (CFG_STATUS_SU_PARTIAL, 0), (CFG_STATUS_ORDER_RSVD, 0), (CFG_STATUS_DEGRADED, l.degraded.toNat)]

/-- The registers show no image, and `n` words of its measurement read 0. -/
def noImage (n : Nat) (l : Load) (s : State) : State := putWords CFG_MEAS_MEAS n 0 (s.puts (noImageVals l))

theorem frame_noImage (n : Nat) (l : Load) (s : State) :
    Frame [] ((noImageVals l).map Prod.fst ++ (List.range n).map CFG_MEAS_MEAS) s (noImage n l s) :=
  ((frame_puts _ s).mono (List.Subset.refl _) fun _ hf => List.mem_append_left _ hf).trans
    ((frame_putWords ..).mono (List.Subset.refl _) fun _ hf => List.mem_append_right _ hf)

/-- The words of the measurement stand behind the other registers of the loader. -/
theorem putMeas_get {f : Fld} (h : f.key < 0x30000040040 * 32) (n v : Nat) (s : State) : (putWords CFG_MEAS_MEAS n v s).get f = s.get f :=
  (frame_putWords ..).get f (by
    simp only [List.map_map, List.mem_map, not_exists, not_and, Function.comp, CFG_MEAS_MEAS]
    omega)

theorem noImage_dies (n : Nat) (l : Load) (s : State) : (noImage n l s).get CFG_IMG_DIES = 0 := by
  rw [noImage, putMeas_get (by decide), noImageVals, State.puts, get_puts_last _ _ _ _ (by simp; decide)]
  rfl

/-- The hold of the fabric, from the state with its sectors cleared and no image. -/
def heldFrom (s : State) : State := { s with
    clocks := { s.clocks with bundles := [] }
    config := { s.config with
      loading := true, startups := [], regions := [], imgBundles := [], doneLow := true, donePin := false } }

theorem holdForLoad_eq (l : Load) (s : State) : holdForLoad l s = heldFrom (noImage 16 l (fabricCleared (List.range 128) s)) := rfl

/-- What the hold of the fabric leaves (R121 step 3). -/
structure FabricHeld (s t : State) : Prop where
  loading : t.config.loading = true
  startups : t.config.startups = []
  low : t.config.doneLow = true
  held : ∀ x < 128, sectorHeld t x = true
  clear : ∀ k, k / 512 / 12288 < 128 → smGet 0 t.onchip.frames k = 0
  dies : t.get CFG_IMG_DIES = 0
  bundles : t.clocks.bundles = []
  load : t.config.load = s.config.load

theorem heldFrom_holds {s u : State} (hout : ∀ x < 128, x ∉ u.fabric.running) (hzero : ∀ k, k / 512 / 12288 < 128 → smGet 0 u.onchip.frames k = 0)
    (hdies : u.get CFG_IMG_DIES = 0) (hload : u.config.load = s.config.load) : FabricHeld s (heldFrom u) :=
  ⟨rfl, rfl, rfl, fun x hx => by simp [sectorHeld, heldFrom, hout x hx], hzero, hdies, rfl, hload⟩

theorem FabricHeld.putState {s t : State} (h : FabricHeld s t) (v : Nat) : FabricHeld s (t.put CFG_STATUS_STATE v) :=
  ⟨h.loading, h.startups, h.low, h.held, h.clear, (get_put_other _ _ _ _ (by decide)).trans h.dies, h.bundles, h.load⟩

theorem holdForLoad_holds (l : Load) (s : State) : FabricHeld s (holdForLoad l s) := by
  have hframe := frame_noImage 16 l (fabricCleared (List.range 128) s)
  rw [holdForLoad_eq]
  refine heldFrom_holds (fun x hx => ?_) (fun k hk => ?_) (noImage_dies 16 l _) ?_
  · rw [hframe.fabric (by simp)]
    exact fabricCleared_held (List.mem_range.2 hx) s
  · rw [hframe.onchip (by simp)]
    exact fabricCleared_frames (List.mem_range.2 hk) s
  · rw [hframe.config (by simp)]
    exact fabricCleared_load (List.range 128) s

/-- A full image's signatures pass: its fabric is held. -/
theorem signaturesPass_full {l : Load} (hfull : l.isPart = false) (hkind : l.kind = 1) (s : State) :
    signaturesPass l s = (holdForLoad { l with signed := true } (setPhase { l with signed := true } 4 s)).put
      CFG_STATUS_STATE (if !s.onchip.frames.isEmpty then 6 else 4) := by
  unfold signaturesPass
  dsimp only
  rw [if_neg (by simp [hfull]), if_neg (by simp [hkind])]

section Signatures

variable {s : State} {l : Load} (hload : s.config.load = some l) (hfull : l.isPart = false) (hphase : l.phase = 3) (hsigned : l.signed = false)
include hload hfull hphase hsigned

theorem exec_loadSignaturesDone (sig : ImgSignatures) : exec (.loadSignaturesDone sig) s =
    match signatureCause s l.head sig with
    | some c => .next (loadFails c s.begin)
    | none => .next (signaturesPass l s.begin) := by
  show execLoadSignaturesDone sig s = _
  simp only [execLoadSignaturesDone, State.begin_config, hload, hfull, hphase, hsigned]
  rfl

theorem loadSignaturesDone_fails {sig : ImgSignatures} {c : Nat} (h : signatureCause s l.head sig = some c) :
    Ends (.loadSignaturesDone sig) s (LoadFailed l c s) := by
  refine ⟨loadFails c s.begin, ?_, begin_fails hload hfull (signatureCause_lt h)⟩
  rw [exec_loadSignaturesDone hload hfull hphase hsigned, h]

theorem loadSignaturesDone_passes {sig : ImgSignatures} (h : signatureCause s l.head sig = none) (hkind : l.kind = 1) :
    Ends (.loadSignaturesDone sig) s fun t => t.get CFG_STATUS_STATE = (if s.onchip.frames.isEmpty then 4 else 6) ∧
      t.config.loading = true ∧ t.config.startups = [] ∧ t.config.doneLow = true ∧ (∀ x < 128, sectorHeld t x = true) ∧
      (∀ k, k / 512 / 12288 < 128 → smGet 0 t.onchip.frames k = 0) ∧ t.get CFG_IMG_DIES = 0 ∧ t.clocks.bundles = [] ∧
      t.config.load = some { l with signed := true, phase := 4 } := by
  refine ⟨signaturesPass l s.begin, by rw [exec_loadSignaturesDone hload hfull hphase hsigned, h], ?_⟩
  rw [signaturesPass_full hfull hkind]
  obtain ⟨hloading, hstart, hlow, hheld, hclear, hdies, hbundles, hnext⟩ :=
    (holdForLoad_holds { l with signed := true } (setPhase { l with signed := true } 4 s.begin)).putState
      (if !s.begin.onchip.frames.isEmpty then 6 else 4)
  refine ⟨(get_put_same ..).trans ?_, hloading, hstart, hlow, hheld, hclear, hdies, hbundles, hnext⟩
  rw [State.begin_onchip]
  cases s.onchip.frames.isEmpty <;> rfl

end Signatures

/-- The causes of the signature check, in their order (R118, R121 step 2). -/
theorem signatureCause_order (s : State) (head : Nat) (sig : ImgSignatures) : let o := headField head 0x300 1
    (s.on (SEC_OWNER_PROGRAMMED o) = false ∨ s.on (SEC_OWNER_REVOKED o) = true → signatureCause s head sig = some 0x07) ∧
    (o < 4 → s.on (SEC_OWNER_PROGRAMMED o) = true → s.on (SEC_OWNER_REVOKED o) = false →
      (keyDigest head ≠ smGet 0 s.security.digests o → signatureCause s head sig = some 0x08) ∧
      (keyDigest head = smGet 0 s.security.digests o → (sig.ed = false → signatureCause s head sig = some 0x09) ∧
        (sig.ed = true → sig.mldsa = false → signatureCause s head sig = some 0x0A) ∧
        (sig.ed = true → sig.mldsa = true → headerDigestsGood head = false → signatureCause s head sig = some 0x0B))) := by
  intro o
  refine ⟨fun h => if_pos (.inr (h.imp (fun h => by rw [Bool.not_eq_true']; exact h) id)), fun ho hprog hrev => ?_⟩
  have hslot : ¬ (4 ≤ o ∨ (!s.on (SEC_OWNER_PROGRAMMED o)) = true ∨ s.on (SEC_OWNER_REVOKED o) = true) := by simp [hprog, hrev, ho]
  have hsteps : signatureCause s head sig = if keyDigest head ≠ smGet 0 s.security.digests o then some 0x08
      else if !sig.ed then some 0x09 else if !sig.mldsa then some 0x0A else if !headerDigestsGood head then some 0x0B
      else if headField head 0x1800 1 ≠ 1 ∨ !sig.unwraps then some 0x0C else none := if_neg hslot
  rw [hsteps]
  refine ⟨fun hkeys => if_pos hkeys, fun hkeys => ⟨fun hed => ?_, fun hed hml => ?_, fun hed hml hdig => ?_⟩⟩
  · simp [hkeys, hed]
  · simp [hkeys, hed, hml]
  · simp [hkeys, hed, hml, hdig]

/-- The first two checks of a full load's header. -/
theorem headerCause_order (s : State) {l : Load} (hfull : l.isPart = false) (h : ImgHeader) :
    (h.magic ≠ 0x474D493944585A55#64 → headerCause s l h = some 0x01) ∧
      (h.magic = 0x474D493944585A55#64 → h.verMajor ≠ 1#16 → headerCause s l h = some 0x02) := by
  have hmagic : h.magic.toNat = 0x474D493944585A55 ↔ h.magic = 0x474D493944585A55#64 := by rw [← BitVec.toNat_inj]; rfl
  have hver : h.verMajor.toNat = 1 ↔ h.verMajor = 1#16 := by rw [← BitVec.toNat_inj]; rfl
  have hpart : ¬ (l.isPart && !l.inStore && decide (2 ^ 48 ≤ l.addr)) = true := by simp [hfull]
  refine ⟨fun hne => ?_, fun heq hne => ?_⟩
  · rw [headerCause, if_neg hpart, if_pos (mt hmagic.1 hne)]
  · rw [headerCause, if_neg hpart, if_neg (not_not.2 (hmagic.2 heq)), if_pos (mt hver.1 hne)]

end Sys2Proof.Machine
end

section
/-! PROOFS. The steps of a full load: its records (R119, R120, R121 step 4). -/

namespace Sys2Proof.Machine

/-! Bytes of configuration frames (R120). -/

theorem padBytes_self {data : List Byte} {k : Nat} (h : data.length = k) : padBytes data k = data := by
  subst h
  simp [padBytes]

/-- A byte as the configuration path codes it. -/
theorem pathCode (b : Byte) : (if b = 0 then (0 : Coded) else encodeByte b) = encodeByte b := by
  split
  · next h => rw [h, encodeByte_zero]
  · rfl

/-- One byte of a frame written, with the memory contents that it may be. -/
def putFrameByte (key : Nat) (b : Byte) (s : State) : State :=
  let t := match contentKey key with
    | some k => putWord s k (if b = 0 then 0 else encodeByte b)
    | none => s
  { t with onchip := { t.onchip with frames := smSet 0 t.onchip.frames key (if b = 0 then 0 else encodeByte b) } }

theorem putFrameBytes_cons (key : Nat) (b : Byte) (l : List Byte) (s : State) :
    putFrameBytes key (b :: l) s = putFrameBytes (key + 1) l (putFrameByte key b s) := rfl

theorem putFrameByte_eq (key : Nat) (b : Byte) (s : State) : ∃ x, putFrameByte key b s = { s with onchip := x } ∧
    x.frames = smSet 0 s.onchip.frames key (encodeByte b) := by
  unfold putFrameByte
  cases contentKey key
  · exact ⟨_, rfl, congrArg (smSet 0 s.onchip.frames key) (pathCode b)⟩
  · exact ⟨_, rfl, congrArg (smSet 0 s.onchip.frames key) (pathCode b)⟩

theorem frame_putFrameBytes : ∀ (l : List Byte) (key : Nat) (s : State), Frame [.onchip] [] s (putFrameBytes key l s)
  | [], _, s => Frame.refl s _ _
  | b :: l, key, s => by
    obtain ⟨x, hx, -⟩ := putFrameByte_eq key b s
    rw [putFrameBytes_cons, hx]
    exact (frame_onchip s x).trans (frame_putFrameBytes l _ _)

/-- Frame bytes before those written stand. -/
theorem putFrameBytes_before {k : Nat} : ∀ (l : List Byte) {key : Nat} (s : State), k < key →
    smGet 0 (putFrameBytes key l s).onchip.frames k = smGet 0 s.onchip.frames k
  | [], _, _, _ => rfl
  | b :: l, key, s, h => by
    obtain ⟨x, hx, hframes⟩ := putFrameByte_eq key b s
    rw [putFrameBytes_cons, putFrameBytes_before l _ (by omega), hx]
    show smGet 0 x.frames k = _
    rw [hframes, smGet_smSet_other _ _ _ _ _ (by omega)]

/-- Each frame byte is written with its check bits. -/
theorem putFrameBytes_written {l : List Byte} {i : Nat} {b : Byte} (h : l[i]? = some b) (key : Nat) (s : State) :
    smGet 0 (putFrameBytes key l s).onchip.frames (key + i) = encodeByte b := by
  induction l generalizing key s i with
  | nil => simp at h
  | cons c l ih =>
    rw [putFrameBytes_cons]
    cases i with
    | zero =>
      obtain ⟨x, hx, hframes⟩ := putFrameByte_eq key c s
      obtain rfl : c = b := by simpa using h
      refine (putFrameBytes_before l _ (Nat.lt_add_one key)).trans ?_
      rw [hx]
      show smGet 0 x.frames key = _
      rw [hframes, smGet_smSet_same]
    | succ i =>
      rw [Nat.add_comm i 1, ← Nat.add_assoc]
      exact ih (by simpa using h) (key + 1) _

/-! Bytes of MEM records (R125, R255). -/

theorem wordAt_storeWord_other (s : State) (p unit inst addr k : Nat) (w : Coded) (h : k ≠ byteKey p unit inst addr) :
    wordAt (storeWord s p unit inst addr w) k = wordAt s k := congrArg (· ^^^ wildWord s k) (storeWord_other s p unit inst addr k w h)

/-- A byte that a run of writes does not name stands. -/
theorem pathWrite_other {p unit inst k : Nat} : ∀ (l : List Byte) (addr : Nat) (s : State),
    (∀ j < l.length, k ≠ byteKey p unit inst (addr + j)) → wordAt (pathWrite p unit inst addr l s) k = wordAt s k
  | [], _, _, _ => rfl
  | b :: l, addr, s, h => by
    rw [pathWrite, pathWrite_other l (addr + 1) _ fun j hj => by
      rw [show addr + 1 + j = addr + (j + 1) by omega]
      exact h (j + 1) (by simpa using hj)]
    exact wordAt_storeWord_other s p unit inst addr k _ (h 0 (by simp))

/-- Each byte of a run is written with its check bits. -/
theorem pathWrite_written {p unit inst : Nat} {l : List Byte} {i : Nat} {b : Byte} (h : l[i]? = some b) (addr : Nat) (s : State) :
    storedWord (pathWrite p unit inst addr l s) p unit inst (addr + i) = encodeByte b := by
  induction l generalizing addr s i with
  | nil => simp at h
  | cons c l ih =>
    rw [pathWrite, pathCode]
    cases i with
    | zero =>
      obtain rfl : c = b := by simpa using h
      refine (pathWrite_other l (addr + 1) _ fun j _ => ?_).trans (storedWord_storeWord_same s p unit inst addr _)
      simp only [byteKey]
      omega
    | succ i =>
      rw [Nat.add_comm i 1, ← Nat.add_assoc]
      exact ih (by simpa using h) (addr + 1) _

/-- A run of bytes stands in memory 0 of a hub engine. -/
def InEngine (g off : Nat) (data : List Byte) (s : State) : Prop := ∀ i b, data[i]? = some b → storedWord s 20 g 0 (off + i) = encodeByte b

/-- A run written for one engine leaves the bytes of another. -/
theorem InEngine.other {g h off : Nat} {data : List Byte} {s : State} (hin : InEngine g off data s) (hne : g ≠ h)
    (hfit : off + data.length ≤ 0x8000) : InEngine g off data (pathWrite 20 h 0 off data s) := fun i b hb => by
  have hi : i < data.length := (List.getElem?_eq_some_iff.1 hb).1
  refine (pathWrite_other data off s fun j hj => ?_).trans (hin i b hb)
  simp only [byteKey, instKey]
  omega

/-- A record of the first memories is written for each engine that it names. -/
def writeEngines (a b off : Nat) (data : List Byte) (gs : List Nat) (s : State) : State :=
  gs.foldl (fun s g => if a ≤ g ∧ g ≤ b then pathWrite 20 g 0 off data s else s) s

theorem writeEngines_cons (a b off e : Nat) (data : List Byte) (gs : List Nat) (s : State) : writeEngines a b off data (e :: gs) s =
    writeEngines a b off data gs (if a ≤ e ∧ e ≤ b then pathWrite 20 e 0 off data s else s) := rfl

theorem writeEngines_stands {a b off g : Nat} {data : List Byte} (hfit : off + data.length ≤ 0x8000) {gs : List Nat} {s : State}
    (hmem : g ∉ gs) (h : InEngine g off data s) : InEngine g off data (writeEngines a b off data gs s) := by
  induction gs generalizing s with
  | nil => exact h
  | cons e gs ih =>
    obtain ⟨hne, hrest⟩ := not_or.1 (mt List.mem_cons.2 hmem)
    rw [writeEngines_cons]
    refine ih hrest ?_
    split
    · exact h.other hne hfit
    · exact h

theorem writeEngines_written {a b off g : Nat} {data : List Byte} (hfit : off + data.length ≤ 0x8000) (ha : a ≤ g) (hb : g ≤ b) {gs : List Nat}
    (hmem : g ∈ gs) (hnodup : gs.Nodup) (s : State) : InEngine g off data (writeEngines a b off data gs s) := by
  induction gs generalizing s with
  | nil => simp at hmem
  | cons e gs ih =>
    obtain ⟨hout, hrest⟩ := List.nodup_cons.1 hnodup
    rw [writeEngines_cons]
    by_cases he : g = e
    · subst he
      rw [if_pos ⟨ha, hb⟩]
      exact writeEngines_stands hfit hout fun i b h => pathWrite_written h off s
    · exact ih ((List.mem_cons.1 hmem).resolve_left he) hrest _

theorem writeBamidRecord_engines {r : MemRecord} (hgood : bamidRecordGood r = true) (hfirst : r.word1.toNat / 2 ^ 28 = 0)
    (hlen : r.data.length = r.word2.toNat) (s : State) :
    InEngine (r.word3.toNat % 64) (r.word1.toNat % 2 ^ 28) r.data (writeBamidRecord r s) := by
  have hrun : writeBamidRecord r s =
      writeEngines (r.word3.toNat % 64) (slice r.word3.toNat 8 6) (r.word1.toNat % 2 ^ 28) r.data (List.range 4) s := by
    simp only [writeBamidRecord, hfirst, padBytes_self hlen]
    rfl
  simp only [bamidRecordGood, hfirst, ← hlen, Bool.and_eq_true, decide_eq_true_eq] at hgood
  obtain ⟨-, ⟨⟨hfit, ha⟩, -⟩, hab⟩ := hgood
  rw [hrun]
  exact writeEngines_written hfit (Nat.le_refl _) hab (List.mem_range.2 (by omega)) List.nodup_range s

/-! The records of a full load (R119). -/

section Records

variable {s : State} {l : Load} (hload : s.config.load = some l) (hfull : l.isPart = false) (hclear : NoClear s)
include hload hfull

theorem taken_fails (n : Nat) {c : Nat} (hc : c < 2 ^ 8) : LoadFailed l c s (loadFails c (streamTaken l n s.begin)) :=
  loadFails_failed (streamTaken_same hload n) hfull hc

include hclear

/-- A record whose bytes have come and can be read is taken. -/
theorem onRecord_taken (hphase : l.phase = 4 ∨ l.phase = 5) {n : Nat} (hread : Readable l (0x2000 + l.pos) (16 + n) s) (f : Load → State → State) :
    onRecord n .good f s = .next (if l.total.isSome then loadFails 0x0D (streamTaken l (16 + n) s.begin)
      else f (l.took n) (streamTaken l (16 + n) s.begin)) := by
  obtain ⟨-, hcome, hpages⟩ := hread
  have hc : clearDone s.begin = s.begin := clearDone_none (s := s.begin) hclear
  have htakes : takesRecords l = true := by simpa [takesRecords, hfull] using hphase
  obtain ⟨v, hv⟩ := takeStream_come (s := s.begin) hfull hcome
  have hgood : readCause l (0x2000 + l.pos) (16 + n) .good (streamTaken l (16 + n) s.begin) = (none, streamTaken l (16 + n) s.begin) :=
    readCause_good (PagesGood.taken (s := s) hpages _)
  simp only [onRecord, hc, State.begin_config, hload, htakes, hv, hgood]
  rfl

/-- A record that does not hold fails the load. -/
theorem record_fails {i : Instr} {n : Nat} {f : Load → State → State} (hexec : exec i s = onRecord n .good f s) (hphase : l.phase = 4 ∨ l.phase = 5)
    (hread : Readable l (0x2000 + l.pos) (16 + n) s)
    (hbad : l.total.isSome = true ∨ ∀ t, f (l.took n) t = loadFails 0x0D t) : Ends i s (LoadFailed l 0x0D s) := by
  refine ⟨loadFails 0x0D (streamTaken l (16 + n) s.begin), ?_, taken_fails hload hfull _ (by decide)⟩
  rw [hexec, onRecord_taken hload hfull hclear hphase hread]
  rcases hbad with h | h
  · rw [if_pos h]
  · rw [h, ite_self]

/-- A record that holds does what it is for. -/
theorem record_acts {i : Instr} {n : Nat} {f : Load → State → State} (hexec : exec i s = onRecord n .good f s) (hphase : l.phase = 4)
    (htotal : l.total = none) (hread : Readable l (0x2000 + l.pos) (16 + n) s) {P : State → Prop}
    (h : ∀ t, Frame [.config] [] s t → t.regs = s.regs → P (f (l.took n) t)) : Ends i s P := by
  refine ⟨f (l.took n) (streamTaken l (16 + n) s.begin), ?_,
    h _ ((frame_streamTaken l (16 + n) s.begin).begin) (streamTaken_regs l (16 + n) s.begin)⟩
  rw [hexec, onRecord_taken hload hfull hclear (.inl hphase) hread, if_neg (by simp [htotal])]

end Records

/-- What FRAMES_RECORD does (R119, R120). -/
def framesDo (word0 addr count word3 : Word) (data : List Byte) (l : Load) (s : State) : State :=
  if l.kind = 3 then loadFails 0x0D s
  else if badFrames word0.toNat addr.toNat count.toNat word3.toNat (if l.isPart then 15 else l.dies) then loadFails 0x0D s
  else
    if l.isPart then
      if !l.region.contains (addrSector addr.toNat) then loadFails 0x21 s
      else setLoad { l with
        written := l.written + count.toNat
        staged := l.staged ++ (List.range count.toNat).map (fun i => (addrSector addr.toNat * 12288 + slice addr.toNat 11 14 + i,
          fromBytes (((padBytes data (count.toNat * 512)).drop (512 * i)).take 512))) } s
    else setLoad { l with written := l.written + count.toNat }
      (if partFailed s (addrSector addr.toNat / 32) then s
      else putFrames (addrSector addr.toNat) (slice addr.toNat 11 14) (padBytes data (count.toNat * 512)) s)

theorem exec_framesRecord (word0 addr count word3 : Word) (data : List Byte) (r : SourceRead) (s : State) :
    exec (.framesRecord word0 addr count word3 data r) s =
      onRecord (count.toNat * 512) r (framesDo word0 addr count word3 data) s := rfl

/-- What SETTING_RECORD does (R119, R141). -/
def settingDo (word0 off value word3 : Word) (l : Load) (s : State) : State :=
  if l.kind = 3 then loadFails 0x0D s
  else if l.isPart then loadFails 0x22 s
  else if word0.toNat ≠ 2 ∨ word3.toNat ≠ 0 ∨ 64 ≤ l.settings.length ∨ 0x4000000 ≤ off.toNat
      ∨ (imageFields (0x030000000000 + off.toNat) 0).isEmpty then loadFails 0x0D s
  else setLoad { l with settings := l.settings ++ [(off.toNat, value.toNat)] } s

theorem exec_settingRecord (word0 off value word3 : Word) (s : State) :
    exec (.settingRecord word0 off value word3) s = onRecord 0 .good (settingDo word0 off value word3) s := rfl

/-- What END_RECORD does (R119). -/
def endDo (word0 total word2 word3 : Word) (l : Load) (s : State) : State :=
  if word0.toNat ≠ 0x0F ∨ word2.toNat ≠ 0 ∨ word3.toNat ≠ 0 ∨ l.pos + 16 ≠ l.payloadLen then loadFails 0x0D s
  else if l.isPart then (setLoad { l with total := some total.toNat } s).put CFG_PR_STATUS_PHASE (if l.signed then 2 else 1)
  else setPhase { l with total := some total.toNat } 5 s

theorem exec_endRecord (word0 total word2 word3 : Word) (s : State) :
    exec (.endRecord word0 total word2 word3) s = onRecord 0 .good (endDo word0 total word2 word3) s := rfl

/-- What MEM_RECORD does (R119, R125, R126). -/
def memDo (word0 : Word) (r : MemRecord) (l : Load) (s : State) : State :=
  if l.kind ≠ 3 ∨ word0.toNat ≠ 4 ∨ !bamidRecordGood r then loadFails 0x0D s else setLoad l (writeBamidRecord r s)

theorem exec_memRecord (word0 : Word) (r : MemRecord) (e : SourceRead) (s : State) :
    exec (.memRecord word0 r e) s = onRecord r.word2.toNat e (memDo word0 r) s := rfl

theorem partFailed_congr {s t : State} (h : t.regs = s.regs) (p : Nat) : partFailed t p = partFailed s p := by
  rw [eq_of_regs h]
  rfl

theorem frame_setLoad (l : Load) (s : State) : Frame [.config] [] s (setLoad l s) := frame_onConfig s _

section Records

variable {s : State} {l : Load} (hload : s.config.load = some l) (hfull : l.isPart = false) (hclear : NoClear s)
  (hphase : l.phase = 4) (htotal : l.total = none)
include hload hfull hclear hphase

theorem framesRecord_bad {word0 addr count word3 : Word} (hbad : badFrames word0.toNat addr.toNat count.toNat word3.toNat l.dies = true)
    (data : List Byte) (hread : Readable l (0x2000 + l.pos) (16 + count.toNat * 512) s) :
    Ends (.framesRecord word0 addr count word3 data .good) s (LoadFailed l 0x0D s) := by
  refine record_fails hload hfull hclear (exec_framesRecord ..) (.inl hphase) hread (.inr fun t => ?_)
  rw [framesDo]
  by_cases hkind : (l.took (count.toNat * 512)).kind = 3
  · rw [if_pos hkind]
  · have hdies : (if (l.took (count.toNat * 512)).isPart then 15 else (l.took (count.toNat * 512)).dies) = l.dies :=
      if_neg (by simp [Load.took, hfull])
    rw [if_neg hkind, hdies, if_pos hbad]

theorem memRecord_bad {r : MemRecord} (hkind : l.kind ≠ 3) (word0 : Word) (hread : Readable l (0x2000 + l.pos) (16 + r.word2.toNat) s) :
    Ends (.memRecord word0 r .good) s (LoadFailed l 0x0D s) :=
  record_fails hload hfull hclear (exec_memRecord ..) (.inl hphase) hread (.inr fun _ => if_pos (.inl hkind))

include htotal

theorem framesRecord_good (hkind : l.kind = 1) {addr count : Word} {data : List Byte}
    (hgood : badFrames 1 addr.toNat count.toNat 0 l.dies = false) (hlen : data.length = count.toNat * 512)
    (hread : Readable l (0x2000 + l.pos) (16 + count.toNat * 512) s) (hup : partFailed s (addrSector addr.toNat / 32) = false) :
    Ends (.framesRecord 1 addr count 0 data .good) s fun t =>
      (∀ i b, data[i]? = some b → smGet 0 t.onchip.frames (frameKey (addrSector addr.toNat) (slice addr.toNat 11 14) 0 + i) = encodeByte b) ∧
      t.config.load = some { l.took (count.toNat * 512) with written := l.written + count.toNat } ∧ Frame [.config, .onchip] [] s t := by
  refine record_acts hload hfull hclear (exec_framesRecord ..) hphase htotal hread fun t hframe hregs => ?_
  have hdo : framesDo 1 addr count 0 data (l.took (count.toNat * 512)) t = setLoad { l.took (count.toNat * 512) with written := l.written + count.toNat }
      (putFrameBytes (frameKey (addrSector addr.toNat) (slice addr.toNat 11 14) 0) data t) := by
    rw [framesDo, if_neg (by simp [Load.took, hkind]), if_neg (by simpa [Load.took, hfull] using hgood), if_neg (by simp [Load.took, hfull]),
      if_neg (by simp [partFailed_congr hregs, hup]), padBytes_self hlen]
    rfl
  rw [hdo]
  refine ⟨fun i b hb => putFrameBytes_written hb _ t, rfl, ?_⟩
  exact (hframe.mono (by simp) (by simp)).trans
    (((frame_putFrameBytes data _ t).mono (by simp) (by simp)).trans ((frame_setLoad _ _).mono (by simp) (by simp)))

theorem settingRecord_good (hkind : l.kind = 1) (hread : Readable l (0x2000 + l.pos) 16 s) {off v : Word} (hroom : l.settings.length < 64)
    (hoff : off.toNat < 0x4000000) (himage : imageFields (0x030000000000 + off.toNat) 0 ≠ []) : Ends (.settingRecord 2 off v 0) s fun t =>
      t.config.load = some { l.took 0 with settings := l.settings ++ [(off.toNat, v.toNat)] } ∧ Frame [.config] [] s t := by
  refine record_acts hload hfull hclear (exec_settingRecord ..) hphase htotal hread fun t hframe _ => ?_
  have hshape : ¬ ((2 : Word).toNat ≠ 2 ∨ (0 : Word).toNat ≠ 0 ∨ 64 ≤ (l.took 0).settings.length ∨ 0x4000000 ≤ off.toNat
      ∨ (imageFields (0x030000000000 + off.toNat) 0).isEmpty = true) := by
    rintro (h | h | h | h | h)
    · exact h rfl
    · exact h rfl
    · exact Nat.not_le.2 hroom h
    · omega
    · exact himage (List.isEmpty_iff.1 h)
  rw [settingDo, if_neg (by simp [Load.took, hkind]), if_neg (by simp [Load.took, hfull]), if_neg hshape]
  exact ⟨rfl, hframe.trans (frame_setLoad _ _)⟩

theorem endRecord_good (hread : Readable l (0x2000 + l.pos) 16 s) (hend : l.pos + 32 = l.payloadLen) (n : Word) :
    Ends (.endRecord 0x0F n 0 0) s fun t => t.config.load = some { l.took 0 with total := some n.toNat, phase := 5 } ∧
      t.get CFG_STATUS_STATE = 5 ∧ Frame [.config] [CFG_STATUS_STATE] s t := by
  refine record_acts hload hfull hclear (exec_endRecord ..) hphase htotal hread fun t hframe _ => ?_
  have hshape : ¬ ((0x0F : Word).toNat ≠ 0x0F ∨ (0 : Word).toNat ≠ 0 ∨ (0 : Word).toNat ≠ 0 ∨ (l.took 0).pos + 16 ≠ (l.took 0).payloadLen) := by
    rintro (h | h | h | h)
    · exact h rfl
    · exact h rfl
    · exact h rfl
    · exact h hend
  rw [endDo, if_neg hshape, if_neg (by simp [Load.took, hfull])]
  exact ⟨rfl, setPhase_state _ (by decide) t, (hframe.mono (List.Subset.refl _) (by simp)).trans (frame_setPhase _ _ t)⟩

theorem memRecord_bamid (hkind : l.kind = 3) {r : MemRecord} (hgood : bamidRecordGood r = true) (hfirst : r.word1.toNat / 2 ^ 28 = 0)
    (hread : Readable l (0x2000 + l.pos) (16 + r.word2.toNat) s) (hlen : r.data.length = r.word2.toNat) :
    Ends (.memRecord 4 r .good) s fun t =>
      InEngine (r.word3.toNat % 64) (r.word1.toNat % 2 ^ 28) r.data t ∧
      t.config.load = some (l.took r.word2.toNat) ∧ Frame [.config, .onchip] [] s t := by
  refine record_acts hload hfull hclear (exec_memRecord ..) hphase htotal hread fun t hframe _ => ?_
  rw [memDo, if_neg (by simp [Load.took, hkind, hgood])]
  exact ⟨writeBamidRecord_engines hgood hfirst hlen t, rfl, (hframe.mono (by simp) (by simp)).trans
    (((frame_writeBamidRecord r t).mono (by simp) (by simp)).trans ((frame_setLoad _ _).mono (by simp) (by simp)))⟩

omit htotal in
theorem endRecord_bad (hread : Readable l (0x2000 + l.pos) 16 s) (hend : l.pos + 32 ≠ l.payloadLen) (n : Word) :
    Ends (.endRecord 0x0F n 0 0) s (LoadFailed l 0x0D s) :=
  record_fails hload hfull hclear (exec_endRecord ..) (.inl hphase) hread (.inr fun _ => if_pos (.inr (.inr (.inr hend))))

end Records

/-- A record behind END (R119). -/
theorem settingRecord_behind {s : State} {l : Load} (hload : s.config.load = some l) (hfull : l.isPart = false) (hclear : NoClear s)
    (hphase : l.phase = 5) (htotal : l.total.isSome = true) (hread : Readable l (0x2000 + l.pos) 16 s) (w0 a b c : Word) :
    Ends (.settingRecord w0 a b c) s (LoadFailed l 0x0D s) :=
  record_fails hload hfull hclear (exec_settingRecord ..) (.inr hphase) hread (.inl htotal)

end Sys2Proof.Machine
end

section
/-! PROOFS. The steps of a full load: its final checks, and O19 is assembled (R121 steps 5 and 6). -/

namespace Sys2Proof.Machine

/-! CONFIGURED of a sector, and what leaves it as it is. -/

theorem configured_key (x : Nat) : (configuredFld x).key = (0x30000100000 + x / 32 * 0x40000 + x % 32 * 4) * 32 := Nat.add_zero _

/-- No image field stands at the lowest bit of a register of the dies' sectors. -/
theorem hubRows_image_below : ∀ r ∈ hubRows, (∃ f ∈ r.fields, f.lo = 0 ∧ f.kind = .image) → r.base + extent r.dims < 0x30000100000 := by
  decide +kernel

/-- CONFIGURED takes no value from an image. -/
theorem imageRow_configured (x : Nat) : imageRow (configuredFld x).key = none := by
  have hword : (configuredFld x).key / 32 = 0x30000100000 + x / 32 * 0x40000 + x % 32 * 4 := by rw [configured_key]; omega
  have hlo : (configuredFld x).key % 32 = 0 := by rw [configured_key]; omega
  simp only [imageRow, Option.bind_eq_none_iff, Option.map_eq_none_iff, Prod.forall]
  intro r ix hrow
  rw [hlo, List.find?_eq_none]
  intro f hf himage
  obtain ⟨hzero, hkind⟩ := Bool.and_eq_true_iff.1 himage
  rw [rowOf, if_neg (by omega)] at hrow
  obtain ⟨hmem, -, hlast⟩ := rowAt_bounds hrow
  have := hubRows_image_below r hmem ⟨f, hf, eq_of_beq hzero, eq_of_beq hkind⟩
  omega

/-- An image field has its row at its own key. -/
theorem imageRow_imageFields {a v : Nat} {e : Fld × Nat} (h : e ∈ imageFields a v) : imageRow e.1.key ≠ none := by
  unfold imageFields at h
  split at h
  · next r ix hrow =>
    obtain ⟨f, hf, rfl⟩ := List.mem_map.1 h
    obtain ⟨hmem, hkind⟩ := List.mem_filter.1 hf
    have hlo : f.lo < 32 := rowOf_lo hrow f hmem
    have ha : (a * 32 + f.lo) / 32 = a := by omega
    have hl : (a * 32 + f.lo) % 32 = f.lo := by omega
    intro hnone
    simp only [imageRow, FieldRow.ref, ha, hl, hrow, Option.bind_some, Option.map_eq_none_iff, List.find?_eq_none] at hnone
    exact hnone f hmem (by simpa using hkind)
  · simp at h

theorem declared_apart {d : Declared} {x : Nat} {e : Fld × Nat} (h : e ∈ declaredVals d) : (configuredFld x).key ≠ e.1.key := by
  simp only [declaredVals, List.mem_append, List.mem_flatMap] at h
  rcases h with (⟨i, -, hi⟩ | ⟨b, -, hb⟩) | ⟨n, -, hn⟩
  · simp only [List.mem_cons, List.not_mem_nil, or_false] at hi
    rcases hi with rfl | rfl | rfl <;> simp only [configured_key, CLK_ISL_FREQ, CLK_ISL_FUSE, CLK_ISL_LEADER] <;> omega
  · simp only [List.mem_cons, List.not_mem_nil, or_false] at hb
    rcases hb with rfl | rfl <;> simp only [configured_key, FAB_BANK_STATUS_VCCIO_IMG, FAB_BANK_STATUS_GEAR] <;> omega
  · intro heq
    exact imageRow_imageFields hn (heq ▸ imageRow_configured x)

/-- The register values that a load of an image brings. -/
def imageVals (l : Load) (d : Declared) : List (Fld × Nat) :=
  declaredVals d ++ l.settings.flatMap (fun e => imageFields (0x030000000000 + e.1) e.2)

theorem imageVals_apart (l : Load) (d : Declared) (x : Nat) : ∀ e ∈ imageVals l d, (configuredFld x).key ≠ e.1.key := by
  intro e he
  rcases List.mem_append.1 he with h | h
  · exact declared_apart h
  · obtain ⟨n, -, hn⟩ := List.mem_flatMap.1 h
    intro heq
    exact imageRow_imageFields hn (heq ▸ imageRow_configured x)

/-- An entry that a filter of keys keeps reads as before. -/
theorem smGet_filter_kept {α : Type} (d : α) (f : Nat → Bool) {k : Nat} (h : f k = true) : ∀ m : List (Nat × α),
    smGet d (m.filter (fun e => f e.1)) k = smGet d m k
  | [] => rfl
  | (j, v) :: m => by
    rw [List.filter_cons]
    split
    · rw [smGet, smGet, smGet_filter_kept d f h m]
    · next hj =>
      have hne : j ≠ k := by rintro rfl; simp_all
      rw [smGet, if_neg hne, smGet_filter_kept d f h m]

/-- A value that an image gives a field. -/
def takeValue (s : State) (e : Fld × Nat) : State :=
  { s.put e.1 e.2 with imageVals := smSet 0 s.imageVals e.1.key ((e.2 % 2 ^ e.1.w) ^^^ e.1.cold) }

theorem get_takeValues {f : Fld} : ∀ (l : List (Fld × Nat)) (s : State), (∀ e ∈ l, f.key ≠ e.1.key) → (l.foldl takeValue s).get f = s.get f
  | [], _, _ => rfl
  | e :: l, s, h => by
    rw [List.foldl_cons, get_takeValues l _ fun a ha => h a (List.mem_cons_of_mem _ ha)]
    exact get_put_other s e.1 f e.2 (h e List.mem_cons_self)

/-- A field that takes no value from an image stands. -/
theorem applyImage_get {f : Fld} {vals : List (Fld × Nat)} (hrow : imageRow f.key = none) (h : ∀ e ∈ vals, f.key ≠ e.1.key) (mine : Nat → Bool)
    (s : State) : (applyImage mine vals s).get f = s.get f := by
  refine (get_takeValues _ _ fun e he => h e (List.mem_filter.1 he).1).trans ?_
  have hkept := smGet_filter_kept (k := f.key) (0 : Nat) (fun k => !((imageRow k).isSome && mine k && !imageLocked s k)) (by simp [hrow]) s.regs
  exact congrArg (· ^^^ f.cold) hkept

/-- What the check of the banks may touch (R83). -/
def bankFlds : List Fld := (List.range 12).flatMap (fun b => [FAB_BANK_STATUS_MISMATCH (b / 3) (b % 3),
  FAB_SEC_CAUSE_BANK (b / 3) (bankOwner b % 32)]) ++ alertFlds

theorem frame_checkBank {b : Nat} (h : b < 12) (s : State) : Frame [.host] bankFlds s (checkBank b s) := by
  have hmem : ∀ f ∈ [FAB_BANK_STATUS_MISMATCH (b / 3) (b % 3), FAB_SEC_CAUSE_BANK (b / 3) (bankOwner b % 32)], f ∈ bankFlds := fun f hf =>
    List.mem_append_left _ (List.mem_flatMap.2 ⟨b, List.mem_range.2 h, hf⟩)
  unfold checkBank
  extract_lets d k img
  split
  · exact Frame.refl ..
  · refine ((frame_flag s _ true).mono (List.nil_subset _) ?_).trans ((frame_raiseLeaf d _ _).mono (List.Subset.refl _) ?_)
    · exact List.forall_mem_singleton.2 (hmem _ (by simp [d, k]))
    · exact List.forall_mem_cons.2 ⟨hmem _ (by simp [d]), fun f hf => List.mem_append_right _ hf⟩

theorem frame_checkBanks (s : State) : Frame [.host] bankFlds s (checkBanks s) := by
  refine frame_foldl _ s fun b hb u => ?_
  have hb : b < 12 := List.mem_range.1 hb
  dsimp only
  split
  · exact (frame_flag u _ false).mono (List.nil_subset _) (List.forall_mem_singleton.2
      (List.mem_append_left _ (List.mem_flatMap.2 ⟨b, List.mem_range.2 hb, by simp⟩)))
  · exact frame_checkBank hb u

theorem configured_not_bank {x : Nat} (hx : x < 128) : (configuredFld x).key ∉ bankFlds.map Fld.key := by
  rw [bankFlds, List.map_append, List.mem_append, not_or]
  refine ⟨fun hm => ?_, key_not_alert (by rw [configured_key]; omega)⟩
  obtain ⟨f, hf, hkey⟩ := List.mem_map.1 hm
  obtain ⟨b, hb, hf⟩ := List.mem_flatMap.1 hf
  have hb : b < 12 := List.mem_range.1 hb
  rw [configured_key] at hkey
  rcases List.mem_cons.1 hf with rfl | hf
  · simp only [FAB_BANK_STATUS_MISMATCH] at hkey
    omega
  · simp only [List.mem_singleton.1 hf, FAB_SEC_CAUSE_BANK] at hkey
    omega

theorem configuredFld_eq_of_key {x y : Nat} (h : (configuredFld x).key = (configuredFld y).key) : configuredFld x = configuredFld y := by
  have hx : configuredFld x = ⟨(configuredFld x).key, 1, 0⟩ := rfl
  rw [hx, h]
  rfl

/-- CONFIGURED set for a list of sectors. -/
theorem setConfigured_on {x : Nat} : ∀ (xs : List Nat) (s : State), x ∈ xs ∨ s.on (configuredFld x) = true →
    (setConfigured xs true s).on (configuredFld x) = true
  | [], _, h => h.resolve_left (by simp)
  | y :: xs, s, h => by
    refine setConfigured_on xs (s.flag (configuredFld y) true) ?_
    by_cases hkey : (configuredFld x).key = (configuredFld y).key
    · rw [configuredFld_eq_of_key hkey]
      exact .inr (on_flag_same s (configuredFld y) true rfl)
    · refine h.imp (fun hm => (List.mem_cons.1 hm).resolve_left ?_) fun hon => (on_flag_other _ _ _ _ hkey).trans hon
      rintro rfl
      exact hkey rfl

/-! What a good image sets (R121 step 6). -/

/-- The image's values are in the registers, and its sectors are configured. -/
def imageTaken (l : Load) (d : Declared) (s : State) : State :=
  checkBanks (applyImage (fun _ => true) (imageVals l d) (setConfigured (loadSectors s l) true s))

theorem mem_loadSectors {s : State} {l : Load} {x : Nat} (h : x ∈ loadSectors s l) : x < 128 :=
  List.mem_range.1 (List.mem_filter.1 (List.mem_filter.1 h).1).1

theorem imageTaken_configured {s : State} {l : Load} {x : Nat} (h : x ∈ loadSectors s l) (d : Declared) :
    (imageTaken l d s).on (configuredFld x) = true := by
  have hx := mem_loadSectors h
  rw [imageTaken, State.on, (frame_checkBanks _).get _ (configured_not_bank hx), applyImage_get (imageRow_configured x) (imageVals_apart l d x)]
  exact setConfigured_on _ s (.inl h)

/-- What the loader's registers show of the image that is loaded. -/
def shownVals (l : Load) : List (Fld × Nat) := [(RST_LINK_SCOPE_LOCK, 1), (CFG_IMG_OWNER, l.owner), (CFG_IMG_DIES, l.dies),
  (CFG_IMG_VER_MINOR, l.verMinor), (CFG_PR_STATUS_REGION_LOST, 0), (CFG_STATUS_STATE, 7), (CFG_HLOAD_CTRL_ACTIVE, 0)]

/-- The image's measurement, of `n` words, is shown with it. -/
def imageShown (n m : Nat) (l : Load) (s : State) : State := putWords CFG_MEAS_MEAS n m (s.puts (shownVals l))

/-- The reserved codes of ORDER are reported (R131). -/
def orderShown (s : State) : State := if 6 ≤ s.get CFG_SU_CTRL_ORDER then s.flag CFG_STATUS_ORDER_RSVD true else s

theorem frame_orderShown (s : State) : Frame [] [CFG_STATUS_ORDER_RSVD] s (orderShown s) :=
  iteInduction (fun _ => frame_flag s _ _) (fun _ => Frame.refl s _ _)

/-- Of several writes of fields with keys of their own, each reads back. -/
theorem get_puts_mem {f : Fld} {v : Nat} (l : List (Fld × Nat)) (s : State) (hnd : (l.map (·.1.key)).Nodup) (hm : (f, v) ∈ l) :
    (s.puts l).get f = v % 2 ^ f.w := by
  induction l generalizing s with
  | nil => exact absurd hm List.not_mem_nil
  | cons e l ih =>
    obtain ⟨hout, hrest⟩ := List.nodup_cons.1 hnd
    rcases List.mem_cons.1 hm with rfl | hm
    · exact get_puts_last f v l s fun e he heq => hout (List.mem_map.2 ⟨e, he, heq.symm⟩)
    · exact ih (s.put e.1 e.2) hrest hm

theorem putMeas_word {n w : Nat} (h : w < n) (v : Nat) (s : State) : (putWords CFG_MEAS_MEAS n v s).get (CFG_MEAS_MEAS w) = slice v (32 * w) 32 := by
  have hnd : (((List.range n).map (fun w => (CFG_MEAS_MEAS w, v / 2 ^ (32 * w)))).map (·.1.key)).Nodup := by
    rw [List.map_map]
    refine List.Nodup.map_on (fun a _ b _ hab => ?_) List.nodup_range
    simp only [Function.comp, CFG_MEAS_MEAS] at hab
    omega
  rw [putWords, get_puts_mem _ _ hnd (List.mem_map.2 ⟨w, List.mem_range.2 h, rfl⟩), slice, Nat.shiftRight_eq_div_pow]
  rfl

theorem imageShown_get {f : Fld} (hlow : f.key < 0x30000040040 * 32) {v : Nat} {l : Load} (hm : (f, v) ∈ shownVals l) (n m : Nat) (s : State) :
    (imageShown n m l s).get f = v % 2 ^ f.w := by
  have hnd : ((shownVals l).map (·.1.key)).Nodup := by
    show ([RST_LINK_SCOPE_LOCK, CFG_IMG_OWNER, CFG_IMG_DIES, CFG_IMG_VER_MINOR, CFG_PR_STATUS_REGION_LOST, CFG_STATUS_STATE,
      CFG_HLOAD_CTRL_ACTIVE].map Fld.key).Nodup
    decide
  rw [imageShown, putMeas_get hlow, get_puts_mem _ _ hnd hm]

theorem frame_imageShown (n m : Nat) (l : Load) (s : State) :
    Frame [] ((shownVals l).map Prod.fst ++ (List.range n).map CFG_MEAS_MEAS) s (imageShown n m l s) :=
  ((frame_puts _ s).mono (List.Subset.refl _) fun _ hf => List.mem_append_left _ hf).trans
    ((frame_putWords ..).mono (List.Subset.refl _) fun _ hf => List.mem_append_right _ hf)

theorem configured_not_shown (l : Load) (x : Nat) :
    (configuredFld x).key ∉ ((shownVals l).map Prod.fst ++ (List.range 16).map CFG_MEAS_MEAS).map Fld.key := by
  have hlow : ∀ f ∈ [RST_LINK_SCOPE_LOCK, CFG_IMG_OWNER, CFG_IMG_DIES, CFG_IMG_VER_MINOR, CFG_PR_STATUS_REGION_LOST, CFG_STATUS_STATE,
      CFG_HLOAD_CTRL_ACTIVE] ++ (List.range 16).map CFG_MEAS_MEAS, f.key < 0x30000100000 * 32 := by decide
  intro hm
  obtain ⟨f, hf, heq⟩ := List.mem_map.1 hm
  have := hlow f hf
  rw [heq, configured_key] at this
  omega

/-- The image is in force, with what it declares. -/
def imageInForce (l : Load) (d : Declared) (s : State) : State :=
  { s with
    clocks := { s.clocks with bundles := d.bundles.foldl addBundle [] }
    noc := { s.noc with maps := [] }
    fabric := { s.fabric with wakeBits := d.wakes.map (fun (w : Nat × Fin 64) => (w.1, w.2.val)) }
    config := { s.config with
      loading := false, load := none, lastSrc := l.src, reload := false, lost := []
      imgBundles := d.bundles.foldl addBundle [], regions := d.regions.map declaredRegion, cachers := (d.caches.take 16).map (fun (x : Sec) => x.val) } }

/-- The start-up of its sectors, with the measurement of the configuration kept. -/
def imageStarts (xs : List Nat) (s : State) : State :=
  let s := { s with security := { s.security with meas := smSet 0 s.security.meas 2 (cfgMeas s) } }
  beginStartup 0 xs (s.get CFG_SU_CTRL_ORDER) (s.get CFG_SU_CTRL_GAP1) (s.get CFG_SU_CTRL_GAP2) s

theorem loadSucceeds_eq (l : Load) (d : Declared) (s : State) : loadSucceeds l d s =
    imageStarts (loadSectors s l) (imageInForce l d (orderShown (imageShown 16 (measureOf l.head) l (imageTaken l d s)))) := by
  unfold loadSucceeds imageStarts imageInForce orderShown imageShown imageTaken shownVals imageVals
  with_reducible rfl

theorem startup_setStartup (who : Nat) (u : Startup) (s : State) : (s.setStartup who (some u)).startup who = some u := by
  simp [State.startup, State.setStartup, List.find?_append, List.find?_eq_none.2]

theorem imageStarts_startup (xs : List Nat) (s : State) : ∃ u,
    (imageStarts xs s).startup 0 = some u ∧ u.step = 0 ∧ u.locked = false ∧ u.go = false ∧ u.due = [] :=
  ⟨_, startup_setStartup .., rfl, rfl, rfl, rfl⟩

theorem imageStarts_get (xs : List Nat) (l : Load) (d : Declared) (s : State) (f : Fld) :
    (imageStarts xs (imageInForce l d s)).get f = s.get f := rfl

/-! The final checks (R121 step 5). -/

theorem finalCause_lt {l : Load} {tag : Bool} {sha shake : BitVec 512} {d : Declared} {c : Nat} (h : finalCause l tag sha shake d = some c) :
    c < 2 ^ 8 := by
  unfold finalCause at h
  split_ifs at h
  all_goals exact lt_of_some h (by decide)

/-- The causes of the final checks, in their order. -/
theorem finalCause_order {l : Load} (hkind : l.kind = 1) (htotal : l.total = some l.written) (hcount : l.frameCount = l.written)
    (sha shake : BitVec 512) (d : Declared) :
    finalCause l false sha shake d = some 0x10 ∧ (sha.toNat ≠ payloadSha l.head → finalCause l true sha shake d = some 0x11) ∧
      (sha.toNat = payloadSha l.head → shake.toNat ≠ payloadShake l.head → finalCause l true sha shake d = some 0x12) ∧
      (sha.toNat = payloadSha l.head → shake.toNat = payloadShake l.head → fullAgrees d = false → finalCause l true sha shake d = some 0x16) := by
  have hwritten : ¬ (l.total ≠ some l.written ∨ l.frameCount ≠ l.written) := by simp [htotal, hcount]
  have hsteps : ∀ tag, finalCause l tag sha shake d = if !tag then some 0x10 else if sha.toNat ≠ payloadSha l.head then some 0x11
      else if shake.toNat ≠ payloadShake l.head then some 0x12 else if l.kind = 1 ∧ !fullAgrees d then some 0x16 else none := fun tag =>
    if_neg hwritten
  refine ⟨hsteps false, fun hsha => ?_, fun hsha hshake => ?_, fun hsha hshake hagrees => ?_⟩
  · rw [hsteps, if_neg (by decide), if_pos hsha]
  · rw [hsteps, if_neg (by decide), if_neg (not_not.2 hsha), if_pos hshake]
  · rw [hsteps, if_neg (by decide), if_neg (not_not.2 hsha), if_neg (not_not.2 hshake), if_pos ⟨hkind, by rw [hagrees]; rfl⟩]

section Final

variable {s : State} {l : Load} (hload : s.config.load = some l) (hfull : l.isPart = false) (hclear : NoClear s) (hphase : l.phase = 5)
  (hcome : Come l 16 s)
include hload hfull hclear hphase hcome

theorem exec_loadFinalChecks (tag : Bool) (sha shake : BitVec 512) (d : Declared) : exec (.loadFinalChecks tag sha shake d) s =
    match finalCause l tag sha shake d with
    | some c => .next (loadFails c (streamTaken l 16 s.begin))
    | none => .next (if l.kind = 3 then startSource 3 (bamidStarts l.head ((streamTaken l 16 s.begin).onConfig (fun c => { c with load := none })))
      else loadSucceeds l d (streamTaken l 16 s.begin)) := by
  have hc : clearDone s.begin = s.begin := clearDone_none (s := s.begin) hclear
  obtain ⟨v, hv⟩ := takeStream_come (s := s.begin) hfull hcome
  show execLoadFinalChecks tag sha shake d s = _
  have hgo : ¬ (l.isPart = true ∨ (l.phase ≠ 4 ∧ l.phase ≠ 5)) := by simp [hfull, hphase]
  simp only [execLoadFinalChecks, hc, State.begin_config, hload, hv, if_neg hgo]
  cases finalCause l tag sha shake d
  · dsimp only
    split <;> rfl
  · rfl

theorem loadFinalChecks_fails {tag : Bool} {sha shake : BitVec 512} {d : Declared} {c : Nat} (h : finalCause l tag sha shake d = some c) :
    Ends (.loadFinalChecks tag sha shake d) s (LoadFailed l c s) := by
  refine ⟨loadFails c (streamTaken l 16 s.begin), ?_, taken_fails hload hfull 16 (finalCause_lt h)⟩
  rw [exec_loadFinalChecks hload hfull hclear hphase hcome, h]

theorem loadFinalChecks_passes {tag : Bool} {sha shake : BitVec 512} {d : Declared} (h : finalCause l tag sha shake d = none) (hkind : l.kind = 1) :
    Ends (.loadFinalChecks tag sha shake d) s fun t =>
      t.get CFG_STATUS_STATE = 7 ∧ t.config.loading = false ∧ t.config.load = none ∧ t.get CFG_IMG_DIES = l.dies % 2 ^ CFG_IMG_DIES.w ∧
      (∀ x ∈ loadSectors s l, t.on (FAB_SEC_STATUS_CONFIGURED (x / 32) (x % 32)) = true) ∧
      (∃ u, t.startup 0 = some u ∧ u.step = 0 ∧ u.locked = false ∧ u.go = false ∧ u.due = []) ∧
      (∀ w < 16, t.get (CFG_MEAS_MEAS w) = slice (measureOf l.head) (32 * w) 32) ∧
      t.clocks.bundles = d.bundles.foldl addBundle [] ∧ t.config.imgBundles = d.bundles.foldl addBundle [] := by
  refine ⟨loadSucceeds l d (streamTaken l 16 s.begin), ?_, ?_⟩
  · rw [exec_loadFinalChecks hload hfull hclear hphase hcome, h]
    simp [hkind]
  have hsectors : loadSectors (streamTaken l 16 s.begin) l = loadSectors s l := by
    simp only [loadSectors, partFailed_congr (s := s) (streamTaken_regs l 16 s.begin)]
  have hconfigured : ∀ x ∈ loadSectors s l, (imageTaken l d (streamTaken l 16 s.begin)).on (configuredFld x) = true := fun x hx =>
    imageTaken_configured (hsectors ▸ hx) d
  rw [loadSucceeds_eq]
  generalize imageTaken l d (streamTaken l 16 s.begin) = u at hconfigured
  generalize loadSectors (streamTaken l 16 s.begin) l = xs
  generalize measureOf l.head = m
  have hget : ∀ f, f.key ≠ CFG_STATUS_ORDER_RSVD.key →
      (imageStarts xs (imageInForce l d (orderShown (imageShown 16 m l u)))).get f = (imageShown 16 m l u).get f :=
    fun f hf => (imageStarts_get ..).trans ((frame_orderShown _).get f (by simpa using hf))
  refine ⟨?_, rfl, rfl, ?_, fun x hx => ?_, imageStarts_startup .., fun w hw => ?_, rfl, rfl⟩
  · rw [hget _ (by decide), imageShown_get (by decide) (v := 7) (by simp [shownVals])]
    rfl
  · rw [hget _ (by decide), imageShown_get (by decide) (v := l.dies) (by simp [shownVals])]
  · have hkey : (configuredFld x).key ≠ CFG_STATUS_ORDER_RSVD.key := by
      simp only [configured_key, CFG_STATUS_ORDER_RSVD]
      omega
    show State.on _ (configuredFld x) = true
    rw [State.on, hget _ hkey, (frame_imageShown 16 m l u).get _ (configured_not_shown l x)]
    exact hconfigured x hx
  · have hkey : (CFG_MEAS_MEAS w).key ≠ CFG_STATUS_ORDER_RSVD.key := by
      simp only [CFG_MEAS_MEAS, CFG_STATUS_ORDER_RSVD]
      omega
    rw [hget _ hkey, imageShown, putMeas_word hw]

end Final

/-- Settles O19: each step of a load by the claims about its command. -/
theorem fullLoadStepsThroughItsChecks : Obligations.FullLoadStepsThroughItsChecks := by
  unfold Obligations.FullLoadStepsThroughItsChecks
  intro s l hload hfull hclear
  refine ⟨fun head err hphase => ⟨loadHeaderCheck_empty hload hfull hclear hphase head err, fun hempty hin =>
      ⟨loadHeaderCheck_slot hload hfull hclear hphase head hempty hin, loadHeaderCheck_badPage hload hfull hclear hphase head hempty hin⟩,
      loadHeaderCheck_waits hload hfull hclear hphase head, loadHeaderCheck_stream hload hfull hclear hphase head⟩,
    headerCause_order s hfull, fun sig hphase hsigned => ⟨loadSignaturesDone_passes hload hfull hphase hsigned,
      fun c => loadSignaturesDone_fails hload hfull hphase hsigned⟩, signatureCause_order s, fun hphase htotal hkind => ⟨?_, ?_, ?_, ?_⟩,
    fun hphase htotal hkind r hgood hfirst hread hlen => memRecord_bamid hload hfull hclear hphase htotal hkind hgood hfirst hread hlen,
    fun hphase htotal w0 a b c hread => settingRecord_behind hload hfull hclear hphase htotal hread w0 a b c,
    fun hphase hcome tag sha shake d => ⟨loadFinalChecks_passes hload hfull hclear hphase hcome,
      fun c => loadFinalChecks_fails hload hfull hclear hphase hcome, fun hkind htotal hcount => finalCause_order hkind htotal hcount sha shake d⟩⟩
  · exact fun a n data hgood hlen hread hup => framesRecord_good hload hfull hclear hphase htotal hkind hgood hlen hread hup
  · exact fun w0 a n w3 data hbad hread => framesRecord_bad hload hfull hclear hphase hbad data hread
  · exact fun hread => ⟨fun off v hroom hoff himage => settingRecord_good hload hfull hclear hphase htotal hkind hread hroom hoff himage,
      fun n => ⟨fun hend => endRecord_good hload hfull hclear hphase htotal hread hend n,
        fun hend => endRecord_bad hload hfull hclear hphase hread hend n⟩⟩
  · exact fun w0 r hread => memRecord_bad hload hfull hclear hphase (by omega) w0 hread

end Sys2Proof.Machine
end

section
/-! PROOFS. The lock step of a start-up (R129), where a start-up names a number that is no sector. -/

namespace Sys2Proof.Machine

/-- A state whose start-up names a number that is no sector: CLK_STABLE of that number stands where FAB_SEC_CAUSE.CLK_ALARM of sector 0
does. The canonical form bounds no number of a start-up. -/
def strayIsland : Nat := (0x30000100100 - 0x30000020100) / 4 * 32

/-- A start-up of die 0 in its lock step, with sector 0 and that number. -/
def strayStartup : Startup := { islands := [0, strayIsland] }

def strayLocks : State := { State.reset with config := { State.reset.config with startups := [(2, strayStartup)] } }

/-- The islands of die 0's start-up as a command leaves them. -/
def islandsAfter : Res → Option (List Nat)
  | .next t => (t.startup 2).map (·.islands)
  | _ => none

theorem strayLocks_timeout : strayLocks.wf = true ∧ clkStable strayLocks 0 = false ∧ clkStable strayLocks strayIsland = false ∧
    islandsAfter (exec (.lockStepTimeout 2) strayLocks) = some [strayIsland] := by decide +kernel

/-- Refutes O21: the alarm of sector 0 makes the other number's clock read as stable, so the lock step's time limit leaves it in the
start-up, though its clock was not stable. -/
theorem not_startUpReleasesInOrder : ¬ Obligations.StartUpReleasesInOrder := by
  intro h
  obtain ⟨-, hzero, hstray, hafter⟩ := strayLocks_timeout
  obtain ⟨-, htimeout, -⟩ := h strayLocks 2 strayStartup rfl
  obtain ⟨t, ht, hstartup, -⟩ := htimeout rfl ⟨0, List.mem_cons_self, hzero⟩
  have hnone : strayStartup.islands.filter (clkStable strayLocks) = [] := by simp [strayStartup, hzero, hstray]
  have hempty : islandsAfter (exec (.lockStepTimeout 2) strayLocks) = some [] := by
    rw [ht]
    exact (congrArg (Option.map (·.islands)) hstartup).trans (congrArg some hnone)
  rw [hempty] at hafter
  cases hafter

end Sys2Proof.Machine
end

section
/-! PROOFS. Partial loads: begun and ended by a register write, their region held and cleared, their frames written (R140 to R144). -/

namespace Sys2Proof.Machine

/-! Folds over the state. -/

/-- What no step of a fold changes stands. -/
theorem foldl_stands {σ α β : Type} (p : σ → β) {f : σ → α → σ} : ∀ (l : List α) (s : σ), (∀ a ∈ l, ∀ u, p (f u a) = p u) →
    p (l.foldl f s) = p s
  | [], _, _ => rfl
  | a :: l, s, h => (foldl_stands p l (f s a) fun b hb => h b (List.mem_cons_of_mem _ hb)).trans (h a List.mem_cons_self s)

/-- What one step of a fold brings about, and every step keeps, holds at its end; `I`: what all along holds. -/
theorem foldl_attains {σ α : Type} {I P : σ → Prop} {f : σ → α → σ} {x : α} (hinv : ∀ u a, I u → I (f u a))
    (hset : ∀ u, I u → P (f u x)) (hkeep : ∀ u a, I u → P u → P (f u a)) :
    ∀ (l : List α) (s : σ), I s → x ∈ l ∨ P s → P (l.foldl f s)
  | [], _, _, h => h.resolve_left List.not_mem_nil
  | a :: l, s, hs, h => by
    refine foldl_attains hinv hset hkeep l (f s a) (hinv s a hs) ?_
    rcases h with h | h
    · rcases List.mem_cons.1 h with rfl | h
      · exact .inr (hset s hs)
      · exact .inl h
    · exact .inr (hkeep s a hs h)

/-! GO and ABORT (R140, R143). -/

/-- The load that GO begins, from the registers of its source. -/
def partLoad (store : Bool) (s : State) : Load :=
  { src := 0, isPart := true, size := some (s.get CFG_PR_LEN_LEN), inStore := store
    addr := if store then areaC + s.get CFG_PR_SRC_LO_ADDR else s.get64 CFG_PR_SRC_LO_ADDR CFG_PR_SRC_HI_ADDR }

theorem partLoad_flag (store : Bool) (s : State) : partLoad store (s.flag CFG_PR_CTRL_SRC_STORE store) = partLoad store s := by
  have hget := (frame_flag s CFG_PR_CTRL_SRC_STORE store).get
  simp only [partLoad, State.get64, hget CFG_PR_LEN_LEN (by decide), hget CFG_PR_SRC_LO_ADDR (by decide),
    hget CFG_PR_SRC_HI_ADDR (by decide)]

/-- GO where the device runs and no load is in progress. -/
theorem prGo_eq {s : State} (store : Bool) (hbusy : s.on CFG_PR_STATUS_BUSY = false) (hstate : s.get CFG_STATUS_STATE = 0xA)
    (hload : s.config.load = none) : prGo store s =
      (setLoad (partLoad store s) (s.flag CFG_PR_CTRL_SRC_STORE store)).puts [(CFG_PR_STATUS_BUSY, 1), (CFG_PR_STATUS_PHASE, 1)] := by
  have hb : (s.flag CFG_PR_CTRL_SRC_STORE store).on CFG_PR_STATUS_BUSY = false := (on_flag_other _ _ _ _ (by decide)).trans hbusy
  have hs : (s.flag CFG_PR_CTRL_SRC_STORE store).get CFG_STATUS_STATE = 0xA := (get_put_other _ _ _ _ (by decide)).trans hstate
  have hl : (s.flag CFG_PR_CTRL_SRC_STORE store).config.load = none := hload
  rw [prGo, if_neg (by simp [hb, hs, hl]), ← partLoad_flag]
  rfl

theorem prGo_starts {s : State} {req : Requester} (h : regGate s req 0x030000040200 4 true = .reach) (store : Bool)
    (hbusy : s.on CFG_PR_STATUS_BUSY = false) (hstate : s.get CFG_STATUS_STATE = 0xA) (hload : s.config.load = none) :
    Ends (.prGo req store) s fun t => t.on CFG_PR_STATUS_BUSY = true ∧ t.get CFG_PR_STATUS_PHASE = 1 ∧
      t.config.load = some (partLoad store s) ∧ t.out = [.done] ∧
      Frame [.config] [CFG_PR_CTRL_SRC_STORE, CFG_PR_STATUS_BUSY, CFG_PR_STATUS_PHASE] s t := by
  refine ends_guardedWrite h (prGo store) ?_ rfl
  rw [prGo_eq (s := s.begin) store hbusy hstate hload]
  have hframe : Frame [.config] [CFG_PR_CTRL_SRC_STORE, CFG_PR_STATUS_BUSY, CFG_PR_STATUS_PHASE] s.begin
      ((setLoad (partLoad store s.begin) (s.begin.flag CFG_PR_CTRL_SRC_STORE store)).puts [(CFG_PR_STATUS_BUSY, 1), (CFG_PR_STATUS_PHASE, 1)]) :=
    ((frame_flag _ _ store).mono (List.nil_subset _) (by simp)).trans
      (((frame_setLoad _ _).mono (List.Subset.refl _) (by simp)).trans ((frame_puts _ _).mono (List.nil_subset _) (by simp)))
  refine ⟨?_, ?_, ?_, rfl, hframe.begin.emit _⟩
  · show State.on _ _ = true
    rw [State.on, State.emit_get, get_puts_mem (v := 1) _ _ (by decide) (by simp)]
    rfl
  · rw [State.emit_get, get_puts_mem (v := 1) _ _ (by decide) (by simp)]
    rfl
  · rw [State.emit_config, puts_config]
    rfl

/-- A partial load has ended with a cause, and the fabric's registers stand (R142). -/
structure PartLoadEnded (cause : Nat) (s t : State) : Prop where
  busy : t.on CFG_PR_STATUS_BUSY = false
  cause : t.get CFG_PR_STATUS_CAUSE = cause
  load : t.config.load = none
  raised : t.on CFG_CAUSE_FAIL = true
  fabric : t.fabric = s.fabric

/-- The fields that a failure before the region is held writes. -/
def partFailVals (cause : Nat) : List (Fld × Nat) := [(CFG_PR_STATUS_BUSY, 0), (CFG_PR_STATUS_PHASE, 0), (CFG_PR_STATUS_CAUSE, cause)]

theorem frame_partLoadFails (cause : Nat) (s : State) : Frame [.host] ((partFailVals cause).map Prod.fst ++ CFG_CAUSE_FAIL :: alertFlds)
    (s.onConfig (fun c => { c with load := none })) (partLoadFails cause s) :=
  ((frame_puts (partFailVals cause) _).mono (List.nil_subset _) fun _ hf => List.mem_append_left _ hf).trans
    ((frame_raiseCfg ..).mono (List.Subset.refl _) fun _ hf => List.mem_append_right _ hf)

theorem partLoadFails_ends {cause : Nat} (h : cause < 2 ^ 8) (s : State) : PartLoadEnded cause s (partLoadFails cause s) where
  busy := partLoadFails_busy cause s
  cause := partLoadFails_cause h s
  load := by rw [(frame_partLoadFails cause s).config (by simp)]; rfl
  raised := raiseLeaf_on _ _ _ rfl (key_not_alert (by decide))
  fabric := (frame_partLoadFails cause s).fabric (by simp)

/-- A failure before the region is held leaves the memories (R142). -/
theorem partLoadFails_onchip (cause : Nat) (s : State) : (partLoadFails cause s).onchip = s.onchip :=
  (frame_partLoadFails cause s).onchip (by simp)

theorem prAbort_ends {s : State} {req : Requester} (h : regGate s req 0x030000040200 4 true = .reach)
    (hbusy : s.on CFG_PR_STATUS_BUSY = true) (hphase : s.get CFG_PR_STATUS_PHASE ≤ 2) :
    Ends (.prAbort req) s fun t => PartLoadEnded 0x14 s t ∧ t.onchip = s.onchip := by
  refine ends_guardedWrite h prAbort ?_ rfl
  have heq : prAbort s.begin = partLoadFails 0x14 s.begin := if_pos (by
    rw [Bool.and_eq_true]
    exact ⟨hbusy, decide_eq_true hphase⟩)
  rw [heq]
  exact ⟨{ partLoadFails_ends (by decide : 0x14 < 2 ^ 8) s.begin with }, partLoadFails_onchip 0x14 s.begin⟩

/-! The final checks hold and clear the region (R141 steps 3 to 5). -/

/-- The causes of the final checks of a partial load, in their order. -/
theorem prCause_order (l : Load) (tag : Bool) (sha shake : BitVec 512) (d : Declared) :
    (partAgrees l.region d = false → prCause l tag sha shake d = some 0x16) ∧
      (partAgrees l.region d = true → l.total = some l.written → l.frameCount = l.written → prCause l false sha shake d = some 0x10) := by
  refine ⟨fun h => if_pos (by rw [h]; rfl), fun h htotal hcount => ?_⟩
  have hcause : prCause l false sha shake d = finalCause l false sha shake d := if_neg (by simp [h])
  rw [hcause, finalCause, if_neg (by simp [htotal, hcount])]
  rfl

/-- The sectors' REGION_BUSY. -/
def regionBusyFld (x : Nat) : Fld := FAB_SEC_STATUS_REGION_BUSY (x / 32) (x % 32)

theorem regionBusy_key (x : Nat) : (regionBusyFld x).key = (0x30000100000 + x / 32 * 0x40000 + x % 32 * 4) * 32 + 3 := rfl

theorem regionBusyFld_eq_of_key {x y : Nat} (h : (regionBusyFld x).key = (regionBusyFld y).key) : regionBusyFld x = regionBusyFld y := by
  have hx : regionBusyFld x = ⟨(regionBusyFld x).key, 1, 0⟩ := rfl
  rw [hx, h]
  rfl

theorem setRegionBusy_on {x : Nat} {xs : List Nat} (h : x ∈ xs) (s : State) : regionBusy (setRegionBusy xs true s) x = true := by
  have hset : ∀ u : State, (u.flag (regionBusyFld x) true).on (regionBusyFld x) = true := fun u => on_flag_same u _ true rfl
  refine foldl_attains (I := fun _ => True) (P := fun u => u.on (regionBusyFld x) = true)
    (f := fun u y => u.flag (regionBusyFld y) true) (fun _ _ _ => trivial) (fun u _ => hset u) (fun u y _ hu => ?_) xs s trivial (.inl h)
  by_cases hkey : (regionBusyFld x).key = (regionBusyFld y).key
  · rw [← regionBusyFld_eq_of_key hkey]
    exact hset u
  · exact (on_flag_other _ _ _ _ hkey).trans hu

theorem holdCaptured_fabric (xs : List Nat) (s : State) : (holdCaptured xs s).fabric = s.fabric := by
  unfold holdCaptured
  extract_lets ys u due
  split
  · rfl
  · exact foldl_stands State.fabric ys s fun _ _ _ => rfl

theorem holdCaptured_onchip (xs : List Nat) (s : State) : (holdCaptured xs s).onchip = s.onchip := by
  unfold holdCaptured
  extract_lets ys u due
  split
  · rfl
  · exact foldl_stands State.onchip ys s fun _ _ _ => rfl

theorem frame_clearGates (xs : List Nat) (s : State) : Frame []
    (xs.flatMap fun x => [FAB_SEC_STATUS_GATED_USER (x / 32) (x % 32), FAB_SEC_STATUS_GATED_GOV (x / 32) (x % 32)]) s (clearGates xs s) :=
  frame_foldl xs s fun x hx u => (frame_puts _ u).mono (List.Subset.refl _) fun _ hf => List.mem_flatMap.2 ⟨x, hx, hf⟩

/-- Sectors outside those held run as before. -/
theorem holdSectors_running_other {xs : List Nat} {x : Nat} (h : x ∉ xs) (s : State) :
    (holdSectors xs s).fabric.running.contains x = s.fabric.running.contains x := by
  have hfabric : (clearGates xs (holdCaptured xs s)).fabric = s.fabric :=
    ((frame_clearGates xs _).fabric (by simp)).trans (holdCaptured_fabric xs s)
  rw [Bool.eq_iff_iff, List.contains_iff_mem, List.contains_iff_mem, holdSectors, hfabric]
  simp [h]

theorem holdSectors_onchip (xs : List Nat) (s : State) : (holdSectors xs s).onchip = s.onchip :=
  ((frame_clearGates xs _).onchip (by simp)).trans (holdCaptured_onchip xs s)

/-- Frame bytes of sectors outside those cleared stand. -/
theorem clearSectors_frames_other {k : Nat} {xs : List Nat} (h : xs.contains (k / 512 / 12288) = false) (s : State) :
    smGet 0 (clearSectors xs s).onchip.frames k = smGet 0 s.onchip.frames k :=
  smGet_filter_kept 0 (fun k => !xs.contains (k / 512 / 12288)) (by simp only [h, Bool.not_false]) s.onchip.frames

/-- The bundles of the region with their idle values (R139, R144). -/
def regionIdle (l : Load) (s : State) : State :=
  s.onClocks (fun c => { c with bundles := c.bundles.map (fun e => (e.1, idleBundle l e.2)) })

/-- The region with its bundles idle, cleared and held. -/
def regionTaken (l : Load) (s : State) : State := holdSectors l.region (clearSectors l.region (regionIdle l s))

/-- What shows that a region is held: REGION_BUSY of its sectors, and CONFIGURED clear. -/
def regionShown (l : Load) (s : State) : State := setConfigured l.region false (setRegionBusy l.region true s)

theorem prHold_eq (l : Load) (d : Declared) (s : State) : prHold l d s =
    setLoad { l with decl := some d } ((regionShown l (regionTaken l s)).put CFG_PR_STATUS_PHASE 3) := rfl

theorem frame_regionShown (l : Load) (s : State) : Frame [] (l.region.map regionBusyFld ++ l.region.map configuredFld) s (regionShown l s) :=
  ((frame_setRegionBusy ..).mono (List.Subset.refl _) fun _ hf => List.mem_append_left _ hf).trans
    ((frame_setConfigured ..).mono (List.Subset.refl _) fun _ hf => List.mem_append_right _ hf)

theorem regionShown_busy {l : Load} {x : Nat} (h : x ∈ l.region) (s : State) : regionBusy (regionShown l s) x = true := by
  have hother : (regionBusyFld x).key ∉ (l.region.map configuredFld).map Fld.key := by
    simp only [List.map_map, List.mem_map, not_exists, not_and, Function.comp, regionBusy_key, configured_key]
    omega
  have hget := (frame_setConfigured l.region false (setRegionBusy l.region true s)).get _ hother
  have hbusy : (setRegionBusy l.region true s).on (regionBusyFld x) = true := setRegionBusy_on h s
  show State.on _ (regionBusyFld x) = true
  rw [State.on, regionShown, hget]
  exact hbusy

/-- The region is held, marked busy and cleared, and nothing outside it is. -/
structure RegionHeld (l : Load) (s t : State) : Prop where
  phase : t.get CFG_PR_STATUS_PHASE = 3
  held : ∀ x ∈ l.region, regionBusy t x = true ∧ sectorHeld t x = true
  others : ∀ x, x ∉ l.region → t.fabric.running.contains x = s.fabric.running.contains x
  cleared : ∀ k, l.region.contains (k / 512 / 12288) = true → smGet 0 t.onchip.frames k = 0
  kept : ∀ k, l.region.contains (k / 512 / 12288) = false → smGet 0 t.onchip.frames k = smGet 0 s.onchip.frames k

theorem prHold_holds (l : Load) (d : Declared) (s : State) : RegionHeld l s (prHold l d s) := by
  have hshown := frame_regionShown l (regionTaken l s)
  have hfabric : (prHold l d s).fabric = (regionTaken l s).fabric := by
    rw [prHold_eq]
    exact hshown.fabric (by simp)
  have honchip : (prHold l d s).onchip = (clearSectors l.region (regionIdle l s)).onchip := by
    rw [prHold_eq]
    exact (hshown.onchip (by simp)).trans (holdSectors_onchip l.region _)
  refine ⟨get_put_same _ CFG_PR_STATUS_PHASE 3, fun x hx => ⟨?_, ?_⟩, fun x hx => ?_, fun k hk => ?_, fun k hk => ?_⟩
  · have hne : (regionBusyFld x).key ≠ CFG_PR_STATUS_PHASE.key := by
      simp only [regionBusy_key, CFG_PR_STATUS_PHASE]
      omega
    rw [prHold_eq]
    show State.on ((regionShown l (regionTaken l s)).put CFG_PR_STATUS_PHASE 3) (regionBusyFld x) = true
    rw [State.on, get_put_other _ _ _ _ hne]
    exact regionShown_busy hx (regionTaken l s)
  · have hout : x ∉ (prHold l d s).fabric.running := by
      rw [hfabric]
      exact holdSectors_running hx _
    simp [sectorHeld, hout]
  · rw [hfabric]
    exact holdSectors_running_other hx _
  · rw [honchip]
    exact clearSectors_frames rfl (List.contains_iff_mem.1 hk) _
  · rw [honchip]
    exact clearSectors_frames_other hk _

section FinalChecks

variable {s : State} {l : Load} (hload : s.config.load = some l) (hpart : l.isPart = true) (hsigned : l.signed = true) (hdecl : l.decl = none)
include hload hpart hsigned hdecl

theorem exec_prFinalChecks (tag : Bool) (sha shake : BitVec 512) (d : Declared) : exec (.prFinalChecks tag sha shake d) s =
    .next (((prCause l tag sha shake d).map fun c => partLoadFails c s.begin).getD (prHold l d s.begin)) := by
  show execPrFinalChecks tag sha shake d s = _
  simp only [execPrFinalChecks, State.begin_config, hload, hpart, hsigned, hdecl]
  cases prCause l tag sha shake d <;> rfl

theorem prFinalChecks_holds {tag : Bool} {sha shake : BitVec 512} {d : Declared} (h : prCause l tag sha shake d = none) :
    Ends (.prFinalChecks tag sha shake d) s (RegionHeld l s) :=
  ⟨prHold l d s.begin, by rw [exec_prFinalChecks hload hpart hsigned hdecl, h]; rfl, { prHold_holds l d s.begin with }⟩

theorem prFinalChecks_fails {tag : Bool} {sha shake : BitVec 512} {d : Declared} {c : Nat} (h : prCause l tag sha shake d = some c) :
    Ends (.prFinalChecks tag sha shake d) s fun t => PartLoadEnded c s t ∧ t.onchip = s.onchip :=
  ⟨partLoadFails c s.begin, by rw [exec_prFinalChecks hload hpart hsigned hdecl, h]; rfl,
    { partLoadFails_ends (prCause_lt h) s.begin with }, partLoadFails_onchip c s.begin⟩

end FinalChecks

/-! The frames written, or the region lost (R141 steps 6 and 7, R142). -/

theorem applyImage_fabric (mine : Nat → Bool) (vals : List (Fld × Nat)) (s : State) : (applyImage mine vals s).fabric = s.fabric :=
  foldl_stands State.fabric _ _ fun _ _ _ => rfl

/-- The region with its frames and declarations is configured and starts up; its logic waits for the release. -/
theorem prWritten_eq (l : Load) (d : Declared) (s : State) : ∃ u, u.fabric = s.fabric ∧ prWritten l d s =
    beginStartup 1 l.region l.order l.gap1 l.gap2 ((setConfigured l.region true u).put CFG_PR_STATUS_PHASE 5) := by
  refine ⟨_, ?_, rfl⟩
  have hframes := foldl_stands State.fabric l.staged s fun e _ u =>
    (frame_putFrameBytes (toBytes e.2 512) (frameKey (e.1 / 12288) (e.1 % 12288) 0) u).fabric (by simp)
  have hdecl := fun u => applyImage_fabric (fun k => (keySector k).any fun x => l.region.contains x)
    ((declaredVals d).filter fun e => (keySector e.1.key).any fun x => l.region.contains x) u
  refine Eq.trans ?_ ((hdecl _).trans hframes)
  split
  · exact (frame_flag _ CFG_STATUS_ORDER_RSVD true).fabric (by simp)
  · rfl

theorem prWritten_starts (l : Load) (d : Declared) (s : State) :
    (prWritten l d s).get CFG_PR_STATUS_PHASE = 5 ∧ ((prWritten l d s).startup 1).isSome = true ∧
      (∀ x ∈ l.region, (prWritten l d s).on (configuredFld x) = true) ∧ (prWritten l d s).fabric = s.fabric := by
  obtain ⟨u, hu, hrun⟩ := prWritten_eq l d s
  rw [hrun]
  refine ⟨get_put_same _ CFG_PR_STATUS_PHASE 5, ?_, fun x hx => ?_, ?_⟩
  · rw [beginStartup, startup_setStartup]
    rfl
  · have hne : (configuredFld x).key ≠ CFG_PR_STATUS_PHASE.key := by
      simp only [configured_key, CFG_PR_STATUS_PHASE]
      omega
    show State.on ((setConfigured l.region true u).put CFG_PR_STATUS_PHASE 5) (configuredFld x) = true
    rw [State.on, get_put_other _ _ _ _ hne]
    exact setConfigured_on l.region u (.inl hx)
  · exact ((frame_setConfigured l.region true u).fabric (by simp)).trans hu

theorem logUncorrectable_fabric (s : State) (p unit inst addr syn : Nat) : (logUncorrectable s p unit inst addr syn).fabric = s.fabric := by
  obtain ⟨_, hlogged⟩ := frame_ueLogged s p unit inst addr syn
  rw [logUncorrectable_eq, (frame_raiseMemUe _ p unit).fabric (by simp), hlogged.fabric (by simp)]

/-- What the registers show of a lost region. -/
def lostVals : List (Fld × Nat) :=
  [(CFG_PR_STATUS_REGION_LOST, 1), (CFG_PR_STATUS_CAUSE, 0x23), (CFG_PR_STATUS_BUSY, 0), (CFG_PR_STATUS_PHASE, 0)]

/-- The region cleared after its frames could not be read, no load in progress. -/
def regionDropped (l : Load) (s : State) : State :=
  wakeReadback ((setRegionBusy l.region false (clearSectors l.region (stagingBad s))).onConfig
    (fun c => { c with load := none, lost := l.region }))

theorem regionLost_eq (l : Load) (s : State) : regionLost l s = raiseCfg CFG_CAUSE_FAIL ((regionDropped l s).puts lostVals) := by
  unfold regionLost regionDropped lostVals
  with_reducible rfl

theorem regionDropped_fabric (l : Load) (s : State) : (regionDropped l s).fabric = s.fabric :=
  ((frame_setRegionBusy l.region false (clearSectors l.region (stagingBad s))).fabric (by simp)).trans (logUncorrectable_fabric s.free.2 ..)

theorem frame_regionLost (l : Load) (s : State) :
    Frame [.host] (lostVals.map Prod.fst ++ CFG_CAUSE_FAIL :: alertFlds) (regionDropped l s) (regionLost l s) := by
  rw [regionLost_eq]
  exact ((frame_puts lostVals _).mono (List.nil_subset _) fun _ hf => List.mem_append_left _ hf).trans
    ((frame_raiseCfg ..).mono (List.Subset.refl _) fun _ hf => List.mem_append_right _ hf)

theorem regionLost_shows (l : Load) (s : State) {f : Fld} {v : Nat} (h : (f, v) ∈ lostVals) : (regionLost l s).get f = v % 2 ^ f.w := by
  have hcause : ∀ e ∈ lostVals, e.1.key ∉ (CFG_CAUSE_FAIL :: alertFlds).map Fld.key := by decide +kernel
  rw [regionLost_eq, get_raiseCfgFail _ _ (hcause _ h), get_puts_mem _ _ (by decide) h]

theorem regionLost_lost (l : Load) (s : State) : (regionLost l s).on CFG_PR_STATUS_REGION_LOST = true := by
  rw [State.on, regionLost_shows l s (v := 1) (by simp [lostVals])]
  rfl

theorem regionLost_ends (l : Load) (s : State) : PartLoadEnded 0x23 s (regionLost l s) where
  busy := by rw [State.on, regionLost_shows l s (v := 0) (by simp [lostVals])]; rfl
  cause := regionLost_shows l s (v := 0x23) (by simp [lostVals])
  load := by rw [(frame_regionLost l s).config (by simp)]; rfl
  raised := by rw [regionLost_eq]; exact raiseLeaf_on _ _ _ rfl (key_not_alert (by decide))
  fabric := ((frame_regionLost l s).fabric (by simp)).trans (regionDropped_fabric l s)

theorem exec_prFramesWritten {s : State} {l : Load} {d : Declared} (hload : s.config.load = some l) (hpart : l.isPart = true)
    (hdecl : l.decl = some d) (hphase : s.get CFG_PR_STATUS_PHASE = 4) (hclear : NoClear s) (ue : Bool) :
    exec (.prFramesWritten ue) s = .next (if ue then regionLost l s.begin else prWritten l d s.begin) := by
  have hc : clearDone s.begin = s.begin := clearDone_none (s := s.begin) hclear
  have hp : s.begin.get CFG_PR_STATUS_PHASE = 4 := hphase
  show execPrFramesWritten ue s = _
  simp [execPrFramesWritten, hc, hload, hdecl, hpart, hp]

/-- Settles O22: each command of a partial load by the claims about it. -/
theorem partialLoadHoldsItsRegionOnly : Obligations.PartialLoadHoldsItsRegionOnly := by
  unfold Obligations.PartialLoadHoldsItsRegionOnly
  intro s
  refine ⟨fun req store h hbusy hstate hload => prGo_starts h store hbusy hstate hload, fun req h hbusy hphase => ?_,
    fun l tag sha shake d hload hpart hsigned hdecl => ⟨fun h => ?_, fun c h => ?_, prCause_order l tag sha shake d⟩,
    fun l d hload hpart hdecl hphase hnext hstate => ?_⟩
  · obtain ⟨t, ht, hend, honchip⟩ := prAbort_ends h hbusy hphase
    exact ⟨t, ht, hend.busy, hend.cause, hend.load, hend.raised, hend.fabric, honchip⟩
  · obtain ⟨t, ht, hheld⟩ := prFinalChecks_holds hload hpart hsigned hdecl h
    exact ⟨t, ht, hheld.phase, fun x hx _ => hheld.held x hx, hheld.others, hheld.cleared, hheld.kept⟩
  · obtain ⟨t, ht, hend, honchip⟩ := prFinalChecks_fails hload hpart hsigned hdecl h
    exact ⟨t, ht, hend.busy, hend.cause, hend.raised, hend.fabric, honchip, hend.load⟩
  · have hrun := exec_prFramesWritten hload hpart hdecl hphase ⟨hnext, hstate, by omega⟩
    obtain ⟨hfive, hstart, hconf, hfab⟩ := prWritten_starts l d s.begin
    have hend := regionLost_ends l s.begin
    exact ⟨⟨_, hrun false, hfive, hstart, fun x hx _ => hconf x hx, hfab⟩,
      ⟨_, hrun true, regionLost_lost l s.begin, hend.cause, hend.busy, hend.load, hend.raised, hend.fabric⟩⟩

end Sys2Proof.Machine
end

section
/-! PROOFS. Capture: begun by a register write, and the snapshots of its islands (R145 to R148). -/

namespace Sys2Proof.Machine

/-! A capture begins (R145). -/

theorem frame_clearShadow (held : Bool) (x : Nat) (s : State) : Frame [.config] [] s (clearShadow held x s) := frame_config s _

theorem clearShadow_out (held : Bool) (x : Nat) (s : State) : (clearShadow held x s).out = s.out := by
  unfold clearShadow
  rfl

/-- The fields that a capture token sets beside its timestamp. -/
def tokenFlds : List Fld := (List.range 4).map CFG_CAP_NOEDGE_SEC ++ (List.range 4).map CFG_CAP_HELD_SEC ++
  [CFG_CAP_STATUS_NO_EDGE, CFG_CAP_STATUS_HELD, CFG_CAP_STATUS_BUSY]

/-- The fields of a capture's timestamp. -/
def captureTsFlds : List Fld := [CFG_CAP_TS_LO_TS, CFG_CAP_TS_HI_TS]

theorem captureTs_put (s : State) (v : Nat) :
    (s.put64 CFG_CAP_TS_LO_TS CFG_CAP_TS_HI_TS v).get64 CFG_CAP_TS_LO_TS CFG_CAP_TS_HI_TS = v % 2 ^ 64 := by
  rw [State.get64, State.put64, get_put_other _ _ _ _ (by decide), get_put_same, get_put_same]
  show v % 2 ^ 32 % 2 ^ 32 + v / 2 ^ 32 % 2 ^ 32 * 2 ^ 32 = v % 2 ^ 64
  omega

/-- A capture is in progress since the time of `s`, and of the state only its registers and the configuration controller differ. -/
structure CaptureBegun (s t : State) : Prop where
  busy : t.on CFG_CAP_STATUS_BUSY = true
  ts : t.get64 CFG_CAP_TS_LO_TS CFG_CAP_TS_HI_TS = s.clocks.ts % 2 ^ 64
  out : t.out = s.out
  frame : Frame [.config] (tokenFlds ++ captureTsFlds) s t

/-- A token that is not ignored: it writes `l` and the timestamp to registers, empties the shadow frames of the sectors `held`, and makes
the islands `due`. -/
def tokenTaken (l : List (Fld × Nat)) (held due : List Nat) (s : State) : State :=
  let s := s.puts l
  let s := s.put64 CFG_CAP_TS_LO_TS CFG_CAP_TS_HI_TS s.clocks.ts
  (held.foldl (fun s x => clearShadow true x s) s).onConfig (fun c => { c with capDue := due, capEdge := [] })

theorem tokenTaken_begins {l : List (Fld × Nat)} (hflds : l.map Prod.fst = tokenFlds) (hmem : (CFG_CAP_STATUS_BUSY, 1) ∈ l)
    (held due : List Nat) (s : State) : CaptureBegun s (tokenTaken l held due s) := by
  unfold tokenTaken
  extract_lets u v
  have hkeys : (l.map (·.1.key)).Nodup := by
    have hmap : l.map (·.1.key) = tokenFlds.map Fld.key := by rw [← hflds, List.map_map]; rfl
    rw [hmap]
    decide
  have hu : Frame [] tokenFlds s u := hflds ▸ frame_puts l s
  have hubusy : u.get CFG_CAP_STATUS_BUSY = 1 := get_puts_mem l s hkeys hmem
  have huout : u.out = s.out := (congrArg State.out (State.puts_eq s l)).trans rfl
  have hv : Frame [] captureTsFlds u v := frame_put64 _ _ _ _
  have hvts : v.get64 CFG_CAP_TS_LO_TS CFG_CAP_TS_HI_TS = u.clocks.ts % 2 ^ 64 := captureTs_put u _
  have hvout : v.out = u.out := rfl
  clear_value u v
  have hw : ∀ g, Frame [.config] [] v ((held.foldl (fun s x => clearShadow true x s) v).onConfig g) := fun g =>
    (frame_foldl held v fun x _ t => frame_clearShadow true x t).trans (frame_onConfig _ g)
  have hwout : (held.foldl (fun s x => clearShadow true x s) v).out = v.out := 
    foldl_stands State.out held v fun x _ w => clearShadow_out true x w
  refine ⟨?_, ?_, hwout.trans (hvout.trans huout), ?_⟩
  · rw [State.on, (hw _).get _ (by simp), hv.get _ (by decide), hubusy]
    rfl
  · rw [State.get64, (hw _).get _ (by simp), (hw _).get _ (by simp), ← hu.clocks (by simp)]
    exact hvts
  · exact (hu.mono (List.nil_subset _) (by simp +contextual)).trans ((hv.mono (List.nil_subset _) (by simp +contextual)).trans
      ((hw _).mono (List.Subset.refl _) (by simp)))

/-- A token that finds no capture, and no readback, in progress. -/
theorem captureToken_begins {s : State} (hbusy : s.on CFG_CAP_STATUS_BUSY = false) (hrb : s.on CFG_RB_STATUS_BUSY = false) :
    CaptureBegun s (captureToken s) := by
  have htaken : ∃ l held due, l.map Prod.fst = tokenFlds ∧ (CFG_CAP_STATUS_BUSY, 1) ∈ l ∧ captureToken s = tokenTaken l held due s := by
    unfold captureToken
    rw [if_neg (by simp [hbusy, hrb])]
    extract_lets picked held due
    refine ⟨_, held, due, ?_, ?_, rfl⟩
    · rfl
    · simp
  obtain ⟨l, held, due, hflds, hmem, hrun⟩ := htaken
  rw [hrun]
  exact tokenTaken_begins hflds hmem held due s

theorem captureGo_begins {s : State} {req : Requester} (h : regGate s req 0x030000040240 4 true = .reach)
    (hbusy : s.on CFG_CAP_STATUS_BUSY = false) (hrb : s.on CFG_RB_STATUS_BUSY = false) (en : Bool) :
    Ends (.captureGo req en) s fun t => t.on CFG_CAP_STATUS_BUSY = true ∧ t.on CFG_CAP_CTRL_TRIG_EN = en ∧ t.out = [.done] ∧
      t.get64 CFG_CAP_TS_LO_TS CFG_CAP_TS_HI_TS = s.clocks.ts % 2 ^ 64 ∧ t.fabric = s.fabric ∧ t.onchip = s.onchip ∧ t.engines = s.engines := by
  refine ends_guardedWrite h (writeCapCtrl en true) ?_ rfl
  obtain ⟨hon, hts, hout, hframe⟩ := captureToken_begins (s := s.begin.flag CFG_CAP_CTRL_TRIG_EN en)
    ((on_flag_other _ _ _ _ (by decide)).trans hbusy) ((on_flag_other _ _ _ _ (by decide)).trans hrb)
  rw [writeCapCtrl, if_pos rfl]
  refine ⟨hon, ?_, by rw [State.emit_out, hout]; rfl, hts, hframe.fabric (by simp), hframe.onchip (by simp), hframe.engines (by simp)⟩
  show State.on _ _ = en
  rw [State.on, State.emit_get, hframe.get _ (by decide)]
  exact on_flag_same s.begin CFG_CAP_CTRL_TRIG_EN en rfl

/-! The shadow frames of a snapshot (R148). -/

/-- Each bit of a shadow frame of macrocells is its macrocell's level, against its initial value. -/
theorem cellBits_testBit (s : State) (init : List Nat) (x : Nat) {n c : Nat} (h : c < n) (first : Nat) : (cellBits s init x first n).testBit c =
    xor (s.fabric.cells.contains (cellNumber x (first + c))) (init.contains (cellNumber x (first + c))) := by
  induction n generalizing first c with
  | zero => omega
  | succ n ih =>
    rw [cellBits]
    cases c with
    | zero =>
      rw [Nat.testBit_zero, Nat.add_mul_mod_self_left, Nat.add_zero]
      generalize xor _ _ = b
      cases b <;> rfl
    | succ c =>
      have hhalf : ∀ (b : Bool) (m : Nat), (b.toNat + 2 * m) / 2 = m := fun b m => by have := b.toNat_lt; omega
      rw [Nat.testBit_succ, hhalf, ih (by omega), Nat.add_right_comm, Nat.add_assoc]

/-- The fourteen shadow frames of a sector set. -/
def setShadow (x : Nat) (v : Nat → Nat) (s : State) : State :=
  s.onConfig (fun c => { c with shadow := (List.range 14).foldl (fun m f => smSet 0 m (x * 14 + f) (v f)) c.shadow })

theorem snapshot_eq (init : List Nat) (frozen noEdge : Bool) (ts x : Nat) (s : State) :
    snapshot init frozen noEdge ts x s = setShadow x (shadowFrame s init x frozen noEdge ts) s := by
  unfold snapshot setShadow State.onConfig
  with_reducible rfl

theorem shadowFrame_zero (s : State) (init : List Nat) (x : Nat) (frozen noEdge : Bool) (ts : Nat) :
    shadowFrame s init x frozen noEdge ts 0 = cellBits s init x 0 4096 := by
  rw [shadowFrame, if_pos (by decide), Nat.mul_zero]

theorem setShadow_first (x : Nat) (v : Nat → Nat) (s : State) : smGet 0 (setShadow x v s).config.shadow (x * 14) = v 0 := by
  rw [setShadow, State.onConfig_config, List.range_succ_eq_map, List.foldl_cons, foldl_stands (fun m => smGet 0 m (x * 14))]
  · exact smGet_smSet_same ..
  · intro f hf m
    obtain ⟨g, -, rfl⟩ := List.mem_map.1 hf
    exact smGet_smSet_other _ _ _ _ _ (by omega)

/-- The shadow frames of one sector are none of another's. -/
theorem setShadow_other {x y : Nat} (h : x ≠ y) (v : Nat → Nat) (s : State) :
    smGet 0 (setShadow y v s).config.shadow (x * 14) = smGet 0 s.config.shadow (x * 14) := by
  rw [setShadow, State.onConfig_config]
  refine foldl_stands (fun m => smGet 0 m (x * 14)) _ _ fun f hf m => smGet_smSet_other _ _ _ _ _ ?_
  have := List.mem_range.1 hf
  omega

theorem snapshot_fabric (init : List Nat) (frozen noEdge : Bool) (ts x : Nat) (s : State) :
    (snapshot init frozen noEdge ts x s).fabric = s.fabric := by
  rw [snapshot_eq, setShadow, State.onConfig_fabric]

theorem snapshot_capDue (init : List Nat) (frozen noEdge : Bool) (ts x : Nat) (s : State) :
    (snapshot init frozen noEdge ts x s).config.capDue = s.config.capDue := by
  rw [snapshot_eq, setShadow, State.onConfig_config]

theorem snapshot_regs (init : List Nat) (frozen noEdge : Bool) (ts x : Nat) (s : State) :
    (snapshot init frozen noEdge ts x s).regs = s.regs := by
  rw [snapshot_eq, setShadow, State.onConfig_regs]

/-- The sectors of an island take their snapshots one after another. -/
def snapshots (init : List Nat) (ts : Nat) (xs : List Nat) (s : State) : State :=
  xs.foldl (fun t x => snapshot init false false ts x t) s

theorem frame_snapshots (init : List Nat) (ts : Nat) (xs : List Nat) (s : State) : Frame [.config] [] s (snapshots init ts xs s) :=
  frame_foldl xs s fun x _ u => by
    rw [snapshot_eq, setShadow]
    exact frame_onConfig u _

theorem snapshots_capDue (init : List Nat) (ts : Nat) (xs : List Nat) (s : State) :
    (snapshots init ts xs s).config.capDue = s.config.capDue :=
  foldl_stands (fun u : State => u.config.capDue) xs s fun x _ u => snapshot_capDue init false false ts x u

theorem cellBits_congr {s t : State} (h : t.fabric = s.fabric) (init : List Nat) (x n first : Nat) :
    cellBits t init x first n = cellBits s init x first n := by
  induction n generalizing first with
  | zero => rfl
  | succ n ih => rw [cellBits, cellBits, h, ih]

/-- Shadow frame 0 of each sector of an island holds its first 4096 macrocells. -/
theorem snapshots_first (init : List Nat) (ts : Nat) {x : Nat} {xs : List Nat} (h : x ∈ xs) (s : State) :
    smGet 0 (snapshots init ts xs s).config.shadow (x * 14) = cellBits s init x 0 4096 := by
  have hset : ∀ u : State, u.fabric = s.fabric →
      smGet 0 (snapshot init false false ts x u).config.shadow (x * 14) = cellBits s init x 0 4096 := fun u hu => by
    rw [snapshot_eq, setShadow_first, shadowFrame_zero, cellBits_congr hu]
  refine foldl_attains (I := fun u => u.fabric = s.fabric) (P := fun u => smGet 0 u.config.shadow (x * 14) = cellBits s init x 0 4096)
    (f := fun t x => snapshot init false false ts x t)
    (fun u _ hu => (snapshot_fabric init false false ts _ u).trans hu) hset (fun u y hu hx => ?_) xs s rfl (.inl h)
  by_cases hy : x = y
  · exact hy ▸ hset u hu
  · rw [snapshot_eq, setShadow_other hy]
    exact hx

/-! An island's snapshot ends (R145, R146). -/

/-- The fields that show how a capture stands. -/
def captureFlds : List Fld := [CFG_CAP_STATUS_BUSY, CFG_CAP_STATUS_VALID]

/-- An island is due no more. -/
def dueWithout (l : Nat) (s : State) : State :=
  s.onConfig (fun c => { c with capDue := c.capDue.filter (· ≠ l), capEdge := c.capEdge.filter (·.1 ≠ l) })

/-- The capture is over and valid. -/
def captureOver (s : State) : State := s.puts [(CFG_CAP_STATUS_BUSY, 0), (CFG_CAP_STATUS_VALID, 1)]

/-- An island is due no more; with the last one the capture is over, before its end triggers anything. -/
def snapshotTaken (l : Nat) (s : State) : State :=
  if s.config.capDue.filter (· ≠ l) = [] then captureOver (dueWithout l s) else dueWithout l s

theorem endSnapshot_eq (l : Nat) (s : State) : endSnapshot l s =
    if s.config.capDue.filter (· ≠ l) = [] then xtSource 5 (snapshotTaken l s) else snapshotTaken l s := by
  have hrun : endSnapshot l s = if (s.config.capDue.filter (· ≠ l)).isEmpty then xtSource 5 (captureOver (dueWithout l s))
      else dueWithout l s := rfl
  rw [hrun, snapshotTaken]
  by_cases h : s.config.capDue.filter (· ≠ l) = []
  · rw [if_pos (List.isEmpty_iff.2 h), if_pos h, if_pos h]
  · rw [if_neg (mt List.isEmpty_iff.1 h), if_neg h, if_neg h]

theorem frame_snapshotTaken (l : Nat) (s : State) : Frame [.config] captureFlds s (snapshotTaken l s) := by
  have hdue : Frame [.config] captureFlds s (dueWithout l s) := (frame_onConfig s _).mono (List.Subset.refl _) (by simp)
  unfold snapshotTaken
  split
  · exact hdue.trans ((frame_puts _ _).mono (List.nil_subset _) (fun _ hf => hf))
  · exact hdue

theorem snapshotTaken_config (l : Nat) (s : State) : (snapshotTaken l s).config = (dueWithout l s).config := by
  unfold snapshotTaken
  split
  · exact puts_config _ _
  · rfl

theorem snapshotTaken_last {l : Nat} {s : State} (h : s.config.capDue.filter (· ≠ l) = []) :
    (snapshotTaken l s).on CFG_CAP_STATUS_BUSY = false ∧ (snapshotTaken l s).on CFG_CAP_STATUS_VALID = true := by
  rw [snapshotTaken, if_pos h, captureOver, State.on, State.on,
    get_puts_mem (v := 0) _ _ (by decide) (by simp), get_puts_mem (v := 1) _ _ (by decide) (by simp)]
  exact ⟨rfl, rfl⟩

/-- A command that ends an island's snapshot after changes that leave the islands due. -/
theorem endsCapture_of_exec {c : Instr} {l : Nat} {s t : State} {P : State → Prop} (hexec : exec c s = .next (endSnapshot l t))
    (hdue : t.config.capDue = s.config.capDue) (hP : P (snapshotTaken l t)) : EndsCapture c l s P := by
  refine ⟨snapshotTaken l t, ?_, ?_, hP, fun h => snapshotTaken_last (hdue ▸ h)⟩
  · rw [hexec, endSnapshot_eq, hdue]
  · rw [snapshotTaken_config, ← hdue]
    rfl

section Island

variable {s : State} {sec : Sec} (hdue : s.config.capDue.contains (leaderOf s sec) = true)
include hdue

/-- The island has its edge with the command (R145). -/
theorem captureSnapshot_atEdge (hnew : (s.config.capEdge.map (·.1)).contains (leaderOf s sec) = false) (hedge : edgeReaches s sec = true)
    (init : List Nat) : EndsCapture (.captureSnapshot sec init) (leaderOf s sec) s fun t =>
      Frame [.config] [CFG_CAP_STATUS_BUSY, CFG_CAP_STATUS_VALID] s t ∧
      ∀ x ∈ captured s (leaderOf s sec), ∀ c, c < 4096 → (smGet 0 t.config.shadow (x * 14)).testBit c =
        xor (s.fabric.cells.contains (cellNumber x c)) (init.contains (cellNumber x c)) := by
  have hrun : exec (.captureSnapshot sec init) s = .next (endSnapshot (leaderOf s sec)
      (snapshots init s.clocks.ts (captured s (leaderOf s sec)) s.begin)) := by
    show execCaptureSnapshot sec init s = _
    have h1 : s.begin.config.capDue.contains (leaderOf s.begin sec) = true := hdue
    have h2 : (s.begin.config.capEdge.map (·.1)).contains (leaderOf s.begin sec) = false := hnew
    have h3 : edgeReaches s.begin sec = true := hedge
    rw [execCaptureSnapshot, if_neg (by simp only [h1]; decide), if_neg (by simp only [h2]; decide), if_neg (by simp only [h3]; decide)]
    rfl
  refine endsCapture_of_exec hrun (snapshots_capDue ..) ⟨?_, fun x hx c hc => ?_⟩
  · exact (((frame_snapshots ..).mono (List.Subset.refl _) (by simp)).trans (frame_snapshotTaken _ _)).begin
  · rw [snapshotTaken_config]
    show (smGet 0 (snapshots init s.clocks.ts (captured s (leaderOf s sec)) s.begin).config.shadow _).testBit c = _
    rw [snapshots_first init s.clocks.ts hx s.begin, cellBits_testBit _ _ _ hc, Nat.zero_add, State.begin_fabric]

/-- The island had its edge before the command, which gives the initial values (R145). -/
theorem captureSnapshot_afterEdge (hhad : (s.config.capEdge.map (·.1)).contains (leaderOf s sec) = true) (init : List Nat) :
    EndsCapture (.captureSnapshot sec init) (leaderOf s sec) s fun t => Frame [.config] [CFG_CAP_STATUS_BUSY, CFG_CAP_STATUS_VALID] s t := by
  have hrun : exec (.captureSnapshot sec init) s = .next (endSnapshot (leaderOf s sec)
      ((captured s (leaderOf s sec)).foldl (fun t x => withInitial init x t) s.begin)) := by
    show execCaptureSnapshot sec init s = _
    have h1 : s.begin.config.capDue.contains (leaderOf s.begin sec) = true := hdue
    have h2 : (s.begin.config.capEdge.map (·.1)).contains (leaderOf s.begin sec) = true := hhad
    rw [execCaptureSnapshot, if_neg (by simp only [h1]; decide), if_pos h2]
    rfl
  have hwith : ∀ (x : Nat) (u : State), Frame [.config] [] u (withInitial init x u) := fun x u => by
    unfold withInitial
    exact frame_onConfig u _
  have hframe : Frame [.config] [] s.begin ((captured s (leaderOf s sec)).foldl (fun t x => withInitial init x t) s.begin) :=
    frame_foldl _ s.begin fun x _ u => hwith x u
  refine endsCapture_of_exec hrun (foldl_stands (fun u : State => u.config.capDue) _ _ fun _ _ _ => rfl) ?_
  exact ((hframe.mono (List.Subset.refl _) (by simp)).trans (frame_snapshotTaken _ _)).begin

end Island

/-! An island without an edge (R146). -/

/-- A sector is marked as captured without an edge. -/
def markNoEdge (x : Nat) (s : State) : State := s.putBit (CFG_CAP_NOEDGE_SEC (x / 32)) (x % 32) true

theorem markNoEdge_fabric (x : Nat) (s : State) : (markNoEdge x s).fabric = s.fabric := rfl

theorem markNoEdge_config (x : Nat) (s : State) : (markNoEdge x s).config = s.config := rfl

/-- A sector's mark. -/
def noEdgeMark (s : State) (x : Nat) : Bool := s.bit (CFG_CAP_NOEDGE_SEC (x / 32)) (x % 32)

theorem noEdgeMark_markNoEdge (x : Nat) (s : State) : noEdgeMark (markNoEdge x s) x = true :=
  bit_putBit_same s _ _ _ (Nat.mod_lt x (by decide))

/-- A mark that is set stays set. -/
theorem noEdgeMark_stays {s : State} {x : Nat} (h : noEdgeMark s x = true) (y : Nat) : noEdgeMark (markNoEdge y s) x = true := by
  by_cases hdie : x / 32 = y / 32
  · by_cases hbit : x % 32 = y % 32
    · have hxy : x = y := by omega
      exact hxy ▸ noEdgeMark_markNoEdge x s
    · rw [noEdgeMark, markNoEdge, ← hdie, bit_putBit_other s _ _ _ _ hbit (Nat.mod_lt x (by decide))]
      exact h
  · have hne : (CFG_CAP_NOEDGE_SEC (x / 32)).key ≠ (CFG_CAP_NOEDGE_SEC (y / 32)).key := by
      simp only [CFG_CAP_NOEDGE_SEC]
      omega
    rw [noEdgeMark, State.bit, markNoEdge, State.putBit, get_put_other _ _ _ _ hne]
    exact h

/-- Sectors' snapshots without an edge, each marked. -/
def snapshotsNoEdge (init : List Nat) (frozen : Bool) (ts : Nat) (xs : List Nat) (s : State) : State :=
  xs.foldl (fun u x => markNoEdge x (snapshot init frozen true ts x u)) s

theorem snapshotsNoEdge_marked (init : List Nat) (frozen : Bool) (ts : Nat) {x : Nat} {xs : List Nat} (h : x ∈ xs) (s : State) :
    noEdgeMark (snapshotsNoEdge init frozen ts xs s) x = true := by
  refine foldl_attains (I := fun _ => True) (P := fun u => noEdgeMark u x = true) (f := fun u x => markNoEdge x (snapshot init frozen true ts x u))
    (fun _ _ _ => trivial) (fun _ _ => noEdgeMark_markNoEdge x _) (fun u y _ hu => noEdgeMark_stays ?_ y) xs s trivial (.inl h)
  rw [noEdgeMark, State.bit, State.get, snapshot_regs]
  exact hu

theorem snapshotsNoEdge_fabric (init : List Nat) (frozen : Bool) (ts : Nat) (xs : List Nat) (s : State) :
    (snapshotsNoEdge init frozen ts xs s).fabric = s.fabric := foldl_stands State.fabric xs s fun x _ u =>
    (markNoEdge_fabric x _).trans (snapshot_fabric init frozen true ts x u)

theorem snapshotsNoEdge_capDue (init : List Nat) (frozen : Bool) (ts : Nat) (xs : List Nat) (s : State) :
    (snapshotsNoEdge init frozen ts xs s).config.capDue = s.config.capDue :=
  foldl_stands (fun u : State => u.config.capDue) xs s fun x _ u =>
    (congrArg Config.capDue (markNoEdge_config x _)).trans (snapshot_capDue init frozen true ts x u)

theorem captureNoEdge_ends {s : State} {sec : Sec} (hdue : s.config.capDue.contains (leaderOf s sec) = true)
    (hnew : (s.config.capEdge.map (·.1)).contains (leaderOf s sec) = false) (hbusy : s.on CFG_CAP_STATUS_BUSY = true) (init : List Nat) :
    EndsCapture (.captureNoEdge sec init) (leaderOf s sec) s fun t => t.fabric = s.fabric ∧
      ∀ x ∈ captured s (leaderOf s sec), x < 128 → t.bit (CFG_CAP_NOEDGE_SEC (x / 32)) (x % 32) = true := by
  have hsome : s.config.capDue.isEmpty = false := by
    cases hlist : s.config.capDue with
    | nil => simp [hlist] at hdue
    | cons => rfl
  have hrun : exec (.captureNoEdge sec init) s = .next (endSnapshot (leaderOf s sec)
      ((snapshotsNoEdge init (islandFrozen s sec) (s.get64 CFG_CAP_TS_LO_TS CFG_CAP_TS_HI_TS) (captured s (leaderOf s sec)) s.begin).put
        CFG_CAP_STATUS_NO_EDGE (min 255 ((snapshotsNoEdge init (islandFrozen s sec) (s.get64 CFG_CAP_TS_LO_TS CFG_CAP_TS_HI_TS)
          (captured s (leaderOf s sec)) s.begin).get CFG_CAP_STATUS_NO_EDGE + (captured s (leaderOf s sec)).length)))) := by
    show execCaptureNoEdge sec init s = _
    have h1 : s.begin.on CFG_CAP_STATUS_BUSY = true := hbusy
    have h2 : s.begin.config.capDue.contains (leaderOf s.begin sec) = true := hdue
    have h3 : (s.begin.config.capEdge.map (·.1)).contains (leaderOf s.begin sec) = false := hnew
    rw [execCaptureNoEdge, if_neg (by simp only [h1]; decide), if_neg (by simp only [State.begin_config, hsome]; decide),
      if_neg (by simp only [h2, h3]; decide)]
    rfl
  refine endsCapture_of_exec hrun (snapshotsNoEdge_capDue ..) ⟨?_, fun x hx hlt => ?_⟩
  · exact ((frame_snapshotTaken _ _).fabric (by simp)).trans (snapshotsNoEdge_fabric ..)
  · have hout : (CFG_CAP_NOEDGE_SEC (x / 32)).key ∉ captureFlds.map Fld.key := by
      have hlow : ∀ k ∈ captureFlds.map Fld.key, k < 0x30000040260 * 32 := by decide
      intro hm
      have := hlow _ hm
      simp only [CFG_CAP_NOEDGE_SEC] at this
      omega
    have hne : (CFG_CAP_NOEDGE_SEC (x / 32)).key ≠ CFG_CAP_STATUS_NO_EDGE.key := by
      simp only [CFG_CAP_NOEDGE_SEC, CFG_CAP_STATUS_NO_EDGE]
      omega
    rw [State.bit, (frame_snapshotTaken _ _).get _ hout, get_put_other _ _ _ _ hne]
    exact snapshotsNoEdge_marked _ _ _ hx _

end Sys2Proof.Machine
end

section
/-! PROOFS. Readback: begun or refused by a register write, its frames at their destination (R149, R150). -/

namespace Sys2Proof.Machine

/-! GO and ABORT. -/

/-- GO with SHADOW is refused (R150). -/
def ReadbackRefused (shadow : Bool) (s : State) : Prop :=
  s.on CFG_RB_STATUS_BUSY = true ∨ fullLoading s = true ∨ s.get CFG_RB_COUNT_COUNT = 0 ∨
    (if shadow then 14 else 12288) < s.get CFG_RB_FRAME_FRAME + s.get CFG_RB_COUNT_COUNT ∨ s.get CFG_RB_DST_LO_ADDR % 64 ≠ 0

/-- A readback as GO begins it, from the registers. -/
def newReadback (shadow : Bool) (s : State) : Readback :=
  { shadow := shadow, sec := s.get CFG_RB_FRAME_DIE * 32 + s.get CFG_RB_FRAME_SECTOR, frame := s.get CFG_RB_FRAME_FRAME
    left := s.get CFG_RB_COUNT_COUNT, dst := s.get64 CFG_RB_DST_LO_ADDR CFG_RB_DST_HI_ADDR, abort := false
    waits := 3 ≤ s.get CFG_PR_STATUS_PHASE }

/-- SHADOW itself decides nothing that GO looks at. -/
theorem readbackRefused_flag (shadow : Bool) (s : State) :
    ReadbackRefused shadow (s.flag CFG_RB_CTRL_SHADOW shadow) ↔ ReadbackRefused shadow s := by
  have hget := (frame_flag s CFG_RB_CTRL_SHADOW shadow).get
  have hfull : fullLoading (s.flag CFG_RB_CTRL_SHADOW shadow) = fullLoading s := rfl
  simp only [ReadbackRefused, State.on, hfull, hget CFG_RB_STATUS_BUSY (by decide), hget CFG_RB_COUNT_COUNT (by decide),
    hget CFG_RB_FRAME_FRAME (by decide), hget CFG_RB_DST_LO_ADDR (by decide)]

/-- A readback begins. -/
def readbackBegun (rb : Readback) (s : State) : State :=
  (s.onConfig (fun c => { c with rb := some rb })).puts [(CFG_RB_STATUS_BUSY, 1), (CFG_RB_STATUS_UE, 0)]

theorem readbackGo_of_refused {shadow : Bool} {s : State} (h : ReadbackRefused shadow s) :
    readbackGo shadow s = (s.flag CFG_RB_CTRL_SHADOW shadow).flag CFG_RB_STATUS_REFUSED true := by
  have h' := (readbackRefused_flag shadow s).2 h
  unfold readbackGo
  extract_lets u n f
  refine if_pos ?_
  simp only [Bool.or_eq_true, decide_eq_true_eq, beq_iff_eq, bne_iff_ne]
  obtain hb | hl | hn | hf | hd := h'
  · exact .inl (.inl (.inl (.inl hb)))
  · exact .inl (.inl (.inl (.inr hl)))
  · exact .inl (.inl (.inr hn))
  · exact .inl (.inr hf)
  · exact .inr hd

theorem readbackGo_of_taken {shadow : Bool} {s : State} (h : ¬ ReadbackRefused shadow s) :
    readbackGo shadow s = readbackBegun (newReadback shadow (s.flag CFG_RB_CTRL_SHADOW shadow)) (s.flag CFG_RB_CTRL_SHADOW shadow) := by
  have h' := mt (readbackRefused_flag shadow s).1 h
  unfold readbackGo
  extract_lets u n f rb
  refine if_neg fun hc => h' ?_
  simp only [Bool.or_eq_true, decide_eq_true_eq, beq_iff_eq, bne_iff_ne] at hc
  obtain (((hb | hl) | hn) | hf) | hd := hc
  · exact .inl hb
  · exact .inr (.inl hl)
  · exact .inr (.inr (.inl hn))
  · exact .inr (.inr (.inr (.inl hf)))
  · exact .inr (.inr (.inr (.inr hd)))

section Registers

variable {s : State} {req : Requester} (hgate : regGate s req 0x030000040280 4 true = .reach)
include hgate

theorem readbackGo_ends_refused {shadow : Bool} (h : ReadbackRefused shadow s) : Ends (.readbackGo req shadow) s fun t =>
    t.on CFG_RB_STATUS_REFUSED = true ∧ t.on CFG_RB_STATUS_BUSY = s.on CFG_RB_STATUS_BUSY ∧
      t.out = [.done] ∧ Frame [] [CFG_RB_CTRL_SHADOW, CFG_RB_STATUS_REFUSED] s t := by
  refine ends_guardedWrite hgate (readbackGo shadow) ?_ rfl
  rw [readbackGo_of_refused (s := s.begin) h]
  have hframe : Frame [] [CFG_RB_CTRL_SHADOW, CFG_RB_STATUS_REFUSED] s.begin
      ((s.begin.flag CFG_RB_CTRL_SHADOW shadow).flag CFG_RB_STATUS_REFUSED true) :=
    ((frame_flag _ _ shadow).mono (List.nil_subset _) (by simp)).trans ((frame_flag _ _ true).mono (List.nil_subset _) (by simp))
  have hbusy := hframe.begin.get CFG_RB_STATUS_BUSY (by decide)
  exact ⟨on_flag_same _ CFG_RB_STATUS_REFUSED true rfl, by rw [State.on, State.on, ← hbusy]; rfl, rfl, hframe.begin.emit _⟩

theorem readbackGo_ends_begun {shadow : Bool} (h : ¬ ReadbackRefused shadow s) : Ends (.readbackGo req shadow) s fun t =>
    t.on CFG_RB_STATUS_BUSY = true ∧ t.config.rb.map (·.left) = some (s.get CFG_RB_COUNT_COUNT) ∧
      Frame [.config] [CFG_RB_CTRL_SHADOW, CFG_RB_STATUS_BUSY, CFG_RB_STATUS_UE] s t := by
  refine ends_guardedWrite hgate (readbackGo shadow) ?_ rfl
  rw [readbackGo_of_taken (s := s.begin) h]
  have hleft : (newReadback shadow (s.begin.flag CFG_RB_CTRL_SHADOW shadow)).left = s.get CFG_RB_COUNT_COUNT :=
    (frame_flag s.begin CFG_RB_CTRL_SHADOW shadow).get _ (by decide)
  generalize newReadback shadow (s.begin.flag CFG_RB_CTRL_SHADOW shadow) = rb at hleft
  refine ⟨?_, ?_, (Frame.begin ?_).emit _⟩
  · show State.on _ _ = true
    rw [State.on, State.emit_get, readbackBegun, get_puts_mem (v := 1) _ _ (by decide) (by simp)]
    rfl
  · rw [State.emit_config, readbackBegun, puts_config]
    exact congrArg some hleft
  · exact ((frame_flag _ _ shadow).mono (List.nil_subset _) (by simp)).trans
      (((frame_onConfig _ _).mono (List.Subset.refl _) (by simp)).trans ((frame_puts _ _).mono (List.nil_subset _) (by simp)))

theorem readbackAbort_ends : Ends (.readbackAbort req) s fun t => Frame [.config] [] s t ∧ t.out = [.done] ∧
    t.config.rb = s.config.rb.map (fun r => { r with abort := true }) :=
  ends_guardedWrite hgate readbackAbort ⟨(frame_onConfig s.begin _).begin.emit _, rfl, rfl⟩ rfl

end Registers

/-! The bytes of a frame. -/

theorem scrubByte_dram (s : State) (x frame byte : Nat) : (scrubByte s x frame byte).dram = s.dram := by
  unfold scrubByte
  dsimp only
  split
  · rfl
  · exact (frame_count s _ true).dram (by simp)
  · exact ((frame_raiseLeaf 20 RAS_CAUSE_CFG_UE _).dram (by simp)).trans
      (((frame_count _ _ true).dram (by simp)).trans ((frame_puts _ s).dram (by simp)))

theorem configByte_dram (s : State) (x frame b : Nat) : (configByte s x frame b).2.dram = s.dram := by
  unfold configByte
  extract_lets key w
  split
  · rfl
  · rfl
  · refine ((frame_count _ CFG_RB_STATUS_UE true).dram (by simp)).trans ?_
    split
    · rfl
    · exact scrubByte_dram ..

theorem configBytes_dram (x frame b k : Nat) (s : State) : (configBytes x frame b k s).2.dram = s.dram := by
  induction k generalizing b s with
  | zero => rfl
  | succ k ih => rw [configBytes, ih, configByte_dram]

/-- The read of a frame leaves channel DRAM. -/
theorem readbackBytes_dram (r : Readback) (s : State) : (readbackBytes r s).2.dram = s.dram := by
  unfold readbackBytes
  split
  · rfl
  · split
    · rfl
    · exact configBytes_dram ..

/-- A shadow frame is read as it is. -/
theorem readbackBytes_shadow {r : Readback} (h : r.shadow = true) (s : State) :
    readbackBytes r s = (toBytes (smGet 0 s.config.shadow (r.sec * 14 + r.frame)) 512, s) := if_pos h

/-! A frame done. -/

/-- The readback after a frame that is not its last. -/
def Readback.next (r : Readback) : Readback := { r with frame := r.frame + 1, left := r.left - 1, dst := r.dst + 512 }

section Frames

variable {s : State} {r : Readback} (hrb : s.config.rb = some r) (hruns : r.waits = false)
include hrb hruns

/-- The bus answers a frame with an error. -/
theorem exec_readbackFrameDone_error : exec (.readbackFrameDone true []) s =
    .next (endReadback ((readbackBytes r s.begin).2.flag CFG_RB_STATUS_BUS_ERR true)) := by
  show execReadbackFrameDone true [] s = _
  simp only [execReadbackFrameDone, State.begin_config, hrb, hruns, upsetFrame, List.foldl_nil, ite_self, if_true, Bool.false_eq_true, if_false]

/-- A frame that its destination takes. -/
theorem exec_readbackFrameDone_stored {u : State} (h : putFrame r.dst (readbackBytes r s.begin).1 (readbackBytes r s.begin).2 = (some .ack, u)) :
    exec (.readbackFrameDone false []) s = .next (if r.left ≤ 1 ∨ r.abort then endReadback u
      else u.onConfig (fun c => { c with rb := some r.next })) := by
  show execReadbackFrameDone false [] s = _
  simp only [execReadbackFrameDone, State.begin_config, hrb, hruns, upsetFrame, List.foldl_nil, ite_self, Bool.false_eq_true, if_false, h]
  split
  · rfl
  · rw [Readback.next, hruns]

/-- A frame to an address that nothing claims. -/
theorem exec_readbackFrameDone_unclaimed {u : State}
    (h : putFrame r.dst (readbackBytes r s.begin).1 (readbackBytes r s.begin).2 = (some .errDecode, u)) :
    exec (.readbackFrameDone false []) s = .next (endReadback (u.flag CFG_RB_STATUS_BUS_ERR true)) := by
  show execReadbackFrameDone false [] s = _
  simp only [execReadbackFrameDone, State.begin_config, hrb, hruns, upsetFrame, List.foldl_nil, ite_self, Bool.false_eq_true, if_false, h]

end Frames

/-- A readback that is over. -/
theorem endReadback_ended (s : State) : (endReadback s).config.rb = none ∧ (endReadback s).on CFG_RB_STATUS_BUSY = false :=
  ⟨rfl, on_flag_same _ CFG_RB_STATUS_BUSY false rfl⟩

theorem frame_endReadback (s : State) : Frame [.config] [CFG_RB_STATUS_BUSY] s (endReadback s) :=
  ((frame_onConfig s _).mono (List.Subset.refl _) (by simp)).trans ((frame_flag _ _ false).mono (List.nil_subset _) (by simp))

/-- One that a bus error has ended. -/
theorem endReadback_busError (s : State) : (endReadback (s.flag CFG_RB_STATUS_BUS_ERR true)).on CFG_RB_STATUS_BUS_ERR = true := by
  rw [State.on, (frame_endReadback _).get _ (by decide)]
  exact on_flag_same s CFG_RB_STATUS_BUS_ERR true rfl

/-! A destination that nothing claims. -/

/-- No plain memory stands where no target does. -/
theorem plainOf_unmapped {addr : Nat} (h : locate addr = .unmapped) : plainOf addr = none := by
  rw [plainOf]
  split
  · next hhub =>
    refine if_neg fun hlow => ?_
    have hdram : addr % 2 ^ 48 < 0x010000000000 := by
      simp only [hubSram] at hhub hlow
      omega
    rw [locate, if_pos hdram] at h
    cases h
  · rw [h]

/-- A write of a frame's bytes to an address that nothing claims. -/
theorem serve_frameAsk_unmapped {addr : Nat} (h : locate addr = .unmapped) (data : List Byte) (s : State) :
    serve (frameAsk addr data) s = (.done .errDecode, s) := by
  have hask : locate (frameAsk addr data).addr = .unmapped := h
  by_cases hmap : (frameAsk addr data).addr < hubSram
  · have hpass : passesSwitch s (frameAsk addr data) = false := by rw [passesSwitch, hask]
    exact serve_unmapped ⟨hmap, by rw [switchStop, hpass]; rfl, by rw [waitsForChannel, hask]⟩ hask
  · rw [serve, if_pos (Nat.le_of_not_lt hmap), serveMemory_write rfl, serveWrite, plainOf_unmapped hask]

theorem putFrame_unmapped {addr : Nat} (h : locate addr = .unmapped) (data : List Byte) (s : State) :
    putFrame addr data s = (some .errDecode, s) := by
  have hblock : storeBlock addr (data.take 64) s = (some .errDecode, s) := by rw [storeBlock, serve_frameAsk_unmapped h]
  rw [putFrame, plainOf_unmapped h, if_neg (by decide), storeFrame, hblock]

/-! A frame of shadow cells done, and any that the bus refuses. -/

section Frames

variable {s : State} {r : Readback} (hrb : s.config.rb = some r) (hruns : r.waits = false)
include hrb hruns

theorem readbackFrameDone_error : Ends (.readbackFrameDone true []) s fun t => t.config.rb = none ∧
    t.on CFG_RB_STATUS_BUSY = false ∧ t.on CFG_RB_STATUS_BUS_ERR = true ∧ t.dram = s.dram ∧
    (r.shadow = true → Frame [.config] [CFG_RB_STATUS_BUSY, CFG_RB_STATUS_BUS_ERR] s t) := by
  have hend := fun u => ((frame_flag u CFG_RB_STATUS_BUS_ERR true).mono (List.nil_subset [Comp.config])
    (by simp : ∀ f ∈ _, f ∈ [CFG_RB_STATUS_BUSY, CFG_RB_STATUS_BUS_ERR])).trans
    ((frame_endReadback (u.flag CFG_RB_STATUS_BUS_ERR true)).mono (List.Subset.refl _) (by simp))
  obtain ⟨hnone, hidle⟩ := endReadback_ended ((readbackBytes r s.begin).2.flag CFG_RB_STATUS_BUS_ERR true)
  refine ⟨_, exec_readbackFrameDone_error hrb hruns, hnone, hidle, endReadback_busError _, ?_, fun hshadow => ?_⟩
  · exact ((hend _).dram (by simp)).trans (readbackBytes_dram r s.begin)
  · rw [readbackBytes_shadow hshadow]
    exact (hend s.begin).begin

theorem readbackFrameDone_last (hlast : r.left ≤ 1 ∨ r.abort = true) (hshadow : r.shadow = true)
    (htaken : ∀ d, (putFrame r.dst d s.begin).1 = some .ack) : Ends (.readbackFrameDone false []) s fun t =>
    t.config.rb = none ∧ t.on CFG_RB_STATUS_BUSY = false := by
  have hput : putFrame r.dst (readbackBytes r s.begin).1 (readbackBytes r s.begin).2 =
      (some .ack, (putFrame r.dst (readbackBytes r s.begin).1 (readbackBytes r s.begin).2).2) := by
    rw [readbackBytes_shadow hshadow]
    exact Prod.ext (htaken _) rfl
  refine ⟨_, exec_readbackFrameDone_stored hrb hruns hput, ?_⟩
  rw [if_pos hlast]
  exact endReadback_ended _

theorem readbackFrameDone_unclaimed (h : locate r.dst = .unmapped) : Ends (.readbackFrameDone false []) s fun t =>
    t.config.rb = none ∧ t.on CFG_RB_STATUS_BUSY = false ∧ t.on CFG_RB_STATUS_BUS_ERR = true := by
  obtain ⟨hnone, hidle⟩ := endReadback_ended ((readbackBytes r s.begin).2.flag CFG_RB_STATUS_BUS_ERR true)
  exact ⟨_, exec_readbackFrameDone_unclaimed hrb hruns (putFrame_unmapped h _ _), hnone, hidle, endReadback_busError _⟩

theorem readbackFrameDone_moves (hmore : 1 < r.left) (hgoes : r.abort = false) (hshadow : r.shadow = true) {u : State}
    (hput : putFrame r.dst (toBytes (smGet 0 s.config.shadow (r.sec * 14 + r.frame)) 512) s.begin = (some .ack, u)) :
    Ends (.readbackFrameDone false []) s fun t => t.config.rb = some r.next ∧ Frame [.config] [] u t := by
  refine ⟨_, exec_readbackFrameDone_stored hrb hruns (by rw [readbackBytes_shadow hshadow]; exact hput), ?_⟩
  rw [if_neg (by simp [hmore, hgoes])]
  exact ⟨rfl, frame_onConfig u _⟩

end Frames

/-- Settles O23: each command of capture and readback by the claims about it. -/
theorem captureAndReadbackRunToTheirEnd : Obligations.CaptureAndReadbackRunToTheirEnd := by
  unfold Obligations.CaptureAndReadbackRunToTheirEnd
  intro s
  refine ⟨fun req en h hbusy hrb => captureGo_begins h hbusy hrb en,
    fun sec init hdue hnew => ⟨fun hedge => captureSnapshot_atEdge hdue hnew hedge init, fun hbusy => captureNoEdge_ends hdue hnew hbusy init⟩,
    fun sec init hdue hhad => captureSnapshot_afterEdge hdue hhad init,
    fun req shadow h => ⟨readbackGo_ends_refused h, fun hbusy hfull hcount hframe halign => readbackGo_ends_begun h ?_, readbackAbort_ends h⟩,
    fun r hrb hruns hshadow => ⟨fun hlast htaken => readbackFrameDone_last hrb hruns hlast hshadow htaken,
      fun _ _ hloc => readbackFrameDone_unclaimed hrb hruns hloc,
      fun hmore hgoes u hput _ => readbackFrameDone_moves hrb hruns hmore hgoes hshadow hput⟩,
    fun r hrb hruns => readbackFrameDone_error hrb hruns⟩
  rintro (hb | hl | hn | hf | hd)
  · rw [hbusy] at hb
    cases hb
  · rw [hfull] at hl
    cases hl
  · omega
  · omega
  · exact hd halign

end Sys2Proof.Machine
end
